-- ==== Sys2Proof/Word.lean ====
section
/-! DEFINITION. Word: the word types of the core and the plainest arithmetic on them (spec/00, R5; spec/05, R81). -/

namespace Sys2Proof

/-- A scalar register's 64 bits. -/
abbrev Word := BitVec 64

/-- One byte. -/
abbrev Byte := BitVec 8

end Sys2Proof
end

