-- ==== Sys2Proof/Config.lean ====
section
/-! DEFINITION. Config: what the spec leaves open, as constants without a body: nothing can evaluate them, so a claim holds
whatever they are (log 5, 12, 13, 77, 103). -/

namespace Sys2Proof.Config

/-- What an element that nothing has written since a launch, a claim or an allocation holds (Reset U, R62, R58, R212, R325):
`epoch` numbers the moment it became unknown, `place` the element. -/
opaque freeBits (w : Nat) (epoch place : Nat) : BitVec w

/-- The rounding of a special function whose enclosure at the model's working precision does not decide it (R251, log 12):
`fn` names the function, `fmt` the lane format, `x` the lane's bits. -/
opaque undecidedRound (fn fmt : Nat) (x : Nat) : Bool

/-- Bytes of messages whose formats the spec leaves to other standards (SPDM, IDE_KM, TDISP; R400 to R403, log 13). -/
opaque messageBytes (kind : Nat) (input : List Byte) : List Byte

/-- A signature made or a key agreed with the device's keys (R398 to R401, log 13). -/
opaque signature (key : Nat) (input : List Byte) : List Byte

/-- Whether a signature over bytes is good under a key (R398, log 13). -/
opaque signatureOk (key : Nat) (signed sig : List Byte) : Bool

/-- The minimum security version of an image kind that the firmware asks for when it has booted: a lower one than the fuses hold changes
nothing (R398, log 13). -/
opaque svnRaise (kind old : Nat) : Nat

/-- Keys, nonces and secrets that the part derives or draws (R398 to R406, log 13). -/
opaque secret (kind n : Nat) : BitVec 256

/-- The kind of a page of another package, or behind a window that reaches no page here: package and key of the window, and the page
(R113, R225, log 77). -/
opaque farKind (pkg key page : Nat) : BitVec 3

/-- How many bytes a key of another package covers: what a drain through it is checked against at its launch (R243, log 103). -/
opaque farLimit (pkg key : Nat) : Nat

end Sys2Proof.Config
end

