-- ==== Sys2Proof/Machine/Num.lean ====
section
/-! DEFINITION. Machine/Num: number formats bit by bit and rounding into them (spec/04, spec/05): exact values are sign,
magnitude and a power of two; nothing is rounded but by `roundMag` and `roundInt`. -/

namespace Sys2Proof.Machine

/-- Number of bits of `n`: 0 for 0. -/
def bitlen (n : Nat) : Nat := if n = 0 then 0 else n.log2 + 1

/-- `n` shifted by `k` places to the left, or to the right when `k` is negative (bits fall off). -/
def shiftI (n : Nat) (k : Int) : Nat := if 0 ≤ k then n * 2 ^ k.toNat else n / 2 ^ (-k).toNat

/-- A binary floating-point format: exponent and fraction widths, bias, largest finite magnitude pattern, and whether it
has infinities and NaNs (R68, R69). -/
structure FpFmt where
  ebits : Nat
  fbits : Nat
  bias : Nat
  maxPat : Nat
  hasInf : Bool
  hasNan : Bool
deriving DecidableEq, Repr

def fp64 : FpFmt := ⟨11, 52, 1023, 0x7FEFFFFFFFFFFFFF, true, true⟩
def fp32 : FpFmt := ⟨8, 23, 127, 0x7F7FFFFF, true, true⟩
def bf16 : FpFmt := ⟨8, 7, 127, 0x7F7F, true, true⟩
def fp16 : FpFmt := ⟨5, 10, 15, 0x7BFF, true, true⟩
def e5m2 : FpFmt := ⟨5, 2, 15, 0x7B, true, true⟩
def e4m3 : FpFmt := ⟨4, 3, 7, 0x7E, false, true⟩
def e3m2 : FpFmt := ⟨3, 2, 3, 0x1F, false, false⟩
def e2m3 : FpFmt := ⟨2, 3, 1, 0x1F, false, false⟩
def e2m1 : FpFmt := ⟨2, 1, 1, 0x7, false, false⟩

/-- Bits of a format. -/
def FpFmt.width (f : FpFmt) : Nat := 1 + f.ebits + f.fbits

/-- The exponent of the last place of a format's subnormals. -/
def FpFmt.emin (f : FpFmt) : Int := 1 - (f.bias : Int) - (f.fbits : Int)

/-- An exact operand: NaN, an infinity, or ± m · 2^e (m = 0 is a zero that keeps its sign, R70). -/
inductive FpVal where
  | nan
  | inf (neg : Bool)
  | fin (neg : Bool) (m : Nat) (e : Int)
deriving DecidableEq, Repr

/-- The value of a pattern (R68, R69). -/
def fpRead (f : FpFmt) (x : Nat) : FpVal :=
  let mag := x % 2 ^ (f.ebits + f.fbits)
  let neg := x / 2 ^ (f.ebits + f.fbits) % 2 = 1
  if mag ≤ f.maxPat then
    let E := mag / 2 ^ f.fbits
    let F := mag % 2 ^ f.fbits
    if E = 0 then .fin neg F f.emin else .fin neg (2 ^ f.fbits + F) (f.emin + (E : Int) - 1)
  else if f.hasInf && mag == f.maxPat + 1 then .inf neg else .nan

/-- Rounding modes, by the codes of R62. -/
inductive RMode where
  | ne | tz | up | dn | sr | na
deriving DecidableEq, Repr

/-- The mode a three-bit code names; 110 and 111 are reserved (R62). -/
def rmode : Nat → Option RMode
  | 0 => some .ne | 1 => some .tz | 2 => some .up | 3 => some .dn | 4 => some .sr | 5 => some .na | _ => none

/-- What rounding gives: the magnitude pattern (or integer) and what was lost. -/
structure Rounded where
  pat : Nat
  inexact : Bool
  overflow : Bool
  tiny : Bool
deriving DecidableEq, Repr

/-- Whether rounding goes to the neighbour farther from zero (R83): `r` of `2^s` is discarded, `sticky` says that a further
positive part below that is discarded, `odd` is the last bit of the nearer neighbour. -/
def roundAway (mode : RMode) (neg odd : Bool) (r s : Nat) (sticky : Bool) (r16 : Nat) : Bool :=
  if r = 0 && !sticky then false else
  match mode with
  | .ne => if 2 * r > 2 ^ s then true else if 2 * r = 2 ^ s then sticky || odd else false
  | .na => 2 * r ≥ 2 ^ s
  | .tz => false
  | .up => !neg
  | .dn => neg
  | .sr => r * 2 ^ 16 / 2 ^ s + r16 ≥ 2 ^ 16

/-- Rounds the magnitude m · 2^e (plus a positive part below its last place when `sticky`) into format `f` (R83). -/
def roundMag (f : FpFmt) (mode : RMode) (neg : Bool) (m : Nat) (e : Int) (sticky : Bool) (r16 : Nat) : Rounded :=
  if m = 0 && !sticky then ⟨0, false, false, false⟩ else
  let q := max (e + (bitlen m : Int) - 1 - f.fbits) f.emin
  let s := (q - e).toNat
  let k := shiftI m (e - q)
  let r := if e < q then m % 2 ^ s else 0
  let lo := (q - f.emin).toNat * 2 ^ f.fbits + k
  let away := roundAway mode neg (k % 2 == 1) r s sticky r16
  let res := if away then lo + 1 else lo
  let inexact := r != 0 || sticky
  -- tiny after rounding: the result, rounded as if exponents had no lower end, is below the smallest normal
  let q' := e + (bitlen m : Int) - 1 - f.fbits
  let s' := (q' - e).toNat
  let k' := shiftI m (e - q')
  let r' := if e < q' then m % 2 ^ s' else 0
  let k'' := if roundAway mode neg (k' % 2 == 1) r' s' sticky r16 then k' + 1 else k'
  let tiny := q' < f.emin && !(k'' == 2 ^ (f.fbits + 1) && q' + 1 == f.emin)
  let tooBig := lo > f.maxPat || (lo == f.maxPat && inexact)
  if tooBig then
    let inf := f.maxPat + 1
    let p := if !f.hasInf then f.maxPat else
      match mode with
      | .ne => if lo > f.maxPat then inf else res
      | .na => if lo > f.maxPat then inf else res
      | .tz => f.maxPat
      | .up => if neg then f.maxPat else inf
      | .dn => if neg then inf else f.maxPat
      | .sr => inf
    ⟨p, true, res > f.maxPat, false⟩
  else ⟨res, inexact, false, tiny⟩

/-- Rounds the magnitude m · 2^e to an integer magnitude (R83 with integers as the format). -/
def roundInt (mode : RMode) (neg : Bool) (m : Nat) (e : Int) (r16 : Nat) : Nat × Bool :=
  if 0 ≤ e then (m * 2 ^ e.toNat, false) else
  let s := (-e).toNat
  let k := m / 2 ^ s
  let r := m % 2 ^ s
  (if roundAway mode neg (k % 2 == 1) r s false r16 then k + 1 else k, r != 0)

/-- The generated NaN with a cause (R71). -/
def nanPat (f : FpFmt) (cause : Nat) : Nat :=
  if f.ebits = 5 && f.fbits = 2 then 0x7F else if !f.hasInf then (if f.hasNan then 0x7F else 0)
  else (2 ^ f.ebits - 1) * 2 ^ f.fbits + 2 ^ (f.fbits - 1) + cause

/-- The pattern of an infinity, or of the largest finite value where a format has none (R86). -/
def infPat (f : FpFmt) (neg : Bool) : Nat :=
  (if neg then 2 ^ (f.ebits + f.fbits) else 0) + (if f.hasInf then f.maxPat + 1 else f.maxPat)

/-- A sign in front of a magnitude pattern. -/
def signed (f : FpFmt) (neg : Bool) (mag : Nat) : Nat := (if neg then 2 ^ (f.ebits + f.fbits) else 0) + mag

/-- An exact result on its way into a format: a NaN carries its cause (R92); `inv` marks an invalid operation,
`dz` a division of a finite nonzero value by zero. -/
inductive FpRes where
  | nan (cause : Nat)
  | inf (neg : Bool) (dz : Bool)
  | fin (neg : Bool) (m : Nat) (e : Int) (sticky : Bool)
deriving DecidableEq, Repr

/-- The pattern of a result, with what rounding lost. -/
def fpWrite (f : FpFmt) (mode : RMode) (r16 : Nat) : FpRes → Rounded
  | .nan c => ⟨nanPat f c, false, false, false⟩
  | .inf n _ => ⟨infPat f n, false, false, false⟩
  | .fin n m e st =>
    let r := roundMag f mode n m e st r16
    ⟨signed f n r.pat, r.inexact, r.overflow, r.tiny⟩

/-- Exact sum; a zero sum of opposite signs is +0, or −0 toward −∞ (R91). -/
def fpAdd (mode : RMode) : FpVal → FpVal → FpRes
  | .nan, _ => .nan 1
  | _, .nan => .nan 1
  | .inf a, .inf b => if a = b then .inf a false else .nan 3
  | .inf a, _ => .inf a false
  | _, .inf b => .inf b false
  | .fin na ma ea, .fin nb mb eb =>
    let e := min ea eb
    let a := ma * 2 ^ (ea - e).toNat
    let b := mb * 2 ^ (eb - e).toNat
    if na = nb then .fin na (a + b) e false
    else if a = b then .fin (decide (mode = .dn)) 0 e false
    else if a > b then .fin na (a - b) e false
    else .fin nb (b - a) e false

/-- The value with its sign inverted. -/
def fpNegV : FpVal → FpVal
  | .nan => .nan
  | .inf n => .inf (!n)
  | .fin n m e => .fin (!n) m e

/-- Exact product (R91). -/
def fpMul : FpVal → FpVal → FpRes
  | .nan, _ => .nan 1
  | _, .nan => .nan 1
  | .inf a, .inf b => .inf (a != b) false
  | .inf a, .fin nb mb _ => if mb = 0 then .nan 4 else .inf (a != nb) false
  | .fin na ma _, .inf b => if ma = 0 then .nan 4 else .inf (na != b) false
  | .fin na ma ea, .fin nb mb eb => .fin (na != nb) (ma * mb) (ea + eb) false

/-- a × b + d, exact (R82): an addend NaN gives cause 1 even beside 0 × ∞ (R92). -/
def fpFma (mode : RMode) (a b d : FpVal) : FpRes :=
  match d with
  | .nan => .nan 1
  | _ =>
    match fpMul a b with
    | .nan c => .nan c
    | .inf n _ => fpAdd mode (.inf n) d
    | .fin n m e _ => fpAdd mode (.fin n m e) d

/-- Quotient, with enough bits that the rest is sticky. -/
def fpDiv : FpVal → FpVal → FpRes
  | .nan, _ => .nan 1
  | _, .nan => .nan 1
  | .inf _, .inf _ => .nan 5
  | .inf a, .fin nb _ _ => .inf (a != nb) false
  | .fin na _ _, .inf b => .fin (na != b) 0 0 false
  | .fin na ma ea, .fin nb mb eb =>
    if mb = 0 then (if ma = 0 then .nan 5 else .inf (na != nb) true)
    else
      let sh := 140 + bitlen mb
      let n := ma * 2 ^ sh
      .fin (na != nb) (n / mb) (ea - eb - sh) (n % mb != 0)

/-- The integer square root of `n`, by Newton steps bit by bit: structural on the number of bits. -/
def isqrtBits (n : Nat) : Nat → Nat → Nat
  | 0, r => r
  | k + 1, r => let t := r + 2 ^ k; isqrtBits n k (if t * t ≤ n then t else r)

/-- floor √n. -/
def isqrt (n : Nat) : Nat := isqrtBits n (bitlen n / 2 + 1) 0

/-- Square root (R193). -/
def fpSqrt : FpVal → FpRes
  | .nan => .nan 1
  | .inf n => if n then .nan 5 else .inf false false
  | .fin n m e =>
    if m = 0 then .fin n 0 0 false else if n then .nan 5 else
    let sh : Nat := 160 + (if (e % 2 = 0) then 0 else 1)
    let v := m * 2 ^ sh
    let r := isqrt v
    .fin false r ((e - sh) / 2) (r * r != v)

/-- Order of two values that are no NaN, −0 below +0 when `zeros`. -/
def fpLt (zeros : Bool) : FpVal → FpVal → Bool
  | .nan, _ => false
  | _, .nan => false
  | .inf a, .inf b => a && !b
  | .inf a, .fin _ _ _ => a
  | .fin _ _ _, .inf b => !b
  | .fin na ma ea, .fin nb mb eb =>
    let e := min ea eb
    let a := ma * 2 ^ (ea - e).toNat
    let b := mb * 2 ^ (eb - e).toNat
    if a = 0 && b = 0 then zeros && na && !nb
    else match na, nb with
      | true, false => true
      | false, true => false
      | false, false => a < b
      | true, true => b < a

/-- Whether a value is NaN. -/
def FpVal.isNan : FpVal → Bool
  | .nan => true
  | _ => false

/-- A value that is a result as it stands. -/
def fpAsRes : FpVal → FpRes
  | .nan => .nan 1
  | .inf n => .inf n false
  | .fin n m e => .fin n m e false

/-- The lesser (or greater) of two patterns, −0 below +0, NaN giving cause 1 (R194, R248). -/
def fpMinMax (f : FpFmt) (isMax : Bool) (x y : Nat) : Nat :=
  let a := fpRead f x
  let b := fpRead f y
  if a.isNan || b.isNan then nanPat f 1
  else if isMax then (if fpLt true a b then y else x) else (if fpLt true b a then y else x)

/-- Signed 64-bit and narrower readings. -/
def sextN (w x : Nat) : Int := if x % 2 ^ w < 2 ^ (w - 1) then (x % 2 ^ w : Nat) else ((x % 2 ^ w : Nat) : Int) - 2 ^ w

/-- The two's-complement pattern of an integer in `w` bits (wraps). -/
def toPat (w : Nat) (v : Int) : Nat := (v % (2 ^ w : Int)).toNat

/-- sat(x, lo, hi) (R81). -/
def satI (x lo hi : Int) : Int := if x < lo then lo else if hi < x then hi else x

/-- floor(log2) of the magnitude m · 2^e, m > 0. -/
def flog2 (m : Nat) (e : Int) : Int := e + (bitlen m : Int) - 1

/-- An MXINT element's integer times its scale, as a value: e · 2^(X − 127) · 2^−(w−2) (R75). -/
def mxVal (w : Nat) (e : Int) (x : Nat) : FpVal := .fin (decide (e < 0)) e.natAbs ((x : Int) - 127 - ((w : Int) - 2))

/-- Converts between two floating formats: NaN to cause 1, an infinity to one or to the largest finite value (R83, R86).
The flag says that CVT_LOSS counts the element ("no block scale" column). -/
def fpConvert (src dst : FpFmt) (mode : RMode) (r16 : Nat) (x : Nat) : Nat × Bool :=
  match fpRead src x with
  | .nan => (nanPat dst 1, !dst.hasNan)
  | .inf n => (infPat dst n, !dst.hasInf)
  | .fin n m e => ((fpWrite dst mode r16 (.fin n m e false)).pat, false)

/-- The same for a value scaled by 2^s first (R239). -/
def fpScaleConvert (src dst : FpFmt) (mode : RMode) (s : Int) (x : Nat) : Nat × Bool :=
  match fpRead src x with
  | .nan => (nanPat dst 1, !dst.hasNan)
  | .inf n => (infPat dst n, !dst.hasInf)
  | .fin n m e => ((fpWrite dst mode 0 (.fin n m (e + s) false)).pat, false)

/-- One shift-xor advance of a stochastic state (R84). -/
def rngNext (x : BitVec 64) : BitVec 64 :=
  let a := x ^^^ (x <<< 13)
  let b := a ^^^ (a >>> 7)
  b ^^^ (b <<< 17)

/-- The 16 random bits of element `i` under a stochastic state (R84). -/
def rngR16 (x : BitVec 64) (i : Nat) : Nat := (x.toNat * (2 * i + 1)) % 2 ^ 64 / 2 ^ 48

end Sys2Proof.Machine
end

