-- ==== Sys2Proof/Machine/Sparse.lean ====
section
/-! DEFINITION. Machine/Sparse: finite maps from numbers as lists of pairs with rising keys; an unlisted key has a default that
the reader names. Register files, tables and on-core memories are held so. -/

namespace Sys2Proof.Machine

/-- A sparse map: keys strictly rising. -/
abbrev Sp (α : Type) := List (Nat × α)

/-- The listed value at a key. -/
def spFind {α : Type} : Sp α → Nat → Option α
  | [], _ => none
  | (j, v) :: m, k => if j = k then some v else if k < j then none else spFind m k

/-- The value at a key, `d` when unlisted. -/
def spGet {α : Type} (d : α) (m : Sp α) (k : Nat) : α := (spFind m k).getD d

/-- Sets the value at a key. -/
def spSet {α : Type} : Sp α → Nat → α → Sp α
  | [], k, v => [(k, v)]
  | (j, w) :: m, k, v => if k < j then (k, v) :: (j, w) :: m else if j = k then (k, v) :: m else (j, w) :: spSet m k v

/-- Removes a key. -/
def spDel {α : Type} : Sp α → Nat → Sp α
  | [], _ => []
  | (j, w) :: m, k => if j = k then m else if k < j then (j, w) :: m else (j, w) :: spDel m k

/-- Changes the value at a key. -/
def spMod {α : Type} (d : α) (m : Sp α) (k : Nat) (f : α → α) : Sp α := spSet m k (f (spGet d m k))

/-- The keys rise strictly above a bound. -/
def spSorted {α : Type} : Nat → Sp α → Bool
  | _, [] => true
  | b, (j, _) :: m => b ≤ j && spSorted (j + 1) m

/-- The keys rise strictly. -/
def spWf {α : Type} (m : Sp α) : Bool := spSorted 0 m

/-- The first element with a property, and its place. -/
def findIdxFrom {α : Type} (p : α → Bool) : Nat → List α → Option (Nat × α)
  | _, [] => none
  | n, x :: xs => if p x then some (n, x) else findIdxFrom p (n + 1) xs

/-- The first element with a property, and its place. -/
def findIdxOf {α : Type} (p : α → Bool) (l : List α) : Option (Nat × α) := findIdxFrom p 0 l

/-- Replaces the element at a place. -/
def setAt {α : Type} (l : List α) (i : Nat) (v : α) : List α := l.set i v

/-- The numbers 0 to n − 1. -/
def upTo (n : Nat) : List Nat := List.range n

end Sys2Proof.Machine
end

