-- ==== Sys2Proof/Syntax.lean ====
section
/-! DEFINITION. Syntax: one constructor for every row of spec/opcode_table.json, in its order.
Slot operations carry their guard `p` and their fields as the table and spec/08 (R147 to R162) name them;
event rows carry what the event names (a core, a command, a packet, a register, a value). -/

namespace Sys2Proof

/-- The steps of the part: the 269 slot operations of the opcode maps and the 147 events of the table. -/
inductive Instr where
  /-- C_NOP (R140): C-slot no-operation; a nonzero guard only makes the slot occupied for the nullifier. -/
  | cNop (p : Nat)
  /-- PBR (R164): Writes a branch target register with the PC-relative code address and starts prefetch there. -/
  | pbr (p b r : Nat)
  /-- PBR_S (R164): Writes a branch target register from a scalar register and starts prefetch. -/
  | pbrS (p b a : Nat)
  /-- BR (R165): Redirects fetch to a branch target when the tested predicate is true. -/
  | br (p b q : Nat)
  /-- BR_N (R165): Redirects fetch to a branch target when the tested predicate is false. -/
  | brN (p b q : Nat)
  /-- CALL (R166): Pushes the return address, spilling to h255 beyond depth 16, and redirects fetch. -/
  | call (p b : Nat)
  /-- RET (R166): Pops a return address, reloading from h255 when needed, and redirects fetch. -/
  | ret (p : Nat)
  /-- LOOP (R168): Starts a plain TEMPORAL loop level, or falls through when its bound is zero. -/
  | loop (p i : Nat)
  /-- LOOP_SWP (R168): Starts a software-pipelined loop level and sets the stage predicates for pass 0. -/
  | loopSwp (p i : Nat)
  /-- LBRK (R169): Ends a loop level and every level started after it, and continues after its body end. -/
  | lbrk (p i : Nat)
  /-- CTWAIT (R170): Waits on a local counter for a threshold with a time-out; an unsatisfied outcome clears its guard. -/
  | ctwait (p c a : Nat)
  /-- CTWAIT_T (R170): Local counter wait that traps POISONED_WAIT on a poisoned counter. -/
  | ctwaitT (p c a : Nat)
  /-- CTWAIT_G (R170): Waits on a counter at a virtual address, translated at issue. -/
  | ctwaitG (p a : Nat)
  /-- CTWAIT_GT (R170): Counter wait at a virtual address that traps POISONED_WAIT on poison. -/
  | ctwaitGt (p a : Nat)
  /-- TKWAIT (R172): Holds the line until every named dependence token is done. -/
  | tkwait (p x y z : Nat)
  /-- SSTEP (R29): Ends a superstep: drains, waits for PBC zero, adds to the gang barrier and waits for it. -/
  | sstep (p : Nat)
  /-- YIELD (R174): Marks the gang's time slice as used, turning into a pre-emption request at the next landing point if work waits. -/
  | yield (p : Nat)
  /-- HALT (R175): Retires the tile task after its lock-stepped work, tokens, combining buffer and PBC have drained. -/
  | halt (p : Nat)
  /-- BRK (R176): Requests a debug stop when breakpoints are armed in a debug session. -/
  | brk (p n : Nat)
  /-- TRAP (R176): Traps SOFTWARE_TRAP with detail n after its bundle commits. -/
  | trap (p n : Nat)
  /-- TRET (R287): Ends a trap handler and resumes from the trap buffer. -/
  | tret (p : Nat)
  /-- SYSRD (R179): Reads a control register into a scalar register. -/
  | sysrd (p d r : Nat)
  /-- SYSWR (R179): Writes a scalar register into a writable control register from the next bundle. -/
  | syswr (p a r : Nat)
  /-- WHEEL (R177): Holds the next bundle until the slot wheel reaches the core's chosen position. -/
  | wheel (p n : Nat)
  /-- PWR_HINT (R178): Tells the Derailleur the expected draw fraction of the following code. -/
  | pwrHint (p n : Nat)
  /-- S_NOP (R140): Scalar-slot no-operation. -/
  | sNop (p : Nat)
  /-- ADD (R185): Adds two scalar registers modulo 2^64. -/
  | add (p d a b : Nat)
  /-- SUB (R185): Subtracts two scalar registers modulo 2^64. -/
  | sub (p d a b : Nat)
  /-- MUL (R185): Low 64 bits of the signed product. -/
  | mul (p d a b : Nat)
  /-- MULH (R185): High 64 bits of the signed product. -/
  | mulh (p d a b : Nat)
  /-- MULHU (R185): High 64 bits of the unsigned product. -/
  | mulhu (p d a b : Nat)
  /-- DIV (R186): Signed division truncating toward zero with defined borderline cases. -/
  | div (p d a b : Nat)
  /-- DIVU (R186): Unsigned division with a defined result for a zero divisor. -/
  | divu (p d a b : Nat)
  /-- REM (R186): Signed remainder with the sign of the dividend. -/
  | rem (p d a b : Nat)
  /-- REMU (R186): Unsigned remainder. -/
  | remu (p d a b : Nat)
  /-- AND (R185): Bitwise AND. -/
  | and (p d a b : Nat)
  /-- OR (R185): Bitwise OR. -/
  | or (p d a b : Nat)
  /-- XOR (R185): Bitwise XOR. -/
  | xor (p d a b : Nat)
  /-- ANDN (R185): a AND NOT b. -/
  | andn (p d a b : Nat)
  /-- SLL (R185): Logical left shift by a register count. -/
  | sll (p d a b : Nat)
  /-- SRL (R185): Logical right shift by a register count. -/
  | srl (p d a b : Nat)
  /-- SRA (R185): Arithmetic right shift by a register count. -/
  | sra (p d a b : Nat)
  /-- SLLI (R185): Logical left shift by an immediate. -/
  | slli (p d a n : Nat)
  /-- SRLI (R185): Logical right shift by an immediate. -/
  | srli (p d a n : Nat)
  /-- SRAI (R185): Arithmetic right shift by an immediate. -/
  | srai (p d a n : Nat)
  /-- MIN (R185): Signed minimum. -/
  | min (p d a b : Nat)
  /-- MAX (R185): Signed maximum. -/
  | max (p d a b : Nat)
  /-- MINU (R185): Unsigned minimum. -/
  | minu (p d a b : Nat)
  /-- MAXU (R185): Unsigned maximum. -/
  | maxu (p d a b : Nat)
  /-- POPC (R185): Counts set bits. -/
  | popc (p d a : Nat)
  /-- CLZ (R185): Counts leading zero bits. -/
  | clz (p d a : Nat)
  /-- CMP_EQ (R187): Writes a predicate pair from an equality compare. -/
  | cmpEq (p k a b : Nat)
  /-- CMP_LT (R187): Writes a predicate pair from a signed less-than compare. -/
  | cmpLt (p k a b : Nat)
  /-- CMP_LTU (R187): Writes a predicate pair from an unsigned less-than compare. -/
  | cmpLtu (p k a b : Nat)
  /-- CMP_LE (R187): Writes a predicate pair from a signed less-or-equal compare. -/
  | cmpLe (p k a b : Nat)
  /-- CMP_LEU (R187): Writes a predicate pair from an unsigned less-or-equal compare. -/
  | cmpLeu (p k a b : Nat)
  /-- PLOG (R188): Writes a predicate from a truth table of two predicates. -/
  | plog (p d a b t : Nat)
  /-- SEL (R189): Selects one of two registers by a predicate. -/
  | sel (p k d a b : Nat)
  /-- ADDI (R190): Adds a signed immediate to a register in place. -/
  | addi (p d i : Nat)
  /-- LI (R190): Loads a sign-extended immediate. -/
  | li (p d i : Nat)
  /-- LIC (R190): Loads a zero-extended immediate. -/
  | lic (p d i : Nat)
  /-- KCONST (R190): Loads a constant-table entry. -/
  | kconst (p d i : Nat)
  /-- HMK (R190): Builds a handle-offset word with offset 0. -/
  | hmk (p d i : Nat)
  /-- HSZ (R190): Reads a handle's size in bytes. -/
  | hsz (p d i : Nat)
  /-- HROW (R190): Reads a handle's row size in bytes. -/
  | hrow (p d i : Nat)
  /-- MFPR (R191): Copies all predicates into a scalar register. -/
  | mfpr (p d : Nat)
  /-- MTPR (R191): Writes predicates p1 to p15 from a scalar register. -/
  | mtpr (p a : Nat)
  /-- MFLC (R191): Reads a loop counter. -/
  | mflc (p d n : Nat)
  /-- MFB (R191): Reads a branch target register. -/
  | mfb (p d n : Nat)
  /-- MTB (R191): Writes a branch target register without prefetch. -/
  | mtb (p n a : Nat)
  /-- STSET_F (R192): Writes one field of a stream register. -/
  | stsetF (p t s a : Nat)
  /-- STSET_Z (R192): Zeroes every field of a stream register. -/
  | stsetZ (p t : Nat)
  /-- STSET_CP (R192): Copies one stream register to another. -/
  | stsetCp (p t m : Nat)
  /-- MTMM (R191): Writes a matrix mode register unchecked. -/
  | mtmm (p n a : Nat)
  /-- MFMM (R191): Reads a matrix mode register. -/
  | mfmm (p d n : Nat)
  /-- FADD (R193): FP64 add, or an FS64 rational add under SCR.RM (R201). -/
  | fadd (p d a b : Nat)
  /-- FSUB (R193): FP64 subtract, or an FS64 rational subtract under SCR.RM. -/
  | fsub (p d a b : Nat)
  /-- FMUL (R193): FP64 multiply, or an FS64 rational multiply under SCR.RM. -/
  | fmul (p d a b : Nat)
  /-- FDIV (R193): FP64 divide, or an FS64 rational divide with zero-denominator handling (R200) under SCR.RM. -/
  | fdiv (p d a b : Nat)
  /-- FSQRT (R193): FP64 square root, or a rounded FS64 root under SCR.RM. -/
  | fsqrt (p d a : Nat)
  /-- FMIN (R194): FP64 or FS64 minimum. -/
  | fmin (p d a b : Nat)
  /-- FMAX (R194): FP64 or FS64 maximum. -/
  | fmax (p d a b : Nat)
  /-- FCMP_EQ (R194): Writes a predicate pair from a floating or rational equality compare. -/
  | fcmpEq (p k a b : Nat)
  /-- FCMP_LT (R194): Writes a predicate pair from a floating or rational less-than compare. -/
  | fcmpLt (p k a b : Nat)
  /-- FCMP_LE (R194): Writes a predicate pair from a floating or rational less-or-equal compare. -/
  | fcmpLe (p k a b : Nat)
  /-- FCMP_UN (R194): Writes a predicate pair that is true when the operands are unordered. -/
  | fcmpUn (p k a b : Nat)
  /-- FCVT_D2L (R195): Converts FP64, or FS64 under RM, to a signed 64-bit integer. -/
  | fcvtD2l (p d a : Nat)
  /-- FCVT_L2D (R195): Converts a signed integer to FP64, or to FS64 under RM. -/
  | fcvtL2d (p d a : Nat)
  /-- FCVT_D2S (R195): Converts FP64 to FP32, or FS64 to FP64 under RM. -/
  | fcvtD2s (p d a : Nat)
  /-- FCVT_S2D (R195): Converts FP32 to FP64, or FP64 to FS64 under RM. -/
  | fcvtS2d (p d a : Nat)
  /-- FABS (R194): Clears the FP64 sign bit, or gives the canonical |a| under RM. -/
  | fabs (p d a : Nat)
  /-- FNEG (R194): Inverts the FP64 sign bit, or gives the canonical −a under RM. -/
  | fneg (p d a : Nat)
  /-- FS_GCD (R204): Integer gcd of two registers. -/
  | fsGcd (p d a b : Nat)
  /-- FS_MK (R204): Builds a rounded FS64 from an integer numerator and denominator. -/
  | fsMk (p d a b : Nat)
  /-- FS_MED (R204): Rounded mediant of two rationals. -/
  | fsMed (p d a b : Nat)
  /-- FS_NEAR (R204): Nearest rational with a bounded denominator. -/
  | fsNear (p d a b : Nat)
  /-- FS_NUM (R205): Signed canonical numerator. -/
  | fsNum (p d a : Nat)
  /-- FS_DEN (R205): Canonical denominator. -/
  | fsDen (p d a : Nat)
  /-- FS_CLASS (R206): Writes the class bits of an FS64 pattern. -/
  | fsClass (p d a : Nat)
  /-- FS_CANON (R205): Canonical pattern of an FS64 value. -/
  | fsCanon (p d a : Nat)
  /-- FS_CVT_F32 (R205): Rounds an FS64 value to FP32. -/
  | fsCvtF32 (p d a : Nat)
  /-- FS_CVT_E8 (R205): Rounds an FS64 value to an E8M0 scale byte. -/
  | fsCvtE8 (p d a : Nat)
  /-- FS_PACK32 (R205): Rounds an FS64 value into FS32. -/
  | fsPack32 (p d a : Nat)
  /-- FS_UNPK32 (R205): Widens an FS32 value exactly to FS64. -/
  | fsUnpk32 (p d a : Nat)
  /-- RATIONAL_RESULT (R198): A rational operation finishes, writes its interlocked result and ORs its sticky bits, or traps FS_ZERO_DENOMINATOR. -/
  | rationalResult (c : Nat)
  /-- L_NOP (R140): L-slot no-operation. -/
  | lNop (p : Nat)
  /-- VLD_32 (R207): Loads a 32-bit vector operand from the scratchpad through a stream step, converting. -/
  | vld32 (p v t : Nat)
  /-- VLD_16 (R207): Loads a 16-bit vector operand through a stream step. -/
  | vld16 (p v t : Nat)
  /-- QLD (R209): Loads a packed register and its scale companion through a stream. -/
  | qld (p q t : Nat)
  /-- LDS_B (R210): Loads 1 byte from a handle-offset location. -/
  | ldsB (p d a v k : Nat)
  /-- LDS_H (R210): Loads 2 bytes from a handle-offset location. -/
  | ldsH (p d a v k : Nat)
  /-- LDS_W (R210): Loads 4 bytes from a handle-offset location. -/
  | ldsW (p d a v k : Nat)
  /-- LDS_D (R210): Loads 8 bytes from a handle-offset location. -/
  | ldsD (p d a v k : Nat)
  /-- OFILL (R214): Starts filling an operand slot from a stream, aligning floating data to MXINT. -/
  | ofill (p s t v k : Nat)
  /-- HALLOC (R212): Allocates a handle by first fit and reports success in a predicate. -/
  | halloc (p h d a : Nat)
  /-- HFREE (R213): Frees a handle and its lines. -/
  | hfree (p h : Nat)
  /-- W_NOP (R140): W-slot no-operation. -/
  | wNop (p : Nat)
  /-- VST_32 (R207): Stores a 32-bit vector operand through a stream step, converting. -/
  | vst32 (p v t : Nat)
  /-- VST_16 (R207): Stores a 16-bit vector operand through a stream step. -/
  | vst16 (p v t : Nat)
  /-- QST (R209): Stores a packed register and its scales through a stream. -/
  | qst (p q t : Nat)
  /-- STS_B (R210): Stores 1 byte to a handle-offset location. -/
  | stsB (p d a v k : Nat)
  /-- STS_H (R210): Stores 2 bytes to a handle-offset location. -/
  | stsH (p d a v k : Nat)
  /-- STS_W (R210): Stores 4 bytes to a handle-offset location. -/
  | stsW (p d a v k : Nat)
  /-- STS_D (R210): Stores 8 bytes to a handle-offset location. -/
  | stsD (p d a v k : Nat)
  /-- OCLAIM (R216): Moves an operand slot from FREE to CLAIMED. -/
  | oclaim (p s : Nat)
  /-- OREL (R216): Releases an operand slot to FREE once its readers and fill have ended. -/
  | orel (p s : Nat)
  /-- FILL_COMPLETE (R215): An operand-slot fill writes row 127 and the slot becomes FULL. -/
  | fillComplete (c : Nat)
  /-- G_NOP (R140): G-slot no-operation. -/
  | gNop (p : Nat)
  /-- LD_B (R218): Loads 1 byte from a virtual address. -/
  | ldB (p d a v t w u : Nat)
  /-- LD_H (R218): Loads 2 bytes from a virtual address. -/
  | ldH (p d a v t w u : Nat)
  /-- LD_W (R218): Loads 4 bytes from a virtual address. -/
  | ldW (p d a v t w u : Nat)
  /-- LD_D (R218): Loads 8 bytes from a virtual address. -/
  | ldD (p d a v t w u : Nat)
  /-- ST_B (R218): Stores 1 byte to a virtual address. -/
  | stB (p d a v t w u : Nat)
  /-- ST_H (R218): Stores 2 bytes to a virtual address. -/
  | stH (p d a v t w u : Nat)
  /-- ST_W (R218): Stores 4 bytes to a virtual address. -/
  | stW (p d a v t w u : Nat)
  /-- ST_D (R218): Stores 8 bytes to a virtual address. -/
  | stD (p d a v t w u : Nat)
  /-- LD_ACQ_W (R219): 4-byte acquire load. -/
  | ldAcqW (p d a v t w u : Nat)
  /-- LD_ACQ_D (R219): 8-byte acquire load. -/
  | ldAcqD (p d a v t w u : Nat)
  /-- ST_REL_W (R219): 4-byte release store. -/
  | stRelW (p d a v t w u : Nat)
  /-- ST_REL_D (R219): 8-byte release store. -/
  | stRelD (p d a v t w u : Nat)
  /-- LD_V (R122): Versioned load of 8 bytes, waiting until the version is sealed. -/
  | ldV (p d a b : Nat)
  /-- ST_V (R121): Versioned store of 8 bytes, creating the version and waiting for capacity. -/
  | stV (p d a b : Nat)
  /-- AMO_ADD (R221): Atomic add returning the old value. -/
  | amoAdd (p d a b : Nat)
  /-- AMO_MAX (R221): Atomic signed maximum. -/
  | amoMax (p d a b : Nat)
  /-- AMO_MAXU (R221): Atomic unsigned maximum. -/
  | amoMaxu (p d a b : Nat)
  /-- AMO_MIN (R221): Atomic signed minimum. -/
  | amoMin (p d a b : Nat)
  /-- AMO_MINU (R221): Atomic unsigned minimum. -/
  | amoMinu (p d a b : Nat)
  /-- AMO_AND (R221): Atomic AND. -/
  | amoAnd (p d a b : Nat)
  /-- AMO_OR (R221): Atomic OR. -/
  | amoOr (p d a b : Nat)
  /-- AMO_XOR (R221): Atomic XOR. -/
  | amoXor (p d a b : Nat)
  /-- AMO_SWAP (R221): Atomic swap. -/
  | amoSwap (p d a b : Nat)
  /-- AMO_CAS (R221): Atomic compare-and-swap. -/
  | amoCas (p d a b : Nat)
  /-- AMO_SC_ADD (R222): Sequentially consistent atomic add ordered by the slot wheel. -/
  | amoScAdd (p d a b : Nat)
  /-- AMO_SC_SWAP (R222): Sequentially consistent atomic swap. -/
  | amoScSwap (p d a b : Nat)
  /-- AMO_SC_CAS (R222): Sequentially consistent compare-and-swap. -/
  | amoScCas (p d a b : Nat)
  /-- AMO_SC_MAX (R222): Sequentially consistent signed maximum. -/
  | amoScMax (p d a b : Nat)
  /-- AMO_SC_MIN (R222): Sequentially consistent signed minimum. -/
  | amoScMin (p d a b : Nat)
  /-- AMO_SC_PERFORM (R116): An amo.sc is performed at the first owned wheel position after it reaches the wheel. -/
  | amoScPerform (c i : Nat)
  /-- FENCE_CORE (R223): Core-scope fence. -/
  | fenceCore (p : Nat)
  /-- FENCE_QUAD (R223): Quad-scope fence. -/
  | fenceQuad (p : Nat)
  /-- FENCE_DIE (R223): Die-scope fence. -/
  | fenceDie (p : Nat)
  /-- FENCE_PACKAGE (R223): Package-scope fence. -/
  | fencePackage (p : Nat)
  /-- FENCE_FABRIC (R223): Fabric-scope fence that flushes every combining entry. -/
  | fenceFabric (p : Nat)
  /-- PF (R224): Prefetches a translation without moving data or faulting. -/
  | pf (p a : Nat)
  /-- WPROBE (R225): Probes a translation and writes a description word. -/
  | wprobe (p d a : Nat)
  /-- G_LOAD_RETURN (R218): A G-slot load's data returns and writes its destination register. -/
  | gLoadReturn (c i : Nat)
  /-- X_NOP (R140): X-slot no-operation. -/
  | xNop (p : Nat)
  /-- MWLD (R233): Loads a weight plane from an operand slot. -/
  | mwld (p l s m : Nat)
  /-- MTRANS (R234): Loads a weight plane from an untransposed slot, realigning scales. -/
  | mtrans (p l s m : Nat)
  /-- MMA (R235): Multiplies an operand slot by the weight plane into a tile. -/
  | mma (p l t s m : Nat)
  /-- MMA_ACC (R235): Multiplies and accumulates into a tile. -/
  | mmaAcc (p l t s m : Nat)
  /-- MMA_TRI (R235): Triangular multiply with masking into a tile. -/
  | mmaTri (p l t s m : Nat)
  /-- MMA_TRI_ACC (R235): Triangular multiply-accumulate with masking. -/
  | mmaTriAcc (p l t s m : Nat)
  /-- MMA_P (R237): Multiplies into the drain buffer. -/
  | mmaP (p l s m : Nat)
  /-- MZERO (R238): Zeroes a tile over 32 cycles. -/
  | mzero (p l t : Nat)
  /-- MDRAIN (R240): Copies the drain buffer into a tile. -/
  | mdrain (p l t m : Nat)
  /-- MDRAIN_SP (R241): Drains the buffer through a stream into the scratchpad or an operand slot. -/
  | mdrainSp (p l m : Nat)
  /-- MDRAIN_FAB (R243): Drains the buffer through the hub to a HANDLE window. -/
  | mdrainFab (p l m : Nat)
  /-- X_OP_LAUNCH (R231): A matrix operation's start delay expires and it launches, with launch-time checks, holds and faults. -/
  | xOpLaunch (c : Nat)
  /-- X_OP_FINISH (R231): A matrix operation reads or writes its last row and leaves flight. -/
  | xOpFinish (c : Nat)
  /-- DRAIN_ROW_PLACED (R243): A row sent by mdrain.fab is placed and advances its landing counter. -/
  | drainRowPlaced (c i : Nat)
  /-- V_NOP (R140): V-slot no-operation. -/
  | vNop (p : Nat)
  /-- VADD_F (R248): Floating lane add. -/
  | vaddF (p w t d a b : Nat)
  /-- VSUB_F (R248): Floating lane subtract. -/
  | vsubF (p w t d a b : Nat)
  /-- VMUL_F (R248): Floating lane multiply. -/
  | vmulF (p w t d a b : Nat)
  /-- VFMA (R248): Floating fused multiply-add into d. -/
  | vfma (p w t d a b : Nat)
  /-- VMIN_F (R248): Floating lane minimum. -/
  | vminF (p w t d a b : Nat)
  /-- VMAX_F (R248): Floating lane maximum. -/
  | vmaxF (p w t d a b : Nat)
  /-- VABS (R248): Clears each lane's sign. -/
  | vabs (p w t d a : Nat)
  /-- VNEG (R248): Inverts each lane's sign. -/
  | vneg (p w t d a : Nat)
  /-- VCMP_EQ_F (R249): Floating equality lane mask. -/
  | vcmpEqF (p w t d a b : Nat)
  /-- VCMP_LT_F (R249): Floating less-than lane mask. -/
  | vcmpLtF (p w t d a b : Nat)
  /-- VCMP_LE_F (R249): Floating less-or-equal lane mask. -/
  | vcmpLeF (p w t d a b : Nat)
  /-- VRSUM_F (R250): Floating pairwise-tree sum broadcast to all lanes. -/
  | vrsumF (p w t d a : Nat)
  /-- VRMAX (R250): Floating reduction maximum. -/
  | vrmax (p w t d a : Nat)
  /-- VRMIN (R250): Floating reduction minimum. -/
  | vrmin (p w t d a : Nat)
  /-- VEXP2 (R251): Correctly rounded 2^x per lane. -/
  | vexp2 (p w t d a : Nat)
  /-- VLOG2 (R251): Correctly rounded log2 per lane. -/
  | vlog2 (p w t d a : Nat)
  /-- VRCP (R251): Correctly rounded reciprocal per lane. -/
  | vrcp (p w t d a : Nat)
  /-- VRSQ (R251): Correctly rounded reciprocal square root per lane. -/
  | vrsq (p w t d a : Nat)
  /-- VTANH (R251): Correctly rounded tanh per lane. -/
  | vtanh (p w t d a : Nat)
  /-- VSILU (R251): Correctly rounded SiLU per lane. -/
  | vsilu (p w t d a : Nat)
  /-- VADD_I (R252): Integer lane add, wrapping or saturating. -/
  | vaddI (p w t d a b : Nat)
  /-- VSUB_I (R252): Integer lane subtract. -/
  | vsubI (p w t d a b : Nat)
  /-- VMUL_I (R252): Integer lane multiply. -/
  | vmulI (p w t d a b : Nat)
  /-- VMIN_I (R252): Integer lane minimum. -/
  | vminI (p w t d a b : Nat)
  /-- VMAX_I (R252): Integer lane maximum. -/
  | vmaxI (p w t d a b : Nat)
  /-- VAND (R253): Lane bitwise AND. -/
  | vand (p w d a b : Nat)
  /-- VOR (R253): Lane bitwise OR. -/
  | vor (p w d a b : Nat)
  /-- VXOR (R253): Lane bitwise XOR. -/
  | vxor (p w d a b : Nat)
  /-- VSHL (R253): Lane left shift by per-lane counts. -/
  | vshl (p w d a b : Nat)
  /-- VSHR (R253): Lane logical right shift. -/
  | vshr (p w d a b : Nat)
  /-- VSRA (R253): Lane arithmetic right shift. -/
  | vsra (p w d a b : Nat)
  /-- VCMP_EQ_I (R253): Integer equality lane mask. -/
  | vcmpEqI (p w d a b : Nat)
  /-- VCMP_LT_I (R253): Signed integer less-than lane mask. -/
  | vcmpLtI (p w d a b : Nat)
  /-- VRSUM_I (R250): Integer reduction sum, wrapped or saturated, broadcast. -/
  | vrsumI (p w t d a : Nat)
  /-- VSEL (R254): Selects lanes by the mask in d. -/
  | vsel (p w d a b : Nat)
  /-- VMOV (R254): Copies lanes. -/
  | vmov (p w d a : Nat)
  /-- VBCAST (R254): Broadcasts one lane. -/
  | vbcast (p w d a n : Nat)
  /-- VPERM (R254): Permutes lanes by indices. -/
  | vperm (p w d a b : Nat)
  /-- VROT (R254): Rotates lanes. -/
  | vrot (p w d a n : Nat)
  /-- VREV (R254): Reverses lanes. -/
  | vrev (p w d a : Nat)
  /-- VCVT_N (R255): Narrows FP32 lanes into one half of 16-bit float lanes. -/
  | vcvtN (p t d a h r : Nat)
  /-- VCVT_W (R255): Widens one half of 16-bit float lanes to FP32. -/
  | vcvtW (p t d a h : Nat)
  /-- VCVT_FI (R255): Floating to integer of the same width. -/
  | vcvtFi (p w t d a r : Nat)
  /-- VCVT_IF (R255): Integer to floating of the same width. -/
  | vcvtIf (p w t d a r : Nat)
  /-- VCVT_NI (R255): Saturates INT32 lanes into one INT16 half. -/
  | vcvtNi (p d a h : Nat)
  /-- VCVT_WI (R255): Sign-extends one INT16 half to INT32. -/
  | vcvtWi (p d a h : Nat)
  /-- RESULT_LAND (R299): A fixed-latency V, P, U, load or scalar result lands in its destination. -/
  | resultLand (c : Nat)
  /-- P_NOP (R140): P-slot no-operation. -/
  | pNop (p : Nat)
  /-- PK_MXINT8_MM14 (R258): Packs accumulator lanes to MXINT8 under mm14. -/
  | pkMxint8Mm14 (p q k r : Nat)
  /-- PK_MXINT8_MM15 (R258): Packs to MXINT8 under mm15. -/
  | pkMxint8Mm15 (p q k r : Nat)
  /-- PK_MXINT6_MM14 (R258): Packs to MXINT6 under mm14. -/
  | pkMxint6Mm14 (p q k r : Nat)
  /-- PK_MXINT6_MM15 (R258): Packs to MXINT6 under mm15. -/
  | pkMxint6Mm15 (p q k r : Nat)
  /-- PK_MXINT4_MM14 (R258): Packs to MXINT4 under mm14. -/
  | pkMxint4Mm14 (p q k r : Nat)
  /-- PK_MXINT4_MM15 (R258): Packs to MXINT4 under mm15. -/
  | pkMxint4Mm15 (p q k r : Nat)
  /-- PK_E4M3_MM14 (R258): Packs to FP8 E4M3 under mm14. -/
  | pkE4m3Mm14 (p q k r : Nat)
  /-- PK_E4M3_MM15 (R258): Packs to FP8 E4M3 under mm15. -/
  | pkE4m3Mm15 (p q k r : Nat)
  /-- PK_E5M2_MM14 (R258): Packs to FP8 E5M2 under mm14. -/
  | pkE5m2Mm14 (p q k r : Nat)
  /-- PK_E5M2_MM15 (R258): Packs to FP8 E5M2 under mm15. -/
  | pkE5m2Mm15 (p q k r : Nat)
  /-- PK_FP6_MM14 (R258): Packs to FP6 under mm14. -/
  | pkFp6Mm14 (p q k r : Nat)
  /-- PK_FP6_MM15 (R258): Packs to FP6 under mm15. -/
  | pkFp6Mm15 (p q k r : Nat)
  /-- PK_E2M1_MM14 (R258): Packs to FP4 E2M1 under mm14. -/
  | pkE2m1Mm14 (p q k r : Nat)
  /-- PK_E2M1_MM15 (R258): Packs to FP4 E2M1 under mm15. -/
  | pkE2m1Mm15 (p q k r : Nat)
  /-- U_NOP (R140): U-slot no-operation. -/
  | uNop (p : Nat)
  /-- UNPK_MXINT8_MM14 (R259): Unpacks MXINT8 into accumulator lanes under mm14. -/
  | unpkMxint8Mm14 (p q k r : Nat)
  /-- UNPK_MXINT8_MM15 (R259): Unpacks MXINT8 under mm15. -/
  | unpkMxint8Mm15 (p q k r : Nat)
  /-- UNPK_MXINT6_MM14 (R259): Unpacks MXINT6 under mm14. -/
  | unpkMxint6Mm14 (p q k r : Nat)
  /-- UNPK_MXINT6_MM15 (R259): Unpacks MXINT6 under mm15. -/
  | unpkMxint6Mm15 (p q k r : Nat)
  /-- UNPK_MXINT4_MM14 (R259): Unpacks MXINT4 under mm14. -/
  | unpkMxint4Mm14 (p q k r : Nat)
  /-- UNPK_MXINT4_MM15 (R259): Unpacks MXINT4 under mm15. -/
  | unpkMxint4Mm15 (p q k r : Nat)
  /-- UNPK_E4M3_MM14 (R259): Unpacks FP8 E4M3 under mm14. -/
  | unpkE4m3Mm14 (p q k r : Nat)
  /-- UNPK_E4M3_MM15 (R259): Unpacks FP8 E4M3 under mm15. -/
  | unpkE4m3Mm15 (p q k r : Nat)
  /-- UNPK_E5M2_MM14 (R259): Unpacks FP8 E5M2 under mm14. -/
  | unpkE5m2Mm14 (p q k r : Nat)
  /-- UNPK_E5M2_MM15 (R259): Unpacks FP8 E5M2 under mm15. -/
  | unpkE5m2Mm15 (p q k r : Nat)
  /-- UNPK_FP6_MM14 (R259): Unpacks FP6 under mm14. -/
  | unpkFp6Mm14 (p q k r : Nat)
  /-- UNPK_FP6_MM15 (R259): Unpacks FP6 under mm15. -/
  | unpkFp6Mm15 (p q k r : Nat)
  /-- UNPK_E2M1_MM14 (R259): Unpacks FP4 E2M1 under mm14. -/
  | unpkE2m1Mm14 (p q k r : Nat)
  /-- UNPK_E2M1_MM15 (R259): Unpacks FP4 E2M1 under mm15. -/
  | unpkE2m1Mm15 (p q k r : Nat)
  /-- A_NOP (R162): A-slot no-operation producing no token. -/
  | aNop (p : Nat)
  /-- CPY (R272): Queues a local copy with format conversion. -/
  | cpy (p r n a b c x : Nat)
  /-- GAT (R273): Queues an indexed gather of rows. -/
  | gat (p r n a b c x : Nat)
  /-- SCT (R273): Queues an indexed scatter of rows. -/
  | sct (p r n a b c x : Nat)
  /-- MCAST_Q (R274): Queues a multicast to cores of the quad. -/
  | mcastQ (p r n a b c x : Nat)
  /-- RST (R275): Queues a remote store through a window. -/
  | rst (p r n a b c x : Nat)
  /-- RLD (R276): Queues a remote or local load into the scratchpad. -/
  | rld (p r n a b c x : Nat)
  /-- RRED (R277): Queues a contribution to a hub combining entry. -/
  | rred (p r n a b c x : Nat)
  /-- RFLUSH (R279): Flushes the combining buffer and completes when earlier writes are placed. -/
  | rflush (p r n a b c : Nat)
  /-- COLL (R280): Queues a collective walk of transfers to peers. -/
  | coll (p r n a b c x : Nat)
  /-- DISP (R282): Queues token dispatch to experts. -/
  | disp (p r n a b c x : Nat)
  /-- CCPY (R407): Queues a confidential decrypting copy on the die's crypto engine. -/
  | ccpy (p r n a b c x : Nat)
  /-- TASK (R285): Enqueues a tile-task record into a user queue. -/
  | task (p r n a b c x : Nat)
  /-- CTADD (R268): Adds to a counter as a release. -/
  | ctadd (p r n a b y x : Nat)
  /-- CTRAISE (R268): Raises a counter as a release. -/
  | ctraise (p r n a b y x : Nat)
  /-- CTPOLL (R269): Reads a counter and writes a predicate from a threshold test. -/
  | ctpoll (p r n a d y x : Nat)
  /-- FREC_RD (R286): Copies the trap buffer into the scratchpad. -/
  | frecRd (p r n a b c x : Nat)
  /-- FREC_WR (R286): Replaces the trap buffer with allowed changes. -/
  | frecWr (p r n a b c x : Nat)
  /-- ENGINE_COMMAND_START (R262): An engine starts a queued command once its tokens are done, reading the record once. -/
  | engineCommandStart (c i h e : Nat)
  /-- ENGINE_COMMAND_COMPLETE (R264): A command completes: STATUS is written, the DONE add made and the token made done. -/
  | engineCommandComplete (c i k : Nat)
  /-- COLL_TRANSFER (R281): The collective walker sends one transfer, in channel mode once CRED allows. -/
  | collTransfer (c i : Nat)
  /-- DISP_CLAIM (R283): The dispatch engine's awaited claim returns and the token's row is placed or tried at the next rank. -/
  | dispClaim (c i : Nat)
  /-- RRED_RETRY (R386): After a NACK RETRY back-off expires the remote engine resends the contribution. -/
  | rredRetry (c i : Nat)
  /-- RRED_TIMEOUT (R277): An rred's local time-out expires with no reply and the command ends with TIMEOUT. -/
  | rredTimeout (c i : Nat)
  /-- PLACEMENT_ACK (R107): A destination acknowledges placement and the pending-byte counter falls. -/
  | placementAck (c i : Nat)
  /-- DEFERRED_TRAP (R265): A target's error report arrives and the task traps at the next bundle boundary. -/
  | deferredTrap (c : Nat)
  /-- COMBINING_ENTRY_AGE_FLUSH (R118): A combining entry unwritten for 4,096 cycles is flushed. -/
  | combiningEntryAgeFlush (c i : Nat)
  /-- COUNTER_WAIT_SATISFIED (R108): A waiting party sees its counter satisfied or poisoned and its wait ends. -/
  | counterWaitSatisfied (c : Nat)
  /-- COUNTER_WAIT_TIMEOUT (R108): A counter wait's time-out falls due and it ends with TIMEOUT. -/
  | counterWaitTimeout (c : Nat)
  /-- MONITOR_POLL (R109): A polling wait's back-off expires and it polls the counter and retries registration. -/
  | monitorPoll (c : Nat)
  /-- VERSION_SEAL_WAKE (R122): A waiting ld.v's version becomes sealed and the load is performed. -/
  | versionSealWake (c : Nat)
  /-- MISSING_VERSION_TIMEOUT (R122): An ld.v waits past its region TIMEOUT and faults MISSING_VERSION. -/
  | missingVersionTimeout (c : Nat)
  /-- VERSION_CAPACITY_WAKE (R121): A floor raise frees capacity and a waiting st.v re-checks and proceeds. -/
  | versionCapacityWake (c : Nat)
  /-- VERSION_CAPACITY_TIMEOUT (R121): A st.v waits past its region TIMEOUT for capacity and faults VERSION_CAPACITY. -/
  | versionCapacityTimeout (c : Nat)
  /-- BUNDLE_FETCH (R141): The sequencer fetches and decodes the next code word and issues or skips its bundle. -/
  | bundleFetch (c : Nat)
  /-- TILE_TASK_RETIRE (R175): A halting task, its drains complete, retires, freeing handles and slots. -/
  | tileTaskRetire (c : Nat)
  /-- DOORBELL_WRITE (R335): A producer writes a queue's doorbell and the device updates TAIL or counts a drop. -/
  | doorbellWrite (f q v : Nat)
  /-- RECORD_READ (R337): The scheduler reads the record at TAKE and checks it. -/
  | recordRead (q h : Nat)
  /-- QUEUE_SLOT_REQUEST (R341): An active queue asks for a hardware queue slot and is given one, evicts one or waits. -/
  | queueSlotRequest (q : Nat)
  /-- DEPENDENCES_MET (R344): A record's dependences are met and its image and shape are checked. -/
  | dependencesMet (q : Nat)
  /-- GANG_PLACEMENT (R344): Cores are free and slots granted, so the gang is loaded and every member started together. -/
  | gangPlacement (q : Nat) (pick : List Nat)
  /-- QUANTUM_EXPIRY (R342): A queue's quantum expires and its turn passes to the next ready queue of its level. -/
  | quantumExpiry (q : Nat)
  /-- PREEMPT_FORCED_STOP (R45): A member reaches no landing point within 200 µs and is stopped mid-bundle. -/
  | preemptForcedStop (c : Nat)
  /-- CONTEXT_SAVE (R348): Once every member has stopped, the gang is saved through shadow storage or HBM. -/
  | contextSave (g : Nat)
  /-- CONTEXT_RESTORE (R351): A saved gang is placed afresh and its image restored, with sealed-image checks. -/
  | contextRestore (g ok : Nat) (pick : List Nat)
  /-- CTX_CREATE (R330): Creates a context, zeroing its counters and loss counters. -/
  | ctxCreate (c : Nat)
  /-- CTX_DESTROY (R330): Destroys a context when no gang is placed and its queues are DEAD. -/
  | ctxDestroy (c : Nat)
  /-- Q_BIND (R334): Binds a user queue header. -/
  | qBind (q : Nat)
  /-- Q_TEARDOWN_DRAIN (R349): Discards unplaced records and lets placed gangs run to retirement. -/
  | qTeardownDrain (q : Nat)
  /-- Q_TEARDOWN_KILL (R349): Discards unplaced records and stops placed gangs at once, poisoning DONE counters. -/
  | qTeardownKill (q : Nat)
  /-- Q_TEARDOWN_FREEZE (R349): Freezes a queue, stopping and saving its gangs. -/
  | qTeardownFreeze (q : Nat)
  /-- Q_RESTORE (R349): Reactivates a frozen queue and resumes its gangs. -/
  | qRestore (q : Nat)
  /-- PREEMPT (R348): Pre-empts and saves the gang named by its id. -/
  | preempt (g : Nat)
  /-- RESUME (R346): Resumes a gang saved after a driver trap or stop. -/
  | resume (g : Nat)
  /-- DERAILLEUR_EVALUATION (R427): Every 10 µs the governor refills allowances and grants, releases and checks pinned charges. -/
  | derailleurEvaluation
  /-- FILLER_STOP_TIMEOUT (R433): A filler member reaches no landing point within 1 µs and is stopped where it is. -/
  | fillerStopTimeout (c : Nat)
  /-- DRL_CTL_WRITE (R426): Writes the governor configuration, acting at once when EN falls. -/
  | drlCtlWrite (v : Nat)
  /-- TELEMETRY_RECORD (R438): Every 100 µs a measured-power record is written to the telemetry ring. -/
  | telemetryRecord
  /-- TRACE_SAMPLE (R418): The sampling period expires and a SAMPLE trace record is written. -/
  | traceSample (c : Nat)
  /-- PMC_ROTATION (R421): The rotation period expires and the next counter set becomes active. -/
  | pmcRotation (c : Nat)
  /-- PMC_CTL_WRITE (R421): Writes the counter control and zeroes every count and time. -/
  | pmcCtlWrite (c v : Nat)
  /-- INV_ASID (R359): Invalidates cached translations of an ASID. -/
  | invAsid (a : Nat)
  /-- INV_PAGE (R359): Invalidates cached translations of one page. -/
  | invPage (a : Nat)
  /-- INV_WINDOW (R359): Invalidates a cached window entry. -/
  | invWindow (a n : Nat)
  /-- INV_KEY (R359): Invalidates a cached key entry. -/
  | invKey (k : Nat)
  /-- WIN_MAKE (R361): Accepts a window entry, recording the target handle GEN and setting MADE. -/
  | winMake (a n : Nat)
  /-- REGION_SET (R352): Validates a region-table entry. -/
  | regionSet (n : Nat)
  /-- REGION_CLEAR (R352): Clears a region's VALID. -/
  | regionClear (n : Nat)
  /-- PARK_RESUME (R364): Releases parked flits and accesses of a now-resident page. -/
  | parkResume (a : Nat)
  /-- PARK_DROP (R364): Drops and counts parked flits of a page. -/
  | parkDrop (a : Nat)
  /-- TRANSLATION_WALK (R359): A page-table walk completes and answers every merged miss. -/
  | translationWalk (i : Nat)
  /-- ROUTE_WR (R382): Loads a routing entry and starts the hold of packets for that destination. -/
  | routeWr (d : Nat)
  /-- ROUTE_HOLD_EXPIRY (R382): FAB_MAXLAT after a route write, held packets are sent under the new entry. -/
  | routeHoldExpiry (d : Nat)
  /-- GRP_SET (R385): Accepts a group-table entry when no entry is open and the GEN quarantine has passed. -/
  | grpSet (g : Nat)
  /-- GRP_CLEAR (R385): Releases open entries of a group and clears it. -/
  | grpClear (g : Nat)
  /-- TRUNK_TRAIN (R378): Retrains a trunk at full width in PAM4. -/
  | trunkTrain (n : Nat)
  /-- TRUNK_CFG_WRITE (R372): Writes a trunk configuration, ignoring a misaligned VALID. -/
  | trunkCfgWrite (n v : Nat)
  /-- START_FLIT (R375): A START flit arrives and begins a packet, with sequence, ACK and credit handling. -/
  | startFlit (n w bad : Nat)
  /-- CONT_FLIT (R375): A CONT flit arrives and continues a packet. -/
  | contFlit (n w bad : Nat)
  /-- IDLE_FLIT (R375): An IDLE flit arrives, carrying ACK and possibly credits. -/
  | idleFlit (n w bad : Nat)
  /-- REPLAY_REQ (R377): A REPLAY_REQ arrives and the sender resends outstanding flits from the named SEQ. -/
  | replayReq (n w bad : Nat)
  /-- TRAIN_FLIT (R374): A TRAIN flit arrives during link training. -/
  | trainFlit (n w bad : Nat)
  /-- REPLAY_REQ_REPEAT (R377): 1 µs passes without the expected SEQ and REPLAY_REQ is resent, retraining after 16. -/
  | replayReqRepeat (n : Nat)
  /-- LANE_FAIL (R378): A lane loses lock or exceeds LANE_THR and the trunk retrains, narrows or goes DOWN. -/
  | laneFail (n k : Nat)
  /-- TRAINING_DONE (R378): A retrain succeeds or fails and the trunk moves to PROBATION, UP or DOWN. -/
  | trainingDone (n ok : Nat)
  /-- PROBATION_EXPIRY (R378): 100 µs of PROBATION pass with no failure and the trunk enters NRZ. -/
  | probationExpiry (n : Nat)
  /-- WR (R380): A write packet arrives and is key-checked and placed, parked or dropped. -/
  | wr (i : Nat)
  /-- RD (R380): A read packet arrives and is answered with DATA. -/
  | rd (i : Nat)
  /-- AMO (R380): An atomic packet arrives and is performed. -/
  | amo (i : Nat)
  /-- CTR (R380): A counter-operation packet arrives and is applied. -/
  | ctr (i : Nat)
  /-- VER (R380): A versioned-access packet arrives and is performed at the home package. -/
  | ver (i : Nat)
  /-- RED (R387): A reduction contribution arrives and is checked and combined. -/
  | red (i : Nat)
  /-- REREQ (R390): A REREQ arrives and a matching unfinished rred resends its contribution. -/
  | rereq (i : Nat)
  /-- ACKPL (R380): A placement acknowledgement arrives. -/
  | ackpl (i : Nat)
  /-- DATA (R380): A data response arrives for a read or atomic. -/
  | data (i : Nat)
  /-- RESULT (R389): A reduction result arrives; DST is written and LAND advanced. -/
  | result (i : Nat)
  /-- PARTIAL (R277): A partial-release response arrives and the missing bitmap is written. -/
  | partialRelease (i : Nat)
  /-- NACK (R380): A negative acknowledgement arrives with a status or RETRY. -/
  | nack (i : Nat)
  /-- MGMT (R380): A management packet arrives on VC 9. -/
  | mgmt (i : Nat)
  /-- PTMO_EXPIRY (R390): An open reduction reaches PTMO and is released with PARTIAL. -/
  | ptmoExpiry (i : Nat)
  /-- PTMO_HALF_REREQ (R390): At half of PTMO the hub sends REREQ for missing contributors. -/
  | ptmoHalfRereq (i : Nat)
  /-- COMBINING_UNCORRECTABLE (R390): An uncorrectable error in a combining entry releases it at once. -/
  | combiningUncorrectable (i : Nat)
  /-- PACKAGE_RESET (R398): Package reset: the boot ROM verifies firmware and derives the device keys. -/
  | packageReset (fw : List (List Nat))
  /-- RECOVERY_IMAGE (R398): A new signed image arrives through the recovery DOE mailbox. -/
  | recoveryImage (k : Nat) (img : List (List Nat))
  /-- GET_VERSION (R400): SPDM GET_VERSION request. -/
  | getVersion (f : Nat) (b : List Nat)
  /-- GET_CAPABILITIES (R400): SPDM GET_CAPABILITIES request. -/
  | getCapabilities (f : Nat) (b : List Nat)
  /-- NEGOTIATE_ALGORITHMS (R400): SPDM NEGOTIATE_ALGORITHMS request. -/
  | negotiateAlgorithms (f : Nat) (b : List Nat)
  /-- GET_DIGESTS (R400): SPDM GET_DIGESTS request. -/
  | getDigests (f : Nat) (b : List Nat)
  /-- GET_CERTIFICATE (R400): SPDM GET_CERTIFICATE request for slot 0. -/
  | getCertificate (f : Nat) (b : List Nat)
  /-- CHALLENGE (R400): SPDM CHALLENGE signed with the identity key. -/
  | challenge (f : Nat) (b : List Nat)
  /-- GET_MEASUREMENTS (R401): Returns the five boot measurement blocks. -/
  | getMeasurements (f : Nat) (b : List Nat)
  /-- KEY_EXCHANGE (R400): SPDM KEY_EXCHANGE request. -/
  | keyExchange (f : Nat) (b : List Nat)
  /-- FINISH (R400): SPDM FINISH request. -/
  | finish (f : Nat) (b : List Nat)
  /-- HEARTBEAT (R400): SPDM HEARTBEAT request. -/
  | heartbeat (f : Nat) (b : List Nat)
  /-- KEY_UPDATE (R400): SPDM KEY_UPDATE request. -/
  | keyUpdate (f : Nat) (b : List Nat)
  /-- END_SESSION (R400): SPDM END_SESSION request. -/
  | endSession (f : Nat) (b : List Nat)
  /-- KEY_PROG (R406): Vendor-defined request that programs a crypto key slot. -/
  | keyProg (f : Nat) (b : List Nat)
  /-- KEY_ERASE (R406): Vendor-defined request that erases a key slot. -/
  | keyErase (f : Nat) (b : List Nat)
  /-- UNSUPPORTED_REQUEST (R400): Any other SPDM request is answered UnsupportedRequest. -/
  | unsupportedRequest (f : Nat) (b : List Nat)
  /-- IDE_KM (R402): IDE_KM programs a stream's AES-256-GCM keys over SPDM. -/
  | ideKm (f : Nat) (b : List Nat)
  /-- IDE_INTEGRITY_FAILURE (R402): A TLP fails IDE integrity, is dropped and the TDI goes to ERROR. -/
  | ideIntegrityFailure (f : Nat)
  /-- GET_DEVICE_INTERFACE_STATE (R403): TDISP query of a TDI's state. -/
  | getDeviceInterfaceState (f : Nat)
  /-- LOCK_INTERFACE_REQUEST (R403): Locks a TDI and its ASIDs. -/
  | lockInterfaceRequest (f : Nat)
  /-- GET_DEVICE_INTERFACE_REPORT (R403): Returns the TDI's doorbells and bound ASIDs. -/
  | getDeviceInterfaceReport (f : Nat)
  /-- START_INTERFACE_REQUEST (R403): Moves a locked TDI to RUN. -/
  | startInterfaceRequest (f : Nat)
  /-- STOP_INTERFACE_REQUEST (R403): Stops a TDI, erasing its keys and killing its queues. -/
  | stopInterfaceRequest (f : Nat)
  /-- VF_Q_BIND (R404): VF command acting as Q_BIND. -/
  | vfQBind (f a n : Nat)
  /-- VF_Q_TEARDOWN_DRAIN (R404): VF command acting as Q_TEARDOWN DRAIN. -/
  | vfQTeardownDrain (f a n : Nat)
  /-- VF_Q_TEARDOWN_KILL (R404): VF command acting as Q_TEARDOWN KILL. -/
  | vfQTeardownKill (f a n : Nat)
  /-- VF_Q_TEARDOWN_FREEZE (R404): VF command acting as Q_TEARDOWN FREEZE. -/
  | vfQTeardownFreeze (f a n : Nat)
  /-- VF_Q_RESTORE (R404): VF command acting as Q_RESTORE. -/
  | vfQRestore (f a n : Nat)
  /-- VF_PREEMPT (R404): VF command acting as PREEMPT. -/
  | vfPreempt (f a n : Nat)
  /-- VF_RESUME (R404): VF command acting as RESUME. -/
  | vfResume (f a n : Nat)
  /-- VF_INV_ASID (R404): VF command acting as INV_ASID. -/
  | vfInvAsid (f a n : Nat)
  /-- VF_INV_PAGE (R404): VF command acting as INV_PAGE. -/
  | vfInvPage (f a n : Nat)
  /-- VF_INV_WINDOW (R404): VF command acting as INV_WINDOW. -/
  | vfInvWindow (f a n : Nat)
  /-- VF_INV_KEY (R404): VF command acting as INV_KEY. -/
  | vfInvKey (f a n : Nat)
  /-- VF_WIN_MAKE (R404): VF command acting as WIN_MAKE. -/
  | vfWinMake (f a n : Nat)
  /-- VF_REGION_SET (R404): VF command acting as REGION_SET. -/
  | vfRegionSet (f a n : Nat)
  /-- VF_REGION_CLEAR (R404): VF command acting as REGION_CLEAR. -/
  | vfRegionClear (f a n : Nat)
  /-- VF_PARK_RESUME (R404): VF command acting as PARK_RESUME. -/
  | vfParkResume (f a n : Nat)
  /-- VF_PARK_DROP (R404): VF command acting as PARK_DROP. -/
  | vfParkDrop (f a n : Nat)
  /-- ENTRY_WR (R404): Copies VF_ENTRY into a queue header, window, region or key entry of the VF's ASID. -/
  | entryWr (f a sel n : Nat)
  /-- DBG_SESSION_WRITE (R413): Writes DBG_CTL session fields, refused for a locked ASID. -/
  | dbgSessionWrite (n v : Nat)
  /-- DBG_STOP (R414): Requests a debug stop of every member at its next landing point. -/
  | dbgStop (n : Nat)
  /-- DBG_RESUME (R414): Continues every halted member. -/
  | dbgResume (n : Nat)
  /-- DBG_STEP (R414): Continues every member to its next landing point and stops again. -/
  | dbgStep (n : Nat)
  /-- DBG_DATA_READ (R416): Reads the halted state selected by DBG_SEL. -/
  | dbgDataRead (n : Nat)
  /-- DBG_DATA_WRITE (R416): Writes the halted state selected by DBG_SEL, checked. -/
  | dbgDataWrite (n v : Nat)
  /-- REPLAY_PARTING (R425): A replaying arbiter's WINDOW expires with masks unequal and a DIVERGE is recorded. -/
  | replayParting (c : Nat)
  /-- PPS_EDGE (R445): A rising edge on PPS_IN marks a TAI second. -/
  | ppsEdge
  /-- TOD_MESSAGE (R445): A time-of-day message arrives on TOD_RX and is accepted or ignored. -/
  | todMessage (b : List Nat)
  /-- TOD_BYTE_GAP (R445): A gap of more than 1 ms between bytes ends a time-of-day message. -/
  | todByteGap
  /-- TOD_DEADLINE (R445): 500 ms after an edge with no complete message, the message counts as ignored. -/
  | todDeadline
  /-- TIME_LOCK (R437): The clock locks to its source, stepping DEVTIME once at the first lock or slewing after. -/
  | timeLock (t : Nat) (p : Int)
  /-- TIME_SOURCE_LOSS (R437): The time source is lost and the clock enters HOLDOVER. -/
  | timeSourceLoss
  /-- REGISTER_WRITE (R6): A write to a device register without a row of its own, under its access code. -/
  | registerWrite (f off v : Nat)
deriving DecidableEq, Repr

end Sys2Proof
end

