-- ==== Sys2Proof/Machine/State.lean ====
section
/-! DEFINITION. Machine/State: everything the spec gives one package, as plain data; the reasons a step can stop; reset. -/

namespace Sys2Proof.Machine

/-- Where a fixed-latency result goes (R299, R366). -/
inductive WbDest where
  /-- A scalar register. -/
  | sreg (n : Nat) (v : Word)
  /-- A predicate. -/
  | pred (n : Nat) (v : Bool)
  /-- The words a vector operand field names (R60): word `i` of the value goes to lane `i`. -/
  | vop (x : Nat) (v : BitVec 4096)
  /-- Bits off to off + len − 1 of a packed register. -/
  | qbits (q off len : Nat) (v : BitVec 4096)
  /-- Bits off to off + len − 1 of a scale companion. -/
  | qcomp (q off len : Nat) (v : BitVec 256)
deriving DecidableEq, Repr

/-- A fixed-latency result on its way: the active cycle it lands in and the order of issue. -/
structure WbEntry where
  land : Nat
  seq : Nat
  dest : WbDest
deriving DecidableEq, Repr

/-- A rational operation in flight (R198, R199): opcode and function code, destination (register, or pair k of a compare),
operands and the SCR read at issue, the active cycle it lands in, whether a loop operation of its bundle overrides its
predicates (R169), its count of cycles (R303), and its slot value (R365). -/
structure RatOp where
  op : Nat
  fn : Nat
  d : Nat
  a : Word
  b : Word
  scr : Word
  land : Nat
  void : Bool
  lat : Nat
  word : Nat
deriving DecidableEq, Repr

/-- One row of a slot or one column of a weight plane: elements, scale bytes, 3-bit block classes (R57, R88). -/
structure MxRow where
  el : BitVec 2048
  sc : BitVec 128
  cl : BitVec 48
deriving DecidableEq, Repr

/-- States of an operand slot (R58). -/
inductive SlotState where
  | free | claimed | filling | full
deriving DecidableEq, Repr

/-- An operand slot (R57, R58): its state, format (0 MXINT16, 1 MXINT8, 2 MXINT6, 3 MXINT4), block size and rows; `epoch`
numbers the unknown contents of rows never written since the claim. -/
structure OSlot where
  st : SlotState
  fmt : Nat
  blk : Nat
  rows : Sp MxRow
  epoch : Nat
deriving DecidableEq, Repr

/-- A weight plane (R226, R233): loaded or not, format, K block size, columns of B. -/
structure Plane where
  loaded : Bool
  fmt : Nat
  blk : Nat
  cols : Sp MxRow
deriving DecidableEq, Repr

/-- A row of A on its way through the array: its row, the operand-slot row that entered, and the accumulator row as an
accumulating form read it (R235). -/
structure XRow where
  i : Nat
  a : MxRow
  old : BitVec 4096
deriving DecidableEq, Repr

/-- A matrix operation issued and unfinished (R231): order of issue, slot value and fields, remaining start delay; once
launched, the cycles it has advanced since, the mode value as read, plane and weights read, stream as read, rows entered, rows
in the array (of `mtrans`, the slot rows read), block size of the operand slot, rows done, rows placed or sent, cycles its rows
have slipped (R309), and the words of the window it drains to (R243). -/
structure XOp where
  seq : Nat
  word : Nat
  op : Nat
  t : Nat
  os : Nat
  mm : Nat
  delay : Nat
  launched : Bool
  age : Nat
  mode : Word
  plane : Nat
  wts : Plane
  ablk : Nat
  str : BitVec 256
  entered : Nat
  fly : List XRow
  done : Nat
  placed : Nat
  slip : Nat
  win : List Nat
deriving DecidableEq, Repr

/-- A fill in progress (R215): slot, stream as the fill walks it, next row, source handle's GEN, cycles left until it is FULL once row
127 is read, how many of the cycles that the next row's lines take it has had (R304), and the order of issue of its bundle. -/
structure Fill where
  os : Nat
  stn : Nat
  str : BitVec 256
  next : Nat
  gen : Nat
  fullAt : Option Nat
  lost : Nat
  seq : Nat
deriving DecidableEq, Repr

/-- A row of `mdrain.fab` in the drain port's queue or on its way (R243): the operation's order of issue, the words of its window,
offset, bytes, landing counter, flits the quad's port has still to take (R14). -/
structure DrainRow where
  op : Nat
  win : List Nat
  off : Nat
  bytes : List Byte
  lct : Nat
  left : Nat
  sent : Bool
  tag : Nat
  acked : Bool
deriving DecidableEq, Repr

/-- What a G operation of the queue is waiting for (R218, R359, R360). -/
inductive GStat where
  /-- Not yet performed. -/
  | ready
  /-- Its translation missed and a walk is under way. -/
  | walk
  /-- Parked: cause and reason code (R360). -/
  | parked (cause detail : Nat)
  /-- Sent through the hub under a tag; its reply completes it. -/
  | sent (tag : Nat)
  /-- An `amo.sc` on its way to the wheel: the active cycle it arrives in, and the cycle of the clock once arrived (R116, R313). -/
  | wheel (arriveAct : Nat) (arrived : Option Nat)
deriving DecidableEq, Repr

/-- Kinds of G operation (R155, R218 to R225). -/
inductive GKind where
  | load | store | loadAcq | storeRel | ldv | stv | amo | amoSc | probe
deriving DecidableEq, Repr

/-- A cached translation (R359): ASID, class (0 range, 1 window, 2 page), index or window number, the virtual addresses it
covers (lo to hi − 1) and its words as read. -/
structure XEnt where
  asid : Nat
  cls : Nat
  n : Nat
  lo : Nat
  hi : Nat
  w : List Nat
deriving DecidableEq, Repr

/-- A table walk under way on a die: the address space and address, the G operations (core, order of issue) it will answer and
the cores that prefetch (R359, R224). Each operation stands with the address it waits for. -/
structure Walk where
  die : Nat
  asid : Nat
  va : Nat
  who : List (Nat × Nat × Nat)
  pf : List Nat
deriving DecidableEq, Repr

/-- A G operation, or one part of it (R114), not yet performed (R218): order of issue, slot value, kind, function, size in bytes,
virtual address, byte offset of the part in the access, data or operand (for a load: parts returned so far), compare value,
version, destination register, cycle of issue in device time, its bytes counted in PBC (R107), its way through the quad's port to another
die's stack (0 not needed so far, 1 it waits there, 2 it has passed; R12, R14), and its status. -/
structure GOp where
  seq : Nat
  word : Nat
  kind : GKind
  fn : Nat
  size : Nat
  va : Word
  off : Nat
  data : Word
  cmp : Word
  ver : Nat
  dst : Nat
  t0 : Nat
  cnt : Nat
  hub : Nat
  st : GStat
deriving DecidableEq, Repr

/-- A live combining-buffer entry (R118): the line's virtual address over 128, the window it belongs to and its words as its stores
found them, its bytes and which of them are written, the landing counter it counts for, the cycle of its last write and the order of its allocation. -/
structure CombEntry where
  line : Nat
  win : Nat
  w : List Nat
  mask : BitVec 128
  data : BitVec 1024
  land : Option Word
  last : Nat
  ord : Nat
  /-- Marked to leave: a flush event has named it. -/
  due : Bool
deriving DecidableEq, Repr

/-- A write that has left the core and whose placement is awaited (R107): tag, bytes, whether it left this package, the token of the
engine command that wrote it, if one did (R105, R115), whether it goes to a STRONG page (R113), whether its acknowledgement has come, and
whether it is known to have been dropped (log 82). -/
structure Unacked where
  tag : Nat
  bytes : Nat
  fabric : Bool
  eng : Option Nat
  strong : Bool
  acked : Bool
  lost : Bool
deriving DecidableEq, Repr

/-- A piece of a transfer not yet placed (R106, R264): the core whose handle table and counters it goes by, whether its place is a
virtual address, the handle and its GEN, the offset or address, the bytes, the tag of the read that will bring them, and its way through
the quad's port to another die's stack (as of a G operation). -/
structure Piece where
  core : Nat
  isVa : Bool
  h : Nat
  gen : Nat
  at_ : Nat
  data : List Byte
  tag : Option Nat
  hub : Nat
deriving DecidableEq, Repr

/-- An engine command (R261 to R287): a number of its own, order of issue, opcode, token produced and tokens consumed, record place and
the GEN of its handle, operands, predicate; once started: the record as read once, pieces to place, status code, bytes counted,
cores whose arrival was dropped, tags of replies awaited, a parked address, progress of its own, when it issued; the GENs of the handles
its record names, as they stood when it started (core, handle, GEN; R213); and, while it waits on a counter, whether it has an entry of
the die's monitor table, its next poll and its interval in ns (R109). -/
structure Cmd where
  id : Nat
  seq : Nat
  op : Nat
  tok : Nat
  cons : List Nat
  recw : Word
  recGen : Nat
  x : Word
  y : Word
  pd : Nat
  started : Bool
  recb : List Byte
  pieces : List Piece
  code : Nat
  count : Nat
  drop : Nat
  waits : List Nat
  parked : Option (Nat × Nat)
  prog : List Nat
  t0 : Nat
  gens : List (Nat × Nat × Nat)
  reg : Bool
  poll : Nat
  ivl : Nat
deriving DecidableEq, Repr

/-- Where a counter named by a virtual address stands: a counter of a core, or physical HBM. -/
inductive CtrAt where
  | file (core n : Nat)
  | hbm (pa : Nat)
deriving DecidableEq, Repr

/-- Where the counter of a wait stands, as translated at issue (R171): on this package, or behind a window to another package (the
window's words, the virtual address, the offset in the window). -/
inductive WaitPlace where
  | near (c : CtrAt)
  | far (w : List Nat) (va o : Nat)
  /-- The wait has been resumed, and is translated again in its first cycle. -/
  | again
deriving DecidableEq, Repr

/-- What the line is held for once an operation has issued (R33, R170 to R177, R220, R223, R287). -/
inductive Hold where
  /-- Nothing. -/
  | none
  /-- A counter wait: own counter number or virtual address, the register its operands begin at, where that counter stands, threshold, time-out, issue cycle, guard, trap
  choice, and the polling state (an entry of the die's monitor table, next poll, interval in ns). -/
  | counter (own : Bool) (ct a : Nat) (va : Word) (place : WaitPlace) (thr tmo t0 guard : Nat) (trap : Bool) (reg : Bool) (poll ivl : Nat)
  /-- `sstep` in stage 1 to 4 (R29). -/
  | sstep (stage : Nat)
  /-- `halt` waiting for stages 1 and 2 (R175). -/
  | halt
  /-- A fence at a scope (R223). -/
  | fence (scope : Nat)
  /-- A versioned access from its issue until performed (R220), and the cycle its wait began. -/
  | ver (seq t0 : Nat)
  /-- `tret` waiting for `frec.wr` (R287). -/
  | tret
  /-- An `ofill` (slot, stream number, stream) or an `orel` (slot) of a bundle whose X operation reads the slot first (R216). -/
  | opslot (fill : Option (Nat × Nat × BitVec 256)) (rel : Option Nat)
deriving DecidableEq, Repr

/-- A precise fault recorded while a bundle issues (R447): slot index, cause, DETAIL, address. -/
structure SlotFault where
  slot : Nat
  cause : Nat
  detail : Nat
  addr : Word
deriving DecidableEq, Repr

/-- The kernel as the loader brought it (R317 to R323): dictionary, code words, constants, loop levels (kind, bound in force,
body start, body end, stages). -/
structure Level where
  kind : Nat
  bound : Nat
  quad : Bool
  stages : Nat
  bstart : Nat
  bend : Nat
deriving DecidableEq, Repr

structure Prog where
  dict : List (BitVec 384)
  code : List (BitVec 16)
  consts : List Word
  levels : List Level
  seed : Word
  power : Nat
deriving DecidableEq, Repr

/-- Scalar and control registers of a core (spec/09, spec/03, spec/12, spec/05). -/
structure Regs where
  /-- s1 to s63 (s0 reads as zero, R184). -/
  s : Sp Word
  /-- p15 to p0; bit 0 is always 1. -/
  p : BitVec 16
  /-- b0 to b7 (R164). -/
  b : Sp (BitVec 24)
  /-- Active cycle of the `pbr` or `pbr.s` that prepared a branch target, where one did (R312). -/
  bprep : Sp Nat
  /-- Return stack entries the hardware holds, newest first (R166). -/
  rstack : List (BitVec 24)
  /-- DEPTH (R183). -/
  depth : Nat
  /-- lc0 to lc7 (R27, R38). -/
  lc : Sp Nat
  /-- Active loop levels, innermost first (R167). -/
  loops : List Nat
  /-- st0 to st15 (R62). -/
  st : Sp (BitVec 256)
  /-- mm0 to mm15 (R226). -/
  mm : Sp Word
  scr : Word
  check : Word
  rngs : Word
  alnLoss : Word
  cvtLoss : Word
  /-- PBC.BYTES (R107). -/
  pbc : Nat
  /-- SSN (R183). -/
  ssn : Word
  /-- tk0 to tk15: bit set while pending (R35). -/
  tok : BitVec 16
deriving DecidableEq, Repr

/-- Data memories of a core (spec/03, spec/12). -/
structure Mems where
  /-- Scratchpad lines: bank · 384 + line. -/
  spad : Sp (BitVec 4096)
  /-- The epoch of a line whose contents are unknown (R212). -/
  spadEp : Sp Nat
  /-- Handle table entries in the layout of R50. -/
  htab : Sp Word
  /-- Handles held by a `ccpy` in progress (1), held after it (2), or CONF (3) (R408, R409). -/
  hheld : Sp Nat
  slots : Sp OSlot
  /-- Accumulator rows v0 to v639 (R59). -/
  acc : Sp (BitVec 4096)
  /-- q0 to q15 and their companions (R61). -/
  q : Sp (BitVec 4096)
  qc : Sp (BitVec 256)
  planes : Sp Plane
  /-- The plane the latest weight load fills, once one has been launched (R233). -/
  lastPlane : Option Nat
  /-- Drain buffer rows, and whether its kind is INT32 (R226). -/
  drain : Sp (BitVec 4096)
  drainInt : Bool
  /-- The epoch of everything this task found unknown at its first bundle (R325); 0 before any launch. -/
  epoch : Nat
  /-- Whether the accumulator and the packed registers were written with zeros before this task, the context's first on the core (R331). -/
  zeroed : Bool
deriving DecidableEq, Repr

/-- What is in flight in a core. -/
structure Flight where
  wb : List WbEntry
  rat : Option RatOp
  /-- Active cycle until which the scalar floating datapath is taken (R302). -/
  fpBusy : Nat
  xops : List XOp
  fill : Option Fill
  drainq : List DrainRow
  gq : List GOp
  comb : List CombEntry
  unacked : List Unacked
  cmds : List Cmd
  /-- Active cycle at which V0, V1, P, U are free again (R307). -/
  busy : Sp Nat
  /-- An error report to be taken at the next bundle boundary: cause and produced token (R265). -/
  deferred : List (Nat × Nat)
  /-- Ports that a second row of P or U takes in a cycle: (cycle, tile, write) (R257). -/
  ports : List (Nat × Nat × Bool)
  /-- Rational operations saved at traps, which restart one after another when the datapath is free (R198, R199). -/
  ratWait : List RatOp
deriving DecidableEq, Repr

/-- What the C slot of a bundle chose, kept while the bundle waits to issue again for its faulting slots (R447), or until what holds
it is over (R167, R173): the bundle's code address, the redirect, a call's target, whether the loop rule is replaced, forced stage
predicates, a software trap; whether its X operation is already among those in flight (R245); its words, iteration-boundary bit, stall
count, issue cycle and order of issue; and whether it has issued and waits for what holds it. -/
structure Carry where
  pc : Nat
  redirect : Option (Nat × Nat)
  calls : Option Nat
  noLoop : Bool
  stageSet : Option (BitVec 8)
  trapAfter : Option Nat
  xgone : Bool
  words : Nat
  ib : Bool
  stall : Nat
  at_ : Nat
  seq : Nat
  held : Bool
deriving DecidableEq, Repr

/-- In-flight state set aside at a trap or a stop: the active cycle it was set aside in, and what continues from there (the rational
operation first among those that wait for its datapath, and how long that is taken, R198); the
parked or stopped G access (GACC, R365), and the other G operations not yet performed (R360); what the C slot of the interrupted
bundle chose. -/
structure Aside where
  act : Nat
  wb : List WbEntry
  rat : List RatOp
  fp : Nat
  xops : List XOp
  fill : Option Fill
  busy : Sp Nat
  gacc : Option GOp
  gops : List GOp
  carry : Option Carry
deriving DecidableEq, Repr

/-- The sequencer of a core. -/
structure Seqr where
  /-- Whether a tile task runs here (it may be held); false when the core is free, halted by a stop or trapped to the driver. -/
  running : Bool
  /-- Code address of the next bundle. -/
  pc : Nat
  /-- Active cycles since the task started (R32). -/
  act : Nat
  /-- Cycles of the package clock at which the core last had its cycle, plus one (0: never). -/
  last : Nat
  /-- The active cycle from which the next bundle may issue (R300). -/
  ready : Nat
  /-- Cycles of bank conflicts still to be held (R208). -/
  bankHold : Nat
  /-- What the line is held for by the C slot, by the G slot and by the operand slots of the bundle that issued last. -/
  hold : Hold
  holdG : Hold
  holdO : Hold
  /-- Event code of what holds the line in this cycle (R33, R422); 0 when it is low. -/
  heldBy : Nat
  /-- A landing point has been reached and the next bundle has not issued (R44). -/
  landed : Bool
  /-- The software-pipelined level whose next pass begins with the next bundle: R39 is still to be applied (R44). -/
  newPass : Option Nat
  carry : Option Carry
  /-- The stop's trace record has been written (R419). -/
  logged : Bool
  /-- The next bundle waits for a wheel position (R177). -/
  wheel : Option Nat
  /-- Order of issue of bundles, and of results. -/
  seq : Nat
  /-- Slots to leave out of the next bundle: the completion mask of a resume (R447, R287). -/
  skipMask : BitVec 12
  /-- Code address and dictionary index of the bundle that issued last. -/
  lastPc : Nat
  lastDx : Nat
  lastMask : BitVec 12
  /-- Active cycle in which a predicate became final (R42, R311). -/
  pfinal : Sp Nat
  /-- Active cycles in which the last two bundles issued or were skipped, latest first. -/
  issues : List Nat
  /-- Active cycle in which a bundle issued last, as many later as the skips since then have used (R300, R316). -/
  lastIss : Option Nat
  /-- The oldest X operation, while the issue of a ninth waits for its end (R231). -/
  xwait : Option Nat
  /-- A stop is requested: 0 none, 1 pre-emption, 2 debug, 3 ISTOP, 4 filler; the device time it was asked (R44, R45). -/
  stopReq : Nat
  stopT : Nat
  /-- A parting of the replay is to be trapped at the next landing point (R425). -/
  rhalt : Bool
  /-- Device time at which stage 4 of `sstep` began. -/
  waitT : Nat
  /-- `brk` detail for a requested debug stop. -/
  brk : Option Nat
  /-- A debug stop that a pre-emption has overtaken: 0 none, 1 one that was asked for, 2 the member was halted in it (R414). -/
  dbg : Nat
  /-- Stopped at a landing point or mid-bundle. -/
  stopped : Bool
  /-- The slice was marked used up (R174). -/
  yielded : Bool
  /-- `pwr.hint` (R178). -/
  hint : Nat
  /-- Running in its own trap handler (R368). -/
  inHandler : Bool
  /-- The trap buffer (R286), and the fault record of a member stopped or trapped to the driver (R365). -/
  tbuf : List Byte
  frec : List Byte
  /-- Task retired, waiting for its gang. -/
  retired : Bool
  /-- Device time until which the member's saved state is being brought back (R348). -/
  wake : Nat
  /-- In-flight state set aside while the task's handler runs, or while the member is stopped, latest first (R245, R260, R287, R366). -/
  aside : List Aside
deriving DecidableEq, Repr

/-- The binding of a core to a tile task (R23 to R26, R336). -/
structure Bind where
  gang : Nat
  member : Nat
  asid : Nat
  part : Nat
  coords : List Nat
  size : Nat
  pclass : Nat
  pinned : Bool
  filler : Bool
deriving DecidableEq, Repr

/-- Performance counters of a core (R421): control, selections, counts by 8·set + k, times (in units of device time), fixed
counters, the active set and when it became active. -/
structure Pmc where
  ctl : Word
  sel : Sp Word
  cnt : Sp Nat
  en : Nat
  run : Sp Nat
  fix : Sp Nat
  set : Nat
  since : Nat
deriving DecidableEq, Repr

/-- One core. -/
structure Core where
  r : Regs
  m : Mems
  f : Flight
  q : Seqr
  prog : Prog
  bind : Option Bind
  /-- Counter file ct0 to ct511 (R99, R100). -/
  ct : Sp Word
  /-- Translation caches: range or window entries and page entries, oldest first (R359). -/
  tlbR : List XEnt
  tlbP : List XEnt
  pmc : Pmc
  /-- Halted in a debug stop; the last window access was refused; `brk` or breakpoint detail of the stop (R413, R414). -/
  halted : Bool
  dbgErr : Bool
  dbgDetail : Nat
  /-- The conflict matrix: 16·requester + bank (R420); the lines of the scratchpad granted in the core's last cycle (requester, line), and the
  asynchronous accesses that have lost and are still ready (requester, bank). -/
  conf : Sp Nat
  lines : List (Nat × Nat)
  asks : List (Nat × Nat)
  /-- Active cycles since the last sample (R418). -/
  sample : Nat
  /-- The shadow register store (R18, R348): the register part of a member saved by the fast path. -/
  store : List Byte
deriving DecidableEq, Repr

/-- A bundle while it issues: the core, the core as it stood before, what is left to run, the slot being run, faults so far,
completed slots, redirect chosen by the C slot, stochastic state chain. -/
structure Issue where
  core : Nat
  before : Core
  todo : List (Nat × Instr)
  slot : Nat
  faults : List SlotFault
  mask : BitVec 12
  /-- The redirect: target, and whether its prepared prefetch leaves a bubble. -/
  redirect : Option (Nat × Nat)
  /-- `call` pushes the address R38 selects (R167). -/
  calls : Option Nat
  /-- The C operation replaces the loop rule of a body end (R167). -/
  noLoop : Bool
  rng : Word
  rngWr : Bool
  /-- Streams written by a `stset` in this bundle: a use's advance is discarded (R64). -/
  stWr : List Nat
  /-- Whether the fill's next row loses this cycle to an L-slot access or to the drain port (R215), and the ports that the bundle's P and U
  take in the next cycle (R257). -/
  lbusy : Bool
  rows : List (Nat × Nat × Bool)
  /-- The drains whose row of this cycle the drain port has written before the bundle's own accesses (R56). -/
  drained : List Nat
  /-- The operand slot the bundle's X operation reads: an `ofill` or `orel` of it waits (R216). -/
  xslot : Option Nat
  /-- p15 to p8 as a loop operation of the bundle leaves them, whatever else writes them (R39, R168, R169). -/
  stageSet : Option (BitVec 8)
  trapAfter : Option Nat
  pc : Nat
  dx : Nat
  words : Nat
  ib : Bool
  stall : Nat
deriving DecidableEq, Repr

/-- A packet (R379): header fields, what the header has no place for in a combining packet or a masked write (log 21), data, the trunk it came
by (999: this package itself), and the number of its flits in that trunk's receive buffers (R376; 0: none). `len` counts the data bytes a read
asks for. -/
structure Packet where
  dpkg : Nat
  spkg : Nat
  lane : Nat
  hop : Nat
  rsp : Bool
  op : Nat
  len : Nat
  key : Nat
  addr : Nat
  tag : Nat
  ggen : Nat
  aux : Nat
  pre : List Nat
  data : List Byte
  port : Nat
  num : Nat := 0
deriving DecidableEq, Repr

/-- What a reply to a tag completes (R380): kind (0 G operation, 1 write of a core, 2 piece of a command, 3 drain row, 4 counter
command, 5 poll of a wait, 6 request forwarded for another packet, 7 reduction, 8 landing add, 9 scheduler), core, reference,
bytes, and the packet forwarded for. -/
structure Pend where
  what : Nat
  core : Nat
  ref : Nat
  bytes : Nat
  orig : Option Packet
deriving DecidableEq, Repr

/-- A flit (R373, R374), and while it waits to be sent the number of its packet. -/
structure Flit where
  seq : Nat
  ack : Nat
  vc : Nat
  csrc : Nat
  crcnt : Nat
  crch : Nat
  typ : Nat
  payload : List Byte
  num : Nat
deriving DecidableEq, Repr

/-- A trunk (R372, R374 to R378): state and lanes; the sender's next SEQ, last ACK, outstanding flits, flits waiting for credit, and
credits; the receiver's expected SEQ, replay request (when last sent, how often), packets being assembled by VC, credits to return; what was put
on the lanes, latest first; the SEQ that the peer last asked for again, and how often; credits of the parking channel kept back (R376);
flits in the receive buffers (channel, number of the packet once it is whole, credit spent); FEC corrections of the last 10 µs (lane, device
time, R378). -/
structure Trunk where
  state : Nat
  nrz : Bool
  lanes : List Nat
  peer : Nat
  /-- What a retrain aims at: NRZ or PAM4, and whether it follows a halving. -/
  aimNrz : Bool
  since : Nat
  txSeq : Nat
  txAck : Nat
  outst : List Flit
  waitq : List Flit
  credD : Sp Nat
  credS : Nat
  heldS : Sp Nat
  rxExp : Nat
  replay : Option (Nat × Nat)
  asm : Sp (List Byte)
  owe : List (Nat × Nat)
  wire : List Flit
  asked : Nat × Nat
  kept : List (Nat × Nat)
  buf : List (Nat × Nat × Nat)
  corr : List (Nat × Nat)
deriving DecidableEq, Repr

/-- The hub's entry for a group (R384, R385): fields accepted, when its GEN was last set or cleared (device time), closed SEQs. -/
structure Group where
  valid : Bool
  gen : Nat
  asid : Nat
  ptmo : Nat
  members : Nat
  nmem : Nat
  genAt : Nat
  seqhi : Nat
  closed : BitVec 48
deriving DecidableEq, Repr

/-- An open reduction (R386 to R390): its names, the form of its first contribution (element, mode, operation, saturation, length in
4-byte units, contributors), pieces in the order taken (contributor, first element, bytes), who is answered (contributor, package,
tag, lane), when it opened, and whether REREQ has gone out. -/
structure Red where
  group : Nat
  ggen : Nat
  seq : Nat
  form : List Nat
  parts : List (Nat × Nat × List Byte)
  who : List (Nat × Nat × Nat)
  t0 : Nat
  asked : Bool
deriving DecidableEq, Repr

/-- A packet parked at a non-resident page (R364): the port it came by, the ASID and page, the packet. -/
structure Parked where
  port : Nat
  asid : Nat
  va : Nat
  pkt : Packet
deriving DecidableEq, Repr

/-- What takes flits of a quad's port (R12, R14): packets for the hub, a write's landing add directly behind it (R106); an access of a core's
queue (order of issue, address) or a piece of a command (its number, address) on its way to a stack of another die; such a read. -/
inductive PortLoad where
  | packets (l : List Packet)
  | access (seq va : Nat)
  | piece (id a : Nat)
  | read
deriving DecidableEq, Repr

/-- A quad's port of the hub (R14): what its cores have for the hub, in the order it came (core in the quad, flits still to go,
load), the core whose flit was taken last, and the cores whose last flit came from their drain port, as a mask. -/
structure QPort where
  wait : List (Nat × Nat × PortLoad)
  last : Nat
  drn : Nat
deriving DecidableEq, Repr

/-- The hub (spec/21): packets to be handled, tags, routes and their holds, trunks, groups, open reductions, parked packets, counters
(trunk n word k at 8·n + k; hub-wide word k at 2000 + k). `skip` names the source and lane whose last write was dropped or parked, with
what became of it: the landing add directly after it goes the same way (R106). `dead` lists the windows (ASID, number) that WIN_MAKE
has marked dead to arrivals (R361). `owed` holds landing adds behind writes that are being forwarded (source, the write's tag, the add):
they wait until those are placed (R106, R383); `skip` then is 2 and the tag. `far` holds what the firmware has learned of handles of other
packages, by 2^16·package + 2^8·core + handle: GEN, with 16 added where the handle is valid (R361, log 30). `cmd` is the command taken by HUB_CMD and not yet carried out (R371). -/
structure Hub where
  cmd : Option (Nat × Nat)
  ports : Sp QPort
  dead : List (Nat × Nat)
  rx : List Packet
  skip : Sp Nat
  owed : List (Nat × Nat × Packet)
  far : Sp Nat
  nextTag : Nat
  pend : Sp Pend
  routes : Sp Word
  holds : List (Nat × Nat × List Packet)
  trunks : Sp Trunk
  groups : Sp Group
  reds : List Red
  parked : List Parked
  cnt : Sp Nat
deriving DecidableEq, Repr

/-- A record the scheduler has read (R335): ring index, bytes, dependences met and image and shape checked (R344), and whether its ramp
slots have been asked for and granted. `seen` holds what reads of counters of other packages brought: word + 1 of dependence i
(R109). `reg` lists the dependences that have an entry of a die's monitor table; the others are polled, next at `poll`, with an
interval of `ivl` ns. -/
structure QRec where
  idx : Nat
  bytes : List Byte
  seen : Sp Nat
  reg : List Nat
  poll : Nat
  ivl : Nat
  met : Bool
  asked : Bool
  granted : Bool
deriving DecidableEq, Repr

/-- What the scheduler holds of a queue beside its header (R341, R342): bound, the device time it got its hardware slot, the record at its
head, since when that record's dependences are unmet, when it was last served, the start of its turn, ring indices at or above HEAD
that have their status, a teardown or restore under way, the status register its command reports to, and whether its turn has passed with no
other queue of its level ready. -/
structure QState where
  bound : Bool
  slot : Option Nat
  head : Option QRec
  unmet : Option Nat
  served : Nat
  turn : Option Nat
  doneIdx : List Nat
  teardown : Option Nat
  tsts : Nat
  lapsed : Bool
deriving DecidableEq, Repr

/-- A gang (R344 to R351, R446): queue and ring index, record, ASID, partition, context, member cores in order of their coordinates, its
state (0 running, 1 being stopped, 2 saved, 3 saved and waiting for RESUME), class, pinned, filler, placement time, the members'
images while saved and the shadow lines they went to where they took the fast path (die, lines), a RESUME or restore asked for, killed,
the gang a filler stands in for, whether it is stopped to make place for filler (R433), the moment of the free values that its
sealed images were written with (R410), the status register that a PREEMPT of it reports to, whether it is stopped so that another gang may be
placed (R432), and what the scheduler has seen of counters of other packages that saved members wait on (by member, word + 1; 0: refused) with
the device time from which it reads them again (R433). -/
structure Gang where
  queue : Nat
  idx : Nat
  bytes : List Byte
  asid : Nat
  part : Nat
  ctx : Nat
  cores : List Nat
  state : Nat
  pclass : Nat
  pinned : Bool
  filler : Bool
  at_ : Nat
  saved : List Core
  fast : Option (Nat × List Nat)
  resume : Bool
  trap : Bool
  killed : Bool
  aside : Option Nat
  filling : Bool
  sealEp : Nat
  psts : Nat
  giving : Bool
  seen : Sp Nat
  poll : Nat
deriving DecidableEq, Repr

/-- A request for ramp slots (R429): the queue, the gang's ASID, the cores set aside, slots per core, and slots still lacking. -/
structure RampReq where
  queue : Nat
  asid : Nat
  cores : List Nat
  per : Nat
  lack : Nat
deriving DecidableEq, Repr

/-- The Derailleur (R426 to R436): allowances in 0.01 W, requests in order, slots held by core, releases waiting in order, pinned
charges since the last evaluation with the allowance before the first of them (up, down), the last evaluation's number, the ASID of the
gang that a core's slots were last taken for (R429), and ENF as the last evaluation found it. -/
structure Drl where
  aup : Int
  adn : Int
  reqs : List RampReq
  slots : Sp Nat
  rel : List (Nat × Nat)
  upFirst : Option (Int × Int)
  dnFirst : Option (Int × Int)
  evals : Nat
  owner : Sp Nat
  enf : Bool
deriving DecidableEq, Repr

/-- A key slot of the crypto engine (R405). -/
structure KeySlot where
  valid : Bool
  asid : Nat
  key : BitVec 256
  salt : BitVec 32
  lastCtr : Nat
deriving DecidableEq, Repr

/-- Security (R398 to R412): in recovery; fused minimum security versions and the fused debug enable; measurements m1 to m5; fabric
number measured; key slots by die and number; states of the TDIs by VF (0 CONFIG_UNLOCKED, 1 CONFIG_LOCKED, 2 RUN, 3 ERROR); ASIDs
assigned to each VF and those locked; SPDM connection state and session by function; IDE keys by function and insecure streams;
answers of the DOE mailboxes, newest first; and the core whose command each die's crypto engine served last (R261). -/
structure Sec where
  recovery : Bool
  minSvn : Sp Nat
  dbgFuse : Bool
  meas : List (BitVec 512)
  slots : Sp KeySlot
  tdi : Sp Nat
  owner : Sp Nat
  locked : List Nat
  spdm : Sp Nat
  ide : Sp (BitVec 256)
  insecure : List Nat
  doe : List (Nat × Nat × List Byte)
  turns : Sp Nat
deriving DecidableEq, Repr

/-- The time inputs (R437, R445): last PPS edge (device time), bytes of the message under way and when the last came, messages ignored in
a row, whether the clock has locked, whether a queue has been served, the TAI second that the message accepted names for the coming
edge, that of the last edge, whether this edge's message is done with, and telemetry records made due so far. -/
structure TimeIn where
  edge : Option Nat
  got : List Byte
  lastByte : Nat
  ignored : Nat
  everLocked : Bool
  served : Bool
  msg : Option Nat
  tai : Option Nat
  heard : Bool
  tlm : Nat
deriving DecidableEq, Repr

/-- Replay (R423 to R425): decision numbers by arbiter, and the waits under way: arbiter, since when (cycle), mask expected and seen. -/
structure Replay where
  seqs : Sp Nat
  waiting : List (Nat × Nat × Nat × Nat)
  parted : Bool
deriving DecidableEq, Repr

/-- An invalidation that waits for accesses begun before it (R359): status register, ASID, OP, operand, device time it came, tags, and the
`mdrain.fab` operations that hold a window (core, order of issue). -/
structure InvWait where
  sts : Nat
  asid : Nat
  op : Nat
  n : Nat
  t0 : Nat
  tags : List Nat
  drains : List (Nat × Nat)
deriving DecidableEq, Repr

/-- The package (spec/01): cores, HBM, and what follows in the package-wide parts. -/
structure State where
  /-- Who moves next: events and operations placed here are taken first, in order (log 2). -/
  agenda : List Instr
  /-- Cycles of the 1.9 GHz clock since package reset (R116). -/
  now : Nat
  /-- Device time in units of 1/19,000,000 ns, and the clock's rate against nominal in ppm (R183, R437). -/
  dev : Nat
  ppm : Int
  /-- The next core whose cycle it is in the default order (log 3). -/
  turn : Nat
  /-- The core a slot operation outside an issuing bundle acts on. -/
  cur : Nat
  /-- The bundle being issued. -/
  issue : Option Issue
  /-- Cores by package-wide number; an unlisted core is as after reset. -/
  cores : Sp Core
  /-- The model's own counter of free values drawn (log 5). -/
  fresh : Nat
  /-- Physical HBM (R12), canonical: addresses rising, no zero byte listed (log 4). -/
  mem : List Host.Cell
  /-- HBM lines (physical address over 128) that read as uncorrectable (R369): the world sets them, nothing clears them. -/
  bad : List Nat
  /-- HBM lines (physical address over 128) with a soft error that ECC corrects when they are read (R443): the world sets and clears them. -/
  soft : List Nat
  /-- Device registers of BAR0 by offset, where one has a value other than its reset value (R6, R332, R333, R352). -/
  bar : Sp Word
  /-- Shadow storage: die · 65,536 + line, and the epochs of its unknown lines (R15, R50, R348). -/
  shadow : Sp (BitVec 4096)
  shadowEp : Sp Nat
  /-- Translation caches of the dies and walks under way (R359). -/
  dieTlb : Sp (List XEnt)
  walks : List Walk
  /-- Invalidations under way. -/
  invs : List InvWait
  /-- Versions of lines of VERSIONED pages, by physical line: the number of the first, whose bytes stand in HBM, and the later ones,
  rising (R119 to R123). -/
  vers : Sp (Nat × List (Nat × BitVec 1024))
  /-- The region by which each of those lines was last written. -/
  vreg : Sp Nat
  hub : Hub
  qs : Sp QState
  gangs : Sp Gang
  /-- Saved gangs that other packages hand over (R351): the world puts them here. -/
  handed : List Gang
  /-- The command the scheduler carries out (R332): OP, MODE, TARGET. -/
  sched : Option (Nat × Nat × Nat)
  /-- ALN_LOSS and CVT_LOSS of a context that is not resident, by 192·context + core (R87). -/
  loss : Sp (Word × Word)
  /-- Cores that a context has run on, by 192·context + core (R331). -/
  ranOn : List Nat
  /-- Symbol values the driver has bound: ASID, image address, symbol index, value (R322, log 27). -/
  binds : List (Nat × Nat × Nat × Word)
  /-- HUB_PKG as the package's flash keeps it (R371). -/
  flashPkg : Word
  drl : Drl
  sec : Sec
  time : TimeIn
  rpl : Replay
  /-- Events posted to functions, newest first: function, kind, arguments (R328, R332). -/
  posted : List (Nat × Nat × List Nat)
deriving DecidableEq, Repr

/-- Why the machine stops. -/
inductive Fault where
  /-- An access to an address that does not exist. Raised by nothing: an access of a program is checked (R358), and what the driver's tables
  point beyond HBM is not stored (log 95). Safe. -/
  | physicalRange
deriving DecidableEq, Repr

/-- Why the model gives no meaning. -/
inductive Refusal where
  /-- An instruction without a meaning; Dispatch alone would raise it, and no arm does. Safe. -/
  | notModelled (mnemonic : String)
deriving DecidableEq, Repr

/-- Registers of a core after package reset: the values of R99, R107, R180 to R183; Reset-U registers are zero (log 6). -/
def Regs.reset : Regs := { s := [], p := 1, b := [], bprep := [], rstack := [], depth := 0, lc := [], loops := [], st := [], mm := [], scr := 0, check := 0, rngs := 1, alnLoss := 0, cvtLoss := 0, pbc := 0, ssn := 0, tok := 0 }

def Mems.reset : Mems := { spad := [], spadEp := [], htab := [], hheld := [], slots := [], acc := [], q := [], qc := [], planes := [], lastPlane := none, drain := [], drainInt := false, epoch := 0, zeroed := false }

def Flight.reset : Flight := { wb := [], rat := none, fpBusy := 0, xops := [], fill := none, drainq := [], gq := [], comb := [], unacked := [], cmds := [], busy := [], deferred := [], ports := [], ratWait := [] }

def Seqr.reset : Seqr := { running := false, pc := 0, act := 0, last := 0, ready := 0, bankHold := 0, hold := .none, holdG := .none, holdO := .none, heldBy := 0, landed := false, newPass := none, carry := none, logged := false, wheel := none, seq := 0, skipMask := 0, lastPc := 0, lastDx := 0, lastMask := 0, pfinal := [], issues := [], lastIss := none, xwait := none, stopReq := 0, stopT := 0, rhalt := false, waitT := 0, brk := none, dbg := 0, stopped := false, yielded := false, hint := 0, inHandler := false, tbuf := [], frec := [], retired := false, wake := 0, aside := [] }

def Prog.reset : Prog := { dict := [], code := [], consts := [], levels := [], seed := 0, power := 0 }

def Pmc.reset : Pmc := { ctl := 0, sel := [], cnt := [], en := 0, run := [], fix := [], set := 0, since := 0 }

/-- A core after package reset: no task, every counter zero. -/
def Core.reset : Core := { r := .reset, m := .reset, f := .reset, q := .reset, prog := .reset, bind := none, ct := [], tlbR := [], tlbP := [], pmc := .reset, halted := false, dbgErr := false, dbgDetail := 0, conf := [], lines := [], asks := [], sample := 0, store := [] }

def QPort.reset : QPort := { wait := [], last := 0, drn := 0 }

def Hub.reset : Hub := { cmd := none, ports := [], dead := [], rx := [], skip := [], owed := [], far := [], nextTag := 1, pend := [], routes := [], holds := [], trunks := [], groups := [], reds := [], parked := [], cnt := [] }

def Drl.reset : Drl := { aup := 0, adn := 0, reqs := [], slots := [], rel := [], upFirst := none, dnFirst := none, evals := 0, owner := [], enf := false }
/-- After a reset with good images: five measurements stand, here as zero; a boot of given images has theirs (R401, log 14). -/
def Sec.reset : Sec := { recovery := false, minSvn := [], dbgFuse := false, meas := List.replicate 5 0, slots := [], tdi := [], owner := [], locked := [], spdm := [], ide := [], insecure := [], doe := [], turns := [] }
def TimeIn.reset : TimeIn := { edge := none, got := [], lastByte := 0, ignored := 0, everLocked := false, served := false, msg := none, tai := none, heard := false, tlm := 0 }
def Replay.reset : Replay := { seqs := [], waiting := [], parted := false }

/-- The machine right after package reset. -/
def State.reset : State := { agenda := [], now := 0, dev := 0, ppm := 0, turn := 0, cur := 0, issue := none, cores := [], fresh := 0, mem := [], bad := [], soft := [], bar := [], shadow := [], shadowEp := [], dieTlb := [], walks := [], invs := [], vers := [], vreg := [], hub := .reset, qs := [], gangs := [], handed := [], sched := none, loss := [], ranOn := [], binds := [], flashPkg := 0, drl := .reset, sec := .reset, time := .reset, rpl := .reset, posted := [] }

end Sys2Proof.Machine
end

