-- ==== Sys2Proof/Machine/Ops.lean ====
section
/-! DEFINITION. Machine/Ops: the named operations over registers, counters, memory and the record of a fault: what reads see,
what writes change, taking a trap and returning from one (spec/02, spec/06, spec/14, spec/20). -/

namespace Sys2Proof.Machine

/-- A core by its package-wide number. -/
def coreAt (s : State) (c : Nat) : Core := spGet Core.reset s.cores c

/-- Changes a core. -/
def modCore (s : State) (c : Nat) (f : Core → Core) : State := { s with cores := spSet s.cores c (f (coreAt s c)) }

/-- The core slot operations act on: that of the issuing bundle, or the current one. -/
def hereNo (s : State) : Nat := match s.issue with | some b => b.core | none => s.cur

/-- What a slot operation reads: the core as it stood before the bundle (R110), or as it stands when no bundle is issuing. -/
def here (s : State) : Core := match s.issue with | some b => b.before | none => coreAt s s.cur

/-- The core that a slot operation changes, as it stands. -/
def live (s : State) : Core := coreAt s (hereNo s)

/-- A slot operation's change to its core. -/
def wr (s : State) (f : Core → Core) : State := modCore s (hereNo s) f

/-- Reads a scalar register; s0 reads as zero (R184). -/
def sreg (c : Core) (n : Nat) : Word := if n = 0 then 0 else spGet 0 c.r.s n

/-- Reads a predicate; p0 is always true (R41). -/
def preg (c : Core) (n : Nat) : Bool := n == 0 || c.r.p.getLsbD n

/-- A slot operation's guard, as it stood before the bundle (R41). -/
def guardOf (s : State) (p : Nat) : Bool := preg (here s) p

/-- An operation under a guard: predicated off, it changes nothing (R41). -/
def guarded (s : State) (p : Nat) (f : State → State) : State := if guardOf s p then f s else s

/-- Bits hi:lo of a number. -/
def bits (v hi lo : Nat) : Nat := v / 2 ^ lo % 2 ^ (hi + 1 - lo)

/-- One bit of a number. -/
def bit (v k : Nat) : Bool := v.testBit k

/-- Fixed counter of an event (R422). -/
def fixOf (ev : Nat) : Option Nat :=
  if ev = 0x01 then some 0 else if ev = 0x02 then some 1 else if ev = 0x0C then some 2 else if ev = 0x11 then some 3
  else if ev = 0x12 then some 4 else if ev = 0x13 then some 5 else none

/-- Whether the performance counters of a core count (R421). -/
def pmcOn (c : Core) : Bool :=
  c.pmc.ctl.getLsbD 63 && (match c.bind with | some b => b.asid == bits c.pmc.ctl.toNat 45 32 | none => false)

/-- Adds to the counters of the active set and the fixed ones that an event selects; values saturate (R421, R422). -/
def countRaw (c : Core) (ev n : Nat) : Core :=
  let sat := fun x => min (x + n) (2 ^ 64 - 1)
  let sel := (spGet 0 c.pmc.sel c.pmc.set).toNat
  let cnt := (upTo 8).foldl (fun m k => if bits sel (8 * k + 7) (8 * k) = ev then spMod 0 m (8 * c.pmc.set + k) sat else m) c.pmc.cnt
  let fix := match fixOf ev with | some f => spMod 0 c.pmc.fix f sat | none => c.pmc.fix
  { c with pmc := { c.pmc with cnt := cnt, fix := fix } }

/-- Counts an event of the task that runs on a core (R421). -/
def countEv (c : Core) (ev n : Nat) : Core := if pmcOn c then countRaw c ev n else c

/-- Counts an event on a core charged to an address space (R429). -/
def countFor (c : Core) (asid ev : Nat) : Core :=
  if c.pmc.ctl.getLsbD 63 && bits c.pmc.ctl.toNat 45 32 == asid then countRaw c ev 1 else c

/-- Whether two results go to the same register (R301). -/
def WbDest.sameReg : WbDest → WbDest → Bool
  | .sreg a _, .sreg b _ => a == b
  | .pred a _, .pred b _ => a == b
  | _, _ => false

/-- A latency-1 write to a register: a pending result to the same register that lands no later is overtaken (R301). -/
def dropOvertaken (c : Core) (d : WbDest) : Core :=
  { c with f := { c.f with wb := c.f.wb.filter (fun e => !(e.dest.sameReg d && e.land ≤ c.q.act)) } }

/-- Writes a scalar register of a core; a write to s0 is discarded (R184). -/
def setS (c : Core) (n : Nat) (v : Word) : Core :=
  if n = 0 then c else { c with r := { c.r with s := spSet c.r.s n v } }

/-- Sets one predicate bit; a write to p0 is discarded (R149). -/
def setPBit (p : BitVec 16) (n : Nat) (v : Bool) : BitVec 16 :=
  if n = 0 then p else if v then p ||| (1#16 <<< n) else p &&& ~~~(1#16 <<< n)

/-- Writes a predicate of a core, which becomes final in this cycle (R311). -/
def setP (c : Core) (n : Nat) (v : Bool) : Core :=
  { c with r := { c.r with p := setPBit c.r.p n v }, q := { c.q with pfinal := spSet c.q.pfinal n c.q.act } }

/-- A latency-1 result in a scalar register. -/
def putS (s : State) (d : Nat) (v : Word) : State := wr s fun c => setS (dropOvertaken c (.sreg d v)) d v

/-- A latency-1 result in a predicate. -/
def putP (s : State) (d : Nat) (v : Bool) : State := wr s fun c => setP (dropOvertaken c (.pred d v)) d v

/-- Puts a fixed-latency result on its way: it lands in active cycle t + λ − 1 (R299). -/
def putLate (s : State) (lat : Nat) (d : WbDest) : State :=
  wr s fun c => { c with f := { c.f with wb := c.f.wb ++ [⟨c.q.act + lat - 1, c.q.seq, d⟩] } }

/-- Draws a fresh number for free values (log 5). -/
def drawFresh (s : State) : Nat × State := (s.fresh, { s with fresh := s.fresh + 1 })

/-! ## Physical memory -/

/-- Size of the physical byte space (R12). -/
def hbmSize : Nat := 2 ^ 39

/-- The byte listed at an address; an unlisted byte reads 0 (log 4). -/
def memFind : List Host.Cell → Nat → Byte
  | [], _ => 0
  | (a, v) :: m, k => if a = k then v else if k < a then 0 else memFind m k

/-- Writes one byte, keeping the canonical form: a zero is not listed. -/
def memPut : List Host.Cell → Nat → Byte → List Host.Cell
  | [], k, v => if v = 0 then [] else [(k, v)]
  | (a, w) :: m, k, v =>
    if k < a then (if v = 0 then (a, w) :: m else (k, v) :: (a, w) :: m)
    else if a = k then (if v = 0 then m else (k, v) :: m)
    else (a, w) :: memPut m k v

/-- Addresses rise above a bound and no listed byte is zero. -/
def memSorted : Nat → List Host.Cell → Bool
  | _, [] => true
  | b, (a, v) :: m => b ≤ a && v != 0 && memSorted (a + 1) m

/-- The canonical form of memory. -/
def Memory.wf (m : List Host.Cell) : Bool := memSorted 0 m

/-- `n` bytes from an address. -/
def memBytes (m : List Host.Cell) (a : Nat) : Nat → List Byte
  | 0 => []
  | n + 1 => memFind m a :: memBytes m (a + 1) n

/-- Writes bytes from an address on. -/
def memPutBytes (m : List Host.Cell) (a : Nat) : List Byte → List Host.Cell
  | [] => m
  | b :: bs => memPutBytes (memPut m a b) (a + 1) bs

/-- A little-endian number from bytes (R5). -/
def leNat : List Byte → Nat
  | [] => 0
  | b :: bs => b.toNat + 256 * leNat bs

/-- The `n` little-endian bytes of a number. -/
def toBytes (v : Nat) : Nat → List Byte
  | 0 => []
  | n + 1 => BitVec.ofNat 8 v :: toBytes (v / 256) n

/-- A number of `n` bytes in memory. -/
def memNat (s : State) (a n : Nat) : Nat := leNat (memBytes s.mem a n)

/-- Writes a number of `n` bytes. -/
def memSetNat (s : State) (a n v : Nat) : State := { s with mem := memPutBytes s.mem a (toBytes v n) }

/-- Replaces `n` bytes at an offset within a byte list. -/
def patch (l : List Byte) (off : Nat) (b : List Byte) : List Byte := l.take off ++ b ++ l.drop (off + b.length)

/-- `n` bytes at an offset. -/
def slice (l : List Byte) (off n : Nat) : List Byte := (l.drop off).take n

/-- The bytes of a bit vector, low first. -/
def bvBytes {w : Nat} (v : BitVec w) (n : Nat) : List Byte := toBytes v.toNat n

/-! ## Device registers -/

/-- Firmware and reset values of the device registers that do not reset to zero (R7, log 7). -/
def barReset (off : Nat) : Word :=
  if off = 0x00010108 then 0x7800000000 else if off = 0x00010110 then 0x800000000
  else if off = 0x00050000 then BitVec.ofNat 64 (2 ^ 63 + 200 * 2 ^ 50 + 200 * 2 ^ 38 + 2 * 2 ^ 30)
  else if off = 0x00050008 then 0x4B382C2018100804 else 0

/-- A device register. -/
def barRd (s : State) (off : Nat) : Word := spGet (barReset off) s.bar off

/-- Sets a device register. -/
def barWr (s : State) (off : Nat) (v : Word) : State := { s with bar := spSet s.bar off v }

/-- Posts an event to a function (R332). -/
def post (s : State) (fn kind : Nat) (args : List Nat) : State := { s with posted := (fn, kind, args) :: s.posted }

/-- The function that owns an ASID; 0 is the PF (R328). -/
def ownerOf (s : State) (asid : Nat) : Nat := spGet 0 s.sec.owner asid

/-- The function whose driver learns of traps and pages of an ASID: the VF's while the ASID is locked, else the PF's (R404). -/
def driverOf (s : State) (asid : Nat) : Nat := if s.sec.locked.contains asid then ownerOf s asid else 0

/-- Sets a bit of HLTH_SUM; a bit that was clear posts an event to the PF (R442). -/
def setHealth (s : State) (k : Nat) : State :=
  let h := barRd s 0x00060000
  if h.getLsbD k then s else post (barWr s 0x00060000 (h ||| (1#64 <<< k))) 0 5 [k]

/-- Whether the pin ALERT_N is asserted (R445). -/
def alertLow (s : State) : Bool := barRd s 0x00060000 != 0

/-! ## The ASID table (R353) -/

def atabEntry (s : State) (asid : Nat) : Nat := (barRd s 0x00020000).toNat + 64 * asid

/-- HENTRY of an ASID. -/
def hentry (s : State) (asid : Nat) : Nat := bits (memNat s (atabEntry s asid) 8) 47 24

/-- HMASK of an ASID. -/
def hmask (s : State) (asid : Nat) : Nat := memNat s (atabEntry s asid + 32) 8

/-- STRICT error mode of an ASID (R369). -/
def strictOf (s : State) (asid : Nat) : Bool := bit (memNat s (atabEntry s asid) 8) 62

/-- Adds one to ERRCNT of an ASID, saturating (R369). -/
def bumpErr (s : State) (asid : Nat) : State :=
  let a := atabEntry s asid + 40
  let v := memNat s a 8
  if v = 2 ^ 64 - 1 then s else setHealth (memSetNat s a 8 (v + 1)) 8

/-! ## Counters (R99 to R105) -/

/-- A counter operation's outcome on the 64-bit word (R101): the new word, and whether it overflowed. -/
def ctrAdd (c : Word) (a : Nat) : Word × Bool :=
  if c.getLsbD 63 then (c, false)
  else if c.toNat + a > 2 ^ 63 - 1 then (c, true)
  else (BitVec.ofNat 64 (c.toNat + a), false)

/-- Raise to a (R101). -/
def ctrRaise (c : Word) (a : Nat) : Word × Bool :=
  if a ≥ 2 ^ 63 then (c, true)
  else if c.getLsbD 63 then (c, false)
  else if a > c.toNat then (BitVec.ofNat 64 a, false) else (c, false)

/-- Sets POISON, keeping VALUE (R103). -/
def ctrPoison (c : Word) : Word := c ||| (1#64 <<< 63)

/-- Poll: not poisoned and VALUE ≥ v (R101). -/
def ctrReached (c : Word) (v : Nat) : Bool := !c.getLsbD 63 && v ≤ c.toNat % 2 ^ 63

/-- A counter of a core's file. -/
def ctGet (c : Core) (n : Nat) : Word := spGet 0 c.ct n

/-- Sets a counter of a core's file. -/
def ctSet (c : Core) (n : Nat) (v : Word) : Core := { c with ct := spSet c.ct n v }

/-- An add by a party other than a core: an overflow poisons the counter (R101). -/
def addOrPoison (c : Word) (a : Nat) : Word × Bool :=
  let (v, o) := ctrAdd c a
  if o then (ctrPoison c, true) else (v, false)

/-! ## The fault record (R365) -/

/-- The innermost active TEMPORAL level and its position (R43). -/
def posLoop (c : Core) : Nat := c.r.loops.headD 0xFF

/-- The pass number of the position. -/
def posIter (c : Core) : Nat := match c.r.loops with | [] => 0 | n :: _ => spGet 0 c.r.lc n

/-- The level's entry in the loop table. -/
def levelOf (c : Core) (n : Nat) : Level := c.prog.levels.getD n ⟨0, 0, false, 1, 0, 0⟩

/-- The stage mask of the position: p15 to p8 in a pipelined level, 0 in a plain one (R43). -/
def posStage (c : Core) : Nat :=
  match c.r.loops with
  | [] => 0
  | n :: _ => if (levelOf c n).stages > 1 then c.r.p.toNat / 256 else 0

/-- What a trap or a stop reports. -/
structure TrapInfo where
  cause : Nat
  detail : Nat
  slot : Nat
  addr : Word
  caddr : Nat
  dindex : Nat
  mask : BitVec 12
  flags : Nat
deriving DecidableEq, Repr

/-- Puts an operation among others by its remaining delay, behind those of the same. -/
def byDelay (x : XOp) : List XOp → List XOp
  | [] => [x]
  | y :: l => if x.delay < y.delay then x :: y :: l else y :: byDelay x l

/-- Operations in the order in which they have launched and will launch. -/
def xOrder (l : List XOp) : List XOp := l.filter XOp.launched ++ (l.filter fun x => !x.launched).foldl (fun l x => byDelay x l) []

/-- Rows of a matrix operation done so far: `mzero` does four a cycle (R238). -/
def xRows (x : XOp) : Nat := if x.op = 8 then 4 * x.done else x.done

/-- Rows of a drain placed so far (R245): into a tile, a handle or a slot as they are written. -/
def xPlacedRows (x : XOp) : Nat := if x.op = 9 || x.op = 10 then x.done else x.placed

/-- One of the four in-record matrix operations (R365). -/
def xopBytes (x : XOp) : List Byte :=
  toBytes x.mode.toNat 8 ++
  toBytes (x.word + x.delay % 16 * 2 ^ 32 + xRows x % 256 * 2 ^ 36 + xPlacedRows x % 256 * 2 ^ 44 + 2 ^ 63) 8

/-- The rational operation in flight, or the first that waits to start again (R199). -/
def Flight.ratHead (f : Flight) : Option RatOp := match f.rat with | some r => some r | none => f.ratWait.head?

/-- The fault record of a core (R365); the places inside RAT, GACC and FILL are the model's (log 101). -/
def faultRecord (c : Core) (t : TrapInfo) (gacc : Option GOp) : List Byte :=
  let gid := match c.bind with | some b => b.gang | none => 0
  let fl := t.flags + (if c.q.inHandler then 2 else 0) + (if c.f.ratHead.isSome then 8 else 0)
    + (if gacc.isSome then 16 else 0) + (if c.f.fill.isSome then 32 else 0)
  toBytes t.caddr 4 ++ toBytes t.dindex 2 ++ toBytes t.mask.toNat 2 ++
  toBytes t.cause 1 ++ toBytes t.detail 1 ++ toBytes t.slot 1 ++ toBytes (posLoop c) 1 ++
  toBytes (posIter c) 5 ++ toBytes (posStage c) 1 ++ toBytes c.r.tok.toNat 2 ++ toBytes fl 4 ++
  toBytes t.addr.toNat 8 ++
  ((upTo 8).map fun n => toBytes (spGet 0 c.r.lc n) 5).flatten ++
  (let xs := ((xOrder c.f.xops).take 4).map xopBytes; xs.flatten ++ List.replicate (64 - 16 * xs.length) 0) ++
  toBytes c.f.wb.length 4 ++ toBytes 0 4 ++
  (match c.f.ratHead with
   | none => toBytes 0 24
   | some r => toBytes (r.word + bits r.scr.toNat 15 13 * 2 ^ 32) 8 ++ toBytes r.a.toNat 8 ++ toBytes r.b.toNat 8) ++
  (match gacc with
   | none => toBytes 0 24
   | some g => toBytes (g.word + g.ver % 2 ^ 32 * 2 ^ 32) 8 ++ toBytes g.va.toNat 8 ++ toBytes g.data.toNat 8) ++
  (match c.f.fill with
   | none => toBytes 0 8
   | some f => toBytes (f.os + f.stn * 16 + f.next * 256 + f.gen * 2 ^ 16) 8) ++
  toBytes gid 2 ++ toBytes 0 54

/-- Causes that may go to the task's own handler (R367): TRANSLATION only when not NONRES, ILLEGAL_SLOT only from execution. -/
def causeToTask (cause detail : Nat) (atLoad : Bool) : Bool :=
  if cause = 0x01 then !atLoad
  else if cause = 0x0B then detail != 0x03
  else cause == 0x04 || (0x05 ≤ cause && cause ≤ 0x0A) || (0x0C ≤ cause && cause ≤ 0x18) || cause == 0x1A

/-- Whether nothing that a bundle began holds the line. -/
def Seqr.free (q : Seqr) : Bool := q.hold == .none && q.holdG == .none && q.holdO == .none

/-- Whether a core stands between two bundles: the last one has ended. -/
def Seqr.between (q : Seqr) : Bool := q.free && !q.carry.any Carry.held

/-- Lets go of everything the line is held for. -/
def Seqr.release (q : Seqr) : Seqr := { q with hold := .none, holdG := .none, holdO := .none }

/-- Dictionary index of the bundle at a code address; 0xFFFF for a literal, and where no bundle stands (log 85). -/
def dxAt (c : Core) (a : Nat) : Nat := match c.prog.code[a]? with | some w => if w.toNat < c.prog.dict.length then w.toNat else 0xFFFF | none => 0xFFFF

/-- R39: the stage predicates of pass `j` of a level of bound `B`. -/
def passPreds (B j : Nat) : BitVec 8 := BitVec.ofNat 8 (((upTo 8).filter fun k => k ≤ j && j - k < B).map fun k => 2 ^ k).sum

/-- R39 for the pass that begins with the next bundle. -/
def beginPass (c : Core) : Core :=
  match c.q.newPass with
  | none => c
  | some n =>
    { c with
      q := { c.q with newPass := none, pfinal := c.q.pfinal.filter fun kv => kv.1 < 8 }
      r := { c.r with p := (c.r.p &&& 0xFF#16) ||| ((passPreds (levelOf c n).bound (spGet 0 c.r.lc n)).setWidth 16 <<< 8) } }

/-- Whether the X operation of the bundle that holds the line has not been launched yet. -/
def xLate (c : Core) : Bool := match c.q.carry with | some k => c.f.xops.any fun x => !x.launched && x.seq == k.seq | none => false

/-- Rows or steps a matrix operation has in all (R231). -/
def xTotal (x : XOp) : Nat := if x.op = 8 then 32 else 128

/-- Operations whose last row is done leave flight (R231): of an `mdrain.sp`, with that row's second line of a bank (R241). -/
def xRetire (c : Core) : Core :=
  { c with f := { c.f with xops := c.f.xops.filter fun x => !(x.launched && x.done ≥ xTotal x && (x.op != 10 || x.done + x.slip ≤ x.age)) } }

/-- Whether a G operation is on its way already. -/
def GOp.sent (g : GOp) : Bool := match g.st with | .sent _ => true | _ => false

/-- Whether two G operations are the same part of one access. -/
def GOp.same (g h : GOp) : Bool := g.seq == h.seq && g.off == h.off

/-- Sets in-flight state aside (R245, R260, R360, R366): it continues at the resume. What was set aside before stays below it. -/
def setAside (c : Core) (gacc : Option GOp) : Core :=
  { c with
    q := { c.q with aside := ⟨c.q.act, c.f.wb, c.f.rat.toList ++ c.f.ratWait, if c.f.rat.isSome then 0 else c.f.fpBusy, c.f.xops, c.f.fill, c.f.busy, gacc,
                              c.f.gq.filter (fun g => !g.sent && !gacc.any (GOp.same g)),
                              c.q.carry.map fun k => if k.held then { k with held := false, xgone := xLate c } else k⟩ :: c.q.aside, carry := none }
    f := { c.f with wb := [], rat := none, ratWait := [], fpBusy := 0, xops := [], fill := none, busy := [],
                    -- a trap or a stop flushes the combining buffer (R118)
                    comb := c.f.comb.map fun e => { e with due := true },
                    gq := c.f.gq.filter fun g => g.sent && !gacc.any (GOp.same g) } }

/-- Delivery to the task's handler (R368): the record goes to the trap buffer, fetch goes to HENTRY. -/
def trapToTask (s : State) (c : Nat) (t : TrapInfo) (gacc : Option GOp) (entry : Nat) : State :=
  modCore s c fun k =>
    let rec' := faultRecord k { t with flags := t.flags + 64 } gacc
    let k := setAside k gacc
    { k with q := { k.q.release with tbuf := rec', inHandler := true, pc := entry, skipMask := 0, ready := k.q.act + 1, wheel := none } }

/-- Whether a stop asked for now goes before the one asked for earlier: 0 none, 1 pre-emption, 2 debug, 3 ISTOP, 4 filler. A pre-emption is
carried through (R347) and goes before a debug stop or ISTOP; a filler's request has the shorter time-out (R433) and goes before it; a debug
request merges with what is pending (R414). -/
def stopWins (old new : Nat) : Bool := old == 0 || (new == 4 && old != 4) || (new == 1 && (old == 2 || old == 3))

/-- A member asked to stop at its next landing point (R44, R45, R346, R414), and what a debug stop reports. One that a debug stop holds
already stands at its landing point: any other request takes it from there. A debug stop that is overtaken stands again once the gang has
been placed again (R414, log 113). -/
def Core.askedFor (k : Core) (kind t : Nat) (brk : Option Nat) : Core :=
  if k.halted then (if kind = 2 then k else { k with halted := false, q := { k.q with dbg := 2 } })
  else if k.q.running && stopWins k.q.stopReq kind then
    { k with q := { k.q with stopReq := kind, stopT := t, brk := if kind = 2 then brk else k.q.brk, dbg := if k.q.stopReq = 2 then 1 else k.q.dbg } }
  else k

/-- Delivery to the driver (R346, R368): the member stops with its record, the other members of the gang are asked to stop, and
the event is posted. -/
def trapToDriver (s : State) (c : Nat) (t : TrapInfo) (gacc : Option GOp) : State :=
  let gid := (coreAt s c).bind.map Bind.gang
  let fn := match (coreAt s c).bind with | some b => driverOf s b.asid | none => 0
  let s := modCore s c fun k =>
    let rec' := faultRecord k t gacc
    let k := setAside k gacc
    -- the bundle of the record issues again at a resume; at a dictionary load none has been reached (R144, R447)
    let (pc, mask) := if t.caddr = 0xFFFFFFFF then (k.q.pc, k.q.skipMask) else (t.caddr, t.mask)
    { k with q := { k.q.release with frec := rec', running := false, stopped := true, stopT := s.dev, pc := pc, skipMask := mask } }
  let s := { s with cores := s.cores.map fun (n, k) =>
    if n != c && gid.isSome && k.bind.map Bind.gang == gid then (n, k.askedFor 1 s.dev none) else (n, k) }
  post s fn 0 [t.cause, c, gid.getD 0]

/-- Taking a trap: one operation for every cause (R365, R367, R368). `atLoad` marks a dictionary-load or fetch fault. Of a pass that begins
with the bundle trapped at, R39 has had its effect (R176). -/
def takeTrap (s : State) (c : Nat) (t : TrapInfo) (atLoad : Bool) (gacc : Option GOp) : State :=
  let s := modCore s c fun k => beginPass (xRetire k)
  let k := coreAt s c
  let asid := match k.bind with | some b => b.asid | none => 0
  let e := hentry s asid
  if causeToTask t.cause t.detail atLoad && bit (hmask s asid) t.cause && e < k.prog.code.length && !k.q.inHandler
  then trapToTask s c t gacc e
  else trapToDriver s c t gacc

/-- A precise fault of the slot being executed: recorded while a bundle issues (R447), taken at once otherwise. -/
def raise (s : State) (slot cause detail : Nat) (addr : Word) : State :=
  match s.issue with
  | some b => { s with issue := some { b with faults := b.faults ++ [⟨slot, cause, detail, addr⟩] } }
  | none =>
    let k := coreAt s s.cur
    takeTrap s s.cur ⟨cause, detail, slot, addr, k.q.pc, k.q.lastDx, 0, 0⟩ false none

/-- The slot index being executed, or the one a class has by itself. -/
def slotNow (s : State) (dflt : Nat) : Nat := match s.issue with | some b => b.slot | none => dflt

/-- A rational operation starts again from its saved values in this cycle (R199). -/
def RatOp.again (r : RatOp) (act : Nat) : RatOp := { r with land := act + r.lat - 1 }

/-- Puts a G operation among others in order of issue. -/
def gInsert (g : GOp) : List GOp → List GOp
  | [] => [g]
  | h :: l => if h.seq ≤ g.seq then h :: gInsert g l else g :: h :: l

/-- A G operation that is issued again (R360); an `amo.sc` takes its way to the wheel again (R313). -/
def GOp.again (g : GOp) (act : Nat) : GOp := { g with hub := 0, st := if g.kind = .amoSc then .wheel (act + 3) none else .ready }

/-- The first rational operation that waits starts again once the datapath is free (R198, R199). -/
def ratBegin (c : Core) : Core :=
  match c.f.rat, c.f.ratWait with
  | none, r :: l => if c.f.fpBusy ≤ c.q.act then { c with f := { c.f with rat := some (r.again c.q.act), ratWait := l } } else c
  | _, _ => c

/-- Puts back the in-flight state set aside last, as many active cycles later as have passed (R366). Rational operations wait to start
again, behind those that are there; a floating operation has its datapath as long as it still needs it (R198, R199, R302). -/
def takeBack (c : Core) : Core :=
  match c.q.aside with
  | [] => { c with q := { c.q with carry := none } }
  | a :: l =>
    let d := c.q.act - a.act
    { c with
      q := { c.q with aside := l, carry := a.carry }
      f := { c.f with
        wb := (a.wb.map fun e => { e with land := e.land + d }) ++ c.f.wb
        ratWait := c.f.ratWait ++ a.rat
        fpBusy := max c.f.fpBusy (a.fp + d)
        xops := a.xops ++ c.f.xops
        fill := match c.f.fill with | some f => some f | none => a.fill
        busy := a.busy.map fun (k, v) => (k, v + d)
        gq := (a.gacc.toList ++ a.gops).foldl (fun l g => gInsert (g.again c.q.act) l) c.f.gq } }

/-- Trap return from the trap buffer (R287): the bundle at the saved code address issues again without the slots whose mask
bit is set, and what was in flight continues. -/
def trapReturn (c : Core) : Core :=
  let k := takeBack c
  { k with q := { k.q.release with pc := leNat (slice c.q.tbuf 0 4), skipMask := BitVec.ofNat 12 (leNat (slice c.q.tbuf 6 2)),
                                   inHandler := false } }

/-- A counter wait that is resumed starts again (R170, R171). -/
def Hold.again : Hold → Hold
  | .counter own ct a va _ v tmo t0 g tr _ poll ivl => .counter own ct a va .again v tmo t0 g tr false poll ivl
  | h => h

/-- The slots of an operation that holds the line. -/
def Hold.slots : Hold → List Nat
  | .none => []
  | .counter .. => [11]
  | .sstep _ => [11]
  | .halt => [11]
  | .tret => [11]
  | .fence _ => [6]
  | .ver .. => [6]
  | .opslot f r => (if f.isSome then [8] else []) ++ (if r.isSome then [7] else [])

/-- The slots whose operations the core is held for. -/
def heldSlots (q : Seqr) : List Nat := q.hold.slots ++ q.holdG.slots ++ q.holdO.slots

/-- The completion mask of a bundle that has issued, without the slots listed (R447). -/
def maskWithout (m : BitVec 12) (l : List Nat) : BitVec 12 := l.foldl (fun m i => m &&& ~~~(1#12 <<< i)) m

/-- The completion mask of a bundle trapped or stopped while it holds the line, without the slots of `l` and those held (R447); an X operation
not yet launched has its bit clear (R245). -/
def heldMask (c : Core) (l : List Nat) : BitVec 12 := maskWithout c.q.lastMask (l ++ heldSlots c.q ++ (if xLate c then [5] else []))

/-- What a bundle began to hold the line for is undone with it: its slot issues again (R447). -/
def undoHold (c : Core) : Core :=
  let c := match c.q.holdG with
    | .ver q _ => { c with f := { c.f with gq := c.f.gq.filter fun (g : GOp) => !(g.seq == q && (g.kind == GKind.ldv || g.kind == GKind.stv)) } }
    | _ => c
  let c := match c.q.holdO with
    | .opslot (some (_, n, x)) _ => { c with r := { c.r with st := spSet c.r.st n x } }
    | _ => c
  { c with q := c.q.release }

end Sys2Proof.Machine
end

