-- ==== Sys2Proof/Machine/Flags.lean ====
section
/-! DEFINITION. Machine/Flags: the sticky bits of SCR (R180, R193, R197) and the loss counters (R87). -/

namespace Sys2Proof.Machine

/-- Sticky bits to be ORed into SCR: ZD 6, INVALID_FS 5, NV 4, DZ 3, OF 2, UF 1, NX 0 (R180). -/
def stickyBits (zd bad nv dz of uf nx : Bool) : Word :=
  let b := fun (c : Bool) (k : Nat) => if c then 2 ^ k else 0
  BitVec.ofNat 64 (b zd 6 + b bad 5 + b nv 4 + b dz 3 + b of 2 + b uf 1 + b nx 0)

/-- ORs sticky bits into SCR as it stands: a `syswr` of the same bundle has already put its value there (R180). -/
def orSticky (s : State) (x : Word) : State := wr s fun c => { c with r := { c.r with scr := c.r.scr ||| x } }

/-- SCR.RM (R180). -/
def scrRM (x : Word) : Bool := x.getLsbD 15
/-- SCR.RMODE. -/
def scrRMODE (x : Word) : Nat := bits x.toNat 14 13
/-- SCR.ZDT. -/
def scrZDT (x : Word) : Bool := x.getLsbD 12
/-- SCR.FRND. -/
def scrFRND (x : Word) : Nat := bits x.toNat 11 9

/-- The FP64 rounding mode of SCR.FRND; the reserved codes are never held, and read as nearest-even (R180). -/
def frndMode (x : Word) : RMode := (rmode (scrFRND x)).getD .ne

/-- The sticky bits of an FP64 result (R193). -/
def fpSticky (r : FpRes) (w : Rounded) : Word :=
  match r with
  | .nan c => stickyBits false false (c == 3 || c == 4 || c == 5) false false false false
  | .inf _ dz => stickyBits false false false dz false false false
  | .fin _ _ _ _ => stickyBits false false false false w.overflow (w.tiny && w.inexact) w.inexact

/-- A saturating 64-bit count (R87). -/
def satAdd64 (x : Word) (n : Nat) : Word := if x.toNat + n ≥ 2 ^ 64 then BitVec.ofNat 64 (2 ^ 64 - 1) else BitVec.ofNat 64 (x.toNat + n)

/-- Adds to ALN_LOSS. -/
def addAln (c : Core) (n : Nat) : Core := { c with r := { c.r with alnLoss := satAdd64 c.r.alnLoss n } }

/-- Adds to CVT_LOSS. -/
def addCvt (c : Core) (n : Nat) : Core := { c with r := { c.r with cvtLoss := satAdd64 c.r.cvtLoss n } }

/-- One advance of RNGS by a slot operation (R84): the chain of the bundle starts from the state before it; a `syswr` of RNGS
in the same bundle leaves its own value (log 18). -/
def drawRng (s : State) : Word × State :=
  match s.issue with
  | some b =>
    let x := rngNext b.rng
    let s := { s with issue := some { b with rng := x } }
    (x, if b.rngWr then s else modCore s b.core fun c => { c with r := { c.r with rngs := x } })
  | none =>
    let x := rngNext (coreAt s s.cur).r.rngs
    (x, modCore s s.cur fun c => { c with r := { c.r with rngs := x } })

end Sys2Proof.Machine
end

