-- ==== Sys2Proof/Machine/Operands.lean ====
section
/-! DEFINITION. Machine/Operands: every operand form: views of the accumulator (R60), packed registers (R61), streams (R62 to
R64), handles and handle-offset words (R50 to R55, R152), operand slots (R57), element formats (R49). -/

namespace Sys2Proof.Machine

/-! ## Accumulator views -/

/-- Row and word that 32-bit lane `i` of a vector operand field names (R60). -/
def viewWord (v i : Nat) : Nat × Nat :=
  let x := v % 1024
  let t := x / 128
  let k := x % 128
  match v / 1024 % 4 with
  | 0 => (x, i)
  | 1 => (128 * t + i, k)
  | 2 => (128 * t + i, (i + k) % 128)
  | _ => (128 * t + i, (k + 128 - i) % 128)

/-- The tile a vector operand field lies in. -/
def viewTile (v : Nat) : Nat := v % 1024 / 128

/-- A row of the accumulator; a row not written since the launch is unknown (R325), and zero in a context's first task on the core (R331). -/
def accRow (c : Core) (x : Nat) : BitVec 4096 :=
  match spFind c.m.acc x with
  | some v => v
  | none => if c.m.epoch = 0 || c.m.zeroed then 0 else Config.freeBits 4096 c.m.epoch x

/-- Word `j` of a row. -/
def rowWord (r : BitVec 4096) (j : Nat) : BitVec 32 := r.extractLsb' (32 * j) 32

/-- Replaces word `j` of a row. -/
def setRowWord (r : BitVec 4096) (j : Nat) (w : BitVec 32) : BitVec 4096 :=
  (r &&& ~~~((0xFFFFFFFF#4096) <<< (32 * j))) ||| ((w.setWidth 4096) <<< (32 * j))

/-- Concatenates 128 words, word 0 lowest. -/
def packWords (l : List (BitVec 32)) : BitVec 4096 := BitVec.ofNat 4096 (l.foldr (fun w acc => acc * 2 ^ 32 + w.toNat) 0)

/-- The 128 words of a row. -/
def rowWords (r : BitVec 4096) : List (BitVec 32) := (upTo 128).map (rowWord r)

/-- The 128 32-bit lanes a view names, as one value (R60). -/
def readView (c : Core) (v : Nat) : BitVec 4096 :=
  if v / 1024 % 4 = 0 then accRow c (v % 1024)
  else packWords ((upTo 128).map fun i => let (r, j) := viewWord v i; rowWord (accRow c r) j)

/-- Writes the lanes a view names (R60). -/
def writeView (c : Core) (v : Nat) (x : BitVec 4096) : Core :=
  if v / 1024 % 4 = 0 then { c with m := { c.m with acc := spSet c.m.acc (v % 1024) x } }
  else (upTo 128).foldl (fun c i =>
    let (r, j) := viewWord v i
    { c with m := { c.m with acc := spSet c.m.acc r (setRowWord (accRow c r) j (rowWord x i)) } }) c

/-- 32-bit lanes as numbers. -/
def lanes32 (x : BitVec 4096) : List Nat := (upTo 128).map fun i => (x.extractLsb' (32 * i) 32).toNat

/-- 16-bit lanes as numbers: lane 2i is the low half of word i (R60). -/
def lanes16 (x : BitVec 4096) : List Nat := (upTo 256).map fun i => (x.extractLsb' (16 * i) 16).toNat

/-- Lanes of a width back into one value. -/
def packLanes (w : Nat) (l : List Nat) : BitVec 4096 := BitVec.ofNat 4096 (l.foldr (fun x acc => acc * 2 ^ w + x % 2 ^ w) 0)

/-- The lanes of a view at a lane width. -/
def viewLanes (c : Core) (is16 : Bool) (v : Nat) : List Nat := if is16 then lanes16 (readView c v) else lanes32 (readView c v)

/-! ## Packed registers (R61) -/

def qReg (c : Core) (n : Nat) : BitVec 4096 :=
  match spFind c.m.q n with
  | some v => v
  | none => if c.m.epoch = 0 || c.m.zeroed then 0 else Config.freeBits 4096 c.m.epoch (1000 + n)

def qComp (c : Core) (n : Nat) : BitVec 256 :=
  match spFind c.m.qc n with
  | some v => v
  | none => if c.m.epoch = 0 || c.m.zeroed then 0 else Config.freeBits 256 c.m.epoch (1020 + n)

/-- Replaces `len` bits at `off`. -/
def setBits {w : Nat} (x : BitVec w) (off len : Nat) (v : BitVec w) : BitVec w :=
  let m : BitVec w := BitVec.ofNat w (2 ^ len - 1)
  (x &&& ~~~(m <<< off)) ||| ((v &&& m) <<< off)

/-! ## Other registers that are unknown at launch -/

def bReg (c : Core) (n : Nat) : BitVec 24 :=
  match spFind c.r.b n with
  | some v => v
  | none => if c.m.epoch = 0 then 0 else Config.freeBits 24 c.m.epoch (1040 + n)

def mmReg (c : Core) (n : Nat) : Word :=
  match spFind c.r.mm n with
  | some v => v
  | none => if c.m.epoch = 0 then 0 else Config.freeBits 64 c.m.epoch (1050 + n)

/-- A stream register; reserved fields read as zero, and RND and FMT of a register never set are no reserved code by which a
use faults before the others (log 5). -/
def stReg (c : Core) (n : Nat) : BitVec 256 :=
  match spFind c.r.st n with
  | some v => v
  | none => if c.m.epoch = 0 then 0 else
      Config.freeBits 256 c.m.epoch (1070 + n) &&& ~~~((7#256 <<< 234) ||| (0xFF#256 <<< 48))

/-! ## Element formats (R49) -/

/-- Bits of an element of a format code; none for a reserved code. -/
def fmtBits : Nat → Option Nat
  | 0x00 => some 8 | 0x01 => some 32 | 0x02 => some 16 | 0x03 => some 16 | 0x04 => some 64 | 0x05 => some 8
  | 0x06 => some 8 | 0x07 => some 6 | 0x08 => some 6 | 0x09 => some 4 | 0x0A => some 8 | 0x0B => some 8
  | 0x0C => some 6 | 0x0D => some 4 | 0x0E => some 16 | 0x0F => some 32 | 0x10 => some 16 | 0x11 => some 8
  | 0x12 => some 8 | 0x13 => some 64 | 0x14 => some 32 | _ => none

/-- The binary floating format a code names. -/
def fmtFp : Nat → Option FpFmt
  | 0x01 => some fp32 | 0x02 => some bf16 | 0x03 => some fp16 | 0x04 => some fp64 | 0x05 => some e4m3
  | 0x06 => some e5m2 | 0x07 => some e3m2 | 0x08 => some e2m3 | 0x09 => some e2m1 | _ => none

/-- Width and range of an integer code: bits, lowest, highest (R76). -/
def fmtInt : Nat → Option (Nat × Int × Int)
  | 0x0F => some (32, -2147483648, 2147483647) | 0x10 => some (16, -32768, 32767)
  | 0x11 => some (8, -128, 127) | 0x12 => some (8, 0, 255) | _ => none

/-- An integer element's value. -/
def intRead (f x : Nat) : Int := if f = 0x12 then (x % 256 : Nat) else match fmtInt f with
  | some (w, _, _) => sextN w x
  | none => (x : Int)

/-! ## Streams (R62, R63) -/

structure Stream where
  hnd : Nat
  tgt : Bool
  fmt : Nat
  blk : Nat
  rnd : Nat
  base : Nat
  cnt0 : Nat
  sd0 : Int
  cnt1 : Nat
  sd1 : Int
  cnt2 : Nat
  sd2 : Int
  sbase : Nat
  ssd : Int
  i0 : Nat
  i1 : Nat
  i2 : Nat
deriving DecidableEq, Repr

/-- Bits hi:lo of a stream register. -/
def stBits (x : BitVec 256) (hi lo : Nat) : Nat := (x.extractLsb' lo (hi + 1 - lo)).toNat

/-- The fields of a stream register (R62). -/
def stream (x : BitVec 256) : Stream :=
  { hnd := stBits x 255 248, tgt := stBits x 247 247 = 1, fmt := stBits x 246 242, blk := stBits x 241 240, rnd := stBits x 239 237,
    base := stBits x 233 212, cnt0 := stBits x 211 196, sd0 := sextN 23 (stBits x 195 173), cnt1 := stBits x 172 157,
    sd1 := sextN 23 (stBits x 156 134), cnt2 := stBits x 133 118, sd2 := sextN 23 (stBits x 117 95), sbase := stBits x 94 73,
    ssd := sextN 17 (stBits x 72 56), i0 := stBits x 47 32, i1 := stBits x 31 16, i2 := stBits x 15 0 }

/-- Elements of a block for a BLK code: 0 for none (R62). -/
def blkSize : Nat → Nat
  | 1 => 32 | 2 => 64 | 3 => 128 | _ => 0

/-- addr of a stream step (R63). -/
def stAddr (t : Stream) : Int := (t.base : Int) + t.i0 * t.sd0 + t.i1 * t.sd1 + t.i2 * t.sd2

/-- sc of a stream step that moves `e` elements (R63). -/
def stScale (t : Stream) (e : Nat) : Int :=
  (t.sbase : Int) + t.i0 * (e / blkSize t.blk : Nat) + (t.i1 + (t.cnt1 + 1) * t.i2 : Nat) * t.ssd

/-- The register after one step (R63). -/
def stStep (x : BitVec 256) : BitVec 256 :=
  let t := stream x
  let (i0, i1, i2) :=
    if t.i0 + 1 > t.cnt0 then
      if t.i1 + 1 > t.cnt1 then (0, 0, if t.i2 + 1 > t.cnt2 then 0 else t.i2 + 1) else (0, t.i1 + 1, t.i2)
    else (t.i0 + 1, t.i1, t.i2)
  setBits x 0 48 (BitVec.ofNat 256 (i0 * 2 ^ 32 + i1 * 2 ^ 16 + i2))

/-- The register after `n` steps. -/
def stSteps : Nat → BitVec 256 → BitVec 256
  | 0, x => x
  | n + 1, x => stSteps n (stStep x)

/-- Updates a stream register at the bundle boundary after a use; a `stset` of the same bundle discards the advance (R64). -/
def advance (s : State) (n : Nat) (x : BitVec 256) : State :=
  match s.issue with
  | some b => if b.stWr.contains n then s else wr s fun c => { c with r := { c.r with st := spSet c.r.st n x } }
  | none => wr s fun c => { c with r := { c.r with st := spSet c.r.st n x } }

/-! ## Handles (R50 to R55) -/

structure HEnt where
  valid : Bool
  shadow : Bool
  fmt : Nat
  rows : Nat
  rowb : Nat
  banks : Nat
  base : Nat
  gen : Nat
  /-- Held by a `ccpy` (R408): kept beside the table. -/
  held : Bool
deriving DecidableEq, Repr

/-- The fields of a handle table entry (R50). -/
def hent (x : Word) : HEnt :=
  let n := x.toNat
  { valid := bit n 63, shadow := bit n 62, fmt := bits n 61 57, rows := bits n 56 41 + 1, rowb := (bits n 40 29 + 1) * 4,
    banks := bits n 28 13, base := bits n 12 4, gen := bits n 3 0, held := false }

/-- An entry from its fields. -/
def hentWord (e : HEnt) : Word :=
  BitVec.ofNat 64 ((if e.valid then 2 ^ 63 else 0) + (if e.shadow then 2 ^ 62 else 0) + e.fmt * 2 ^ 57 + (e.rows - 1) * 2 ^ 41 +
    (e.rowb / 4 - 1) * 2 ^ 29 + e.banks * 2 ^ 13 + e.base * 16 + e.gen)

/-- The table entry of a handle as its word. -/
def hword (c : Core) (h : Nat) : Word := spGet 0 c.m.htab h

def handle (c : Core) (h : Nat) : HEnt := { hent (hword c h) with held := spGet 0 c.m.hheld h == 1 || spGet 0 c.m.hheld h == 2 }

/-- Size of a handle in bytes, and the lines it occupies (R50). -/
def HEnt.size (e : HEnt) : Nat := e.rows * e.rowb

def HEnt.lines (e : HEnt) : Nat := (e.size + 511) / 512

/-- Number of bits set in a number below 2^16. -/
def popc16 (x : Nat) : Nat := ((upTo 16).filter fun k => bit x k).length

/-- The lowest bit set. -/
def lowBit (x : Nat) : Nat := ((upTo 16).filter fun k => bit x k).headD 0

/-- Bank and line of line `i` of a BANK handle (R51), as one scratchpad line number bank · 384 + line. -/
def HEnt.place (e : HEnt) (i : Nat) : Nat :=
  let n := popc16 e.banks
  (lowBit e.banks + i % n) * 384 + e.base + i / n

/-- A scratchpad line; a line whose contents are unknown reads a free value of its epoch (R212). -/
def spadLine (c : Core) (l : Nat) : BitVec 4096 :=
  match spFind c.m.spad l with
  | some v => v
  | none => match spFind c.m.spadEp l with
    | some e => Config.freeBits 4096 e (2000 + l)
    | none => 0

/-- Byte of a BANK handle at an offset. -/
def spadByte (c : Core) (e : HEnt) (o : Nat) : Byte := (spadLine c (e.place (o / 512))).extractLsb' (8 * (o % 512)) 8

/-- Bytes o to o + n − 1 of a BANK handle: taken line by line. -/
def spadRead (c : Core) (e : HEnt) (o : Nat) : Nat → List Byte
  | 0 => []
  | n + 1 => spadByte c e o :: spadRead c e (o + 1) n

/-- Writes one byte of a BANK handle. -/
def spadPut (c : Core) (e : HEnt) (o : Nat) (b : Byte) : Core :=
  let l := e.place (o / 512)
  { c with m := { c.m with spad := spSet c.m.spad l (setBits (spadLine c l) (8 * (o % 512)) 8 (b.setWidth 4096)) } }

/-- Writes bytes of a BANK handle from an offset on. -/
def spadWrite (c : Core) (e : HEnt) (o : Nat) : List Byte → Core
  | [] => c
  | b :: bs => spadWrite (spadPut c e o b) e (o + 1) bs

/-- Why an access by handle is refused: the fault of R55 for a slot's access of `n` bytes at `o`. -/
def handleFault (e : HEnt) (o : Int) (n : Nat) : Option Nat :=
  if !e.valid then some 0x05 else if e.shadow || e.held then some 0x06
  else if o < 0 || o + n > (e.size : Int) then some 0x07 else none

/-- The parts of a handle-offset word (R152): handle, offset, whether bits 55:32 are zero. -/
def handleWord (x : Word) : Nat × Nat × Bool := (bits x.toNat 63 56, bits x.toNat 31 0, bits x.toNat 55 32 == 0)

/-- Lines of a handle that an access of `n` bytes at `o` touches (R208). -/
def touched (e : HEnt) (o n : Nat) : List Nat :=
  if n = 0 then [] else (upTo ((o + n - 1) / 512 - o / 512 + 1)).map fun k => e.place (o / 512 + k)

/-- Groups elements of `w` bits from bytes, least significant first (R49). -/
def unpackElems (w : Nat) (b : List Byte) (n : Nat) : List Nat :=
  let v := leNat b
  (upTo n).map fun i => v / 2 ^ (w * i) % 2 ^ w

/-- Elements of `w` bits to bytes. -/
def packElems (w : Nat) (l : List Nat) (nbytes : Nat) : List Byte :=
  toBytes (l.foldr (fun x acc => acc * 2 ^ w + x % 2 ^ w) 0) nbytes

/-! ## Operand slots (R57, R58) -/

def slotOf (c : Core) (k : Nat) : OSlot := spGet ⟨.free, 0, 128, [], 0⟩ c.m.slots k

/-- A row of a slot; a row never filled since its claim is unknown (R58). -/
def OSlot.row (o : OSlot) (k i : Nat) : MxRow :=
  match spFind o.rows i with
  | some r => r
  | none => ⟨Config.freeBits 2048 o.epoch (10000 + 128 * k + i), Config.freeBits 128 o.epoch (12500 + 128 * k + i), 0⟩

/-- Sets a slot. -/
def setSlot (c : Core) (k : Nat) (o : OSlot) : Core := { c with m := { c.m with slots := spSet c.m.slots k o } }

/-- MXINT width, elements per row, format code of a slot format number (R57, R228). -/
def mxWidth : Nat → Nat
  | 0 => 16 | 1 => 8 | 2 => 6 | _ => 4

def mxPerRow : Nat → Nat
  | 0 => 128 | 1 => 256 | 2 => 256 | _ => 512

/-- Bits an element takes in a slot row: a 6-bit element stands in a byte (R57). -/
def mxCell : Nat → Nat
  | 0 => 16 | 1 => 8 | 2 => 8 | _ => 4

/-- Element `i` of a row as an integer (R74). -/
def MxRow.elem (r : MxRow) (fmt i : Nat) : Int := sextN (mxWidth fmt) (r.el.extractLsb' (mxCell fmt * i) (mxWidth fmt)).toNat

/-- Scale byte of block `b`. -/
def MxRow.scale (r : MxRow) (b : Nat) : Nat := (r.sc.extractLsb' (8 * b) 8).toNat

/-- Class of block `b` (R88): 0 FIN, 1 NAN, 2 PINF, 3 NINF, 4 BOTH. -/
def MxRow.cls (r : MxRow) (b : Nat) : Nat := (r.cl.extractLsb' (3 * b) 3).toNat

/-- A row from elements, scales and classes; scale bytes beyond the blocks in use read as 0x7F (R57). -/
def mkRow (fmt : Nat) (el : List Int) (sc cl : List Nat) : MxRow :=
  ⟨BitVec.ofNat 2048 (el.foldr (fun x acc => acc * 2 ^ mxCell fmt + toPat (mxWidth fmt) x) 0),
   BitVec.ofNat 128 ((sc ++ List.replicate (16 - sc.length) 0x7F).foldr (fun x acc => acc * 256 + x) 0),
   BitVec.ofNat 48 (cl.foldr (fun x acc => acc * 8 + x) 0)⟩

end Sys2Proof.Machine
end

