-- ==== Sys2Proof/Machine/Ratio.lean ====
section
/-! DEFINITION. Machine/Ratio: floating-slash rationals: formats (R77 to R80) and rounding into them (R94 to R97).
`B` is the budget of bits of numerator and denominator together: 57 for FS64 and 26 for FS32. -/

namespace Sys2Proof.Machine

/-- A rational operand or exact result. Finite values keep numerator and denominator in lowest terms, zero as 0/1. -/
inductive FsVal where
  | nar
  | inf (neg : Bool)
  | fin (neg : Bool) (n d : Nat)
deriving DecidableEq, Repr

/-- A signed fraction in lowest terms; zero is +0 (R78). -/
def fsFin (neg : Bool) (n d : Nat) : FsVal :=
  if n = 0 then .fin false 0 1 else let g := Nat.gcd n d; .fin neg (n / g) (d / g)

/-- Reads a pattern whose fraction part has `B - 1` bits and whose slash field lies above it; the flag says that it sets
INVALID_FS (R77, R79, R80). -/
def fsReadB (B pbits x : Nat) : FsVal × Bool :=
  let w := B - 1 + 1
  let frac := x % 2 ^ w
  let p := x / 2 ^ w % 2 ^ pbits
  let neg := x / 2 ^ (w + pbits) % 2 = 1
  if p = 0 || p ≥ w then (.nar, true)
  else
    let n := frac / 2 ^ (w - p)
    let d := frac % 2 ^ (w - p)
    if d = 0 then (if n = 0 then (.nar, false) else if n = 1 then (.inf neg, false) else (.nar, true))
    else (fsFin neg n d, false)

/-- An FS64 operand (R77, R79). -/
def fsRead (x : Word) : FsVal × Bool := fsReadB 57 6 x.toNat

/-- An FS32 operand (R80). -/
def fsRead32 (x : Nat) : FsVal × Bool := fsReadB 26 5 x

/-- The canonical pattern of a value that fits (R78, R79). -/
def fsPatB (B pbits : Nat) : FsVal → Nat
  | .nar => 1 * 2 ^ B
  | .inf neg => (if neg then 2 ^ (B + pbits) else 0) + 1 * 2 ^ B + 2 ^ (B - 1)
  | .fin neg n d =>
    if n = 0 then 1 * 2 ^ B + 1
    else
      let p := bitlen n
      (if neg then 2 ^ (B + pbits) else 0) + p * 2 ^ B + n * 2 ^ (B - p) + d

/-- The canonical FS64 pattern. -/
def fsPat (v : FsVal) : Word := BitVec.ofNat 64 (fsPatB 57 6 v)

/-- The canonical FS32 pattern. -/
def fsPat32 (v : FsVal) : Nat := fsPatB 26 5 v

/-- Whether n/d in lowest terms is a magnitude of the set F, with its denominator at most `q` (R94, R204). -/
def inF (B q n d : Nat) : Bool := 1 ≤ n && 1 ≤ d && bitlen n + bitlen d ≤ B && d ≤ q

/-- Order of a magnitude n/d against an exact one: x = xn/xd, or x = √(xn/xd) when `root`. -/
structure FsExact where
  xn : Nat
  xd : Nat
  root : Bool
deriving DecidableEq, Repr

/-- n/d < x. -/
def FsExact.above (x : FsExact) (n d : Nat) : Bool :=
  if x.root then n * n * x.xd < x.xn * (d * d) else n * x.xd < x.xn * d

/-- n/d = x. -/
def FsExact.equal (x : FsExact) (n d : Nat) : Bool :=
  if x.root then n * n * x.xd == x.xn * (d * d) else n * x.xd == x.xn * d

/-- The greatest k below 2^bits that keeps a downward-closed test true, found bit by bit. -/
def greatestK (t : Nat → Bool) : Nat → Nat → Nat
  | 0, k => k
  | b + 1, k => greatestK t b (if t (k + 2 ^ b) then k + 2 ^ b else k)

/-- The descent towards x by mediants (R95): the bounds, and the last mediant that fits. Runs of steps to one side are
taken at once; the number of runs is at most the number of bits of both parts together. -/
structure Descent where
  ln : Nat
  ld : Nat
  hn : Nat
  hd : Nat
  last : Nat × Nat
deriving DecidableEq, Repr

/-- One run to each side. -/
def descend (B q : Nat) (x : FsExact) : Nat → Descent → Descent
  | 0, s => s
  | f + 1, s =>
    let up := fun k => inF B q (s.ln + k * s.hn) (s.ld + k * s.hd) && x.above (s.ln + k * s.hn) (s.ld + k * s.hd)
    let k := greatestK up 58 0
    let s := if k = 0 then s else
      { s with ln := s.ln + k * s.hn, ld := s.ld + k * s.hd, last := (s.ln + k * s.hn, s.ld + k * s.hd) }
    let dn := fun j => inF B q (s.hn + j * s.ln) (s.hd + j * s.ld) && !(x.above (s.hn + j * s.ln) (s.hd + j * s.ld))
    let j := greatestK dn 58 0
    let s := if j = 0 then s else
      { s with hn := s.hn + j * s.ln, hd := s.hd + j * s.ld, last := (s.hn + j * s.ln, s.hd + j * s.ld) }
    if k = 0 && j = 0 then s else descend B q x f s

/-- The bounds around x in F with denominators at most `q`. -/
def descent (B q : Nat) (x : FsExact) : Descent := descend B q x 130 ⟨0, 1, 1, 0, (1, 1)⟩

/-- Rational rounding modes by the codes of SCR.RMODE (R180). -/
inductive FsMode where
  | near | zero | away | med
deriving DecidableEq, Repr

def fsMode : Nat → FsMode
  | 0 => .near | 1 => .zero | 2 => .away | _ => .med

/-- The nearer of the bounds (R95, R96): ties to the smaller denominator, then to the even numerator. -/
def nearBound (B : Nat) (x : FsExact) (s : Descent) : FsVal :=
  if s.hd = 0 then
    -- above the largest magnitude M = 2^(B-1) − 1: infinite from M + 1/2 on
    let m := 2 ^ (B - 1) - 1
    if x.above (2 * m + 1) 2 || x.equal (2 * m + 1) 2 then .inf false else fsFin false s.ln s.ld
  else
    let mn := s.ln * s.hd + s.hn * s.ld
    let md := 2 * s.ld * s.hd
    if x.above mn md then .fin false s.hn s.hd
    else if x.equal mn md then
      (if s.ld < s.hd then fsFin false s.ln s.ld else if s.hd < s.ld then .fin false s.hn s.hd
       else if s.ln % 2 = 0 then fsFin false s.ln s.ld else .fin false s.hn s.hd)
    else fsFin false s.ln s.ld

/-- Whether x is itself a magnitude of F (its value in lowest terms fits). -/
def fsFits (B q : Nat) (x : FsExact) : Option (Nat × Nat) :=
  if x.xn = 0 then none else
  let g := Nat.gcd x.xn x.xd
  let n := x.xn / g
  let d := x.xd / g
  if x.root then
    let a := isqrt n
    let b := isqrt d
    if a * a = n && b * b = d && inF B q a b then some (a, b) else none
  else if inF B q n d then some (n, d) else none

/-- Rounds a magnitude into F (R94 to R96). -/
def fsRoundMag (B : Nat) (mode : FsMode) (x : FsExact) : FsVal :=
  if x.xn = 0 then .fin false 0 1 else
  match fsFits B (2 ^ B) x with
  | some (n, d) => .fin false n d
  | none =>
    let s := descent B (2 ^ B) x
    match mode with
    | .near => nearBound B x s
    | .zero => fsFin false s.ln s.ld
    | .away => if s.hd = 0 then .inf false else .fin false s.hn s.hd
    | .med => .fin false s.last.1 s.last.2

/-- Restores a sign; a zero is +0 (R94). -/
def fsSign (neg : Bool) : FsVal → FsVal
  | .nar => .nar
  | .inf _ => .inf neg
  | .fin _ n d => if n = 0 then .fin false 0 1 else .fin neg n d

/-- A rounded result with the sticky bits R197 sets for it. -/
structure FsRounded where
  v : FsVal
  nx : Bool
  of : Bool
  uf : Bool
deriving DecidableEq, Repr

/-- Whether an exact magnitude exceeds 2^(B−1) − 1, or lies below its reciprocal. -/
def fsRound (B : Nat) (mode : FsMode) (neg : Bool) (x : FsExact) : FsRounded :=
  let m := 2 ^ (B - 1) - 1
  let v := fsRoundMag B mode x
  let same := match v with
    | .fin _ n d => x.equal n d
    | _ => false
  ⟨fsSign neg v, !same, x.above m 1, x.xn != 0 && !(x.above 1 m) && !(x.equal 1 m)⟩

/-- `fs.near`: the nearest of 0 and the magnitudes of F with denominator at most q (R204). -/
def fsNearest (q n d : Nat) : FsVal :=
  let x : FsExact := ⟨n, d, false⟩
  if n = 0 then .fin false 0 1 else
  match fsFits 57 q x with
  | some (a, b) => .fin false a b
  | none => nearBound 57 x (descent 57 q x)

/-- The binary mode that a rational mode maps to (R97). AWAY rounds ties and non-ties alike away from zero, which is toward
the infinity of the value's sign. -/
def fsBinMode (mode : FsMode) (neg : Bool) : RMode :=
  match mode with
  | .near => .ne
  | .zero => .tz
  | .away => if neg then .dn else .up
  | .med => .ne

/-- n/d as a binary magnitude with a sticky rest. -/
def ratBin (n d : Nat) : Nat × Int × Bool :=
  let sh := 140 + bitlen d
  (n * 2 ^ sh / d, -(sh : Int), (n * 2 ^ sh) % d != 0)

/-- Classification bits of `fs.class` (R206). -/
def fsClassBits (x : Word) : Word :=
  let (v, bad) := fsRead x
  let b := fun (c : Bool) (k : Nat) => if c then 2 ^ k else 0
  let n := match v with
    | .nar => b true 0
    | .inf g => if g then b true 2 else b true 1
    | .fin g n d =>
      if n = 0 then b true 3 + b true 6
      else (if g then b true 5 else b true 4) + b (d == 1) 6 + b ((n == 2 ^ n.log2) && (d == 2 ^ d.log2)) 7
  BitVec.ofNat 64 (n + b (fsPat v == x) 8 + b bad 9)

end Sys2Proof.Machine
end

