-- ==== Sys2Proof/Machine/Rational.lean ====
section
/-! DEFINITION. Machine/Rational: what a rational operation computes (spec/10, R196 to R206), its latency (R303), its start in the
scalar slots and its finish (RATIONAL_RESULT, R198). -/

namespace Sys2Proof.Machine

/-- What a meaning answers. -/
abbrev Out := Host.Outcome State Fault Refusal

/-- The outcome of a rational operation: the register value or the compare's truth, its sticky bits, whether it was rounded,
and whether it met a zero denominator (R200). -/
structure RatOut where
  v : Word
  cond : Bool
  sticky : Word
  rounded : Bool
  zd : Bool
deriving DecidableEq, Repr

/-- A plain result with no flag but INVALID_FS. -/
def ratPlain (v : Word) (bad : Bool) : RatOut := ⟨v, false, stickyBits false bad false false false false false, false, false⟩

/-- A result that is NaR with NV (R197, R201). -/
def ratNar (bad nv : Bool) : RatOut := ⟨fsPat .nar, false, stickyBits false bad nv false false false false, false, false⟩

/-- Rounds an exact signed magnitude into FS64 with its flags (R196, R197). -/
def ratRound (scr : Word) (bad neg : Bool) (x : FsExact) : RatOut :=
  let r := fsRound 57 (fsMode (scrRMODE scr)) neg x
  ⟨fsPat r.v, false, stickyBits false bad false false r.of r.uf r.nx, r.nx, false⟩

/-- Exact sum of two finite signed fractions. -/
def fracAdd (na : Bool) (a b : Nat) (nc : Bool) (c d : Nat) : Bool × Nat × Nat :=
  let x : Int := (if na then -1 else 1) * (a * d : Nat) + (if nc then -1 else 1) * (c * b : Nat)
  (decide (x < 0), x.natAbs, b * d)

/-- Sum under R201. -/
def ratAdd (scr : Word) (bad : Bool) : FsVal → FsVal → RatOut
  | .nar, _ => ratNar bad false
  | _, .nar => ratNar bad false
  | .inf a, .inf b => if a = b then ratPlain (fsPat (.inf a)) bad else ratNar bad true
  | .inf a, .fin _ _ _ => ratPlain (fsPat (.inf a)) bad
  | .fin _ _ _, .inf b => ratPlain (fsPat (.inf b)) bad
  | .fin na a b, .fin nc c d => let (n, x, y) := fracAdd na a b nc c d; ratRound scr bad n ⟨x, y, false⟩

/-- The value with its sign inverted; NaR and zero stay. -/
def fsNeg : FsVal → FsVal
  | .nar => .nar
  | .inf n => .inf (!n)
  | .fin n a b => if a = 0 then .fin false 0 1 else .fin (!n) a b

/-- Product under R201. -/
def ratMul (scr : Word) (bad : Bool) : FsVal → FsVal → RatOut
  | .nar, _ => ratNar bad false
  | _, .nar => ratNar bad false
  | .inf a, .inf b => ratPlain (fsPat (.inf (a != b))) bad
  | .inf a, .fin nc c _ => if c = 0 then ratNar bad true else ratPlain (fsPat (.inf (a != nc))) bad
  | .fin na a _, .inf b => if a = 0 then ratNar bad true else ratPlain (fsPat (.inf (na != b))) bad
  | .fin na a b, .fin nc c d => ratRound scr bad (na != nc) ⟨a * c, b * d, false⟩

/-- A met zero denominator with the result ZDT = 0 writes (R200): by whether the dividend is zero, and its sign. -/
def ratZero (bad zero neg : Bool) : RatOut :=
  ⟨fsPat (if zero then .nar else .inf neg), false, stickyBits true bad false false false false false, false, true⟩

/-- Quotient under R201; a NaR operand decides before a zero divisor (log 19). -/
def ratDiv (scr : Word) (bad : Bool) : FsVal → FsVal → RatOut
  | .nar, _ => ratNar bad false
  | _, .nar => ratNar bad false
  | .inf a, .inf _ => let _ := a; ratNar bad true
  | .inf a, .fin nc c _ => if c = 0 then ratZero bad false a else ratPlain (fsPat (.inf (a != nc))) bad
  | .fin _ _ _, .inf _ => ratPlain (fsPat (.fin false 0 1)) bad
  | .fin na a b, .fin nc c d => if c = 0 then ratZero bad (a == 0) na else ratRound scr bad (na != nc) ⟨a * d, b * c, false⟩

/-- Square root under R201. -/
def ratSqrt (scr : Word) (bad : Bool) : FsVal → RatOut
  | .nar => ratNar bad false
  | .inf n => if n then ratNar bad true else ratPlain (fsPat (.inf false)) bad
  | .fin n a b => if a = 0 then ratPlain (fsPat (.fin false 0 1)) bad else if n then ratNar bad true else ratRound scr bad false ⟨a, b, true⟩

/-- a < b by value, NaR unordered. -/
def fsLt : FsVal → FsVal → Bool
  | .nar, _ => false
  | _, .nar => false
  | .inf a, .inf b => a && !b
  | .inf a, .fin _ _ _ => a
  | .fin _ _ _, .inf b => !b
  | .fin na a b, .fin nc c d =>
    let x : Int := (if na then -1 else 1) * (a * d : Nat)
    let y : Int := (if nc then -1 else 1) * (c * b : Nat)
    x < y

def FsVal.isNar : FsVal → Bool
  | .nar => true
  | _ => false

/-- Compare conditions 0 eq, 1 lt, 2 le, 3 un (R149, R202). -/
def ratCmp (fn : Nat) (a b : FsVal) : Bool :=
  let un := a.isNar || b.isNar
  match fn with
  | 0 => !un && !fsLt a b && !fsLt b a
  | 1 => !un && fsLt a b
  | 2 => !un && !fsLt b a
  | _ => un

/-- Rounds n/d to an integer under a binary mode. -/
def ratToInt (mode : RMode) (neg : Bool) (n d : Nat) : Nat × Bool :=
  let q := n / d
  let r := n % d
  let up := match mode with
    | .ne => 2 * r > d || (2 * r == d && q % 2 == 1)
    | .na => 2 * r ≥ d
    | .tz => false
    | .up => r != 0 && !neg
    | .dn => r != 0 && neg
    | .sr => false
  (if up then q + 1 else q, r != 0)

/-- A signed integer in the range of 64 bits, or the limit with NV (R195, R203). -/
def toI64 (neg : Bool) (q : Nat) (nx bad : Bool) : RatOut :=
  let v : Int := if neg then -(q : Int) else q
  if v < -(2 ^ 63) then ⟨BitVec.ofNat 64 (2 ^ 63), false, stickyBits false bad true false false false false, nx, false⟩
  else if v ≥ 2 ^ 63 then ⟨BitVec.ofNat 64 (2 ^ 63 - 1), false, stickyBits false bad true false false false false, nx, false⟩
  else ⟨BitVec.ofInt 64 v, false, stickyBits false bad false false false false nx, nx, false⟩

/-- Conversions of opcode 0x38 under rational mode (R203). -/
def ratCvt (scr : Word) (fn : Nat) (a : Word) : RatOut :=
  match fn with
  | 0 =>
    let (v, bad) := fsRead a
    match v with
    | .nar => ⟨0, false, stickyBits false bad true false false false false, false, false⟩
    | .inf n => ⟨if n then BitVec.ofNat 64 (2 ^ 63) else BitVec.ofNat 64 (2 ^ 63 - 1), false, stickyBits false bad true false false false false, false, false⟩
    | .fin n x d => let (q, nx) := ratToInt (fsBinMode (fsMode (scrRMODE scr)) n) n x d; toI64 n q nx bad
  | 1 => ratRound scr false a.msb ⟨a.toInt.natAbs, 1, false⟩
  | 2 =>
    let (v, bad) := fsRead a
    match v with
    | .nar => ratPlain (BitVec.ofNat 64 (nanPat fp64 5)) bad
    | .inf n => ratPlain (BitVec.ofNat 64 (infPat fp64 n)) bad
    | .fin n x d =>
      let (m, e, st) := ratBin x d
      let w := fpWrite fp64 (frndMode scr) 0 (.fin n m e st)
      ⟨BitVec.ofNat 64 w.pat, false, stickyBits false bad false false false false w.inexact, w.inexact, false⟩
  | _ =>
    match fpRead fp64 a.toNat with
    | .nan => ratNar false true
    | .inf n => ratPlain (fsPat (.inf n)) false
    | .fin n m e => ratRound scr false n (if 0 ≤ e then ⟨m * 2 ^ e.toNat, 1, false⟩ else ⟨m, 2 ^ (-e).toNat, false⟩)

/-- A value as the signed fraction that `fs.med` adds (R204): infinities as ±1/0. -/
def fsFraction : FsVal → Int × Nat
  | .nar => (0, 1)
  | .inf n => (if n then -1 else 1, 0)
  | .fin n a b => (if n then -(a : Int) else a, b)

/-- The mediant form (R204). -/
def ratMed (scr : Word) (bad : Bool) (x y : FsVal) : RatOut :=
  if x.isNar || y.isNar then ratNar bad false else
  let (a, b) := fsFraction x
  let (c, d) := fsFraction y
  if b = 0 && d = 0 then (if a = c then ratPlain (fsPat (.inf (decide (a < 0)))) bad else ratNar bad true)
  else ratRound scr bad (decide (a + c < 0)) ⟨(a + c).natAbs, b + d, false⟩

/-- `fs.near` (R204). -/
def ratNear (bad : Bool) (v : FsVal) (b : Word) : RatOut :=
  match v with
  | .nar => ratPlain (fsPat .nar) bad
  | .inf n => ratPlain (fsPat (.inf n)) bad
  | .fin n x d =>
    let q := if b = 0 then 2 ^ 56 - 1 else b.toNat
    let r := fsNearest q x d
    let nx := r != .fin false x d
    ⟨fsPat (fsSign n r), false, stickyBits false bad false false false false nx, nx, false⟩

/-- The E8M0 byte of a positive fraction (R97, R205): the exponent, and whether it was rounded. -/
def ratE8 (mode : FsMode) (n d : Nat) : Nat × Bool :=
  -- floor(log2 (n/d))
  let k0 : Int := (bitlen n : Int) - bitlen d
  let le := fun (k : Int) => if 0 ≤ k then 2 ^ k.toNat * d ≤ n else d ≤ n * 2 ^ (-k).toNat
  let k := if le k0 then k0 else k0 - 1
  let (nn, dd) := if 0 ≤ k then (n, d * 2 ^ k.toNat) else (n * 2 ^ (-k).toNat, d)
  let e := (k + 127).toNat
  if nn = dd then (e, false) else
  let up := match mode with
    | .near => 2 * nn > 3 * dd || (2 * nn == 3 * dd && e % 2 == 1)
    | .zero => false
    | .away => true
    | .med => 2 * nn > 3 * dd || (2 * nn == 3 * dd && e % 2 == 1)
  (if up then e + 1 else e, true)

/-- The signed numerator of the canonical value (R205, fn 0). -/
def fsNumWord : FsVal → Word
  | .nar => 0
  | .inf n => if n then BitVec.ofInt 64 (-1) else 1
  | .fin n x _ => BitVec.ofInt 64 (if n then -(x : Int) else x)

/-- The canonical denominator (R205, fn 1). -/
def fsDenWord : FsVal → Word
  | .nar => 0
  | .inf _ => 0
  | .fin _ _ d => BitVec.ofNat 64 d

/-- The one-operand rational forms of opcode 0x3F (R205). -/
def ratUnary (scr : Word) (fn : Nat) (a : Word) : RatOut :=
  let (v, bad) := fsRead a
  match fn with
  | 0 => ratPlain (fsNumWord v) bad
  | 1 => ratPlain (fsDenWord v) bad
  | 2 => ratPlain (fsClassBits a) false
  | 3 => ratPlain (fsPat v) bad
  | 4 => match v with
    | .nar => ratPlain (BitVec.ofNat 64 (nanPat fp32 5)) bad
    | .inf n => ratPlain (BitVec.ofNat 64 (infPat fp32 n)) bad
    | .fin n x d =>
      if x = 0 then ratPlain 0 bad else
      let (m, e, st) := ratBin x d
      let w := fpWrite fp32 (fsBinMode (fsMode (scrRMODE scr)) n) 0 (.fin n m e st)
      ⟨BitVec.ofNat 64 w.pat, false, stickyBits false bad false false false false w.inexact, w.inexact, false⟩
  | 5 => match v with
    | .nar => ⟨0xFF, false, stickyBits false bad true false false false false, false, false⟩
    | .inf n => if n then ⟨0xFF, false, stickyBits false bad true false false false false, false, false⟩
        else ⟨0xFE, false, stickyBits false bad false false false false true, false, false⟩
    | .fin n x d => if n || x = 0 then ⟨0xFF, false, stickyBits false bad true false false false false, false, false⟩
        else let (e, nx) := ratE8 (fsMode (scrRMODE scr)) x d
          ⟨BitVec.ofNat 64 e, false, stickyBits false bad false false false false nx, nx, false⟩
  | 6 => match v with
    | .fin n x d =>
      let r := fsRound 26 (fsMode (scrRMODE scr)) n ⟨x, d, false⟩
      ⟨BitVec.ofNat 64 (fsPat32 r.v), false, stickyBits false bad false false r.of r.uf r.nx, r.nx, false⟩
    | w => ratPlain (BitVec.ofNat 64 (fsPat32 w)) bad
  | _ => let (w, bad) := fsRead32 (a.toNat % 2 ^ 32); ratPlain (fsPat w) bad

/-- The outcome of any rational operation (R196): opcode, function, SCR at issue, operands. -/
def ratEval (r : RatOp) : RatOut :=
  let (x, bx) := fsRead r.a
  let (y, by') := fsRead r.b
  let bad := bx || by'
  match r.op with
  | 0x30 => ratAdd r.scr bad x y
  | 0x31 => ratAdd r.scr bad x (fsNeg y)
  | 0x32 => ratMul r.scr bad x y
  | 0x33 => ratDiv r.scr bad x y
  | 0x34 => ratSqrt r.scr bx x
  | 0x35 => ratPlain (fsPat (if x.isNar || y.isNar then .nar else if fsLt y x then y else x)) bad
  | 0x36 => ratPlain (fsPat (if x.isNar || y.isNar then .nar else if fsLt x y then y else x)) bad
  | 0x37 => { ratPlain 0 bad with cond := ratCmp r.fn x y }
  | 0x38 => ratCvt r.scr r.fn r.a
  | 0x39 => ratPlain (fsPat (fsSign false x)) bx
  | 0x3A => ratPlain (fsPat (fsNeg x)) bx
  | 0x3B => ratPlain (BitVec.ofNat 64 (Nat.gcd r.a.toNat r.b.toNat)) false
  | 0x3C => if r.b = 0 then ratZero false (r.a == 0) r.a.msb else ratRound r.scr false r.a.msb ⟨r.a.toInt.natAbs, r.b.toNat, false⟩
  | 0x3D => ratMed r.scr bad x y
  | 0x3E => ratNear bx x r.b
  | _ => ratUnary r.scr r.fn r.a

/-- The largest bit length of numerator and denominator of an operand (R303). -/
def fsBits : FsVal → Nat
  | .fin _ n d => max (bitlen n) (bitlen d)
  | _ => 0

/-- Active cycles from issue to landing (R303). -/
def ratLatency (r : RatOp) : Nat :=
  let fx := fsBits (fsRead r.a).1
  let fy := fsBits (fsRead r.b).1
  let m := match r.op with
    | 0x34 | 0x39 | 0x3A => fx
    | 0x38 => (match r.fn with
      | 1 => bitlen r.a.toInt.natAbs
      | 3 => (match fpRead fp64 r.a.toNat with
        | .fin _ m e => if m = 0 then 1 else
            fsBits (if 0 ≤ e then fsFin false (m * 2 ^ e.toNat) 1 else fsFin false m (2 ^ (-e).toNat))
        | _ => 0)
      | _ => fx)
    | 0x3B => max (bitlen r.a.toNat) (bitlen r.b.toNat)
    | 0x3C => max (bitlen r.a.toInt.natAbs) (bitlen r.b.toNat)
    | 0x3E => max fx (bitlen (if r.b = 0 then 2 ^ 56 - 1 else r.b.toNat))
    | 0x3F => if r.fn = 7 then fsBits (fsRead32 (r.a.toNat % 2 ^ 32)).1 else fx
    | _ => max fx fy
  let j := min 8 ((m + 6) / 7)
  let e := if (ratEval r).rounded then 14 else 0
  match r.op with
  | 0x34 => 38
  | 0x35 | 0x36 | 0x37 | 0x39 | 0x3A => 6 + 2 * j
  | 0x3B => 6 + 4 * j
  | 0x3F => if r.fn ≤ 2 then 6 else if r.fn = 3 || r.fn = 7 then 6 + 2 * j else 8 + 2 * j + e
  | _ => 8 + 2 * j + e

/-- The slot value of a floating operation (R149): guard, opcode, function or condition, destination or pair, registers. -/
def ratWord (p op fn d a b : Nat) : Nat :=
  p * 2 ^ 24 + op * 2 ^ 18 + (if op = 0x37 then d * 2 ^ 15 + fn * 2 ^ 12 else d * 2 ^ 12) + a * 2 ^ 6 + if op = 0x38 || op = 0x3F then fn else b

/-- Starts a rational operation (R196, R198): SCR is read once, at issue. A zero denominator under ZDT = 1 writes nothing, sets ZD
and traps FS_ZERO_DENOMINATOR at the commit of the issuing bundle (R200). -/
def ratStart (s : State) (dslot op fn d word : Nat) (a b : Word) : State :=
  let scr := (here s).r.scr
  let r : RatOp := ⟨op, fn, d, a, b, scr, 0, false, 0, word⟩
  let o := ratEval r
  if o.zd && scrZDT scr then raise (orSticky s (stickyBits true false false false false false false)) (slotNow s dslot) 0x17 0 0
  else wr s fun c =>
    let n := ratLatency r
    { c with f := { c.f with rat := some { r with land := c.q.act + n - 1, lat := n }, fpBusy := c.q.act + n } }

/-- The finish of the rational operation in flight: the interlocked result and its sticky bits are written (R198). The predicates of a compare that a loop operation overrides are not written (R169). -/
def ratFinish (c : Core) : Core :=
  match c.f.rat with
  | none => c
  | some r =>
    let o := ratEval r
    let c := { c with f := { c.f with rat := none }, r := { c.r with scr := c.r.scr ||| o.sticky } }
    if r.op = 0x37 && r.void then c
    else if r.op = 0x37 then setP (setP c (2 * r.d) o.cond) (2 * r.d + 1) (!o.cond) else setS c r.d o.v

/-- Finishes the rational operation in flight when its landing cycle has passed (R198, R303). -/
def ratDue (c : Core) : Core := match c.f.rat with | some r => if r.land < c.q.act then ratFinish c else c | none => c

/-- RATIONAL_RESULT: the operation in flight in core `c` finishes once its cycles are over. -/
def execRationalResult (c : Nat) (s : State) : Out := .next (modCore s c ratDue)

end Sys2Proof.Machine
end

