-- ==== Sys2Proof/Machine/Scratch.lean ====
section
/-! DEFINITION. Machine/Scratch: the L and W slots (spec/11, R207 to R217): vector and packed loads and stores through streams,
scalar scratchpad access, handles, operand slots and fills; alignment into MXINT (R88). -/

namespace Sys2Proof.Machine

/-- Elements, bytes of one element and total bytes of a vector access under a stream format; none where R207 allows it not. -/
def vecShape (is16 : Bool) (fmt : Nat) : Option (Nat × Nat × Nat) :=
  if is16 then
    match fmt with
    | 0x02 | 0x03 | 0x10 => some (256, 2, 512)
    | 0x11 | 0x12 => some (256, 1, 256)
    | 0x00 => some (512, 1, 512)
    | _ => none
  else
    match fmt with
    | 0x01 | 0x0F => some (128, 4, 512)
    | 0x02 | 0x03 | 0x10 => some (128, 2, 256)
    | 0x11 | 0x12 => some (128, 1, 128)
    | 0x00 => some (512, 1, 512)
    | _ => none

/-- One lane of a load from an element (R207). -/
def vecLoadLane (is16 : Bool) (fmt x : Nat) : Nat :=
  let w := if is16 then 16 else 32
  match fmt with
  | 0x02 => if is16 then x else (fpConvert bf16 fp32 .ne 0 x).1
  | 0x03 => if is16 then x else (fpConvert fp16 fp32 .ne 0 x).1
  | 0x10 => if is16 then x else toPat w (sextN 16 x)
  | 0x11 => toPat w (sextN 8 x)
  | _ => x

/-- One element of a store from a lane (R207). -/
def vecStoreElem (is16 : Bool) (fmt : Nat) (mode : RMode) (r16 x : Nat) : Nat :=
  let v := sextN (if is16 then 16 else 32) x
  match fmt with
  | 0x02 => if is16 then x else (fpConvert fp32 bf16 mode r16 x).1
  | 0x03 => if is16 then x else (fpConvert fp32 fp16 mode r16 x).1
  | 0x10 => if is16 then x else toPat 16 (satI v (-32768) 32767)
  | 0x11 => toPat 8 (satI v (-128) 127)
  | 0x12 => toPat 8 (satI v 0 255)
  | _ => x

/-- Bytes loaded, as the lanes of an operand; a RAW load copies bytes (R207). -/
def vecLoad (is16 : Bool) (fmt eb : Nat) (b : List Byte) : BitVec 4096 :=
  if fmt = 0 then BitVec.ofNat 4096 (leNat b)
  else
    let n := if is16 then 256 else 128
    packLanes (if is16 then 16 else 32) ((unpackElems (8 * eb) b n).map (vecLoadLane is16 fmt))

/-- Lanes as the bytes a store writes; lane i takes the i of R84 under stochastic rounding. -/
def vecStore (is16 : Bool) (fmt eb total : Nat) (mode : RMode) (rng : Word) (x : BitVec 4096) : List Byte :=
  if fmt = 0 then toBytes x.toNat 512
  else
    let l := if is16 then lanes16 x else lanes32 x
    packElems (8 * eb) (l.zipIdx.map fun (v, i) => vecStoreElem is16 fmt mode (rngR16 rng i) v) total

/-- Why a vector access faults (R207), in the order of its table. -/
def vecFault (c : Core) (t : Stream) (is16 : Bool) : Option Nat :=
  match vecShape is16 t.fmt with
  | none => some 0x01
  | some (_, _, n) =>
    if t.blk != 0 then some 0x01
    else if t.tgt then some 0x06
    else handleFault (handle c t.hnd) (stAddr t) n

/-- `vld.32`, `vld.16` (R207): latency 3 (R304); one stream step. -/
def vldOp (is16 : Bool) (p v n : Nat) (s : State) : State :=
  guarded s p fun s =>
    let c := here s
    let x := stReg c n
    let t := stream x
    match vecFault c t is16 with
    | some f => raise s (slotNow s 8) f 0 0
    | none =>
      let (_, eb, total) := (vecShape is16 t.fmt).getD (0, 0, 0)
      let b := spadRead c (handle c t.hnd) (stAddr t).toNat total
      advance (putLate s 3 (.vop v (vecLoad is16 t.fmt eb b))) n (stStep x)

/-- The rounding mode of a stream. -/
def stMode (t : Stream) : RMode := (rmode t.rnd).getD .ne

/-- `vst.32`, `vst.16` (R207): commits at the bundle boundary. -/
def vstOp (is16 : Bool) (p v n : Nat) (s : State) : State :=
  guarded s p fun s =>
    let c := here s
    let x := stReg c n
    let t := stream x
    match vecFault c t is16 with
    | some f => raise s (slotNow s 7) f 0 0
    | none =>
      let (_, eb, total) := (vecShape is16 t.fmt).getD (0, 0, 0)
      let rounds := !is16 && (t.fmt == 0x02 || t.fmt == 0x03)
      let (rng, s) := if rounds && stMode t == .sr then drawRng s else (0, s)
      let b := vecStore is16 t.fmt eb total (stMode t) rng (readView c v)
      advance (wr s fun k => spadWrite k (handle c t.hnd) (stAddr t).toNat b) n (stStep x)

/-- Element width, elements and element bytes of a packed access (R209). -/
def qShape (fmt : Nat) : Option (Nat × Nat × Nat) :=
  match fmt with
  | 0x0B | 0x05 | 0x06 | 0x11 | 0x12 | 0x00 => some (8, 512, 512)
  | 0x0C | 0x07 | 0x08 => some (6, 512, 384)
  | 0x0D | 0x09 => some (4, 1024, 512)
  | _ => none

/-- Scale bytes of a packed step (R209). -/
def qScales (t : Stream) (e : Nat) : Nat := if t.blk = 0 then 0 else e / blkSize t.blk

/-- Why a packed access faults (R209). -/
def qFault (c : Core) (t : Stream) : Option Nat :=
  match qShape t.fmt with
  | none => some 0x01
  | some (_, e, n) =>
    if t.tgt then some 0x06
    else match handleFault (handle c t.hnd) (stAddr t) n with
      | some f => some f
      | none => if t.blk = 0 then none else handleFault (handle c t.hnd) (stScale t e) (qScales t e)

/-- `qld qn, stm` (R209). -/
def qldOp (p q n : Nat) (s : State) : State :=
  guarded s p fun s =>
    let c := here s
    let x := stReg c n
    let t := stream x
    match qFault c t with
    | some f => raise s (slotNow s 8) f 0 0
    | none =>
      let (_, e, total) := (qShape t.fmt).getD (0, 0, 0)
      let h := handle c t.hnd
      let el := leNat (spadRead c h (stAddr t).toNat total)
      let ns := qScales t e
      let sc := spadRead c h (stScale t e).toNat ns ++ List.replicate (32 - ns) 0x7F
      let s := putLate s 3 (.qbits q 0 4096 (BitVec.ofNat 4096 el))
      advance (putLate s 3 (.qcomp q 0 256 (BitVec.ofNat 256 (leNat sc)))) n (stStep x)

/-- `qst qn, stm` (R209). -/
def qstOp (p q n : Nat) (s : State) : State :=
  guarded s p fun s =>
    let c := here s
    let x := stReg c n
    let t := stream x
    match qFault c t with
    | some f => raise s (slotNow s 7) f 0 0
    | none =>
      let (_, e, total) := (qShape t.fmt).getD (0, 0, 0)
      let h := handle c t.hnd
      let s := wr s fun k => spadWrite k h (stAddr t).toNat (toBytes (qReg c q).toNat total)
      let ns := qScales t e
      let s := if ns = 0 then s else wr s fun k => spadWrite k h (stScale t e).toNat (toBytes (qComp c q).toNat ns)
      advance s n (stStep x)

/-- `lds.*` (R210): `n` bytes through the handle-offset word in sa, zero-extended; latency 3. -/
def ldsOp (n p d a : Nat) (s : State) : State :=
  guarded s p fun s =>
    let c := here s
    let (h, o, ok) := handleWord (sreg c a)
    if !ok then raise s (slotNow s 8) 0x07 0 0
    else match handleFault (handle c h) o n with
      | some f => raise s (slotNow s 8) f 0 0
      | none => if d = 0 then s else putLate s 3 (.sreg d (BitVec.ofNat 64 (leNat (spadRead c (handle c h) o n))))

/-- `sts.*` (R210). -/
def stsOp (n p d a : Nat) (s : State) : State :=
  guarded s p fun s =>
    let c := here s
    let (h, o, ok) := handleWord (sreg c a)
    if !ok then raise s (slotNow s 7) 0x07 0 0
    else match handleFault (handle c h) o n with
      | some f => raise s (slotNow s 7) f 0 0
      | none => wr s fun k => spadWrite k (handle c h) o (toBytes (sreg c d).toNat n)

/-! ## Handles -/

/-- Whether a scratchpad line of a bank is one of the lines of a valid BANK handle (R50, R51). -/
def lineTaken (c : Core) (bank line : Nat) : Bool :=
  c.m.htab.any fun (_, w) =>
    let e := hent w
    let n := popc16 e.banks
    e.valid && !e.shadow && bit e.banks bank && e.base ≤ line && (line - e.base) * n + bank % n < e.lines

/-- The first fit of R52 for L lines over n banks: base and group. -/
def bankFit (c : Core) (l n : Nat) : Option (Nat × Nat) :=
  let k := (l + n - 1) / n
  if k > 384 then none else
  (upTo (384 - k + 1)).findSome? fun base =>
    (upTo (16 / n)).findSome? fun g =>
      if (upTo k).all fun i => (upTo n).all fun j => !lineTaken c (g * n + j) (base + i) then some (base, g) else none

/-- The die of a core (R10). -/
def dieOf (c : Nat) : Nat := c / 48

/-- Granted shadow lines of a partition: first and count (R329). -/
def shadowGrant (s : State) (part : Nat) : Nat × Nat :=
  let a := (barRd s 0x00010008).toNat + 32 * part
  (memNat s (a + 24) 2, memNat s (a + 26) 2)

/-- Whether a shadow line of a die is held by a valid SHADOW handle, of a core's task or of a saved member, whether or not that member's
context is resident (log 76). -/
def shadowTaken (s : State) (die line : Nat) : Bool :=
  let holds := fun (c : Core) => c.m.htab.any fun (_, w) =>
    let e := hent w
    e.valid && e.shadow && e.banks ≤ line && line < e.banks + e.lines
  s.cores.any (fun (n, c) => dieOf n == die && holds c) ||
  s.gangs.any fun (_, g) => (g.cores.zip g.saved).any fun (n, c) => dieOf n == die && holds c

/-- The lowest free run of L granted shadow lines (R52). -/
def shadowFit (s : State) (die part l : Nat) : Option Nat :=
  let (f, n) := shadowGrant s part
  if l > n then none else
  (upTo (n - l + 1)).findSome? fun k => if (upTo l).all fun i => !shadowTaken s die (f + k + i) then some (f + k) else none

/-- The fields of a shape descriptor (R211) as an entry not yet placed, its NLOG, and whether it is faulty. -/
def shapeOf (d : Word) : HEnt × Nat × Bool :=
  let n := d.toNat
  let e : HEnt := { valid := true, shadow := bit n 30, fmt := bits n 35 31, rows := bits n 63 48 + 1, rowb := (bits n 47 36 + 1) * 4,
                    banks := 0, base := 0, gen := 0, held := false }
  let nlog := bits n 29 27
  (e, nlog, (fmtBits e.fmt).isNone || (!e.shadow && nlog > 4) || bits n 26 0 != 0)

/-- Places an entry on a core (R52), or finds no place. -/
def placeHandle (s : State) (cn : Nat) (c : Core) (e : HEnt) (nlog : Nat) : Option HEnt :=
  if e.shadow then
    (shadowFit s (dieOf cn) (match c.bind with | some b => b.part | none => 0) e.lines).map fun l => { e with banks := l }
  else
    (bankFit c e.lines (2 ^ nlog)).map fun (base, g) => { e with base := base, banks := (2 ^ (2 ^ nlog) - 1) * 2 ^ (g * 2 ^ nlog) }

/-- Writes a new entry with the next GEN; its contents are unknown from here on (R50, R212). -/
def installHandle (s : State) (cn h : Nat) (old : Word) (e : HEnt) : State :=
  let (ep, s) := drawFresh s
  let e := { e with gen := (bits old.toNat 3 0 + 1) % 16 }
  let s := modCore s cn fun c => { c with m := { c.m with htab := spSet c.m.htab h (hentWord e) } }
  if e.shadow then
    let ls := (upTo e.lines).map fun i => dieOf cn * 65536 + e.banks + i
    { s with shadow := ls.foldl (fun m l => spDel m l) s.shadow, shadowEp := ls.foldl (fun m l => spSet m l (ep + 1)) s.shadowEp }
  else modCore s cn fun c =>
    let ls := (upTo e.lines).map e.place
    { c with m := { c.m with spad := ls.foldl (fun m l => spDel m l) c.m.spad, spadEp := ls.foldl (fun m l => spSet m l (ep + 1)) c.m.spadEp } }

/-- `halloc hn, pd, sa` (R212). -/
def hallocOp (p h d a : Nat) (s : State) : State :=
  guarded s p fun s =>
    let c := here s
    let (e, nlog, bad) := shapeOf (sreg c a)
    if h = 255 || (handle c h).valid then raise s (slotNow s 8) 0x06 0 0
    else if bad then raise s (slotNow s 8) 0x01 0 0
    else match placeHandle s (hereNo s) c e nlog with
      | none => putP s d false
      | some e' => putP (installHandle s (hereNo s) h (hword c h) e') d true

/-- Frees a handle: VALID falls, GEN stays (R213, R54). -/
def freeHandle (c : Core) (h : Nat) : Core :=
  { c with m := { c.m with htab := spMod 0 c.m.htab h fun w => w &&& ~~~(1#64 <<< 63), hheld := spDel c.m.hheld h } }

/-- `hfree hn` (R213). -/
def hfreeOp (p h : Nat) (s : State) : State :=
  guarded s p fun s =>
    if h = 255 || !(handle (here s) h).valid then raise s (slotNow s 8) 0x06 0 0 else wr s fun c => freeHandle c h

/-! ## Alignment into MXINT and fills -/

/-- The class of a block (R88). -/
def blockClass (v : List FpVal) : Nat :=
  if v.any FpVal.isNan then 1
  else
    let pi := v.any fun x => x == .inf false
    let ni := v.any fun x => x == .inf true
    if pi && ni then 4 else if pi then 2 else if ni then 3 else 0

/-- Aligns one block into MXINT of width `w` (R88): scale byte (at most `xmax`), elements, class, elements whose value changed. -/
def alignBlock (w xmax : Nat) (v : List FpVal) : Nat × List Int × Nat × Nat :=
  let lg := v.filterMap fun x => match x with | .fin _ m e => if m = 0 then none else some (flog2 m e) | _ => none
  let emax : Int := match lg with | [] => 0 | a :: l => l.foldl max a
  let x := min (emax + 127).toNat xmax
  let lim : Int := 2 ^ (w - 1) - 1
  let one := fun (y : FpVal) => match y with
    | .nan => ((0 : Int), false)
    | .inf n => (if n then -lim else lim, false)
    | .fin n m e =>
      let e' := e + (w - 2 : Nat) - ((x : Int) - 127)
      let (q, nx) := roundInt .ne n m e' 0
      let t := satI (if n then -(q : Int) else q) (-lim) lim
      (t, nx || t.natAbs != q)
  let r := v.map one
  (x, r.map Prod.fst, blockClass v, (r.filter Prod.snd).length)

/-- Splits a list into blocks. -/
def chunksOf {α : Type} (n : Nat) : Nat → List α → List (List α)
  | 0, _ => []
  | k + 1, l => if l.isEmpty then [] else l.take n :: chunksOf n k (l.drop n)

/-- A row of aligned blocks (R88): the row, and the count for ALN_LOSS. -/
def alignRow (fmt blk xmax : Nat) (v : List FpVal) : MxRow × Nat :=
  let r := (chunksOf blk 16 v).map (alignBlock (mxWidth fmt) xmax)
  (mkRow fmt (r.map fun t => t.2.1).flatten (r.map fun t => t.1) (r.map fun t => t.2.2.1), (r.map fun t => t.2.2.2).sum)

/-- Slot format that a source format fills (R88). -/
def fillFmt : Nat → Option Nat
  | 0x02 | 0x03 | 0x0E => some 0
  | 0x05 | 0x06 | 0x07 | 0x08 | 0x0B => some 1
  | 0x0C => some 2
  | 0x09 | 0x0D => some 3
  | _ => none

/-- Whether a source format is MXINT already. -/
def isMx (f : Nat) : Bool := f == 0x0B || f == 0x0C || f == 0x0D || f == 0x0E

/-- Bytes of one fill step of E elements. -/
def fillBytes (fmt : Nat) : Nat := mxPerRow ((fillFmt fmt).getD 0) * (fmtBits fmt).getD 8 / 8

/-- The stream register walked `n` steps, for each of the next rows. -/
def walkSteps : Nat → BitVec 256 → List (BitVec 256)
  | 0, _ => []
  | n + 1, x => x :: walkSteps n (stStep x)

/-- Why a fill faults (R214), in its order; scales are looked at where they are read, for MXINT sources (log 114). -/
def fillFault (c : Core) (x : BitVec 256) (os : Nat) : Option Nat :=
  let t := stream x
  match fillFmt t.fmt with
  | none => some 0x01
  | some sf =>
    let e := mxPerRow sf
    let h := handle c t.hnd
    if !isMx t.fmt && t.blk = 0 then some 0x01
    else if t.tgt || (h.valid && (h.shadow || h.held)) then some 0x06
    else if !h.valid then some 0x05
    else if (walkSteps 128 x).any fun y =>
        (handleFault h (stAddr (stream y)) (fillBytes t.fmt)).isSome ||
        (t.blk != 0 && isMx t.fmt && (handleFault h (stScale (stream y) e) (e / blkSize t.blk)).isSome) then some 0x07
    else match (slotOf c os).st with
      | .free => some 0x08
      | _ => none

/-- The slot becomes FILLING with the stream's block size and the fill begins (R214). -/
def startFill (k : Core) (os n : Nat) (x : BitVec 256) : Core :=
  let t := stream x
  let k := setSlot k os { slotOf k os with st := .filling, fmt := (fillFmt t.fmt).getD 0, blk := if t.blk = 0 then 128 else blkSize t.blk }
  { k with f := { k.f with fill := some ⟨os, n, x, 0, (handle k t.hnd).gen, none, 0, (k.q.carry.map Carry.seq).getD k.q.seq⟩ } }

/-- Whether the X operation of the bundle being issued reads an operand slot (R216). -/
def xReads (s : State) (os : Nat) : Bool := match s.issue with | some b => b.xslot == some os | none => false

/-- An `ofill` or `orel` of a slot that the bundle's own X operation reads waits, with the line held, until the slot is read (R216). -/
def deferSlot (fill : Option (Nat × Nat × BitVec 256)) (rel : Option Nat) (k : Core) : Core :=
  let h := match k.q.holdO with
    | .opslot f r => Hold.opslot (match fill with | some x => some x | none => f) (match rel with | some x => some x | none => r)
    | _ => .opslot fill rel
  { k with q := { k.q with holdO := h } }

/-- `ofill osn, stm` (R214): the slot becomes FILLING with the stream's block size, and the stream advances by 128 steps. -/
def ofillOp (p os n : Nat) (s : State) : State :=
  guarded s p fun s =>
    let c := here s
    let x := stReg c n
    match fillFault c x os with
    | some f => raise s (slotNow s 8) f 0 0
    | none =>
      let s := if xReads s os then wr s (deferSlot (some (os, n, x)) none) else wr s fun k => startFill k os n x
      advance s n (stSteps 128 x)

/-- One row of a fill, from the scratchpad as it stands (R214). A floating row is aligned by R88, to nearest even whatever the stream's
RND says (log 75). -/
def fillRow (c : Core) (x : BitVec 256) : MxRow × Nat :=
  let t := stream x
  let sf := (fillFmt t.fmt).getD 0
  let e := mxPerRow sf
  let h := handle c t.hnd
  let raw := unpackElems ((fmtBits t.fmt).getD 8) (spadRead c h (stAddr t).toNat (fillBytes t.fmt)) e
  if isMx t.fmt then
    let blk := if t.blk = 0 then 128 else blkSize t.blk
    let nb := e / blk
    let sc := if t.blk = 0 then List.replicate nb 0x7F else (spadRead c h (stScale t e).toNat nb).map BitVec.toNat
    (mkRow sf (raw.map fun v => sextN (mxWidth sf) v) sc (List.replicate nb 0), 0)
  else
    let f := (fmtFp t.fmt).getD bf16
    alignRow sf (blkSize t.blk) 254 (raw.map (fpRead f))

/-- The lines that the next row of a fill reads (R214): those of its elements, and of the scale bytes that an MXINT source brings. -/
def fillLines (c : Core) (f : Fill) : List Nat :=
  let t := stream f.str
  let h := handle c t.hnd
  let e := mxPerRow ((fillFmt t.fmt).getD 0)
  touched h (stAddr t).toNat (fillBytes t.fmt) ++
    if t.blk != 0 && isMx t.fmt then touched h (stScale t e).toNat (e / blkSize t.blk) else []

/-- Whether a fill still reads rows (R215). -/
def Fill.reads (f : Fill) : Bool := f.fullAt.isNone && f.next < 128

/-- The banks that a fill reads in its next cycle: of the lines of its next row, served one for each bank and cycle (R208, R304). -/
def fillBanks (c : Core) : List Nat :=
  match c.f.fill with
  | some f => if f.reads then let l := (fillLines c f).map (· / 384); l.eraseDups.filter fun b => f.lost < (l.filter (· == b)).length else []
  | none => []

/-- A cycle of the fill in progress in which it gets its banks: the first cycle of a row reads it; a further one of a row that has more
lines in a bank delays the rows after it. After row 127 the slot is FULL four active cycles after the last read (R214, R304, log 75). -/
def fillStep (c : Core) : Core :=
  match c.f.fill with
  | none => c
  | some f =>
    if f.next ≥ 128 then c else
    let more := !(fillBanks { c with f := { c.f with fill := some { f with lost := f.lost + 1 } } }).isEmpty
    let f' := if more then { f with lost := f.lost + 1 }
      else { f with next := f.next + 1, str := stStep f.str, fullAt := if f.next = 127 then some 3 else none, lost := 0 }
    let c := if f.lost != 0 then c else
      let (r, loss) := fillRow c f.str
      let o := slotOf c f.os
      addAln (setSlot c f.os { o with rows := spSet o.rows f.next r }) loss
    { c with f := { c.f with fill := some f' } }

/-- The slot becomes FULL once row 127 is written, four active cycles after its read (R215, R304). -/
def fillFinish (c : Core) : Core :=
  match c.f.fill with
  | none => c
  | some f => if f.fullAt = some 0 then { setSlot c f.os { slotOf c f.os with st := .full } with f := { c.f with fill := none } } else c

/-- FILL_COMPLETE: the fill of core `c` has written its last row, and the slot becomes FULL (R215). -/
def execFillComplete (c : Nat) (s : State) : Out := .next (modCore s c fillFinish)

/-- `oclaim osn` (R216, R58): its contents are unknown until filled. -/
def oclaimOp (p os : Nat) (s : State) : State :=
  guarded s p fun s =>
    match (slotOf (here s) os).st with
    | .free => let (ep, s) := drawFresh s; wr s fun c => setSlot c os ⟨.claimed, 0, 128, [], ep + 1⟩
    | _ => raise s (slotNow s 7) 0x09 0 0

/-- `orel osn` (R216, R58). In one bundle with a fill of the slot it leaves the slot FREE while the fill runs (log 115). -/
def orelOp (p os : Nat) (s : State) : State :=
  guarded s p fun s =>
    match (slotOf (here s) os).st with
    | .free => raise s (slotNow s 7) 0x09 0 0
    | _ => if xReads s os then wr s (deferSlot none (some os)) else wr s fun c => setSlot c os { slotOf c os with st := .free }

/-- L_NOP (R140): nothing. -/
def execLNop (_p : Nat) (s : State) : Out := .next s
/-- `vld.32` (R207). -/
def execVld32 (p v t : Nat) (s : State) : Out := .next (vldOp false p v t s)
/-- `vld.16` (R207). -/
def execVld16 (p v t : Nat) (s : State) : Out := .next (vldOp true p v t s)
/-- `qld` (R209). -/
def execQld (p q t : Nat) (s : State) : Out := .next (qldOp p q t s)
/-- `lds.b` (R210). -/
def execLdsB (p d a _v _k : Nat) (s : State) : Out := .next (ldsOp 1 p d a s)
/-- `lds.h` (R210). -/
def execLdsH (p d a _v _k : Nat) (s : State) : Out := .next (ldsOp 2 p d a s)
/-- `lds.w` (R210). -/
def execLdsW (p d a _v _k : Nat) (s : State) : Out := .next (ldsOp 4 p d a s)
/-- `lds.d` (R210). -/
def execLdsD (p d a _v _k : Nat) (s : State) : Out := .next (ldsOp 8 p d a s)
/-- `ofill` (R214). -/
def execOfill (p os t _v _k : Nat) (s : State) : Out := .next (ofillOp p os t s)
/-- `halloc` (R212). -/
def execHalloc (p h d a : Nat) (s : State) : Out := .next (hallocOp p h d a s)
/-- `hfree` (R213). -/
def execHfree (p h : Nat) (s : State) : Out := .next (hfreeOp p h s)
/-- W_NOP (R140): nothing. -/
def execWNop (_p : Nat) (s : State) : Out := .next s
/-- `vst.32` (R207). -/
def execVst32 (p v t : Nat) (s : State) : Out := .next (vstOp false p v t s)
/-- `vst.16` (R207). -/
def execVst16 (p v t : Nat) (s : State) : Out := .next (vstOp true p v t s)
/-- `qst` (R209). -/
def execQst (p q t : Nat) (s : State) : Out := .next (qstOp p q t s)
/-- `sts.b` (R210). -/
def execStsB (p d a _v _k : Nat) (s : State) : Out := .next (stsOp 1 p d a s)
/-- `sts.h` (R210). -/
def execStsH (p d a _v _k : Nat) (s : State) : Out := .next (stsOp 2 p d a s)
/-- `sts.w` (R210). -/
def execStsW (p d a _v _k : Nat) (s : State) : Out := .next (stsOp 4 p d a s)
/-- `sts.d` (R210). -/
def execStsD (p d a _v _k : Nat) (s : State) : Out := .next (stsOp 8 p d a s)
/-- `oclaim` (R216). -/
def execOclaim (p os : Nat) (s : State) : Out := .next (oclaimOp p os s)
/-- `orel` (R216). -/
def execOrel (p os : Nat) (s : State) : Out := .next (orelOp p os s)

end Sys2Proof.Machine
end

