-- ==== Sys2Proof/Machine/Xlat.lean ====
section
/-! DEFINITION. Machine/Xlat: translation (spec/20, R352 to R364): range entries, windows, page table, cached translations, rights and
kinds, the versions of a line (spec/06). -/

namespace Sys2Proof.Machine

/-- What an address translates to: local memory (physical address, kind, rights, bytes to the end of the range or page, whether a
range matched, staging), a window (number, its four words, offset within it, bytes to its end), or a failure (R354, R358). -/
inductive XRes where
  | loc (pa kind rights span : Nat) (byRange stg : Bool)
  | win (n : Nat) (w : List Nat) (o span : Nat)
  | fail (reason : Nat)
deriving DecidableEq, Repr

/-- A lookup in the tables: an entry that matches, or why none does. -/
inductive XLook where
  | hit (e : XEnt)
  | bad (reason : Nat)
deriving DecidableEq, Repr

/-- Right bits (R355). -/
def rR : Nat := 8
def rW : Nat := 4
def rA : Nat := 2
def rRED : Nat := 1

/-- Whether rights include a right; `need` 0 asks for none. -/
def hasRight (rights need : Nat) : Bool := need == 0 || rights / need % 2 == 1

/-- Kinds (R355). -/
def kSTRONG : Nat := 1
def kRELEASE : Nat := 2
def kUNORDERED : Nat := 3
def kVERSIONED : Nat := 4
def kCOUNTER : Nat := 5

/-- Whether a kind code is reserved (R355). -/
def kindBad (k : Nat) : Bool := k == 0 || k ≥ 6

/-- Whether an HBM line reads as uncorrectable (R369). -/
def badLine (s : State) (pa : Nat) : Bool := s.bad.contains (pa / 128)

/-- Whether any line of an access is uncorrectable. -/
def badSpan (s : State) (pa n : Nat) : Bool := (upTo ((pa + n - 1) / 128 - pa / 128 + 1)).any fun i => s.bad.contains (pa / 128 + i)

/-- The 8-byte words at an address. -/
def memWords (s : State) (a n : Nat) : List Nat := (upTo n).map fun i => memNat s (a + 8 * i) 8

/-- A range entry as a match or a failure (R356, R358); no address at or above 2^56 translates (R354). -/
def rangeEnt (asid n : Nat) (w : List Nat) : XLook :=
  let w0 := w.getD 0 0
  if kindBad (bits w0 62 60) || bits w0 54 0 != 0 || bits (w.getD 1 0) 17 0 != 0 || bits (w.getD 2 0) 17 0 != 0 ||
      bits (w.getD 3 0) 17 0 != 0 || bits (w.getD 3 0) 63 39 != 0 || bits (w.getD 1 0) 63 56 != 0 || bits (w.getD 2 0) 63 56 != 0
  then .bad 0x05
  else .hit ⟨asid, 0, n, w.getD 1 0, min (2 ^ 56) (w.getD 1 0 + w.getD 2 0), w⟩

/-- The first range entry that matches (R354, R356). -/
def rangeLook (s : State) (asid va rtab : Nat) : Nat → Nat → Option XLook
  | 0, _ => none
  | k + 1, i =>
    let w := memWords s (rtab + 32 * i) 4
    if badLine s (rtab + 32 * i) then some (.bad 0x08)
    else if bit (w.getD 0 0) 63 && bits (w.getD 1 0) 55 0 ≤ va && va < bits (w.getD 1 0) 55 0 + bits (w.getD 2 0) 55 0
    then some (rangeEnt asid i w)
    else rangeLook s asid va rtab k (i + 1)

/-- Where the window table of an ASID stands (R353). -/
def winTable (s : State) (asid : Nat) : Nat := bits (memNat s (atabEntry s asid + 24) 8) 38 17 * 2 ^ 17

/-- The words of a window entry, and a fifth where WIN_MAKE has marked it dead (R361). -/
def winWords (s : State) (asid n : Nat) : List Nat :=
  memWords s (winTable s asid + 32 * n) 4 ++ (if s.hub.dead.contains (asid, n) then [1] else [])

/-- Whether a window entry is used (R361). -/
def winLive (w : List Nat) : Bool := bit (w.getD 0 0) 63 && bit (w.getD 0 0) 56

def winTgt (w : List Nat) : Nat := bits (w.getD 0 0) 62 61
def winRights (w : List Nat) : Nat := bits (w.getD 0 0) 60 57
def winBase (w : List Nat) : Nat := bits (w.getD 0 0) 55 0
def winSize (w : List Nat) : Nat := bits (w.getD 1 0) 47 0
def winPkg (w : List Nat) : Nat := bits (w.getD 2 0) 63 50
def winCore (w : List Nat) : Nat := bits (w.getD 2 0) 49 42
def winHnd (w : List Nat) : Nat := bits (w.getD 2 0) 41 34
def winHgen (w : List Nat) : Nat := bits (w.getD 2 0) 33 30
def winRoff (w : List Nat) : Nat := bits (w.getD 2 0) 47 0
def winKey (w : List Nat) : Nat := bits (w.getD 3 0) 63 32

/-- Whether a window entry matches an address by its place (R354). -/
def winHolds (w : List Nat) (va : Nat) : Bool := winLive w && winSize w != 0 && winBase w ≤ va && va < winBase w + winSize w

/-- A window entry as a match or a failure (R358, R361). -/
def winEnt (asid n : Nat) (w : List Nat) : XLook :=
  if winBase w % 4096 != 0 || winSize w % 4096 != 0 || bits (w.getD 1 0) 63 48 != 0 || bits (w.getD 3 0) 31 0 != 0 ||
      (winTgt w != 0 && bits (w.getD 2 0) 29 0 != 0) then .bad 0x05
  else if winTgt w = 3 || winKey w = 0 then .bad 0x07
  else .hit ⟨asid, 1, n, winBase w, min (2 ^ 56) (winBase w + winSize w), w⟩

/-- The first window that matches (R354, R361). -/
def winLook (s : State) (asid va : Nat) : Nat → Nat → Option XLook
  | 0, _ => none
  | k + 1, i =>
    let w := winWords s asid i
    if badLine s (winTable s asid + 32 * i) then some (.bad 0x08)
    else if winHolds w va then some (winEnt asid i w)
    else winLook s asid va k (i + 1)

/-- Whether a leaf or pointer breaks its layout at a level (R357, R358). -/
def pteBad (level e : Nat) : Bool :=
  let t := bits e 63 62
  t == 3 || (t == 1 && level == 0) || (t == 2 && level == 3) || bits e 51 39 != 0 || bits e 5 0 != 0 ||
  (t == 1 && (bits e 61 52 != 0 || bits e 38 6 * 64 % (if level = 3 then 2 ^ 16 else if level = 2 then 2 ^ 12 else 64) != 0)) ||
  (t == 2 && (kindBad (bits e 61 59) || bits e 17 6 != 0 || (bit e 52 && level != 1) ||
    bits e 38 18 * 2 ^ 18 % (if level = 2 then 2 ^ 30 else if level = 1 then (if bit e 52 then 2 ^ 25 else 2 ^ 21) else 2 ^ 18) != 0))

/-- Index into a level's table (R357). -/
def ptIndex (level va : Nat) : Nat :=
  if level = 3 then bits va 55 43 else if level = 2 then bits va 42 30 else if level = 1 then bits va 29 21 else bits va 20 18

/-- A leaf as a match: its size, and whether its group agrees (R357). -/
def leafEnt (s : State) (asid va level e ea : Nat) : XLook :=
  let sz := if level = 2 then 2 ^ 30 else if level = 1 then (if bit e 52 then 2 ^ 25 else 2 ^ 21) else 2 ^ 18
  let g := ea - 8 * (ptIndex 1 va % 16)
  if bit e 52 && !(upTo 16).all (fun i => memNat s (g + 8 * i) 8 == e) then .bad 0x05
  else if !bit e 54 then .bad 0x03
  else .hit ⟨asid, 2, va / sz, va / sz * sz, va / sz * sz + sz, [e, sz]⟩

/-- The walk from a level down (R357). -/
def ptWalk (s : State) (asid va : Nat) : Nat → Nat → XLook
  | 0, _ => .bad 0x02
  | k + 1, base =>
    let ea := base + 8 * ptIndex k va
    let e := memNat s ea 8
    if badLine s ea then .bad 0x08
    else if bits e 63 62 = 0 then .bad 0x02
    else if pteBad k e then .bad 0x05
    else if bits e 63 62 = 2 then leafEnt s asid va k e ea
    else ptWalk s asid va k (bits e 38 6 * 64)

/-- Where the range table of an ASID stands, and how many entries are in use (R353). -/
def rangeTable (s : State) (asid : Nat) : Nat := bits (memNat s (atabEntry s asid + 8) 8) 38 14 * 2 ^ 14
def rangeCount (s : State) (asid : Nat) : Nat := min 512 (bits (memNat s (atabEntry s asid) 8) 9 0)

/-- Whether an ASID's entry breaks its layout (R353, R358). -/
def asidBad (s : State) (asid : Nat) : Bool :=
  let w := fun (i : Nat) => memNat s (atabEntry s asid + 8 * i) 8
  let low := fun (x n : Nat) => x % 2 ^ n != 0 || x / 2 ^ 39 != 0
  bits (w 0) 61 48 != 0 || bits (w 0) 23 10 != 0 || low (w 1) 14 || low (w 2) 16 || low (w 3) 17 || w 6 != 0 || w 7 != 0

/-- The lookup in the tables as they stand (R354). -/
def tableFind (s : State) (asid va : Nat) : XLook :=
  let a := atabEntry s asid
  if va ≥ 2 ^ 56 then .bad 0x01
  else if badLine s a then .bad 0x08
  else if !bit (memNat s a 8) 63 then .bad 0x02
  else if asidBad s asid then .bad 0x05
  else
    match rangeLook s asid va (rangeTable s asid) (rangeCount s asid) 0 with
    | some r => r
    | none => match winLook s asid va 4096 0 with
      | some r => r
      | none => ptWalk s asid va 4 (bits (memNat s (a + 16) 8) 38 16 * 2 ^ 16)

/-- The entries that the lookup asks before one that matches (R354): from where to where each holds. -/
def entsBefore (s : State) (e : XEnt) : List (Nat × Nat) :=
  let rs := (upTo (if e.cls = 0 then e.n else rangeCount s e.asid)).filterMap fun i =>
    let w := memWords s (rangeTable s e.asid + 32 * i) 4
    if bit (w.getD 0 0) 63 then some (bits (w.getD 1 0) 55 0, bits (w.getD 1 0) 55 0 + bits (w.getD 2 0) 55 0) else none
  let ws := (upTo (if e.cls = 0 then 0 else if e.cls = 1 then e.n else 4096)).filterMap fun i =>
    let w := winWords s e.asid i
    if winLive w && winSize w != 0 then some (winBase w, winBase w + winSize w) else none
  rs ++ ws

/-- A match at an address, cut to the addresses around it that no entry asked before it holds (R354): so far a cache may answer. -/
def cutEnt (s : State) (va : Nat) (e : XEnt) : XEnt :=
  (entsBefore s e).foldl (fun e (lo, hi) => if va < lo then { e with hi := min e.hi lo } else if hi ≤ va then { e with lo := max e.lo hi } else e) e

/-- What an entry gives at an address (R356, R357, R361), as far as it holds. -/
def entRes (e : XEnt) (va : Nat) : XRes :=
  match e.cls with
  | 0 =>
    let w0 := e.w.getD 0 0
    let o := va - e.w.getD 1 0
    let pa := e.w.getD 3 0 + o
    if pa ≥ hbmSize then .fail 0x06 else .loc pa (bits w0 62 60) (bits w0 59 56) (e.hi - va) true (bit w0 55)
  | 1 => .win e.n e.w (va - winBase e.w) (e.hi - va)
  | _ =>
    let x := e.w.getD 0 0
    let o := va % e.w.getD 1 1
    let pa := bits x 38 18 * 2 ^ 18 + o
    if pa ≥ hbmSize then .fail 0x06 else .loc pa (bits x 61 59) (bits x 58 55) (e.hi - va) false (bit x 53)

/-- The end of the range, window or page that an entry stands for (R225). -/
def entEnd (e : XEnt) : Nat :=
  match e.cls with
  | 0 => e.w.getD 1 0 + e.w.getD 2 0
  | 1 => winBase e.w + winSize e.w
  | _ => (e.n + 1) * e.w.getD 1 1

/-- The whole lookup in the tables as they stand (R354): a match holds as far as no entry asked before it does, and fails where it leads
beyond HBM (R358). -/
def tableLook (s : State) (asid va : Nat) : XLook :=
  match tableFind s asid va with
  | .hit e => let e := cutEnt s va e; match entRes e va with | .fail r => .bad r | _ => .hit e
  | r => r

/-- The size of the leaf that an address has from a level down, resident or not; 256 KiB where it has none (R357). -/
def leafSize (s : State) (va : Nat) : Nat → Nat → Nat
  | 0, _ => 2 ^ 18
  | k + 1, base =>
    let e := memNat s (base + 8 * ptIndex k va) 8
    if bits e 63 62 = 2 then (if k = 2 then 2 ^ 30 else if k = 1 then (if bit e 52 then 2 ^ 25 else 2 ^ 21) else 2 ^ 18)
    else if bits e 63 62 = 1 then leafSize s va k (bits e 38 6 * 64) else 2 ^ 18

/-- The page of an address: what it matches, or its leaf where that is not resident. -/
def pageOf (s : State) (asid va : Nat) : Nat × Nat :=
  match tableLook s asid va with
  | .hit e => (e.lo, e.hi)
  | .bad _ =>
    let sz := leafSize s va 4 (bits (memNat s (atabEntry s asid + 16) 8) 38 16 * 2 ^ 16)
    (va / sz * sz, va / sz * sz + sz)

/-- A cached entry for an address. -/
def cacheFind (l : List XEnt) (asid va : Nat) : Option XEnt := l.find? fun e => e.asid == asid && e.lo ≤ va && va < e.hi

/-- Puts an entry into a cache of a size, once; the one put there longest ago leaves (log 15). -/
def cachePut (l : List XEnt) (cap : Nat) (e : XEnt) : List XEnt := let l := l.filter (· != e) ++ [e]; l.drop (l.length - cap)

/-- Fills the caches of a core with an entry (R359). -/
def fillCore (s : State) (cn : Nat) (e : XEnt) : State :=
  modCore s cn fun c => if e.cls = 2 then { c with tlbP := cachePut c.tlbP 256 e } else { c with tlbR := cachePut c.tlbR 64 e }

/-- Fills the caches of a core and its die with an entry (R359). -/
def fillCaches (s : State) (cn : Nat) (e : XEnt) : State :=
  fillCore { s with dieTlb := spMod [] s.dieTlb (dieOf cn) fun l => cachePut l 8192 e } cn e

/-- Whether a core's own caches hold an address (R359). -/
def cachedOwn (s : State) (cn asid va : Nat) : Option XEnt :=
  let c := coreAt s cn
  match cacheFind c.tlbR asid va with
  | some e => some e
  | none => cacheFind c.tlbP asid va

/-- Whether a core's caches or its die's hold an address (R359). -/
def cached (s : State) (cn asid va : Nat) : Option XEnt :=
  match cachedOwn s cn asid va with
  | some e => some e
  | none => cacheFind (spGet [] s.dieTlb (dieOf cn)) asid va

/-- What a core finds for an address: a cached entry, or the tables as they stand (R354, R359). -/
def xlook (s : State) (cn asid va : Nat) : XLook :=
  match (if va ≥ 2 ^ 56 then none else cached s cn asid va) with
  | some e => .hit e
  | none => tableLook s asid va

/-- Translates for a core (R354). -/
def xlat (s : State) (cn asid va : Nat) : XRes :=
  match xlook s cn asid va with
  | .hit e => entRes e va
  | .bad r => .fail r

/-- The same with the caches filled. -/
def xlatFill (s : State) (cn asid va : Nat) : XRes × State :=
  match (if va ≥ 2 ^ 56 then none else cached s cn asid va) with
  | some e => (entRes e va, s)
  | none => match tableLook s asid va with
    | .hit e => (entRes e va, fillCaches s cn e)
    | .bad r => (.fail r, s)

/-- Bytes to the end of what an address matched. -/
def XRes.span : XRes → Nat
  | .loc _ _ _ n _ _ => n
  | .win _ _ _ n => n
  | .fail _ => 0

/-- The translation of an access of `n` bytes, as far as it matches: every byte must lie below the end of HBM (R358). -/
def XRes.bounded (r : XRes) (n : Nat) : XRes :=
  match r with
  | .loc pa _ _ sp _ _ => if pa + min sp n > hbmSize then .fail 0x06 else r
  | r => r

/-- An access split at the ends of what it matches (R114, R354): address, offset, bytes, translation of each part. -/
def xsplit (s : State) (cn asid : Nat) : Nat → Nat → Nat → Nat → List (Nat × Nat × Nat × XRes)
  | 0, _, _, _ => []
  | k + 1, va, off, n =>
    let r := (xlat s cn asid va).bounded n
    match r with
    | .fail _ => [(va, off, n, r)]
    | _ => if r.span ≥ n then [(va, off, n, r)] else (va, off, r.span, r) :: xsplit s cn asid k (va + r.span) (off + r.span) (n - r.span)

/-- The ASID of a core's task. -/
def asidOf (c : Core) : Nat := match c.bind with | some b => b.asid | none => 0

/-- The stack that holds a physical address (R13). -/
def stackOf (s : State) (pa : Nat) : Nat := if (barRd s 0x00010100).getLsbD 63 then bits pa 38 36 else bits pa 14 12

/-- Adds one to a saturating counter of a stack (R443): one that saturates sets its bit of HLTH_SUM once more. -/
def stackCount (s : State) (off bit : Nat) : State :=
  let v := (barRd s off).toNat
  if v = 2 ^ 64 - 1 then s else
  let s := barWr s off (BitVec.ofNat 64 (v + 1))
  if v = 2 ^ 64 - 2 then setHealth s bit else s

/-- The lines of an access, by their addresses. -/
def linesIn (pa n : Nat) : List Nat := (upTo ((pa + n - 1) / 128 - pa / 128 + 1)).map fun i => (pa / 128 + i) * 128

/-- The uncorrectable lines of an access. -/
def badLines (s : State) (pa n : Nat) : List Nat := (linesIn pa n).filter (badLine s)

/-- Counts the uncorrectable lines of a read in HBM_UE of their stacks (R443). -/
def ueCount (s : State) (pa n : Nat) : State := (badLines s pa n).foldl (fun s a => stackCount s (0x00060108 + 16 * stackOf s a) 8) s

/-- Whether ECC corrects a line of an access (R443). -/
def softSpan (s : State) (pa n : Nat) : Bool := (linesIn pa n).any fun a => s.soft.contains (a / 128)

/-- Counts the lines of a read that ECC corrects in HBM_CE of their stacks; at the threshold the package's health shows it (R442, R443,
log 57). -/
def ceCount (s : State) (pa n : Nat) : State :=
  ((linesIn pa n).filter fun a => s.soft.contains (a / 128)).foldl (fun s a =>
    let k := 0x00060100 + 16 * stackOf s a
    let s := stackCount s k 7
    if barRd s k == barRd s 0x00060080 then setHealth s 7 else s) s

/-- The first uncorrectable line that the lookup of an address meets: of the ASID's entry, or of an entry of its page tables (R358). -/
def walkBad (s : State) (va : Nat) : Nat → Nat → Option Nat
  | 0, _ => none
  | k + 1, base =>
    let ea := base + 8 * ptIndex k va
    if badLine s ea then some ea else if bits (memNat s ea 8) 63 62 = 1 then walkBad s va k (bits (memNat s ea 8) 38 6 * 64) else none

/-- A lookup that met an uncorrectable line (reason WALKERR) shows in the package's health and in HBM_UE of the stack (R442, R443). -/
def walkNote (s : State) (asid va reason : Nat) : State :=
  if reason != 0x08 then s else
  let a := atabEntry s asid
  let pa := if badLine s a then some a else walkBad s va 4 (bits (memNat s (a + 16) 8) 38 16 * 2 ^ 16)
  setHealth (match pa with | some p => ueCount s p 1 | none => s) 8

/-- What a failed translation tells besides: the event PAGE for a non-resident page (R360: the driver learns the ASID and the address),
the health bit for a walk that met an uncorrectable line (R442). -/
def postPage (s : State) (asid va reason : Nat) : State :=
  if reason = 0x03 then post s (driverOf s asid) 1 [asid, va] else walkNote s asid va reason

/-! ## Physical access -/

/-- Counts the uncorrectable lines of a read in HBM_UE, each in ERRCNT of an address space too, and the lines that ECC corrects (R369, R443). -/
def readErrors (s : State) (asid pa n : Nat) : State := (badLines s pa n).foldl (fun s _ => bumpErr s asid) (ceCount (ueCount s pa n) pa n)

/-- Reads bytes of HBM for a core or engine: an uncorrectable line reads as zeros and is counted (R369). -/
def hbmRead (s : State) (asid pa n : Nat) : List Byte × State :=
  if n = 0 then ([], s)
  else if badSpan s pa n then ((upTo n).map fun i => if badLine s (pa + i) then 0 else memFind s.mem (pa + i), readErrors s asid pa n)
  else (memBytes s.mem pa n, if s.soft.isEmpty then s else ceCount s pa n)

/-- Writes bytes of HBM. -/
def hbmWrite (s : State) (pa : Nat) (b : List Byte) : State := { s with mem := memPutBytes s.mem pa b }

/-! ## Versioned memory (R119 to R125) -/

/-- Entry of a region. -/
def regionAt (s : State) (n : Nat) : Nat := (barRd s 0x00020010).toNat + 32 * n

/-- Fields of a region entry (R119), as one 256-bit number. -/
def regionWord (s : State) (n : Nat) : Nat := memNat s (regionAt s n) 32

/-- The live region of an ASID that holds an address. -/
def regionOf (s : State) (asid va : Nat) : Option Nat :=
  (upTo 1024).find? fun n =>
    let w := regionWord s n
    bit w 255 && bits w 254 241 == asid && bits w 87 50 * 2 ^ 18 ≤ va && va < bits w 87 50 * 2 ^ 18 + (bits w 49 24 + 1) * 2 ^ 18

/-- Reads a counter; one in an uncorrectable line reads as zero (R369). -/
def ctrRead (s : State) : CtrAt → Word
  | .file c n => ctGet (coreAt s c) n
  | .hbm pa => if badLine s pa then 0 else BitVec.ofNat 64 (memNat s pa 8)

/-- What the read of a counter for an address space counts of an uncorrectable line (R369). -/
def ctrSeen (s : State) (asid : Nat) : CtrAt → State
  | .file _ _ => s
  | .hbm pa => readErrors s asid pa 8

/-- Whether a counter's read parks or traps: its line is uncorrectable and the address space is STRICT (R369). -/
def ctrStrict (s : State) (asid : Nat) : CtrAt → Bool
  | .file _ _ => false
  | .hbm pa => badLine s pa && strictOf s asid

/-- The read of a counter in an uncorrectable line that parks or traps counts in HBM_UE (R443). -/
def ctrUe (s : State) : CtrAt → State
  | .file _ _ => s
  | .hbm pa => ueCount s pa 8

/-- Sets a counter. -/
def ctrWrite (s : State) (v : Word) : CtrAt → State
  | .file c n => modCore s c fun k => ctSet k n v
  | .hbm pa => memSetNat s pa 8 v.toNat

/-- What a key check at this package gives (R362, R363): the owning ASID and BASE + o, or a refusal. -/
def keyCheck (s : State) (key tgt need o n : Nat) : Option (Nat × Nat) :=
  let a := (barRd s 0x00020008).toNat + 32 * (key / 4096)
  let w := memNat s a 8
  let base := bits (memNat s (a + 8) 8) 55 0
  let limit := bits (memNat s (a + 16) 8) 55 0
  if bit w 63 && bits w 56 45 == key % 4096 && bits w 58 57 == tgt && hasRight (bits w 62 59) need && o + n ≤ limit
  then some (bits w 44 31, base + o) else none

/-- The counter that a virtual address reaches for a read (R102, R355, R363): a COUNTER page of this package, or a counter of one of its
cores through a COUNTER window. -/
def ctrOfVa (s : State) (cn asid va : Nat) : Option CtrAt :=
  match xlat s cn asid va with
  | .loc pa k rt _ _ _ => if k = kCOUNTER && hasRight rt rR then some (.hbm pa) else none
  | .win _ w o _ =>
    if winTgt w = 2 && winPkg w = bits (barRd s 0x00030000).toNat 13 0 && hasRight (winRights w) rR then
      match keyCheck s (winKey w) 2 rR o 8 with
      | some (_, b) => if b < 4096 then some (.file (winCore w) (b / 8)) else none
      | none => none
    else none
  | .fail _ => none

/-- VALUE of a region's seal counter, and whether it is poisoned; the floor, cut to the seal (R120). An address that no longer reaches a
counter gives 0, not poisoned (log 104). -/
def sealOf (s : State) (n : Nat) : Nat × Bool :=
  let w := regionWord s n
  match ctrOfVa s 0 (bits w 254 241) (bits w 199 144) with
  | some c => let v := ctrRead s c; (min (v.toNat % 2 ^ 63) (2 ^ 32 - 1), v.getLsbD 63)
  | none => (0, false)

def floorOf (s : State) (n : Nat) : Nat :=
  let w := regionWord s n
  match ctrOfVa s 0 (bits w 254 241) (bits w 143 88) with
  | some c => min ((ctrRead s c).toNat % 2 ^ 63) (sealOf s n).1
  | none => 0

/-- The bytes of a line in HBM; an uncorrectable one reads as zeros (R369). -/
def lineBytes (s : State) (line : Nat) : BitVec 1024 := if s.bad.contains line then 0 else BitVec.ofNat 1024 (leNat (memBytes s.mem (128 * line) 128))

/-- The live versions of a line, rising (R120): the first stands in HBM. -/
def lineVers (s : State) (line : Nat) : List (Nat × BitVec 1024) :=
  match spFind s.vers line with
  | none => [(0, lineBytes s line)]
  | some (b, l) => (b, lineBytes s line) :: l

/-- Sets the versions of a line. -/
def setVers (s : State) (line : Nat) (l : List (Nat × BitVec 1024)) : State :=
  match l with
  | [] => s
  | (b, x) :: l =>
    let s := { s with mem := memPutBytes s.mem (128 * line) (bvBytes x 128) }
    { s with vers := if b = 0 && l.isEmpty then spDel s.vers line else spSet s.vers line (b, l) }

/-- Reclaim under a floor (R123): the greatest version not above it stays, and every later one. -/
def reclaim (f : Nat) : List (Nat × BitVec 1024) → List (Nat × BitVec 1024)
  | a :: b :: l => if b.1 ≤ f then reclaim f (b :: l) else a :: b :: l
  | l => l

/-- Version-store lines in use: each live version after a line's first (R120). -/
def storeUsed (s : State) : Nat := (s.vers.map fun (_, _, l) => l.length).sum

/-- Lines the version store holds (R119, R333). -/
def storeCap (s : State) : Nat := (barRd s 0x00010110).toNat / 128

/-- Outcome of a versioned access at its home (R121, R122): a wait names the regions that its parts wait for. -/
inductive VRes where
  | done (v : Word) (s : State)
  | wait (regions : List Nat)
  | fault (cause : Nat)

/-- A part of a versioned access within one line: line, offset in the line, offset in the access, bytes, region. -/
abbrev VPart := Nat × Nat × Nat × Nat × Nat

/-- The lines that a run of at most 128 bytes touches (R125): line, offset in the line, offset in the access, bytes. -/
def lineParts (pa off n : Nat) : List (Nat × Nat × Nat × Nat) :=
  let m := min n (128 - pa % 128)
  if m = n then [(pa / 128, pa % 128, off, n)] else [(pa / 128, pa % 128, off, m), (pa / 128 + 1, 0, off + m, n - m)]

/-- The version of a line that a load at `ver` returns (R122), and whether it is the one that stands in HBM. -/
def verSeen (s : State) (F line ver : Nat) : BitVec 1024 × Bool :=
  let l := reclaim F (lineVers s line)
  (((l.filter fun v => v.1 ≤ ver).getLast?.map Prod.snd).getD 0, (l.filter fun v => v.1 ≤ ver).length ≤ 1 && l.head? == (lineVers s line).head?)

/-- `ld.v` at its home (R122, R125): each part goes by its own region. An uncorrectable line reads as zeros and is counted, or faults under
STRICT (R369). -/
def verLoad (s : State) (ps : List VPart) (ver : Nat) : VRes :=
  let asid := match ps with | (_, _, _, _, r) :: _ => bits (regionWord s r) 254 241 | [] => 0
  let late := ps.filter fun (_, _, _, _, r) => (sealOf s r).1 < ver
  let bad := ps.filter fun (line, _, _, _, r) => s.bad.contains line && (verSeen s (floorOf s r) line ver).2
  if ps.any fun (_, _, _, _, r) => ver < floorOf s r then .fault 0x15
  else if late.any fun (_, _, _, _, r) => (sealOf s r).2 then .fault 0x11
  else if !late.isEmpty then .wait (late.map fun (_, _, _, _, r) => r)
  else if !bad.isEmpty && strictOf s asid then .fault 0x1C
  else
    let one := fun (line o n r : Nat) => ((verSeen s (floorOf s r) line ver).1.toNat / 2 ^ (8 * o)) % 2 ^ (8 * n)
    .done (BitVec.ofNat 64 (ps.foldl (fun acc (line, o, off, n, r) => acc + one line o n r * 2 ^ (8 * off)) 0))
      (ps.foldl (fun s (line, _, _, _, _) => ceCount s (128 * line) 1) (bad.foldl (fun s (line, _, _, _, _) => readErrors s asid (128 * line) 1) s))

/-- Applies the reclaim of R123 to a line. -/
def reclaimLine (s : State) (region line : Nat) : State := setVers s line (reclaim (floorOf s region) (lineVers s line))

/-- Every line gives up the versions its region's floor has passed (R123). -/
def reclaimAll (s : State) : State := (s.vers.map Prod.fst).foldl (fun s line => match spFind s.vreg line with | some r => reclaimLine s r line | none => s) s

/-- `st.v` at its home: every part is checked before any is performed (R121, R125). -/
def verStore (s : State) (ps : List VPart) (ver : Nat) (data : Word) : VRes :=
  let s := reclaimAll s
  let s := ps.foldl (fun s (line, _, _, _, r) => reclaimLine s r line) s
  let nw := fun (line : Nat) => ((lineVers s line).getLast?.map Prod.fst).getD 0
  let grow := ps.filter fun (line, _, _, _, _) => nw line < ver
  let stuck := if storeUsed s + grow.length > storeCap s then grow else grow.filter fun (line, _, _, _, _) => (lineVers s line).length ≥ 8
  if ps.any fun (_, _, _, _, r) => ver ≤ (sealOf s r).1 then .fault 0x14
  else if ps.any (fun (line, _, _, _, _) => ver < nw line) then .fault 0x13
  else if !stuck.isEmpty then .wait (stuck.map fun (_, _, _, _, r) => r)
  else
    .done 0 (ps.foldl (fun s (line, o, off, n, r) =>
      let l := lineVers s line
      let l := if nw line < ver then l ++ [(ver, ((l.getLast?.map Prod.snd).getD 0))] else l
      let x := ((l.getLast?.map Prod.snd).getD 0)
      let x' := setBits x (8 * o) (8 * n) (BitVec.ofNat 1024 (data.toNat / 2 ^ (8 * off) % 2 ^ (8 * n)))
      setVers { s with vreg := spSet s.vreg line r } line (l.dropLast ++ [(ver, x')])) s)

/-- One attempt at a versioned access of this package (R121, R122). -/
def verTry (s : State) (isStore : Bool) (ps : List VPart) (ver : Nat) (data : Word) : VRes :=
  if isStore then verStore s ps ver data else verLoad s ps ver

end Sys2Proof.Machine
end

