-- ==== Sys2Proof/Machine/Replay.lean ====
section
/-! DEFINITION. Machine/Replay: the decision log (spec/24, R423 to R425): what a recorded arbiter writes, and what it waits for on
replay. -/

namespace Sys2Proof.Machine

def rplCtl (s : State) : Nat := (barRd s 0x00048000).toNat
def rplMode (s : State) : Nat := bits (rplCtl s) 63 62
def rplAsid (s : State) : Nat := bits (rplCtl s) 45 32
def rplBase (s : State) : Nat := bits (barRd s 0x00048008).toNat 38 12 * 4096
def rplSize (s : State) : Nat := bits (barRd s 0x00048010).toNat 47 0

/-- WINDOW in cycles (R423). -/
def rplWindow (s : State) : Nat := if bits (rplCtl s) 31 0 = 0 then 1024 else bits (rplCtl s) 31 0

/-- Counts a decision of an arbiter. -/
def rplCount (s : State) (arb : Nat) : State :=
  { s with rpl := { s.rpl with seqs := spMod 0 s.rpl.seqs arb (· + 1), waiting := s.rpl.waiting.filter fun x => x.1 != arb } }

/-- Counts a decision that has an entry in the log, and HEAD. -/
def rplTaken (s : State) (arb : Nat) : State := rplCount (barWr s 0x00048018 (barRd s 0x00048018 + 16)) arb

/-- Logs a decision of a recorded arbiter (R424): a full log stops recording. -/
def rplLog (s : State) (arb mask choice : Nat) : State :=
  let head := (barRd s 0x00048018).toNat
  if head + 16 > rplSize s then post (barWr s 0x00048000 (BitVec.ofNat 64 (bits (rplCtl s) 61 0))) 0 7 [head]
  else
    let b := toBytes arb 2 ++ toBytes (spGet 0 s.rpl.seqs arb) 6 ++ toBytes mask 2 ++ toBytes choice 1 ++ toBytes 0 5
    rplTaken { s with mem := memPutBytes s.mem (rplBase s + head) b } arb

/-- The entry of an arbiter's decision in the log from an address on: mask and choice. An entry whose mask is 0 ends the log. -/
def rplFind (s : State) (arb n : Nat) : Nat → Nat → Option (Nat × Nat)
  | 0, _ => none
  | k + 1, a =>
    let m := memNat s (a + 8) 2
    if m = 0 then none
    else if memNat s a 2 = arb && memNat s (a + 2) 6 = n then some (m, memNat s (a + 10) 1)
    else rplFind s arb n k (a + 16)

/-- The entry of an arbiter's next decision (R425): one that was not contested has none. -/
def rplEntry (s : State) (arb : Nat) : Option (Nat × Nat) := rplFind s arb (spGet 0 s.rpl.seqs arb) (rplSize s / 16) (rplBase s)

/-- Whether a decision is logged (R424): two or more candidates meet, or a combining entry takes a contribution. -/
def rplMeets (arb mask : Nat) : Bool := arb / 4096 == 3 || 2 ≤ ((upTo 16).filter (bit mask)).length

/-- Whether the log was full when the recording ended: what has no entry was then not recorded. -/
def rplFull (s : State) : Bool := memNat s (rplBase s + (rplSize s / 16 - 1) * 16 + 8) 2 != 0

/-- An arbiter waits: since when, the mask expected, the mask seen. -/
def rplWait (s : State) (arb want seen : Nat) : State :=
  let t := match s.rpl.waiting.find? fun x => x.1 == arb with | some (_, t, _, _) => t | none => s.now
  { s with rpl := { s.rpl with waiting := (arb, t, want, seen) :: s.rpl.waiting.filter fun x => x.1 != arb } }

/-- An arbiter sees what its log entry names, and waits no longer. -/
def rplSeen (s : State) (arb : Nat) : State := { s with rpl := { s.rpl with waiting := s.rpl.waiting.filter fun x => x.1 != arb } }

/-- Whether an arbiter serving an ASID may take an input among candidates: recording logs the choice where it is one; on replay it waits for
the logged mask and then grants the logged input; a decision that would have been logged and has no entry waits for its WINDOW too (R425).
A combining entry sees the candidates that its log entry names (log 28). An arbiter's number is 4096·class and the instance: a core, 16·core
and engine, a group, a core or port, a gang or queue. -/
def rplGate (s : State) (asid arb mask mine : Nat) : Bool × State :=
  if rplAsid s != asid || s.rpl.parted then (true, s)
  else if rplMode s = 1 then (true, if rplMeets arb mask then rplLog s arb mask mine else rplCount s arb)
  else if rplMode s != 2 then (true, s)
  else match rplEntry s arb with
    | none => if rplMeets arb mask && !rplFull s then (false, rplWait s arb 0 mask) else (true, rplCount s arb)
    | some (m, c) =>
      let seen := if arb / 4096 = 3 then mask &&& m else mask
      if seen = m then (if mine = c then (true, rplTaken s arb) else (false, rplSeen s arb))
      else (false, rplWait s arb m mask)

/-- With the log off, an arbiter takes what comes. -/
theorem rplGate_off (s : State) (asid arb mask mine : Nat) (h : rplMode s = 0) : rplGate s asid arb mask mine = (true, s) := by
  simp [rplGate, h]

end Sys2Proof.Machine
end

