-- ==== Sys2Proof/Machine/Hub.lean ====
section
/-! DEFINITION. Machine/Hub: sending through the hub (spec/21, R370 to R383): lanes, routes, hop budget, flits, credits; packets for
this package loop back to its own list of arrivals. -/

namespace Sys2Proof.Machine

/-- This package's fabric number (R371). -/
def pkgNo (s : State) : Nat := bits (barRd s 0x00030000).toNat 13 0

/-- Changes the hub. -/
def modHub (s : State) (f : Hub → Hub) : State := { s with hub := f s.hub }

/-- The HLTH_SUM bit of a hub counter (R442): DROP_*, link counters, PARK_DROP. -/
def healthOf (k : Nat) : Option Nat :=
  if k ≥ 2000 then (if k ≤ 2007 then some 4 else none) else if k % 8 ≤ 3 then some 6 else if k % 8 = 6 then some 3 else none

/-- Adds to a saturating hub counter (R392); its rise shows in HLTH_SUM (R442). -/
def hubCount (s : State) (k n : Nat) : State :=
  if spGet 0 s.hub.cnt k = 2 ^ 64 - 1 then s else
  let s := modHub s fun h => { h with cnt := spMod 0 h.cnt k fun x => min (x + n) (2 ^ 64 - 1) }
  match healthOf k with | some b => setHealth s b | none => s

/-- The lane of a virtual address (R117): the XOR of the nine 4-bit groups of bits 42:7. -/
def laneOf (va : Nat) : Nat := (upTo 9).foldl (fun x i => x ^^^ bits va (4 * i + 10) (4 * i + 7)) 0

/-- A device time of `n` nanoseconds. -/
def nsDev (n : Nat) : Nat := n * 19000000

/-! ## Packets as bytes -/

/-- Whether an operation carries no data, so that LEN reads 0 and a read's size stands in AUX (log 21). -/
def noData (op : Nat) : Bool := op == 0x02 || op == 0x07 || op == 0x20 || op == 0x24

/-- Whether a write names by a mask which of its bytes it writes (R118, log 21): AUX[0] is set, and its data begin with the mask. -/
def masked (op aux : Nat) : Bool := op == 0x01 && bit aux 0

/-- The data of a packet, as LEN counts them: those of a combining packet begin with 16 bytes for its contributor index, contributor count and
length, those of a masked write with 16 bytes for the mask (log 21). -/
def packData (p : Packet) : List Byte :=
  (if p.op = 0x06 then toBytes (p.pre.getD 0 0) 4 ++ toBytes (p.pre.getD 1 0) 4 ++ toBytes (p.pre.getD 2 0) 4 ++ toBytes 0 4
   else if masked p.op p.aux then toBytes (p.pre.getD 0 0) 16 else []) ++
  p.data

/-- The header of R379 as a 192-bit number. -/
def packHeader (p : Packet) : Nat :=
  p.dpkg * 2 ^ 178 + p.spkg * 2 ^ 164 + p.lane * 2 ^ 160 + p.hop * 2 ^ 157 + (if p.rsp then 2 ^ 156 else 0) + p.op * 2 ^ 150 +
  ((packData p).length - 1) % 4096 * 2 ^ 138 + p.key * 2 ^ 106 + p.addr * 2 ^ 50 + p.tag * 2 ^ 34 + p.ggen * 2 ^ 26 + p.aux

/-- A packet as bytes. -/
def packBytes (p : Packet) : List Byte := toBytes (packHeader p) 24 ++ packData p

/-- A packet from its bytes. -/
def unpackPacket (b : List Byte) : Packet :=
  let h := leNat (b.take 24)
  let op := bits h 155 150
  let red := op == 0x06
  let msk := masked op (bits h 25 0)
  let k := if red || msk then 16 else 0
  let n := bits h 149 138 + 1 - k
  { dpkg := bits h 191 178, spkg := bits h 177 164, lane := bits h 163 160, hop := bits h 159 157, rsp := bit h 156, op := op,
    len := if op = 0x02 then bits h 25 0 + 1 else n,
    key := bits h 137 106, addr := bits h 105 50, tag := bits h 49 34, ggen := bits h 33 26, aux := bits h 25 0,
    pre := if red then [leNat (slice b 24 4), leNat (slice b 28 4), leNat (slice b 32 4)] else if msk then [leNat (slice b 24 16)] else [],
    data := if noData op then [] else slice b (24 + k) n, port := 999 }

/-- Bytes a packet has in all, from its first flit's bytes. -/
def packetSize (b : List Byte) : Nat :=
  let h := leNat (b.take 24)
  let op := bits h 155 150
  24 + (if noData op then 0 else bits h 149 138 + 1)

/-- Flits a packet takes (R379). -/
def flitCount (p : Packet) : Nat := ((packBytes p).length + 235) / 236

/-- A packet's flits on a virtual channel: a START flit, then CONT flits of 236 bytes (R375, R379). -/
def flitsOf (vc num : Nat) : Nat → Bool → List Byte → List Flit
  | 0, _, _ => []
  | k + 1, first, b =>
    let p := b.take 236
    ⟨0, 0, vc, 0, 0, 0, if first then 1 else 2, p ++ List.replicate (236 - p.length) 0, num⟩ ::
      (if b.length ≤ 236 then [] else flitsOf vc num k false (b.drop 236))

/-! ## Trunks -/

/-- A trunk never configured: DOWN, full credits (R376). -/
def Trunk.reset : Trunk :=
  { state := 0, nrz := false, lanes := [], peer := 0, aimNrz := false, since := 0, txSeq := 0, txAck := 4095, outst := [], waitq := [],
    credD := (upTo 10).map fun v => (v, 2), credS := 512, heldS := [], rxExp := 0, replay := none, asm := [], owe := [], wire := [], asked := (0, 0), kept := [], buf := [], corr := [] }

def trunkAt (s : State) (n : Nat) : Trunk := spGet .reset s.hub.trunks n

def modTrunk (s : State) (n : Nat) (f : Trunk → Trunk) : State :=
  modHub s fun h => { h with trunks := spSet h.trunks n (f (spGet .reset h.trunks n)) }

/-- Whether flits flow: UP, PROBATION, NRZ (R378). -/
def Trunk.flows (t : Trunk) : Bool := t.state == 1 || t.state == 3 || t.state == 4

/-- Puts a sequenced flit on the lanes: next SEQ, the ACK, and credits owed (R374, R375). -/
def Trunk.emit (t : Trunk) (f : Flit) : Trunk :=
  let (ch, n) := t.owe.headD (0, 0)
  let f := { f with seq := t.txSeq, ack := (t.rxExp + 4095) % 4096, crcnt := n, crch := ch }
  { t with txSeq := (t.txSeq + 1) % 4096, outst := t.outst ++ [f], wire := f :: t.wire, owe := t.owe.drop 1 }

/-- Takes a credit for a flit (R376): a shared one while fewer than 256 flits of its VC hold one, else a dedicated one. -/
def Trunk.credit (t : Trunk) (vc : Nat) : Option (Nat × Trunk) :=
  if t.credS > 0 && spGet 0 t.heldS vc < 256 then some (1, { t with credS := t.credS - 1, heldS := spMod 0 t.heldS vc (· + 1) })
  else if spGet 0 t.credD vc > 0 then some (0, { t with credD := spMod 0 t.credD vc (· - 1) })
  else none

/-- Sends waiting flits in order; a VC that finds no credit blocks its later flits only (R376). Says how many waited. -/
def Trunk.pumpList : List Flit → List Nat → Trunk → Trunk × List Flit
  | [], _, t => (t, [])
  | f :: l, stuck, t =>
    if stuck.contains f.vc || t.outst.length ≥ 2048 then let (t, r) := Trunk.pumpList l (f.vc :: stuck) t; (t, f :: r)
    else match t.credit f.vc with
      | some (k, t) => Trunk.pumpList l stuck (t.emit { f with csrc := k })
      | none => let (t, r) := Trunk.pumpList l (f.vc :: stuck) t; (t, f :: r)

/-- Sends what a trunk can send; credits owed go out in an IDLE flit when nothing else carries them (R375). -/
def Trunk.pump (t : Trunk) : Trunk :=
  if !t.flows then t else
  let (t, rest) := Trunk.pumpList t.waitq [] t
  let t := { t with waitq := rest }
  if t.owe.isEmpty || t.outst.length ≥ 2048 then t else t.emit ⟨0, 0, 0, 0, 0, 0, 0, List.replicate 236 0, 0⟩

/-! ## Routes -/

/-- A routing entry as the hub holds it (R381): next hops; none where it is not valid. -/
def routeHops (s : State) (d : Nat) : Option (Nat × List Nat) :=
  let w := (spGet 0 s.hub.routes d).toNat
  let dist := bits w 60 58
  if bit w 63 && 1 ≤ dist && dist ≤ 4 then some (dist, (upTo (bits w 62 61 + 1)).map fun k => bits w (8 * k + 7) (8 * k)) else none

/-- What routing a packet comes to. -/
inductive Routed where
  | sent (s : State)
  | noRoute
  | hops

/-- Sends a packet on a trunk (R381, R383). -/
def routeOut (s : State) (p : Packet) : Routed :=
  match routeHops s p.dpkg with
  | none => .noRoute
  | some (dist, hs) =>
    if p.hop ≥ 4 || (p.spkg == pkgNo s && !p.rsp && p.hop + dist > 4) then .hops else
    match hs.filter fun t => (trunkAt s t).state != 0 with
    | [] => .noRoute
    | t0 :: l =>
      let n := (t0 :: l).getD (p.lane % (l.length + 1)) t0
      let vc := if p.op = 0x30 then 9 else (if p.rsp then 4 else 0) + p.hop
      .sent (modTrunk s n fun t => ({ t with waitq := t.waitq ++ flitsOf vc p.num 20 true (packBytes p) }).pump)

/-- The response to a packet: same lane, back to its source with HOP 0 (R380, R383). -/
def respond (s : State) (p : Packet) (op aux : Nat) (data : List Byte) : Packet :=
  { dpkg := p.spkg, spkg := pkgNo s, lane := p.lane, hop := 0, rsp := true, op := op, len := data.length, key := 0, addr := p.addr, tag := p.tag,
    ggen := p.ggen, aux := aux, pre := [], data := data, port := 999 }

/-- A NACK with a status code, and in AUX[15:8] the cause a versioned access reports (R380, R125, log 21). -/
def nackOf (s : State) (p : Packet) (code cause : Nat) : Packet := respond s p 0x24 (code + 256 * cause) []

/-- Delivers a packet: to this package's arrivals, to the hold of a changed route, or on a trunk (R381, R382). -/
def deliver (s : State) (p : Packet) : Routed :=
  if p.dpkg = pkgNo s then .sent (modHub s fun h => { h with rx := h.rx ++ [p] })
  else match s.hub.holds.find? fun x => x.1 == p.dpkg with
    | none => routeOut s p
    | some (_, t, l) =>
      -- one that comes once FAB_MAXLAT has passed uses the new entry, behind those held
      if s.dev < t || !l.isEmpty then
        let s := modHub s fun h => { h with holds := h.holds.map fun (d, t, l) => if d = p.dpkg then (d, t, l ++ [p]) else (d, t, l) }
        .sent (if s.dev < t then hubCount s 2009 1 else s)
      else routeOut s p

/-- Sends a response: one that finds no way is dropped and counted (R381, R383). -/
def sendRsp (s : State) (p : Packet) : State :=
  match deliver s p with
  | .sent s => s
  | .noRoute => hubCount s 2001 1
  | .hops => hubCount s 2002 1

/-- Sends any packet: a request that finds no route is answered NACK TRANSLATION, one past its hop budget NACK HOP_BUDGET. -/
def hubSend (s : State) (p : Packet) : State :=
  if p.rsp then sendRsp s p else
  match deliver s p with
  | .sent s => s
  | .noRoute => sendRsp (hubCount s 2001 1) (nackOf s p 0x03 0)
  | .hops => sendRsp s (nackOf s p 0x07 0)

/-- Whether what waits at a port carries a tag. -/
def PortLoad.carries (t : Nat) : PortLoad → Bool
  | .packets l => l.any fun p => p.tag == t
  | _ => false

/-- Something of a core waits at the port of its quad for some flits (R14). -/
def portPut (s : State) (cn flits : Nat) (x : PortLoad) : State :=
  modHub s fun h => { h with ports := spMod .reset h.ports (cn / 4) fun q => { q with wait := q.wait ++ [(cn % 4, flits, x)] } }

/-- Packets of a core wait at the port of its quad, port 144 + die·12 + quad, and reach the hub directly after each other (R11, R14, R106). -/
def coreSends (s : State) (cn : Nat) (l : List Packet) : State :=
  portPut s cn ((l.map flitCount).sum) (.packets (l.map fun p => { p with port := 144 + cn / 4 }))

/-- One packet of a core. -/
def coreSend (s : State) (cn : Nat) (p : Packet) : State := coreSends s cn [p]

/-- Whether a physical address lies in a stack of another die than a core's (R12). -/
def farStack (s : State) (cn pa : Nat) : Bool := stackOf s pa / 2 != dieOf cn

/-- The lines of a core's read of HBM that lie in stacks of other dies take a flit each of its quad's port (R12, R14, log 79). -/
def portReads (s : State) (cn pa n : Nat) : State :=
  if n = 0 then s else
  match ((upTo ((pa + n - 1) / 128 + 1 - pa / 128)).filter fun i => farStack s cn (128 * (pa / 128 + i))).length with
  | 0 => s
  | k => portPut s cn k .read

/-- The first tag from `t` on that no request awaits; 0 is the tag of packets that await nothing. -/
def freeTag (pend : Sp Pend) : Nat → Nat → Nat
  | 0, t => t
  | k + 1, t => if (spFind pend t).isSome then freeTag pend k (t % 65535 + 1) else t

/-- A new tag (R379), and what its reply completes. -/
def newTag (s : State) (p : Pend) : Nat × State :=
  let t := freeTag s.hub.pend s.hub.pend.length s.hub.nextTag
  (t, modHub s fun h => { h with nextTag := t % 65535 + 1, pend := spSet h.pend t p })

/-- A request through a window (R363, R379): HANDLE and COUNTER windows carry the target core, handle and its GEN in AUX[25:6],
and AUX[5] is set for a HANDLE window (log 21); GGEN is 1 where the window is dead to arrivals (R361). `va` gives the lane, `o` the offset within the window. -/
def winRequest (s : State) (w : List Nat) (va o op aux len tag : Nat) (data : List Byte) : Packet :=
  let place := if winTgt w = 0 then 0 else winCore w * 2 ^ 18 + winHnd w * 2 ^ 10 + winHgen w * 2 ^ 6 + (if winTgt w = 1 then 32 else 0)
  { dpkg := winPkg w, spkg := pkgNo s, lane := laneOf va, hop := 0, rsp := false, op := op, len := len, key := winKey w,
    addr := (if winTgt w = 0 then winRoff w + o else o) % 2 ^ 56, tag := tag, ggen := w.getD 4 0, aux := place + aux, pre := [], data := data, port := 999 }

/-! ## The combining buffer (R118) -/

/-- Bytes of an entry. -/
def CombEntry.bytes (e : CombEntry) : Nat := ((upTo 128).filter fun i => e.mask.getLsbD i).length

/-- The kind of page that an HBM window of this package reaches, where its tables say so; 0 otherwise. -/
def remoteKind (s : State) (w : List Nat) (o : Nat) : Nat :=
  if winPkg w != pkgNo s then 0 else
  match keyCheck s (winKey w) 0 0 (winRoff w + o) 1 with
  | none => 0
  | some (a, va) => match xlat s 0 a va with
    | .loc _ k _ _ _ _ => k
    | _ => 0

/-- The kind of page behind a window, as orders an access (R113): of another package's page it is a free value (log 77). -/
def winKind (s : State) (w : List Nat) (o : Nat) : Nat :=
  if winTgt w != 0 then 0 else if winPkg w = pkgNo s then remoteKind s w o
  else (Config.farKind (winPkg w) (winKey w) ((winRoff w + o) / 2 ^ 18)).toNat

/-- Whether an entry's target lies on this package. -/
def combLocal (s : State) (e : CombEntry) : Bool := winPkg e.w == pkgNo s

/-- Whether an entry's page is STRONG (R113). -/
def combStrong (s : State) (e : CombEntry) : Bool := winKind s e.w (128 * e.line - winBase e.w) == kSTRONG

/-- Adds to PBC.BYTES of a core (R107). -/
def addPbc (s : State) (cn n : Nat) : State := modCore s cn fun c => { c with r := { c.r with pbc := (c.r.pbc + n) % 2 ^ 56 } }

/-- In place of a token, of what counts in PBC without being a write of a command: a landing add. -/
def landTok : Nat := 16

/-- A landing add as a CTR packet on the lane of the write it counts (R275, R380): KIND 00 a counter of the window's core, with the
write's own key; KIND 01 through its COUNTER window. -/
def landPacket (s : State) (cn asid : Nat) (w : List Nat) (land : Word) (lane bytes : Nat) : Option Packet :=
  if bits land.toNat 63 62 = 0 then
    some { (winRequest s w 0 (8 * bits land.toNat 8 0) 0x04 5 8 0 (toBytes bytes 8)) with lane := lane }
  else if bits land.toNat 63 62 = 1 then
    match xlat s cn asid (bits land.toNat 55 0) with
    | .win _ lw o _ => some { (winRequest s lw 0 o 0x04 5 8 0 (toBytes bytes 8)) with lane := lane }
    | _ => none
  else none

/-- The landing add of a write that leaves core `cn` (R106, R380): a counter add to another place than the core's own file, which counts 8
bytes until acknowledged (R107). -/
def landSent (s : State) (cn : Nat) (w : List Nat) (land : Word) (lane bytes : Nat) : List Packet × State :=
  match landPacket s cn (asidOf (coreAt s cn)) w land lane bytes with
  | none => ([], s)
  | some p =>
    let (t, s) := newTag s ⟨1, cn, 0, 8, none⟩
    ([{ p with tag := t }], modCore (addPbc s cn 8) cn fun c =>
      { c with f := { c.f with unacked := c.f.unacked ++ [⟨t, 8, p.dpkg != pkgNo s, some landTok, false, false, false⟩] } })

/-- A write through a window leaves the core (R107, R117): a WR packet with a tag, and the landing add of `lb` directly after it. `n` is
the number of bytes it writes, `mask` which, where not all; `eng` is the token of the engine command that makes it. -/
def sendWrite (s : State) (cn : Nat) (w : List Nat) (va o : Nat) (b : List Byte) (n : Nat) (mask : Option Nat) (land : Option Word) (lb : Nat)
    (eng : Option Nat) : State :=
  let (t, s) := newTag s ⟨1, cn, 0, n, none⟩
  let s := addPbc s cn n
  let u : Unacked := ⟨t, n, winPkg w != pkgNo s, eng, winKind s w o == kSTRONG, false, false⟩
  let s := modCore s cn fun c => { c with f := { c.f with unacked := c.f.unacked ++ [u] } }
  let p := winRequest s w va o 0x01 (if mask.isSome then 1 else 0) b.length t b
  let (add, s) := match land with | some l => landSent s cn w l p.lane lb | none => ([], s)
  coreSends s cn ({ p with pre := mask.toList } :: add)

/-- Flushes one entry: its line leaves as one write, from its first written byte to its last (R118). -/
def sendEntry (s : State) (cn : Nat) (e : CombEntry) : State :=
  match (upTo 128).find? e.mask.getLsbD with
  | none => s
  | some lo =>
    let len := (Nat.log2 e.mask.toNat) + 1 - lo
    let m := e.mask.toNat / 2 ^ lo
    let va := 128 * e.line + lo
    sendWrite s cn e.w va (va - winBase e.w) (toBytes (e.data.toNat / 2 ^ (8 * lo)) len) e.bytes
      (if m = 2 ^ len - 1 then none else some m) e.land e.bytes none

/-- Flushes the entries of a core that a condition names (R118). -/
def flushComb (s : State) (cn : Nat) (sel : CombEntry → Bool) : State :=
  let l := (coreAt s cn).f.comb
  let s := modCore s cn fun c => { c with f := { c.f with comb := l.filter fun e => !sel e } }
  (l.filter sel).foldl (fun s e => sendEntry s cn e) s

/-- Puts bytes of a store through a window into the combining buffer (R118, R275): an entry of another landing counter, or of a window
that reads otherwise, is flushed first; with 64 entries live, the oldest leaves. `b` lies within one line. -/
def combPut (s : State) (cn win : Nat) (w : List Nat) (va : Nat) (b : List Byte) (land : Option Word) : State :=
  let line := va / 128
  let s := flushComb s cn fun e => e.line == line && (e.land != land || e.win != win || e.w != w)
  let c := coreAt s cn
  let s := if c.f.comb.any (fun e => e.line == line) || c.f.comb.length < 64 then s
    else
      let o := (c.f.comb.map CombEntry.ord).foldl min ((c.f.comb.map CombEntry.ord).headD 0)
      flushComb s cn fun e => e.ord == o
  let o := va % 128
  let m : BitVec 128 := BitVec.ofNat 128 ((2 ^ b.length - 1) * 2 ^ o)
  modCore s cn fun c =>
    match findIdxOf (fun e => e.line == line) c.f.comb with
    | some (i, e) =>
      let e := { e with mask := e.mask ||| m, data := setBits e.data (8 * o) (8 * b.length) (BitVec.ofNat 1024 (leNat b)), last := s.now }
      { c with f := { c.f with comb := setAt c.f.comb i e } }
    | none =>
      let ord := (c.f.comb.map CombEntry.ord).foldl max 0 + 1
      let e : CombEntry := ⟨line, win, w, m, setBits 0 (8 * o) (8 * b.length) (BitVec.ofNat 1024 (leNat b)), land, s.now, ord, false⟩
      { c with f := { c.f with comb := c.f.comb ++ [e] } }

/-- Splits bytes at line ends. -/
def byLines : Nat → Nat → List Byte → List (Nat × List Byte)
  | 0, _, _ => []
  | k + 1, va, b =>
    if b.isEmpty then [] else
    let n := 128 - va % 128
    (va, b.take n) :: byLines k (va + n) (b.drop n)

/-- A store of bytes through a window into the combining buffer. -/
def combStore (s : State) (cn win : Nat) (w : List Nat) (va : Nat) (b : List Byte) (land : Option Word) : State :=
  (byLines (b.length / 128 + 2) va b).foldl (fun s (a, x) => combPut s cn win w a x land) s

/-! ## The port of a quad (R14) -/

/-- Whether a core's drain port has a row to send. -/
def drainWaits (c : Core) : Bool := c.f.drainq.any fun r => !r.sent

/-- The quad's port takes a flit of the next row of a core's drain queue; with the last one the row is on its way, and its landing add
directly behind it (R243). -/
def sendDrainFlit (s : State) (cn : Nat) : State :=
  let c := coreAt s cn
  match findIdxOf (fun (r : DrainRow) => !r.sent) c.f.drainq with
  | none => s
  | some (i, r) =>
    let put := fun (s : State) (r : DrainRow) => modCore s cn fun c => { c with f := { c.f with drainq := setAt c.f.drainq i r } }
    if r.left > 1 then put s { r with left := r.left - 1 } else
    let (t, s) := newTag s ⟨3, cn, 0, r.bytes.length, none⟩
    let s := put (addPbc s cn r.bytes.length) { r with left := 0, sent := true, tag := t }
    let p := { winRequest s r.win (winBase r.win + r.off) r.off 0x01 0 r.bytes.length t r.bytes with port := 144 + cn / 4 }
    let s := hubSend s p
    let (l, s) := landSent s cn r.win (BitVec.ofNat 64 r.lct) p.lane r.bytes.length
    l.foldl (fun s q => hubSend s { q with port := 144 + cn / 4 }) s

/-- What has had its last flit taken by the port goes on: packets into the hub, an access or a piece to its stack (R12, R14). -/
def portOut (s : State) (cn : Nat) : PortLoad → State
  | .packets l => l.foldl hubSend s
  | .access q va => modCore s cn fun c => { c with f := { c.f with gq := c.f.gq.map fun g => if g.seq = q && g.va.toNat == va && g.hub == 1 then { g with hub := 2 } else g } }
  | .piece id a => modCore s cn fun c => { c with f := { c.f with cmds := c.f.cmds.map fun x =>
      if x.id = id then { x with pieces := x.pieces.map fun p => if p.isVa && p.at_ / 128 == a / 128 && p.hub == 1 then { p with hub := 2 } else p } else x } }
  | .read => s

/-- A grant of a quad's port: the next core in turn that has a flit; its drain port and its other traffic take turns (log 79). -/
def portGrant (s : State) (qd : Nat) : State :=
  let q := spGet .reset s.hub.ports qd
  let mine := fun (k : Nat) => findIdxOf (fun (x : Nat × Nat × PortLoad) => x.1 == k) q.wait
  let drains := fun (k : Nat) => drainWaits (coreAt s (4 * qd + k))
  match ((upTo 4).map fun i => (q.last + 1 + i) % 4).find? fun k => (mine k).isSome || drains k with
  | none => s
  | some k =>
    let put := fun (w : List (Nat × Nat × PortLoad)) (d : Bool) => modHub s fun h =>
      { h with ports := spSet h.ports qd { wait := w, last := k, drn := if bit q.drn k == d then q.drn else if d then q.drn + 2 ^ k else q.drn - 2 ^ k } }
    match mine k with
    | some (i, _, n, p) =>
      if drains k && !bit q.drn k then sendDrainFlit (put q.wait true) (4 * qd + k)
      else if n ≤ 1 then portOut (put (q.wait.eraseIdx i) false) (4 * qd + k) p
      else put (setAt q.wait i (k, n - 1, p)) false
    | none => sendDrainFlit (put q.wait true) (4 * qd + k)

/-- A cycle of the quads' ports: four flits each, of R17's 2.0 TB/s (log 79). -/
def portTick (s : State) : State :=
  let busy := fun (qd : Nat) => !(spGet QPort.reset s.hub.ports qd).wait.isEmpty || (upTo 4).any fun k => drainWaits (coreAt s (4 * qd + k))
  ((upTo 48).filter busy).foldl (fun s qd => (upTo 4).foldl (fun s _ => portGrant s qd) s) s

end Sys2Proof.Machine
end

