-- ==== Sys2Proof/Machine/Special.lean ====
section
/-! DEFINITION. Machine/Special: the six special functions of the vector units (R251). Each is enclosed between two exact
fixed-point bounds at 512 fraction bits; where both bounds round alike, that is the correctly rounded result; where they do
not, the choice is a free value (log 12). -/

namespace Sys2Proof.Machine

/-- Fraction bits of the enclosures. -/
def spP : Nat := 512

def spOne : Nat := 2 ^ spP

/-- Partial sums of Σ t^n / n! in fixed point, `t` below one. -/
def expSum (t : Nat) : Nat → Nat → Nat → Nat → Nat
  | 0, _, _, acc => acc
  | f + 1, n, term, acc =>
    let term' := term * t / spOne / n
    expSum t f (n + 1) term' (acc + term')

/-- A lower bound of e^t at 512 bits; the true value lies less than 2^12 units above it. -/
def expLo (t : Nat) : Nat := expSum t 120 1 spOne spOne

/-- Partial sums of Σ u^(2n+1) / (2n+1). -/
def atanhSum (u2 : Nat) : Nat → Nat → Nat → Nat → Nat
  | 0, _, _, acc => acc
  | f + 1, k, pow, acc => atanhSum u2 f (k + 2) (pow * u2 / spOne) (acc + pow / k)

/-- A lower bound of ln((1+u)/(1−u)) for u at most 1/3; the true value lies less than 2^12 units above it. -/
def lnRatioLo (u : Nat) : Nat := 2 * atanhSum (u * u / spOne) 180 1 u 0

/-- A lower bound of ln 2, less than 2^12 units below it. -/
def ln2Lo : Nat := lnRatioLo (spOne / 3)

/-- Units by which a bound may fall short. -/
def spErr : Nat := 2 ^ 14

/-- Rounds both ends of an enclosure, each a magnitude in units of 2^e, to nearest-even; a free value decides where they
part (log 12). -/
def spRound (f : FpFmt) (fn x : Nat) (neg : Bool) (lo hi : Nat) (e : Int) : Nat :=
  let a := (roundMag f .ne neg lo e true 0).pat
  let b := (roundMag f .ne neg hi e true 0).pat
  signed f neg (if a = b then a else if Config.undecidedRound fn (f.ebits * 64 + f.fbits) x then b else a)

/-- 2^y for y = k + t/2^512 with 0 ≤ t < 2^512: bounds in units of 2^(k − 512). -/
def exp2Frac (t : Nat) : Nat × Nat :=
  let lo := t * ln2Lo / spOne
  let hi := t * (ln2Lo + spErr) / spOne + 1
  (expLo lo, expLo hi + spErr)

/-- Bounds of e^(−z), z = m · 2^e ≥ 0 and below 2^12: (lo, hi, k) in units of 2^(k − 512). -/
def expNeg (m : Nat) (e : Int) : Nat × Nat × Int :=
  -- z / ln 2 in fixed point, bounded from both sides
  let z := shiftI m (e + spP)
  let yhi := (z + 1) * spOne / ln2Lo + 1
  let ylo := z * spOne / (ln2Lo + spErr)
  -- −y = −(k+1) + t
  let khi := yhi / spOne + 1
  let thi := khi * spOne - yhi
  let klo := ylo / spOne + 1
  let tlo := klo * spOne - ylo
  let lo := (exp2Frac thi).1
  let hi := if tlo = spOne then (exp2Frac (spOne - 1)).2 + spErr else (exp2Frac tlo).2
  -- to the lower of the two exponents
  (lo, hi * 2 ^ (khi - klo), -(khi : Int))

/-- 2^x. -/
def spExp2 (f : FpFmt) (x : Nat) : Nat :=
  match fpRead f x with
  | .nan => nanPat f 1
  | .inf n => if n then 0 else infPat f false
  | .fin n m e =>
    if m = 0 then (fpWrite f .ne 0 (.fin false 1 0 false)).pat
    else if flog2 m e ≥ 12 then (if n then 0 else infPat f false)
    else if 0 ≤ e || m % 2 ^ (-e).toNat = 0 then
      let k : Int := (shiftI m e : Nat)
      (fpWrite f .ne 0 (.fin false 1 (if n then -k else k) false)).pat
    else
      let v := shiftI m (e + spP)
      let k : Int := if n then -((v / spOne + 1 : Nat) : Int) else (v / spOne : Nat)
      let t := if n then (v / spOne + 1) * spOne - v else v % spOne
      let (lo, hi) := exp2Frac t
      spRound f 15 x false lo hi (k - spP)

/-- log2 x. -/
def spLog2 (f : FpFmt) (x : Nat) : Nat :=
  match fpRead f x with
  | .nan => nanPat f 1
  | .inf n => if n then nanPat f 5 else infPat f false
  | .fin n m e =>
    if m = 0 then infPat f true
    else if n then nanPat f 5
    else
      let k := flog2 m e
      if m = 2 ^ m.log2 then (fpWrite f .ne 0 (.fin (decide (k < 0)) k.natAbs 0 false)).pat
      else
        -- x = 2^k · (1 + r); ln(1 + r) from u = r / (2 + r)
        let b := 2 ^ m.log2
        let u := (m - b) * spOne / (m + b)
        let l := lnRatioLo u
        let lo := l * spOne / (ln2Lo + spErr)
        let hi := (l + spErr) * spOne / ln2Lo + 1
        if 0 ≤ k then spRound f 16 x false (k.toNat * spOne + lo) (k.toNat * spOne + hi) (-(spP : Int))
        else
          let c := (-k).toNat * spOne
          spRound f 16 x true (c - hi) (c - lo) (-(spP : Int))

/-- 1/x. -/
def spRcp (f : FpFmt) (x : Nat) : Nat :=
  match fpRead f x with
  | .nan => nanPat f 1
  | .inf n => signed f n 0
  | .fin n m e => if m = 0 then infPat f n else
      (fpWrite f .ne 0 (.fin n (2 ^ 200 / m) (-200 - e) (2 ^ 200 % m != 0))).pat

/-- 1/√x. -/
def spRsq (f : FpFmt) (x : Nat) : Nat :=
  match fpRead f x with
  | .nan => nanPat f 1
  | .inf n => if n then nanPat f 5 else 0
  | .fin n m e => if m = 0 then infPat f n else if n then nanPat f 5 else
      let sh : Nat := if e % 2 = 0 then 400 else 401
      -- √(2^sh / m) · 2^((−e − sh) / 2), with a rest when either step leaves one
      let v := 2 ^ sh / m
      let r := isqrt v
      (fpWrite f .ne 0 (.fin false r ((-e - sh) / 2) (r * r != v || 2 ^ sh % m != 0))).pat

/-- tanh x = (1 − e^(−2x)) / (1 + e^(−2x)). -/
def spTanh (f : FpFmt) (x : Nat) : Nat :=
  match fpRead f x with
  | .nan => nanPat f 1
  | .inf n => (fpWrite f .ne 0 (.fin n 1 0 false)).pat
  | .fin n m e =>
    if m = 0 then x
    else if flog2 m e ≥ 9 then spRound f 19 x n (spOne - 1) spOne (-(spP : Int))
    else
      let (lo, hi, k) := expNeg m (e + 1)
      let el := shiftI lo k
      let eh := shiftI hi k + 1
      spRound f 19 x n ((spOne - eh) * spOne / (spOne + eh)) ((spOne - el) * spOne / (spOne + el) + 1) (-(spP : Int))

/-- x / (1 + e^(−x)). -/
def spSilu (f : FpFmt) (x : Nat) : Nat :=
  match fpRead f x with
  | .nan => nanPat f 1
  | .inf n => if n then signed f true 0 else infPat f false
  | .fin n m e =>
    if m = 0 then x
    else if flog2 m e ≥ 11 then (if n then signed f true 0 else spRound f 20 x false (m * spOne - m) (m * spOne) (e - spP))
    else
      let (lo, hi, k) := expNeg m e
      let el := shiftI lo k
      let eh := shiftI hi k + 1
      if n then
        -- −z · E / (1 + E), keeping the scale of E
        spRound f 20 x true (m * lo * spOne / (spOne + eh)) (m * hi * spOne / (spOne + el) + 1) (e + k - spP)
      else
        spRound f 20 x false (m * spOne * spOne / (spOne + eh)) (m * spOne * spOne / (spOne + el) + 1) (e - spP)

end Sys2Proof.Machine
end

