-- ==== Sys2Proof/Machine/Vector.lean ====
section
/-! DEFINITION. Machine/Vector: the vector slots V0 and V1 (spec/13, R246 to R255). Every meaning reads its lanes before the bundle,
occupies its unit for two active cycles (R305, R307) and puts its row on its way at the latency of R305. -/

namespace Sys2Proof.Machine




/-- Lane width of a form. -/
def vW (w : Nat) : Nat := if w = 1 then 16 else 32

/-- The floating format of a form's lanes (R248). -/
def vFmt (w t : Nat) : FpFmt := if w = 1 then (if t = 1 then fp16 else bf16) else fp32

/-- The lanes of an operand. -/
def vLanes (s : State) (w v : Nat) : List Nat := viewLanes (here s) (w == 1) v

/-- Marks a unit taken until an active cycle (R305, R307). -/
def occupy (s : State) (dflt n : Nat) : State :=
  wr s fun c => { c with f := { c.f with busy := spSet c.f.busy (slotNow s dflt) (c.q.act + n) } }

/-- The result row of a V operation. -/
def vPut (s : State) (lat d : Nat) (x : BitVec 4096) : State := occupy (putLate s lat (.vop d x)) 4 2

/-- A lane-by-lane form with two sources. -/
def vBin (lat : Nat) (f : Nat → Nat → Nat) (p w d a b : Nat) (s : State) : State :=
  guarded s p fun s => vPut s lat d (packLanes (vW w) (List.zipWith f (vLanes s w a) (vLanes s w b)))

/-- A lane-by-lane form with one source. -/
def vUn (lat : Nat) (f : Nat → Nat) (p w d a : Nat) (s : State) : State :=
  guarded s p fun s => vPut s lat d (packLanes (vW w) ((vLanes s w a).map f))

/-- A lane-by-lane form that reads d, a and b. -/
def vTri (lat : Nat) (f : Nat → Nat → Nat → Nat) (p w d a b : Nat) (s : State) : State :=
  guarded s p fun s =>
    vPut s lat d (packLanes (vW w) (List.zipWith (fun g z => g z) (List.zipWith f (vLanes s w d) (vLanes s w a)) (vLanes s w b)))

/-- `vadd` on floating lanes (R248). -/
def laneAdd (f : FpFmt) (x y : Nat) : Nat := (fpWrite f .ne 0 (fpAdd .ne (fpRead f x) (fpRead f y))).pat
/-- `vsub`. -/
def laneSub (f : FpFmt) (x y : Nat) : Nat := (fpWrite f .ne 0 (fpAdd .ne (fpRead f x) (fpNegV (fpRead f y)))).pat
/-- `vmul`. -/
def laneMul (f : FpFmt) (x y : Nat) : Nat := (fpWrite f .ne 0 (fpMul (fpRead f x) (fpRead f y))).pat
/-- `vfma`: a × b + d (R82, R248). -/
def laneFma (f : FpFmt) (d x y : Nat) : Nat := (fpWrite f .ne 0 (fpFma .ne (fpRead f x) (fpRead f y) (fpRead f d))).pat

/-- A lane mask (R249). -/
def laneMask (w : Nat) (b : Bool) : Nat := if b then 2 ^ vW w - 1 else 0
/-- Floating equality: false with a NaN, −0 equal to +0 (R249). -/
def laneEq (f : FpFmt) (x y : Nat) : Bool :=
  let a := fpRead f x
  let b := fpRead f y
  !a.isNan && !b.isNan && !fpLt false a b && !fpLt false b a
/-- Floating less-than. -/
def laneLt (f : FpFmt) (x y : Nat) : Bool := fpLt false (fpRead f x) (fpRead f y)

/-- One level of the reduction tree (R250). -/
def pairUp {α : Type} (op : α → α → α) : List α → List α
  | x :: y :: l => op x y :: pairUp op l
  | l => l

/-- The reduction tree over its levels (R250). -/
def treeOf {α : Type} (op : α → α → α) : Nat → List α → List α
  | 0, l => l
  | n + 1, l => treeOf op n (pairUp op l)

/-- A partial sum of a reduction: an FP32 pattern, or a NaN with its cause (R92). -/
def redAdd : Nat ⊕ Nat → Nat ⊕ Nat → Nat ⊕ Nat
  | .inl c, .inl d => .inl (min c d)
  | .inl c, .inr _ => .inl c
  | .inr _, .inl d => .inl d
  | .inr x, .inr y => match fpAdd .ne (fpRead fp32 x) (fpRead fp32 y) with
    | .nan c => .inl c
    | r => .inr (fpWrite fp32 .ne 0 r).pat

/-- `vrsum` on floating lanes (R250). -/
def redSum (f : FpFmt) (l : List Nat) : Nat :=
  let x := l.map fun v => if (fpRead f v).isNan then (Sum.inl 1 : Nat ⊕ Nat) else .inr (fpConvert f fp32 .ne 0 v).1
  match (treeOf redAdd 8 x).headD (.inr 0) with
  | .inl c => nanPat f c
  | .inr v => (fpConvert fp32 f .ne 0 v).1

/-- `vrmax`, `vrmin` (R250): any NaN lane gives nan(1). -/
def redExt (isMax : Bool) (f : FpFmt) (l : List Nat) : Nat :=
  if l.any (fun v => (fpRead f v).isNan) then nanPat f 1 else (treeOf (fpMinMax f isMax) 8 l).headD 0

/-- Integer `vrsum` (R250). -/
def redSumI (w t : Nat) (l : List Nat) : Nat :=
  let r := (l.map (sextN (vW w))).foldl (· + ·) 0
  toPat (vW w) (if t = 1 then satI r (-(2 ^ (vW w - 1))) (2 ^ (vW w - 1) - 1) else r)

/-- A reduction writes its value into every lane of d. -/
def vRed (g : List Nat → Nat) (p w d a : Nat) (s : State) : State :=
  guarded s p fun s =>
    let r := g (vLanes s w a)
    vPut s 8 d (packLanes (vW w) (List.replicate (if w = 1 then 256 else 128) r))

/-- An integer result wrapped (t = 0) or saturated (t = 1) to the lane width (R252). -/
def laneInt (w t : Nat) (r : Int) : Nat := toPat (vW w) (if t = 1 then satI r (-(2 ^ (vW w - 1))) (2 ^ (vW w - 1) - 1) else r)

/-- An integer form on signed lanes (R252). -/
def vInt (f : Int → Int → Int) (p w t d a b : Nat) (s : State) : State :=
  vBin 3 (fun x y => laneInt w t (f (sextN (vW w) x) (sextN (vW w) y))) p w d a b s

/-- Shifts (R253): counts of the lane width or more give 0, or all sign bits. -/
def laneShl (w x n : Nat) : Nat := if n ≥ vW w then 0 else x * 2 ^ n % 2 ^ vW w
def laneShr (w x n : Nat) : Nat := if n ≥ vW w then 0 else x / 2 ^ n
def laneSra (w x n : Nat) : Nat := let k := if n ≥ vW w then vW w - 1 else n; toPat (vW w) (sextN (vW w) x / 2 ^ k)

/-- A form that moves lanes by place: lane `i` of d takes lane `f i` of a (R254). -/
def vMove (f : Nat → Nat) (p w d a : Nat) (s : State) : State :=
  guarded s p fun s =>
    let l := (vLanes s w a).toArray
    vPut s 3 d (packLanes (vW w) ((upTo (if w = 1 then 256 else 128)).map fun i => l.getD (f i) 0))

/-- `vperm` (R254). -/
def vPerm (p w d a b : Nat) (s : State) : State :=
  guarded s p fun s =>
    let n := if w = 1 then 256 else 128
    let l := (vLanes s w a).toArray
    vPut s 3 d (packLanes (vW w) ((vLanes s w b).map fun m => l.getD (m % n) 0))

/-- The rounding code of a conversion; 110 and 111 are refused at decode (R246). -/
def vMode (r : Nat) : RMode := (rmode r).getD .ne

/-- One advance of RNGS where a conversion rounds stochastically (R84). -/
def vRng (r : Nat) (s : State) : Word × State := if vMode r == .sr then drawRng s else (0, s)

/-- Merges 16-bit values into one half of the lanes of d (R255). -/
def mergeHalf (h : Nat) (old v : List Nat) : BitVec 4096 :=
  packLanes 32 (List.zipWith (fun x y => if h = 1 then x % 65536 + y * 65536 else x / 65536 * 65536 + y) old v)

/-- 16-bit half of a 32-bit lane. -/
def halfOf (h x : Nat) : Nat := x / (if h = 1 then 65536 else 1) % 65536

/-- `vcvt.n` (R255). -/
def vcvtNOp (p t d a h r : Nat) (s : State) : State :=
  guarded s p fun s =>
    let (x, s) := vRng r s
    let v := (vLanes s 0 a).zipIdx.map fun (y, i) => (fpConvert fp32 (vFmt 1 t) (vMode r) (rngR16 x i) y).1
    vPut s 4 d (mergeHalf h (vLanes s 0 d) v)

/-- `vcvt.w` (R255). -/
def vcvtWOp (p t d a h : Nat) (s : State) : State :=
  vUn 4 (fun x => (fpConvert (vFmt 1 t) fp32 .ne 0 (halfOf h x)).1) p 0 d a s

/-- A floating lane to an integer of its width, and whether CVT_LOSS counts it (R255). -/
def laneToInt (f : FpFmt) (w : Nat) (mode : RMode) (r16 x : Nat) : Nat × Bool :=
  let hi : Int := 2 ^ (vW w - 1) - 1
  let lo : Int := -(2 ^ (vW w - 1))
  match fpRead f x with
  | .nan => (0, true)
  | .inf n => (toPat (vW w) (if n then lo else hi), true)
  | .fin n m e => let q := (roundInt mode n m e r16).1; (toPat (vW w) (satI (if n then -(q : Int) else q) lo hi), false)

/-- `vcvt.fi` (R255). -/
def vcvtFiOp (p w t d a r : Nat) (s : State) : State :=
  guarded s p fun s =>
    let (x, s) := vRng r s
    let l := (vLanes s w a).zipIdx.map fun (y, i) => laneToInt (vFmt w t) w (vMode r) (rngR16 x i) y
    let s := wr s fun c => addCvt c (l.filter Prod.snd).length
    vPut s 4 d (packLanes (vW w) (l.map Prod.fst))

/-- An integer lane to a floating one (R255). -/
def laneFromInt (f : FpFmt) (w : Nat) (mode : RMode) (r16 x : Nat) : Nat :=
  let v := sextN (vW w) x
  (fpWrite f mode r16 (.fin (decide (v < 0)) v.natAbs 0 false)).pat

/-- `vcvt.if` (R255). -/
def vcvtIfOp (p w t d a r : Nat) (s : State) : State :=
  guarded s p fun s =>
    let (x, s) := vRng r s
    vPut s 4 d (packLanes (vW w) ((vLanes s w a).zipIdx.map fun (y, i) => laneFromInt (vFmt w t) w (vMode r) (rngR16 x i) y))

/-- `vcvt.ni` (R255). -/
def vcvtNiOp (p d a h : Nat) (s : State) : State :=
  guarded s p fun s =>
    vPut s 4 d (mergeHalf h (vLanes s 0 d) ((vLanes s 0 a).map fun x => toPat 16 (satI (sextN 32 x) (-32768) 32767)))

/-- Writes a result that has reached its landing cycle (R299, R308). -/
def landOne (c : Core) : WbDest → Core
  | .sreg n v => setS c n v
  | .pred n v => setP c n v
  | .vop x v => writeView c x v
  | .qbits n off len v => { c with m := { c.m with q := spSet c.m.q n (setBits (qReg c n) off len v) } }
  | .qcomp n off len v => { c with m := { c.m with qc := spSet c.m.qc n (setBits (qComp c n) off len v) } }

/-- Whether one result lands before another: by landing cycle, then by issue (R301, R308). -/
def landsBefore (a b : WbEntry) : Bool := a.land < b.land || (a.land == b.land && a.seq ≤ b.seq)

/-- Puts a result in its place in landing order. -/
def landInsert (e : WbEntry) : List WbEntry → List WbEntry
  | [] => [e]
  | x :: l => if landsBefore x e then x :: landInsert e l else e :: x :: l

/-- Results in the order they land. -/
def landOrder (l : List WbEntry) : List WbEntry := l.foldl (fun acc e => landInsert e acc) []

/-- Lands every result whose landing cycle is at most `t` (R299). -/
def landUpTo (c : Core) (t : Nat) : Core :=
  let due := landOrder (c.f.wb.filter fun e => e.land ≤ t)
  let c := { c with f := { c.f with wb := c.f.wb.filter fun e => t < e.land } }
  due.foldl (fun c e => landOne c e.dest) c

/-- RESULT_LAND: the results of core `c` that are due land (R299, R308); which are due follows from the active cycle. -/
def execResultLand (c : Nat) (s : State) : Out := .next (modCore s c fun k => landUpTo k k.q.act)

/-- V_NOP (R140): nothing. -/
def execVNop (_p : Nat) (s : State) : Out := .next s

/-- `vadd` on floating lanes (R248). -/
def execVaddF (p w t d a b : Nat) (s : State) : Out := .next (vBin 4 (laneAdd (vFmt w t)) p w d a b s)
/-- `vsub` on floating lanes (R248). -/
def execVsubF (p w t d a b : Nat) (s : State) : Out := .next (vBin 4 (laneSub (vFmt w t)) p w d a b s)
/-- `vmul` on floating lanes (R248). -/
def execVmulF (p w t d a b : Nat) (s : State) : Out := .next (vBin 4 (laneMul (vFmt w t)) p w d a b s)
/-- `vfma` (R248). -/
def execVfma (p w t d a b : Nat) (s : State) : Out := .next (vTri 5 (laneFma (vFmt w t)) p w d a b s)
/-- `vmin` on floating lanes (R248). -/
def execVminF (p w t d a b : Nat) (s : State) : Out := .next (vBin 4 (fpMinMax (vFmt w t) false) p w d a b s)
/-- `vmax` on floating lanes (R248). -/
def execVmaxF (p w t d a b : Nat) (s : State) : Out := .next (vBin 4 (fpMinMax (vFmt w t) true) p w d a b s)
/-- `vabs` (R248, R72): the sign bit cleared. -/
def execVabs (p w _t d a : Nat) (s : State) : Out := .next (vUn 4 (fun x => x % 2 ^ (vW w - 1)) p w d a s)
/-- `vneg` (R248, R72): the sign bit inverted. -/
def execVneg (p w _t d a : Nat) (s : State) : Out := .next (vUn 4 (fun x => (x + 2 ^ (vW w - 1)) % 2 ^ vW w) p w d a s)
/-- A floating compare into a lane mask (R249). -/
def execVcmpEqF (p w t d a b : Nat) (s : State) : Out := .next (vBin 4 (fun x y => laneMask w (laneEq (vFmt w t) x y)) p w d a b s)
/-- A floating compare into a lane mask (R249). -/
def execVcmpLtF (p w t d a b : Nat) (s : State) : Out := .next (vBin 4 (fun x y => laneMask w (laneLt (vFmt w t) x y)) p w d a b s)
/-- A floating compare into a lane mask (R249). -/
def execVcmpLeF (p w t d a b : Nat) (s : State) : Out := .next (vBin 4 (fun x y => laneMask w (laneLt (vFmt w t) x y || laneEq (vFmt w t) x y)) p w d a b s)
/-- `vrsum` on floating lanes (R250). -/
def execVrsumF (p w t d a : Nat) (s : State) : Out := .next (vRed (redSum (vFmt w t)) p w d a s)
/-- `vrmax` (R250). -/
def execVrmax (p w t d a : Nat) (s : State) : Out := .next (vRed (redExt true (vFmt w t)) p w d a s)
/-- `vrmin` (R250). -/
def execVrmin (p w t d a : Nat) (s : State) : Out := .next (vRed (redExt false (vFmt w t)) p w d a s)
/-- `vexp2` (R251). -/
def execVexp2 (p w t d a : Nat) (s : State) : Out := .next (vUn 10 (spExp2 (vFmt w t)) p w d a s)
/-- `vlog2` (R251). -/
def execVlog2 (p w t d a : Nat) (s : State) : Out := .next (vUn 10 (spLog2 (vFmt w t)) p w d a s)
/-- `vrcp` (R251). -/
def execVrcp (p w t d a : Nat) (s : State) : Out := .next (vUn 10 (spRcp (vFmt w t)) p w d a s)
/-- `vrsq` (R251). -/
def execVrsq (p w t d a : Nat) (s : State) : Out := .next (vUn 10 (spRsq (vFmt w t)) p w d a s)
/-- `vtanh` (R251). -/
def execVtanh (p w t d a : Nat) (s : State) : Out := .next (vUn 10 (spTanh (vFmt w t)) p w d a s)
/-- `vsilu` (R251). -/
def execVsilu (p w t d a : Nat) (s : State) : Out := .next (vUn 10 (spSilu (vFmt w t)) p w d a s)
/-- `vadd` on integer lanes (R252). -/
def execVaddI (p w t d a b : Nat) (s : State) : Out := .next (vInt (fun x y => x + y) p w t d a b s)
/-- `vsub` on integer lanes (R252). -/
def execVsubI (p w t d a b : Nat) (s : State) : Out := .next (vInt (fun x y => x - y) p w t d a b s)
/-- `vmul` on integer lanes (R252). -/
def execVmulI (p w t d a b : Nat) (s : State) : Out := .next (vInt (fun x y => x * y) p w t d a b s)
/-- `vmin` on integer lanes (R252). -/
def execVminI (p w t d a b : Nat) (s : State) : Out := .next (vInt (fun x y => if x < y then x else y) p w t d a b s)
/-- `vmax` on integer lanes (R252). -/
def execVmaxI (p w t d a b : Nat) (s : State) : Out := .next (vInt (fun x y => if x < y then y else x) p w t d a b s)
/-- `vand` (R253). -/
def execVand (p w d a b : Nat) (s : State) : Out := .next (vBin 3 (fun x y => x &&& y) p w d a b s)
/-- `vor` (R253). -/
def execVor (p w d a b : Nat) (s : State) : Out := .next (vBin 3 (fun x y => x ||| y) p w d a b s)
/-- `vxor` (R253). -/
def execVxor (p w d a b : Nat) (s : State) : Out := .next (vBin 3 (fun x y => x ^^^ y) p w d a b s)
/-- `vshl` (R253). -/
def execVshl (p w d a b : Nat) (s : State) : Out := .next (vBin 3 (fun x y => laneShl w x y) p w d a b s)
/-- `vshr` (R253). -/
def execVshr (p w d a b : Nat) (s : State) : Out := .next (vBin 3 (fun x y => laneShr w x y) p w d a b s)
/-- `vsra` (R253). -/
def execVsra (p w d a b : Nat) (s : State) : Out := .next (vBin 3 (fun x y => laneSra w x y) p w d a b s)
/-- `vcmp.eq` on integer lanes (R253). -/
def execVcmpEqI (p w d a b : Nat) (s : State) : Out := .next (vBin 3 (fun x y => laneMask w (x == y)) p w d a b s)
/-- `vcmp.lt` on integer lanes, signed (R253). -/
def execVcmpLtI (p w d a b : Nat) (s : State) : Out := .next (vBin 3 (fun x y => laneMask w (decide (sextN (vW w) x < sextN (vW w) y))) p w d a b s)
/-- `vrsum` on integer lanes (R250). -/
def execVrsumI (p w t d a : Nat) (s : State) : Out := .next (vRed (redSumI w t) p w d a s)
/-- `vsel` (R254): lane of a where the lane of d is true. -/
def execVsel (p w d a b : Nat) (s : State) : Out := .next (vTri 3 (fun z x y => if z = 0 then y else x) p w d a b s)
/-- `vmov` (R254). -/
def execVmov (p w d a : Nat) (s : State) : Out := .next (vUn 3 (fun x => x) p w d a s)
/-- `vbcast` (R254). -/
def execVbcast (p w d a n : Nat) (s : State) : Out := .next (vMove (fun _ => n) p w d a s)
/-- `vperm` (R254). -/
def execVperm (p w d a b : Nat) (s : State) : Out := .next (vPerm p w d a b s)
/-- `vrot` (R254). -/
def execVrot (p w d a n : Nat) (s : State) : Out := .next (vMove (fun i => (i + n) % (if w = 1 then 256 else 128)) p w d a s)
/-- `vrev` (R254). -/
def execVrev (p w d a : Nat) (s : State) : Out := .next (vMove (fun i => (if w = 1 then 255 else 127) - i) p w d a s)
/-- `vcvt.n` (R255). -/
def execVcvtN (p t d a h r : Nat) (s : State) : Out := .next (vcvtNOp p t d a h r s)
/-- `vcvt.w` (R255). -/
def execVcvtW (p t d a h : Nat) (s : State) : Out := .next (vcvtWOp p t d a h s)
/-- `vcvt.fi` (R255). -/
def execVcvtFi (p w t d a r : Nat) (s : State) : Out := .next (vcvtFiOp p w t d a r s)
/-- `vcvt.if` (R255). -/
def execVcvtIf (p w t d a r : Nat) (s : State) : Out := .next (vcvtIfOp p w t d a r s)
/-- `vcvt.ni` (R255). -/
def execVcvtNi (p d a h : Nat) (s : State) : Out := .next (vcvtNiOp p d a h s)
/-- `vcvt.wi` (R255). -/
def execVcvtWi (p d a h : Nat) (s : State) : Out := .next (vUn 4 (fun x => toPat 32 (sextN 16 (halfOf h x))) p 0 d a s)

end Sys2Proof.Machine
end

