-- ==== Sys2Proof/Machine/Matrix.lean ====
section
/-! DEFINITION. Machine/Matrix: the X slot and the matrix engine (spec/12, R226 to R245; products, R89 to R93; timing, R306, R309). -/

namespace Sys2Proof.Machine

/-! ## Views of a mode register -/

/-- The compute view (R228). -/
structure CView where
  mimm : Nat
  diag : Int
  mask : Nat
  ptri : Bool
  pacc : Bool
  sat : Bool
  out : Bool
  kblk : Nat
  fmt : Nat
deriving DecidableEq, Repr

def cview (x : Word) : CView :=
  let n := x.toNat
  { mimm := bits n 63 32, diag := sextN 8 (bits n 31 24), mask := bits n 23 22, ptri := bit n 8, pacc := bit n 7, sat := bit n 6, out := bit n 5,
    kblk := bits n 4 3, fmt := bits n 2 0 }

/-- The drain view (R229). -/
structure DView where
  rstr : Nat
  doff : Nat
  lct : Nat
  win : Nat
  st : Nat
  scale : Int
  rnd : Nat
  dfmt : Nat
deriving DecidableEq, Repr

def dview (x : Word) : DView :=
  let n := x.toNat
  { rstr := bits n 62 55, doff := bits n 54 39, lct := bits n 38 30, win := bits n 29 18, st := bits n 17 14, scale := sextN 8 (bits n 13 6),
    rnd := bits n 5 3, dfmt := bits n 2 0 }

/-- The cadence c (R230). -/
def cadence (fmt : Nat) : Nat := if fmt = 0 then 4 else if fmt = 3 then 1 else 2

/-- The pipeline depth L (R306). -/
def depthL (fmt : Nat) : Nat := if fmt = 0 then 139 else 136

/-- Forms by opcode (R156): products into a tile, and all products. -/
def isMma (op : Nat) : Bool := 3 ≤ op && op ≤ 7
def isAcc (op : Nat) : Bool := op == 4 || op == 6
def isLoad (op : Nat) : Bool := op == 1 || op == 2
def isDrain (op : Nat) : Bool := 9 ≤ op && op ≤ 11
def readsSlot (op : Nat) : Bool := isLoad op || isMma op

/-- Whether a product is triangular (R236). -/
def isTri (op : Nat) (v : CView) : Bool := op == 5 || op == 6 || (op == 7 && v.ptri)

/-! ## Products (R89, R90, R93) -/

/-- The contribution of one K block (R89): a NaN cause, or an FP32 pattern. -/
def contribution (w : Nat) (ca cb xa xb : Nat) (S : Int) : Nat ⊕ Nat :=
  if ca = 1 || cb = 1 then .inl 1
  else if xa = 0xFF || xb = 0xFF then .inl 2
  else if ca = 4 || cb = 4 then .inl 3
  else if ca != 0 || cb != 0 then
    (if S > 0 then .inr (infPat fp32 false) else if S < 0 then .inr (infPat fp32 true) else .inl 4)
  else .inr (fpWrite fp32 .ne 0 (.fin (decide (S < 0)) S.natAbs ((xa : Int) + xb - 254 + 4 - 2 * w) false)).pat

/-- Σ over a run of elements. -/
def dotRun (fmt lo : Nat) (a b : MxRow) : Nat → Int
  | 0 => 0
  | n + 1 => dotRun fmt lo a b n + a.elem fmt (lo + n) * b.elem fmt (lo + n)

/-- The contributions of a row and a column in ascending block order (R89). -/
def contributions (fmt ablk bblk : Nat) (a b : MxRow) : List (Nat ⊕ Nat) :=
  let kb := min ablk bblk
  (upTo (mxPerRow fmt / kb)).map fun i =>
    let ia := i * kb / ablk
    let ib := i * kb / bblk
    contribution (mxWidth fmt) (a.cls ia) (b.cls ib) (a.scale ia) (b.scale ib) (dotRun fmt (i * kb) a b kb)

/-- The FP32 word of a product (R89, R92): `old` is read by accumulating forms only. -/
def dotFp (old : Option Nat) (cs : List (Nat ⊕ Nat)) : Nat :=
  let start := old.map fun x => if (fpRead fp32 x).isNan then (Sum.inl 1 : Nat ⊕ Nat) else .inr x
  let r := match start, cs with
    | some a, l => l.foldl redAdd a
    | none, c :: l => l.foldl redAdd c
    | none, [] => .inr 0
  match r with
  | .inl c => nanPat fp32 c
  | .inr x => x

/-- The INT32 word of a product (R90). -/
def dotInt (sat : Bool) (old : Nat) (t : Int) : Nat :=
  let r := sextN 32 old + t
  toPat 32 (if sat then satI r (-2147483648) 2147483647 else r)

/-- The mask word (R93). -/
def maskWord (v : CView) : Nat := if v.mask = 0 then 0xFF800000 else if v.mask = 1 then 0 else v.mimm

/-- A column of a plane; a column never written reads as zero elements of scale 2^0. -/
def Plane.col (p : Plane) (j : Nat) : MxRow := spGet ⟨0, 0, 0⟩ p.cols j

/-- Row i of a product (R235, R237): its 128 words. -/
def productRow (v : CView) (tri acc : Bool) (ablk : Nat) (p : Plane) (i : Nat) (a : MxRow) (old : BitVec 4096) : BitVec 4096 :=
  packLanes 32 ((upTo 128).map fun (j : Nat) =>
    if tri && (j : Int) > (i : Int) + v.diag then maskWord v
    else
      let o := (old.extractLsb' (32 * j) 32).toNat
      let b := p.col j
      if v.out then dotInt v.sat (if acc then o else 0) (dotRun v.fmt 0 a b (mxPerRow v.fmt))
      else dotFp (if acc then some o else none) (contributions v.fmt ablk p.blk a b))

/-- Sub-tiles skipped in the row of sub-tiles that holds row i (R236). -/
def skippedTiles (v : CView) (i : Nat) : Nat := ((upTo 8).filter fun (j : Nat) => ((16 * j : Nat) : Int) > ((16 * (i / 16) + 15 : Nat) : Int) + v.diag).length

/-! ## Weight loads (R233, R234) -/

/-- B from the rows of a slot that held it untransposed, as each was read, in blocks of `blk`: the columns, and the elements whose value
changed (R234). -/
def transposed (rows : List MxRow) (blk fmt kb : Nat) : List MxRow × Nat :=
  let K := mxPerRow fmt
  let cell := fun (kk j : Nat) =>
    let r := rows.getD (kk % 128) ⟨0, 0, 0⟩
    let el := j + 128 * (kk / 128)
    (r.elem fmt el, r.scale (el / blk))
  let one := fun (j : Nat) =>
    let bl := (upTo (K / kb)).map fun b =>
      let cs := (upTo kb).map fun i => cell (b * kb + i) j
      let xb := (cs.map Prod.snd).foldl max 0
      let es := cs.map fun (e, x) =>
        let (q, nx) := roundInt .ne (decide (e < 0)) e.natAbs ((x : Int) - xb) 0
        ((if e < 0 then -(q : Int) else q), nx)
      (xb, es)
    (mkRow fmt (bl.map fun (_, es) => es.map Prod.fst).flatten (bl.map Prod.fst) [],
     (bl.map fun (_, es) => (es.filter Prod.snd).length).sum)
  let cols := (upTo 128).map one
  (cols.map Prod.fst, (cols.map Prod.snd).sum)

/-! ## Drains (R239) -/

/-- Element format code of DFMT (R229). -/
def dfmtCode (d : Nat) : Nat :=
  match d with
  | 0 => 0x01 | 1 => 0x02 | 2 => 0x03 | 3 => 0x05 | 4 => 0x06 | 5 => 0x0F | 6 => 0x10 | _ => 0x11

/-- One word converted to a format; whether CVT_LOSS counts it (R239). -/
def drainConv (kindInt : Bool) (f : Nat) (s : Int) (mode : RMode) (x : Nat) : Nat × Bool :=
  if s = 0 && ((f = 0x01 && !kindInt) || (f = 0x0F && kindInt)) then (x, false) else
  match fmtFp f, fmtInt f with
  | some g, _ =>
    if kindInt then
      let v := sextN 32 x
      ((fpWrite g mode 0 (.fin (decide (v < 0)) v.natAbs s false)).pat, false)
    else fpScaleConvert fp32 g mode s x
  | none, some (w, lo, hi) =>
    let fin := fun (n : Bool) (m : Nat) (e : Int) =>
      let q := (roundInt mode n m e 0).1
      (toPat w (satI (if n then -(q : Int) else q) lo hi), false)
    if kindInt then let v := sextN 32 x; fin (decide (v < 0)) v.natAbs s
    else match fpRead fp32 x with
      | .nan => (0, true)
      | .inf n => (toPat w (if n then lo else hi), true)
      | .fin n m e => fin n m (e + s)
  | none, none => (0, false)

/-- A row of the drain buffer. -/
def drainRow (c : Core) (i : Nat) : BitVec 4096 := spGet 0 c.m.drain i

/-- A row converted: its elements and the loss. -/
def drainOut (c : Core) (f : Nat) (s : Int) (mode : RMode) (i : Nat) : List Nat × Nat :=
  let r := (lanes32 (drainRow c i)).map (drainConv c.m.drainInt f s mode)
  (r.map Prod.fst, (r.filter Prod.snd).length)

/-- The value of a drain word times 2^s, exact (R242). -/
def drainVal (s : Int) (x : Nat) : FpVal :=
  match fpRead fp32 x with
  | .fin n m e => .fin n m (e + s)
  | v => v

/-! ## Launch (R231, R232) -/

/-- What launching an operation meets. -/
inductive XCheck where
  | ok
  | hold
  | fault (cause : Nat)
deriving DecidableEq, Repr

/-- Checks of a slot read (R58, R232). -/
def slotCheck (c : Core) (os fmt : Nat) : XCheck :=
  let o := slotOf c os
  match o.st with
  | .free => .fault 0x08
  | .claimed => .fault 0x09
  | .filling => .hold
  | .full => if o.fmt != fmt then .fault 0x01 else .ok

/-- Follows one check with the next. -/
def XCheck.andThen (a : XCheck) (b : XCheck) : XCheck := match a with | .ok => b | _ => a

/-- The plane that the next weight load fills (R233). -/
def nextPlane (c : Core) : Nat := match c.m.lastPlane with | some 0 => 1 | _ => 0

def planeAt (c : Core) (p : Nat) : Plane := spGet ⟨false, 0, 128, []⟩ c.m.planes p

/-- The stream checks of `mdrain.sp` (R241, R242). -/
def spCheck (c : Core) (v : DView) : XCheck :=
  let x := stReg c v.st
  let t := stream x
  if !t.tgt then
    if !(t.fmt ∈ [0x01, 0x02, 0x03, 0x05, 0x06, 0x0F, 0x10, 0x11]) || t.blk != 0 || t.rnd = 4 || t.rnd > 5 then .fault 0x01
    else match (walkSteps 128 x).findSome? fun y => handleFault (handle c t.hnd) (stAddr (stream y)) (16 * (fmtBits t.fmt).getD 8) with
      | some f => .fault f
      | none => .ok
  else
    if t.fmt != 0x0E || t.blk = 0 || t.rnd != 0 then .fault 0x01
    else if c.m.drainInt then .fault 0x01
    else match (slotOf c (t.hnd % 16)).st with
      | .free => .fault 0x08
      | .filling => .hold
      | _ => .ok

/-- Bytes of a row of `mdrain.fab` (R243). -/
def fabRow (v : DView) : Nat := 128 * (fmtBits (dfmtCode v.dfmt)).getD 8 / 8

/-- Offset of a row of `mdrain.fab` in its window. -/
def fabOff (v : DView) (i : Nat) : Nat := v.doff * 64 + i * (if v.rstr = 0 then fabRow v else v.rstr * 64)

/-- The window check of `mdrain.fab` (R243): a HANDLE window with the write right; all rows lie within the bounds of the key. Those of a key
of another package, which the tables here do not hold, are a free value (log 103). -/
def fabCheck (s : State) (c : Core) (v : DView) : XCheck :=
  let w := winWords s (asidOf c) v.win
  let inKey := fun (o : Nat) =>
    if winPkg w = pkgNo s then (keyCheck s (winKey w) 1 rW o (fabRow v)).isSome else decide (o + fabRow v ≤ Config.farLimit (winPkg w) (winKey w))
  if winLive w && winTgt w = 1 && winKey w != 0 && hasRight (winRights w) rW && inKey (fabOff v 0) && inKey (fabOff v 127) then .ok
  else .fault 0x0C

/-- The checks of R232 in their order, on the core as launch sees it. -/
def xCheck (s : State) (c : Core) (x : XOp) : XCheck :=
  let m := mmReg c x.mm
  let v := cview m
  let d := dview m
  if x.op = 8 then .ok
  else if readsSlot x.op then
    let bad := v.fmt > 3 || (isTri x.op v && v.mask = 3) || (x.op == 2 && v.kblk = 0)
    XCheck.andThen (if bad then .fault 0x01 else .ok) <| XCheck.andThen (slotCheck c x.os v.fmt) <|
      if isLoad x.op then
        if x.op = 2 && (upTo 128).any (fun r => ((slotOf c x.os).row x.os r).cl != 0) then .fault 0x09
        else if c.f.xops.any fun y => y.launched && isMma y.op && y.plane == nextPlane c && y.age < 128 * cadence (cview y.mode).fmt then .hold
        else .ok
      else match c.m.lastPlane with
        | none => .fault 0x09
        | some p =>
          if (planeAt c p).fmt != v.fmt then .fault 0x01
          else if !(planeAt c p).loaded || c.f.xops.any (fun y => y.launched && isLoad y.op && y.plane == p && y.done < 128) then .hold
          else if c.f.xops.any fun y => y.launched && isMma y.op && y.age < 128 * cadence (cview y.mode).fmt then .hold
          else .ok
  else if x.op = 10 then spCheck c d
  else if d.rnd = 4 || d.rnd > 5 then .fault 0x01
  else if x.op = 11 then fabCheck s c d
  else .ok

/-- Puts a launched operation behind those launched before it and ahead of those still waiting. -/
def insertLaunched (x : XOp) : List XOp → List XOp
  | [] => [x]
  | y :: l => if y.launched then y :: insertLaunched x l else x :: y :: l

/-- An operation as it is launched (R231): what it reads at its launch, and nothing done yet. -/
def xSet (v : Core) (w : List Nat) (x : XOp) : XOp :=
  let m := mmReg v x.mm
  let p := if isLoad x.op then nextPlane v else v.m.lastPlane.getD 0
  { x with launched := true, age := 0, mode := m, plane := p, wts := if isMma x.op then planeAt v p else ⟨false, 0, 128, []⟩,
           ablk := (slotOf v x.os).blk, str := stReg v (dview m).st, entered := 0, fly := [], done := 0, placed := 0, slip := 0,
           win := if x.op = 11 then w else [] }

/-- Launches an operation (R231): `v` is the core as launch sees it, `w` the words of the window it drains to. `mdrain.sp` into a handle
advances its stream by its 128 steps in the launch cycle (R241), unless a `stset` of the bundle writes it (R64). -/
def xLaunch (v : Core) (w : List Nat) (keep : List Nat) (x : XOp) (c : Core) : Core :=
  let x' := xSet v w x
  let m := x'.mode
  let d := dview m
  let p := x'.plane
  let c := { c with f := { c.f with xops := insertLaunched x' (c.f.xops.filter fun y => y.seq != x.seq) } }
  if isLoad x.op then
    let blk := if x.op = 1 then (slotOf v x.os).blk else blkSize (cview m).kblk
    { c with m := { c.m with planes := spSet c.m.planes p ⟨false, (cview m).fmt, blk, []⟩, lastPlane := some p } }
  else if x.op = 10 && !(stream x'.str).tgt then
    if keep.contains d.st then c else { c with r := { c.r with st := spSet c.r.st d.st (stSteps 128 x'.str) } }
  else if x.op = 10 then
    let t := stream x'.str
    setSlot c (t.hnd % 16) { slotOf c (t.hnd % 16) with st := .filling, fmt := 0, blk := blkSize t.blk }
  else c

/-! ## Rows -/

/-- Whether a product's next result row is due after `k` further cycles (R235). -/
def mmaDue (x : XOp) (k : Nat) : Bool :=
  let f := (cview x.mode).fmt
  x.done < 128 && depthL f + cadence f * x.done + x.slip ≤ x.age + k

/-- Rows of the drain queue not yet sent. -/
def unsentRows (c : Core) : Nat := (c.f.drainq.filter fun r => !r.sent).length

/-- The operations launched earlier whose rows the next row of a launched operation waits for (R237): `before` are those. -/
def xBlockers (before : List XOp) (x : XOp) : List XOp :=
  if x.op = 7 then (if mmaDue x 0 then before.filter fun y => isDrain y.op && y.done ≤ x.done else [])
  else if isDrain x.op && x.done < 128 && x.done + x.slip ≤ x.age then before.filter fun y => y.op == 7 && y.done ≤ x.done
  else []

/-- Whether the next row of a launched operation waits: for another operation's row, or for room in the drain queue (R237, R243). -/
def xWaits (c : Core) (before : List XOp) (x : XOp) : Bool :=
  !(xBlockers before x).isEmpty || (x.op == 11 && x.done < 128 && x.done + x.slip ≤ x.age && unsentRows c ≥ 8)

/-- Whether some launched operation of a list waits. -/
def anyWaits (c : Core) : List XOp → List XOp → Bool
  | _, [] => false
  | bs, x :: l => (x.launched && xWaits c bs x) || anyWaits c (bs ++ [x]) l

/-- The operations that some launched operation of a list waits for (R237), by order of issue. -/
def waitedFor : List XOp → List XOp → List Nat
  | _, [] => []
  | bs, x :: l => (if x.launched then (xBlockers bs x).map XOp.seq else []) ++ waitedFor (bs ++ [x]) l

/-- Accumulator ports that a launched operation takes in this cycle (R244): tile, and whether the write port. An accumulating form reads
the row due next once this cycle's has been written. -/
def xPort (x : XOp) : List (Nat × Bool) :=
  if !x.launched then []
  else if 3 ≤ x.op && x.op ≤ 6 then
    let y := if mmaDue x 0 then { x with done := x.done + 1 } else x
    (if mmaDue x 0 then [(x.t, true)] else []) ++ (if isAcc x.op && mmaDue y 1 then [(x.t, false)] else [])
  else if x.op = 8 || x.op = 9 then (if x.done < xTotal x then [(x.t, true)] else [])
  else []

/-- Replaces an operation in flight. -/
def putX (c : Core) (x : XOp) : Core := { c with f := { c.f with xops := c.f.xops.map fun y => if y.seq = x.seq then x else y } }

/-- A row lost its port to an earlier operation (R309). -/
def slipRow (c : Core) (x : XOp) : Core := countEv (putX c { x with age := x.age + 1, slip := x.slip + 1 }) 0x0D 1

/-- Sets an accumulator row. -/
def setAcc (c : Core) (r : Nat) (v : BitVec 4096) : Core := { c with m := { c.m with acc := spSet c.m.acc r v } }

/-- A weight load reads one slot row (R233, R234); `mtrans` keeps the rows it has read, and with the last one makes the columns, unless a
later load of the plane has been launched, which takes effect after it (R231). -/
def stepLoad (c : Core) (x : XOp) : Core :=
  let o := slotOf c x.os
  let p := planeAt c x.plane
  let r := x.done
  let fly := if x.op = 1 then [] else x.fly ++ [⟨r, o.row x.os r, 0⟩]
  let c := putX c { x with age := x.age + 1, done := r + 1, fly := fly }
  let setP := fun (c : Core) (p : Plane) => { c with m := { c.m with planes := spSet c.m.planes x.plane p } }
  if x.op = 1 then setP c { p with cols := spSet p.cols r (o.row x.os r), loaded := r == 127 }
  else if r = 127 then
    let v := cview x.mode
    let (cols, loss) := transposed (fly.map XRow.a) x.ablk v.fmt (blkSize v.kblk)
    let later := (c.f.xops.reverse.takeWhile fun y => y.seq != x.seq).any fun y => y.launched && isLoad y.op && y.plane == x.plane
    addAln (if later then c else setP c { p with cols := cols.zipIdx.map fun (m, j) => (j, m), loaded := true }) loss
  else c

/-- A row of A enters, where one is due (R235). -/
def enterRow (c : Core) (x : XOp) : Core × XOp :=
  let v := cview x.mode
  if x.entered < 128 && cadence v.fmt * x.entered ≤ x.age then
    let i := x.entered
    let c := if isTri x.op v then countEv c 0x0C (skippedTiles v i * cadence v.fmt) else c
    (c, { x with entered := i + 1, fly := x.fly ++ [⟨i, (slotOf c x.os).row x.os i, 0⟩] })
  else (c, x)

/-- A product advances one cycle: a row enters, the row due next cycle is read by an accumulating form, the row due is written
(R235, R237). `pre` is the core before this cycle's matrix writes; `ports` are taken by earlier operations. -/
def stepMma (pre : Core) (ports : List (Nat × Bool)) (c : Core) (x : XOp) : Core × List (Nat × Bool) :=
  let v := cview x.mode
  let (c, x) := enterRow c x
  let wdue := mmaDue x 0
  let toTile := x.op != 7
  if toTile && wdue && ports.contains (x.t, true) then (slipRow c x, ports) else
  -- the row due now is written
  let (c, x, ports) :=
    if wdue then
      match x.fly with
      | [] => (c, { x with done := x.done + 1 }, ports)
      | f :: fs =>
        let acc := isAcc x.op || (x.op = 7 && v.pacc)
        let old := if x.op = 7 then drainRow pre f.i else f.old
        let w := productRow v (isTri x.op v) acc x.ablk x.wts f.i f.a old
        let c := if toTile then setAcc c (128 * x.t + f.i) w
          else { c with m := { c.m with drain := spSet c.m.drain f.i w, drainInt := if x.done = 0 then v.out else c.m.drainInt } }
        (c, { x with fly := fs, done := x.done + 1 }, if toTile then (x.t, true) :: ports else ports)
    else (c, x, ports)
  -- an accumulating form reads the next row one cycle before it is written
  if isAcc x.op && mmaDue x 1 then
    if ports.contains (x.t, false) then (slipRow c x, ports)
    else
      let fly := match x.fly with | f :: fs => { f with old := accRow pre (128 * x.t + f.i) } :: fs | [] => []
      (putX c { x with age := x.age + 1, fly := fly }, (x.t, false) :: ports)
  else (putX c { x with age := x.age + 1 }, ports)

/-- `mzero` writes four rows (R238). -/
def stepZero (ports : List (Nat × Bool)) (c : Core) (x : XOp) : Core × List (Nat × Bool) :=
  if ports.contains (x.t, true) then (slipRow c x, ports) else
  let c := (upTo 4).foldl (fun c k => setAcc c (128 * x.t + 4 * x.done + k) 0) c
  (putX c { x with age := x.age + 1, done := x.done + 1 }, (x.t, true) :: ports)

/-- `mdrain` writes one row (R240). -/
def stepDrain (ports : List (Nat × Bool)) (c : Core) (x : XOp) : Core × List (Nat × Bool) :=
  if ports.contains (x.t, true) then (slipRow c x, ports) else
  let d := dview x.mode
  let (l, loss) := drainOut c (if c.m.drainInt then 0x0F else 0x01) d.scale ((rmode d.rnd).getD .ne) x.done
  let c := addCvt (setAcc c (128 * x.t + x.done) (packLanes 32 l)) loss
  (putX c { x with age := x.age + 1, done := x.done + 1 }, (x.t, true) :: ports)

/-- Whether a run of bytes of a handle covers two lines of one bank (R241, R208). -/
def twoLines (e : HEnt) (o n : Nat) : Bool :=
  match (touched e o n).map (· / 384) with
  | [a, b] => a == b
  | _ => false

/-- The bytes of a row of `mdrain.sp` for a handle: where they go, and the loss (R241). -/
def spBytes (c : Core) (x : XOp) (i : Nat) : HEnt × Nat × List Byte × Nat :=
  let t := stream x.str
  let w := (fmtBits t.fmt).getD 8
  let (l, loss) := drainOut c t.fmt (dview x.mode).scale ((rmode t.rnd).getD .ne) i
  (handle c t.hnd, (stAddr (stream (stSteps i x.str))).toNat, packElems w l (16 * w), loss)

/-- `mdrain.sp` writes one row into a handle (R241) or an operand slot (R242). `gone` says that the drain port has written the row into the
handle already, ahead of the accesses of the bundle that issues (R56). -/
def stepSp (gone : Bool) (c : Core) (x : XOp) : Core :=
  let d := dview x.mode
  let t := stream x.str
  let i := x.done
  if t.tgt then
    let k := t.hnd % 16
    let o := slotOf c k
    let (r, loss) := alignRow 0 (blkSize t.blk) 254 ((lanes32 (drainRow c i)).map (drainVal d.scale))
    let c := addAln (setSlot c k { o with rows := spSet o.rows i r, st := if i = 127 then .full else o.st }) loss
    putX c { x with age := x.age + 1, done := i + 1 }
  else
    let (h, o, b, loss) := spBytes c x i
    let c := if gone then c else addCvt (spadWrite c h o b) loss
    putX c { x with age := x.age + 1, done := i + 1, slip := x.slip + (if twoLines h o b.length then 1 else 0) }

/-- `mdrain.fab` converts one row into the drain queue (R243). -/
def stepFab (c : Core) (x : XOp) : Core :=
  let d := dview x.mode
  let f := dfmtCode d.dfmt
  let (l, loss) := drainOut c f d.scale ((rmode d.rnd).getD .ne) x.done
  let w := (fmtBits f).getD 8
  let b := packElems w l (16 * w)
  let r : DrainRow := ⟨x.seq, x.win, fabOff d x.done, b, d.lct, (24 + b.length + 235) / 236 + 1, false, 0, false⟩
  let c := addCvt { c with f := { c.f with drainq := c.f.drainq ++ [r] } } loss
  putX c { x with age := x.age + 1, done := x.done + 1 }

/-- A launched operation advances one cycle; `gone` lists the drains whose row is already written. -/
def stepX (gone : List Nat) (pre : Core) (ports : List (Nat × Bool)) (c : Core) (x : XOp) : Core × List (Nat × Bool) :=
  if x.done ≥ xTotal x then (putX c { x with age := x.age + 1 }, ports)
  else if isLoad x.op then (stepLoad c x, ports)
  else if isMma x.op then stepMma pre ports c x
  else if x.op = 8 then stepZero ports c x
  else if x.age < x.done + x.slip then (putX c { x with age := x.age + 1 }, ports)
  else if x.op = 9 then stepDrain ports c x
  else if x.op = 10 then (stepSp (gone.contains x.seq) c x, ports)
  else (stepFab c x, ports)

/-- Advances launched operations in launch order; `bs` are those before, `c` the core before this cycle. -/
def xAdvanceList (sel : XOp → Bool) (gone : List Nat) (c : Core) : List XOp → List XOp → List (Nat × Bool) → Core → Core
  | _, [], _, k => k
  | bs, x :: l, ports, k =>
    if x.launched && sel x && !xWaits c bs x then
      let (k, ports) := stepX gone c ports k x
      xAdvanceList sel gone c (bs ++ [x]) l ports k
    else xAdvanceList sel gone c (bs ++ [x]) l ports k

/-- Launched operations that are not waiting and that a condition names advance one cycle, in launch order. One whose last row is then
done leaves flight before the next cycle. -/
def xAdvance (sel : XOp → Bool) (gone : List Nat) (c : Core) : Core := xAdvanceList sel gone c [] c.f.xops [] c

/-! ## Issue -/

/-- An X operation as it issues. -/
def xNew (seq l op t os mm word : Nat) : XOp :=
  { seq := seq, word := word, op := op, t := t, os := os, mm := mm, delay := l, launched := false, age := 0, mode := 0, plane := 0,
    wts := ⟨false, 0, 128, []⟩, ablk := 128, str := 0, entered := 0, fly := [], done := 0, placed := 0, slip := 0, win := [] }

/-- An X operation issues: it waits out its start delay (R32, R231). -/
def xIssue (p l op t os mm word : Nat) (s : State) : State :=
  guarded s p fun s => wr s fun c => { c with f := { c.f with xops := c.f.xops ++ [xNew c.q.seq l op t os mm word] } }

/-- Slot value of an X operation in format XM, XP, XZ or XD (R156). -/
def xWord (p l op t os mm : Nat) : Nat := p * 2 ^ 28 + op * 2 ^ 23 + l * 2 ^ 19 + t * 2 ^ 16 + os * 2 ^ 12 + mm * 2 ^ 8

/-- Slot value in format XW (R156). -/
def xwWord (p l op os mm : Nat) : Nat := p * 2 ^ 28 + op * 2 ^ 23 + l * 2 ^ 19 + os * 2 ^ 15 + mm * 2 ^ 11

/-- The words of the window that an `mdrain.fab` drains to, as its launch finds them (R243). -/
def xWords (s : State) (v : Core) (x : XOp) : List Nat := if x.op = 11 then winWords s (asidOf v) (dview (mmReg v x.mm)).win else []

/-- What launching the oldest operation whose delay has run out comes to, on the core as launch sees it. -/
def launchOne (s : State) (cn : Nat) (v : Core) (x : XOp) : XCheck × State :=
  match xCheck s v x with
  | .ok => (.ok, modCore s cn (xLaunch v (xWords s v x) [] x))
  | .hold => (.hold, s)
  | .fault f =>
    let s := modCore s cn fun c => putX c { x with mode := mmReg v x.mm }
    let c := coreAt s cn
    let info : TrapInfo := if c.q.between then ⟨f, 0, 5, 0, c.q.pc, dxAt c c.q.pc, 0, 0⟩ else ⟨f, 0, 5, 0, c.q.lastPc, c.q.lastDx, heldMask c [], 0⟩
    (.fault f, takeTrap (modCore s cn undoHold) cn info false none)

/-- The operations due to launch: delay 0, in order. -/
def dueX (c : Core) : List XOp := c.f.xops.filter fun x => !x.launched && x.delay == 0

/-- X_NOP (R140): nothing. -/
def execXNop (_p : Nat) (s : State) : Out := .next s
/-- `mwld` (R233). -/
def execMwld (p l o m : Nat) (s : State) : Out := .next (xIssue p l 1 0 o m (xwWord p l 1 o m) s)
/-- `mtrans` (R234). -/
def execMtrans (p l o m : Nat) (s : State) : Out := .next (xIssue p l 2 0 o m (xwWord p l 2 o m) s)
/-- `mma` (R235). -/
def execMma (p l t o m : Nat) (s : State) : Out := .next (xIssue p l 3 t o m (xWord p l 3 t o m) s)
/-- `mma.acc` (R235). -/
def execMmaAcc (p l t o m : Nat) (s : State) : Out := .next (xIssue p l 4 t o m (xWord p l 4 t o m) s)
/-- `mma.tri` (R235, R236). -/
def execMmaTri (p l t o m : Nat) (s : State) : Out := .next (xIssue p l 5 t o m (xWord p l 5 t o m) s)
/-- `mma.tri.acc` (R235, R236). -/
def execMmaTriAcc (p l t o m : Nat) (s : State) : Out := .next (xIssue p l 6 t o m (xWord p l 6 t o m) s)
/-- `mma.p` (R237). -/
def execMmaP (p l o m : Nat) (s : State) : Out := .next (xIssue p l 7 0 o m (xWord p l 7 0 o m) s)
/-- `mzero` (R238). -/
def execMzero (p l t : Nat) (s : State) : Out := .next (xIssue p l 8 t 0 0 (xWord p l 8 t 0 0) s)
/-- `mdrain` (R240). -/
def execMdrain (p l t m : Nat) (s : State) : Out := .next (xIssue p l 9 t 0 m (xWord p l 9 t 0 m) s)
/-- `mdrain.sp` (R241, R242). -/
def execMdrainSp (p l m : Nat) (s : State) : Out := .next (xIssue p l 10 0 0 m (xWord p l 10 0 0 m) s)
/-- `mdrain.fab` (R243). -/
def execMdrainFab (p l m : Nat) (s : State) : Out := .next (xIssue p l 11 0 0 m (xWord p l 11 0 0 m) s)

/-- Whether nothing holds a core's line between its cycles. -/
def lineLow (c : Core) : Bool := c.q.free && c.q.bankHold == 0 && !anyWaits c [] c.f.xops

/-- X_OP_LAUNCH: the oldest operation of core `c` whose start delay has run out launches, faults, or stays held, with the line low (R231). -/
def execXOpLaunch (c : Nat) (s : State) : Out :=
  if !lineLow (coreAt s c) then .next s else
  match dueX (coreAt s c) with
  | [] => .next s
  | x :: _ => .next (launchOne s c (coreAt s c) x).2

/-- X_OP_FINISH: the operations of core `c` whose last row has been read or written leave flight (R231). -/
def execXOpFinish (c : Nat) (s : State) : Out := .next (modCore s c xRetire)

/-- A row of the drain of an order of issue has been placed (R245). -/
def xPlaced (n : Nat) (l : List XOp) : List XOp := l.map fun x => if x.seq = n && x.op == 11 then { x with placed := x.placed + 1 } else x

/-- DRAIN_ROW_PLACED: row `i` of core `c`'s drain queue, acknowledged as placed, leaves it and PBC falls by its size (R243, R107). -/
def execDrainRowPlaced (c i : Nat) (s : State) : Out :=
  let k := coreAt s c
  match k.f.drainq[i]? with
  | some r => if r.acked then
      .next (modCore s c fun k =>
        { k with f := { k.f with drainq := k.f.drainq.eraseIdx i, xops := xPlaced r.op k.f.xops },
                 q := { k.q with aside := k.q.aside.map fun a => { a with xops := xPlaced r.op a.xops } },
                 r := { k.r with pbc := k.r.pbc - r.bytes.length } })
    else .next s
  | none => .next s

end Sys2Proof.Machine
end

