-- ==== Sys2Proof/Machine/Queue.lean ====
section
/-! DEFINITION. Machine/Queue: queue headers, records, counter references, statuses (spec/19, R334 to R340): what engines, the scheduler and
the doorbells share. -/

namespace Sys2Proof.Machine

/-- DEVTIME (R183): whole nanoseconds. -/
def devNs (s : State) : Nat := s.dev / 19000000

/-- Whether TLPs of a function travel: for a TDI in RUN in the function's IDE stream, which must have its key and be secure (R402). -/
def streamOk (s : State) (fn : Nat) : Bool := spGet 0 s.sec.tdi fn != 2 || ((spFind s.sec.ide fn).isSome && !s.sec.insecure.contains fn)

/-- A write to host memory through a function: what leaves by the host link is posted, 102 in the function's stream and 100 outside one
(R402, log 23). -/
def hostWrite (s : State) (fn addr : Nat) (b : List Byte) : State :=
  if streamOk s fn then post s fn (if spGet 0 s.sec.tdi fn = 2 then 102 else 100) (addr :: b.map BitVec.toNat) else s

/-! ## Queue headers (R334) -/

def qAddr (s : State) (q : Nat) : Nat := (barRd s 0x00010000).toNat + 64 * q
def qWord (s : State) (q k : Nat) : Nat := memNat s (qAddr s q + 8 * k) 8
def qSet (s : State) (q k v : Nat) : State := memSetNat s (qAddr s q + 8 * k) 8 v
def qValid (s : State) (q : Nat) : Bool := bit (qWord s q 0) 63
def qHost (s : State) (q : Nat) : Bool := bit (qWord s q 0) 62
def qDevfed (s : State) (q : Nat) : Bool := bit (qWord s q 0) 61
def qFiller (s : State) (q : Nat) : Bool := bit (qWord s q 0) 60
def qPrio (s : State) (q : Nat) : Nat := bits (qWord s q 0) 59 57
def qPcmax (s : State) (q : Nat) : Nat := bits (qWord s q 0) 56 54
def qRlog (s : State) (q : Nat) : Nat := bits (qWord s q 0) 53 49
def qAsid (s : State) (q : Nat) : Nat := bits (qWord s q 0) 48 35
def qPart (s : State) (q : Nat) : Nat := bits (qWord s q 0) 34 27
def qPinok (s : State) (q : Nat) : Bool := bit (qWord s q 0) 26
/-- QUANTUM in µs; 0 means 2,000. -/
def qQuantum (s : State) (q : Nat) : Nat := let n := bits (qWord s q 0) 25 0; if n = 0 then 2000 else n
def qRing (s : State) (q : Nat) : Nat := qWord s q 1
def qCbase (s : State) (q : Nat) : Nat := qWord s q 2
def qTail (s : State) (q : Nat) : Nat := qWord s q 3
def qTake (s : State) (q : Nat) : Nat := qWord s q 4
def qHead (s : State) (q : Nat) : Nat := qWord s q 5
def qState (s : State) (q : Nat) : Nat := bits (qWord s q 6) 63 62

/-- Sets STATE, keeping DBDROP. -/
def qSetState (s : State) (q st : Nat) : State := qSet s q 6 (st * 2 ^ 62 + bits (qWord s q 6) 31 0)

/-- Counts an ignored doorbell (R335). -/
def qDrop (s : State) (q : Nat) : State := setHealth (qSet s q 6 (qState s q * 2 ^ 62 + min (bits (qWord s q 6) 31 0 + 1) (2 ^ 32 - 1))) 0

/-- Ring address of a record. -/
def qSlot (s : State) (q idx : Nat) : Nat := qRing s q + 64 * (idx % 2 ^ qRlog s q)

/-- Writes bytes of a ring slot. -/
def ringWrite (s : State) (q idx off : Nat) (b : List Byte) : State :=
  if qHost s q then hostWrite s (ownerOf s (qAsid s q)) (qSlot s q idx + off) b else hbmWrite s (qSlot s q idx + off) b

/-- The scheduler's own part of a queue. -/
def QState.reset : QState := { bound := false, slot := none, head := none, unmet := none, served := 0, turn := none, doneIdx := [], teardown := none, tsts := 0, lapsed := false }
def qsOf (s : State) (q : Nat) : QState := spGet .reset s.qs q
def modQ (s : State) (q : Nat) (f : QState → QState) : State := { s with qs := spSet s.qs q (f (qsOf s q)) }

/-- `task` into queue `q` from a task of an ASID (R285, R335): a status code of R263, the record appended when it is 0. -/
def taskEnqueue (s : State) (asid q : Nat) (b : List Byte) : Nat × State :=
  if !(qsOf s q).bound || qAsid s q != asid || !qDevfed s q then (0x01, s)
  else if qState s q != 0 || qTail s q ≥ qHead s q + 2 ^ qRlog s q then (0x0B, s)
  else (0, qSet (ringWrite s q (qTail s q) 0 b) q 3 (qTail s q + 1))

/-! ## Partitions and contexts (R329, R330) -/

def partAddr (s : State) (p : Nat) : Nat := (barRd s 0x00010008).toNat + 32 * p
def partValid (s : State) (p : Nat) : Bool := p < 192 && memNat s (partAddr s p + 28) 1 % 2 == 1
/-- Cores of a partition, ascending. -/
def partCores (s : State) (p : Nat) : List Nat := let m := memNat s (partAddr s p) 24; (upTo 192).filter fun n => bit m n

def ctxAddr (s : State) (c : Nat) : Nat := (barRd s 0x00010010).toNat + 64 * c
def ctxWord (s : State) (c : Nat) : Nat := memNat s (ctxAddr s c) 8
def ctxValid (s : State) (c : Nat) : Bool := bit (ctxWord s c) 63
def ctxState (s : State) (c : Nat) : Nat := bits (ctxWord s c) 62 61
def ctxAsid (s : State) (c : Nat) : Nat := bits (ctxWord s c) 45 32
def ctxPart (s : State) (c : Nat) : Nat := bits (ctxWord s c) 7 0
def ctxSave (s : State) (c : Nat) : Nat := memNat s (ctxAddr s c + 8) 8

/-- Sets VALID and STATE of a context. -/
def ctxSetState (s : State) (c : Nat) (v : Bool) (st : Nat) : State :=
  memSetNat s (ctxAddr s c) 8 (bits (ctxWord s c) 60 0 + st * 2 ^ 61 + (if v then 2 ^ 63 else 0))

/-- The context of an ASID on a partition. -/
def ctxOf (s : State) (asid part : Nat) : Option Nat :=
  (upTo 4096).find? fun c => ctxValid s c && ctxAsid s c == asid && ctxPart s c == part

/-- Place of a core among those of its partition. -/
def partIndex (s : State) (p core : Nat) : Nat := ((partCores s p).filter fun n => n < core).length

/-- Where the context-wide part of a save area begins (R348). -/
def ctxWide (s : State) (c : Nat) : Nat :=
  let n := (partCores s (ctxPart s c)).length
  ctxSave s c + (n * (2 ^ 22 + 2 ^ 17) + 2 ^ 22 - 1) / 2 ^ 22 * 2 ^ 22

/-- Where a counter of a context's counter file stands: in the core while the context is resident, in its save area otherwise
(R100, R348, log 24). -/
def ctxCounter (s : State) (c core n : Nat) : CtrAt :=
  if ctxState s c = 1 then .file core n else .hbm (ctxWide s c + 4096 * partIndex s (ctxPart s c) core + 8 * n)

/-! ## Counter references (R338) -/

/-- What a reference of a record reaches: a counter of this package, a COUNTER window to another, or a broken reference. -/
inductive RefAt where
  | at_ (c : CtrAt)
  | far (w : List Nat) (va o : Nat)
  | bad
deriving DecidableEq, Repr

/-- Whether a 21-bit reference breaks the layout (R338). -/
def refBad (s : State) (q r : Nat) : Bool :=
  if bit r 20 then false
  else bits r 19 17 != 0 || bits r 8 0 == 511 || !(partCores s (qPart s q)).contains (bits r 16 9)

/-- Resolves a reference for an access that needs a right (R338, R344). -/
def refAt (s : State) (q r need : Nat) : RefAt :=
  if refBad s q r then .bad
  else if !bit r 20 then
    match ctxOf s (qAsid s q) (qPart s q) with
    | some c => .at_ (ctxCounter s c (bits r 16 9) (bits r 8 0))
    | none => .bad
  else
    let va := qCbase s q + 8 * bits r 19 0
    match tableLook s (qAsid s q) va with
    | .bad _ => .bad
    | .hit e => match entRes e va with
      | .fail _ => .bad
      | .loc pa k rt _ _ _ => if k = kCOUNTER && hasRight rt need then .at_ (.hbm pa) else .bad
      | .win _ w o _ =>
        if winTgt w != 2 || !hasRight (winRights w) need then .bad
        else if winPkg w != pkgNo s then .far w va o
        else match keyCheck s (winKey w) 2 need o 8 with
          | some (_, b) => if b < 4088 then .at_ (.file (winCore w) (b / 8)) else .bad
          | none => .bad

/-- An add, or poison, by the scheduler (R101, R340, R345). -/
def refAdd (s : State) (q r : Nat) (poison : Bool) (n : Nat) : State :=
  match refAt s q r rA with
  | .bad => s
  | .at_ c => if poison then ctrWrite s (ctrPoison (ctrRead s c)) c else ctrWrite s (addOrPoison (ctrRead s c) n).1 c
  | .far w va o =>
    let (t, s) := newTag s ⟨9, 0, q, 0, none⟩
    hubSend s (winRequest s w va o 0x04 (if poison then 4 else 6) 8 t (toBytes n 8))

/-- Entries of a die's monitor table that are taken (R109): waits of its cores and of their engines, and dependences of the queues whose
partition begins on the die (log 88). -/
def monUsed (s : State) (die : Nat) : Nat :=
  (s.cores.map fun (n, c) =>
    if dieOf n != die || c.q.stopped then 0 else
    (match c.q.hold with | .counter _ _ _ _ _ _ _ _ _ _ true _ _ => 1 | _ => 0) + (c.f.cmds.filter Cmd.reg).length).sum +
  (s.qs.map fun (q, x) => if dieOf ((partCores s (qPart s q)).headD 0) = die then (x.head.map fun r => r.reg.length).getD 0 else 0).sum

/-- Whether a die's monitor table has an entry to give (R109). -/
def monFree (s : State) (die : Nat) : Bool := monUsed s die < 4096

/-! ## Record fields (R336) -/

def recWord (b : List Byte) (k : Nat) : Nat := leNat (slice b (8 * k) 8)
def recDoneV (b : List Byte) : Bool := bit (recWord b 0) 59
def recDoneRef (b : List Byte) : Nat := bits (recWord b 6) 63 43
def recDoneAmt (b : List Byte) : Nat := bits (recWord b 6) 42 0

/-- HEAD advances over every leading slot that has its status (R340). -/
def advanceHead (s : State) (q : Nat) : Nat → State
  | 0 => s
  | k + 1 =>
    let h := qHead s q
    if (qsOf s q).doneIdx.contains h then
      advanceHead (modQ (qSet s q 5 (h + 1)) q fun x => { x with doneIdx := x.doneIdx.filter fun i => i != h }) q k
    else s

/-- The scheduler has finished with a record: the DONE add or poison, then its status (R340, R345). -/
def finishRec (s : State) (q idx code reason : Nat) (b : List Byte) : State :=
  let s := if recDoneV b then refAdd s q (recDoneRef b) (code != 0) (recDoneAmt b) else s
  let s := ringWrite s q idx 56 (toBytes (code * 2 ^ 56 + reason * 2 ^ 48 + devNs s % 2 ^ 48) 8)
  advanceHead (modQ s q fun x => { x with doneIdx := idx :: x.doneIdx }) q ((qsOf s q).doneIdx.length + 1)

end Sys2Proof.Machine
end

