-- ==== Sys2Proof/Machine/Derailleur.lean ====
section
/-! DEFINITION. Machine/Derailleur: ramp slots and allowances (spec/25, R426 to R436), device time and its inputs (R437, R445), telemetry
(R438). -/

namespace Sys2Proof.Machine

/-- What a meaning answers. -/
abbrev Ans := Host.Outcome State Fault Refusal

/-! ## Configuration -/

def drlCtl (s : State) : Nat := (barRd s 0x00050000).toNat
/-- EN (R426). -/
def drlEn (s : State) : Bool := bit (drlCtl s) 63
/-- ENF: PINNED steps are enforced, from the evaluation after the write on. -/
def drlEnf (s : State) : Bool := s.drl.enf
def drlUps (s : State) : Nat := bits (drlCtl s) 61 50
def drlDns (s : State) : Nat := bits (drlCtl s) 49 38
def drlFillwait (s : State) : Nat := bits (drlCtl s) 37 30

/-- Slots a core of a power class needs (R428). -/
def slotsPer (s : State) (pc : Nat) : Nat := (bits (barRd s 0x00050008).toNat (8 * pc + 7) (8 * pc) + 7) / 8

/-- The cap of an allowance, in 0.01 W (R427): a slope of w W/ms is w·0.01 W per evaluation. -/
def allowCap (slope : Nat) : Int := max (slope : Int) 200

def modDrl (s : State) (f : Drl → Drl) : State := { s with drl := f s.drl }

/-- Slots a core holds. -/
def slotsOf (s : State) (n : Nat) : Nat := spGet 0 s.drl.slots n

/-- SLOTS (R436). -/
def slotsHeld (s : State) : Nat := (s.drl.slots.map Prod.snd).sum

/-! ## Releases -/

/-- Releases slots in order while the down allowance lasts (R427, R432). -/
def releaseRun : Nat → Drl → Drl
  | 0, d => d
  | k + 1, d =>
    match d.rel with
    | [] => d
    | (_, 0) :: l => releaseRun k { d with rel := l }
    | (n, m + 1) :: l =>
      if d.adn < 200 then d
      else releaseRun k { d with adn := d.adn - 200, slots := spMod 0 d.slots n (· - 1), rel := (n, m) :: l }

def releaseAll (d : Drl) : Drl := releaseRun ((d.rel.map fun (_, m) => m + 1).sum) d

/-- A core gives up its slots above a number (R430, R432); slots already waiting to be released are not asked for twice. -/
def releaseSlots (s : State) (n keep : Nat) : State :=
  if !drlEn s then s else
  modDrl s fun d =>
    let pending := ((d.rel.filter fun (m, _) => m == n).map Prod.snd).sum
    let held := spGet 0 d.slots n
    releaseAll { d with rel := d.rel ++ (if held ≤ keep + pending then [] else [(n, held - keep - pending)]) }

/-! ## Requests -/

/-- Slots a gang lacks on its cores (R430). -/
def slotsLack (s : State) (cores : List Nat) (per : Nat) : Nat := (cores.map fun n => per - slotsOf s n).sum

/-- Cores set aside by requests (R429). -/
def setAsideCores (s : State) : List Nat := s.drl.reqs.flatMap RampReq.cores

/-- Takes cores for a gang of an address space: their waiting releases are called off, and what they hold above the need is released
(R430). -/
def keepSlots (s : State) (asid : Nat) (cores : List Nat) (per : Nat) : State :=
  let s := modDrl s fun d => { d with rel := d.rel.filter (fun (n, _) => !cores.contains n), owner := cores.foldl (fun m n => spSet m n asid) d.owner }
  cores.foldl (fun s n => releaseSlots s n per) s

/-- Asks for a gang's slots (R429): `queue` is the queue, or 65,536 + gang id for a gang placed again. -/
def askSlots (s : State) (queue asid : Nat) (cores : List Nat) (per : Nat) : State :=
  let s := keepSlots s asid cores per
  modDrl s fun d => { d with reqs := d.reqs ++ [⟨queue, asid, cores, per, slotsLack s cores per⟩] }

/-- The request of a queue or gang. -/
def reqOf (s : State) (queue : Nat) : Option RampReq := s.drl.reqs.find? fun r => r.queue == queue

/-- Removes a request: its gang has started, or ended before (R350). -/
def dropReq (s : State) (queue : Nat) : State := modDrl s fun d => { d with reqs := d.reqs.filter fun r => r.queue != queue }

/-- Grants slots in request order, core by core in ascending number, while the up allowance lasts (R427, R429). -/
def grantRun : Nat → Drl → Drl
  | 0, d => d
  | k + 1, d =>
    match findIdxOf (fun (r : RampReq) => 0 < r.lack) d.reqs with
    | none => d
    | some (i, r) =>
      if d.aup < 200 then d else
      match (r.cores.mergeSort).find? fun n => spGet 0 d.slots n < r.per with
      | none => grantRun k { d with reqs := setAt d.reqs i { r with lack := 0 } }
      | some n => grantRun k { d with aup := d.aup - 200, slots := spMod 0 d.slots n (· + 1), reqs := setAt d.reqs i { r with lack := r.lack - 1 } }

def grantAll (d : Drl) : Drl := grantRun ((d.reqs.map fun r => r.lack + 1).sum) d

/-! ## Pinned groups (R434) -/

/-- Adds one to RAMP_WARN (0x18) or RAMP_VIOL (0x20). -/
def rampCount (s : State) (off : Nat) : State :=
  let o := 0x00050000 + off
  let v := (barRd s o).toNat
  setHealth (barWr s o (BitVec.ofNat 64 (min (v + 1) (2 ^ 64 - 1)))) 2

/-- Whether a pinned up step of `n` slots is refused under enforce. -/
def upRefused (s : State) (n : Nat) : Bool := drlEn s && drlEnf s && s.drl.aup < (n : Int) * 200

/-- Whether a pinned down step is refused under enforce. -/
def downRefused (s : State) (n : Nat) : Bool := drlEn s && drlEnf s && s.drl.adn < (n : Int) * 200

/-- Charges a pinned start. -/
def chargeUp (s : State) (n : Nat) : State :=
  if !drlEn s then s else modDrl s fun d =>
    let (b, t) := d.upFirst.getD (d.aup, 0)
    { d with aup := d.aup - (n : Int) * 200, upFirst := some (b, t + (n : Int) * 200) }

/-- Charges a pinned member's retirement. -/
def chargeDown (s : State) (n : Nat) : State :=
  if !drlEn s then s else modDrl s fun d =>
    let (b, t) := d.dnFirst.getD (d.adn, 0)
    { d with adn := d.adn - (n : Int) * 200, dnFirst := some (b, t + (n : Int) * 200) }

/-- Warnings of an evaluation (R434): compared before the evaluation adds its allowance. -/
def rampWarn (s : State) : State :=
  if drlEnf s then s else
  let exceeds := fun (x : Option (Int × Int)) => match x with | some (b, t) => decide (t > b) | none => false
  let s := if exceeds s.drl.upFirst then rampCount s 0x18 else s
  if exceeds s.drl.dnFirst then rampCount s 0x18 else s

/-! ## Evaluation and configuration -/

/-- Whether an evaluation is due (R427). -/
def evalDue (s : State) : Bool := s.drl.evals < devNs s / 10000

/-- One evaluation: warnings, allowances, grants, releases (R427, R429, R432, R434). -/
def drlEvaluate (s : State) : State :=
  let enf := bit (drlCtl s) 62
  let s := modDrl s fun d => { d with evals := d.evals + 1 }
  if !drlEn s then modDrl s fun d => { d with upFirst := none, dnFirst := none, enf := enf } else
  let s := modDrl (rampWarn s) fun d => { d with enf := enf }
  let up := drlUps s
  let dn := drlDns s
  modDrl s fun d =>
    releaseAll (grantAll { d with upFirst := none, dnFirst := none,
                                  aup := min (d.aup + (up : Int)) (allowCap up), adn := min (d.adn + (dn : Int)) (allowCap dn) })

/-- Writes DRL_CTL (R426): a slope out of range makes the write ignored; EN falling acts at once. -/
def drlWrite (s : State) (v : Nat) : State :=
  let ups := bits v 61 50
  let dns := bits v 49 38
  if ups < 10 || ups > 2000 || dns < 10 || dns > 2000 then barWr s 0x00050010 (barRd s 0x00050010 ||| (1#64 <<< 63)) else
  let was := drlEn s
  let s := barWr s 0x00050000 (BitVec.ofNat 64 (bits v 63 30 * 2 ^ 30))
  if was && !bit v 63 then
    modDrl s fun d => { d with slots := [], rel := [], aup := allowCap ups, adn := allowCap dns, reqs := d.reqs.map fun r => { r with lack := 0 },
                               upFirst := none, dnFirst := none }
  else s

/-- Whether a core is in ballast (R429, R431, R432): it holds slots and is set aside or without a task, or waits for a counter or a token, with
no X operation in flight. A member that is stopped, or waits in `halt`, is not (log 16); nor is a PINNED one (R434). -/
def inBallast (s : State) (n : Nat) : Bool :=
  let c := coreAt s n
  drlEn s && slotsOf s n != 0 && !c.f.xops.any XOp.launched &&
  (c.bind.isNone || c.q.retired ||
    (c.q.running && (c.q.heldBy == 0x09 || (c.q.heldBy == 0x0A && c.q.hold != .halt)) && !(match c.bind with | some b => b.pinned | none => false)))

/-! ## Device time -/

/-- TIME_CTL.SRC and STATE (R437). -/
def timeSrc (s : State) : Nat := bits (barRd s 0x00050040).toNat 63 62
def timeState (s : State) : Nat := bits (barRd s 0x00050040).toNat 61 60

/-- Sets STATE; leaving LOCKED is a health event (R442). -/
def setTimeState (s : State) (st : Nat) : State :=
  let was := timeState s
  let s := barWr s 0x00050040 (BitVec.ofNat 64 (timeSrc s * 2 ^ 62 + st * 2 ^ 60))
  if was = 1 && st != 1 then setHealth s 1 else s

/-- Whether firmware serves queues (R437). -/
def servesQueues (s : State) : Bool := timeSrc s == 0 || s.time.everLocked

def modTime (s : State) (f : TimeIn → TimeIn) : State := { s with time := f s.time }

/-- The time-of-day message of an edge counts as ignored (R445). -/
def todIgnored (s : State) : State :=
  let s := modTime s fun t => { t with got := [], heard := true, ignored := t.ignored + 1 }
  if s.time.ignored ≥ 3 && timeState s == 1 then setTimeState s 2 else s

/-- A 16-byte message is good (R445). -/
def todGood (b : List Byte) : Bool := b.length == 16 && (slice b 8 7).all (· == 0) && (b.take 15).foldl (· ^^^ ·) 0 == b.getD 15 0

/-- PPS_EDGE: a rising edge marks a TAI second; a message begins after it (R445). -/
def execPpsEdge (s : State) : Ans :=
  let s := if s.time.edge.isSome && !s.time.heard then todIgnored s else s
  .next (modTime s fun t => { t with edge := some s.dev, got := [], heard := false, tai := t.msg, msg := none })

/-- TOD_MESSAGE: bytes arrive on TOD_RX; the sixteenth makes the message accepted or ignored, and more than 1 ms since the last one has ended
it (R445). -/
def execTodMessage (b : List Nat) (s : State) : Ans :=
  match s.time.edge with
  | none => .next s
  | some e =>
    if s.time.heard then .next s
    else if !s.time.got.isEmpty && s.dev > s.time.lastByte + 1000000 * 19000000 then .next (todIgnored s)
    else
    let got := s.time.got ++ b.map (BitVec.ofNat 8)
    let s := modTime s fun t => { t with got := got, lastByte := s.dev }
    if got.length < 16 then .next s
    else if todGood (got.take 16) && s.dev ≤ e + 500000000 * 19000000 then
      .next (modTime s fun t => { t with got := [], heard := true, ignored := 0, msg := some (leNat (got.take 6)) })
    else .next (todIgnored s)

/-- TOD_BYTE_GAP: more than 1 ms since the last byte ends a message that has begun (R445). -/
def execTodByteGap (s : State) : Ans :=
  if s.time.got.isEmpty || s.time.heard || s.dev ≤ s.time.lastByte + 1000000 * 19000000 then .next s else .next (todIgnored s)

/-- TOD_DEADLINE: 500 ms after an edge without a complete message (R445). -/
def execTodDeadline (s : State) : Ans :=
  match s.time.edge with
  | none => .next s
  | some e => if s.time.heard || s.dev < e + 500000000 * 19000000 then .next s else .next (todIgnored s)

/-- TAI nanoseconds as the source gives them: by Precision Time Measurement (`t`), or by the last edge (R437). -/
def sourceTime (s : State) (t : Nat) : Option Nat :=
  if timeSrc s = 1 then some t
  else if timeSrc s = 2 then match s.time.tai, s.time.edge with
    | some x, some e => some (x * 1000000000 + (s.dev - e) / 19000000)
    | _, _ => none
  else none

/-- A moment of the time input on the other side of the step of DEVTIME. -/
def rebase (old new t : Nat) : Nat := new - (old - t)

/-- TIME_LOCK: the first lock before any queue is served steps DEVTIME once; a later one slews by at most 200 ppm (R437). -/
def execTimeLock (t : Nat) (p : Int) (s : State) : Ans :=
  match sourceTime s t with
  | none => .next s
  | some ns =>
    let first := !s.time.everLocked && !s.time.served
    let move := rebase s.dev (ns * 19000000)
    let s := if first then
        { s with
          dev := ns * 19000000
          drl := { s.drl with evals := ns / 10000 }
          time := { s.time with tlm := ns / 100000, edge := s.time.edge.map move, lastByte := move s.time.lastByte } }
      else { s with ppm := max (-200) (min 200 p) }
    .next (setTimeState (modTime s fun x => { x with everLocked := true }) 1)

/-- TIME_SOURCE_LOSS: HOLDOVER at the last rate (R437). -/
def execTimeSourceLoss (s : State) : Ans := if timeState s = 1 then .next (setTimeState s 2) else .next s

/-! ## Telemetry -/

/-- Whether a record is due (R438). -/
def tlmDue (s : State) : Bool := s.time.tlm < devNs s / 100000

/-- TELEMETRY_RECORD: the record of the window that has ended; measured powers are free values (R438, log 22). -/
def execTelemetryRecord (s : State) : Ans :=
  if !tlmDue s then .next s else
  let k := s.time.tlm + 1
  let s := modTime s fun t => { t with tlm := k }
  let ctl := (barRd s 0x00050050).toNat
  let size := bits ctl 47 0 / 4096 * 4096
  if !bit ctl 63 || size = 0 then .next s else
  let (ep, s) := drawFresh s
  let head := (barRd s 0x00050058).toNat
  let stamp := k * 100000
  let pw := fun (i : Nat) => toBytes (Config.freeBits 16 (ep + 1) i).toNat 2
  let b := toBytes (head / 64) 8 ++ toBytes (stamp / 1000000000) 6 ++ toBytes (stamp % 1000000000) 4 ++ toBytes (timeState s) 1 ++ [0] ++
    ((upTo 14).map pw).flatten ++ toBytes (slotsHeld s) 2 ++ toBytes ((upTo 192).filter (inBallast s)).length 2 ++ List.replicate 12 0
  let s := { s with mem := memPutBytes s.mem (bits (barRd s 0x00050048).toNat 38 12 * 4096 + head % size) b }
  .next (barWr s 0x00050058 (BitVec.ofNat 64 (head + 64)))

end Sys2Proof.Machine
end

