-- ==== Sys2Proof/WellFormed.lean ====
section
/-! DEFINITION. WellFormed: the limits that spec/08 (R145, R147 to R162) sets on the fields of every slot operation. -/

namespace Sys2Proof

/-- Control-register numbers that R179 assigns. -/
def sysReadable (r : Nat) : Bool := r ≤ 0x00A || (0x100 ≤ r && r ≤ 0x1FF)

/-- Control-register numbers whose access R179 gives as RW. -/
def sysWritable (r : Nat) : Bool := r == 0x000 || r == 0x002 || r == 0x005 || r == 0x006 || r == 0x007

/-- A 12-bit vector operand field whose index (bits 9:0) is below 640 (R60, R145). -/
def vopOk (v : Nat) : Bool := v < 4096 && v % 1024 < 640

/-- Token fields of a three-token A form (R162): those beyond the count are 0 and none consumed is the produced one. -/
def tokList3 (n a b c r : Nat) : Bool :=
  (if n ≥ 1 then a != r else a == 0) && (if n ≥ 2 then b != r else b == 0) && (if n ≥ 3 then c != r else c == 0)

/-- Token fields of a two-token A form (AK, R160, R162). -/
def tokList2 (n a b r : Nat) : Bool :=
  (if n ≥ 1 then a != r else a == 0) && (if n ≥ 2 then b != r else b == 0)

/-- The token field of a one-token A form (AP, R160, R162). -/
def tokList1 (n a r : Nat) : Bool := if n ≥ 1 then a != r else a == 0

/-- The fields of a slot operation lie within their widths and the limits of its form; events have no encoding to limit. -/
def Instr.WF : Instr → Prop
  | .cNop p => p < 16
  | .pbr p b r => p < 16 ∧ b < 8 ∧ r < 4096
  | .pbrS p b a => p < 16 ∧ b < 8 ∧ a < 64
  | .br p b q => p < 16 ∧ b < 8 ∧ q < 16
  | .brN p b q => p < 16 ∧ b < 8 ∧ q < 16
  | .call p b => p < 16 ∧ b < 8
  | .ret p => p < 16
  | .loop p i => p < 16 ∧ i < 8
  | .loopSwp p i => p < 16 ∧ i < 8
  | .lbrk p i => p < 16 ∧ i < 8
  | .ctwait p c a => p < 16 ∧ c < 512 ∧ a ≤ 62
  | .ctwaitT p c a => p < 16 ∧ c < 512 ∧ a ≤ 62
  | .ctwaitG p a => p < 16 ∧ a ≤ 61
  | .ctwaitGt p a => p < 16 ∧ a ≤ 61
  | .tkwait p x y z => p < 16 ∧ x < 32 ∧ y < 32 ∧ z < 32 ∧ 16 ≤ x ∧ (16 ≤ y ∨ (y = 0 ∧ z = 0)) ∧ (16 ≤ z ∨ z = 0)
  | .sstep p => p < 16
  | .yield p => p < 16
  | .halt p => p < 16
  | .brk p n => p < 16 ∧ n < 256
  | .trap p n => p < 16 ∧ n < 256
  | .tret p => p < 16
  | .sysrd p d r => p < 16 ∧ d < 64 ∧ sysReadable r = true
  | .syswr p a r => p < 16 ∧ a < 64 ∧ sysWritable r = true
  | .wheel p n => p < 16 ∧ n < 256
  | .pwrHint p n => p < 16 ∧ n < 16
  | .sNop p => p < 16
  | .add p d a b => p < 16 ∧ d < 64 ∧ a < 64 ∧ b < 64
  | .sub p d a b => p < 16 ∧ d < 64 ∧ a < 64 ∧ b < 64
  | .mul p d a b => p < 16 ∧ d < 64 ∧ a < 64 ∧ b < 64
  | .mulh p d a b => p < 16 ∧ d < 64 ∧ a < 64 ∧ b < 64
  | .mulhu p d a b => p < 16 ∧ d < 64 ∧ a < 64 ∧ b < 64
  | .div p d a b => p < 16 ∧ d < 64 ∧ a < 64 ∧ b < 64
  | .divu p d a b => p < 16 ∧ d < 64 ∧ a < 64 ∧ b < 64
  | .rem p d a b => p < 16 ∧ d < 64 ∧ a < 64 ∧ b < 64
  | .remu p d a b => p < 16 ∧ d < 64 ∧ a < 64 ∧ b < 64
  | .and p d a b => p < 16 ∧ d < 64 ∧ a < 64 ∧ b < 64
  | .or p d a b => p < 16 ∧ d < 64 ∧ a < 64 ∧ b < 64
  | .xor p d a b => p < 16 ∧ d < 64 ∧ a < 64 ∧ b < 64
  | .andn p d a b => p < 16 ∧ d < 64 ∧ a < 64 ∧ b < 64
  | .sll p d a b => p < 16 ∧ d < 64 ∧ a < 64 ∧ b < 64
  | .srl p d a b => p < 16 ∧ d < 64 ∧ a < 64 ∧ b < 64
  | .sra p d a b => p < 16 ∧ d < 64 ∧ a < 64 ∧ b < 64
  | .slli p d a n => p < 16 ∧ d < 64 ∧ a < 64 ∧ n < 64
  | .srli p d a n => p < 16 ∧ d < 64 ∧ a < 64 ∧ n < 64
  | .srai p d a n => p < 16 ∧ d < 64 ∧ a < 64 ∧ n < 64
  | .min p d a b => p < 16 ∧ d < 64 ∧ a < 64 ∧ b < 64
  | .max p d a b => p < 16 ∧ d < 64 ∧ a < 64 ∧ b < 64
  | .minu p d a b => p < 16 ∧ d < 64 ∧ a < 64 ∧ b < 64
  | .maxu p d a b => p < 16 ∧ d < 64 ∧ a < 64 ∧ b < 64
  | .popc p d a => p < 16 ∧ d < 64 ∧ a < 64
  | .clz p d a => p < 16 ∧ d < 64 ∧ a < 64
  | .cmpEq p k a b => p < 16 ∧ k < 8 ∧ a < 64 ∧ b < 64
  | .cmpLt p k a b => p < 16 ∧ k < 8 ∧ a < 64 ∧ b < 64
  | .cmpLtu p k a b => p < 16 ∧ k < 8 ∧ a < 64 ∧ b < 64
  | .cmpLe p k a b => p < 16 ∧ k < 8 ∧ a < 64 ∧ b < 64
  | .cmpLeu p k a b => p < 16 ∧ k < 8 ∧ a < 64 ∧ b < 64
  | .plog p d a b t => p < 16 ∧ d < 16 ∧ a < 16 ∧ b < 16 ∧ t < 16 ∧ 1 ≤ d
  | .sel p k d a b => p < 16 ∧ k < 16 ∧ d < 32 ∧ a < 32 ∧ b < 32
  | .addi p d i => p < 16 ∧ d < 64 ∧ i < 4096
  | .li p d i => p < 16 ∧ d < 64 ∧ i < 4096
  | .lic p d i => p < 16 ∧ d < 64 ∧ i < 4096
  | .kconst p d i => p < 16 ∧ d < 64 ∧ i < 256
  | .hmk p d i => p < 16 ∧ d < 64 ∧ i < 256
  | .hsz p d i => p < 16 ∧ d < 64 ∧ i < 256
  | .hrow p d i => p < 16 ∧ d < 64 ∧ i < 256
  | .mfpr p d => p < 16 ∧ d < 64
  | .mtpr p a => p < 16 ∧ a < 64
  | .mflc p d n => p < 16 ∧ d < 64 ∧ n < 8
  | .mfb p d n => p < 16 ∧ d < 64 ∧ n < 8
  | .mtb p n a => p < 16 ∧ n < 8 ∧ a < 64
  | .stsetF p t s a => p < 16 ∧ t < 16 ∧ s < 16 ∧ a < 64
  | .stsetZ p t => p < 16 ∧ t < 16
  | .stsetCp p t m => p < 16 ∧ t < 16 ∧ m < 16
  | .mtmm p n a => p < 16 ∧ n < 16 ∧ a < 64
  | .mfmm p d n => p < 16 ∧ d < 64 ∧ n < 16
  | .fadd p d a b => p < 16 ∧ d < 64 ∧ a < 64 ∧ b < 64
  | .fsub p d a b => p < 16 ∧ d < 64 ∧ a < 64 ∧ b < 64
  | .fmul p d a b => p < 16 ∧ d < 64 ∧ a < 64 ∧ b < 64
  | .fdiv p d a b => p < 16 ∧ d < 64 ∧ a < 64 ∧ b < 64
  | .fsqrt p d a => p < 16 ∧ d < 64 ∧ a < 64
  | .fmin p d a b => p < 16 ∧ d < 64 ∧ a < 64 ∧ b < 64
  | .fmax p d a b => p < 16 ∧ d < 64 ∧ a < 64 ∧ b < 64
  | .fcmpEq p k a b => p < 16 ∧ k < 8 ∧ a < 64 ∧ b < 64
  | .fcmpLt p k a b => p < 16 ∧ k < 8 ∧ a < 64 ∧ b < 64
  | .fcmpLe p k a b => p < 16 ∧ k < 8 ∧ a < 64 ∧ b < 64
  | .fcmpUn p k a b => p < 16 ∧ k < 8 ∧ a < 64 ∧ b < 64
  | .fcvtD2l p d a => p < 16 ∧ d < 64 ∧ a < 64
  | .fcvtL2d p d a => p < 16 ∧ d < 64 ∧ a < 64
  | .fcvtD2s p d a => p < 16 ∧ d < 64 ∧ a < 64
  | .fcvtS2d p d a => p < 16 ∧ d < 64 ∧ a < 64
  | .fabs p d a => p < 16 ∧ d < 64 ∧ a < 64
  | .fneg p d a => p < 16 ∧ d < 64 ∧ a < 64
  | .fsGcd p d a b => p < 16 ∧ d < 64 ∧ a < 64 ∧ b < 64
  | .fsMk p d a b => p < 16 ∧ d < 64 ∧ a < 64 ∧ b < 64
  | .fsMed p d a b => p < 16 ∧ d < 64 ∧ a < 64 ∧ b < 64
  | .fsNear p d a b => p < 16 ∧ d < 64 ∧ a < 64 ∧ b < 64
  | .fsNum p d a => p < 16 ∧ d < 64 ∧ a < 64
  | .fsDen p d a => p < 16 ∧ d < 64 ∧ a < 64
  | .fsClass p d a => p < 16 ∧ d < 64 ∧ a < 64
  | .fsCanon p d a => p < 16 ∧ d < 64 ∧ a < 64
  | .fsCvtF32 p d a => p < 16 ∧ d < 64 ∧ a < 64
  | .fsCvtE8 p d a => p < 16 ∧ d < 64 ∧ a < 64
  | .fsPack32 p d a => p < 16 ∧ d < 64 ∧ a < 64
  | .fsUnpk32 p d a => p < 16 ∧ d < 64 ∧ a < 64
  | .lNop p => p < 16
  | .vld32 p v t => p < 16 ∧ t < 16 ∧ vopOk v = true
  | .vld16 p v t => p < 16 ∧ t < 16 ∧ vopOk v = true
  | .qld p q t => p < 16 ∧ q < 16 ∧ t < 16
  | .ldsB p d a v k => p < 16 ∧ d < 64 ∧ a < 64 ∧ v < 2 ∧ k < 16 ∧ (v = 1 ∨ k = 0)
  | .ldsH p d a v k => p < 16 ∧ d < 64 ∧ a < 64 ∧ v < 2 ∧ k < 16 ∧ (v = 1 ∨ k = 0)
  | .ldsW p d a v k => p < 16 ∧ d < 64 ∧ a < 64 ∧ v < 2 ∧ k < 16 ∧ (v = 1 ∨ k = 0)
  | .ldsD p d a v k => p < 16 ∧ d < 64 ∧ a < 64 ∧ v < 2 ∧ k < 16 ∧ (v = 1 ∨ k = 0)
  | .ofill p s t v k => p < 16 ∧ s < 16 ∧ t < 16 ∧ v < 2 ∧ k < 16 ∧ (v = 1 ∨ k = 0)
  | .halloc p h d a => p < 16 ∧ h < 256 ∧ d < 16 ∧ a < 64 ∧ 1 ≤ d
  | .hfree p h => p < 16 ∧ h < 256
  | .wNop p => p < 16
  | .vst32 p v t => p < 16 ∧ t < 16 ∧ vopOk v = true
  | .vst16 p v t => p < 16 ∧ t < 16 ∧ vopOk v = true
  | .qst p q t => p < 16 ∧ q < 16 ∧ t < 16
  | .stsB p d a v k => p < 16 ∧ d < 64 ∧ a < 64 ∧ v < 2 ∧ k < 16 ∧ (v = 1 ∨ k = 0)
  | .stsH p d a v k => p < 16 ∧ d < 64 ∧ a < 64 ∧ v < 2 ∧ k < 16 ∧ (v = 1 ∨ k = 0)
  | .stsW p d a v k => p < 16 ∧ d < 64 ∧ a < 64 ∧ v < 2 ∧ k < 16 ∧ (v = 1 ∨ k = 0)
  | .stsD p d a v k => p < 16 ∧ d < 64 ∧ a < 64 ∧ v < 2 ∧ k < 16 ∧ (v = 1 ∨ k = 0)
  | .oclaim p s => p < 16 ∧ s < 16
  | .orel p s => p < 16 ∧ s < 16
  | .gNop p => p < 16
  | .ldB p d a v t w u => p < 16 ∧ d < 64 ∧ a < 64 ∧ v < 2 ∧ t < 16 ∧ w < 2 ∧ u < 16 ∧ (v = 1 ∨ (t = 0 ∧ w = 0)) ∧ (w = 1 ∨ u = 0)
  | .ldH p d a v t w u => p < 16 ∧ d < 64 ∧ a < 64 ∧ v < 2 ∧ t < 16 ∧ w < 2 ∧ u < 16 ∧ (v = 1 ∨ (t = 0 ∧ w = 0)) ∧ (w = 1 ∨ u = 0)
  | .ldW p d a v t w u => p < 16 ∧ d < 64 ∧ a < 64 ∧ v < 2 ∧ t < 16 ∧ w < 2 ∧ u < 16 ∧ (v = 1 ∨ (t = 0 ∧ w = 0)) ∧ (w = 1 ∨ u = 0)
  | .ldD p d a v t w u => p < 16 ∧ d < 64 ∧ a < 64 ∧ v < 2 ∧ t < 16 ∧ w < 2 ∧ u < 16 ∧ (v = 1 ∨ (t = 0 ∧ w = 0)) ∧ (w = 1 ∨ u = 0)
  | .stB p d a v t w u => p < 16 ∧ d < 64 ∧ a < 64 ∧ v < 2 ∧ t < 16 ∧ w < 2 ∧ u < 16 ∧ (v = 1 ∨ (t = 0 ∧ w = 0)) ∧ (w = 1 ∨ u = 0)
  | .stH p d a v t w u => p < 16 ∧ d < 64 ∧ a < 64 ∧ v < 2 ∧ t < 16 ∧ w < 2 ∧ u < 16 ∧ (v = 1 ∨ (t = 0 ∧ w = 0)) ∧ (w = 1 ∨ u = 0)
  | .stW p d a v t w u => p < 16 ∧ d < 64 ∧ a < 64 ∧ v < 2 ∧ t < 16 ∧ w < 2 ∧ u < 16 ∧ (v = 1 ∨ (t = 0 ∧ w = 0)) ∧ (w = 1 ∨ u = 0)
  | .stD p d a v t w u => p < 16 ∧ d < 64 ∧ a < 64 ∧ v < 2 ∧ t < 16 ∧ w < 2 ∧ u < 16 ∧ (v = 1 ∨ (t = 0 ∧ w = 0)) ∧ (w = 1 ∨ u = 0)
  | .ldAcqW p d a v t w u => p < 16 ∧ d < 64 ∧ a < 64 ∧ v < 2 ∧ t < 16 ∧ w < 2 ∧ u < 16 ∧ (v = 1 ∨ (t = 0 ∧ w = 0)) ∧ (w = 1 ∨ u = 0)
  | .ldAcqD p d a v t w u => p < 16 ∧ d < 64 ∧ a < 64 ∧ v < 2 ∧ t < 16 ∧ w < 2 ∧ u < 16 ∧ (v = 1 ∨ (t = 0 ∧ w = 0)) ∧ (w = 1 ∨ u = 0)
  | .stRelW p d a v t w u => p < 16 ∧ d < 64 ∧ a < 64 ∧ v < 2 ∧ t < 16 ∧ w < 2 ∧ u < 16 ∧ (v = 1 ∨ (t = 0 ∧ w = 0)) ∧ (w = 1 ∨ u = 0)
  | .stRelD p d a v t w u => p < 16 ∧ d < 64 ∧ a < 64 ∧ v < 2 ∧ t < 16 ∧ w < 2 ∧ u < 16 ∧ (v = 1 ∨ (t = 0 ∧ w = 0)) ∧ (w = 1 ∨ u = 0)
  | .ldV p d a b => p < 16 ∧ d < 64 ∧ a < 64 ∧ b < 64
  | .stV p d a b => p < 16 ∧ d < 64 ∧ a < 64 ∧ b < 64
  | .amoAdd p d a b => p < 16 ∧ d < 64 ∧ a < 64 ∧ b < 64
  | .amoMax p d a b => p < 16 ∧ d < 64 ∧ a < 64 ∧ b < 64
  | .amoMaxu p d a b => p < 16 ∧ d < 64 ∧ a < 64 ∧ b < 64
  | .amoMin p d a b => p < 16 ∧ d < 64 ∧ a < 64 ∧ b < 64
  | .amoMinu p d a b => p < 16 ∧ d < 64 ∧ a < 64 ∧ b < 64
  | .amoAnd p d a b => p < 16 ∧ d < 64 ∧ a < 64 ∧ b < 64
  | .amoOr p d a b => p < 16 ∧ d < 64 ∧ a < 64 ∧ b < 64
  | .amoXor p d a b => p < 16 ∧ d < 64 ∧ a < 64 ∧ b < 64
  | .amoSwap p d a b => p < 16 ∧ d < 64 ∧ a < 64 ∧ b < 64
  | .amoCas p d a b => p < 16 ∧ d < 64 ∧ a < 64 ∧ b < 64
  | .amoScAdd p d a b => p < 16 ∧ d < 64 ∧ a < 64 ∧ b < 64
  | .amoScSwap p d a b => p < 16 ∧ d < 64 ∧ a < 64 ∧ b < 64
  | .amoScCas p d a b => p < 16 ∧ d < 64 ∧ a < 64 ∧ b < 64
  | .amoScMax p d a b => p < 16 ∧ d < 64 ∧ a < 64 ∧ b < 64
  | .amoScMin p d a b => p < 16 ∧ d < 64 ∧ a < 64 ∧ b < 64
  | .fenceCore p => p < 16
  | .fenceQuad p => p < 16
  | .fenceDie p => p < 16
  | .fencePackage p => p < 16
  | .fenceFabric p => p < 16
  | .pf p a => p < 16 ∧ a < 64
  | .wprobe p d a => p < 16 ∧ d < 64 ∧ a < 64
  | .xNop p => p < 16
  | .mwld p l s m => p < 16 ∧ l < 16 ∧ s < 16 ∧ m < 16
  | .mtrans p l s m => p < 16 ∧ l < 16 ∧ s < 16 ∧ m < 16
  | .mma p l t s m => p < 16 ∧ l < 16 ∧ s < 16 ∧ m < 16 ∧ t < 5
  | .mmaAcc p l t s m => p < 16 ∧ l < 16 ∧ s < 16 ∧ m < 16 ∧ t < 5
  | .mmaTri p l t s m => p < 16 ∧ l < 16 ∧ s < 16 ∧ m < 16 ∧ t < 5
  | .mmaTriAcc p l t s m => p < 16 ∧ l < 16 ∧ s < 16 ∧ m < 16 ∧ t < 5
  | .mmaP p l s m => p < 16 ∧ l < 16 ∧ s < 16 ∧ m < 16
  | .mzero p l t => p < 16 ∧ l < 16 ∧ t < 5
  | .mdrain p l t m => p < 16 ∧ l < 16 ∧ m < 16 ∧ t < 5
  | .mdrainSp p l m => p < 16 ∧ l < 16 ∧ m < 16
  | .mdrainFab p l m => p < 16 ∧ l < 16 ∧ m < 16
  | .vNop p => p < 16
  | .vaddF p w t d a b => p < 16 ∧ w < 2 ∧ t < 2 ∧ vopOk d = true ∧ vopOk a = true ∧ vopOk b = true ∧ (w = 1 ∨ t = 0)
  | .vsubF p w t d a b => p < 16 ∧ w < 2 ∧ t < 2 ∧ vopOk d = true ∧ vopOk a = true ∧ vopOk b = true ∧ (w = 1 ∨ t = 0)
  | .vmulF p w t d a b => p < 16 ∧ w < 2 ∧ t < 2 ∧ vopOk d = true ∧ vopOk a = true ∧ vopOk b = true ∧ (w = 1 ∨ t = 0)
  | .vfma p w t d a b => p < 16 ∧ w < 2 ∧ t < 2 ∧ vopOk d = true ∧ vopOk a = true ∧ vopOk b = true ∧ (w = 1 ∨ t = 0)
  | .vminF p w t d a b => p < 16 ∧ w < 2 ∧ t < 2 ∧ vopOk d = true ∧ vopOk a = true ∧ vopOk b = true ∧ (w = 1 ∨ t = 0)
  | .vmaxF p w t d a b => p < 16 ∧ w < 2 ∧ t < 2 ∧ vopOk d = true ∧ vopOk a = true ∧ vopOk b = true ∧ (w = 1 ∨ t = 0)
  | .vabs p w t d a => p < 16 ∧ w < 2 ∧ t < 2 ∧ vopOk d = true ∧ vopOk a = true ∧ (w = 1 ∨ t = 0)
  | .vneg p w t d a => p < 16 ∧ w < 2 ∧ t < 2 ∧ vopOk d = true ∧ vopOk a = true ∧ (w = 1 ∨ t = 0)
  | .vcmpEqF p w t d a b => p < 16 ∧ w < 2 ∧ t < 2 ∧ vopOk d = true ∧ vopOk a = true ∧ vopOk b = true ∧ (w = 1 ∨ t = 0)
  | .vcmpLtF p w t d a b => p < 16 ∧ w < 2 ∧ t < 2 ∧ vopOk d = true ∧ vopOk a = true ∧ vopOk b = true ∧ (w = 1 ∨ t = 0)
  | .vcmpLeF p w t d a b => p < 16 ∧ w < 2 ∧ t < 2 ∧ vopOk d = true ∧ vopOk a = true ∧ vopOk b = true ∧ (w = 1 ∨ t = 0)
  | .vrsumF p w t d a => p < 16 ∧ w < 2 ∧ t < 2 ∧ vopOk d = true ∧ vopOk a = true ∧ (w = 1 ∨ t = 0)
  | .vrmax p w t d a => p < 16 ∧ w < 2 ∧ t < 2 ∧ vopOk d = true ∧ vopOk a = true ∧ (w = 1 ∨ t = 0)
  | .vrmin p w t d a => p < 16 ∧ w < 2 ∧ t < 2 ∧ vopOk d = true ∧ vopOk a = true ∧ (w = 1 ∨ t = 0)
  | .vexp2 p w t d a => p < 16 ∧ w < 2 ∧ t < 2 ∧ vopOk d = true ∧ vopOk a = true ∧ (w = 1 ∨ t = 0)
  | .vlog2 p w t d a => p < 16 ∧ w < 2 ∧ t < 2 ∧ vopOk d = true ∧ vopOk a = true ∧ (w = 1 ∨ t = 0)
  | .vrcp p w t d a => p < 16 ∧ w < 2 ∧ t < 2 ∧ vopOk d = true ∧ vopOk a = true ∧ (w = 1 ∨ t = 0)
  | .vrsq p w t d a => p < 16 ∧ w < 2 ∧ t < 2 ∧ vopOk d = true ∧ vopOk a = true ∧ (w = 1 ∨ t = 0)
  | .vtanh p w t d a => p < 16 ∧ w < 2 ∧ t < 2 ∧ vopOk d = true ∧ vopOk a = true ∧ (w = 1 ∨ t = 0)
  | .vsilu p w t d a => p < 16 ∧ w < 2 ∧ t < 2 ∧ vopOk d = true ∧ vopOk a = true ∧ (w = 1 ∨ t = 0)
  | .vaddI p w t d a b => p < 16 ∧ w < 2 ∧ t < 2 ∧ vopOk d = true ∧ vopOk a = true ∧ vopOk b = true
  | .vsubI p w t d a b => p < 16 ∧ w < 2 ∧ t < 2 ∧ vopOk d = true ∧ vopOk a = true ∧ vopOk b = true
  | .vmulI p w t d a b => p < 16 ∧ w < 2 ∧ t < 2 ∧ vopOk d = true ∧ vopOk a = true ∧ vopOk b = true
  | .vminI p w t d a b => p < 16 ∧ w < 2 ∧ t < 2 ∧ vopOk d = true ∧ vopOk a = true ∧ vopOk b = true
  | .vmaxI p w t d a b => p < 16 ∧ w < 2 ∧ t < 2 ∧ vopOk d = true ∧ vopOk a = true ∧ vopOk b = true
  | .vand p w d a b => p < 16 ∧ w < 2 ∧ vopOk d = true ∧ vopOk a = true ∧ vopOk b = true
  | .vor p w d a b => p < 16 ∧ w < 2 ∧ vopOk d = true ∧ vopOk a = true ∧ vopOk b = true
  | .vxor p w d a b => p < 16 ∧ w < 2 ∧ vopOk d = true ∧ vopOk a = true ∧ vopOk b = true
  | .vshl p w d a b => p < 16 ∧ w < 2 ∧ vopOk d = true ∧ vopOk a = true ∧ vopOk b = true
  | .vshr p w d a b => p < 16 ∧ w < 2 ∧ vopOk d = true ∧ vopOk a = true ∧ vopOk b = true
  | .vsra p w d a b => p < 16 ∧ w < 2 ∧ vopOk d = true ∧ vopOk a = true ∧ vopOk b = true
  | .vcmpEqI p w d a b => p < 16 ∧ w < 2 ∧ vopOk d = true ∧ vopOk a = true ∧ vopOk b = true
  | .vcmpLtI p w d a b => p < 16 ∧ w < 2 ∧ vopOk d = true ∧ vopOk a = true ∧ vopOk b = true
  | .vrsumI p w t d a => p < 16 ∧ w < 2 ∧ t < 2 ∧ vopOk d = true ∧ vopOk a = true
  | .vsel p w d a b => p < 16 ∧ w < 2 ∧ vopOk d = true ∧ vopOk a = true ∧ vopOk b = true
  | .vmov p w d a => p < 16 ∧ w < 2 ∧ vopOk d = true ∧ vopOk a = true
  | .vbcast p w d a n => p < 16 ∧ w < 2 ∧ n < 256 ∧ vopOk d = true ∧ vopOk a = true ∧ (w = 1 ∨ n < 128)
  | .vperm p w d a b => p < 16 ∧ w < 2 ∧ vopOk d = true ∧ vopOk a = true ∧ vopOk b = true
  | .vrot p w d a n => p < 16 ∧ w < 2 ∧ n < 256 ∧ vopOk d = true ∧ vopOk a = true ∧ (w = 1 ∨ n < 128)
  | .vrev p w d a => p < 16 ∧ w < 2 ∧ vopOk d = true ∧ vopOk a = true
  | .vcvtN p t d a h r => p < 16 ∧ t < 2 ∧ h < 2 ∧ vopOk d = true ∧ vopOk a = true ∧ r < 6
  | .vcvtW p t d a h => p < 16 ∧ t < 2 ∧ h < 2 ∧ vopOk d = true ∧ vopOk a = true
  | .vcvtFi p w t d a r => p < 16 ∧ w < 2 ∧ t < 2 ∧ vopOk d = true ∧ vopOk a = true ∧ (w = 1 ∨ t = 0) ∧ r < 6
  | .vcvtIf p w t d a r => p < 16 ∧ w < 2 ∧ t < 2 ∧ vopOk d = true ∧ vopOk a = true ∧ (w = 1 ∨ t = 0) ∧ r < 6
  | .vcvtNi p d a h => p < 16 ∧ h < 2 ∧ vopOk d = true ∧ vopOk a = true
  | .vcvtWi p d a h => p < 16 ∧ h < 2 ∧ vopOk d = true ∧ vopOk a = true
  | .pNop p => p < 16
  | .pkMxint8Mm14 p q k r => p < 16 ∧ q < 16 ∧ r < 640 ∧ k < 2
  | .pkMxint8Mm15 p q k r => p < 16 ∧ q < 16 ∧ r < 640 ∧ k < 2
  | .pkMxint6Mm14 p q k r => p < 16 ∧ q < 16 ∧ r < 640 ∧ k < 2
  | .pkMxint6Mm15 p q k r => p < 16 ∧ q < 16 ∧ r < 640 ∧ k < 2
  | .pkMxint4Mm14 p q k r => p < 16 ∧ q < 16 ∧ k < 4 ∧ r < 640
  | .pkMxint4Mm15 p q k r => p < 16 ∧ q < 16 ∧ k < 4 ∧ r < 640
  | .pkE4m3Mm14 p q k r => p < 16 ∧ q < 16 ∧ r < 640 ∧ k < 2
  | .pkE4m3Mm15 p q k r => p < 16 ∧ q < 16 ∧ r < 640 ∧ k < 2
  | .pkE5m2Mm14 p q k r => p < 16 ∧ q < 16 ∧ r < 640 ∧ k < 2
  | .pkE5m2Mm15 p q k r => p < 16 ∧ q < 16 ∧ r < 640 ∧ k < 2
  | .pkFp6Mm14 p q k r => p < 16 ∧ q < 16 ∧ r < 640 ∧ k < 2
  | .pkFp6Mm15 p q k r => p < 16 ∧ q < 16 ∧ r < 640 ∧ k < 2
  | .pkE2m1Mm14 p q k r => p < 16 ∧ q < 16 ∧ k < 4 ∧ r < 640
  | .pkE2m1Mm15 p q k r => p < 16 ∧ q < 16 ∧ k < 4 ∧ r < 640
  | .uNop p => p < 16
  | .unpkMxint8Mm14 p q k r => p < 16 ∧ q < 16 ∧ r < 640 ∧ k < 2
  | .unpkMxint8Mm15 p q k r => p < 16 ∧ q < 16 ∧ r < 640 ∧ k < 2
  | .unpkMxint6Mm14 p q k r => p < 16 ∧ q < 16 ∧ r < 640 ∧ k < 2
  | .unpkMxint6Mm15 p q k r => p < 16 ∧ q < 16 ∧ r < 640 ∧ k < 2
  | .unpkMxint4Mm14 p q k r => p < 16 ∧ q < 16 ∧ k < 4 ∧ r < 640
  | .unpkMxint4Mm15 p q k r => p < 16 ∧ q < 16 ∧ k < 4 ∧ r < 640
  | .unpkE4m3Mm14 p q k r => p < 16 ∧ q < 16 ∧ r < 640 ∧ k < 2
  | .unpkE4m3Mm15 p q k r => p < 16 ∧ q < 16 ∧ r < 640 ∧ k < 2
  | .unpkE5m2Mm14 p q k r => p < 16 ∧ q < 16 ∧ r < 640 ∧ k < 2
  | .unpkE5m2Mm15 p q k r => p < 16 ∧ q < 16 ∧ r < 640 ∧ k < 2
  | .unpkFp6Mm14 p q k r => p < 16 ∧ q < 16 ∧ r < 640 ∧ k < 2
  | .unpkFp6Mm15 p q k r => p < 16 ∧ q < 16 ∧ r < 640 ∧ k < 2
  | .unpkE2m1Mm14 p q k r => p < 16 ∧ q < 16 ∧ k < 4 ∧ r < 640
  | .unpkE2m1Mm15 p q k r => p < 16 ∧ q < 16 ∧ k < 4 ∧ r < 640
  | .aNop p => p < 16
  | .cpy p r n a b c x => p < 16 ∧ r < 16 ∧ n < 4 ∧ a < 16 ∧ b < 16 ∧ c < 16 ∧ x < 16 ∧ tokList3 n a b c r = true
  | .gat p r n a b c x => p < 16 ∧ r < 16 ∧ n < 4 ∧ a < 16 ∧ b < 16 ∧ c < 16 ∧ x < 16 ∧ tokList3 n a b c r = true
  | .sct p r n a b c x => p < 16 ∧ r < 16 ∧ n < 4 ∧ a < 16 ∧ b < 16 ∧ c < 16 ∧ x < 16 ∧ tokList3 n a b c r = true
  | .mcastQ p r n a b c x => p < 16 ∧ r < 16 ∧ n < 4 ∧ a < 16 ∧ b < 16 ∧ c < 16 ∧ x < 16 ∧ tokList3 n a b c r = true
  | .rst p r n a b c x => p < 16 ∧ r < 16 ∧ n < 4 ∧ a < 16 ∧ b < 16 ∧ c < 16 ∧ x < 16 ∧ tokList3 n a b c r = true
  | .rld p r n a b c x => p < 16 ∧ r < 16 ∧ n < 4 ∧ a < 16 ∧ b < 16 ∧ c < 16 ∧ x < 16 ∧ tokList3 n a b c r = true
  | .rred p r n a b c x => p < 16 ∧ r < 16 ∧ n < 4 ∧ a < 16 ∧ b < 16 ∧ c < 16 ∧ x < 16 ∧ tokList3 n a b c r = true
  | .rflush p r n a b c => p < 16 ∧ r < 16 ∧ n < 4 ∧ a < 16 ∧ b < 16 ∧ c < 16 ∧ tokList3 n a b c r = true
  | .coll p r n a b c x => p < 16 ∧ r < 16 ∧ n < 4 ∧ a < 16 ∧ b < 16 ∧ c < 16 ∧ x < 16 ∧ tokList3 n a b c r = true
  | .disp p r n a b c x => p < 16 ∧ r < 16 ∧ n < 4 ∧ a < 16 ∧ b < 16 ∧ c < 16 ∧ x < 16 ∧ tokList3 n a b c r = true
  | .ccpy p r n a b c x => p < 16 ∧ r < 16 ∧ n < 4 ∧ a < 16 ∧ b < 16 ∧ c < 16 ∧ x < 16 ∧ tokList3 n a b c r = true
  | .task p r n a b c x => p < 16 ∧ r < 16 ∧ n < 4 ∧ a < 16 ∧ b < 16 ∧ c < 16 ∧ x < 16 ∧ tokList3 n a b c r = true
  | .ctadd p r n a b y x => p < 16 ∧ r < 16 ∧ n < 4 ∧ a < 16 ∧ b < 16 ∧ y < 16 ∧ x < 16 ∧ n ≤ 2 ∧ tokList2 n a b r = true
  | .ctraise p r n a b y x => p < 16 ∧ r < 16 ∧ n < 4 ∧ a < 16 ∧ b < 16 ∧ y < 16 ∧ x < 16 ∧ n ≤ 2 ∧ tokList2 n a b r = true
  | .ctpoll p r n a d y x => p < 16 ∧ r < 16 ∧ n < 4 ∧ a < 16 ∧ d < 16 ∧ y < 16 ∧ x < 16 ∧ n ≤ 1 ∧ tokList1 n a r = true ∧ 1 ≤ d
  | .frecRd p r n a b c x => p < 16 ∧ r < 16 ∧ n < 4 ∧ a < 16 ∧ b < 16 ∧ c < 16 ∧ x < 16 ∧ tokList3 n a b c r = true
  | .frecWr p r n a b c x => p < 16 ∧ r < 16 ∧ n < 4 ∧ a < 16 ∧ b < 16 ∧ c < 16 ∧ x < 16 ∧ tokList3 n a b c r = true
  | .rationalResult _ => True
  | .fillComplete _ => True
  | .amoScPerform _ _ => True
  | .gLoadReturn _ _ => True
  | .xOpLaunch _ => True
  | .xOpFinish _ => True
  | .drainRowPlaced _ _ => True
  | .resultLand _ => True
  | .engineCommandStart _ _ _ _ => True
  | .engineCommandComplete _ _ _ => True
  | .collTransfer _ _ => True
  | .dispClaim _ _ => True
  | .rredRetry _ _ => True
  | .rredTimeout _ _ => True
  | .placementAck _ _ => True
  | .deferredTrap _ => True
  | .combiningEntryAgeFlush _ _ => True
  | .counterWaitSatisfied _ => True
  | .counterWaitTimeout _ => True
  | .monitorPoll _ => True
  | .versionSealWake _ => True
  | .missingVersionTimeout _ => True
  | .versionCapacityWake _ => True
  | .versionCapacityTimeout _ => True
  | .bundleFetch _ => True
  | .tileTaskRetire _ => True
  | .doorbellWrite _ _ _ => True
  | .recordRead _ _ => True
  | .queueSlotRequest _ => True
  | .dependencesMet _ => True
  | .gangPlacement _ _ => True
  | .quantumExpiry _ => True
  | .preemptForcedStop _ => True
  | .contextSave _ => True
  | .contextRestore _ _ _ => True
  | .ctxCreate _ => True
  | .ctxDestroy _ => True
  | .qBind _ => True
  | .qTeardownDrain _ => True
  | .qTeardownKill _ => True
  | .qTeardownFreeze _ => True
  | .qRestore _ => True
  | .preempt _ => True
  | .resume _ => True
  | .derailleurEvaluation => True
  | .fillerStopTimeout _ => True
  | .drlCtlWrite _ => True
  | .telemetryRecord => True
  | .traceSample _ => True
  | .pmcRotation _ => True
  | .pmcCtlWrite _ _ => True
  | .invAsid _ => True
  | .invPage _ => True
  | .invWindow _ _ => True
  | .invKey _ => True
  | .winMake _ _ => True
  | .regionSet _ => True
  | .regionClear _ => True
  | .parkResume _ => True
  | .parkDrop _ => True
  | .translationWalk _ => True
  | .routeWr _ => True
  | .routeHoldExpiry _ => True
  | .grpSet _ => True
  | .grpClear _ => True
  | .trunkTrain _ => True
  | .trunkCfgWrite _ _ => True
  | .startFlit _ _ _ => True
  | .contFlit _ _ _ => True
  | .idleFlit _ _ _ => True
  | .replayReq _ _ _ => True
  | .trainFlit _ _ _ => True
  | .replayReqRepeat _ => True
  | .laneFail _ _ => True
  | .trainingDone _ _ => True
  | .probationExpiry _ => True
  | .wr _ => True
  | .rd _ => True
  | .amo _ => True
  | .ctr _ => True
  | .ver _ => True
  | .red _ => True
  | .rereq _ => True
  | .ackpl _ => True
  | .data _ => True
  | .result _ => True
  | .partialRelease _ => True
  | .nack _ => True
  | .mgmt _ => True
  | .ptmoExpiry _ => True
  | .ptmoHalfRereq _ => True
  | .combiningUncorrectable _ => True
  | .packageReset _ => True
  | .recoveryImage _ _ => True
  | .getVersion _ _ => True
  | .getCapabilities _ _ => True
  | .negotiateAlgorithms _ _ => True
  | .getDigests _ _ => True
  | .getCertificate _ _ => True
  | .challenge _ _ => True
  | .getMeasurements _ _ => True
  | .keyExchange _ _ => True
  | .finish _ _ => True
  | .heartbeat _ _ => True
  | .keyUpdate _ _ => True
  | .endSession _ _ => True
  | .keyProg _ _ => True
  | .keyErase _ _ => True
  | .unsupportedRequest _ _ => True
  | .ideKm _ _ => True
  | .ideIntegrityFailure _ => True
  | .getDeviceInterfaceState _ => True
  | .lockInterfaceRequest _ => True
  | .getDeviceInterfaceReport _ => True
  | .startInterfaceRequest _ => True
  | .stopInterfaceRequest _ => True
  | .vfQBind _ _ _ => True
  | .vfQTeardownDrain _ _ _ => True
  | .vfQTeardownKill _ _ _ => True
  | .vfQTeardownFreeze _ _ _ => True
  | .vfQRestore _ _ _ => True
  | .vfPreempt _ _ _ => True
  | .vfResume _ _ _ => True
  | .vfInvAsid _ _ _ => True
  | .vfInvPage _ _ _ => True
  | .vfInvWindow _ _ _ => True
  | .vfInvKey _ _ _ => True
  | .vfWinMake _ _ _ => True
  | .vfRegionSet _ _ _ => True
  | .vfRegionClear _ _ _ => True
  | .vfParkResume _ _ _ => True
  | .vfParkDrop _ _ _ => True
  | .entryWr _ _ _ _ => True
  | .dbgSessionWrite _ _ => True
  | .dbgStop _ => True
  | .dbgResume _ => True
  | .dbgStep _ => True
  | .dbgDataRead _ => True
  | .dbgDataWrite _ _ => True
  | .replayParting _ => True
  | .ppsEdge => True
  | .todMessage _ => True
  | .todByteGap => True
  | .todDeadline => True
  | .timeLock _ _ => True
  | .timeSourceLoss => True
  | .registerWrite _ _ _ => True

/-- The same as a test that runs. -/
def Instr.wf (i : Instr) : Bool :=
  match i with
  | .cNop p => decide (p < 16)
  | .pbr p b r => decide (p < 16 ∧ b < 8 ∧ r < 4096)
  | .pbrS p b a => decide (p < 16 ∧ b < 8 ∧ a < 64)
  | .br p b q => decide (p < 16 ∧ b < 8 ∧ q < 16)
  | .brN p b q => decide (p < 16 ∧ b < 8 ∧ q < 16)
  | .call p b => decide (p < 16 ∧ b < 8)
  | .ret p => decide (p < 16)
  | .loop p i => decide (p < 16 ∧ i < 8)
  | .loopSwp p i => decide (p < 16 ∧ i < 8)
  | .lbrk p i => decide (p < 16 ∧ i < 8)
  | .ctwait p c a => decide (p < 16 ∧ c < 512 ∧ a ≤ 62)
  | .ctwaitT p c a => decide (p < 16 ∧ c < 512 ∧ a ≤ 62)
  | .ctwaitG p a => decide (p < 16 ∧ a ≤ 61)
  | .ctwaitGt p a => decide (p < 16 ∧ a ≤ 61)
  | .tkwait p x y z => decide (p < 16 ∧ x < 32 ∧ y < 32 ∧ z < 32 ∧ 16 ≤ x ∧ (16 ≤ y ∨ (y = 0 ∧ z = 0)) ∧ (16 ≤ z ∨ z = 0))
  | .sstep p => decide (p < 16)
  | .yield p => decide (p < 16)
  | .halt p => decide (p < 16)
  | .brk p n => decide (p < 16 ∧ n < 256)
  | .trap p n => decide (p < 16 ∧ n < 256)
  | .tret p => decide (p < 16)
  | .sysrd p d r => decide (p < 16 ∧ d < 64 ∧ sysReadable r = true)
  | .syswr p a r => decide (p < 16 ∧ a < 64 ∧ sysWritable r = true)
  | .wheel p n => decide (p < 16 ∧ n < 256)
  | .pwrHint p n => decide (p < 16 ∧ n < 16)
  | .sNop p => decide (p < 16)
  | .add p d a b => decide (p < 16 ∧ d < 64 ∧ a < 64 ∧ b < 64)
  | .sub p d a b => decide (p < 16 ∧ d < 64 ∧ a < 64 ∧ b < 64)
  | .mul p d a b => decide (p < 16 ∧ d < 64 ∧ a < 64 ∧ b < 64)
  | .mulh p d a b => decide (p < 16 ∧ d < 64 ∧ a < 64 ∧ b < 64)
  | .mulhu p d a b => decide (p < 16 ∧ d < 64 ∧ a < 64 ∧ b < 64)
  | .div p d a b => decide (p < 16 ∧ d < 64 ∧ a < 64 ∧ b < 64)
  | .divu p d a b => decide (p < 16 ∧ d < 64 ∧ a < 64 ∧ b < 64)
  | .rem p d a b => decide (p < 16 ∧ d < 64 ∧ a < 64 ∧ b < 64)
  | .remu p d a b => decide (p < 16 ∧ d < 64 ∧ a < 64 ∧ b < 64)
  | .and p d a b => decide (p < 16 ∧ d < 64 ∧ a < 64 ∧ b < 64)
  | .or p d a b => decide (p < 16 ∧ d < 64 ∧ a < 64 ∧ b < 64)
  | .xor p d a b => decide (p < 16 ∧ d < 64 ∧ a < 64 ∧ b < 64)
  | .andn p d a b => decide (p < 16 ∧ d < 64 ∧ a < 64 ∧ b < 64)
  | .sll p d a b => decide (p < 16 ∧ d < 64 ∧ a < 64 ∧ b < 64)
  | .srl p d a b => decide (p < 16 ∧ d < 64 ∧ a < 64 ∧ b < 64)
  | .sra p d a b => decide (p < 16 ∧ d < 64 ∧ a < 64 ∧ b < 64)
  | .slli p d a n => decide (p < 16 ∧ d < 64 ∧ a < 64 ∧ n < 64)
  | .srli p d a n => decide (p < 16 ∧ d < 64 ∧ a < 64 ∧ n < 64)
  | .srai p d a n => decide (p < 16 ∧ d < 64 ∧ a < 64 ∧ n < 64)
  | .min p d a b => decide (p < 16 ∧ d < 64 ∧ a < 64 ∧ b < 64)
  | .max p d a b => decide (p < 16 ∧ d < 64 ∧ a < 64 ∧ b < 64)
  | .minu p d a b => decide (p < 16 ∧ d < 64 ∧ a < 64 ∧ b < 64)
  | .maxu p d a b => decide (p < 16 ∧ d < 64 ∧ a < 64 ∧ b < 64)
  | .popc p d a => decide (p < 16 ∧ d < 64 ∧ a < 64)
  | .clz p d a => decide (p < 16 ∧ d < 64 ∧ a < 64)
  | .cmpEq p k a b => decide (p < 16 ∧ k < 8 ∧ a < 64 ∧ b < 64)
  | .cmpLt p k a b => decide (p < 16 ∧ k < 8 ∧ a < 64 ∧ b < 64)
  | .cmpLtu p k a b => decide (p < 16 ∧ k < 8 ∧ a < 64 ∧ b < 64)
  | .cmpLe p k a b => decide (p < 16 ∧ k < 8 ∧ a < 64 ∧ b < 64)
  | .cmpLeu p k a b => decide (p < 16 ∧ k < 8 ∧ a < 64 ∧ b < 64)
  | .plog p d a b t => decide (p < 16 ∧ d < 16 ∧ a < 16 ∧ b < 16 ∧ t < 16 ∧ 1 ≤ d)
  | .sel p k d a b => decide (p < 16 ∧ k < 16 ∧ d < 32 ∧ a < 32 ∧ b < 32)
  | .addi p d i => decide (p < 16 ∧ d < 64 ∧ i < 4096)
  | .li p d i => decide (p < 16 ∧ d < 64 ∧ i < 4096)
  | .lic p d i => decide (p < 16 ∧ d < 64 ∧ i < 4096)
  | .kconst p d i => decide (p < 16 ∧ d < 64 ∧ i < 256)
  | .hmk p d i => decide (p < 16 ∧ d < 64 ∧ i < 256)
  | .hsz p d i => decide (p < 16 ∧ d < 64 ∧ i < 256)
  | .hrow p d i => decide (p < 16 ∧ d < 64 ∧ i < 256)
  | .mfpr p d => decide (p < 16 ∧ d < 64)
  | .mtpr p a => decide (p < 16 ∧ a < 64)
  | .mflc p d n => decide (p < 16 ∧ d < 64 ∧ n < 8)
  | .mfb p d n => decide (p < 16 ∧ d < 64 ∧ n < 8)
  | .mtb p n a => decide (p < 16 ∧ n < 8 ∧ a < 64)
  | .stsetF p t s a => decide (p < 16 ∧ t < 16 ∧ s < 16 ∧ a < 64)
  | .stsetZ p t => decide (p < 16 ∧ t < 16)
  | .stsetCp p t m => decide (p < 16 ∧ t < 16 ∧ m < 16)
  | .mtmm p n a => decide (p < 16 ∧ n < 16 ∧ a < 64)
  | .mfmm p d n => decide (p < 16 ∧ d < 64 ∧ n < 16)
  | .fadd p d a b => decide (p < 16 ∧ d < 64 ∧ a < 64 ∧ b < 64)
  | .fsub p d a b => decide (p < 16 ∧ d < 64 ∧ a < 64 ∧ b < 64)
  | .fmul p d a b => decide (p < 16 ∧ d < 64 ∧ a < 64 ∧ b < 64)
  | .fdiv p d a b => decide (p < 16 ∧ d < 64 ∧ a < 64 ∧ b < 64)
  | .fsqrt p d a => decide (p < 16 ∧ d < 64 ∧ a < 64)
  | .fmin p d a b => decide (p < 16 ∧ d < 64 ∧ a < 64 ∧ b < 64)
  | .fmax p d a b => decide (p < 16 ∧ d < 64 ∧ a < 64 ∧ b < 64)
  | .fcmpEq p k a b => decide (p < 16 ∧ k < 8 ∧ a < 64 ∧ b < 64)
  | .fcmpLt p k a b => decide (p < 16 ∧ k < 8 ∧ a < 64 ∧ b < 64)
  | .fcmpLe p k a b => decide (p < 16 ∧ k < 8 ∧ a < 64 ∧ b < 64)
  | .fcmpUn p k a b => decide (p < 16 ∧ k < 8 ∧ a < 64 ∧ b < 64)
  | .fcvtD2l p d a => decide (p < 16 ∧ d < 64 ∧ a < 64)
  | .fcvtL2d p d a => decide (p < 16 ∧ d < 64 ∧ a < 64)
  | .fcvtD2s p d a => decide (p < 16 ∧ d < 64 ∧ a < 64)
  | .fcvtS2d p d a => decide (p < 16 ∧ d < 64 ∧ a < 64)
  | .fabs p d a => decide (p < 16 ∧ d < 64 ∧ a < 64)
  | .fneg p d a => decide (p < 16 ∧ d < 64 ∧ a < 64)
  | .fsGcd p d a b => decide (p < 16 ∧ d < 64 ∧ a < 64 ∧ b < 64)
  | .fsMk p d a b => decide (p < 16 ∧ d < 64 ∧ a < 64 ∧ b < 64)
  | .fsMed p d a b => decide (p < 16 ∧ d < 64 ∧ a < 64 ∧ b < 64)
  | .fsNear p d a b => decide (p < 16 ∧ d < 64 ∧ a < 64 ∧ b < 64)
  | .fsNum p d a => decide (p < 16 ∧ d < 64 ∧ a < 64)
  | .fsDen p d a => decide (p < 16 ∧ d < 64 ∧ a < 64)
  | .fsClass p d a => decide (p < 16 ∧ d < 64 ∧ a < 64)
  | .fsCanon p d a => decide (p < 16 ∧ d < 64 ∧ a < 64)
  | .fsCvtF32 p d a => decide (p < 16 ∧ d < 64 ∧ a < 64)
  | .fsCvtE8 p d a => decide (p < 16 ∧ d < 64 ∧ a < 64)
  | .fsPack32 p d a => decide (p < 16 ∧ d < 64 ∧ a < 64)
  | .fsUnpk32 p d a => decide (p < 16 ∧ d < 64 ∧ a < 64)
  | .rationalResult _ => true
  | .lNop p => decide (p < 16)
  | .vld32 p v t => decide (p < 16 ∧ t < 16 ∧ vopOk v = true)
  | .vld16 p v t => decide (p < 16 ∧ t < 16 ∧ vopOk v = true)
  | .qld p q t => decide (p < 16 ∧ q < 16 ∧ t < 16)
  | .ldsB p d a v k => decide (p < 16 ∧ d < 64 ∧ a < 64 ∧ v < 2 ∧ k < 16 ∧ (v = 1 ∨ k = 0))
  | .ldsH p d a v k => decide (p < 16 ∧ d < 64 ∧ a < 64 ∧ v < 2 ∧ k < 16 ∧ (v = 1 ∨ k = 0))
  | .ldsW p d a v k => decide (p < 16 ∧ d < 64 ∧ a < 64 ∧ v < 2 ∧ k < 16 ∧ (v = 1 ∨ k = 0))
  | .ldsD p d a v k => decide (p < 16 ∧ d < 64 ∧ a < 64 ∧ v < 2 ∧ k < 16 ∧ (v = 1 ∨ k = 0))
  | .ofill p s t v k => decide (p < 16 ∧ s < 16 ∧ t < 16 ∧ v < 2 ∧ k < 16 ∧ (v = 1 ∨ k = 0))
  | .halloc p h d a => decide (p < 16 ∧ h < 256 ∧ d < 16 ∧ a < 64 ∧ 1 ≤ d)
  | .hfree p h => decide (p < 16 ∧ h < 256)
  | .wNop p => decide (p < 16)
  | .vst32 p v t => decide (p < 16 ∧ t < 16 ∧ vopOk v = true)
  | .vst16 p v t => decide (p < 16 ∧ t < 16 ∧ vopOk v = true)
  | .qst p q t => decide (p < 16 ∧ q < 16 ∧ t < 16)
  | .stsB p d a v k => decide (p < 16 ∧ d < 64 ∧ a < 64 ∧ v < 2 ∧ k < 16 ∧ (v = 1 ∨ k = 0))
  | .stsH p d a v k => decide (p < 16 ∧ d < 64 ∧ a < 64 ∧ v < 2 ∧ k < 16 ∧ (v = 1 ∨ k = 0))
  | .stsW p d a v k => decide (p < 16 ∧ d < 64 ∧ a < 64 ∧ v < 2 ∧ k < 16 ∧ (v = 1 ∨ k = 0))
  | .stsD p d a v k => decide (p < 16 ∧ d < 64 ∧ a < 64 ∧ v < 2 ∧ k < 16 ∧ (v = 1 ∨ k = 0))
  | .oclaim p s => decide (p < 16 ∧ s < 16)
  | .orel p s => decide (p < 16 ∧ s < 16)
  | .fillComplete _ => true
  | .gNop p => decide (p < 16)
  | .ldB p d a v t w u => decide (p < 16 ∧ d < 64 ∧ a < 64 ∧ v < 2 ∧ t < 16 ∧ w < 2 ∧ u < 16 ∧ (v = 1 ∨ (t = 0 ∧ w = 0)) ∧ (w = 1 ∨ u = 0))
  | .ldH p d a v t w u => decide (p < 16 ∧ d < 64 ∧ a < 64 ∧ v < 2 ∧ t < 16 ∧ w < 2 ∧ u < 16 ∧ (v = 1 ∨ (t = 0 ∧ w = 0)) ∧ (w = 1 ∨ u = 0))
  | .ldW p d a v t w u => decide (p < 16 ∧ d < 64 ∧ a < 64 ∧ v < 2 ∧ t < 16 ∧ w < 2 ∧ u < 16 ∧ (v = 1 ∨ (t = 0 ∧ w = 0)) ∧ (w = 1 ∨ u = 0))
  | .ldD p d a v t w u => decide (p < 16 ∧ d < 64 ∧ a < 64 ∧ v < 2 ∧ t < 16 ∧ w < 2 ∧ u < 16 ∧ (v = 1 ∨ (t = 0 ∧ w = 0)) ∧ (w = 1 ∨ u = 0))
  | .stB p d a v t w u => decide (p < 16 ∧ d < 64 ∧ a < 64 ∧ v < 2 ∧ t < 16 ∧ w < 2 ∧ u < 16 ∧ (v = 1 ∨ (t = 0 ∧ w = 0)) ∧ (w = 1 ∨ u = 0))
  | .stH p d a v t w u => decide (p < 16 ∧ d < 64 ∧ a < 64 ∧ v < 2 ∧ t < 16 ∧ w < 2 ∧ u < 16 ∧ (v = 1 ∨ (t = 0 ∧ w = 0)) ∧ (w = 1 ∨ u = 0))
  | .stW p d a v t w u => decide (p < 16 ∧ d < 64 ∧ a < 64 ∧ v < 2 ∧ t < 16 ∧ w < 2 ∧ u < 16 ∧ (v = 1 ∨ (t = 0 ∧ w = 0)) ∧ (w = 1 ∨ u = 0))
  | .stD p d a v t w u => decide (p < 16 ∧ d < 64 ∧ a < 64 ∧ v < 2 ∧ t < 16 ∧ w < 2 ∧ u < 16 ∧ (v = 1 ∨ (t = 0 ∧ w = 0)) ∧ (w = 1 ∨ u = 0))
  | .ldAcqW p d a v t w u => decide (p < 16 ∧ d < 64 ∧ a < 64 ∧ v < 2 ∧ t < 16 ∧ w < 2 ∧ u < 16 ∧ (v = 1 ∨ (t = 0 ∧ w = 0)) ∧ (w = 1 ∨ u = 0))
  | .ldAcqD p d a v t w u => decide (p < 16 ∧ d < 64 ∧ a < 64 ∧ v < 2 ∧ t < 16 ∧ w < 2 ∧ u < 16 ∧ (v = 1 ∨ (t = 0 ∧ w = 0)) ∧ (w = 1 ∨ u = 0))
  | .stRelW p d a v t w u => decide (p < 16 ∧ d < 64 ∧ a < 64 ∧ v < 2 ∧ t < 16 ∧ w < 2 ∧ u < 16 ∧ (v = 1 ∨ (t = 0 ∧ w = 0)) ∧ (w = 1 ∨ u = 0))
  | .stRelD p d a v t w u => decide (p < 16 ∧ d < 64 ∧ a < 64 ∧ v < 2 ∧ t < 16 ∧ w < 2 ∧ u < 16 ∧ (v = 1 ∨ (t = 0 ∧ w = 0)) ∧ (w = 1 ∨ u = 0))
  | .ldV p d a b => decide (p < 16 ∧ d < 64 ∧ a < 64 ∧ b < 64)
  | .stV p d a b => decide (p < 16 ∧ d < 64 ∧ a < 64 ∧ b < 64)
  | .amoAdd p d a b => decide (p < 16 ∧ d < 64 ∧ a < 64 ∧ b < 64)
  | .amoMax p d a b => decide (p < 16 ∧ d < 64 ∧ a < 64 ∧ b < 64)
  | .amoMaxu p d a b => decide (p < 16 ∧ d < 64 ∧ a < 64 ∧ b < 64)
  | .amoMin p d a b => decide (p < 16 ∧ d < 64 ∧ a < 64 ∧ b < 64)
  | .amoMinu p d a b => decide (p < 16 ∧ d < 64 ∧ a < 64 ∧ b < 64)
  | .amoAnd p d a b => decide (p < 16 ∧ d < 64 ∧ a < 64 ∧ b < 64)
  | .amoOr p d a b => decide (p < 16 ∧ d < 64 ∧ a < 64 ∧ b < 64)
  | .amoXor p d a b => decide (p < 16 ∧ d < 64 ∧ a < 64 ∧ b < 64)
  | .amoSwap p d a b => decide (p < 16 ∧ d < 64 ∧ a < 64 ∧ b < 64)
  | .amoCas p d a b => decide (p < 16 ∧ d < 64 ∧ a < 64 ∧ b < 64)
  | .amoScAdd p d a b => decide (p < 16 ∧ d < 64 ∧ a < 64 ∧ b < 64)
  | .amoScSwap p d a b => decide (p < 16 ∧ d < 64 ∧ a < 64 ∧ b < 64)
  | .amoScCas p d a b => decide (p < 16 ∧ d < 64 ∧ a < 64 ∧ b < 64)
  | .amoScMax p d a b => decide (p < 16 ∧ d < 64 ∧ a < 64 ∧ b < 64)
  | .amoScMin p d a b => decide (p < 16 ∧ d < 64 ∧ a < 64 ∧ b < 64)
  | .amoScPerform _ _ => true
  | .fenceCore p => decide (p < 16)
  | .fenceQuad p => decide (p < 16)
  | .fenceDie p => decide (p < 16)
  | .fencePackage p => decide (p < 16)
  | .fenceFabric p => decide (p < 16)
  | .pf p a => decide (p < 16 ∧ a < 64)
  | .wprobe p d a => decide (p < 16 ∧ d < 64 ∧ a < 64)
  | .gLoadReturn _ _ => true
  | .xNop p => decide (p < 16)
  | .mwld p l s m => decide (p < 16 ∧ l < 16 ∧ s < 16 ∧ m < 16)
  | .mtrans p l s m => decide (p < 16 ∧ l < 16 ∧ s < 16 ∧ m < 16)
  | .mma p l t s m => decide (p < 16 ∧ l < 16 ∧ s < 16 ∧ m < 16 ∧ t < 5)
  | .mmaAcc p l t s m => decide (p < 16 ∧ l < 16 ∧ s < 16 ∧ m < 16 ∧ t < 5)
  | .mmaTri p l t s m => decide (p < 16 ∧ l < 16 ∧ s < 16 ∧ m < 16 ∧ t < 5)
  | .mmaTriAcc p l t s m => decide (p < 16 ∧ l < 16 ∧ s < 16 ∧ m < 16 ∧ t < 5)
  | .mmaP p l s m => decide (p < 16 ∧ l < 16 ∧ s < 16 ∧ m < 16)
  | .mzero p l t => decide (p < 16 ∧ l < 16 ∧ t < 5)
  | .mdrain p l t m => decide (p < 16 ∧ l < 16 ∧ m < 16 ∧ t < 5)
  | .mdrainSp p l m => decide (p < 16 ∧ l < 16 ∧ m < 16)
  | .mdrainFab p l m => decide (p < 16 ∧ l < 16 ∧ m < 16)
  | .xOpLaunch _ => true
  | .xOpFinish _ => true
  | .drainRowPlaced _ _ => true
  | .vNop p => decide (p < 16)
  | .vaddF p w t d a b => decide (p < 16 ∧ w < 2 ∧ t < 2 ∧ vopOk d = true ∧ vopOk a = true ∧ vopOk b = true ∧ (w = 1 ∨ t = 0))
  | .vsubF p w t d a b => decide (p < 16 ∧ w < 2 ∧ t < 2 ∧ vopOk d = true ∧ vopOk a = true ∧ vopOk b = true ∧ (w = 1 ∨ t = 0))
  | .vmulF p w t d a b => decide (p < 16 ∧ w < 2 ∧ t < 2 ∧ vopOk d = true ∧ vopOk a = true ∧ vopOk b = true ∧ (w = 1 ∨ t = 0))
  | .vfma p w t d a b => decide (p < 16 ∧ w < 2 ∧ t < 2 ∧ vopOk d = true ∧ vopOk a = true ∧ vopOk b = true ∧ (w = 1 ∨ t = 0))
  | .vminF p w t d a b => decide (p < 16 ∧ w < 2 ∧ t < 2 ∧ vopOk d = true ∧ vopOk a = true ∧ vopOk b = true ∧ (w = 1 ∨ t = 0))
  | .vmaxF p w t d a b => decide (p < 16 ∧ w < 2 ∧ t < 2 ∧ vopOk d = true ∧ vopOk a = true ∧ vopOk b = true ∧ (w = 1 ∨ t = 0))
  | .vabs p w t d a => decide (p < 16 ∧ w < 2 ∧ t < 2 ∧ vopOk d = true ∧ vopOk a = true ∧ (w = 1 ∨ t = 0))
  | .vneg p w t d a => decide (p < 16 ∧ w < 2 ∧ t < 2 ∧ vopOk d = true ∧ vopOk a = true ∧ (w = 1 ∨ t = 0))
  | .vcmpEqF p w t d a b => decide (p < 16 ∧ w < 2 ∧ t < 2 ∧ vopOk d = true ∧ vopOk a = true ∧ vopOk b = true ∧ (w = 1 ∨ t = 0))
  | .vcmpLtF p w t d a b => decide (p < 16 ∧ w < 2 ∧ t < 2 ∧ vopOk d = true ∧ vopOk a = true ∧ vopOk b = true ∧ (w = 1 ∨ t = 0))
  | .vcmpLeF p w t d a b => decide (p < 16 ∧ w < 2 ∧ t < 2 ∧ vopOk d = true ∧ vopOk a = true ∧ vopOk b = true ∧ (w = 1 ∨ t = 0))
  | .vrsumF p w t d a => decide (p < 16 ∧ w < 2 ∧ t < 2 ∧ vopOk d = true ∧ vopOk a = true ∧ (w = 1 ∨ t = 0))
  | .vrmax p w t d a => decide (p < 16 ∧ w < 2 ∧ t < 2 ∧ vopOk d = true ∧ vopOk a = true ∧ (w = 1 ∨ t = 0))
  | .vrmin p w t d a => decide (p < 16 ∧ w < 2 ∧ t < 2 ∧ vopOk d = true ∧ vopOk a = true ∧ (w = 1 ∨ t = 0))
  | .vexp2 p w t d a => decide (p < 16 ∧ w < 2 ∧ t < 2 ∧ vopOk d = true ∧ vopOk a = true ∧ (w = 1 ∨ t = 0))
  | .vlog2 p w t d a => decide (p < 16 ∧ w < 2 ∧ t < 2 ∧ vopOk d = true ∧ vopOk a = true ∧ (w = 1 ∨ t = 0))
  | .vrcp p w t d a => decide (p < 16 ∧ w < 2 ∧ t < 2 ∧ vopOk d = true ∧ vopOk a = true ∧ (w = 1 ∨ t = 0))
  | .vrsq p w t d a => decide (p < 16 ∧ w < 2 ∧ t < 2 ∧ vopOk d = true ∧ vopOk a = true ∧ (w = 1 ∨ t = 0))
  | .vtanh p w t d a => decide (p < 16 ∧ w < 2 ∧ t < 2 ∧ vopOk d = true ∧ vopOk a = true ∧ (w = 1 ∨ t = 0))
  | .vsilu p w t d a => decide (p < 16 ∧ w < 2 ∧ t < 2 ∧ vopOk d = true ∧ vopOk a = true ∧ (w = 1 ∨ t = 0))
  | .vaddI p w t d a b => decide (p < 16 ∧ w < 2 ∧ t < 2 ∧ vopOk d = true ∧ vopOk a = true ∧ vopOk b = true)
  | .vsubI p w t d a b => decide (p < 16 ∧ w < 2 ∧ t < 2 ∧ vopOk d = true ∧ vopOk a = true ∧ vopOk b = true)
  | .vmulI p w t d a b => decide (p < 16 ∧ w < 2 ∧ t < 2 ∧ vopOk d = true ∧ vopOk a = true ∧ vopOk b = true)
  | .vminI p w t d a b => decide (p < 16 ∧ w < 2 ∧ t < 2 ∧ vopOk d = true ∧ vopOk a = true ∧ vopOk b = true)
  | .vmaxI p w t d a b => decide (p < 16 ∧ w < 2 ∧ t < 2 ∧ vopOk d = true ∧ vopOk a = true ∧ vopOk b = true)
  | .vand p w d a b => decide (p < 16 ∧ w < 2 ∧ vopOk d = true ∧ vopOk a = true ∧ vopOk b = true)
  | .vor p w d a b => decide (p < 16 ∧ w < 2 ∧ vopOk d = true ∧ vopOk a = true ∧ vopOk b = true)
  | .vxor p w d a b => decide (p < 16 ∧ w < 2 ∧ vopOk d = true ∧ vopOk a = true ∧ vopOk b = true)
  | .vshl p w d a b => decide (p < 16 ∧ w < 2 ∧ vopOk d = true ∧ vopOk a = true ∧ vopOk b = true)
  | .vshr p w d a b => decide (p < 16 ∧ w < 2 ∧ vopOk d = true ∧ vopOk a = true ∧ vopOk b = true)
  | .vsra p w d a b => decide (p < 16 ∧ w < 2 ∧ vopOk d = true ∧ vopOk a = true ∧ vopOk b = true)
  | .vcmpEqI p w d a b => decide (p < 16 ∧ w < 2 ∧ vopOk d = true ∧ vopOk a = true ∧ vopOk b = true)
  | .vcmpLtI p w d a b => decide (p < 16 ∧ w < 2 ∧ vopOk d = true ∧ vopOk a = true ∧ vopOk b = true)
  | .vrsumI p w t d a => decide (p < 16 ∧ w < 2 ∧ t < 2 ∧ vopOk d = true ∧ vopOk a = true)
  | .vsel p w d a b => decide (p < 16 ∧ w < 2 ∧ vopOk d = true ∧ vopOk a = true ∧ vopOk b = true)
  | .vmov p w d a => decide (p < 16 ∧ w < 2 ∧ vopOk d = true ∧ vopOk a = true)
  | .vbcast p w d a n => decide (p < 16 ∧ w < 2 ∧ n < 256 ∧ vopOk d = true ∧ vopOk a = true ∧ (w = 1 ∨ n < 128))
  | .vperm p w d a b => decide (p < 16 ∧ w < 2 ∧ vopOk d = true ∧ vopOk a = true ∧ vopOk b = true)
  | .vrot p w d a n => decide (p < 16 ∧ w < 2 ∧ n < 256 ∧ vopOk d = true ∧ vopOk a = true ∧ (w = 1 ∨ n < 128))
  | .vrev p w d a => decide (p < 16 ∧ w < 2 ∧ vopOk d = true ∧ vopOk a = true)
  | .vcvtN p t d a h r => decide (p < 16 ∧ t < 2 ∧ h < 2 ∧ vopOk d = true ∧ vopOk a = true ∧ r < 6)
  | .vcvtW p t d a h => decide (p < 16 ∧ t < 2 ∧ h < 2 ∧ vopOk d = true ∧ vopOk a = true)
  | .vcvtFi p w t d a r => decide (p < 16 ∧ w < 2 ∧ t < 2 ∧ vopOk d = true ∧ vopOk a = true ∧ (w = 1 ∨ t = 0) ∧ r < 6)
  | .vcvtIf p w t d a r => decide (p < 16 ∧ w < 2 ∧ t < 2 ∧ vopOk d = true ∧ vopOk a = true ∧ (w = 1 ∨ t = 0) ∧ r < 6)
  | .vcvtNi p d a h => decide (p < 16 ∧ h < 2 ∧ vopOk d = true ∧ vopOk a = true)
  | .vcvtWi p d a h => decide (p < 16 ∧ h < 2 ∧ vopOk d = true ∧ vopOk a = true)
  | .resultLand _ => true
  | .pNop p => decide (p < 16)
  | .pkMxint8Mm14 p q k r => decide (p < 16 ∧ q < 16 ∧ r < 640 ∧ k < 2)
  | .pkMxint8Mm15 p q k r => decide (p < 16 ∧ q < 16 ∧ r < 640 ∧ k < 2)
  | .pkMxint6Mm14 p q k r => decide (p < 16 ∧ q < 16 ∧ r < 640 ∧ k < 2)
  | .pkMxint6Mm15 p q k r => decide (p < 16 ∧ q < 16 ∧ r < 640 ∧ k < 2)
  | .pkMxint4Mm14 p q k r => decide (p < 16 ∧ q < 16 ∧ k < 4 ∧ r < 640)
  | .pkMxint4Mm15 p q k r => decide (p < 16 ∧ q < 16 ∧ k < 4 ∧ r < 640)
  | .pkE4m3Mm14 p q k r => decide (p < 16 ∧ q < 16 ∧ r < 640 ∧ k < 2)
  | .pkE4m3Mm15 p q k r => decide (p < 16 ∧ q < 16 ∧ r < 640 ∧ k < 2)
  | .pkE5m2Mm14 p q k r => decide (p < 16 ∧ q < 16 ∧ r < 640 ∧ k < 2)
  | .pkE5m2Mm15 p q k r => decide (p < 16 ∧ q < 16 ∧ r < 640 ∧ k < 2)
  | .pkFp6Mm14 p q k r => decide (p < 16 ∧ q < 16 ∧ r < 640 ∧ k < 2)
  | .pkFp6Mm15 p q k r => decide (p < 16 ∧ q < 16 ∧ r < 640 ∧ k < 2)
  | .pkE2m1Mm14 p q k r => decide (p < 16 ∧ q < 16 ∧ k < 4 ∧ r < 640)
  | .pkE2m1Mm15 p q k r => decide (p < 16 ∧ q < 16 ∧ k < 4 ∧ r < 640)
  | .uNop p => decide (p < 16)
  | .unpkMxint8Mm14 p q k r => decide (p < 16 ∧ q < 16 ∧ r < 640 ∧ k < 2)
  | .unpkMxint8Mm15 p q k r => decide (p < 16 ∧ q < 16 ∧ r < 640 ∧ k < 2)
  | .unpkMxint6Mm14 p q k r => decide (p < 16 ∧ q < 16 ∧ r < 640 ∧ k < 2)
  | .unpkMxint6Mm15 p q k r => decide (p < 16 ∧ q < 16 ∧ r < 640 ∧ k < 2)
  | .unpkMxint4Mm14 p q k r => decide (p < 16 ∧ q < 16 ∧ k < 4 ∧ r < 640)
  | .unpkMxint4Mm15 p q k r => decide (p < 16 ∧ q < 16 ∧ k < 4 ∧ r < 640)
  | .unpkE4m3Mm14 p q k r => decide (p < 16 ∧ q < 16 ∧ r < 640 ∧ k < 2)
  | .unpkE4m3Mm15 p q k r => decide (p < 16 ∧ q < 16 ∧ r < 640 ∧ k < 2)
  | .unpkE5m2Mm14 p q k r => decide (p < 16 ∧ q < 16 ∧ r < 640 ∧ k < 2)
  | .unpkE5m2Mm15 p q k r => decide (p < 16 ∧ q < 16 ∧ r < 640 ∧ k < 2)
  | .unpkFp6Mm14 p q k r => decide (p < 16 ∧ q < 16 ∧ r < 640 ∧ k < 2)
  | .unpkFp6Mm15 p q k r => decide (p < 16 ∧ q < 16 ∧ r < 640 ∧ k < 2)
  | .unpkE2m1Mm14 p q k r => decide (p < 16 ∧ q < 16 ∧ k < 4 ∧ r < 640)
  | .unpkE2m1Mm15 p q k r => decide (p < 16 ∧ q < 16 ∧ k < 4 ∧ r < 640)
  | .aNop p => decide (p < 16)
  | .cpy p r n a b c x => decide (p < 16 ∧ r < 16 ∧ n < 4 ∧ a < 16 ∧ b < 16 ∧ c < 16 ∧ x < 16 ∧ tokList3 n a b c r = true)
  | .gat p r n a b c x => decide (p < 16 ∧ r < 16 ∧ n < 4 ∧ a < 16 ∧ b < 16 ∧ c < 16 ∧ x < 16 ∧ tokList3 n a b c r = true)
  | .sct p r n a b c x => decide (p < 16 ∧ r < 16 ∧ n < 4 ∧ a < 16 ∧ b < 16 ∧ c < 16 ∧ x < 16 ∧ tokList3 n a b c r = true)
  | .mcastQ p r n a b c x => decide (p < 16 ∧ r < 16 ∧ n < 4 ∧ a < 16 ∧ b < 16 ∧ c < 16 ∧ x < 16 ∧ tokList3 n a b c r = true)
  | .rst p r n a b c x => decide (p < 16 ∧ r < 16 ∧ n < 4 ∧ a < 16 ∧ b < 16 ∧ c < 16 ∧ x < 16 ∧ tokList3 n a b c r = true)
  | .rld p r n a b c x => decide (p < 16 ∧ r < 16 ∧ n < 4 ∧ a < 16 ∧ b < 16 ∧ c < 16 ∧ x < 16 ∧ tokList3 n a b c r = true)
  | .rred p r n a b c x => decide (p < 16 ∧ r < 16 ∧ n < 4 ∧ a < 16 ∧ b < 16 ∧ c < 16 ∧ x < 16 ∧ tokList3 n a b c r = true)
  | .rflush p r n a b c => decide (p < 16 ∧ r < 16 ∧ n < 4 ∧ a < 16 ∧ b < 16 ∧ c < 16 ∧ tokList3 n a b c r = true)
  | .coll p r n a b c x => decide (p < 16 ∧ r < 16 ∧ n < 4 ∧ a < 16 ∧ b < 16 ∧ c < 16 ∧ x < 16 ∧ tokList3 n a b c r = true)
  | .disp p r n a b c x => decide (p < 16 ∧ r < 16 ∧ n < 4 ∧ a < 16 ∧ b < 16 ∧ c < 16 ∧ x < 16 ∧ tokList3 n a b c r = true)
  | .ccpy p r n a b c x => decide (p < 16 ∧ r < 16 ∧ n < 4 ∧ a < 16 ∧ b < 16 ∧ c < 16 ∧ x < 16 ∧ tokList3 n a b c r = true)
  | .task p r n a b c x => decide (p < 16 ∧ r < 16 ∧ n < 4 ∧ a < 16 ∧ b < 16 ∧ c < 16 ∧ x < 16 ∧ tokList3 n a b c r = true)
  | .ctadd p r n a b y x => decide (p < 16 ∧ r < 16 ∧ n < 4 ∧ a < 16 ∧ b < 16 ∧ y < 16 ∧ x < 16 ∧ n ≤ 2 ∧ tokList2 n a b r = true)
  | .ctraise p r n a b y x => decide (p < 16 ∧ r < 16 ∧ n < 4 ∧ a < 16 ∧ b < 16 ∧ y < 16 ∧ x < 16 ∧ n ≤ 2 ∧ tokList2 n a b r = true)
  | .ctpoll p r n a d y x => decide (p < 16 ∧ r < 16 ∧ n < 4 ∧ a < 16 ∧ d < 16 ∧ y < 16 ∧ x < 16 ∧ n ≤ 1 ∧ tokList1 n a r = true ∧ 1 ≤ d)
  | .frecRd p r n a b c x => decide (p < 16 ∧ r < 16 ∧ n < 4 ∧ a < 16 ∧ b < 16 ∧ c < 16 ∧ x < 16 ∧ tokList3 n a b c r = true)
  | .frecWr p r n a b c x => decide (p < 16 ∧ r < 16 ∧ n < 4 ∧ a < 16 ∧ b < 16 ∧ c < 16 ∧ x < 16 ∧ tokList3 n a b c r = true)
  | .engineCommandStart _ _ _ _ => true
  | .engineCommandComplete _ _ _ => true
  | .collTransfer _ _ => true
  | .dispClaim _ _ => true
  | .rredRetry _ _ => true
  | .rredTimeout _ _ => true
  | .placementAck _ _ => true
  | .deferredTrap _ => true
  | .combiningEntryAgeFlush _ _ => true
  | .counterWaitSatisfied _ => true
  | .counterWaitTimeout _ => true
  | .monitorPoll _ => true
  | .versionSealWake _ => true
  | .missingVersionTimeout _ => true
  | .versionCapacityWake _ => true
  | .versionCapacityTimeout _ => true
  | .bundleFetch _ => true
  | .tileTaskRetire _ => true
  | .doorbellWrite _ _ _ => true
  | .recordRead _ _ => true
  | .queueSlotRequest _ => true
  | .dependencesMet _ => true
  | .gangPlacement _ _ => true
  | .quantumExpiry _ => true
  | .preemptForcedStop _ => true
  | .contextSave _ => true
  | .contextRestore _ _ _ => true
  | .ctxCreate _ => true
  | .ctxDestroy _ => true
  | .qBind _ => true
  | .qTeardownDrain _ => true
  | .qTeardownKill _ => true
  | .qTeardownFreeze _ => true
  | .qRestore _ => true
  | .preempt _ => true
  | .resume _ => true
  | .derailleurEvaluation => true
  | .fillerStopTimeout _ => true
  | .drlCtlWrite _ => true
  | .telemetryRecord => true
  | .traceSample _ => true
  | .pmcRotation _ => true
  | .pmcCtlWrite _ _ => true
  | .invAsid _ => true
  | .invPage _ => true
  | .invWindow _ _ => true
  | .invKey _ => true
  | .winMake _ _ => true
  | .regionSet _ => true
  | .regionClear _ => true
  | .parkResume _ => true
  | .parkDrop _ => true
  | .translationWalk _ => true
  | .routeWr _ => true
  | .routeHoldExpiry _ => true
  | .grpSet _ => true
  | .grpClear _ => true
  | .trunkTrain _ => true
  | .trunkCfgWrite _ _ => true
  | .startFlit _ _ _ => true
  | .contFlit _ _ _ => true
  | .idleFlit _ _ _ => true
  | .replayReq _ _ _ => true
  | .trainFlit _ _ _ => true
  | .replayReqRepeat _ => true
  | .laneFail _ _ => true
  | .trainingDone _ _ => true
  | .probationExpiry _ => true
  | .wr _ => true
  | .rd _ => true
  | .amo _ => true
  | .ctr _ => true
  | .ver _ => true
  | .red _ => true
  | .rereq _ => true
  | .ackpl _ => true
  | .data _ => true
  | .result _ => true
  | .partialRelease _ => true
  | .nack _ => true
  | .mgmt _ => true
  | .ptmoExpiry _ => true
  | .ptmoHalfRereq _ => true
  | .combiningUncorrectable _ => true
  | .packageReset _ => true
  | .recoveryImage _ _ => true
  | .getVersion _ _ => true
  | .getCapabilities _ _ => true
  | .negotiateAlgorithms _ _ => true
  | .getDigests _ _ => true
  | .getCertificate _ _ => true
  | .challenge _ _ => true
  | .getMeasurements _ _ => true
  | .keyExchange _ _ => true
  | .finish _ _ => true
  | .heartbeat _ _ => true
  | .keyUpdate _ _ => true
  | .endSession _ _ => true
  | .keyProg _ _ => true
  | .keyErase _ _ => true
  | .unsupportedRequest _ _ => true
  | .ideKm _ _ => true
  | .ideIntegrityFailure _ => true
  | .getDeviceInterfaceState _ => true
  | .lockInterfaceRequest _ => true
  | .getDeviceInterfaceReport _ => true
  | .startInterfaceRequest _ => true
  | .stopInterfaceRequest _ => true
  | .vfQBind _ _ _ => true
  | .vfQTeardownDrain _ _ _ => true
  | .vfQTeardownKill _ _ _ => true
  | .vfQTeardownFreeze _ _ _ => true
  | .vfQRestore _ _ _ => true
  | .vfPreempt _ _ _ => true
  | .vfResume _ _ _ => true
  | .vfInvAsid _ _ _ => true
  | .vfInvPage _ _ _ => true
  | .vfInvWindow _ _ _ => true
  | .vfInvKey _ _ _ => true
  | .vfWinMake _ _ _ => true
  | .vfRegionSet _ _ _ => true
  | .vfRegionClear _ _ _ => true
  | .vfParkResume _ _ _ => true
  | .vfParkDrop _ _ _ => true
  | .entryWr _ _ _ _ => true
  | .dbgSessionWrite _ _ => true
  | .dbgStop _ => true
  | .dbgResume _ => true
  | .dbgStep _ => true
  | .dbgDataRead _ => true
  | .dbgDataWrite _ _ => true
  | .replayParting _ => true
  | .ppsEdge => true
  | .todMessage _ => true
  | .todByteGap => true
  | .todDeadline => true
  | .timeLock _ _ => true
  | .timeSourceLoss => true
  | .registerWrite _ _ _ => true

end Sys2Proof
end

