-- ==== Sys2Proof/Decode.lean ====
section
/-! DEFINITION. Decode: from the bits of one slot to an instruction, total, rejecting by name (R138, R145); then the encoder, from the same tables (R147 to R162). -/

namespace Sys2Proof

/-- The classes of slots of one bundle (R138); S0 and S1 share one map, and so do V0 and V1. -/
inductive SlotClass where
  | c | s | l | w | g | x | v | p | u | a
deriving DecidableEq, Repr

/-- Why a slot pattern is no instruction (R145; each is ILLEGAL_SLOT at load or fetch). -/
inductive DecodeError where
  /-- An opcode, function, condition or scope code that the map marks reserved. -/
  | reservedOpcode
  /-- A field shown as 0 in the form is not 0. -/
  | nonzeroField
  /-- A register, tile, index, token or part number outside the limits of the form. -/
  | fieldLimit
  /-- More bits than the slot has. -/
  | tooWide
deriving DecidableEq, Repr

/-- What decoding a slot gives. -/
inductive Decoded where
  /-- An instruction. -/
  | ok (i : Instr)
  /-- No instruction, and why. -/
  | err (e : DecodeError)
deriving DecidableEq, Repr

/-- Bits hi:lo of a word. -/
def fld (w hi lo : Nat) : Nat := w / 2 ^ lo % 2 ^ (hi - lo + 1)

/-- A decoded form: its zero fields must be zero and its fields within their limits (R145). -/
def decForm (zeros : Bool) (i : Instr) : Decoded :=
  if zeros = false then .err .nonzeroField else if i.wf then .ok i else .err .fieldLimit

/- Lean 4.33 compiles no term that builds a constructor with fields past the 245th of its type; the decoders are
for the kernel, which evaluates them all. -/
noncomputable section

/-- The control (R147, R148) map. -/
def decCOp (op w : Nat) : Decoded :=
  match op with
  | 0x00 => decForm (fld w 14 0 == 0) (.cNop (fld w 23 20))
  | 0x01 => decForm (true) (.pbr (fld w 23 20) (fld w 14 12) (fld w 11 0))
  | 0x02 => decForm (fld w 5 0 == 0) (.pbrS (fld w 23 20) (fld w 14 12) (fld w 11 6))
  | 0x03 => decForm (fld w 7 0 == 0) (.br (fld w 23 20) (fld w 14 12) (fld w 11 8))
  | 0x04 => decForm (fld w 7 0 == 0) (.brN (fld w 23 20) (fld w 14 12) (fld w 11 8))
  | 0x05 => decForm (fld w 11 0 == 0) (.call (fld w 23 20) (fld w 14 12))
  | 0x06 => decForm (fld w 14 0 == 0) (.ret (fld w 23 20))
  | 0x07 => decForm (fld w 11 0 == 0) (.loop (fld w 23 20) (fld w 14 12))
  | 0x08 => decForm (fld w 11 0 == 0) (.loopSwp (fld w 23 20) (fld w 14 12))
  | 0x09 => decForm (fld w 11 0 == 0) (.lbrk (fld w 23 20) (fld w 14 12))
  | 0x0A => decForm (true) (.ctwait (fld w 23 20) (fld w 14 6) (fld w 5 0))
  | 0x0B => decForm (true) (.ctwaitT (fld w 23 20) (fld w 14 6) (fld w 5 0))
  | 0x0C => decForm (fld w 14 6 == 0) (.ctwaitG (fld w 23 20) (fld w 5 0))
  | 0x0D => decForm (fld w 14 6 == 0) (.ctwaitGt (fld w 23 20) (fld w 5 0))
  | 0x0E => decForm (true) (.tkwait (fld w 23 20) (fld w 14 10) (fld w 9 5) (fld w 4 0))
  | 0x0F => decForm (fld w 14 0 == 0) (.sstep (fld w 23 20))
  | 0x10 => decForm (fld w 14 0 == 0) (.yield (fld w 23 20))
  | 0x11 => decForm (fld w 14 0 == 0) (.halt (fld w 23 20))
  | 0x12 => decForm (fld w 14 8 == 0) (.brk (fld w 23 20) (fld w 7 0))
  | 0x13 => decForm (fld w 14 8 == 0) (.trap (fld w 23 20) (fld w 7 0))
  | 0x14 => decForm (fld w 14 0 == 0) (.tret (fld w 23 20))
  | 0x15 => decForm (true) (.sysrd (fld w 23 20) (fld w 14 9) (fld w 8 0))
  | 0x16 => decForm (true) (.syswr (fld w 23 20) (fld w 14 9) (fld w 8 0))
  | 0x17 => decForm (fld w 14 8 == 0) (.wheel (fld w 23 20) (fld w 7 0))
  | 0x18 => decForm (fld w 14 4 == 0) (.pwrHint (fld w 23 20) (fld w 3 0))
  | _ => .err .reservedOpcode

/-- The control (R147, R148) map, at the opcode field of the slot. -/
def decC (w : Nat) : Decoded := decCOp (fld w 19 15) w

/-- The scalar (R149, R150) map. -/
def decSOp (op w : Nat) : Decoded :=
  match op with
  | 0x00 => decForm (fld w 17 0 == 0) (.sNop (fld w 27 24))
  | 0x01 => decForm (true) (.add (fld w 27 24) (fld w 17 12) (fld w 11 6) (fld w 5 0))
  | 0x02 => decForm (true) (.sub (fld w 27 24) (fld w 17 12) (fld w 11 6) (fld w 5 0))
  | 0x03 => decForm (true) (.mul (fld w 27 24) (fld w 17 12) (fld w 11 6) (fld w 5 0))
  | 0x04 => decForm (true) (.mulh (fld w 27 24) (fld w 17 12) (fld w 11 6) (fld w 5 0))
  | 0x05 => decForm (true) (.mulhu (fld w 27 24) (fld w 17 12) (fld w 11 6) (fld w 5 0))
  | 0x06 => decForm (true) (.div (fld w 27 24) (fld w 17 12) (fld w 11 6) (fld w 5 0))
  | 0x07 => decForm (true) (.divu (fld w 27 24) (fld w 17 12) (fld w 11 6) (fld w 5 0))
  | 0x08 => decForm (true) (.rem (fld w 27 24) (fld w 17 12) (fld w 11 6) (fld w 5 0))
  | 0x09 => decForm (true) (.remu (fld w 27 24) (fld w 17 12) (fld w 11 6) (fld w 5 0))
  | 0x0A => decForm (true) (.and (fld w 27 24) (fld w 17 12) (fld w 11 6) (fld w 5 0))
  | 0x0B => decForm (true) (.or (fld w 27 24) (fld w 17 12) (fld w 11 6) (fld w 5 0))
  | 0x0C => decForm (true) (.xor (fld w 27 24) (fld w 17 12) (fld w 11 6) (fld w 5 0))
  | 0x0D => decForm (true) (.andn (fld w 27 24) (fld w 17 12) (fld w 11 6) (fld w 5 0))
  | 0x0E => decForm (true) (.sll (fld w 27 24) (fld w 17 12) (fld w 11 6) (fld w 5 0))
  | 0x0F => decForm (true) (.srl (fld w 27 24) (fld w 17 12) (fld w 11 6) (fld w 5 0))
  | 0x10 => decForm (true) (.sra (fld w 27 24) (fld w 17 12) (fld w 11 6) (fld w 5 0))
  | 0x11 => decForm (true) (.slli (fld w 27 24) (fld w 17 12) (fld w 11 6) (fld w 5 0))
  | 0x12 => decForm (true) (.srli (fld w 27 24) (fld w 17 12) (fld w 11 6) (fld w 5 0))
  | 0x13 => decForm (true) (.srai (fld w 27 24) (fld w 17 12) (fld w 11 6) (fld w 5 0))
  | 0x14 => decForm (true) (.min (fld w 27 24) (fld w 17 12) (fld w 11 6) (fld w 5 0))
  | 0x15 => decForm (true) (.max (fld w 27 24) (fld w 17 12) (fld w 11 6) (fld w 5 0))
  | 0x16 => decForm (true) (.minu (fld w 27 24) (fld w 17 12) (fld w 11 6) (fld w 5 0))
  | 0x17 => decForm (true) (.maxu (fld w 27 24) (fld w 17 12) (fld w 11 6) (fld w 5 0))
  | 0x18 => decForm (fld w 5 0 == 0) (.popc (fld w 27 24) (fld w 17 12) (fld w 11 6))
  | 0x19 => decForm (fld w 5 0 == 0) (.clz (fld w 27 24) (fld w 17 12) (fld w 11 6))
  | 0x1A =>
    if fld w 14 12 == 0 then decForm (true) (.cmpEq (fld w 27 24) (fld w 17 15) (fld w 11 6) (fld w 5 0))
    else if fld w 14 12 == 1 then decForm (true) (.cmpLt (fld w 27 24) (fld w 17 15) (fld w 11 6) (fld w 5 0))
    else if fld w 14 12 == 2 then decForm (true) (.cmpLtu (fld w 27 24) (fld w 17 15) (fld w 11 6) (fld w 5 0))
    else if fld w 14 12 == 3 then decForm (true) (.cmpLe (fld w 27 24) (fld w 17 15) (fld w 11 6) (fld w 5 0))
    else if fld w 14 12 == 4 then decForm (true) (.cmpLeu (fld w 27 24) (fld w 17 15) (fld w 11 6) (fld w 5 0))
    else .err .reservedOpcode
  | 0x1B => decForm (fld w 1 0 == 0) (.plog (fld w 27 24) (fld w 17 14) (fld w 13 10) (fld w 9 6) (fld w 5 2))
  | 0x1C => decForm (true) (.sel (fld w 27 24) (fld w 18 15) (fld w 14 10) (fld w 9 5) (fld w 4 0))
  | 0x1D => decForm (true) (.sel (fld w 27 24) (fld w 18 15) (fld w 14 10) (fld w 9 5) (fld w 4 0))
  | 0x1E => decForm (true) (.addi (fld w 27 24) (fld w 17 12) (fld w 11 0))
  | 0x1F => decForm (true) (.li (fld w 27 24) (fld w 17 12) (fld w 11 0))
  | 0x20 => decForm (true) (.lic (fld w 27 24) (fld w 17 12) (fld w 11 0))
  | 0x21 => decForm (fld w 11 8 == 0) (.kconst (fld w 27 24) (fld w 17 12) (fld w 7 0))
  | 0x22 => decForm (fld w 11 8 == 0) (.hmk (fld w 27 24) (fld w 17 12) (fld w 7 0))
  | 0x23 => decForm (fld w 11 8 == 0) (.hsz (fld w 27 24) (fld w 17 12) (fld w 7 0))
  | 0x24 => decForm (fld w 11 8 == 0) (.hrow (fld w 27 24) (fld w 17 12) (fld w 7 0))
  | 0x25 => decForm (fld w 11 0 == 0) (.mfpr (fld w 27 24) (fld w 17 12))
  | 0x26 => decForm (fld w 17 12 == 0 && fld w 5 0 == 0) (.mtpr (fld w 27 24) (fld w 11 6))
  | 0x27 => decForm (fld w 11 3 == 0) (.mflc (fld w 27 24) (fld w 17 12) (fld w 2 0))
  | 0x28 => decForm (fld w 11 3 == 0) (.mfb (fld w 27 24) (fld w 17 12) (fld w 2 0))
  | 0x29 => decForm (fld w 17 12 == 0 && fld w 5 3 == 0) (.mtb (fld w 27 24) (fld w 2 0) (fld w 11 6))
  | 0x2A => decForm (fld w 3 0 == 0) (.stsetF (fld w 27 24) (fld w 17 14) (fld w 13 10) (fld w 9 4))
  | 0x2B => decForm (fld w 13 0 == 0) (.stsetZ (fld w 27 24) (fld w 17 14))
  | 0x2C => decForm (fld w 9 0 == 0) (.stsetCp (fld w 27 24) (fld w 17 14) (fld w 13 10))
  | 0x2D => decForm (fld w 17 12 == 0 && fld w 5 4 == 0) (.mtmm (fld w 27 24) (fld w 3 0) (fld w 11 6))
  | 0x2E => decForm (fld w 11 4 == 0) (.mfmm (fld w 27 24) (fld w 17 12) (fld w 3 0))
  | 0x30 => decForm (true) (.fadd (fld w 27 24) (fld w 17 12) (fld w 11 6) (fld w 5 0))
  | 0x31 => decForm (true) (.fsub (fld w 27 24) (fld w 17 12) (fld w 11 6) (fld w 5 0))
  | 0x32 => decForm (true) (.fmul (fld w 27 24) (fld w 17 12) (fld w 11 6) (fld w 5 0))
  | 0x33 => decForm (true) (.fdiv (fld w 27 24) (fld w 17 12) (fld w 11 6) (fld w 5 0))
  | 0x34 => decForm (fld w 5 0 == 0) (.fsqrt (fld w 27 24) (fld w 17 12) (fld w 11 6))
  | 0x35 => decForm (true) (.fmin (fld w 27 24) (fld w 17 12) (fld w 11 6) (fld w 5 0))
  | 0x36 => decForm (true) (.fmax (fld w 27 24) (fld w 17 12) (fld w 11 6) (fld w 5 0))
  | 0x37 =>
    if fld w 14 12 == 0 then decForm (true) (.fcmpEq (fld w 27 24) (fld w 17 15) (fld w 11 6) (fld w 5 0))
    else if fld w 14 12 == 1 then decForm (true) (.fcmpLt (fld w 27 24) (fld w 17 15) (fld w 11 6) (fld w 5 0))
    else if fld w 14 12 == 2 then decForm (true) (.fcmpLe (fld w 27 24) (fld w 17 15) (fld w 11 6) (fld w 5 0))
    else if fld w 14 12 == 3 then decForm (true) (.fcmpUn (fld w 27 24) (fld w 17 15) (fld w 11 6) (fld w 5 0))
    else .err .reservedOpcode
  | 0x38 =>
    if fld w 5 0 == 0 then decForm (true) (.fcvtD2l (fld w 27 24) (fld w 17 12) (fld w 11 6))
    else if fld w 5 0 == 1 then decForm (true) (.fcvtL2d (fld w 27 24) (fld w 17 12) (fld w 11 6))
    else if fld w 5 0 == 2 then decForm (true) (.fcvtD2s (fld w 27 24) (fld w 17 12) (fld w 11 6))
    else if fld w 5 0 == 3 then decForm (true) (.fcvtS2d (fld w 27 24) (fld w 17 12) (fld w 11 6))
    else .err .reservedOpcode
  | 0x39 => decForm (fld w 5 0 == 0) (.fabs (fld w 27 24) (fld w 17 12) (fld w 11 6))
  | 0x3A => decForm (fld w 5 0 == 0) (.fneg (fld w 27 24) (fld w 17 12) (fld w 11 6))
  | 0x3B => decForm (true) (.fsGcd (fld w 27 24) (fld w 17 12) (fld w 11 6) (fld w 5 0))
  | 0x3C => decForm (true) (.fsMk (fld w 27 24) (fld w 17 12) (fld w 11 6) (fld w 5 0))
  | 0x3D => decForm (true) (.fsMed (fld w 27 24) (fld w 17 12) (fld w 11 6) (fld w 5 0))
  | 0x3E => decForm (true) (.fsNear (fld w 27 24) (fld w 17 12) (fld w 11 6) (fld w 5 0))
  | 0x3F =>
    if fld w 5 0 == 0 then decForm (true) (.fsNum (fld w 27 24) (fld w 17 12) (fld w 11 6))
    else if fld w 5 0 == 1 then decForm (true) (.fsDen (fld w 27 24) (fld w 17 12) (fld w 11 6))
    else if fld w 5 0 == 2 then decForm (true) (.fsClass (fld w 27 24) (fld w 17 12) (fld w 11 6))
    else if fld w 5 0 == 3 then decForm (true) (.fsCanon (fld w 27 24) (fld w 17 12) (fld w 11 6))
    else if fld w 5 0 == 4 then decForm (true) (.fsCvtF32 (fld w 27 24) (fld w 17 12) (fld w 11 6))
    else if fld w 5 0 == 5 then decForm (true) (.fsCvtE8 (fld w 27 24) (fld w 17 12) (fld w 11 6))
    else if fld w 5 0 == 6 then decForm (true) (.fsPack32 (fld w 27 24) (fld w 17 12) (fld w 11 6))
    else if fld w 5 0 == 7 then decForm (true) (.fsUnpk32 (fld w 27 24) (fld w 17 12) (fld w 11 6))
    else .err .reservedOpcode
  | _ => .err .reservedOpcode

/-- The scalar (R149, R150) map, at the opcode field of the slot. -/
def decS (w : Nat) : Decoded := decSOp (fld w 23 18) w

/-- The L (R153, R154) map. -/
def decLOp (op w : Nat) : Decoded :=
  match op with
  | 0x00 => decForm (fld w 18 0 == 0) (.lNop (fld w 27 24))
  | 0x01 => decForm (fld w 2 0 == 0) (.vld32 (fld w 27 24) (fld w 18 7) (fld w 6 3))
  | 0x02 => decForm (fld w 2 0 == 0) (.vld16 (fld w 27 24) (fld w 18 7) (fld w 6 3))
  | 0x03 => decForm (fld w 10 0 == 0) (.qld (fld w 27 24) (fld w 18 15) (fld w 14 11))
  | 0x04 => decForm (fld w 1 0 == 0) (.ldsB (fld w 27 24) (fld w 18 13) (fld w 12 7) (fld w 6 6) (fld w 5 2))
  | 0x05 => decForm (fld w 1 0 == 0) (.ldsH (fld w 27 24) (fld w 18 13) (fld w 12 7) (fld w 6 6) (fld w 5 2))
  | 0x06 => decForm (fld w 1 0 == 0) (.ldsW (fld w 27 24) (fld w 18 13) (fld w 12 7) (fld w 6 6) (fld w 5 2))
  | 0x07 => decForm (fld w 1 0 == 0) (.ldsD (fld w 27 24) (fld w 18 13) (fld w 12 7) (fld w 6 6) (fld w 5 2))
  | 0x08 => decForm (fld w 5 0 == 0) (.ofill (fld w 27 24) (fld w 18 15) (fld w 14 11) (fld w 10 10) (fld w 9 6))
  | 0x09 => decForm (fld w 0 0 == 0) (.halloc (fld w 27 24) (fld w 18 11) (fld w 10 7) (fld w 6 1))
  | 0x0A => decForm (fld w 10 0 == 0) (.hfree (fld w 27 24) (fld w 18 11))
  | _ => .err .reservedOpcode

/-- The L (R153, R154) map, at the opcode field of the slot. -/
def decL (w : Nat) : Decoded := decLOp (fld w 23 19) w

/-- The W (R153, R154) map. -/
def decWOp (op w : Nat) : Decoded :=
  match op with
  | 0x00 => decForm (fld w 18 0 == 0) (.wNop (fld w 27 24))
  | 0x01 => decForm (fld w 2 0 == 0) (.vst32 (fld w 27 24) (fld w 18 7) (fld w 6 3))
  | 0x02 => decForm (fld w 2 0 == 0) (.vst16 (fld w 27 24) (fld w 18 7) (fld w 6 3))
  | 0x03 => decForm (fld w 10 0 == 0) (.qst (fld w 27 24) (fld w 18 15) (fld w 14 11))
  | 0x04 => decForm (fld w 1 0 == 0) (.stsB (fld w 27 24) (fld w 18 13) (fld w 12 7) (fld w 6 6) (fld w 5 2))
  | 0x05 => decForm (fld w 1 0 == 0) (.stsH (fld w 27 24) (fld w 18 13) (fld w 12 7) (fld w 6 6) (fld w 5 2))
  | 0x06 => decForm (fld w 1 0 == 0) (.stsW (fld w 27 24) (fld w 18 13) (fld w 12 7) (fld w 6 6) (fld w 5 2))
  | 0x07 => decForm (fld w 1 0 == 0) (.stsD (fld w 27 24) (fld w 18 13) (fld w 12 7) (fld w 6 6) (fld w 5 2))
  | 0x08 => decForm (fld w 14 0 == 0) (.oclaim (fld w 27 24) (fld w 18 15))
  | 0x09 => decForm (fld w 14 0 == 0) (.orel (fld w 27 24) (fld w 18 15))
  | _ => .err .reservedOpcode

/-- The W (R153, R154) map, at the opcode field of the slot. -/
def decW (w : Nat) : Decoded := decWOp (fld w 23 19) w

/-- The global (R155) map. -/
def decGOp (op w : Nat) : Decoded :=
  match op with
  | 0x00 => decForm (fld w 21 0 == 0) (.gNop (fld w 31 28))
  | 0x01 => decForm (true) (.ldB (fld w 31 28) (fld w 21 16) (fld w 15 10) (fld w 9 9) (fld w 8 5) (fld w 4 4) (fld w 3 0))
  | 0x02 => decForm (true) (.ldH (fld w 31 28) (fld w 21 16) (fld w 15 10) (fld w 9 9) (fld w 8 5) (fld w 4 4) (fld w 3 0))
  | 0x03 => decForm (true) (.ldW (fld w 31 28) (fld w 21 16) (fld w 15 10) (fld w 9 9) (fld w 8 5) (fld w 4 4) (fld w 3 0))
  | 0x04 => decForm (true) (.ldD (fld w 31 28) (fld w 21 16) (fld w 15 10) (fld w 9 9) (fld w 8 5) (fld w 4 4) (fld w 3 0))
  | 0x05 => decForm (true) (.stB (fld w 31 28) (fld w 21 16) (fld w 15 10) (fld w 9 9) (fld w 8 5) (fld w 4 4) (fld w 3 0))
  | 0x06 => decForm (true) (.stH (fld w 31 28) (fld w 21 16) (fld w 15 10) (fld w 9 9) (fld w 8 5) (fld w 4 4) (fld w 3 0))
  | 0x07 => decForm (true) (.stW (fld w 31 28) (fld w 21 16) (fld w 15 10) (fld w 9 9) (fld w 8 5) (fld w 4 4) (fld w 3 0))
  | 0x08 => decForm (true) (.stD (fld w 31 28) (fld w 21 16) (fld w 15 10) (fld w 9 9) (fld w 8 5) (fld w 4 4) (fld w 3 0))
  | 0x09 => decForm (true) (.ldAcqW (fld w 31 28) (fld w 21 16) (fld w 15 10) (fld w 9 9) (fld w 8 5) (fld w 4 4) (fld w 3 0))
  | 0x0A => decForm (true) (.ldAcqD (fld w 31 28) (fld w 21 16) (fld w 15 10) (fld w 9 9) (fld w 8 5) (fld w 4 4) (fld w 3 0))
  | 0x0B => decForm (true) (.stRelW (fld w 31 28) (fld w 21 16) (fld w 15 10) (fld w 9 9) (fld w 8 5) (fld w 4 4) (fld w 3 0))
  | 0x0C => decForm (true) (.stRelD (fld w 31 28) (fld w 21 16) (fld w 15 10) (fld w 9 9) (fld w 8 5) (fld w 4 4) (fld w 3 0))
  | 0x0D => decForm (fld w 3 0 == 0) (.ldV (fld w 31 28) (fld w 21 16) (fld w 15 10) (fld w 9 4))
  | 0x0E => decForm (fld w 3 0 == 0) (.stV (fld w 31 28) (fld w 21 16) (fld w 15 10) (fld w 9 4))
  | 0x0F => decForm (fld w 3 0 == 0) (.amoAdd (fld w 31 28) (fld w 21 16) (fld w 15 10) (fld w 9 4))
  | 0x10 => decForm (fld w 3 0 == 0) (.amoMax (fld w 31 28) (fld w 21 16) (fld w 15 10) (fld w 9 4))
  | 0x11 => decForm (fld w 3 0 == 0) (.amoMaxu (fld w 31 28) (fld w 21 16) (fld w 15 10) (fld w 9 4))
  | 0x12 => decForm (fld w 3 0 == 0) (.amoMin (fld w 31 28) (fld w 21 16) (fld w 15 10) (fld w 9 4))
  | 0x13 => decForm (fld w 3 0 == 0) (.amoMinu (fld w 31 28) (fld w 21 16) (fld w 15 10) (fld w 9 4))
  | 0x14 => decForm (fld w 3 0 == 0) (.amoAnd (fld w 31 28) (fld w 21 16) (fld w 15 10) (fld w 9 4))
  | 0x15 => decForm (fld w 3 0 == 0) (.amoOr (fld w 31 28) (fld w 21 16) (fld w 15 10) (fld w 9 4))
  | 0x16 => decForm (fld w 3 0 == 0) (.amoXor (fld w 31 28) (fld w 21 16) (fld w 15 10) (fld w 9 4))
  | 0x17 => decForm (fld w 3 0 == 0) (.amoSwap (fld w 31 28) (fld w 21 16) (fld w 15 10) (fld w 9 4))
  | 0x18 => decForm (fld w 3 0 == 0) (.amoCas (fld w 31 28) (fld w 21 16) (fld w 15 10) (fld w 9 4))
  | 0x19 =>
    if fld w 3 0 == 0 then decForm (true) (.amoScAdd (fld w 31 28) (fld w 21 16) (fld w 15 10) (fld w 9 4))
    else if fld w 3 0 == 1 then decForm (true) (.amoScSwap (fld w 31 28) (fld w 21 16) (fld w 15 10) (fld w 9 4))
    else if fld w 3 0 == 2 then decForm (true) (.amoScCas (fld w 31 28) (fld w 21 16) (fld w 15 10) (fld w 9 4))
    else if fld w 3 0 == 3 then decForm (true) (.amoScMax (fld w 31 28) (fld w 21 16) (fld w 15 10) (fld w 9 4))
    else if fld w 3 0 == 4 then decForm (true) (.amoScMin (fld w 31 28) (fld w 21 16) (fld w 15 10) (fld w 9 4))
    else .err .reservedOpcode
  | 0x1A =>
    if fld w 21 0 == 0 then decForm (true) (.fenceCore (fld w 31 28))
    else if fld w 21 0 == 1 then decForm (true) (.fenceQuad (fld w 31 28))
    else if fld w 21 0 == 2 then decForm (true) (.fenceDie (fld w 31 28))
    else if fld w 21 0 == 3 then decForm (true) (.fencePackage (fld w 31 28))
    else if fld w 21 0 == 4 then decForm (true) (.fenceFabric (fld w 31 28))
    else .err .reservedOpcode
  | 0x1B => decForm (fld w 9 0 == 0 && fld w 21 16 == 0) (.pf (fld w 31 28) (fld w 15 10))
  | 0x1C => decForm (fld w 9 0 == 0) (.wprobe (fld w 31 28) (fld w 21 16) (fld w 15 10))
  | _ => .err .reservedOpcode

/-- The global (R155) map, at the opcode field of the slot. -/
def decG (w : Nat) : Decoded := decGOp (fld w 27 22) w

/-- The matrix (R156) map. -/
def decXOp (op w : Nat) : Decoded :=
  match op with
  | 0x00 => decForm (fld w 22 0 == 0) (.xNop (fld w 31 28))
  | 0x01 => decForm (fld w 10 0 == 0) (.mwld (fld w 31 28) (fld w 22 19) (fld w 18 15) (fld w 14 11))
  | 0x02 => decForm (fld w 10 0 == 0) (.mtrans (fld w 31 28) (fld w 22 19) (fld w 18 15) (fld w 14 11))
  | 0x03 => decForm (fld w 7 0 == 0) (.mma (fld w 31 28) (fld w 22 19) (fld w 18 16) (fld w 15 12) (fld w 11 8))
  | 0x04 => decForm (fld w 7 0 == 0) (.mmaAcc (fld w 31 28) (fld w 22 19) (fld w 18 16) (fld w 15 12) (fld w 11 8))
  | 0x05 => decForm (fld w 7 0 == 0) (.mmaTri (fld w 31 28) (fld w 22 19) (fld w 18 16) (fld w 15 12) (fld w 11 8))
  | 0x06 => decForm (fld w 7 0 == 0) (.mmaTriAcc (fld w 31 28) (fld w 22 19) (fld w 18 16) (fld w 15 12) (fld w 11 8))
  | 0x07 => decForm (fld w 7 0 == 0 && fld w 18 16 == 0) (.mmaP (fld w 31 28) (fld w 22 19) (fld w 15 12) (fld w 11 8))
  | 0x08 => decForm (fld w 15 0 == 0) (.mzero (fld w 31 28) (fld w 22 19) (fld w 18 16))
  | 0x09 => decForm (fld w 7 0 == 0 && fld w 15 12 == 0) (.mdrain (fld w 31 28) (fld w 22 19) (fld w 18 16) (fld w 11 8))
  | 0x0A => decForm (fld w 7 0 == 0 && fld w 18 12 == 0) (.mdrainSp (fld w 31 28) (fld w 22 19) (fld w 11 8))
  | 0x0B => decForm (fld w 7 0 == 0 && fld w 18 12 == 0) (.mdrainFab (fld w 31 28) (fld w 22 19) (fld w 11 8))
  | _ => .err .reservedOpcode

/-- The matrix (R156) map, at the opcode field of the slot. -/
def decX (w : Nat) : Decoded := decXOp (fld w 27 23) w

/-- The vector (R157, R158) map. -/
def decVOp (op w : Nat) : Decoded :=
  match op with
  | 0x00 => decForm (fld w 36 0 == 0) (.vNop (fld w 47 44))
  | 0x02 => decForm (true) (.vaddF (fld w 47 44) (fld w 37 37) (fld w 0 0) (fld w 36 25) (fld w 24 13) (fld w 12 1))
  | 0x03 => decForm (true) (.vaddF (fld w 47 44) (fld w 37 37) (fld w 0 0) (fld w 36 25) (fld w 24 13) (fld w 12 1))
  | 0x04 => decForm (true) (.vsubF (fld w 47 44) (fld w 37 37) (fld w 0 0) (fld w 36 25) (fld w 24 13) (fld w 12 1))
  | 0x05 => decForm (true) (.vsubF (fld w 47 44) (fld w 37 37) (fld w 0 0) (fld w 36 25) (fld w 24 13) (fld w 12 1))
  | 0x06 => decForm (true) (.vmulF (fld w 47 44) (fld w 37 37) (fld w 0 0) (fld w 36 25) (fld w 24 13) (fld w 12 1))
  | 0x07 => decForm (true) (.vmulF (fld w 47 44) (fld w 37 37) (fld w 0 0) (fld w 36 25) (fld w 24 13) (fld w 12 1))
  | 0x08 => decForm (true) (.vfma (fld w 47 44) (fld w 37 37) (fld w 0 0) (fld w 36 25) (fld w 24 13) (fld w 12 1))
  | 0x09 => decForm (true) (.vfma (fld w 47 44) (fld w 37 37) (fld w 0 0) (fld w 36 25) (fld w 24 13) (fld w 12 1))
  | 0x0A => decForm (true) (.vminF (fld w 47 44) (fld w 37 37) (fld w 0 0) (fld w 36 25) (fld w 24 13) (fld w 12 1))
  | 0x0B => decForm (true) (.vminF (fld w 47 44) (fld w 37 37) (fld w 0 0) (fld w 36 25) (fld w 24 13) (fld w 12 1))
  | 0x0C => decForm (true) (.vmaxF (fld w 47 44) (fld w 37 37) (fld w 0 0) (fld w 36 25) (fld w 24 13) (fld w 12 1))
  | 0x0D => decForm (true) (.vmaxF (fld w 47 44) (fld w 37 37) (fld w 0 0) (fld w 36 25) (fld w 24 13) (fld w 12 1))
  | 0x0E => decForm (fld w 12 1 == 0) (.vabs (fld w 47 44) (fld w 37 37) (fld w 0 0) (fld w 36 25) (fld w 24 13))
  | 0x0F => decForm (fld w 12 1 == 0) (.vabs (fld w 47 44) (fld w 37 37) (fld w 0 0) (fld w 36 25) (fld w 24 13))
  | 0x10 => decForm (fld w 12 1 == 0) (.vneg (fld w 47 44) (fld w 37 37) (fld w 0 0) (fld w 36 25) (fld w 24 13))
  | 0x11 => decForm (fld w 12 1 == 0) (.vneg (fld w 47 44) (fld w 37 37) (fld w 0 0) (fld w 36 25) (fld w 24 13))
  | 0x12 => decForm (true) (.vcmpEqF (fld w 47 44) (fld w 37 37) (fld w 0 0) (fld w 36 25) (fld w 24 13) (fld w 12 1))
  | 0x13 => decForm (true) (.vcmpEqF (fld w 47 44) (fld w 37 37) (fld w 0 0) (fld w 36 25) (fld w 24 13) (fld w 12 1))
  | 0x14 => decForm (true) (.vcmpLtF (fld w 47 44) (fld w 37 37) (fld w 0 0) (fld w 36 25) (fld w 24 13) (fld w 12 1))
  | 0x15 => decForm (true) (.vcmpLtF (fld w 47 44) (fld w 37 37) (fld w 0 0) (fld w 36 25) (fld w 24 13) (fld w 12 1))
  | 0x16 => decForm (true) (.vcmpLeF (fld w 47 44) (fld w 37 37) (fld w 0 0) (fld w 36 25) (fld w 24 13) (fld w 12 1))
  | 0x17 => decForm (true) (.vcmpLeF (fld w 47 44) (fld w 37 37) (fld w 0 0) (fld w 36 25) (fld w 24 13) (fld w 12 1))
  | 0x18 => decForm (fld w 12 1 == 0) (.vrsumF (fld w 47 44) (fld w 37 37) (fld w 0 0) (fld w 36 25) (fld w 24 13))
  | 0x19 => decForm (fld w 12 1 == 0) (.vrsumF (fld w 47 44) (fld w 37 37) (fld w 0 0) (fld w 36 25) (fld w 24 13))
  | 0x1A => decForm (fld w 12 1 == 0) (.vrmax (fld w 47 44) (fld w 37 37) (fld w 0 0) (fld w 36 25) (fld w 24 13))
  | 0x1B => decForm (fld w 12 1 == 0) (.vrmax (fld w 47 44) (fld w 37 37) (fld w 0 0) (fld w 36 25) (fld w 24 13))
  | 0x1C => decForm (fld w 12 1 == 0) (.vrmin (fld w 47 44) (fld w 37 37) (fld w 0 0) (fld w 36 25) (fld w 24 13))
  | 0x1D => decForm (fld w 12 1 == 0) (.vrmin (fld w 47 44) (fld w 37 37) (fld w 0 0) (fld w 36 25) (fld w 24 13))
  | 0x1E => decForm (fld w 12 1 == 0) (.vexp2 (fld w 47 44) (fld w 37 37) (fld w 0 0) (fld w 36 25) (fld w 24 13))
  | 0x1F => decForm (fld w 12 1 == 0) (.vexp2 (fld w 47 44) (fld w 37 37) (fld w 0 0) (fld w 36 25) (fld w 24 13))
  | 0x20 => decForm (fld w 12 1 == 0) (.vlog2 (fld w 47 44) (fld w 37 37) (fld w 0 0) (fld w 36 25) (fld w 24 13))
  | 0x21 => decForm (fld w 12 1 == 0) (.vlog2 (fld w 47 44) (fld w 37 37) (fld w 0 0) (fld w 36 25) (fld w 24 13))
  | 0x22 => decForm (fld w 12 1 == 0) (.vrcp (fld w 47 44) (fld w 37 37) (fld w 0 0) (fld w 36 25) (fld w 24 13))
  | 0x23 => decForm (fld w 12 1 == 0) (.vrcp (fld w 47 44) (fld w 37 37) (fld w 0 0) (fld w 36 25) (fld w 24 13))
  | 0x24 => decForm (fld w 12 1 == 0) (.vrsq (fld w 47 44) (fld w 37 37) (fld w 0 0) (fld w 36 25) (fld w 24 13))
  | 0x25 => decForm (fld w 12 1 == 0) (.vrsq (fld w 47 44) (fld w 37 37) (fld w 0 0) (fld w 36 25) (fld w 24 13))
  | 0x26 => decForm (fld w 12 1 == 0) (.vtanh (fld w 47 44) (fld w 37 37) (fld w 0 0) (fld w 36 25) (fld w 24 13))
  | 0x27 => decForm (fld w 12 1 == 0) (.vtanh (fld w 47 44) (fld w 37 37) (fld w 0 0) (fld w 36 25) (fld w 24 13))
  | 0x28 => decForm (fld w 12 1 == 0) (.vsilu (fld w 47 44) (fld w 37 37) (fld w 0 0) (fld w 36 25) (fld w 24 13))
  | 0x29 => decForm (fld w 12 1 == 0) (.vsilu (fld w 47 44) (fld w 37 37) (fld w 0 0) (fld w 36 25) (fld w 24 13))
  | 0x2A => decForm (true) (.vaddI (fld w 47 44) (fld w 37 37) (fld w 0 0) (fld w 36 25) (fld w 24 13) (fld w 12 1))
  | 0x2B => decForm (true) (.vaddI (fld w 47 44) (fld w 37 37) (fld w 0 0) (fld w 36 25) (fld w 24 13) (fld w 12 1))
  | 0x2C => decForm (true) (.vsubI (fld w 47 44) (fld w 37 37) (fld w 0 0) (fld w 36 25) (fld w 24 13) (fld w 12 1))
  | 0x2D => decForm (true) (.vsubI (fld w 47 44) (fld w 37 37) (fld w 0 0) (fld w 36 25) (fld w 24 13) (fld w 12 1))
  | 0x2E => decForm (true) (.vmulI (fld w 47 44) (fld w 37 37) (fld w 0 0) (fld w 36 25) (fld w 24 13) (fld w 12 1))
  | 0x2F => decForm (true) (.vmulI (fld w 47 44) (fld w 37 37) (fld w 0 0) (fld w 36 25) (fld w 24 13) (fld w 12 1))
  | 0x30 => decForm (true) (.vminI (fld w 47 44) (fld w 37 37) (fld w 0 0) (fld w 36 25) (fld w 24 13) (fld w 12 1))
  | 0x31 => decForm (true) (.vminI (fld w 47 44) (fld w 37 37) (fld w 0 0) (fld w 36 25) (fld w 24 13) (fld w 12 1))
  | 0x32 => decForm (true) (.vmaxI (fld w 47 44) (fld w 37 37) (fld w 0 0) (fld w 36 25) (fld w 24 13) (fld w 12 1))
  | 0x33 => decForm (true) (.vmaxI (fld w 47 44) (fld w 37 37) (fld w 0 0) (fld w 36 25) (fld w 24 13) (fld w 12 1))
  | 0x34 => decForm (fld w 0 0 == 0) (.vand (fld w 47 44) (fld w 37 37) (fld w 36 25) (fld w 24 13) (fld w 12 1))
  | 0x35 => decForm (fld w 0 0 == 0) (.vand (fld w 47 44) (fld w 37 37) (fld w 36 25) (fld w 24 13) (fld w 12 1))
  | 0x36 => decForm (fld w 0 0 == 0) (.vor (fld w 47 44) (fld w 37 37) (fld w 36 25) (fld w 24 13) (fld w 12 1))
  | 0x37 => decForm (fld w 0 0 == 0) (.vor (fld w 47 44) (fld w 37 37) (fld w 36 25) (fld w 24 13) (fld w 12 1))
  | 0x38 => decForm (fld w 0 0 == 0) (.vxor (fld w 47 44) (fld w 37 37) (fld w 36 25) (fld w 24 13) (fld w 12 1))
  | 0x39 => decForm (fld w 0 0 == 0) (.vxor (fld w 47 44) (fld w 37 37) (fld w 36 25) (fld w 24 13) (fld w 12 1))
  | 0x3A => decForm (fld w 0 0 == 0) (.vshl (fld w 47 44) (fld w 37 37) (fld w 36 25) (fld w 24 13) (fld w 12 1))
  | 0x3B => decForm (fld w 0 0 == 0) (.vshl (fld w 47 44) (fld w 37 37) (fld w 36 25) (fld w 24 13) (fld w 12 1))
  | 0x3C => decForm (fld w 0 0 == 0) (.vshr (fld w 47 44) (fld w 37 37) (fld w 36 25) (fld w 24 13) (fld w 12 1))
  | 0x3D => decForm (fld w 0 0 == 0) (.vshr (fld w 47 44) (fld w 37 37) (fld w 36 25) (fld w 24 13) (fld w 12 1))
  | 0x3E => decForm (fld w 0 0 == 0) (.vsra (fld w 47 44) (fld w 37 37) (fld w 36 25) (fld w 24 13) (fld w 12 1))
  | 0x3F => decForm (fld w 0 0 == 0) (.vsra (fld w 47 44) (fld w 37 37) (fld w 36 25) (fld w 24 13) (fld w 12 1))
  | 0x40 => decForm (fld w 0 0 == 0) (.vcmpEqI (fld w 47 44) (fld w 37 37) (fld w 36 25) (fld w 24 13) (fld w 12 1))
  | 0x41 => decForm (fld w 0 0 == 0) (.vcmpEqI (fld w 47 44) (fld w 37 37) (fld w 36 25) (fld w 24 13) (fld w 12 1))
  | 0x42 => decForm (fld w 0 0 == 0) (.vcmpLtI (fld w 47 44) (fld w 37 37) (fld w 36 25) (fld w 24 13) (fld w 12 1))
  | 0x43 => decForm (fld w 0 0 == 0) (.vcmpLtI (fld w 47 44) (fld w 37 37) (fld w 36 25) (fld w 24 13) (fld w 12 1))
  | 0x44 => decForm (fld w 12 1 == 0) (.vrsumI (fld w 47 44) (fld w 37 37) (fld w 0 0) (fld w 36 25) (fld w 24 13))
  | 0x45 => decForm (fld w 12 1 == 0) (.vrsumI (fld w 47 44) (fld w 37 37) (fld w 0 0) (fld w 36 25) (fld w 24 13))
  | 0x46 => decForm (fld w 0 0 == 0) (.vsel (fld w 47 44) (fld w 37 37) (fld w 36 25) (fld w 24 13) (fld w 12 1))
  | 0x47 => decForm (fld w 0 0 == 0) (.vsel (fld w 47 44) (fld w 37 37) (fld w 36 25) (fld w 24 13) (fld w 12 1))
  | 0x48 => decForm (fld w 12 0 == 0) (.vmov (fld w 47 44) (fld w 37 37) (fld w 36 25) (fld w 24 13))
  | 0x49 => decForm (fld w 12 0 == 0) (.vmov (fld w 47 44) (fld w 37 37) (fld w 36 25) (fld w 24 13))
  | 0x4A => decForm (fld w 12 9 == 0 && fld w 0 0 == 0) (.vbcast (fld w 47 44) (fld w 37 37) (fld w 36 25) (fld w 24 13) (fld w 8 1))
  | 0x4B => decForm (fld w 12 9 == 0 && fld w 0 0 == 0) (.vbcast (fld w 47 44) (fld w 37 37) (fld w 36 25) (fld w 24 13) (fld w 8 1))
  | 0x4C => decForm (fld w 0 0 == 0) (.vperm (fld w 47 44) (fld w 37 37) (fld w 36 25) (fld w 24 13) (fld w 12 1))
  | 0x4D => decForm (fld w 0 0 == 0) (.vperm (fld w 47 44) (fld w 37 37) (fld w 36 25) (fld w 24 13) (fld w 12 1))
  | 0x4E => decForm (fld w 12 9 == 0 && fld w 0 0 == 0) (.vrot (fld w 47 44) (fld w 37 37) (fld w 36 25) (fld w 24 13) (fld w 8 1))
  | 0x4F => decForm (fld w 12 9 == 0 && fld w 0 0 == 0) (.vrot (fld w 47 44) (fld w 37 37) (fld w 36 25) (fld w 24 13) (fld w 8 1))
  | 0x50 => decForm (fld w 12 0 == 0) (.vrev (fld w 47 44) (fld w 37 37) (fld w 36 25) (fld w 24 13))
  | 0x51 => decForm (fld w 12 0 == 0) (.vrev (fld w 47 44) (fld w 37 37) (fld w 36 25) (fld w 24 13))
  | 0x52 => decForm (fld w 12 5 == 0) (.vcvtN (fld w 47 44) (fld w 0 0) (fld w 36 25) (fld w 24 13) (fld w 4 4) (fld w 3 1))
  | 0x53 => decForm (fld w 12 5 == 0 && fld w 3 1 == 0) (.vcvtW (fld w 47 44) (fld w 0 0) (fld w 36 25) (fld w 24 13) (fld w 4 4))
  | 0x54 => decForm (fld w 12 4 == 0) (.vcvtFi (fld w 47 44) (fld w 37 37) (fld w 0 0) (fld w 36 25) (fld w 24 13) (fld w 3 1))
  | 0x55 => decForm (fld w 12 4 == 0) (.vcvtFi (fld w 47 44) (fld w 37 37) (fld w 0 0) (fld w 36 25) (fld w 24 13) (fld w 3 1))
  | 0x56 => decForm (fld w 12 4 == 0) (.vcvtIf (fld w 47 44) (fld w 37 37) (fld w 0 0) (fld w 36 25) (fld w 24 13) (fld w 3 1))
  | 0x57 => decForm (fld w 12 4 == 0) (.vcvtIf (fld w 47 44) (fld w 37 37) (fld w 0 0) (fld w 36 25) (fld w 24 13) (fld w 3 1))
  | 0x58 => decForm (fld w 12 5 == 0 && fld w 3 0 == 0) (.vcvtNi (fld w 47 44) (fld w 36 25) (fld w 24 13) (fld w 4 4))
  | 0x59 => decForm (fld w 12 5 == 0 && fld w 3 0 == 0) (.vcvtWi (fld w 47 44) (fld w 36 25) (fld w 24 13) (fld w 4 4))
  | _ => .err .reservedOpcode

/-- The vector (R157, R158) map, at the opcode field of the slot. -/
def decV (w : Nat) : Decoded := decVOp (fld w 43 37) w

/-- The pack (R159) map. -/
def decPOp (op w : Nat) : Decoded :=
  match op with
  | 0x00 => decForm (fld w 15 0 == 0) (.pNop (fld w 23 20))
  | 0x01 => decForm (true) (.pkMxint8Mm14 (fld w 23 20) (fld w 15 12) (fld w 11 10) (fld w 9 0))
  | 0x02 => decForm (true) (.pkMxint8Mm15 (fld w 23 20) (fld w 15 12) (fld w 11 10) (fld w 9 0))
  | 0x03 => decForm (true) (.pkMxint6Mm14 (fld w 23 20) (fld w 15 12) (fld w 11 10) (fld w 9 0))
  | 0x04 => decForm (true) (.pkMxint6Mm15 (fld w 23 20) (fld w 15 12) (fld w 11 10) (fld w 9 0))
  | 0x05 => decForm (true) (.pkMxint4Mm14 (fld w 23 20) (fld w 15 12) (fld w 11 10) (fld w 9 0))
  | 0x06 => decForm (true) (.pkMxint4Mm15 (fld w 23 20) (fld w 15 12) (fld w 11 10) (fld w 9 0))
  | 0x07 => decForm (true) (.pkE4m3Mm14 (fld w 23 20) (fld w 15 12) (fld w 11 10) (fld w 9 0))
  | 0x08 => decForm (true) (.pkE4m3Mm15 (fld w 23 20) (fld w 15 12) (fld w 11 10) (fld w 9 0))
  | 0x09 => decForm (true) (.pkE5m2Mm14 (fld w 23 20) (fld w 15 12) (fld w 11 10) (fld w 9 0))
  | 0x0A => decForm (true) (.pkE5m2Mm15 (fld w 23 20) (fld w 15 12) (fld w 11 10) (fld w 9 0))
  | 0x0B => decForm (true) (.pkFp6Mm14 (fld w 23 20) (fld w 15 12) (fld w 11 10) (fld w 9 0))
  | 0x0C => decForm (true) (.pkFp6Mm15 (fld w 23 20) (fld w 15 12) (fld w 11 10) (fld w 9 0))
  | 0x0D => decForm (true) (.pkE2m1Mm14 (fld w 23 20) (fld w 15 12) (fld w 11 10) (fld w 9 0))
  | 0x0E => decForm (true) (.pkE2m1Mm15 (fld w 23 20) (fld w 15 12) (fld w 11 10) (fld w 9 0))
  | _ => .err .reservedOpcode

/-- The pack (R159) map, at the opcode field of the slot. -/
def decP (w : Nat) : Decoded := decPOp (fld w 19 16) w

/-- The unpack (R159) map. -/
def decUOp (op w : Nat) : Decoded :=
  match op with
  | 0x00 => decForm (fld w 15 0 == 0) (.uNop (fld w 23 20))
  | 0x01 => decForm (true) (.unpkMxint8Mm14 (fld w 23 20) (fld w 15 12) (fld w 11 10) (fld w 9 0))
  | 0x02 => decForm (true) (.unpkMxint8Mm15 (fld w 23 20) (fld w 15 12) (fld w 11 10) (fld w 9 0))
  | 0x03 => decForm (true) (.unpkMxint6Mm14 (fld w 23 20) (fld w 15 12) (fld w 11 10) (fld w 9 0))
  | 0x04 => decForm (true) (.unpkMxint6Mm15 (fld w 23 20) (fld w 15 12) (fld w 11 10) (fld w 9 0))
  | 0x05 => decForm (true) (.unpkMxint4Mm14 (fld w 23 20) (fld w 15 12) (fld w 11 10) (fld w 9 0))
  | 0x06 => decForm (true) (.unpkMxint4Mm15 (fld w 23 20) (fld w 15 12) (fld w 11 10) (fld w 9 0))
  | 0x07 => decForm (true) (.unpkE4m3Mm14 (fld w 23 20) (fld w 15 12) (fld w 11 10) (fld w 9 0))
  | 0x08 => decForm (true) (.unpkE4m3Mm15 (fld w 23 20) (fld w 15 12) (fld w 11 10) (fld w 9 0))
  | 0x09 => decForm (true) (.unpkE5m2Mm14 (fld w 23 20) (fld w 15 12) (fld w 11 10) (fld w 9 0))
  | 0x0A => decForm (true) (.unpkE5m2Mm15 (fld w 23 20) (fld w 15 12) (fld w 11 10) (fld w 9 0))
  | 0x0B => decForm (true) (.unpkFp6Mm14 (fld w 23 20) (fld w 15 12) (fld w 11 10) (fld w 9 0))
  | 0x0C => decForm (true) (.unpkFp6Mm15 (fld w 23 20) (fld w 15 12) (fld w 11 10) (fld w 9 0))
  | 0x0D => decForm (true) (.unpkE2m1Mm14 (fld w 23 20) (fld w 15 12) (fld w 11 10) (fld w 9 0))
  | 0x0E => decForm (true) (.unpkE2m1Mm15 (fld w 23 20) (fld w 15 12) (fld w 11 10) (fld w 9 0))
  | _ => .err .reservedOpcode

/-- The unpack (R159) map, at the opcode field of the slot. -/
def decU (w : Nat) : Decoded := decUOp (fld w 19 16) w

/-- The asynchronous (R160 to R162) map. -/
def decAOp (op w : Nat) : Decoded :=
  match op with
  | 0x00 => decForm (fld w 21 0 == 0) (.aNop (fld w 31 28))
  | 0x01 => decForm (true) (.cpy (fld w 31 28) (fld w 21 18) (fld w 17 16) (fld w 15 12) (fld w 11 8) (fld w 7 4) (fld w 3 0))
  | 0x02 => decForm (true) (.gat (fld w 31 28) (fld w 21 18) (fld w 17 16) (fld w 15 12) (fld w 11 8) (fld w 7 4) (fld w 3 0))
  | 0x03 => decForm (true) (.sct (fld w 31 28) (fld w 21 18) (fld w 17 16) (fld w 15 12) (fld w 11 8) (fld w 7 4) (fld w 3 0))
  | 0x04 => decForm (true) (.mcastQ (fld w 31 28) (fld w 21 18) (fld w 17 16) (fld w 15 12) (fld w 11 8) (fld w 7 4) (fld w 3 0))
  | 0x05 => decForm (true) (.rst (fld w 31 28) (fld w 21 18) (fld w 17 16) (fld w 15 12) (fld w 11 8) (fld w 7 4) (fld w 3 0))
  | 0x06 => decForm (true) (.rld (fld w 31 28) (fld w 21 18) (fld w 17 16) (fld w 15 12) (fld w 11 8) (fld w 7 4) (fld w 3 0))
  | 0x07 => decForm (true) (.rred (fld w 31 28) (fld w 21 18) (fld w 17 16) (fld w 15 12) (fld w 11 8) (fld w 7 4) (fld w 3 0))
  | 0x08 => decForm (fld w 3 0 == 0) (.rflush (fld w 31 28) (fld w 21 18) (fld w 17 16) (fld w 15 12) (fld w 11 8) (fld w 7 4))
  | 0x09 => decForm (true) (.coll (fld w 31 28) (fld w 21 18) (fld w 17 16) (fld w 15 12) (fld w 11 8) (fld w 7 4) (fld w 3 0))
  | 0x0A => decForm (true) (.disp (fld w 31 28) (fld w 21 18) (fld w 17 16) (fld w 15 12) (fld w 11 8) (fld w 7 4) (fld w 3 0))
  | 0x0B => decForm (true) (.ccpy (fld w 31 28) (fld w 21 18) (fld w 17 16) (fld w 15 12) (fld w 11 8) (fld w 7 4) (fld w 3 0))
  | 0x0C => decForm (true) (.task (fld w 31 28) (fld w 21 18) (fld w 17 16) (fld w 15 12) (fld w 11 8) (fld w 7 4) (fld w 3 0))
  | 0x0D => decForm (true) (.ctadd (fld w 31 28) (fld w 21 18) (fld w 17 16) (fld w 15 12) (fld w 11 8) (fld w 7 4) (fld w 3 0))
  | 0x0E => decForm (true) (.ctraise (fld w 31 28) (fld w 21 18) (fld w 17 16) (fld w 15 12) (fld w 11 8) (fld w 7 4) (fld w 3 0))
  | 0x0F => decForm (true) (.ctpoll (fld w 31 28) (fld w 21 18) (fld w 17 16) (fld w 15 12) (fld w 11 8) (fld w 7 4) (fld w 3 0))
  | 0x10 => decForm (true) (.frecRd (fld w 31 28) (fld w 21 18) (fld w 17 16) (fld w 15 12) (fld w 11 8) (fld w 7 4) (fld w 3 0))
  | 0x11 => decForm (true) (.frecWr (fld w 31 28) (fld w 21 18) (fld w 17 16) (fld w 15 12) (fld w 11 8) (fld w 7 4) (fld w 3 0))
  | _ => .err .reservedOpcode

/-- The asynchronous (R160 to R162) map, at the opcode field of the slot. -/
def decA (w : Nat) : Decoded := decAOp (fld w 27 22) w

end

/-- Bits in a slot of the class (R138). -/
def slotWidth : SlotClass → Nat
  | .c => 24 | .p => 24 | .u => 24 | .s => 28 | .l => 28 | .w => 28 | .g => 32 | .x => 32 | .a => 32 | .v => 48

/-- The instruction a slot of a class holds, or why it holds none (R145). -/
noncomputable def decodeSlot (k : SlotClass) (w : Nat) : Decoded :=
  if 2 ^ slotWidth k ≤ w then .err .tooWide else
  match k with
  | .c => decC w
  | .s => decS w
  | .l => decL w
  | .w => decW w
  | .g => decG w
  | .x => decX w
  | .v => decV w
  | .p => decP w
  | .u => decU w
  | .a => decA w

/-- The class of slot an operation stands in; events stand in none. -/
def Instr.slotClass : Instr → Option SlotClass
  | .cNop _ => some .c
  | .pbr _ _ _ => some .c
  | .pbrS _ _ _ => some .c
  | .br _ _ _ => some .c
  | .brN _ _ _ => some .c
  | .call _ _ => some .c
  | .ret _ => some .c
  | .loop _ _ => some .c
  | .loopSwp _ _ => some .c
  | .lbrk _ _ => some .c
  | .ctwait _ _ _ => some .c
  | .ctwaitT _ _ _ => some .c
  | .ctwaitG _ _ => some .c
  | .ctwaitGt _ _ => some .c
  | .tkwait _ _ _ _ => some .c
  | .sstep _ => some .c
  | .yield _ => some .c
  | .halt _ => some .c
  | .brk _ _ => some .c
  | .trap _ _ => some .c
  | .tret _ => some .c
  | .sysrd _ _ _ => some .c
  | .syswr _ _ _ => some .c
  | .wheel _ _ => some .c
  | .pwrHint _ _ => some .c
  | .sNop _ => some .s
  | .add _ _ _ _ => some .s
  | .sub _ _ _ _ => some .s
  | .mul _ _ _ _ => some .s
  | .mulh _ _ _ _ => some .s
  | .mulhu _ _ _ _ => some .s
  | .div _ _ _ _ => some .s
  | .divu _ _ _ _ => some .s
  | .rem _ _ _ _ => some .s
  | .remu _ _ _ _ => some .s
  | .and _ _ _ _ => some .s
  | .or _ _ _ _ => some .s
  | .xor _ _ _ _ => some .s
  | .andn _ _ _ _ => some .s
  | .sll _ _ _ _ => some .s
  | .srl _ _ _ _ => some .s
  | .sra _ _ _ _ => some .s
  | .slli _ _ _ _ => some .s
  | .srli _ _ _ _ => some .s
  | .srai _ _ _ _ => some .s
  | .min _ _ _ _ => some .s
  | .max _ _ _ _ => some .s
  | .minu _ _ _ _ => some .s
  | .maxu _ _ _ _ => some .s
  | .popc _ _ _ => some .s
  | .clz _ _ _ => some .s
  | .cmpEq _ _ _ _ => some .s
  | .cmpLt _ _ _ _ => some .s
  | .cmpLtu _ _ _ _ => some .s
  | .cmpLe _ _ _ _ => some .s
  | .cmpLeu _ _ _ _ => some .s
  | .plog _ _ _ _ _ => some .s
  | .sel _ _ _ _ _ => some .s
  | .addi _ _ _ => some .s
  | .li _ _ _ => some .s
  | .lic _ _ _ => some .s
  | .kconst _ _ _ => some .s
  | .hmk _ _ _ => some .s
  | .hsz _ _ _ => some .s
  | .hrow _ _ _ => some .s
  | .mfpr _ _ => some .s
  | .mtpr _ _ => some .s
  | .mflc _ _ _ => some .s
  | .mfb _ _ _ => some .s
  | .mtb _ _ _ => some .s
  | .stsetF _ _ _ _ => some .s
  | .stsetZ _ _ => some .s
  | .stsetCp _ _ _ => some .s
  | .mtmm _ _ _ => some .s
  | .mfmm _ _ _ => some .s
  | .fadd _ _ _ _ => some .s
  | .fsub _ _ _ _ => some .s
  | .fmul _ _ _ _ => some .s
  | .fdiv _ _ _ _ => some .s
  | .fsqrt _ _ _ => some .s
  | .fmin _ _ _ _ => some .s
  | .fmax _ _ _ _ => some .s
  | .fcmpEq _ _ _ _ => some .s
  | .fcmpLt _ _ _ _ => some .s
  | .fcmpLe _ _ _ _ => some .s
  | .fcmpUn _ _ _ _ => some .s
  | .fcvtD2l _ _ _ => some .s
  | .fcvtL2d _ _ _ => some .s
  | .fcvtD2s _ _ _ => some .s
  | .fcvtS2d _ _ _ => some .s
  | .fabs _ _ _ => some .s
  | .fneg _ _ _ => some .s
  | .fsGcd _ _ _ _ => some .s
  | .fsMk _ _ _ _ => some .s
  | .fsMed _ _ _ _ => some .s
  | .fsNear _ _ _ _ => some .s
  | .fsNum _ _ _ => some .s
  | .fsDen _ _ _ => some .s
  | .fsClass _ _ _ => some .s
  | .fsCanon _ _ _ => some .s
  | .fsCvtF32 _ _ _ => some .s
  | .fsCvtE8 _ _ _ => some .s
  | .fsPack32 _ _ _ => some .s
  | .fsUnpk32 _ _ _ => some .s
  | .rationalResult _ => none
  | .lNop _ => some .l
  | .vld32 _ _ _ => some .l
  | .vld16 _ _ _ => some .l
  | .qld _ _ _ => some .l
  | .ldsB _ _ _ _ _ => some .l
  | .ldsH _ _ _ _ _ => some .l
  | .ldsW _ _ _ _ _ => some .l
  | .ldsD _ _ _ _ _ => some .l
  | .ofill _ _ _ _ _ => some .l
  | .halloc _ _ _ _ => some .l
  | .hfree _ _ => some .l
  | .wNop _ => some .w
  | .vst32 _ _ _ => some .w
  | .vst16 _ _ _ => some .w
  | .qst _ _ _ => some .w
  | .stsB _ _ _ _ _ => some .w
  | .stsH _ _ _ _ _ => some .w
  | .stsW _ _ _ _ _ => some .w
  | .stsD _ _ _ _ _ => some .w
  | .oclaim _ _ => some .w
  | .orel _ _ => some .w
  | .fillComplete _ => none
  | .gNop _ => some .g
  | .ldB _ _ _ _ _ _ _ => some .g
  | .ldH _ _ _ _ _ _ _ => some .g
  | .ldW _ _ _ _ _ _ _ => some .g
  | .ldD _ _ _ _ _ _ _ => some .g
  | .stB _ _ _ _ _ _ _ => some .g
  | .stH _ _ _ _ _ _ _ => some .g
  | .stW _ _ _ _ _ _ _ => some .g
  | .stD _ _ _ _ _ _ _ => some .g
  | .ldAcqW _ _ _ _ _ _ _ => some .g
  | .ldAcqD _ _ _ _ _ _ _ => some .g
  | .stRelW _ _ _ _ _ _ _ => some .g
  | .stRelD _ _ _ _ _ _ _ => some .g
  | .ldV _ _ _ _ => some .g
  | .stV _ _ _ _ => some .g
  | .amoAdd _ _ _ _ => some .g
  | .amoMax _ _ _ _ => some .g
  | .amoMaxu _ _ _ _ => some .g
  | .amoMin _ _ _ _ => some .g
  | .amoMinu _ _ _ _ => some .g
  | .amoAnd _ _ _ _ => some .g
  | .amoOr _ _ _ _ => some .g
  | .amoXor _ _ _ _ => some .g
  | .amoSwap _ _ _ _ => some .g
  | .amoCas _ _ _ _ => some .g
  | .amoScAdd _ _ _ _ => some .g
  | .amoScSwap _ _ _ _ => some .g
  | .amoScCas _ _ _ _ => some .g
  | .amoScMax _ _ _ _ => some .g
  | .amoScMin _ _ _ _ => some .g
  | .amoScPerform _ _ => none
  | .fenceCore _ => some .g
  | .fenceQuad _ => some .g
  | .fenceDie _ => some .g
  | .fencePackage _ => some .g
  | .fenceFabric _ => some .g
  | .pf _ _ => some .g
  | .wprobe _ _ _ => some .g
  | .gLoadReturn _ _ => none
  | .xNop _ => some .x
  | .mwld _ _ _ _ => some .x
  | .mtrans _ _ _ _ => some .x
  | .mma _ _ _ _ _ => some .x
  | .mmaAcc _ _ _ _ _ => some .x
  | .mmaTri _ _ _ _ _ => some .x
  | .mmaTriAcc _ _ _ _ _ => some .x
  | .mmaP _ _ _ _ => some .x
  | .mzero _ _ _ => some .x
  | .mdrain _ _ _ _ => some .x
  | .mdrainSp _ _ _ => some .x
  | .mdrainFab _ _ _ => some .x
  | .xOpLaunch _ => none
  | .xOpFinish _ => none
  | .drainRowPlaced _ _ => none
  | .vNop _ => some .v
  | .vaddF _ _ _ _ _ _ => some .v
  | .vsubF _ _ _ _ _ _ => some .v
  | .vmulF _ _ _ _ _ _ => some .v
  | .vfma _ _ _ _ _ _ => some .v
  | .vminF _ _ _ _ _ _ => some .v
  | .vmaxF _ _ _ _ _ _ => some .v
  | .vabs _ _ _ _ _ => some .v
  | .vneg _ _ _ _ _ => some .v
  | .vcmpEqF _ _ _ _ _ _ => some .v
  | .vcmpLtF _ _ _ _ _ _ => some .v
  | .vcmpLeF _ _ _ _ _ _ => some .v
  | .vrsumF _ _ _ _ _ => some .v
  | .vrmax _ _ _ _ _ => some .v
  | .vrmin _ _ _ _ _ => some .v
  | .vexp2 _ _ _ _ _ => some .v
  | .vlog2 _ _ _ _ _ => some .v
  | .vrcp _ _ _ _ _ => some .v
  | .vrsq _ _ _ _ _ => some .v
  | .vtanh _ _ _ _ _ => some .v
  | .vsilu _ _ _ _ _ => some .v
  | .vaddI _ _ _ _ _ _ => some .v
  | .vsubI _ _ _ _ _ _ => some .v
  | .vmulI _ _ _ _ _ _ => some .v
  | .vminI _ _ _ _ _ _ => some .v
  | .vmaxI _ _ _ _ _ _ => some .v
  | .vand _ _ _ _ _ => some .v
  | .vor _ _ _ _ _ => some .v
  | .vxor _ _ _ _ _ => some .v
  | .vshl _ _ _ _ _ => some .v
  | .vshr _ _ _ _ _ => some .v
  | .vsra _ _ _ _ _ => some .v
  | .vcmpEqI _ _ _ _ _ => some .v
  | .vcmpLtI _ _ _ _ _ => some .v
  | .vrsumI _ _ _ _ _ => some .v
  | .vsel _ _ _ _ _ => some .v
  | .vmov _ _ _ _ => some .v
  | .vbcast _ _ _ _ _ => some .v
  | .vperm _ _ _ _ _ => some .v
  | .vrot _ _ _ _ _ => some .v
  | .vrev _ _ _ _ => some .v
  | .vcvtN _ _ _ _ _ _ => some .v
  | .vcvtW _ _ _ _ _ => some .v
  | .vcvtFi _ _ _ _ _ _ => some .v
  | .vcvtIf _ _ _ _ _ _ => some .v
  | .vcvtNi _ _ _ _ => some .v
  | .vcvtWi _ _ _ _ => some .v
  | .resultLand _ => none
  | .pNop _ => some .p
  | .pkMxint8Mm14 _ _ _ _ => some .p
  | .pkMxint8Mm15 _ _ _ _ => some .p
  | .pkMxint6Mm14 _ _ _ _ => some .p
  | .pkMxint6Mm15 _ _ _ _ => some .p
  | .pkMxint4Mm14 _ _ _ _ => some .p
  | .pkMxint4Mm15 _ _ _ _ => some .p
  | .pkE4m3Mm14 _ _ _ _ => some .p
  | .pkE4m3Mm15 _ _ _ _ => some .p
  | .pkE5m2Mm14 _ _ _ _ => some .p
  | .pkE5m2Mm15 _ _ _ _ => some .p
  | .pkFp6Mm14 _ _ _ _ => some .p
  | .pkFp6Mm15 _ _ _ _ => some .p
  | .pkE2m1Mm14 _ _ _ _ => some .p
  | .pkE2m1Mm15 _ _ _ _ => some .p
  | .uNop _ => some .u
  | .unpkMxint8Mm14 _ _ _ _ => some .u
  | .unpkMxint8Mm15 _ _ _ _ => some .u
  | .unpkMxint6Mm14 _ _ _ _ => some .u
  | .unpkMxint6Mm15 _ _ _ _ => some .u
  | .unpkMxint4Mm14 _ _ _ _ => some .u
  | .unpkMxint4Mm15 _ _ _ _ => some .u
  | .unpkE4m3Mm14 _ _ _ _ => some .u
  | .unpkE4m3Mm15 _ _ _ _ => some .u
  | .unpkE5m2Mm14 _ _ _ _ => some .u
  | .unpkE5m2Mm15 _ _ _ _ => some .u
  | .unpkFp6Mm14 _ _ _ _ => some .u
  | .unpkFp6Mm15 _ _ _ _ => some .u
  | .unpkE2m1Mm14 _ _ _ _ => some .u
  | .unpkE2m1Mm15 _ _ _ _ => some .u
  | .aNop _ => some .a
  | .cpy _ _ _ _ _ _ _ => some .a
  | .gat _ _ _ _ _ _ _ => some .a
  | .sct _ _ _ _ _ _ _ => some .a
  | .mcastQ _ _ _ _ _ _ _ => some .a
  | .rst _ _ _ _ _ _ _ => some .a
  | .rld _ _ _ _ _ _ _ => some .a
  | .rred _ _ _ _ _ _ _ => some .a
  | .rflush _ _ _ _ _ _ => some .a
  | .coll _ _ _ _ _ _ _ => some .a
  | .disp _ _ _ _ _ _ _ => some .a
  | .ccpy _ _ _ _ _ _ _ => some .a
  | .task _ _ _ _ _ _ _ => some .a
  | .ctadd _ _ _ _ _ _ _ => some .a
  | .ctraise _ _ _ _ _ _ _ => some .a
  | .ctpoll _ _ _ _ _ _ _ => some .a
  | .frecRd _ _ _ _ _ _ _ => some .a
  | .frecWr _ _ _ _ _ _ _ => some .a
  | .engineCommandStart _ _ _ _ => none
  | .engineCommandComplete _ _ _ => none
  | .collTransfer _ _ => none
  | .dispClaim _ _ => none
  | .rredRetry _ _ => none
  | .rredTimeout _ _ => none
  | .placementAck _ _ => none
  | .deferredTrap _ => none
  | .combiningEntryAgeFlush _ _ => none
  | .counterWaitSatisfied _ => none
  | .counterWaitTimeout _ => none
  | .monitorPoll _ => none
  | .versionSealWake _ => none
  | .missingVersionTimeout _ => none
  | .versionCapacityWake _ => none
  | .versionCapacityTimeout _ => none
  | .bundleFetch _ => none
  | .tileTaskRetire _ => none
  | .doorbellWrite _ _ _ => none
  | .recordRead _ _ => none
  | .queueSlotRequest _ => none
  | .dependencesMet _ => none
  | .gangPlacement _ _ => none
  | .quantumExpiry _ => none
  | .preemptForcedStop _ => none
  | .contextSave _ => none
  | .contextRestore _ _ _ => none
  | .ctxCreate _ => none
  | .ctxDestroy _ => none
  | .qBind _ => none
  | .qTeardownDrain _ => none
  | .qTeardownKill _ => none
  | .qTeardownFreeze _ => none
  | .qRestore _ => none
  | .preempt _ => none
  | .resume _ => none
  | .derailleurEvaluation => none
  | .fillerStopTimeout _ => none
  | .drlCtlWrite _ => none
  | .telemetryRecord => none
  | .traceSample _ => none
  | .pmcRotation _ => none
  | .pmcCtlWrite _ _ => none
  | .invAsid _ => none
  | .invPage _ => none
  | .invWindow _ _ => none
  | .invKey _ => none
  | .winMake _ _ => none
  | .regionSet _ => none
  | .regionClear _ => none
  | .parkResume _ => none
  | .parkDrop _ => none
  | .translationWalk _ => none
  | .routeWr _ => none
  | .routeHoldExpiry _ => none
  | .grpSet _ => none
  | .grpClear _ => none
  | .trunkTrain _ => none
  | .trunkCfgWrite _ _ => none
  | .startFlit _ _ _ => none
  | .contFlit _ _ _ => none
  | .idleFlit _ _ _ => none
  | .replayReq _ _ _ => none
  | .trainFlit _ _ _ => none
  | .replayReqRepeat _ => none
  | .laneFail _ _ => none
  | .trainingDone _ _ => none
  | .probationExpiry _ => none
  | .wr _ => none
  | .rd _ => none
  | .amo _ => none
  | .ctr _ => none
  | .ver _ => none
  | .red _ => none
  | .rereq _ => none
  | .ackpl _ => none
  | .data _ => none
  | .result _ => none
  | .partialRelease _ => none
  | .nack _ => none
  | .mgmt _ => none
  | .ptmoExpiry _ => none
  | .ptmoHalfRereq _ => none
  | .combiningUncorrectable _ => none
  | .packageReset _ => none
  | .recoveryImage _ _ => none
  | .getVersion _ _ => none
  | .getCapabilities _ _ => none
  | .negotiateAlgorithms _ _ => none
  | .getDigests _ _ => none
  | .getCertificate _ _ => none
  | .challenge _ _ => none
  | .getMeasurements _ _ => none
  | .keyExchange _ _ => none
  | .finish _ _ => none
  | .heartbeat _ _ => none
  | .keyUpdate _ _ => none
  | .endSession _ _ => none
  | .keyProg _ _ => none
  | .keyErase _ _ => none
  | .unsupportedRequest _ _ => none
  | .ideKm _ _ => none
  | .ideIntegrityFailure _ => none
  | .getDeviceInterfaceState _ => none
  | .lockInterfaceRequest _ => none
  | .getDeviceInterfaceReport _ => none
  | .startInterfaceRequest _ => none
  | .stopInterfaceRequest _ => none
  | .vfQBind _ _ _ => none
  | .vfQTeardownDrain _ _ _ => none
  | .vfQTeardownKill _ _ _ => none
  | .vfQTeardownFreeze _ _ _ => none
  | .vfQRestore _ _ _ => none
  | .vfPreempt _ _ _ => none
  | .vfResume _ _ _ => none
  | .vfInvAsid _ _ _ => none
  | .vfInvPage _ _ _ => none
  | .vfInvWindow _ _ _ => none
  | .vfInvKey _ _ _ => none
  | .vfWinMake _ _ _ => none
  | .vfRegionSet _ _ _ => none
  | .vfRegionClear _ _ _ => none
  | .vfParkResume _ _ _ => none
  | .vfParkDrop _ _ _ => none
  | .entryWr _ _ _ _ => none
  | .dbgSessionWrite _ _ => none
  | .dbgStop _ => none
  | .dbgResume _ => none
  | .dbgStep _ => none
  | .dbgDataRead _ => none
  | .dbgDataWrite _ _ => none
  | .replayParting _ => none
  | .ppsEdge => none
  | .todMessage _ => none
  | .todByteGap => none
  | .todDeadline => none
  | .timeLock _ _ => none
  | .timeSourceLoss => none
  | .registerWrite _ _ _ => none

set_option maxHeartbeats 2000000 in
/-- The bits of a slot operation, from the same tables; an event has no bits. -/
def encode : Instr → Nat
  | .cNop p => p * 0x100000 + 0x0
  | .pbr p b r => p * 0x100000 + b * 0x1000 + r + 0x8000
  | .pbrS p b a => p * 0x100000 + b * 0x1000 + a * 0x40 + 0x10000
  | .br p b q => p * 0x100000 + b * 0x1000 + q * 0x100 + 0x18000
  | .brN p b q => p * 0x100000 + b * 0x1000 + q * 0x100 + 0x20000
  | .call p b => p * 0x100000 + b * 0x1000 + 0x28000
  | .ret p => p * 0x100000 + 0x30000
  | .loop p i => p * 0x100000 + i * 0x1000 + 0x38000
  | .loopSwp p i => p * 0x100000 + i * 0x1000 + 0x40000
  | .lbrk p i => p * 0x100000 + i * 0x1000 + 0x48000
  | .ctwait p c a => p * 0x100000 + c * 0x40 + a + 0x50000
  | .ctwaitT p c a => p * 0x100000 + c * 0x40 + a + 0x58000
  | .ctwaitG p a => p * 0x100000 + a + 0x60000
  | .ctwaitGt p a => p * 0x100000 + a + 0x68000
  | .tkwait p x y z => p * 0x100000 + x * 0x400 + y * 0x20 + z + 0x70000
  | .sstep p => p * 0x100000 + 0x78000
  | .yield p => p * 0x100000 + 0x80000
  | .halt p => p * 0x100000 + 0x88000
  | .brk p n => p * 0x100000 + n + 0x90000
  | .trap p n => p * 0x100000 + n + 0x98000
  | .tret p => p * 0x100000 + 0xA0000
  | .sysrd p d r => p * 0x100000 + d * 0x200 + r + 0xA8000
  | .syswr p a r => p * 0x100000 + a * 0x200 + r + 0xB0000
  | .wheel p n => p * 0x100000 + n + 0xB8000
  | .pwrHint p n => p * 0x100000 + n + 0xC0000
  | .sNop p => p * 0x1000000 + 0x0
  | .add p d a b => p * 0x1000000 + d * 0x1000 + a * 0x40 + b + 0x40000
  | .sub p d a b => p * 0x1000000 + d * 0x1000 + a * 0x40 + b + 0x80000
  | .mul p d a b => p * 0x1000000 + d * 0x1000 + a * 0x40 + b + 0xC0000
  | .mulh p d a b => p * 0x1000000 + d * 0x1000 + a * 0x40 + b + 0x100000
  | .mulhu p d a b => p * 0x1000000 + d * 0x1000 + a * 0x40 + b + 0x140000
  | .div p d a b => p * 0x1000000 + d * 0x1000 + a * 0x40 + b + 0x180000
  | .divu p d a b => p * 0x1000000 + d * 0x1000 + a * 0x40 + b + 0x1C0000
  | .rem p d a b => p * 0x1000000 + d * 0x1000 + a * 0x40 + b + 0x200000
  | .remu p d a b => p * 0x1000000 + d * 0x1000 + a * 0x40 + b + 0x240000
  | .and p d a b => p * 0x1000000 + d * 0x1000 + a * 0x40 + b + 0x280000
  | .or p d a b => p * 0x1000000 + d * 0x1000 + a * 0x40 + b + 0x2C0000
  | .xor p d a b => p * 0x1000000 + d * 0x1000 + a * 0x40 + b + 0x300000
  | .andn p d a b => p * 0x1000000 + d * 0x1000 + a * 0x40 + b + 0x340000
  | .sll p d a b => p * 0x1000000 + d * 0x1000 + a * 0x40 + b + 0x380000
  | .srl p d a b => p * 0x1000000 + d * 0x1000 + a * 0x40 + b + 0x3C0000
  | .sra p d a b => p * 0x1000000 + d * 0x1000 + a * 0x40 + b + 0x400000
  | .slli p d a n => p * 0x1000000 + d * 0x1000 + a * 0x40 + n + 0x440000
  | .srli p d a n => p * 0x1000000 + d * 0x1000 + a * 0x40 + n + 0x480000
  | .srai p d a n => p * 0x1000000 + d * 0x1000 + a * 0x40 + n + 0x4C0000
  | .min p d a b => p * 0x1000000 + d * 0x1000 + a * 0x40 + b + 0x500000
  | .max p d a b => p * 0x1000000 + d * 0x1000 + a * 0x40 + b + 0x540000
  | .minu p d a b => p * 0x1000000 + d * 0x1000 + a * 0x40 + b + 0x580000
  | .maxu p d a b => p * 0x1000000 + d * 0x1000 + a * 0x40 + b + 0x5C0000
  | .popc p d a => p * 0x1000000 + d * 0x1000 + a * 0x40 + 0x600000
  | .clz p d a => p * 0x1000000 + d * 0x1000 + a * 0x40 + 0x640000
  | .cmpEq p k a b => p * 0x1000000 + k * 0x8000 + a * 0x40 + b + 0x680000
  | .cmpLt p k a b => p * 0x1000000 + k * 0x8000 + a * 0x40 + b + 0x681000
  | .cmpLtu p k a b => p * 0x1000000 + k * 0x8000 + a * 0x40 + b + 0x682000
  | .cmpLe p k a b => p * 0x1000000 + k * 0x8000 + a * 0x40 + b + 0x683000
  | .cmpLeu p k a b => p * 0x1000000 + k * 0x8000 + a * 0x40 + b + 0x684000
  | .plog p d a b t => p * 0x1000000 + d * 0x4000 + a * 0x400 + b * 0x40 + t * 0x4 + 0x6C0000
  | .sel p k d a b => p * 0x1000000 + k * 0x8000 + d * 0x400 + a * 0x20 + b + 0x700000
  | .addi p d i => p * 0x1000000 + d * 0x1000 + i + 0x780000
  | .li p d i => p * 0x1000000 + d * 0x1000 + i + 0x7C0000
  | .lic p d i => p * 0x1000000 + d * 0x1000 + i + 0x800000
  | .kconst p d i => p * 0x1000000 + d * 0x1000 + i + 0x840000
  | .hmk p d i => p * 0x1000000 + d * 0x1000 + i + 0x880000
  | .hsz p d i => p * 0x1000000 + d * 0x1000 + i + 0x8C0000
  | .hrow p d i => p * 0x1000000 + d * 0x1000 + i + 0x900000
  | .mfpr p d => p * 0x1000000 + d * 0x1000 + 0x940000
  | .mtpr p a => p * 0x1000000 + a * 0x40 + 0x980000
  | .mflc p d n => p * 0x1000000 + d * 0x1000 + n + 0x9C0000
  | .mfb p d n => p * 0x1000000 + d * 0x1000 + n + 0xA00000
  | .mtb p n a => p * 0x1000000 + n + a * 0x40 + 0xA40000
  | .stsetF p t s a => p * 0x1000000 + t * 0x4000 + s * 0x400 + a * 0x10 + 0xA80000
  | .stsetZ p t => p * 0x1000000 + t * 0x4000 + 0xAC0000
  | .stsetCp p t m => p * 0x1000000 + t * 0x4000 + m * 0x400 + 0xB00000
  | .mtmm p n a => p * 0x1000000 + n + a * 0x40 + 0xB40000
  | .mfmm p d n => p * 0x1000000 + d * 0x1000 + n + 0xB80000
  | .fadd p d a b => p * 0x1000000 + d * 0x1000 + a * 0x40 + b + 0xC00000
  | .fsub p d a b => p * 0x1000000 + d * 0x1000 + a * 0x40 + b + 0xC40000
  | .fmul p d a b => p * 0x1000000 + d * 0x1000 + a * 0x40 + b + 0xC80000
  | .fdiv p d a b => p * 0x1000000 + d * 0x1000 + a * 0x40 + b + 0xCC0000
  | .fsqrt p d a => p * 0x1000000 + d * 0x1000 + a * 0x40 + 0xD00000
  | .fmin p d a b => p * 0x1000000 + d * 0x1000 + a * 0x40 + b + 0xD40000
  | .fmax p d a b => p * 0x1000000 + d * 0x1000 + a * 0x40 + b + 0xD80000
  | .fcmpEq p k a b => p * 0x1000000 + k * 0x8000 + a * 0x40 + b + 0xDC0000
  | .fcmpLt p k a b => p * 0x1000000 + k * 0x8000 + a * 0x40 + b + 0xDC1000
  | .fcmpLe p k a b => p * 0x1000000 + k * 0x8000 + a * 0x40 + b + 0xDC2000
  | .fcmpUn p k a b => p * 0x1000000 + k * 0x8000 + a * 0x40 + b + 0xDC3000
  | .fcvtD2l p d a => p * 0x1000000 + d * 0x1000 + a * 0x40 + 0xE00000
  | .fcvtL2d p d a => p * 0x1000000 + d * 0x1000 + a * 0x40 + 0xE00001
  | .fcvtD2s p d a => p * 0x1000000 + d * 0x1000 + a * 0x40 + 0xE00002
  | .fcvtS2d p d a => p * 0x1000000 + d * 0x1000 + a * 0x40 + 0xE00003
  | .fabs p d a => p * 0x1000000 + d * 0x1000 + a * 0x40 + 0xE40000
  | .fneg p d a => p * 0x1000000 + d * 0x1000 + a * 0x40 + 0xE80000
  | .fsGcd p d a b => p * 0x1000000 + d * 0x1000 + a * 0x40 + b + 0xEC0000
  | .fsMk p d a b => p * 0x1000000 + d * 0x1000 + a * 0x40 + b + 0xF00000
  | .fsMed p d a b => p * 0x1000000 + d * 0x1000 + a * 0x40 + b + 0xF40000
  | .fsNear p d a b => p * 0x1000000 + d * 0x1000 + a * 0x40 + b + 0xF80000
  | .fsNum p d a => p * 0x1000000 + d * 0x1000 + a * 0x40 + 0xFC0000
  | .fsDen p d a => p * 0x1000000 + d * 0x1000 + a * 0x40 + 0xFC0001
  | .fsClass p d a => p * 0x1000000 + d * 0x1000 + a * 0x40 + 0xFC0002
  | .fsCanon p d a => p * 0x1000000 + d * 0x1000 + a * 0x40 + 0xFC0003
  | .fsCvtF32 p d a => p * 0x1000000 + d * 0x1000 + a * 0x40 + 0xFC0004
  | .fsCvtE8 p d a => p * 0x1000000 + d * 0x1000 + a * 0x40 + 0xFC0005
  | .fsPack32 p d a => p * 0x1000000 + d * 0x1000 + a * 0x40 + 0xFC0006
  | .fsUnpk32 p d a => p * 0x1000000 + d * 0x1000 + a * 0x40 + 0xFC0007
  | .rationalResult _ => 0
  | .lNop p => p * 0x1000000 + 0x0
  | .vld32 p v t => p * 0x1000000 + v * 0x80 + t * 0x8 + 0x80000
  | .vld16 p v t => p * 0x1000000 + v * 0x80 + t * 0x8 + 0x100000
  | .qld p q t => p * 0x1000000 + q * 0x8000 + t * 0x800 + 0x180000
  | .ldsB p d a v k => p * 0x1000000 + d * 0x2000 + a * 0x80 + v * 0x40 + k * 0x4 + 0x200000
  | .ldsH p d a v k => p * 0x1000000 + d * 0x2000 + a * 0x80 + v * 0x40 + k * 0x4 + 0x280000
  | .ldsW p d a v k => p * 0x1000000 + d * 0x2000 + a * 0x80 + v * 0x40 + k * 0x4 + 0x300000
  | .ldsD p d a v k => p * 0x1000000 + d * 0x2000 + a * 0x80 + v * 0x40 + k * 0x4 + 0x380000
  | .ofill p s t v k => p * 0x1000000 + s * 0x8000 + t * 0x800 + v * 0x400 + k * 0x40 + 0x400000
  | .halloc p h d a => p * 0x1000000 + h * 0x800 + d * 0x80 + a * 0x2 + 0x480000
  | .hfree p h => p * 0x1000000 + h * 0x800 + 0x500000
  | .wNop p => p * 0x1000000 + 0x0
  | .vst32 p v t => p * 0x1000000 + v * 0x80 + t * 0x8 + 0x80000
  | .vst16 p v t => p * 0x1000000 + v * 0x80 + t * 0x8 + 0x100000
  | .qst p q t => p * 0x1000000 + q * 0x8000 + t * 0x800 + 0x180000
  | .stsB p d a v k => p * 0x1000000 + d * 0x2000 + a * 0x80 + v * 0x40 + k * 0x4 + 0x200000
  | .stsH p d a v k => p * 0x1000000 + d * 0x2000 + a * 0x80 + v * 0x40 + k * 0x4 + 0x280000
  | .stsW p d a v k => p * 0x1000000 + d * 0x2000 + a * 0x80 + v * 0x40 + k * 0x4 + 0x300000
  | .stsD p d a v k => p * 0x1000000 + d * 0x2000 + a * 0x80 + v * 0x40 + k * 0x4 + 0x380000
  | .oclaim p s => p * 0x1000000 + s * 0x8000 + 0x400000
  | .orel p s => p * 0x1000000 + s * 0x8000 + 0x480000
  | .fillComplete _ => 0
  | .gNop p => p * 0x10000000 + 0x0
  | .ldB p d a v t w u => p * 0x10000000 + d * 0x10000 + a * 0x400 + v * 0x200 + t * 0x20 + w * 0x10 + u + 0x400000
  | .ldH p d a v t w u => p * 0x10000000 + d * 0x10000 + a * 0x400 + v * 0x200 + t * 0x20 + w * 0x10 + u + 0x800000
  | .ldW p d a v t w u => p * 0x10000000 + d * 0x10000 + a * 0x400 + v * 0x200 + t * 0x20 + w * 0x10 + u + 0xC00000
  | .ldD p d a v t w u => p * 0x10000000 + d * 0x10000 + a * 0x400 + v * 0x200 + t * 0x20 + w * 0x10 + u + 0x1000000
  | .stB p d a v t w u => p * 0x10000000 + d * 0x10000 + a * 0x400 + v * 0x200 + t * 0x20 + w * 0x10 + u + 0x1400000
  | .stH p d a v t w u => p * 0x10000000 + d * 0x10000 + a * 0x400 + v * 0x200 + t * 0x20 + w * 0x10 + u + 0x1800000
  | .stW p d a v t w u => p * 0x10000000 + d * 0x10000 + a * 0x400 + v * 0x200 + t * 0x20 + w * 0x10 + u + 0x1C00000
  | .stD p d a v t w u => p * 0x10000000 + d * 0x10000 + a * 0x400 + v * 0x200 + t * 0x20 + w * 0x10 + u + 0x2000000
  | .ldAcqW p d a v t w u => p * 0x10000000 + d * 0x10000 + a * 0x400 + v * 0x200 + t * 0x20 + w * 0x10 + u + 0x2400000
  | .ldAcqD p d a v t w u => p * 0x10000000 + d * 0x10000 + a * 0x400 + v * 0x200 + t * 0x20 + w * 0x10 + u + 0x2800000
  | .stRelW p d a v t w u => p * 0x10000000 + d * 0x10000 + a * 0x400 + v * 0x200 + t * 0x20 + w * 0x10 + u + 0x2C00000
  | .stRelD p d a v t w u => p * 0x10000000 + d * 0x10000 + a * 0x400 + v * 0x200 + t * 0x20 + w * 0x10 + u + 0x3000000
  | .ldV p d a b => p * 0x10000000 + d * 0x10000 + a * 0x400 + b * 0x10 + 0x3400000
  | .stV p d a b => p * 0x10000000 + d * 0x10000 + a * 0x400 + b * 0x10 + 0x3800000
  | .amoAdd p d a b => p * 0x10000000 + d * 0x10000 + a * 0x400 + b * 0x10 + 0x3C00000
  | .amoMax p d a b => p * 0x10000000 + d * 0x10000 + a * 0x400 + b * 0x10 + 0x4000000
  | .amoMaxu p d a b => p * 0x10000000 + d * 0x10000 + a * 0x400 + b * 0x10 + 0x4400000
  | .amoMin p d a b => p * 0x10000000 + d * 0x10000 + a * 0x400 + b * 0x10 + 0x4800000
  | .amoMinu p d a b => p * 0x10000000 + d * 0x10000 + a * 0x400 + b * 0x10 + 0x4C00000
  | .amoAnd p d a b => p * 0x10000000 + d * 0x10000 + a * 0x400 + b * 0x10 + 0x5000000
  | .amoOr p d a b => p * 0x10000000 + d * 0x10000 + a * 0x400 + b * 0x10 + 0x5400000
  | .amoXor p d a b => p * 0x10000000 + d * 0x10000 + a * 0x400 + b * 0x10 + 0x5800000
  | .amoSwap p d a b => p * 0x10000000 + d * 0x10000 + a * 0x400 + b * 0x10 + 0x5C00000
  | .amoCas p d a b => p * 0x10000000 + d * 0x10000 + a * 0x400 + b * 0x10 + 0x6000000
  | .amoScAdd p d a b => p * 0x10000000 + d * 0x10000 + a * 0x400 + b * 0x10 + 0x6400000
  | .amoScSwap p d a b => p * 0x10000000 + d * 0x10000 + a * 0x400 + b * 0x10 + 0x6400001
  | .amoScCas p d a b => p * 0x10000000 + d * 0x10000 + a * 0x400 + b * 0x10 + 0x6400002
  | .amoScMax p d a b => p * 0x10000000 + d * 0x10000 + a * 0x400 + b * 0x10 + 0x6400003
  | .amoScMin p d a b => p * 0x10000000 + d * 0x10000 + a * 0x400 + b * 0x10 + 0x6400004
  | .amoScPerform _ _ => 0
  | .fenceCore p => p * 0x10000000 + 0x6800000
  | .fenceQuad p => p * 0x10000000 + 0x6800001
  | .fenceDie p => p * 0x10000000 + 0x6800002
  | .fencePackage p => p * 0x10000000 + 0x6800003
  | .fenceFabric p => p * 0x10000000 + 0x6800004
  | .pf p a => p * 0x10000000 + a * 0x400 + 0x6C00000
  | .wprobe p d a => p * 0x10000000 + d * 0x10000 + a * 0x400 + 0x7000000
  | .gLoadReturn _ _ => 0
  | .xNop p => p * 0x10000000 + 0x0
  | .mwld p l s m => p * 0x10000000 + l * 0x80000 + s * 0x8000 + m * 0x800 + 0x800000
  | .mtrans p l s m => p * 0x10000000 + l * 0x80000 + s * 0x8000 + m * 0x800 + 0x1000000
  | .mma p l t s m => p * 0x10000000 + l * 0x80000 + t * 0x10000 + s * 0x1000 + m * 0x100 + 0x1800000
  | .mmaAcc p l t s m => p * 0x10000000 + l * 0x80000 + t * 0x10000 + s * 0x1000 + m * 0x100 + 0x2000000
  | .mmaTri p l t s m => p * 0x10000000 + l * 0x80000 + t * 0x10000 + s * 0x1000 + m * 0x100 + 0x2800000
  | .mmaTriAcc p l t s m => p * 0x10000000 + l * 0x80000 + t * 0x10000 + s * 0x1000 + m * 0x100 + 0x3000000
  | .mmaP p l s m => p * 0x10000000 + l * 0x80000 + s * 0x1000 + m * 0x100 + 0x3800000
  | .mzero p l t => p * 0x10000000 + l * 0x80000 + t * 0x10000 + 0x4000000
  | .mdrain p l t m => p * 0x10000000 + l * 0x80000 + t * 0x10000 + m * 0x100 + 0x4800000
  | .mdrainSp p l m => p * 0x10000000 + l * 0x80000 + m * 0x100 + 0x5000000
  | .mdrainFab p l m => p * 0x10000000 + l * 0x80000 + m * 0x100 + 0x5800000
  | .xOpLaunch _ => 0
  | .xOpFinish _ => 0
  | .drainRowPlaced _ _ => 0
  | .vNop p => p * 0x100000000000 + 0x0
  | .vaddF p w t d a b => p * 0x100000000000 + w * 0x2000000000 + t + d * 0x2000000 + a * 0x2000 + b * 0x2 + 0x4000000000
  | .vsubF p w t d a b => p * 0x100000000000 + w * 0x2000000000 + t + d * 0x2000000 + a * 0x2000 + b * 0x2 + 0x8000000000
  | .vmulF p w t d a b => p * 0x100000000000 + w * 0x2000000000 + t + d * 0x2000000 + a * 0x2000 + b * 0x2 + 0xC000000000
  | .vfma p w t d a b => p * 0x100000000000 + w * 0x2000000000 + t + d * 0x2000000 + a * 0x2000 + b * 0x2 + 0x10000000000
  | .vminF p w t d a b => p * 0x100000000000 + w * 0x2000000000 + t + d * 0x2000000 + a * 0x2000 + b * 0x2 + 0x14000000000
  | .vmaxF p w t d a b => p * 0x100000000000 + w * 0x2000000000 + t + d * 0x2000000 + a * 0x2000 + b * 0x2 + 0x18000000000
  | .vabs p w t d a => p * 0x100000000000 + w * 0x2000000000 + t + d * 0x2000000 + a * 0x2000 + 0x1C000000000
  | .vneg p w t d a => p * 0x100000000000 + w * 0x2000000000 + t + d * 0x2000000 + a * 0x2000 + 0x20000000000
  | .vcmpEqF p w t d a b => p * 0x100000000000 + w * 0x2000000000 + t + d * 0x2000000 + a * 0x2000 + b * 0x2 + 0x24000000000
  | .vcmpLtF p w t d a b => p * 0x100000000000 + w * 0x2000000000 + t + d * 0x2000000 + a * 0x2000 + b * 0x2 + 0x28000000000
  | .vcmpLeF p w t d a b => p * 0x100000000000 + w * 0x2000000000 + t + d * 0x2000000 + a * 0x2000 + b * 0x2 + 0x2C000000000
  | .vrsumF p w t d a => p * 0x100000000000 + w * 0x2000000000 + t + d * 0x2000000 + a * 0x2000 + 0x30000000000
  | .vrmax p w t d a => p * 0x100000000000 + w * 0x2000000000 + t + d * 0x2000000 + a * 0x2000 + 0x34000000000
  | .vrmin p w t d a => p * 0x100000000000 + w * 0x2000000000 + t + d * 0x2000000 + a * 0x2000 + 0x38000000000
  | .vexp2 p w t d a => p * 0x100000000000 + w * 0x2000000000 + t + d * 0x2000000 + a * 0x2000 + 0x3C000000000
  | .vlog2 p w t d a => p * 0x100000000000 + w * 0x2000000000 + t + d * 0x2000000 + a * 0x2000 + 0x40000000000
  | .vrcp p w t d a => p * 0x100000000000 + w * 0x2000000000 + t + d * 0x2000000 + a * 0x2000 + 0x44000000000
  | .vrsq p w t d a => p * 0x100000000000 + w * 0x2000000000 + t + d * 0x2000000 + a * 0x2000 + 0x48000000000
  | .vtanh p w t d a => p * 0x100000000000 + w * 0x2000000000 + t + d * 0x2000000 + a * 0x2000 + 0x4C000000000
  | .vsilu p w t d a => p * 0x100000000000 + w * 0x2000000000 + t + d * 0x2000000 + a * 0x2000 + 0x50000000000
  | .vaddI p w t d a b => p * 0x100000000000 + w * 0x2000000000 + t + d * 0x2000000 + a * 0x2000 + b * 0x2 + 0x54000000000
  | .vsubI p w t d a b => p * 0x100000000000 + w * 0x2000000000 + t + d * 0x2000000 + a * 0x2000 + b * 0x2 + 0x58000000000
  | .vmulI p w t d a b => p * 0x100000000000 + w * 0x2000000000 + t + d * 0x2000000 + a * 0x2000 + b * 0x2 + 0x5C000000000
  | .vminI p w t d a b => p * 0x100000000000 + w * 0x2000000000 + t + d * 0x2000000 + a * 0x2000 + b * 0x2 + 0x60000000000
  | .vmaxI p w t d a b => p * 0x100000000000 + w * 0x2000000000 + t + d * 0x2000000 + a * 0x2000 + b * 0x2 + 0x64000000000
  | .vand p w d a b => p * 0x100000000000 + w * 0x2000000000 + d * 0x2000000 + a * 0x2000 + b * 0x2 + 0x68000000000
  | .vor p w d a b => p * 0x100000000000 + w * 0x2000000000 + d * 0x2000000 + a * 0x2000 + b * 0x2 + 0x6C000000000
  | .vxor p w d a b => p * 0x100000000000 + w * 0x2000000000 + d * 0x2000000 + a * 0x2000 + b * 0x2 + 0x70000000000
  | .vshl p w d a b => p * 0x100000000000 + w * 0x2000000000 + d * 0x2000000 + a * 0x2000 + b * 0x2 + 0x74000000000
  | .vshr p w d a b => p * 0x100000000000 + w * 0x2000000000 + d * 0x2000000 + a * 0x2000 + b * 0x2 + 0x78000000000
  | .vsra p w d a b => p * 0x100000000000 + w * 0x2000000000 + d * 0x2000000 + a * 0x2000 + b * 0x2 + 0x7C000000000
  | .vcmpEqI p w d a b => p * 0x100000000000 + w * 0x2000000000 + d * 0x2000000 + a * 0x2000 + b * 0x2 + 0x80000000000
  | .vcmpLtI p w d a b => p * 0x100000000000 + w * 0x2000000000 + d * 0x2000000 + a * 0x2000 + b * 0x2 + 0x84000000000
  | .vrsumI p w t d a => p * 0x100000000000 + w * 0x2000000000 + t + d * 0x2000000 + a * 0x2000 + 0x88000000000
  | .vsel p w d a b => p * 0x100000000000 + w * 0x2000000000 + d * 0x2000000 + a * 0x2000 + b * 0x2 + 0x8C000000000
  | .vmov p w d a => p * 0x100000000000 + w * 0x2000000000 + d * 0x2000000 + a * 0x2000 + 0x90000000000
  | .vbcast p w d a n => p * 0x100000000000 + w * 0x2000000000 + d * 0x2000000 + a * 0x2000 + n * 0x2 + 0x94000000000
  | .vperm p w d a b => p * 0x100000000000 + w * 0x2000000000 + d * 0x2000000 + a * 0x2000 + b * 0x2 + 0x98000000000
  | .vrot p w d a n => p * 0x100000000000 + w * 0x2000000000 + d * 0x2000000 + a * 0x2000 + n * 0x2 + 0x9C000000000
  | .vrev p w d a => p * 0x100000000000 + w * 0x2000000000 + d * 0x2000000 + a * 0x2000 + 0xA0000000000
  | .vcvtN p t d a h r => p * 0x100000000000 + t + d * 0x2000000 + a * 0x2000 + h * 0x10 + r * 0x2 + 0xA4000000000
  | .vcvtW p t d a h => p * 0x100000000000 + t + d * 0x2000000 + a * 0x2000 + h * 0x10 + 0xA6000000000
  | .vcvtFi p w t d a r => p * 0x100000000000 + w * 0x2000000000 + t + d * 0x2000000 + a * 0x2000 + r * 0x2 + 0xA8000000000
  | .vcvtIf p w t d a r => p * 0x100000000000 + w * 0x2000000000 + t + d * 0x2000000 + a * 0x2000 + r * 0x2 + 0xAC000000000
  | .vcvtNi p d a h => p * 0x100000000000 + d * 0x2000000 + a * 0x2000 + h * 0x10 + 0xB0000000000
  | .vcvtWi p d a h => p * 0x100000000000 + d * 0x2000000 + a * 0x2000 + h * 0x10 + 0xB2000000000
  | .resultLand _ => 0
  | .pNop p => p * 0x100000 + 0x0
  | .pkMxint8Mm14 p q k r => p * 0x100000 + q * 0x1000 + k * 0x400 + r + 0x10000
  | .pkMxint8Mm15 p q k r => p * 0x100000 + q * 0x1000 + k * 0x400 + r + 0x20000
  | .pkMxint6Mm14 p q k r => p * 0x100000 + q * 0x1000 + k * 0x400 + r + 0x30000
  | .pkMxint6Mm15 p q k r => p * 0x100000 + q * 0x1000 + k * 0x400 + r + 0x40000
  | .pkMxint4Mm14 p q k r => p * 0x100000 + q * 0x1000 + k * 0x400 + r + 0x50000
  | .pkMxint4Mm15 p q k r => p * 0x100000 + q * 0x1000 + k * 0x400 + r + 0x60000
  | .pkE4m3Mm14 p q k r => p * 0x100000 + q * 0x1000 + k * 0x400 + r + 0x70000
  | .pkE4m3Mm15 p q k r => p * 0x100000 + q * 0x1000 + k * 0x400 + r + 0x80000
  | .pkE5m2Mm14 p q k r => p * 0x100000 + q * 0x1000 + k * 0x400 + r + 0x90000
  | .pkE5m2Mm15 p q k r => p * 0x100000 + q * 0x1000 + k * 0x400 + r + 0xA0000
  | .pkFp6Mm14 p q k r => p * 0x100000 + q * 0x1000 + k * 0x400 + r + 0xB0000
  | .pkFp6Mm15 p q k r => p * 0x100000 + q * 0x1000 + k * 0x400 + r + 0xC0000
  | .pkE2m1Mm14 p q k r => p * 0x100000 + q * 0x1000 + k * 0x400 + r + 0xD0000
  | .pkE2m1Mm15 p q k r => p * 0x100000 + q * 0x1000 + k * 0x400 + r + 0xE0000
  | .uNop p => p * 0x100000 + 0x0
  | .unpkMxint8Mm14 p q k r => p * 0x100000 + q * 0x1000 + k * 0x400 + r + 0x10000
  | .unpkMxint8Mm15 p q k r => p * 0x100000 + q * 0x1000 + k * 0x400 + r + 0x20000
  | .unpkMxint6Mm14 p q k r => p * 0x100000 + q * 0x1000 + k * 0x400 + r + 0x30000
  | .unpkMxint6Mm15 p q k r => p * 0x100000 + q * 0x1000 + k * 0x400 + r + 0x40000
  | .unpkMxint4Mm14 p q k r => p * 0x100000 + q * 0x1000 + k * 0x400 + r + 0x50000
  | .unpkMxint4Mm15 p q k r => p * 0x100000 + q * 0x1000 + k * 0x400 + r + 0x60000
  | .unpkE4m3Mm14 p q k r => p * 0x100000 + q * 0x1000 + k * 0x400 + r + 0x70000
  | .unpkE4m3Mm15 p q k r => p * 0x100000 + q * 0x1000 + k * 0x400 + r + 0x80000
  | .unpkE5m2Mm14 p q k r => p * 0x100000 + q * 0x1000 + k * 0x400 + r + 0x90000
  | .unpkE5m2Mm15 p q k r => p * 0x100000 + q * 0x1000 + k * 0x400 + r + 0xA0000
  | .unpkFp6Mm14 p q k r => p * 0x100000 + q * 0x1000 + k * 0x400 + r + 0xB0000
  | .unpkFp6Mm15 p q k r => p * 0x100000 + q * 0x1000 + k * 0x400 + r + 0xC0000
  | .unpkE2m1Mm14 p q k r => p * 0x100000 + q * 0x1000 + k * 0x400 + r + 0xD0000
  | .unpkE2m1Mm15 p q k r => p * 0x100000 + q * 0x1000 + k * 0x400 + r + 0xE0000
  | .aNop p => p * 0x10000000 + 0x0
  | .cpy p r n a b c x => p * 0x10000000 + r * 0x40000 + n * 0x10000 + a * 0x1000 + b * 0x100 + c * 0x10 + x + 0x400000
  | .gat p r n a b c x => p * 0x10000000 + r * 0x40000 + n * 0x10000 + a * 0x1000 + b * 0x100 + c * 0x10 + x + 0x800000
  | .sct p r n a b c x => p * 0x10000000 + r * 0x40000 + n * 0x10000 + a * 0x1000 + b * 0x100 + c * 0x10 + x + 0xC00000
  | .mcastQ p r n a b c x => p * 0x10000000 + r * 0x40000 + n * 0x10000 + a * 0x1000 + b * 0x100 + c * 0x10 + x + 0x1000000
  | .rst p r n a b c x => p * 0x10000000 + r * 0x40000 + n * 0x10000 + a * 0x1000 + b * 0x100 + c * 0x10 + x + 0x1400000
  | .rld p r n a b c x => p * 0x10000000 + r * 0x40000 + n * 0x10000 + a * 0x1000 + b * 0x100 + c * 0x10 + x + 0x1800000
  | .rred p r n a b c x => p * 0x10000000 + r * 0x40000 + n * 0x10000 + a * 0x1000 + b * 0x100 + c * 0x10 + x + 0x1C00000
  | .rflush p r n a b c => p * 0x10000000 + r * 0x40000 + n * 0x10000 + a * 0x1000 + b * 0x100 + c * 0x10 + 0x2000000
  | .coll p r n a b c x => p * 0x10000000 + r * 0x40000 + n * 0x10000 + a * 0x1000 + b * 0x100 + c * 0x10 + x + 0x2400000
  | .disp p r n a b c x => p * 0x10000000 + r * 0x40000 + n * 0x10000 + a * 0x1000 + b * 0x100 + c * 0x10 + x + 0x2800000
  | .ccpy p r n a b c x => p * 0x10000000 + r * 0x40000 + n * 0x10000 + a * 0x1000 + b * 0x100 + c * 0x10 + x + 0x2C00000
  | .task p r n a b c x => p * 0x10000000 + r * 0x40000 + n * 0x10000 + a * 0x1000 + b * 0x100 + c * 0x10 + x + 0x3000000
  | .ctadd p r n a b y x => p * 0x10000000 + r * 0x40000 + n * 0x10000 + a * 0x1000 + b * 0x100 + y * 0x10 + x + 0x3400000
  | .ctraise p r n a b y x => p * 0x10000000 + r * 0x40000 + n * 0x10000 + a * 0x1000 + b * 0x100 + y * 0x10 + x + 0x3800000
  | .ctpoll p r n a d y x => p * 0x10000000 + r * 0x40000 + n * 0x10000 + a * 0x1000 + d * 0x100 + y * 0x10 + x + 0x3C00000
  | .frecRd p r n a b c x => p * 0x10000000 + r * 0x40000 + n * 0x10000 + a * 0x1000 + b * 0x100 + c * 0x10 + x + 0x4000000
  | .frecWr p r n a b c x => p * 0x10000000 + r * 0x40000 + n * 0x10000 + a * 0x1000 + b * 0x100 + c * 0x10 + x + 0x4400000
  | .engineCommandStart _ _ _ _ => 0
  | .engineCommandComplete _ _ _ => 0
  | .collTransfer _ _ => 0
  | .dispClaim _ _ => 0
  | .rredRetry _ _ => 0
  | .rredTimeout _ _ => 0
  | .placementAck _ _ => 0
  | .deferredTrap _ => 0
  | .combiningEntryAgeFlush _ _ => 0
  | .counterWaitSatisfied _ => 0
  | .counterWaitTimeout _ => 0
  | .monitorPoll _ => 0
  | .versionSealWake _ => 0
  | .missingVersionTimeout _ => 0
  | .versionCapacityWake _ => 0
  | .versionCapacityTimeout _ => 0
  | .bundleFetch _ => 0
  | .tileTaskRetire _ => 0
  | .doorbellWrite _ _ _ => 0
  | .recordRead _ _ => 0
  | .queueSlotRequest _ => 0
  | .dependencesMet _ => 0
  | .gangPlacement _ _ => 0
  | .quantumExpiry _ => 0
  | .preemptForcedStop _ => 0
  | .contextSave _ => 0
  | .contextRestore _ _ _ => 0
  | .ctxCreate _ => 0
  | .ctxDestroy _ => 0
  | .qBind _ => 0
  | .qTeardownDrain _ => 0
  | .qTeardownKill _ => 0
  | .qTeardownFreeze _ => 0
  | .qRestore _ => 0
  | .preempt _ => 0
  | .resume _ => 0
  | .derailleurEvaluation => 0
  | .fillerStopTimeout _ => 0
  | .drlCtlWrite _ => 0
  | .telemetryRecord => 0
  | .traceSample _ => 0
  | .pmcRotation _ => 0
  | .pmcCtlWrite _ _ => 0
  | .invAsid _ => 0
  | .invPage _ => 0
  | .invWindow _ _ => 0
  | .invKey _ => 0
  | .winMake _ _ => 0
  | .regionSet _ => 0
  | .regionClear _ => 0
  | .parkResume _ => 0
  | .parkDrop _ => 0
  | .translationWalk _ => 0
  | .routeWr _ => 0
  | .routeHoldExpiry _ => 0
  | .grpSet _ => 0
  | .grpClear _ => 0
  | .trunkTrain _ => 0
  | .trunkCfgWrite _ _ => 0
  | .startFlit _ _ _ => 0
  | .contFlit _ _ _ => 0
  | .idleFlit _ _ _ => 0
  | .replayReq _ _ _ => 0
  | .trainFlit _ _ _ => 0
  | .replayReqRepeat _ => 0
  | .laneFail _ _ => 0
  | .trainingDone _ _ => 0
  | .probationExpiry _ => 0
  | .wr _ => 0
  | .rd _ => 0
  | .amo _ => 0
  | .ctr _ => 0
  | .ver _ => 0
  | .red _ => 0
  | .rereq _ => 0
  | .ackpl _ => 0
  | .data _ => 0
  | .result _ => 0
  | .partialRelease _ => 0
  | .nack _ => 0
  | .mgmt _ => 0
  | .ptmoExpiry _ => 0
  | .ptmoHalfRereq _ => 0
  | .combiningUncorrectable _ => 0
  | .packageReset _ => 0
  | .recoveryImage _ _ => 0
  | .getVersion _ _ => 0
  | .getCapabilities _ _ => 0
  | .negotiateAlgorithms _ _ => 0
  | .getDigests _ _ => 0
  | .getCertificate _ _ => 0
  | .challenge _ _ => 0
  | .getMeasurements _ _ => 0
  | .keyExchange _ _ => 0
  | .finish _ _ => 0
  | .heartbeat _ _ => 0
  | .keyUpdate _ _ => 0
  | .endSession _ _ => 0
  | .keyProg _ _ => 0
  | .keyErase _ _ => 0
  | .unsupportedRequest _ _ => 0
  | .ideKm _ _ => 0
  | .ideIntegrityFailure _ => 0
  | .getDeviceInterfaceState _ => 0
  | .lockInterfaceRequest _ => 0
  | .getDeviceInterfaceReport _ => 0
  | .startInterfaceRequest _ => 0
  | .stopInterfaceRequest _ => 0
  | .vfQBind _ _ _ => 0
  | .vfQTeardownDrain _ _ _ => 0
  | .vfQTeardownKill _ _ _ => 0
  | .vfQTeardownFreeze _ _ _ => 0
  | .vfQRestore _ _ _ => 0
  | .vfPreempt _ _ _ => 0
  | .vfResume _ _ _ => 0
  | .vfInvAsid _ _ _ => 0
  | .vfInvPage _ _ _ => 0
  | .vfInvWindow _ _ _ => 0
  | .vfInvKey _ _ _ => 0
  | .vfWinMake _ _ _ => 0
  | .vfRegionSet _ _ _ => 0
  | .vfRegionClear _ _ _ => 0
  | .vfParkResume _ _ _ => 0
  | .vfParkDrop _ _ _ => 0
  | .entryWr _ _ _ _ => 0
  | .dbgSessionWrite _ _ => 0
  | .dbgStop _ => 0
  | .dbgResume _ => 0
  | .dbgStep _ => 0
  | .dbgDataRead _ => 0
  | .dbgDataWrite _ _ => 0
  | .replayParting _ => 0
  | .ppsEdge => 0
  | .todMessage _ => 0
  | .todByteGap => 0
  | .todDeadline => 0
  | .timeLock _ _ => 0
  | .timeSourceLoss => 0
  | .registerWrite _ _ _ => 0

/-- The classes whose slots are as wide as a row of `nbits` bits of the opcode table, in the order they are tried (log 10). -/
def tableClasses (nbits : Nat) : List SlotClass :=
  if nbits = 24 then [.c, .p, .u] else if nbits = 28 then [.s, .l, .w] else if nbits = 32 then [.g, .x, .a] else if nbits = 48 then [.v] else []

/-- The first class of a list whose map gives the word an instruction. -/
noncomputable def decodeFirst : List SlotClass → Nat → Option (SlotClass × Instr)
  | [], _ => none
  | k :: ks, w => match decodeSlot k w with
    | .ok i => some (k, i)
    | .err _ => decodeFirst ks w

/-- The instruction the decoder reads from a word of `nbits` bits numbered as spec/opcode_table.json numbers them.
The table gives rows of 24 bits (C, P, U) and 32 bits (G, X, A); a word alone does not say which slot it stands in,
and the first map that accepts it answers (log 10). -/
noncomputable def decodeTableWord (nbits w : Nat) : Option Instr := (decodeFirst (tableClasses nbits) w).map Prod.snd

end Sys2Proof
end

