-- ==== Sys2Proof/Machine/Crypto.lean ====
section
/-! DEFINITION. Machine/Crypto: AES-256 and its GCM mode (NIST SP 800-38D) for the confidential copy (spec/23, R407), SHA-512 and
HMAC-SHA-512 for boot (R398, R399). Bytes are numbers below 256. -/

namespace Sys2Proof.Machine

/-! ## AES-256 -/

/-- Doubling in GF(2^8). -/
def aesX (a : Nat) : Nat := if a < 128 then 2 * a else (2 * a) % 256 ^^^ 0x1B

/-- Product in GF(2^8), over the bits of `b`. -/
def aesMul (a : Nat) : Nat → Nat → Nat
  | 0, _ => 0
  | k + 1, b => (if b % 2 = 1 then a else 0) ^^^ aesMul (aesX a) k (b / 2)

/-- a^(2^k − 1) squared, step by step: the inverse is a^254. -/
def aesInvStep (a : Nat) : Nat → Nat → Nat
  | 0, r => r
  | k + 1, r => aesInvStep a k (let q := aesMul r 8 r; aesMul q 8 a)

/-- The inverse in GF(2^8), 0 for 0: a^254 = (a^127)². -/
def aesInv (a : Nat) : Nat := let r := aesInvStep a 6 a; aesMul r 8 r

/-- Rotates a byte left. -/
def rotl8 (x n : Nat) : Nat := (x * 2 ^ n % 256) ||| (x / 2 ^ (8 - n))

/-- The S-box. -/
def aesS (a : Nat) : Nat :=
  let b := aesInv a
  b ^^^ rotl8 b 1 ^^^ rotl8 b 2 ^^^ rotl8 b 3 ^^^ rotl8 b 4 ^^^ 0x63

/-- XOR of byte lists. -/
def xorBytes (a b : List Nat) : List Nat := List.zipWith (· ^^^ ·) a b

/-- Round constants. -/
def aesRcon : Nat → Nat
  | 0 => 1
  | n + 1 => aesX (aesRcon n)

/-- Key words of AES-256, newest first: `n` further words after the first eight. -/
def aesExpand : Nat → List (List Nat) → List (List Nat)
  | 0, w => w
  | n + 1, w =>
    let i := w.length
    let t := w.headD []
    let t := if i % 8 = 0 then xorBytes ((t.drop 1 ++ t.take 1).map aesS) [aesRcon (i / 8 - 1), 0, 0, 0]
      else if i % 8 = 4 then t.map aesS else t
    aesExpand n (xorBytes t (w.getD 7 []) :: w)

/-- Groups of four bytes. -/
def words4 : Nat → List Nat → List (List Nat)
  | 0, _ => []
  | n + 1, l => l.take 4 :: words4 n (l.drop 4)

/-- The 15 round keys of a 32-byte key. -/
def aesKeys (key : List Nat) : List (List Nat) :=
  let w := (aesExpand 52 (words4 8 key).reverse).reverse
  (List.range 15).map fun r => ((w.drop (4 * r)).take 4).flatten

/-- Rows shifted: byte r + 4c comes from column c + r. -/
def aesShift (s : List Nat) : List Nat := (List.range 16).map fun i => s.getD ((i % 4) + 4 * ((i / 4 + i % 4) % 4)) 0

/-- One column mixed. -/
def aesMixCol (c : List Nat) : List Nat :=
  let g := fun i => c.getD (i % 4) 0
  (List.range 4).map fun i => aesX (g i) ^^^ (aesX (g (i + 1)) ^^^ g (i + 1)) ^^^ g (i + 2) ^^^ g (i + 3)

/-- Rounds over the remaining keys; the last does not mix. -/
def aesRounds : List (List Nat) → List Nat → List Nat
  | [], s => s
  | [k], s => xorBytes (aesShift (s.map aesS)) k
  | k :: ks, s => aesRounds ks (xorBytes ((words4 4 (aesShift (s.map aesS))).map aesMixCol).flatten k)

/-- AES-256 of one block under expanded keys. -/
def aesBlock (ks : List (List Nat)) (b : List Nat) : List Nat := aesRounds (ks.drop 1) (xorBytes b (ks.headD []))

/-! ## GCM -/

/-- A big-endian number. -/
def beNat (l : List Nat) : Nat := l.foldl (fun a b => a * 256 + b) 0

/-- The `n` big-endian bytes of a number. -/
def beBytes (v n : Nat) : List Nat := ((List.range n).map fun i => v / 256 ^ i % 256).reverse

/-- Product in the field of GHASH: `x` bit by bit from its most significant, `v` the other factor shifted. -/
def ghMul (x : Nat) : Nat → Nat → Nat → Nat
  | 0, _, z => z
  | k + 1, v, z => ghMul x k (if v % 2 = 1 then v / 2 ^^^ (0xE1 * 2 ^ 120) else v / 2) (if x.testBit k then z ^^^ v else z)

/-- GHASH over blocks of 16 bytes, the last padded with zeros. -/
def ghash (h : Nat) : Nat → List Nat → Nat → Nat
  | 0, _, y => y
  | n + 1, l, y =>
    let b := l.take 16
    ghash h n (l.drop 16) (ghMul (y ^^^ beNat (b ++ List.replicate (16 - b.length) 0)) 128 h 0)

/-- Counter-mode key stream XORed on, from block counter `c`. -/
def gctr (ks : List (List Nat)) (iv : List Nat) : Nat → Nat → List Nat → List Nat
  | 0, _, _ => []
  | n + 1, c, l => xorBytes (l.take 16) (aesBlock ks (iv ++ beBytes c 4)) ++ gctr ks iv n (c + 1) (l.drop 16)

/-- The tag over a ciphertext, no additional data, a 96-bit IV. -/
def gcmTag (ks : List (List Nat)) (iv ct : List Nat) : List Nat :=
  let h := beNat (aesBlock ks (List.replicate 16 0))
  let n := (ct.length + 15) / 16
  let s := ghMul (ghash h n ct 0 ^^^ (8 * ct.length)) 128 h 0
  xorBytes (beBytes s 16) (aesBlock ks (iv ++ [0, 0, 0, 1]))

/-- Encryption or decryption of the text. -/
def gcmText (ks : List (List Nat)) (iv l : List Nat) : List Nat := gctr ks iv ((l.length + 15) / 16) 2 l

/-! ## SHA-512 -/

/-- The greatest r with r³ ≤ n, bit by bit. -/
def icbrtBits (n : Nat) : Nat → Nat → Nat
  | 0, r => r
  | k + 1, r => let t := r + 2 ^ k; icbrtBits n k (if t * t * t ≤ n then t else r)

/-- The first primes. -/
def primesUpTo (m : Nat) : List Nat := (List.range m).filter fun n => 2 ≤ n && !(List.range n).any fun d => 2 ≤ d && n % d = 0

/-- The 80 round constants: fractions of cube roots of primes. -/
def shaK : List Nat := (primesUpTo 410).map fun p => icbrtBits (p * 2 ^ 192) 70 0 % 2 ^ 64

/-- The initial hash: fractions of square roots of primes. -/
def shaH0 : List Nat := (primesUpTo 20).map fun p => isqrt (p * 2 ^ 128) % 2 ^ 64

def rotr64 (x n : Nat) : Nat := (x / 2 ^ n) ||| (x * 2 ^ (64 - n) % 2 ^ 64)

/-- The message schedule, newest first. -/
def shaSched : Nat → List Nat → List Nat
  | 0, w => w
  | n + 1, w =>
    let a := w.getD 14 0
    let b := w.getD 1 0
    let s0 := rotr64 a 1 ^^^ rotr64 a 8 ^^^ (a / 2 ^ 7)
    let s1 := rotr64 b 19 ^^^ rotr64 b 61 ^^^ (b / 2 ^ 6)
    shaSched n (((w.getD 15 0 + s0 + w.getD 6 0 + s1) % 2 ^ 64) :: w)

/-- One round. -/
def shaRound (st : List Nat) (k w : Nat) : List Nat :=
  let g := fun i => st.getD i 0
  let s1 := rotr64 (g 4) 14 ^^^ rotr64 (g 4) 18 ^^^ rotr64 (g 4) 41
  let ch := (g 4 &&& g 5) ^^^ ((2 ^ 64 - 1 - g 4) &&& g 6)
  let t1 := g 7 + s1 + ch + k + w
  let s0 := rotr64 (g 0) 28 ^^^ rotr64 (g 0) 34 ^^^ rotr64 (g 0) 39
  let maj := (g 0 &&& g 1) ^^^ (g 0 &&& g 2) ^^^ (g 1 &&& g 2)
  [(t1 + s0 + maj) % 2 ^ 64, g 0, g 1, g 2, (g 3 + t1) % 2 ^ 64, g 4, g 5, g 6]

/-- One block of 128 bytes. -/
def shaBlock (h : List Nat) (b : List Nat) : List Nat :=
  let w0 := (List.range 16).map fun i => beNat ((b.drop (8 * i)).take 8)
  let w := (shaSched 64 w0.reverse).reverse
  let st := (List.zip shaK w).foldl (fun st (k, w) => shaRound st k w) h
  List.zipWith (fun a b => (a + b) % 2 ^ 64) h st

/-- All blocks. -/
def shaBlocks : Nat → List Nat → List Nat → List Nat
  | 0, h, _ => h
  | n + 1, h, l => shaBlocks n (shaBlock h (l.take 128)) (l.drop 128)

/-- SHA-512. -/
def sha512 (m : List Nat) : List Nat :=
  let z := (239 - m.length % 128) % 128
  let l := m ++ [0x80] ++ List.replicate z 0 ++ beBytes (8 * m.length) 16
  (shaBlocks (l.length / 128) shaH0 l).flatMap fun w => beBytes w 8

/-- HMAC-SHA-512. -/
def hmac512 (key m : List Nat) : List Nat :=
  let k := if key.length > 128 then sha512 key else key
  let k := k ++ List.replicate (128 - k.length) 0
  sha512 ((k.map (· ^^^ 0x5C)) ++ sha512 ((k.map (· ^^^ 0x36)) ++ m))

end Sys2Proof.Machine
end

