-- ==== Sys2Proof/Machine/Global.lean ====
section
/-! DEFINITION. Machine/Global: the G slot (spec/11, R218 to R225; order, R111 to R118; atomics, R116; need points, R360). An operation
checks at issue what is precise, joins the core's queue and is performed later; the order of R111 and R113 says when it may be. -/

namespace Sys2Proof.Machine

/-- What an address reaches, for a check of kind at issue: a local page kind, or a window target (R218). -/
inductive Reach where
  | page (kind rights : Nat)
  | window (tgt rights : Nat)
  | none
deriving DecidableEq, Repr

def reachOf : XRes → Reach
  | .loc _ k r _ _ _ => .page k r
  | .win _ w _ _ => .window (winTgt w) (winRights w)
  | .fail _ => .none

/-- The page kind that orders an access (R113): of its page, or of the page its window reaches; and whether a window does. -/
def orderKind (s : State) (cn : Nat) (va : Nat) : Nat × Bool :=
  match xlat s cn (asidOf (coreAt s cn)) va with
  | .loc _ k _ _ _ _ => (k, false)
  | .win _ w o _ => (winKind s w o, true)
  | .fail _ => (0, false)

/-- Whether acquire and release forms order at a page of a kind: RELEASE, or where none is known (R113). -/
def relKind (k : Nat) : Bool := k == kRELEASE || k == 0

/-- Right needed by a kind of operation (R355). -/
def GKind.right : GKind → Nat
  | .load | .loadAcq | .ldv | .probe => rR
  | .store | .storeRel | .stv => rW
  | .amo | .amoSc => rA

/-- Whether an operation writes a register. -/
def GKind.writesReg : GKind → Bool
  | .store | .storeRel | .stv => false
  | _ => true

/-- Bytes of an operation as a half-open range of addresses. -/
def GOp.lo (g : GOp) : Nat := g.va.toNat
def GOp.hi (g : GOp) : Nat := g.va.toNat + g.size

/-- Whether two accesses share a byte, or, when the earlier is parked, a line (R111, R360). -/
def gMeets (e g : GOp) : Bool :=
  (e.lo < g.hi && g.lo < e.hi) ||
  (match e.st with | .parked _ _ => e.lo / 128 ≤ (g.hi - 1) / 128 && g.lo / 128 ≤ (e.hi - 1) / 128 | _ => false)

/-- Writes of the slots that have left the core, or wait in its combining buffer, for targets on this package (or anywhere). Those of
engine commands do not count (R115). -/
def storesOut (s : State) (cn : Nat) (everywhere : Bool) : Bool :=
  let c := coreAt s cn
  c.f.unacked.any (fun u => u.eng.isNone && (everywhere || !u.fabric)) || c.f.comb.any (fun e => everywhere || combLocal s e)

/-- Stores to STRONG pages through windows that are not placed (R113). -/
def strongOut (s : State) (cn : Nat) : Bool :=
  let c := coreAt s cn
  c.f.unacked.any Unacked.strong || c.f.comb.any (combStrong s)

/-- Whether an access waits until an earlier one of its queue is performed (R111, R113, R116). A probe makes no access (R225). -/
def gAfter (s : State) (cn : Nat) (e g : GOp) : Bool :=
  e.kind != .probe && g.kind != .probe &&
  (gMeets e g || e.kind == .amoSc || g.kind == .amoSc ||
    (e.kind == .loadAcq && relKind (orderKind s cn e.lo).1) || (g.kind == .storeRel && relKind (orderKind s cn g.lo).1) ||
    ((orderKind s cn e.lo).1 == kSTRONG && (orderKind s cn g.lo).1 == kSTRONG))

/-- Whether no earlier access of the queue keeps entry `i` back. -/
def gClear (s : State) (cn i : Nat) : Bool :=
  let l := (coreAt s cn).f.gq
  match l[i]? with
  | none => false
  | some g => !(l.take i).any fun e => gAfter s cn e g

/-- Whether a fill issued before an operation still reads its rows: an L-slot access not performed yet (R105, R113, R116). -/
def fillBefore (c : Core) (seq : Nat) : Bool := c.f.fill.any fun f => f.reads && f.seq < seq

/-- Whether entry `i` of a core's queue may be performed now: what its order puts before it has been placed (R111, R113, R116). -/
def gMay (s : State) (cn i : Nat) : Bool :=
  match (coreAt s cn).f.gq[i]? with
  | none => false
  | some g =>
    gClear s cn i &&
    (g.kind == .probe ||
      (!(g.kind == .amoSc && (storesOut s cn false || fillBefore (coreAt s cn) g.seq)) &&
       !(g.kind == .storeRel && (storesOut s cn (orderKind s cn g.lo).2 || fillBefore (coreAt s cn) g.seq) && relKind (orderKind s cn g.lo).1) &&
       !(strongOut s cn && (orderKind s cn g.lo).1 == kSTRONG)))

/-- The buffered stores that leave before an access (R113, R116, R118; log 80). -/
def leavesFor (s : State) (cn : Nat) (g : GOp) (e : CombEntry) : Bool :=
  match g.kind with
  | .probe => false
  | .amoSc => combLocal s e
  | .storeRel | .loadAcq => (orderKind s cn g.lo).2 || (combStrong s e && (orderKind s cn g.lo).1 == kSTRONG)
  | _ => combStrong s e && (orderKind s cn g.lo).1 == kSTRONG

/-- The function of an atomic (R221) on the old value m: b and the compare value x. -/
def amoFn (fn : Nat) (m b x : Word) : Word :=
  match fn with
  | 0 => m + b
  | 1 => if m.toInt < b.toInt then b else m
  | 2 => if m.toNat < b.toNat then b else m
  | 3 => if b.toInt < m.toInt then b else m
  | 4 => if b.toNat < m.toNat then b else m
  | 5 => m &&& b
  | 6 => m ||| b
  | 7 => m ^^^ b
  | 8 => b
  | _ => if m = x then b else m

/-- The function of R221 that an `amo.sc` form computes (R222). -/
def scFn (fn : Nat) : Nat := match fn with | 0 => 0 | 1 => 8 | 2 => 9 | 3 => 1 | _ => 3

/-- Removes entry `i` of the queue. -/
def gRemove (s : State) (cn i : Nat) : State := modCore s cn fun c => { c with f := { c.f with gq := c.f.gq.eraseIdx i } }

/-- Replaces entry `i`. -/
def gSet (s : State) (cn i : Nat) (g : GOp) : State := modCore s cn fun c => { c with f := { c.f with gq := setAt c.f.gq i g } }

/-- A result in the destination register; a write to s0 is discarded. -/
def gResult (s : State) (cn d : Nat) (v : Word) : State := modCore s cn fun c => setS c d v

/-- Data of a load part return: the last part of a split load writes the register (R114, R218). -/
def gLoaded (s : State) (cn i : Nat) (g : GOp) (v : Nat) : State :=
  let s := gRemove s cn i
  let part := BitVec.ofNat 64 (v * 2 ^ (8 * g.off))
  let c := coreAt s cn
  match findIdxOf (fun (h : GOp) => h.seq == g.seq && h.dst == g.dst) c.f.gq with
  | some (j, h) => gSet s cn j { h with data := h.data ||| g.data ||| part }
  | none => gResult s cn g.dst (g.data ||| part)

/-- An access that fails at an address parks (R360). -/
def gParkAt (s : State) (cn i : Nat) (g : GOp) (va cause detail : Nat) : State :=
  postPage (gSet s cn i { g with st := .parked cause detail }) (asidOf (coreAt s cn)) va (if cause = 0x0B then detail else 0)

/-- An access that fails parks (R360). -/
def gPark (s : State) (cn i : Nat) (g : GOp) (cause detail : Nat) : State := gParkAt s cn i g g.lo cause detail

/-- Buffered bytes of a load through a window (R118): the mask of its bytes, and their values. -/
def combOver (c : Core) (g : GOp) : Nat × Nat :=
  (upTo g.size).foldl (fun (m, v) k =>
    let a := g.lo + k
    match c.f.comb.find? fun e => e.line == a / 128 && e.mask.getLsbD (a % 128) with
    | some e => (m + 2 ^ k, v + (e.data.extractLsb' (8 * (a % 128)) 8).toNat * 2 ^ (8 * k))
    | none => (m, v)) (0, 0)

/-- Bytes of `v`, with those the mask names taken from `o`. -/
def overlay (m o v n : Nat) : Nat :=
  (upTo n).foldl (fun acc k => acc + (if bit m k then o / 2 ^ (8 * k) % 256 else v / 2 ^ (8 * k) % 256) * 2 ^ (8 * k)) 0

/-- Sends entry `i` as a request through the hub (R380). -/
def gSend (s : State) (cn i : Nat) (g : GOp) (w : List Nat) (o op aux len : Nat) (data : List Byte) : State :=
  let (t, s) := newTag s ⟨0, cn, g.seq, 0, none⟩
  coreSend (gSet s cn i { g with st := .sent t }) cn (winRequest s w g.lo o op aux len t data)

/-- Flushes the combining entry of an access's line (R118). -/
def flushLine (s : State) (cn : Nat) (g : GOp) : State := flushComb s cn fun e => g.lo / 128 ≤ e.line && e.line ≤ (g.hi - 1) / 128

/-- A store leaves the queue, and PBC no longer counts it there (R107). -/
def gStored (s : State) (cn i : Nat) (g : GOp) : State :=
  modCore (gRemove s cn i) cn fun c => { c with r := { c.r with pbc := c.r.pbc - g.cnt } }

/-- Entry `i` takes its way to a stack of another die: a flit of the quad's port (R12, R14, log 79). -/
def gHub (s : State) (cn i : Nat) (g : GOp) : State := portPut (gSet s cn i { g with hub := 1 }) cn 1 (.access g.seq g.lo)

/-- Performs entry `i` on local memory (R218, R221); one in a stack of another die takes its way there first, but for an `amo.sc`, whose way
to the wheel is that (R12, log 79). -/
def gLocal (s : State) (cn i : Nat) (g : GOp) (pa kind rights : Nat) : State :=
  let asid := asidOf (coreAt s cn)
  if kind = kVERSIONED || kind = kCOUNTER then gPark s cn i g 0x0D 0
  else if !hasRight rights g.kind.right then gPark s cn i g 0x0B 0x04
  else if g.kind.writesReg && badSpan s pa g.size && strictOf s asid then gPark s cn i g 0x1C 0
  else if g.kind != .amoSc && g.hub != 2 && (farStack s cn pa || farStack s cn (pa + g.size - 1)) then gHub s cn i g
  else match g.kind with
    | .store | .storeRel => gStored (hbmWrite s pa (toBytes g.data.toNat g.size)) cn i g
    | .amo | .amoSc =>
      let (b, s) := hbmRead s asid pa 8
      let m : Word := BitVec.ofNat 64 (leNat b)
      let f := if g.kind = .amoSc then scFn g.fn else g.fn
      let v := amoFn f m g.data g.cmp
      let s := if f = 9 && m != g.cmp then s else hbmWrite s pa (toBytes v.toNat 8)
      gResult (gRemove s cn i) cn g.dst m
    | _ =>
      let (b, s) := hbmRead s asid pa g.size
      gLoaded s cn i g (leNat b)

/-- Performs entry `i` through a window (R218, R219, R221, R363): loads and atomics go out as requests; a store enters the combining
buffer. -/
def gWindow (s : State) (cn i : Nat) (g : GOp) (n : Nat) (w : List Nat) (o : Nat) : State :=
  let tgt := winTgt w
  if tgt = 2 then gPark s cn i g 0x0D 0
  else if tgt = 1 && g.kind.writesReg then gPark s cn i g 0x0C 0
  else if !hasRight (winRights w) g.kind.right then gPark s cn i g 0x0C 0
  else match g.kind with
    | .store | .storeRel => gStored (combStore s cn n w g.lo (toBytes g.data.toNat g.size) none) cn i g
    | .amo | .amoSc =>
      let s := flushLine s cn g
      gSend s cn i g w o 0x03 g.fn 16 (toBytes g.data.toNat 8 ++ toBytes g.cmp.toNat 8)
    | _ =>
      let (m, v) := combOver (coreAt s cn) g
      gSend s cn i { g with ver := m, cmp := BitVec.ofNat 64 v } w o 0x02 (g.size - 1) g.size []

/-- The owner of a wheel position (R116): positions 0 to 191 belong to the cores of the same number. -/
def wheelOwned (s : State) (cn : Nat) : Bool :=
  let pos := s.now % 256
  if pos < 192 then pos == cn else
    let r := (barRd s (0x00010200 + 8 * (pos - 192))).toNat
    bit r 63 && bits r 7 0 == cn

/-- An `amo.sc` through a window of this package: performed at its target in the core's wheel cycle (R116, R222). -/
def scTarget (s : State) (cn : Nat) (g : GOp) : XRes :=
  match xlat s cn (asidOf (coreAt s cn)) g.lo with
  | .win n w o sp =>
    if winTgt w != 0 || winPkg w != pkgNo s || !hasRight (winRights w) rA then .win n w o sp else
    match keyCheck s (winKey w) 0 rA (winRoff w + o) 8 with
    | none => .fail 0x80
    | some (a, va) => xlat s cn a va
  | r => r

/-- The bits of `wprobe` (R225): a translation as for an 8-byte load. SPAN goes to the end of the range, page or window itself. The kind
behind a window is that of the page its key reaches; where R225 states no value for it, it is a free value (log 77). -/
def probeWord (s : State) (cn : Nat) (va : Nat) : Word :=
  let n := match xlook s cn (asidOf (coreAt s cn)) va with | .hit e => min (entEnd e - va) (2 ^ 48 - 1) | .bad _ => 0
  match (xlat s cn (asidOf (coreAt s cn)) va).bounded 8 with
  | .fail r => BitVec.ofNat 64 r
  | .loc _ k r _ byRange _ =>
    if hasRight r rR then BitVec.ofNat 64 (2 ^ 63 + k * 2 ^ 60 + r * 2 ^ 54 + (if byRange then 2 ^ 53 else 0) + n) else 0x04
  | .win _ w o _ =>
    let k := if winTgt w = 0 then winKind s w o else 0
    let k := if k = 0 then (Config.farKind (winPkg w) (winKey w) ((winRoff w + o) / 2 ^ 18)).toNat else k
    BitVec.ofNat 64 (2 ^ 63 + k * 2 ^ 60 + (winTgt w + 1) * 2 ^ 58 + winRights w * 2 ^ 54 + n)

/-- A precise fault of kind at issue (R218, R221, R222): KIND_STRADDLE, KIND_ACCESS, or none. -/
def kindFault (l : List XRes) : Option Nat :=
  let rs := l.map reachOf
  let v := fun (r : Reach) => match r with | .page k _ => k == kVERSIONED | _ => false
  let bad := fun (r : Reach) => match r with | .page k _ => k == kVERSIONED || k == kCOUNTER | .window t _ => t == 2 | .none => false
  if rs.any v && rs.any (fun r => !v r && r != .none) then some 0x0E else if rs.any bad then some 0x0D else none

/-- The parts of an access (R114): split at the ends of what it matches and, through a window, at lines, each of which has its lane
(R117). -/
def gParts (s : State) (cn asid va n : Nat) : List (Nat × Nat × Nat × XRes) :=
  (xsplit s cn asid 4 va 0 n).flatMap fun (a, off, k, r) =>
    match r with
    | .win i w o sp =>
      let m := 128 - a % 128
      if m < k then [(a, off, m, r), (a + m, off + m, k - m, .win i w (o + m) (sp - m))] else [(a, off, k, r)]
    | _ => [(a, off, k, r)]

/-- A part of an operation. -/
def GOp.part (g : GOp) (va off n : Nat) (st : GStat) : GOp :=
  { g with va := BitVec.ofNat 64 va, off := g.off + off, size := n, st := st, cnt := if g.cnt = 0 then 0 else n,
           data := if g.kind.writesReg then g.data else BitVec.ofNat 64 (g.data.toNat / 2 ^ (8 * off)) }

/-- Replaces entry `i` by its parts. -/
def gSplit (s : State) (cn i : Nat) (l : List GOp) : State :=
  modCore s cn fun c => { c with f := { c.f with gq := c.f.gq.take i ++ l ++ c.f.gq.drop (i + 1) } }

/-- The first part of an access that does not translate: its address and the reason. -/
def partFails (ps : List (Nat × Nat × Nat × XRes)) : Option (Nat × Nat) :=
  ps.findSome? fun (va, _, _, r) => match r with | .fail f => some (va, f) | _ => none

/-- Performs entry `i` of core `cn`'s queue as its address translates now (R65, R360). One that did not translate whole at its issue may turn
out to straddle kinds, parks whole where a part still fails, or is split (R114). -/
def gPerform (s : State) (cn i : Nat) : State :=
  match (coreAt s cn).f.gq[i]? with
  | none => s
  | some g =>
    if g.kind = .probe then gResult (gRemove s cn i) cn g.dst (probeWord s cn g.lo)
    else if g.kind = .amoSc then
      match scTarget s cn g with
      | .loc pa k r _ _ _ => gLocal s cn i g pa k r
      | .win _ w _ _ => gPark s cn i g (if winTgt w != 2 && winPkg w = pkgNo s then 0x0C else 0x0D) 0
      | .fail r => if r = 0x80 then gPark s cn i g 0x0C 0 else gPark s cn i g 0x0B r
    else
      let ps := gParts s cn (asidOf (coreAt s cn)) g.lo g.size
      if ps.length > 1 then
        match kindFault (ps.map fun x => x.2.2.2) with
        | some f => gPark s cn i g f 0
        | none => match partFails ps with
          | some (va, r) => gParkAt s cn i g va 0x0B r
          | none => gSplit s cn i (ps.map fun (va, off, n, _) => g.part va off n .ready)
      else
        let (r, s) := xlatFill s cn (asidOf (coreAt s cn)) g.lo
        match r.bounded g.size with
        | .fail r => gPark s cn i g 0x0B r
        | .loc pa k r _ _ _ => gLocal s cn i g pa k r
        | .win n w o _ => gWindow s cn i g n w o

/-- Entry `i` is performed if its order lets it; the buffered stores that go before it leave first (R118). -/
def gTry (s : State) (cn i : Nat) : State :=
  match (coreAt s cn).f.gq[i]? with
  | none => s
  | some g =>
    if g.hub = 1 || !gClear s cn i then s else
    let s := if (coreAt s cn).f.comb.any (leavesFor s cn g) then flushComb s cn (leavesFor s cn g) else s
    if gMay s cn i then gPerform s cn i else s

/-! ## Issue -/

/-- Whether a walk under way will answer an address too: one of the same page, as the tables stand (R359). -/
def walkServes (s : State) (w : Walk) (die asid va : Nat) : Bool :=
  w.die == die && w.asid == asid && (let (lo, hi) := pageOf s asid w.va; lo ≤ va && va < hi)

/-- Starts a walk for a miss; misses to the same page merge (R359). `who` is the order of issue of the operation it will answer. -/
def startWalk (s : State) (cn asid va : Nat) (who : Option Nat) : State :=
  let join := fun (w : Walk) => match who with | some q => { w with who := w.who ++ [(cn, q, va)] } | none => { w with pf := w.pf ++ [cn] }
  match findIdxOf (fun w => walkServes s w (dieOf cn) asid va) s.walks with
  | some (i, w) => { s with walks := setAt s.walks i (join w) }
  | none => { s with walks := s.walks ++ [join ⟨dieOf cn, asid, va, [], []⟩] }

/-- How an access is put into the queue (R114): in its parts, or whole where one of several does not translate yet, so that none is performed
before it is known what the others are. -/
def gUnits (va n : Nat) (parts : List (Nat × Nat × Nat × XRes)) : List (Nat × Nat × Nat × XRes) :=
  match partFails parts with
  | some (_, r) => [(va, 0, n, .fail r)]
  | none => parts

/-- Puts an operation, part by part, at the end of the queue; a part whose translation is in no cache waits for a walk, and an
address that is not canonical parks at once (R218, R358, R359). -/
def gEnqueue (s : State) (g : GOp) (parts : List (Nat × Nat × Nat × XRes)) : State :=
  let cn := hereNo s
  let asid := asidOf (here s)
  parts.foldl (fun s (va, off, n, r) =>
    let st := if va ≥ 2 ^ 56 then GStat.parked 0x0B 0x01 else
      match g.kind with
      | .amoSc => .wheel ((here s).q.act + 3) none
      | _ => if (cached s cn asid va).isSome then .ready else .walk
    let g := { g.part va off n st with cnt := match r with | .win .. => 0 | _ => if g.kind.writesReg then 0 else n }
    let s := modCore s cn fun c => { c with f := { c.f with gq := c.f.gq ++ [g] } }
    match st with | .walk => startWalk s cn asid va (some g.seq) | _ => s) s

/-- A load or store (R218, R219). A store counts in PBC from its issue (R107); a part that goes through a window counts when it leaves
the combining buffer. -/
def gMem (kind : GKind) (size p d a word : Nat) (s : State) : State :=
  guarded s p fun s =>
    let c := here s
    let va := sreg c a
    let parts := gParts s (hereNo s) (asidOf c) va.toNat size
    match kindFault (parts.map fun x => x.2.2.2) with
    | some f => raise s (slotNow s 6) f 0 va
    | none =>
      let parts := gUnits va.toNat size parts
      let isSt := !kind.writesReg
      let g : GOp := ⟨c.q.seq, word, kind, 0, size, va, 0, if isSt then sreg c d else 0, 0, 0, if isSt then 0 else d, s.dev, 0, 0, .ready⟩
      let n := ((parts.filter fun x => match x.2.2.2 with | .win .. => false | _ => true).map fun x => x.2.2.1).sum
      let s := if isSt then addPbc s (hereNo s) n else s
      gEnqueue s g parts

/-- An atomic (R221), or an `amo.sc` (R222), whose target through a window of this package is looked at too. -/
def gAmo (kind : GKind) (fn p d a b word : Nat) (s : State) : State :=
  guarded s p fun s =>
    let c := here s
    let va := sreg c a
    let r := xlat s (hereNo s) (asidOf c) va.toNat
    let g : GOp := ⟨c.q.seq, word, kind, fn, 8, va, 0, sreg c b, sreg c d, 0, d, s.dev, 0, 0, .ready⟩
    let away : Bool := kind == .amoSc && match r with
      | .win _ w _ _ => winPkg w != pkgNo s || (kindFault [scTarget s (hereNo s) g]).isSome
      | _ => false
    if va.toNat % 8 != 0 then raise s (slotNow s 6) 0x0D 0 va
    else match kindFault [r] with
      | some f => raise s (slotNow s 6) f 0 va
      | none => if away then raise s (slotNow s 6) 0x0D 0 va else gEnqueue s g [(va.toNat, 0, 8, r)]

/-- What a versioned access meets (R220): lines of this package, each in its region; a window, and a second one for the bytes beyond its
end; or a fault. -/
inductive VReach where
  | here (ps : List VPart)
  | window (w : List Nat) (o : Nat) (two : Option (Nat × List Nat × Nat))
  | fault (cause detail : Nat)
deriving DecidableEq, Repr

/-- Bytes on one match of VERSIONED kind as parts by lines, each in the live region of the address space that holds it (R125, R220); a byte in
no live region faults KIND_ACCESS. -/
def verLines (s : State) (asid va pa off n : Nat) : Option (List VPart) :=
  (lineParts pa off n).mapM fun (line, o, f, k) => (regionOf s asid (va + (f - off))).map fun r => (line, o, f, k, r)

/-- A part of a versioned access that reaches this package, directly or through a window of its own: its lines, or a fault. -/
def verPart (s : State) (cn asid va off n need : Nat) : XRes → Sum (Nat × Nat) (List VPart)
  | .loc pa k rt _ _ _ =>
    if k != kVERSIONED then .inl (0x0D, 0) else if !hasRight rt need then .inl (0x0B, 0x04)
    else match verLines s asid va pa off n with | some l => .inr l | none => .inl (0x0D, 0)
  | .win _ w o _ =>
    match keyCheck s (winKey w) 0 need (winRoff w + o) n with
    | none => .inl (0x0C, 0)
    | some (a, v) =>
      let l := (xsplit s cn a 4 v off n).map fun (x, f, k, r) => match r with
        | .loc pa kd rt _ _ _ =>
          if kd != kVERSIONED then Sum.inl (0x0D, 0) else if !hasRight rt need then .inl (0x0B, 0x04)
          else match verLines s a x pa f k with | some l => .inr l | none => .inl (0x0D, 0)
        | .win .. => .inl (0x0D, 0)
        | .fail r => .inl (0x0B, r)
      l.foldl (fun acc x => match acc, x with | .inl f, _ => .inl f | _, .inl f => .inl f | .inr a, .inr b => .inr (a ++ b)) (.inr [])
  | .fail r => .inl (0x0B, r)

/-- Checks of a versioned access of `n` bytes (R114, R125, R220), each part against its own region (log 78). One whose parts have no common
home faults KIND_STRADDLE (log 81). -/
def verReach (s : State) (cn asid va n need : Nat) : VReach :=
  let parts := xsplit s cn asid 4 va 0 n
  let own := fun (r : XRes) => match r with | .loc .. => true | .win _ w _ _ => winPkg w == pkgNo s && winTgt w == 0 | .fail _ => true
  let vers := fun (r : XRes) => match r with | .loc _ k _ _ _ _ => k == kVERSIONED | .win .. => true | .fail _ => false
  let rs := parts.map fun x => x.2.2.2
  match rs.findSome? fun r => match r with
      | .fail r => some (0x0B, r)
      | .win _ w _ _ => if winTgt w = 1 then some (0x0C, 0) else if winTgt w = 2 then some (0x0D, 0) else if !hasRight (winRights w) need then some (0x0C, 0) else none
      | .loc .. => none with
  | some (f, d) => .fault f d
  | none =>
    if rs.any (fun r => !vers r) then .fault (if rs.any vers then 0x0E else 0x0D) 0
    else match parts with
      | [(_, _, _, .win _ w o _)] => .window w o none
      | [(_, _, m, .win _ w o _), (_, _, _, .win _ w2 o2 _)] => if winPkg w2 = winPkg w then .window w o (some (m, w2, o2)) else .fault 0x0E 0
      | _ =>
        if !rs.all own || rs.isEmpty then .fault 0x0E 0 else
        match parts.foldl (fun (acc : Sum (Nat × Nat) (List VPart)) (a, off, k, r) => match acc with
            | .inl f => .inl f
            | .inr l => match verPart s cn asid a off k need r with | .inl f => .inl f | .inr m => .inr (l ++ m)) (.inr []) with
        | .inl (f, d) => .fault f d
        | .inr l => .here l

/-- A versioned access goes to its home package (R125): version and data, and the key, offset and first part's bytes where a second
window takes the rest (log 81). -/
def verSend (s : State) (cn i : Nat) (g : GOp) (w : List Nat) (o : Nat) (two : Option (Nat × List Nat × Nat)) : State :=
  let b := match two with
    | some (m, w2, o2) => toBytes (winKey w2) 4 ++ toBytes (winRoff w2 + o2) 8 ++ toBytes m 1
    | none => []
  gSend (flushLine s cn g) cn i g w o 0x05 (if g.kind = .stv then 1 else 0) (16 + b.length) (toBytes g.ver 8 ++ toBytes g.data.toNat 8 ++ b)

/-- The lines of a versioned access that stand in stacks of other dies take a flit each of the quad's port (R12, R14, log 79). -/
def verPort (s : State) (cn : Nat) (ps : List VPart) : State := ps.foldl (fun s (line, _, _, _, _) => portReads s cn (128 * line) 1) s

/-- `ld.v`, `st.v` (R220): the line is held from issue until the access is performed or faults. An earlier acquire load or `amo.sc` of the
queue is performed first (R113, R116). -/
def gVer (isStore : Bool) (p d a b word : Nat) (s : State) : State :=
  guarded s p fun s =>
    let c := here s
    let cn := hereNo s
    let va := sreg c a
    let data := if isStore then sreg c d else 0
    let g : GOp := ⟨c.q.seq, word, if isStore then .stv else .ldv, 0, 8, va, 0, data, 0, (sreg c b).toNat % 2 ^ 32, if isStore then 0 else d, s.dev, 0, 0, .ready⟩
    let i := (coreAt s cn).f.gq.length
    let queue := fun (s : State) => modCore s cn fun k => { k with f := { k.f with gq := k.f.gq ++ [g] }, q := { k.q with holdG := .ver c.q.seq s.dev } }
    let late := (coreAt s cn).f.gq.any fun e => gAfter s cn e g
    match verReach s cn (asidOf c) va.toNat 8 g.kind.right with
    | .fault f r => raise (walkNote s (asidOf c) va.toNat (if f = 0x0B then r else 0)) (slotNow s 6) f r va
    | .window w o two => if late then queue s else verSend (queue s) cn i g w o two
    | .here ps =>
      if late then queue s else
      match verTry s isStore ps g.ver data with
      | .done v s => let s := verPort s cn ps; if isStore then s else gResult s cn d v
      | .fault f => raise s (slotNow s 6) f 0 va
      | .wait _ => queue s

/-- The versioned access a core waits on. -/
def verWaiting (s : State) (cn : Nat) : Option (Nat × GOp) :=
  match (coreAt s cn).q.holdG with
  | .ver q _ => findIdxOf (fun (g : GOp) => g.seq == q && (g.kind == .ldv || g.kind == .stv)) (coreAt s cn).f.gq
  | _ => none

/-- The line is no longer held for the G slot. -/
def freeG (s : State) (cn : Nat) : State := modCore s cn fun k => { k with q := { k.q with holdG := .none } }

/-- A fault of what a core is held on (R220): raised at its own bundle, its completion bit clear, the others set. -/
def heldFault (s : State) (cn slot cause detail : Nat) (addr : Word) : State :=
  let k := coreAt s cn
  takeTrap (modCore s cn undoHold) cn ⟨cause, detail, slot, addr, k.q.lastPc, k.q.lastDx, heldMask k [slot], 0⟩ false none

/-- Tries the waited-for access again (R121, R122, R125); `timeout` gives the cause if it still cannot be performed. -/
def verRetry (s : State) (cn : Nat) (isStore : Bool) (timeout : Option Nat) : State :=
  match verWaiting s cn with
  | none => s
  | some (i, g) =>
    if (g.kind == .stv) != isStore || g.sent || !gClear s cn i then s else
    let fault := fun (f d : Nat) => heldFault (freeG (gRemove (walkNote s (asidOf (coreAt s cn)) g.lo (if f = 0x0B then d else 0)) cn i) cn) cn 6 f d g.va
    match verReach s cn (asidOf (coreAt s cn)) g.lo 8 g.kind.right with
    | .fault f d => fault f d
    | .window w o two => verSend s cn i g w o two
    | .here ps =>
      match verTry s isStore ps g.ver g.data with
      | .done v s' =>
        let s' := freeG (gRemove (verPort s' cn ps) cn i) cn
        if isStore then s' else gResult s' cn g.dst v
      | .fault f => fault f 0
      | .wait rs => match timeout with
        | none => s
        | some f => if rs.any fun r => s.dev ≥ g.t0 + nsDev (1000 * bits (regionWord s r) 231 200) then fault f 0 else s

/-- The entries that a fence at a scope flushes (R115, R118). -/
def fenceFlush (s : State) (cn scope : Nat) : State := flushComb s cn fun e => scope == 4 || combLocal s e

/-- A fence (R115, R223): entries it names are flushed and the line is held. -/
def gFence (scope p : Nat) (s : State) : State :=
  guarded s p fun s =>
    fenceFlush (modCore s (hereNo s) fun c => { c with q := { c.q with holdG := .fence scope } }) (hereNo s) scope

/-- Whether a fence at a scope is satisfied: nothing queued, every write it waits for placed, and no fill still to read its rows (R115). -/
def fenceDone (s : State) (cn scope : Nat) : Bool :=
  let c := coreAt s cn
  c.f.gq.isEmpty && !storesOut s cn (scope == 4) && !c.f.fill.any Fill.reads && (match c.q.holdO with | .opslot (some _) _ => false | _ => true)

/-- `pf` (R224): the core's caches and the die's take the translation from one of them, or a walk brings it. -/
def gPf (p a : Nat) (s : State) : State :=
  guarded s p fun s =>
    let c := here s
    let cn := hereNo s
    let va := (sreg c a).toNat
    if va ≥ 2 ^ 56 then wr s fun k => countEv k 0x0F 1
    else match cached s cn (asidOf c) va with
      | some e => match entRes e va with
        | .fail _ => wr s fun k => countEv k 0x0F 1
        | _ => fillCaches s cn e
      | none => startWalk s cn (asidOf c) va none

/-- `wprobe` (R225). -/
def gProbe (p d a word : Nat) (s : State) : State :=
  guarded s p fun s =>
    let c := here s
    modCore s (hereNo s) fun k => { k with f := { k.f with gq := k.f.gq ++ [⟨c.q.seq, word, .probe, 0, 0, sreg c a, 0, 0, 0, 0, d, s.dev, 0, 0, .ready⟩] } }

/-! ## Events -/

/-- An operation's part that waits for a walk at an address is answered. -/
def walkAnswer (s : State) (cn q va : Nat) (st : GStat) : State :=
  modCore s cn fun c => { c with f := { c.f with gq := c.f.gq.map fun g => if g.seq = q && g.st == .walk && g.lo == va then { g with st := st } else g } }

/-- TRANSLATION_WALK: walk `i`, one of the first 64 of its die, completes and answers every merged miss; failures are not cached, and one
met by a prefetch alone tells no driver (R224, R359). A merged miss that the page, as it now stands, does not cover walks again. -/
def execTranslationWalk (i : Nat) (s : State) : Out :=
  match s.walks[i]? with
  | none => .next s
  | some w =>
    if 64 ≤ ((s.walks.take i).filter fun x => x.die == w.die).length then .next s else
    let out := { s with walks := s.walks.eraseIdx i }
    let covered := fun (va : Nat) => walkServes s w w.die w.asid va
    let answer := fun (s : State) (st : GStat) => w.who.foldl (fun s (cn, q, va) =>
      if covered va then walkAnswer s cn q va st else startWalk s cn w.asid va (some q)) s
    match tableLook s w.asid w.va with
    | .hit e => .next (answer ((w.who.map Prod.fst ++ w.pf).foldl (fun s cn => fillCaches s cn e) out) .ready)
    | .bad r =>
      let s := w.pf.foldl (fun s cn => modCore s cn fun c => countEv c 0x0F 1) out
      let s := if w.who.isEmpty then walkNote s w.asid w.va r else postPage s w.asid w.va r
      .next (answer s (.parked 0x0B r))

/-- G_LOAD_RETURN: entry `i` of core `c`'s queue, which returns a value, is performed if the order lets it (R111, R113, R218). -/
def execGLoadReturn (c i : Nat) (s : State) : Out :=
  match (coreAt s c).f.gq[i]? with
  | some g => if g.kind.writesReg && g.kind != .amoSc && g.kind != .ldv && g.st == .ready then .next (gTry s c i) else .next s
  | none => .next s

/-- PLACEMENT_ACK: entry `i` of core `c`'s queue, a store, is placed if the order lets it; beyond the queue, write `i` − length among
those that have left the core, once acknowledged, no longer counts in PBC (R107). -/
def execPlacementAck (c i : Nat) (s : State) : Out :=
  let k := coreAt s c
  match k.f.gq[i]? with
  | some g => if !g.kind.writesReg && g.kind != .stv && g.st == .ready then .next (gTry s c i) else .next s
  | none => match k.f.unacked[i - k.f.gq.length]? with
    | some u => if u.acked then
        .next (modCore s c fun k => { k with f := { k.f with unacked := k.f.unacked.eraseIdx (i - k.f.gq.length) }, r := { k.r with pbc := k.r.pbc - u.bytes } })
      else .next s
    | none => .next s

/-- AMO_SC_PERFORM: entry `i` of core `c`'s queue, an `amo.sc` that has reached the wheel, is performed when the wheel stands at a
position of the core (R116). -/
def execAmoScPerform (c i : Nat) (s : State) : Out :=
  match (coreAt s c).f.gq[i]? with
  | some g => match g.st with
    | .wheel _ (some t) => if t ≤ s.now && wheelOwned s c then .next (gTry s c i) else .next s
    | _ => .next s
  | none => .next s

/-- COMBINING_ENTRY_AGE_FLUSH: entry `i` of core `c`'s combining buffer, unwritten for 4,096 cycles, leaves (R118). -/
def execCombiningEntryAgeFlush (c i : Nat) (s : State) : Out :=
  match (coreAt s c).f.comb[i]? with
  | some e => if s.now ≥ e.last + 4096 then .next (flushComb s c fun x => x.ord == e.ord) else .next s
  | none => .next s

/-- VERSION_SEAL_WAKE: core `c`'s waiting `ld.v` is tried again (R122). -/
def execVersionSealWake (c : Nat) (s : State) : Out := .next (verRetry s c false none)
/-- MISSING_VERSION_TIMEOUT: core `c`'s `ld.v` has waited past its region's TIMEOUT (R122). -/
def execMissingVersionTimeout (c : Nat) (s : State) : Out := .next (verRetry s c false (some 0x12))
/-- VERSION_CAPACITY_WAKE: core `c`'s waiting `st.v` is checked again in full (R121). -/
def execVersionCapacityWake (c : Nat) (s : State) : Out := .next (verRetry s c true none)
/-- VERSION_CAPACITY_TIMEOUT: core `c`'s `st.v` has waited past its region's TIMEOUT for capacity (R121). -/
def execVersionCapacityTimeout (c : Nat) (s : State) : Out := .next (verRetry s c true (some 0x16))

/-- Slot value in format GM (R155). -/
def gmWord (op p d a v t w u : Nat) : Nat := p * 2 ^ 28 + op * 2 ^ 22 + d * 2 ^ 16 + a * 2 ^ 10 + v * 2 ^ 9 + t * 2 ^ 5 + w * 2 ^ 4 + u
/-- Slot value in format GV or GA (R155). -/
def gaWord (op p d a b fn : Nat) : Nat := p * 2 ^ 28 + op * 2 ^ 22 + d * 2 ^ 16 + a * 2 ^ 10 + b * 2 ^ 4 + fn

/-- G_NOP (R140): nothing. -/
def execGNop (_p : Nat) (s : State) : Out := .next s
/-- `ld` of 1 bytes (R218). -/
def execLdB (p d a v t w u : Nat) (s : State) : Out := .next (gMem .load 1 p d a (gmWord 1 p d a v t w u) s)
/-- `ld` of 2 bytes (R218). -/
def execLdH (p d a v t w u : Nat) (s : State) : Out := .next (gMem .load 2 p d a (gmWord 2 p d a v t w u) s)
/-- `ld` of 4 bytes (R218). -/
def execLdW (p d a v t w u : Nat) (s : State) : Out := .next (gMem .load 4 p d a (gmWord 3 p d a v t w u) s)
/-- `ld` of 8 bytes (R218). -/
def execLdD (p d a v t w u : Nat) (s : State) : Out := .next (gMem .load 8 p d a (gmWord 4 p d a v t w u) s)
/-- `st` of 1 bytes (R218). -/
def execStB (p d a v t w u : Nat) (s : State) : Out := .next (gMem .store 1 p d a (gmWord 5 p d a v t w u) s)
/-- `st` of 2 bytes (R218). -/
def execStH (p d a v t w u : Nat) (s : State) : Out := .next (gMem .store 2 p d a (gmWord 6 p d a v t w u) s)
/-- `st` of 4 bytes (R218). -/
def execStW (p d a v t w u : Nat) (s : State) : Out := .next (gMem .store 4 p d a (gmWord 7 p d a v t w u) s)
/-- `st` of 8 bytes (R218). -/
def execStD (p d a v t w u : Nat) (s : State) : Out := .next (gMem .store 8 p d a (gmWord 8 p d a v t w u) s)
/-- `ld.acq` of 4 bytes (R219). -/
def execLdAcqW (p d a v t w u : Nat) (s : State) : Out := .next (gMem .loadAcq 4 p d a (gmWord 9 p d a v t w u) s)
/-- `ld.acq` of 8 bytes (R219). -/
def execLdAcqD (p d a v t w u : Nat) (s : State) : Out := .next (gMem .loadAcq 8 p d a (gmWord 10 p d a v t w u) s)
/-- `st.rel` of 4 bytes (R219). -/
def execStRelW (p d a v t w u : Nat) (s : State) : Out := .next (gMem .storeRel 4 p d a (gmWord 11 p d a v t w u) s)
/-- `st.rel` of 8 bytes (R219). -/
def execStRelD (p d a v t w u : Nat) (s : State) : Out := .next (gMem .storeRel 8 p d a (gmWord 12 p d a v t w u) s)
/-- `ld.v` (R220). -/
def execLdV (p d a b : Nat) (s : State) : Out := .next (gVer false p d a b (gaWord 0x0D p d a b 0) s)
/-- `st.v` (R220). -/
def execStV (p d a b : Nat) (s : State) : Out := .next (gVer true p d a b (gaWord 0x0E p d a b 0) s)
/-- `amo.add` (R221). -/
def execAmoAdd (p d a b : Nat) (s : State) : Out := .next (gAmo .amo 0 p d a b (gaWord 15 p d a b 0) s)
/-- `amo.max` (R221). -/
def execAmoMax (p d a b : Nat) (s : State) : Out := .next (gAmo .amo 1 p d a b (gaWord 16 p d a b 0) s)
/-- `amo.maxu` (R221). -/
def execAmoMaxu (p d a b : Nat) (s : State) : Out := .next (gAmo .amo 2 p d a b (gaWord 17 p d a b 0) s)
/-- `amo.min` (R221). -/
def execAmoMin (p d a b : Nat) (s : State) : Out := .next (gAmo .amo 3 p d a b (gaWord 18 p d a b 0) s)
/-- `amo.minu` (R221). -/
def execAmoMinu (p d a b : Nat) (s : State) : Out := .next (gAmo .amo 4 p d a b (gaWord 19 p d a b 0) s)
/-- `amo.and` (R221). -/
def execAmoAnd (p d a b : Nat) (s : State) : Out := .next (gAmo .amo 5 p d a b (gaWord 20 p d a b 0) s)
/-- `amo.or` (R221). -/
def execAmoOr (p d a b : Nat) (s : State) : Out := .next (gAmo .amo 6 p d a b (gaWord 21 p d a b 0) s)
/-- `amo.xor` (R221). -/
def execAmoXor (p d a b : Nat) (s : State) : Out := .next (gAmo .amo 7 p d a b (gaWord 22 p d a b 0) s)
/-- `amo.swap` (R221). -/
def execAmoSwap (p d a b : Nat) (s : State) : Out := .next (gAmo .amo 8 p d a b (gaWord 23 p d a b 0) s)
/-- `amo.cas` (R221). -/
def execAmoCas (p d a b : Nat) (s : State) : Out := .next (gAmo .amo 9 p d a b (gaWord 24 p d a b 0) s)
/-- `amo.sc.add` (R222). -/
def execAmoScAdd (p d a b : Nat) (s : State) : Out := .next (gAmo .amoSc 0 p d a b (gaWord 0x19 p d a b 0) s)
/-- `amo.sc.swap` (R222). -/
def execAmoScSwap (p d a b : Nat) (s : State) : Out := .next (gAmo .amoSc 1 p d a b (gaWord 0x19 p d a b 1) s)
/-- `amo.sc.cas` (R222). -/
def execAmoScCas (p d a b : Nat) (s : State) : Out := .next (gAmo .amoSc 2 p d a b (gaWord 0x19 p d a b 2) s)
/-- `amo.sc.max` (R222). -/
def execAmoScMax (p d a b : Nat) (s : State) : Out := .next (gAmo .amoSc 3 p d a b (gaWord 0x19 p d a b 3) s)
/-- `amo.sc.min` (R222). -/
def execAmoScMin (p d a b : Nat) (s : State) : Out := .next (gAmo .amoSc 4 p d a b (gaWord 0x19 p d a b 4) s)
/-- `fence.core` (R223). -/
def execFenceCore (p : Nat) (s : State) : Out := .next (gFence 0 p s)
/-- `fence.quad` (R223). -/
def execFenceQuad (p : Nat) (s : State) : Out := .next (gFence 1 p s)
/-- `fence.die` (R223). -/
def execFenceDie (p : Nat) (s : State) : Out := .next (gFence 2 p s)
/-- `fence.package` (R223). -/
def execFencePackage (p : Nat) (s : State) : Out := .next (gFence 3 p s)
/-- `fence.fabric` (R223). -/
def execFenceFabric (p : Nat) (s : State) : Out := .next (gFence 4 p s)
/-- `pf` (R224). -/
def execPf (p a : Nat) (s : State) : Out := .next (gPf p a s)
/-- `wprobe` (R225). -/
def execWprobe (p d a : Nat) (s : State) : Out := .next (gProbe p d a (p * 2 ^ 28 + 0x1C * 2 ^ 22 + d * 2 ^ 16 + a * 2 ^ 10) s)

end Sys2Proof.Machine
end

