-- ==== Sys2Proof/Machine/Engines.lean ====
section
/-! DEFINITION. Machine/Engines: the A slot and the engines (spec/14, R261 to R287; spec/23, R407 to R411): issue checks, starting a
command, placing its pieces, completion. Which command starts or completes next is the agenda's choice (R36). -/

namespace Sys2Proof.Machine

/-! ## Names and endpoints -/

/-- Whether a counter-name word breaks the layout of R267, KIND 10 aside. -/
def nameBad (w : Nat) : Bool :=
  bits w 63 62 == 3 || bits w 61 59 ≥ 6 || bits w 58 56 != 0 || (bits w 63 62 == 0 && bits w 55 9 != 0) ||
  (bits w 63 62 == 2 && bits w 55 0 != 0) || (bits w 63 62 == 1 && bits w 2 0 != 0)

/-- The same for an add or landing counter of a record: ct511 breaks it too. -/
def nameBadRec (w : Nat) : Bool := nameBad w || (bits w 63 62 == 0 && bits w 8 0 == 511)

/-- Why an engine's step stops: a status code, an address to park at (R263, R369), or a walk that met an uncorrectable line (R358). -/
inductive Stop where
  | bad (code : Nat)
  | park (va : Nat)
  | walk (va : Nat)
deriving DecidableEq, Repr

/-- A translation that failed at an address, for a reason (R358). -/
def Stop.ofWalk (va r : Nat) : Stop := if r = 3 then .park va else if r = 8 then .walk va else .bad 0x03

/-- What an engine's step over its endpoints gives. -/
inductive Eres (α : Type) where
  | ok (v : α)
  | stop (e : Stop)

def Eres.bad {α : Type} (code : Nat) : Eres α := .stop (.bad code)
def Eres.park {α : Type} (va : Nat) : Eres α := .stop (.park va)

def Eres.bind {α β : Type} : Eres α → (α → Eres β) → Eres β
  | .ok v, f => f v
  | .stop e, _ => .stop e

def Eres.need {β : Type} (c : Bool) (code : Nat) (k : Eres β) : Eres β := if c then k else .bad code

/-- What a counter name reaches for an add or read (R267, R271). -/
inductive CName where
  | none
  | at_ (c : CtrAt)
  | far (w : List Nat) (va o : Nat)
  | stop (e : Stop)
deriving DecidableEq, Repr

/-- Resolves a counter-name word; `core` owns KIND 00. A counter in an uncorrectable line parks under STRICT (R369). -/
def cname (s : State) (cn asid w need core : Nat) : CName :=
  match bits w 63 62 with
  | 0 => .at_ (.file core (bits w 8 0))
  | 1 =>
    let va := bits w 55 0
    match xlat s cn asid va with
    | .fail r => .stop (.ofWalk va r)
    | .loc pa k rt _ _ _ =>
      if k != kCOUNTER then .stop (.bad 0x05) else if !hasRight rt need then .stop (.bad 0x03)
      else if ctrStrict s asid (.hbm pa) then .stop (.park va) else .at_ (.hbm pa)
    | .win _ lw o _ => if winTgt lw != 2 then .stop (.bad 0x05) else if hasRight (winRights lw) need then .far lw va o else .stop (.bad 0x04)
  | _ => .none

/-- A line of shadow storage (R15, R50). -/
def shadowLine (s : State) (k : Nat) : BitVec 4096 :=
  match spFind s.shadow k with
  | some v => v
  | none => match spFind s.shadowEp k with
    | some e => Config.freeBits 4096 e k
    | none => 0

/-- Bytes of a handle at either level. -/
def hRead (s : State) (cn : Nat) (e : HEnt) (o n : Nat) : List Byte :=
  if e.shadow then (upTo n).map fun i => (shadowLine s (dieOf cn * 65536 + e.banks + (o + i) / 512)).extractLsb' (8 * ((o + i) % 512)) 8
  else spadRead (coreAt s cn) e o n

/-- Writes bytes of a handle at either level. -/
def hWrite (s : State) (cn : Nat) (e : HEnt) (o : Nat) (b : List Byte) : State :=
  if e.shadow then
    b.zipIdx.foldl (fun s (x, i) =>
      let k := dieOf cn * 65536 + e.banks + (o + i) / 512
      { s with shadow := spSet s.shadow k (setBits (shadowLine s k) (8 * ((o + i) % 512)) 8 (x.setWidth 4096)) }) s
  else modCore s cn fun c => spadWrite c e o b

/-- Whether a command's engine reaches SHADOW handles: the copy, gather and scatter engines alone (R55, R261). -/
def Cmd.reachesShadow (x : Cmd) : Bool := 1 ≤ x.op && x.op ≤ 4

/-- Whether handle `h` of core `cn` has another GEN than command `x` carries for it (R213). -/
def Cmd.otherGen (x : Cmd) (cn h gen : Nat) : Bool := x.gens.any fun (k, j, g) => k == cn && j == h && g != gen

/-- An endpoint handle of core `cn` for command `x` of an ASID (R55, R213, R271, R408, R409). -/
def engHandle (s : State) (x : Cmd) (cn asid h o n : Nat) : Eres HEnt :=
  let c := coreAt s cn
  let e := handle c h
  if !e.valid || e.held || (e.shadow && !x.reachesShadow) || o + n > e.size || x.otherGen cn h e.gen then .bad 0x02
  else if spGet 0 c.m.hheld h == 3 && asidOf c != asid then .bad 0x04
  else .ok e

/-- A handle-offset endpoint word (R152). -/
def engWord (s : State) (x : Cmd) (cn asid w off n : Nat) : Eres HEnt :=
  if bits w 55 32 != 0 then .bad 0x02 else engHandle s x cn asid (bits w 63 56) (bits w 31 0 + off) n

/-- Local physical segments of a range (R271): windows and pages of kind VERSIONED or COUNTER give KIND_ACCESS. -/
def engSegs (s : State) (cn asid va n need : Nat) : Eres (List (Nat × Nat)) :=
  if n = 0 then .ok [] else
  (xsplit s cn asid (n + 1) va 0 n).foldl (fun acc (a, _, k, r) => acc.bind fun l =>
    match r with
    | .fail f => .stop (.ofWalk a f)
    | .win .. => .bad 0x05
    | .loc pa kd rt _ _ _ => if kd = kVERSIONED || kd = kCOUNTER then .bad 0x05 else if hasRight rt need then .ok (l ++ [(pa, k)]) else .bad 0x03) (.ok [])

/-- How far the first uncorrectable line of physical segments stands from their start. -/
def firstBad (s : State) : List (Nat × Nat) → Nat → Option Nat
  | [], _ => none
  | (pa, k) :: l, o => match badLines s pa k with
    | a :: _ => some (o + (a - pa))
    | [] => firstBad s l (o + k)

/-- An engine's read of physical segments, of an ASID that begins at `va`: an uncorrectable line under STRICT parks the command (R369); what
lies in stacks of other dies passes the quad's port (R12, R14). -/
def engRead (s : State) (cn asid va : Nat) (l : List (Nat × Nat)) : Eres (List Byte × State) :=
  match (if strictOf s asid then firstBad s l 0 else none) with
  | some o => .park (va + o)
  | none => .ok (l.foldl (fun (acc, s) (pa, k) => let (b, s) := hbmRead s asid pa k; (acc ++ b, portReads s cn pa k)) ([], s))

/-- Reads a local endpoint for a use that needs a right (R355). -/
def endTake (s : State) (x : Cmd) (cn asid kind w off n need : Nat) : Eres (List Byte × State) :=
  if kind = 0 then (engWord s x cn asid w off n).bind fun e => .ok (hRead s cn e (bits w 31 0 + off) n, s)
  else (engSegs s cn asid (w + off) n need).bind (engRead s cn asid (w + off))

/-- Reads a local endpoint. -/
def endRead (s : State) (x : Cmd) (cn asid kind w off n : Nat) : Eres (List Byte × State) := endTake s x cn asid kind w off n rR

/-- Whether a local destination can be written. -/
def endCheck (s : State) (x : Cmd) (cn asid kind w off n : Nat) : Eres Unit :=
  if kind = 0 then (engWord s x cn asid w off n).bind fun _ => .ok ()
  else (engSegs s cn asid (w + off) n rW).bind fun _ => .ok ()

/-- Cuts bytes for a destination at its lines: 512-byte scratchpad lines or 128-byte HBM lines (R264). -/
def cutLines (sz : Nat) : Nat → Nat → List Byte → List (Nat × List Byte)
  | 0, _, _ => []
  | k + 1, a, b => if b.isEmpty then [] else let n := sz - a % sz; (a, b.take n) :: cutLines sz k (a + n) (b.drop n)

/-- The pieces of bytes for a destination of core `core`. -/
def piecesOf (s : State) (core kind w off : Nat) (b : List Byte) (tag : Option Nat) : List Piece :=
  if kind = 0 then
    let h := bits w 63 56
    (cutLines 512 (b.length + 1) (bits w 31 0 + off) b).map fun (a, x) => ⟨core, false, h, (handle (coreAt s core) h).gen, a, x, tag, 0⟩
  else (cutLines 128 (b.length + 1) (w + off) b).map fun (a, x) => ⟨core, true, 0, 0, a, x, tag, 0⟩

/-! ## Conversion (R271) -/

/-- Binary floating formats that an engine converts between. -/
def engFloat (f : Nat) : Bool := f == 1 || f == 2 || f == 3 || f == 5 || f == 6
def engInt (f : Nat) : Bool := f == 0x0F || f == 0x10 || f == 0x11 || f == 0x12

/-- Whether a pair of format codes converts. -/
def engPair (a b : Nat) : Bool := a == b || (engFloat a && engFloat b) || (engInt a && engInt b)

/-- Converts elements; the state of the stochastic generator walks along. Gives the bytes and the count for CVT_LOSS. -/
def engConv (sf df : Nat) (mode : RMode) : Nat → BitVec 64 → List Byte → List Byte × Nat
  | 0, _, _ => ([], 0)
  | k + 1, g, b =>
    let ib := (fmtBits sf).getD 8 / 8
    let ob := (fmtBits df).getD 8 / 8
    let x := leNat (b.take ib)
    let g := if mode = .sr then rngNext g else g
    let (y, lost) := match fmtFp sf, fmtFp df with
      | some a, some c => fpConvert a c mode (g.toNat / 2 ^ 48) x
      | _, _ => match fmtInt df with
        | some (w, lo, hi) => (toPat w (satI (intRead sf x) lo hi), false)
        | none => (x, false)
    let (r, n) := engConv sf df mode k g (b.drop ib)
    (toBytes y ob ++ r, n + if lost then 1 else 0)

/-! ## The list of commands -/

def cmdAt (s : State) (cn i : Nat) : Option Cmd := (coreAt s cn).f.cmds[i]?

def modCmd (s : State) (cn id : Nat) (f : Cmd → Cmd) : State :=
  modCore s cn fun c => { c with f := { c.f with cmds := c.f.cmds.map fun x => if x.id = id then f x else x } }

/-- The command of a number. -/
def cmdById (s : State) (cn id : Nat) : Option Cmd := (coreAt s cn).f.cmds.find? fun x => x.id == id

/-- A command parks at an address: its driver learns of a non-resident page, or of an uncorrectable line, which is counted (R263, R360, R369,
R443). -/
def engPark (s : State) (cn id asid va : Nat) : State :=
  let s := modCmd s cn id fun y => { y with parked := some (asid, va) }
  match xlat s cn asid va with
  | .loc pa _ _ _ _ _ => post (ueCount s pa 1) (driverOf s asid) 1 [asid, va]
  | .fail r => postPage s asid va r
  | .win .. => s

/-- A command's step stopped: it parks, or takes a status (R263); a failed walk is counted (R442). -/
def engStop (s : State) (cn id asid : Nat) : Stop → State
  | .bad c => modCmd s cn id fun y => { y with code := c }
  | .walk va => walkNote (modCmd s cn id fun y => { y with code := 0x03 }) asid va 8
  | .park va => engPark s cn id asid va

/-- A token becomes done, and its command leaves. -/
def tokenDone (s : State) (cn : Nat) (x : Cmd) : State :=
  modCore s cn fun c => { c with r := { c.r with tok := c.r.tok &&& ~~~(1#16 <<< x.tok) }, f := { c.f with cmds := c.f.cmds.filter fun y => y.id != x.id } }

/-- Engine and queue depth of an opcode (R261); `name` is a counter command's name word. -/
def engOf (op : Nat) (name : Word) : Nat × Nat :=
  if op = 1 || op = 4 then (0, 16) else if op = 2 || op = 3 then (1, 16) else if 5 ≤ op && op ≤ 8 then (2, 16)
  else if op = 9 then (3, 4) else if op = 0x0A then (4, 4) else if op = 0x0B then (5, 4) else if op = 0x0C then (6, 8)
  else if op ≤ 0x0F then (if bits name.toNat 63 62 = 0 then (7, 16) else (2, 16)) else (8, 2)

/-- Whether an engine's queue is full: commands issued and not started. -/
def engFull (c : Core) (op : Nat) (name : Word) : Bool :=
  let (e, d) := engOf op name
  d ≤ (c.f.cmds.filter fun x => !x.started && (engOf x.op x.x).1 == e).length

/-- Field k of a record. -/
def Cmd.w (x : Cmd) (k : Nat) : Nat := recWord x.recb k
def Cmd.sk (x : Cmd) : Nat := bits (x.w 1) 57 57
def Cmd.dk (x : Cmd) : Nat := bits (x.w 1) 56 56
def Cmd.sfmt (x : Cmd) : Nat := bits (x.w 1) 55 51
def Cmd.dfmt (x : Cmd) : Nat := bits (x.w 1) 50 46
def Cmd.rnd (x : Cmd) : Nat := bits (x.w 1) 45 43
def Cmd.mask (x : Cmd) : Nat := bits (x.w 1) 42 39
def Cmd.red (x : Cmd) : Nat := bits (x.w 1) 38 32
def Cmd.arg (x : Cmd) : Nat := bits (x.w 1) 31 0
def Cmd.src (x : Cmd) : Nat := x.w 2
def Cmd.dst (x : Cmd) : Nat := x.w 3
def Cmd.len (x : Cmd) : Nat := x.w 4
def Cmd.land (x : Cmd) : Nat := x.w 5
def Cmd.done (x : Cmd) : Nat := x.w 6
def Cmd.aux (x : Cmd) : Nat := x.w 7

/-- Whether an opcode names a record. -/
def hasRec (op : Nat) : Bool := (1 ≤ op && op ≤ 7) || (9 ≤ op && op ≤ 0x0C) || op == 0x10 || op == 0x11

/-! ## Issue -/

/-- Size of a record (R262, R280, R282, R284): for `coll` by the NLEV that stands in it at issue (log 25). -/
def recSize (s : State) (cn op : Nat) (x : Word) : Nat :=
  if op = 9 then 64 + 32 * bits (leNat (hRead s cn (handle (coreAt s cn) (bits x.toNat 63 56)) (bits x.toNat 31 0 + 8) 8)) 31 29
  else if op = 0x0A then 80 else if op = 0x0B then 72 else 64

/-- The issue check of a record (R262): a cause, or none. -/
def recFault (s : State) (cn op : Nat) (x : Word) : Option Nat :=
  let e := handle (here s) (bits x.toNat 63 56)
  let o := bits x.toNat 31 0
  if bits x.toNat 55 32 != 0 || o % 8 != 0 then some 0x07
  else if !e.valid then some 0x05 else if e.shadow || e.held then some 0x06
  else if o + 64 > e.size || o + recSize s cn op x > e.size then some 0x07 else none

/-- A command joins its core's list and its token becomes pending (R35). -/
def aPush (op tok : Nat) (cons : List Nat) (recw x y : Word) (pd : Nat) (s : State) : State :=
  let (id, s) := drawFresh s
  let c := here s
  let g := (handle c (bits recw.toNat 63 56)).gen
  wr s fun k => { k with
    r := { k.r with tok := k.r.tok ||| (1#16 <<< tok) }
    f := { k.f with cmds := k.f.cmds ++ [⟨id, c.q.seq, op, tok, cons, recw, g, x, y, pd, false, [], [], 0, 0, 0, [], none, [], s.dev, [], false, 0, 0⟩] } }

/-- An A operation that names a record (R262). -/
def aRecord (op p r : Nat) (cons : List Nat) (x : Nat) (s : State) : State :=
  guarded s p fun s =>
    let w := sreg (here s) (48 + x)
    match recFault s (hereNo s) op w with
    | some f => raise s (slotNow s 0) f 0 0
    | none => aPush op r cons w 0 0 0 s

/-- Precise faults of a counter command (R267, R268): cause, DETAIL and address. A right that a COUNTER page of this package lacks is one
of translation (R355, log 83). -/
def ctrFault (s : State) (cn op : Nat) (name y : Word) : Option (Nat × Nat × Word) :=
  let n := name.toNat
  let poll := op == 0x0F
  let va : Word := BitVec.ofNat 64 (bits n 55 0)
  if nameBad n || bits n 63 62 == 2 then some (0x01, 0, 0)
  else if !poll && bits n 63 62 == 0 && bits n 8 0 == 511 then some (0x10, 0, 0)
  else if !poll && y.getLsbD 63 then some (0x0F, 0, 0)
  else if bits n 63 62 == 0 then
    if op = 0x0D && (ctrAdd (ctGet (here s) (bits n 8 0)) y.toNat).2 then some (0x0F, 0, 0) else none
  else match xlat s cn (asidOf (here s)) va.toNat with
    | .fail r => some (0x0B, r, va)
    | .loc _ k rt _ _ _ =>
      if k != kCOUNTER then some (0x0D, 0, va) else if hasRight rt (if poll then rR else rA) then none else some (0x0B, 0x04, va)
    | .win _ w _ _ => if winTgt w = 2 then none else some (0x0D, 0, va)

/-- A counter command (R268, R269). -/
def aCounter (op p r : Nat) (cons : List Nat) (d y x : Nat) (s : State) : State :=
  guarded s p fun s =>
    let c := here s
    let name := sreg c (48 + x)
    let v := sreg c (48 + y)
    match ctrFault s (hereNo s) op name v with
    | some (f, dt, a) => raise (walkNote s (asidOf c) a.toNat (if f = 0x0B then dt else 0)) (slotNow s 0) f dt a
    | none => aPush op r cons 0 name v d s

/-! ## Completion -/

/-- The result of an add by an engine: the state, whether it overflowed, and a reply it waits for (R101, R106, R107). The reply to one through
a window says whether it overflowed there. -/
def engAdd (s : State) (cn : Nat) (at' : CName) (n id : Nat) : State × Bool × Option Nat :=
  match at' with
  | .at_ c => let (v, o) := addOrPoison (ctrRead s c) n; (ctrWrite (ctrSeen s (asidOf (coreAt s cn)) c) v c, o, none)
  | .far w va o =>
    let (t, s) := newTag s ⟨2, cn, id, 8, none⟩
    (coreSend (addPbc s cn 8) cn (winRequest s w va o 0x04 6 8 t (toBytes n 8)), false, some t)
  | _ => (s, false, none)

/-- A deferred trap is to be taken (R265). -/
def defer (s : State) (cn cause : Nat) (x : Cmd) : State :=
  modCore s cn fun c => { c with f := { c.f with deferred := c.f.deferred ++ [(cause, x.tok)] } }

/-- Where the record of a command stands, while its handle is what it was at issue (R262, R213). -/
def recHere (s : State) (cn : Nat) (x : Cmd) : Option HEnt :=
  let e := handle (coreAt s cn) (bits x.recw.toNat 63 56)
  if e.valid && e.gen == x.recGen then some e else none

/-- The DONE add and the token (R264). An add through a window keeps the token until its reply: the command then stands with the
opcode 0x20; one at a non-resident page parks with the opcode 0x22 (R263). -/
def finishDone (s : State) (cn : Nat) (x : Cmd) : State :=
  let asid := asidOf (coreAt s cn)
  if nameBadRec x.done then tokenDone s cn x else
  match cname s cn asid x.done rA cn with
  | .stop (.park a) => engPark (modCmd s cn x.id fun y => { y with op := 0x22, waits := [], pieces := [] }) cn x.id asid a
  | .stop (.walk a) => walkNote (tokenDone s cn x) asid a 8
  | n =>
    let (s, _, t) := engAdd s cn n 1 x.id
    match t with
    | none => tokenDone s cn x
    | some t => modCmd s cn x.id fun y => { y with op := 0x20, waits := [t], pieces := [] }

/-- Completion in the order of R264: STATUS, the DONE add, the token. -/
def finishCmd (s : State) (cn : Nat) (x : Cmd) : State :=
  if !hasRec x.op then tokenDone s cn x else
  finishDone (match recHere s cn x with
    | some e => hWrite s cn e (bits x.recw.toNat 31 0) (toBytes (x.code * 2 ^ 56 + x.count % 2 ^ 48) 8)
    | none => s) cn x

/-! ## Starting -/

/-- The landing counter of pieces that arrive at core `core` (R267). -/
def landName (s : State) (cn core : Nat) (x : Cmd) : CName := cname s cn (asidOf (coreAt s cn)) x.land rA core

def CName.check {β : Type} (c : CName) (k : Eres β) : Eres β :=
  match c with
  | .stop e => .stop e
  | _ => k

/-- What every record is checked for (R263, R267, R270); LAND is checked by the commands that use it. -/
def recOk (x : Cmd) : Bool :=
  bits (x.w 1) 63 58 == x.op && x.sfmt < 0x15 && x.dfmt < 0x15 && x.rnd < 6 && !nameBadRec x.done && !nameBadRec x.land

/-- Bytes of pieces for places outside core `cn`'s own memories (R107). -/
def outBytes (cn : Nat) (l : List Piece) : Nat := ((l.filter fun p => p.isVa || p.core != cn).map fun p => p.data.length).sum

/-- Those bytes count in PBC until placed (R107). -/
def pbcPieces (s : State) (cn : Nat) (l : List Piece) : State := addPbc s cn (outBytes cn l)

/-- They count no longer: they have been placed, or will not be written. -/
def pbcDone (s : State) (cn : Nat) (l : List Piece) : State := modCore s cn fun c => { c with r := { c.r with pbc := c.r.pbc - outBytes cn l } }

/-- The handles a record names (R213), with their GENs as they stand: of its handle-offset words, and of `mcast.q`'s destination in each
core of the quad. -/
def gensNow (s : State) (cn : Nat) (x : Cmd) : List (Nat × Nat × Nat) :=
  ([x.w 2, x.w 3, x.w 7, x.w 8].map fun w => (cn, bits w 63 56, (handle (coreAt s cn) (bits w 63 56)).gen)) ++
  (if x.op = 4 then (upTo 4).map fun i => (cn / 4 * 4 + i, bits x.dst 63 56, (handle (coreAt s (cn / 4 * 4 + i)) (bits x.dst 63 56)).gen) else [])

/-- `cpy` (R272). Between integer formats nothing is rounded; RND, and AUX under RND 4, are allowed there all the same (log 105). -/
def startCpy (s : State) (cn asid : Nat) (x : Cmd) : Eres (Cmd × State) :=
  let n := bits x.len 39 0
  .need (bits x.len 63 40 == 0 && x.mask == 0 && x.red == 0 && x.arg == 0 && engPair x.sfmt x.dfmt &&
      (x.sfmt != x.dfmt || x.rnd == 0) && (x.aux == 0 || x.rnd == 4) &&
      8 * n % (fmtBits x.sfmt).getD 8 == 0) 1 <|
  (landName s cn cn x).check <|
  (endRead s x cn asid x.sk x.src 0 n).bind fun (b, s) =>
  let (out, lost) := if x.sfmt = x.dfmt then (b, 0)
    else engConv x.sfmt x.dfmt ((rmode x.rnd).getD .ne) (8 * n / (fmtBits x.sfmt).getD 8) (if x.aux = 0 then 1 else BitVec.ofNat 64 x.aux) b
  (endCheck s x cn asid x.dk x.dst 0 out.length).bind fun _ =>
  let ps := piecesOf s cn x.dk x.dst 0 out none
  .ok ({ x with pieces := ps }, pbcPieces (modCore s cn fun c => addCvt c lost) cn ps)

/-- Row `prog` of `gat` or `sct`, once the row before it is written (R273): its index and bytes are read. -/
def gatRow (s : State) (cn asid : Nat) (x : Cmd) : Eres (Cmd × State) :=
  let j := x.prog.getD 0 0
  let rowb := bits x.len 39 20
  (endRead s x cn asid 0 x.aux (4 * j) 4).bind fun (i, s) =>
  let k := leNat i
  let so := if x.op = 2 then k * x.arg else j * rowb
  let d := if x.op = 2 then j * rowb else k * x.arg
  (endRead s x cn asid x.sk x.src so rowb).bind fun (b, s) =>
  (endCheck s x cn asid x.dk x.dst d rowb).bind fun _ =>
  let ps := piecesOf s cn x.dk x.dst d b none
  .ok ({ x with pieces := ps, prog := [j + 1] }, pbcPieces s cn ps)

/-- `gat`, `sct` (R273): `prog` holds the next row. -/
def startGat (s : State) (cn _asid : Nat) (x : Cmd) : Eres (Cmd × State) :=
  let rowb := bits x.len 39 20
  .need (rowb ≥ 1 && bits x.len 19 0 == 0 && x.sfmt == 0 && x.dfmt == 0 && x.rnd == 0 && x.mask == 0 && x.red == 0) 1 <|
  (landName s cn cn x).check <| .ok ({ x with prog := [0] }, s)

/-- `mcast.q` (R274): arrivals that fail at the start are marked dropped; one that reaches a CONF handle of another address space ends the
command (R409). -/
def startMcast (s : State) (cn asid : Nat) (x : Cmd) : Eres (Cmd × State) :=
  let n := bits x.len 39 0
  .need (bits x.len 63 40 == 0 && x.mask != 0 && bits x.land 63 62 == 0 && x.sk == 0 && x.dk == 0 && x.sfmt == 0 && x.dfmt == 0 &&
      x.rnd == 0 && x.red == 0 && x.arg == 0 && x.aux == 0) 1 <|
  (endRead s x cn asid 0 x.src 0 n).bind fun (b, s) =>
  let q0 := cn / 4 * 4
  let tgts := (upTo 4).filter fun i => bit x.mask i
  .need (tgts.all fun i => match engWord s x (q0 + i) asid x.dst 0 n with | .stop (.bad c) => c != 0x04 | _ => true) 4 <|
  let ok := tgts.filter fun i => match engWord s x (q0 + i) asid x.dst 0 n with | .ok _ => true | _ => false
  let drop := ((tgts.filter fun i => !ok.contains i).map fun i => 2 ^ i).sum
  let ps := ok.flatMap fun i => piecesOf s (q0 + i) 0 x.dst 0 b none
  let gone := n * ((tgts.filter fun i => !ok.contains i && q0 + i != cn).length)
  .ok ({ x with pieces := ps, drop := drop, count := n }, addPbc (pbcPieces s cn ps) cn gone)

/-- `rst` (R275): the bytes enter the combining buffer. -/
def startRst (s : State) (cn asid : Nat) (x : Cmd) : Eres (Cmd × State) :=
  let n := bits x.len 39 0
  .need (bits x.len 63 40 == 0 && x.dk == 1 && x.sfmt == x.dfmt && x.rnd == 0 && x.mask == 0 && x.red == 0 && x.arg == 0 && x.aux == 0) 1 <|
  match xlat s cn asid x.dst with
  | .fail r => .stop (.ofWalk x.dst r)
  | .loc .. => .bad 0x05
  | .win wn w _ sp =>
    if winTgt w = 2 then .bad 0x05
    else if !hasRight (winRights w) rW || n > sp then .bad 0x04
    else
      let land : Eres (Option Word) := match bits x.land 63 62 with
        | 0 => if winTgt w = 1 then .ok (some (BitVec.ofNat 64 x.land)) else .bad 0x01
        | 1 => match xlat s cn asid (bits x.land 55 0) with
          | .win _ lw _ _ => if winTgt lw != 2 then .bad 0x05 else if winPkg lw != winPkg w then .bad 0x01
              else if hasRight (winRights lw) rA then .ok (some (BitVec.ofNat 64 x.land)) else .bad 0x04
          | .loc .. => .bad 0x05
          | .fail r => .stop (.ofWalk (bits x.land 55 0) r)
        | _ => .ok none
      land.bind fun land =>
      (endRead s x cn asid x.sk x.src 0 n).bind fun (b, s) => .ok ({ x with count := n }, combStore s cn wn w x.dst b land)

/-- The requests of an `rld`: parts of the source, line by line, with the offset in the destination. -/
def rldParts (s : State) (cn asid : Nat) (x : Cmd) (n : Nat) : Eres (List (Nat × Nat × Nat × XRes)) :=
  (xsplit s cn asid (n + 1) x.src 0 n).foldl (fun acc (a, off, k, r) => acc.bind fun l =>
    match r with
    | .fail f => .stop (.ofWalk a f)
    | .loc _ kd rt _ _ _ => if kd = kVERSIONED || kd = kCOUNTER then .bad 0x05 else if hasRight rt rR then .ok (l ++ [(a, off, k, r)]) else .bad 0x03
    | .win _ w _ sp =>
      if winTgt w = 1 then .bad 0x04 else if winTgt w = 2 then .bad 0x05
      else if !hasRight (winRights w) rR || sp < n - off then .bad 0x04 else .ok (l ++ [(a, off, k, r)])) (.ok [])

/-- `rld` (R276): a part of the source behind a window is asked for line by line, each line on its lane. LAND names a local counter; one that
reaches a COUNTER window ends the command with KIND_ACCESS (log 106). -/
def startRld (s : State) (cn asid : Nat) (x : Cmd) : Eres (Cmd × State) :=
  let n := bits x.len 39 0
  .need (bits x.len 63 40 == 0 && x.sk == 1 && x.sfmt == x.dfmt && x.rnd == 0 && x.mask == 0 && x.red == 0 && x.arg == 0 && x.aux == 0) 1 <|
  (landName s cn cn x).check <|
  .need (match landName s cn cn x with | .far .. => false | _ => true) 5 <|
  (rldParts s cn asid x n).bind fun parts =>
  (endCheck s x cn asid x.dk x.dst 0 n).bind fun _ =>
  let s := flushComb s cn fun e => n != 0 && x.src / 128 ≤ e.line && e.line ≤ (x.src + n - 1) / 128
  parts.foldl (fun acc (a, off, k, r) => acc.bind fun (x, s) =>
    match r with
    | .loc pa _ _ _ _ _ => (engRead s cn asid a [(pa, k)]).bind fun (b, s) =>
      let ps := piecesOf s cn x.dk x.dst off b none
      .ok ({ x with pieces := x.pieces ++ ps }, pbcPieces s cn ps)
    | .win _ w o _ =>
      .ok ((cutLines 128 (k + 1) a (List.replicate k 0)).foldl (fun (x, s) (la, l) =>
        let (t, s) := newTag s ⟨2, cn, x.id, l.length, none⟩
        let p := winRequest s w la (o + (la - a)) 0x02 (l.length - 1) l.length t []
        ({ x with pieces := x.pieces ++ piecesOf s cn x.dk x.dst (off + (la - a)) l (some t) }, coreSend s cn p)) (x, s))
    | .fail _ => .ok (x, s)) (.ok (x, s))

/-- Element size of a reduction (R277). -/
def redElem (e : Nat) : Nat := match e with | 0 => 4 | 1 => 2 | 2 => 4 | _ => 8

/-- Sends a contribution (R386): packets of at most 4,096 data bytes, of which 4,080 are elements (log 21), all under one tag. -/
def redSend (s : State) (cn : Nat) (x : Cmd) (b : List Byte) (tag : Nat) : State :=
  let es := redElem (bits x.red 6 5)
  (upTo ((b.length + 4079) / 4080)).foldl (fun s k =>
    let d := slice b (4080 * k) 4080
    coreSend s cn
              { dpkg := bits x.len 47 34, spkg := pkgNo s, lane := 0, hop := 0, rsp := false, op := 0x06, len := d.length, key := 0,
                addr := bits x.len 33 22 * 2 ^ 32 + 4080 * k / es, tag := tag, ggen := bits x.len 21 14,
                aux := bits x.len 63 48 + x.red * 2 ^ 16, pre := [bits x.aux 31 0, bits x.aux 63 32, bits x.len 13 0], data := d, port := 999 }) s

/-- The names of a reduction: HOME, GROUP, GEN, SEQ. -/
def Cmd.redKey (x : Cmd) : Nat := bits x.len 63 14

/-- `rred` (R277, R278): `prog` holds tag, device time of its time-out, device time of its next retry, back-off in µs, bytes of the
reply taken; a set drop says that the reply has come or the time has run out. -/
def startRred (s : State) (cn asid : Nat) (x : Cmd) : Eres (Cmd × State) :=
  let el := bits x.red 6 5
  let mode := bits x.red 4 3
  let op := bits x.red 2 1
  let l := bits x.len 13 0
  .need (x.sfmt == 0 && x.dfmt == 0 && x.rnd == 0 && x.mask == 0 && mode != 3 && op != 3 && (mode != 2 || (el == 0 && op == 0)) &&
      (!bit x.red 0 || (el ≥ 2 && op == 0)) && l ≥ 1 && (el != 3 || l % 2 == 0) && 1 ≤ bits x.aux 63 32 && bits x.aux 63 32 ≤ 2 ^ 31 &&
      bits x.aux 31 0 < bits x.aux 63 32 &&
      !(coreAt s cn).f.cmds.any fun y => y.id != x.id && y.op == 7 && y.started && y.redKey == x.redKey) 1 <|
  (landName s cn cn x).check <|
  (endCheck s x cn asid x.dk x.dst 0 (4 * l)).bind fun _ =>
  (endTake s x cn asid x.sk x.src 0 (4 * l) rRED).bind fun (b, s) =>
  let (t, s) := newTag s ⟨7, cn, x.id, 0, none⟩
  .ok ({ x with prog := [t, s.dev + nsDev (1000 * (x.arg + 1)), 0, 1, 0], waits := [t] }, redSend s cn x b t)

/-- Slots of a channel (R280): six bits hold 2 to 64, so 0 stands for 64 (log 84). -/
def collDepth (x : Cmd) : Nat := if bits x.arg 27 22 = 0 then 64 else bits x.arg 27 22

/-- `coll` (R280): its record and peer table are checked; `prog` holds the number of transfers made. -/
def startColl (s : State) (cn asid : Nat) (x : Cmd) : Eres (Cmd × State) :=
  let nlev := bits x.arg 31 29
  let chan := bit x.arg 28
  let depth := bits x.arg 27 22
  let npeer := bits x.len 63 48
  let lv := fun l => slice x.recb (64 + 32 * l) 32
  let lvOk := fun l =>
    let b := lv l
    leNat (slice b 4 4) ≥ 1 && leNat (slice b 28 4) == 0 && (l + 1 == nlev || leNat (slice b 0 4) == 0) &&
    (!chan || (leNat (slice b 16 8) == 0 && leNat (slice b 24 2) == 0))
  let chunk := leNat (slice (lv (nlev - 1)) 0 4)
  .need (1 ≤ nlev && nlev ≤ 6 && x.dk == 0 && x.sfmt == 0 && x.dfmt == 0 && x.rnd == 0 && x.mask == 0 && x.red == 0 &&
      (if chan then depth != 1 && chunk % 120 == 0 else depth == 0 && bits x.arg 21 13 == 0 && bits x.len 31 0 == 0) &&
      bits x.arg 12 0 == 0 && bits x.len 47 32 == 0 && npeer ≥ 1 && (upTo nlev).all lvOk &&
      (bits x.land 63 62 == 0 || bits x.land 63 62 == 2) && bits x.aux 55 32 == 0) 1 <|
  (endRead s x cn asid 0 x.aux 0 (2 * npeer)).bind fun _ => .ok ({ x with prog := [0] }, s)

/-- `disp` (R282): `prog` holds token, rank, state of the claim (0 none, 1 awaited, 2 returned), its value, tokens dropped, rows placed by
rank, then the ids of dropped tokens. The whole tables of choices and experts are checked here; where that fails, no status row is written
(log 107). -/
def startDisp (s : State) (cn asid : Nat) (x : Cmd) : Eres (Cmd × State) :=
  let shape := x.w 4
  let k := bits shape 7 4
  let nt := bits shape 43 24
  .need ((x.w 1) % 2 ^ 57 == 0 && !bit (x.w 1) 56 && bits shape 3 0 == 0 && bits shape 63 44 % 8 == 0 && nt ≥ 1 &&
      bits shape 23 8 ≥ 1 && 1 ≤ k && k ≤ 8 && bits (x.w 9) 63 32 == 0 && (bits x.land 63 62 == 0 || bits x.land 63 62 == 2)) 1 <|
  (endRead s x cn asid 0 (x.w 3) 0 (8 * nt * k)).bind fun _ =>
  (endRead s x cn asid 0 (x.w 7) 0 (16 * bits shape 23 8)).bind fun _ =>
  (endCheck s x cn asid 0 (x.w 8) 0 128).bind fun _ => .ok ({ x with prog := [0, 0, 0, 0, 0] ++ List.replicate 8 0 }, s)

/-- Marks a handle of a core as held, released or CONF (R408, R409). -/
def setHeld (s : State) (cn h v : Nat) : State := modCore s cn fun c => { c with m := { c.m with hheld := if v = 0 then spDel c.m.hheld h else spSet c.m.hheld h v } }

/-- The read and decryption of a `ccpy` whose handle is held (R407): `prog` holds key slot, counter, and 1 when the handle is to be zeroed;
`h` and `e` are what a read of host memory brings: its bytes and whether it failed, as it does without the stream that R402 asks for. A read that parks keeps the handle held, the die's engine
with it, and in `prog` the slot's contents as read (log 108). -/
def runCcpy (s : State) (cn asid : Nat) (x : Cmd) (slotNo key salt h : Nat) (e : Bool) : Cmd × State :=
  let n := bits x.len 39 0
  let hn := bits x.dst 63 56
  let gen := (handle (coreAt s cn) hn).gen
  let got : Eres (List Byte × State) := if bit x.arg 0 then (if e || !streamOk s (ownerOf s asid) then .bad 0x03 else .ok (toBytes h (n + 16), s)) else endRead s x cn asid 1 x.src 0 (n + 16)
  match got with
  | .stop (.bad c) => ({ x with code := c, prog := [slotNo, x.aux, 1] }, s)
  | .stop (.walk a) => ({ x with code := 0x03, prog := [slotNo, x.aux, 1] }, walkNote s asid a 8)
  | .stop (.park a) => ({ x with started := false, parked := some (asid, a), drop := 1, prog := [slotNo, key, salt] }, engPark s cn x.id asid a)
  | .ok (b, s) =>
    let ct := (b.take n).map BitVec.toNat
    let iv := beBytes salt 4 ++ beBytes x.aux 8
    let keys := aesKeys (beBytes key 32)
    if gcmTag keys iv ct != (b.drop n).map BitVec.toNat then ({ x with code := 0x08, prog := [slotNo, x.aux, 1] }, s)
    else ({ x with prog := [slotNo, x.aux, 0], pieces := [⟨cn, false, hn, gen, bits x.dst 31 0, (gcmText keys iv ct).map (BitVec.ofNat 8), none, 0⟩] }, s)

/-- `ccpy` (R407): the checks in their order, the hold, then the read. One that goes on after parking has passed them. A LEN above the handle's
size breaks the record; one that does not fit behind the offset fails R55. -/
def startCcpy (s : State) (cn asid : Nat) (x : Cmd) (h : Nat) (e : Bool) : Eres (Cmd × State) :=
  let n := bits x.len 39 0
  let slotNo := dieOf cn * 1024 + bits (x.w 8) 63 48
  if x.drop = 1 then .ok (runCcpy s cn asid { x with drop := 0 } slotNo (x.prog.getD 1 0) (x.prog.getD 2 0) h e) else
  .need (x.sk == 1 && x.dk == 0 && x.sfmt == 0 && x.dfmt == 0 && x.rnd == 0 && x.mask == 0 && x.red == 0 && bits x.arg 31 1 == 0 && n ≥ 1 &&
      bits x.len 63 40 == 0 && bits (x.w 8) 47 0 == 0 && bits (x.w 8) 63 48 < 1024 &&
      (!(handle (coreAt s cn) (bits x.dst 63 56)).valid || n ≤ (handle (coreAt s cn) (bits x.dst 63 56)).size)) 1 <|
  (landName s cn cn x).check <|
  match spFind s.sec.slots slotNo with
  | none => .bad 0x01
  | some ks =>
    if !ks.valid then .bad 0x01 else if ks.asid != asid then .bad 0x04 else
    (engWord s x cn asid x.dst 0 n).bind fun en =>
    if en.shadow then .bad 0x02
    else if x.aux ≤ ks.lastCtr then .bad 0x09
    else .ok (runCcpy (setHeld s cn (bits x.dst 63 56) 1) cn asid x slotNo ks.key.toNat ks.salt.toNat h e)

/-- A record that does not use LAND holds zero there, or KIND 10 (R270). -/
def noLand (x : Cmd) : Bool := x.land == 0 || bits x.land 63 62 == 2

/-- `task` (R285): `prog` holds the queue, the record follows the command's own. -/
def startTask (s : State) (cn asid : Nat) (x : Cmd) : Eres (Cmd × State) :=
  .need (x.sk == 0 && x.dk == 0 && x.sfmt == 0 && x.dfmt == 0 && x.rnd == 0 && x.mask == 0 && x.red == 0 && bits x.arg 31 16 == 0 &&
      x.dst == 0 && x.len == 0 && x.aux == 0 && noLand x) 1 <|
  (endRead s x cn asid 0 x.src 0 64).bind fun (b, s) => .ok ({ x with prog := [bits x.arg 15 0], recb := x.recb ++ b }, s)

/-- `frec.rd`, `frec.wr` (R286). -/
def startFrec (s : State) (cn asid : Nat) (x : Cmd) : Eres (Cmd × State) :=
  let c := coreAt s cn
  .need (x.sk == 0 && x.dk == 0 && x.sfmt == 0 && x.dfmt == 0 && x.rnd == 0 && x.mask == 0 && x.red == 0 && x.arg == 0 && x.len == 0 && x.aux == 0 &&
      (if x.op = 0x10 then x.src == 0 else x.dst == 0) && noLand x && c.q.inHandler) 1 <|
  if x.op = 0x10 then (endCheck s x cn asid 0 x.dst 0 256).bind fun _ => .ok ({ x with pieces := piecesOf s cn 0 x.dst 0 c.q.tbuf none }, s)
  else (endRead s x cn asid 0 x.src 0 256).bind fun (b, s) => .ok ({ x with recb := x.recb ++ b }, s)

/-- Starts a record command by its opcode. -/
def startRec (s : State) (cn asid : Nat) (x : Cmd) (h : Nat) (e : Bool) : Eres (Cmd × State) :=
  -- a `ccpy` that goes on after parking has passed the checks of its start (R407)
  if x.op = 0x0B && x.drop = 1 then startCcpy s cn asid x h e else
  .need (recOk x) 1 <|
  (cname s cn asid x.done rA cn).check <|
  match x.op with
  | 1 => startCpy s cn asid x
  | 2 | 3 => startGat s cn asid x
  | 4 => startMcast s cn asid x
  | 5 => startRst s cn asid x
  | 6 => startRld s cn asid x
  | 7 => startRred s cn asid x
  | 9 => startColl s cn asid x
  | 0x0A => startDisp s cn asid x
  | 0x0B => startCcpy s cn asid x h e
  | 0x0C => startTask s cn asid x
  | _ => startFrec s cn asid x

/-- SCOPE of a counter command, the default resolved (R105, R267): whether it waits for writes to other packages. -/
def relFabric (s : State) (cn : Nat) (x : Cmd) : Bool :=
  let sc := bits x.x.toNat 61 59
  if sc = 0 then
    match cname s cn (asidOf (coreAt s cn)) x.x.toNat rA cn with
    | .far w _ _ => winPkg w != pkgNo s
    | _ => false
  else sc == 5

/-- Whether nothing of a command's own keeps it from starting: its core is not stopped (R266), its tokens are done (R35), earlier stores of
the core have been performed (R36), for a release every earlier G operation and fill (R105, R268, R279). A store that is parked holds no
command back: R36 and R360 do not say (log 109). -/
def startable (c : Core) (x : Cmd) : Bool :=
  !x.started && !c.q.stopped && !c.halted && x.parked.isNone && x.cons.all (fun t => !c.r.tok.getLsbD t) &&
  (if x.op = 8 || x.op = 0x0D || x.op = 0x0E then (c.f.gq.all fun g => g.seq ≥ x.seq) && !(x.op != 8 && fillBefore c x.seq)
   else c.f.gq.all fun g => g.seq ≥ x.seq || g.kind.writesReg || (match g.st with | .parked _ _ => true | _ => false))

/-- The crypto engine of a die serves its cores round-robin, one command at a time (R261): it is free, and it is core `cn`'s turn among
those that have a command to start. -/
def cryptoTurn (s : State) (cn : Nat) (x : Cmd) : Bool :=
  let die := s.cores.filter fun (n, _) => dieOf n == dieOf cn
  let last := spGet 0 s.sec.turns (dieOf cn)
  let dist := fun (n : Nat) => (n + 384 - last - 1) % 192
  !(die.any fun (n, k) => k.f.cmds.any fun y => y.op == 0x0B && (y.started || (y.drop == 1 && !(n == cn && y.id == x.id)))) &&
  !(die.any fun (n, k) => dist n < dist cn && k.f.cmds.any fun y => y.op == 0x0B && startable k y)

/-- Whether a command may start now. -/
def mayStart (s : State) (cn : Nat) (x : Cmd) : Bool := startable (coreAt s cn) x && (x.op != 0x0B || cryptoTurn s cn x)

/-- The choice of an engine among startable commands without token order, when a log records or replays it (R424, R425). -/
def startGate (s : State) (cn asid : Nat) (x : Cmd) : Bool × State :=
  let e := (engOf x.op x.x).1
  let l := (coreAt s cn).f.cmds.filter fun y => (engOf y.op y.x).1 == e && mayStart s cn y
  match findIdxOf (fun (y : Cmd) => y.id == x.id) l with
  | some (i, _) => rplGate s asid (0x2000 + 16 * cn + e) (2 ^ min 16 l.length - 1) (i % 16)
  | none => (true, s)

/-- The writes that a release of command `x` waits for (R105, R279): those of the core's slots, and of the commands whose tokens it
consumes. -/
def writesBefore (c : Core) (x : Cmd) (fab : Bool) : List Unacked :=
  c.f.unacked.filter fun u => (fab || !u.fabric) && (match u.eng with | none => true | some t => x.cons.contains t)

/-- ENGINE_COMMAND_START: command `i` of core `c` starts (R262, R264, R279). `h` and `e` serve a `ccpy` that reads host memory. -/
def execEngineCommandStart (c i h e : Nat) (s : State) : Out :=
  match cmdAt s c i with
  | none => .next s
  | some x =>
    if !mayStart s c x then .next s else
    let asid := asidOf (coreAt s c)
    let (go, s) := startGate s c asid x
    if !go then .next s else
    if x.op = 8 then
      let s := flushComb s c fun _ => true
      .next (modCmd s c x.id fun y => { y with started := true, prog := [0] })
    else if x.op = 0x0D || x.op = 0x0E then
      let fab := relFabric s c x
      let s := flushComb s c fun e => fab || combLocal s e
      .next (modCmd s c x.id fun y => { y with started := true, prog := (writesBefore (coreAt s c) x fab).map Unacked.tag })
    else if x.op = 0x0F then .next (modCmd s c x.id fun y => { y with started := true })
    else match recHere s c x with
      | none => .next (tokenDone (modCore s c fun k => countEv k 0x10 1) c x)
      | some en =>
        let n := if x.op = 9 then recSize s c 9 x.recw else recSize s c x.op x.recw
        let x := { x with started := true, recb := if x.recb.isEmpty then hRead s c en (bits x.recw.toNat 31 0) n else x.recb }
        let x := if x.gens.isEmpty then { x with gens := gensNow s c x } else x
        let s := if x.op = 0x0B then { s with sec := { s.sec with turns := spSet s.sec.turns (dieOf c) c } } else s
        match startRec s c asid x h (e != 0) with
        | .ok (x', s) => .next (modCmd s c x.id fun _ => x')
        | .stop (.bad 9) => .next (defer (modCmd s c x.id fun _ => { x with code := 9 }) c 0x18 x)
        | .stop (.park a) => .next (engPark (modCmd s c x.id fun _ => { x with started := false }) c x.id asid a)
        | .stop e => .next (engStop (modCmd s c x.id fun _ => x) c x.id asid e)

/-! ## Placing pieces -/

/-- What becomes of the handle that a `ccpy` holds (R407 to R409): released as CONF where the command ends OK, else held until it is freed,
and zeroed after a failed read or tag. -/
def endCcpy (s : State) (cn : Nat) (x : Cmd) : State :=
  let hn := bits x.dst 63 56
  if spGet 0 (coreAt s cn).m.hheld hn != 1 then s
  else if x.prog.getD 2 0 = 1 then
    let e := handle (coreAt s cn) hn
    setHeld (if e.valid then hWrite s cn e 0 (List.replicate e.size 0) else s) cn hn 2
  else setHeld s cn hn (if x.code = 0 then 3 else 2)

/-- The message counter of a `ccpy` whose tag was right is the last one accepted (R407, R411). -/
def keepCtr (s : State) (x : Cmd) : State :=
  { s with sec := { s.sec with slots := s.sec.slots.map fun (k, v) => if k = x.prog.getD 0 0 then (k, { v with lastCtr := x.prog.getD 1 0 }) else (k, v) } }

/-- A `ccpy` whose landing counter has been advanced on this package releases its handle at once (R407). -/
def ccpyLanded (s : State) (cn id : Nat) : State :=
  match cmdById s cn id with
  | some y => if y.op = 0x0B && y.waits.isEmpty then endCcpy s cn y else s
  | none => s

/-- Whether a piece goes to a stack of another die than its core's, and so through its quad's port (R12, R14). -/
def pieceFar (s : State) (cn : Nat) (p : Piece) : Bool :=
  p.isVa && (match engSegs s cn (asidOf (coreAt s cn)) p.at_ p.data.length rW with | .ok l => l.any fun (pa, _) => farStack s cn pa | .stop _ => false)

/-- The pieces of a line wait for a flit of the quad's port (R14). -/
def pieceToPort (s : State) (cn : Nat) (x : Cmd) (p : Piece) : State :=
  portPut (modCmd s cn x.id fun y => { y with pieces := y.pieces.map fun q => if q.isVa && q.at_ / 128 = p.at_ / 128 then { q with hub := 1 } else q })
    cn 1 (.piece x.id p.at_)

/-- Places one piece: the bytes, then the landing add (R106). `rest` are the pieces that then remain: after a failure none of them is
written. -/
def placePiece (s : State) (cn : Nat) (x : Cmd) (p : Piece) (rest : List Piece) : State :=
  let asid := asidOf (coreAt s cn)
  let n := p.data.length
  let noAdd : Bool := x.op == 0x10 || x.code == 6
  let unPbc := fun (s : State) => pbcDone s cn [p]
  let landed := fun (s : State) =>
    if noAdd then s else
    let (s, o, t) := engAdd s cn (landName s cn p.core x) n x.id
    modCmd s cn x.id fun y => { y with code := if o then 0x0A else y.code, waits := match t with | some t => t :: y.waits | none => y.waits,
                                       count := if x.op = 4 then y.count else if o && x.op = 0x0B then 0 else y.count + n }
  let ended := fun (s : State) => modCmd (pbcDone s cn (p :: rest)) cn x.id fun y => { y with pieces := [] }
  let drop := fun (code : Nat) => ended (engStop s cn x.id asid (.bad code))
  let stop := fun (e : Stop) => match e with
    | .park _ => engStop (modCmd s cn x.id fun y => { y with pieces := p :: y.pieces }) cn x.id asid e
    | e => ended (engStop s cn x.id asid e)
  match (if noAdd then CName.none else landName s cn p.core x) with
  | .stop e => stop e
  | _ =>
  if p.isVa then
    match engSegs s cn asid p.at_ n rW with
    | .ok l => landed (unPbc (l.foldl (fun (s, b) (pa, k) => (hbmWrite s pa (b.take k), b.drop k)) (s, p.data)).1)
    | .stop e => stop e
  else
    let e := handle (coreAt s p.core) p.h
    let ok : Bool := e.valid && e.gen == p.gen && (x.op == 0x0B || !e.held) && p.at_ + n ≤ e.size
    if ok && spGet 0 (coreAt s p.core).m.hheld p.h == 3 && asidOf (coreAt s p.core) != asid then drop 0x04
    else if ok then
      let s := hWrite s p.core e p.at_ p.data
      let s := if x.op = 0x10 then modCmd s cn x.id fun y => { y with count := y.count + n } else s
      let s := landed (unPbc s)
      if x.op = 0x0B then ccpyLanded (keepCtr s x) cn x.id else s
    else if x.op = 4 then modCmd s cn x.id fun y => { y with drop := y.drop ||| 2 ^ (p.core % 4), pieces := y.pieces.filter fun q => q.core != p.core }
    else drop 0x02

/-- A release's earlier writes have been placed (R268). One known to have been dropped is no longer waited for (R293, log 82). -/
def tagsGone (c : Core) (l : List Nat) : Bool := c.f.unacked.all fun u => u.acked || u.lost || !l.contains u.tag

/-- Every write of an `rflush` has been placed and acknowledged (R279). -/
def allAcked (c : Core) (l : List Nat) : Bool := c.f.unacked.all fun u => u.acked || !l.contains u.tag

/-- The piece that an `rld` or an `rred` places next where a fragment stands (R264): the fragments of its line, once every read for them has
returned. -/
def linePiece (l : List Piece) (p : Piece) : Option (Piece × List Piece) :=
  let sz := if p.isVa then 128 else 512
  let mine := fun (q : Piece) => q.at_ / sz == p.at_ / sz
  let g := l.filter mine
  if g.any fun q => q.tag.isSome then none else
  let lo := (g.map Piece.at_).foldl min p.at_
  let len := (g.map fun q => q.data.length).sum
  some ({ p with at_ := lo, data := g.foldl (fun b q => patch b (q.at_ - lo) q.data) (List.replicate len 0) }, l.filter fun q => !mine q)

/-- A counter command is applied (R268, R269), or its request goes out. A page that has changed since the checks at issue is reported as a
missing right is: of the causes of R367 only KEY_CHECK, COUNTER_OVERFLOW and IV_REUSE are deferred (log 110). -/
def applyCounter (s : State) (cn : Nat) (x : Cmd) : State :=
  let asid := asidOf (coreAt s cn)
  let poll := x.op == 0x0F
  match cname s cn asid x.x.toNat (if poll then rR else rA) cn with
  | .at_ c =>
    let v := ctrRead s c
    let s := ctrSeen s asid c
    if poll then tokenDone (modCore s cn fun k => setP k x.pd (ctrReached v (x.y.toNat % 2 ^ 63))) cn x
    else
      let (v', o) := if x.op = 0x0D then ctrAdd v x.y.toNat else ctrRaise v x.y.toNat
      let s := if o then defer s cn 0x0F x else ctrWrite s v' c
      tokenDone s cn x
  | .far w va o =>
    let (t, s) := newTag s ⟨4, cn, x.id, 8, none⟩
    let s := if poll then s else addPbc s cn 8
    coreSend (modCmd s cn x.id fun y => { y with waits := [t] }) cn
      (winRequest s w va o 0x04 (if poll then 2 else if x.op = 0x0D then 0 else 1) 8 t (toBytes x.y.toNat 8))
  | .stop (.park a) => engPark s cn x.id asid a
  | .stop (.walk a) => tokenDone (defer (walkNote s asid a 8) cn 0x0C x) cn x
  | .stop (.bad _) => tokenDone (defer s cn 0x0C x) cn x
  | .none => tokenDone s cn x

/-- The reply to a counter command's request: the word read, or the cause of a refusal (R268, R269). -/
def counterReply (s : State) (cn : Nat) (x : Cmd) (v : Option Word) (cause : Nat) : State :=
  let s := if x.op = 0x0F then s else modCore s cn fun c => { c with r := { c.r with pbc := c.r.pbc - 8 } }
  if cause != 0 then tokenDone (defer s cn cause x) cn x
  else match v with
    | some v => if x.op = 0x0F then tokenDone (modCore s cn fun k => setP k x.pd (ctrReached v (x.y.toNat % 2 ^ 63))) cn x else tokenDone s cn x
    | none => tokenDone s cn x

/-! ## The walker and the dispatch engine -/

/-- Level fields of a `coll` record (R280). -/
def collLevel (x : Cmd) (l : Nat) : List Byte := slice x.recb (64 + 32 * l) 32

def collBounds (x : Cmd) : List Nat := (upTo (bits x.arg 31 29)).map fun l => leNat (slice (collLevel x l) 4 4)

/-- The iteration numbers of transfer `k`, innermost fastest (R281). -/
def collIter (k : Nat) (bs : List Nat) : List Nat :=
  (bs.foldr (fun b (acc : List Nat × Nat) => (acc.2 % b :: acc.1, acc.2 / b)) ([], k)).1

/-- Transfers of a `coll` in all. -/
def collTotal (x : Cmd) : Nat := (collBounds x).foldl (· * ·) 1

/-- Writes of one transfer of a command: bytes by lines of the target, each with the bytes it counts for. -/
def sendLines (s : State) (cn tok : Nat) (w : List Nat) (dst : Nat) (land : Option Word) (l : List (Nat × List Byte × Nat)) : State :=
  l.foldl (fun s (o, b, n) => sendWrite s cn w (winBase w + dst + o) (dst + o) b b.length none land n (some tok)) s

/-- A wait of an engine on a counter that has not been reached (R109): it takes an entry of the die's monitor table, or polls. -/
def engWait (s : State) (cn : Nat) (x : Cmd) : State :=
  if x.reg || (x.ivl != 0 && s.dev < x.poll) then s else
  let i := if x.ivl = 0 then 64 else min 4000 (2 * x.ivl)
  let free := monFree s (dieOf cn)
  modCmd s cn x.id fun y => { y with reg := free, poll := s.dev + nsDev i, ivl := i }

/-- Whether a command that waits on a counter sees it now. -/
def engLooks (s : State) (x : Cmd) : Bool := x.ivl == 0 || x.reg || x.poll ≤ s.dev

/-- COLL_TRANSFER: the `coll` at place `i` of core `c` sends its next transfer, in channel mode once CRED allows (R281). -/
def execCollTransfer (c i : Nat) (s : State) : Out :=
  match cmdAt s c i with
  | none => .next s
  | some x =>
    let k := x.prog.getD 0 0
    if x.op != 9 || !x.started || x.parked.isSome || x.code != 0 || x.prog.isEmpty || k ≥ collTotal x || (coreAt s c).q.stopped ||
      (coreAt s c).halted then .next s else
    let nlev := bits x.arg 31 29
    let chan := bit x.arg 28
    let depth := collDepth x
    if chan && k + 1 > depth && !(engLooks s x && ctrReached (ctGet (coreAt s c) (bits x.arg 21 13)) (k + 1 - depth)) then .next (engWait s c x) else
    let asid := asidOf (coreAt s c)
    let it := (collIter k (collBounds x)).zipIdx
    let sum := fun (off n : Nat) => (it.map fun (v, l) => sextN (8 * n) (leNat (slice (collLevel x l) off n)) * (v : Int)).sum
    let pb := ((upTo nlev).map fun l => sextN 16 (leNat (slice (collLevel x l) 26 2))).sum
    let peer := ((sum 24 2 + pb) % (bits x.len 63 48 : Int)).toNat
    let chunk := leNat (slice (collLevel x (nlev - 1)) 0 4)
    let stop := fun (s : State) (code : Nat) => Host.Outcome.next (modCmd s c x.id fun y => { y with code := code })
    match endRead s x c asid 0 x.aux (2 * peer) 2 with
    | .stop e => .next (engStop s c x.id asid e)
    | .ok (pe, s) =>
      let wn := leNat pe
      let w := winWords s asid (wn % 4096)
      let dst : Int := if chan then (x.dst : Int) + (k % depth * (chunk / 120) * 128 : Nat) else (x.dst : Int) + sum 16 8
      let span := if chan then chunk / 120 * 128 else chunk
      if wn ≥ 4096 then stop s 1
      else if !winLive w || winTgt w != 1 || winKey w = 0 || !hasRight (winRights w) rW || dst < 0 || (winSize w != 0 && dst.toNat + span > winSize w) then stop s 4
      else
        let src : Int := (x.src : Int) + sum 8 8
        match endRead s x c asid x.sk ((src % 2 ^ 64).toNat) 0 chunk with
        | .stop e => .next (engStop s c x.id asid e)
        | .ok (b, s) =>
          let land := if bits x.land 63 62 = 0 then some (BitVec.ofNat 64 x.land) else none
          let lines := if chan then
              (upTo (chunk / 120)).map fun j => (128 * j, slice b (120 * j) 120 ++ toBytes (bits x.len 31 0 + k + 1) 8, 120)
            else (cutLines 128 (chunk + 1) (winBase w + dst.toNat) b).map fun (a, l) => (a - (winBase w + dst.toNat), l, l.length)
          let s := sendLines s c x.tok w dst.toNat land lines
          .next (modCmd s c x.id fun y => { y with prog := [k + 1], count := y.count + 1, reg := false, poll := 0, ivl := 0 })

/-- Expert entry `e` of a `disp` record (R282): window, capacity, offset, claim address. -/
def dispExpert (s : State) (cn asid : Nat) (x : Cmd) (e : Nat) : Eres (Nat × Nat × Nat × Nat) :=
  (endRead s x cn asid 0 (x.w 7) (16 * e) 16).bind fun (b, _) =>
    let a := leNat (b.take 8)
    .ok (bits a 63 52, bits a 51 32, bits a 31 0, leNat (b.drop 8))

/-- Makes the next claim of a `disp`, or moves on over choices that name no expert (R283). Bits 47:32 of a choice entry are not looked at
(log 107). -/
def dispNext : Nat → State → Nat → Cmd → State
  | 0, s, _, _ => s
  | fuel + 1, s, cn, x =>
    let asid := asidOf (coreAt s cn)
    let shape := x.w 4
    let K := bits shape 7 4
    let t := x.prog.getD 0 0
    let r := x.prog.getD 1 0
    let put := fun (s : State) (x : Cmd) => modCmd s cn x.id fun _ => x
    if t ≥ bits shape 43 24 then put s x
    else if r ≥ K then
      let x := { x with prog := ((x.prog.set 0 (t + 1)).set 1 0).set 4 (x.prog.getD 4 0 + 1) ++ [(x.w 9 + t) % 2 ^ 32] }
      dispNext fuel s cn x
    else match endRead s x cn asid 0 (x.w 3) (8 * (t * K + r)) 8 with
      | .stop e => engStop (put s x) cn x.id asid e
      | .ok (ch, _) =>
        let e := bits (leNat ch) 63 48
        if e ≥ bits shape 23 8 then dispNext fuel s cn { x with prog := x.prog.set 1 (r + 1) }
        else match dispExpert s cn asid x e with
          | .stop e => engStop (put s x) cn x.id asid e
          | .ok (_, _, _, claim) =>
            if claim % 8 != 0 then put s { x with code := 5 } else
            match xlat s cn asid claim with
            | .fail f => engStop (put s x) cn x.id asid (.ofWalk claim f)
            | .loc pa k rt _ _ _ =>
              if k = kVERSIONED || k = kCOUNTER then put s { x with code := 5 }
              else if !hasRight rt rA then put s { x with code := 3 }
              else match engRead s cn asid claim [(pa, 8)] with
                | .stop e => engStop (put s x) cn x.id asid e
                | .ok (b, s) => put (hbmWrite s pa (toBytes (leNat b + 1) 8)) { x with prog := (x.prog.set 2 2).set 3 (leNat b) }
            | .win _ w o _ =>
              if winTgt w != 0 then put s { x with code := if winTgt w = 1 then 4 else 5 }
              else if !hasRight (winRights w) rA then put s { x with code := 4 }
              else
                let s := flushComb s cn fun e => e.line == claim / 128
                let (tg, s) := newTag s ⟨2, cn, x.id, 8, none⟩
                coreSend (put s { x with prog := x.prog.set 2 1, waits := [tg] }) cn (winRequest s w claim o 0x03 0 16 tg (toBytes 1 8 ++ toBytes 0 8))

/-- DISP_CLAIM: the `disp` at place `i` of core `c` makes its first claim, or takes the one that has returned: the row goes out, or the
next rank is tried (R283). -/
def execDispClaim (c i : Nat) (s : State) : Out :=
  match cmdAt s c i with
  | none => .next s
  | some x =>
    let asid := asidOf (coreAt s c)
    let shape := x.w 4
    let K := bits shape 7 4
    let rowb := bits shape 63 44
    let t := x.prog.getD 0 0
    let r := x.prog.getD 1 0
    let fuel := (bits shape 43 24 + 1) * (K + 1)
    if x.op != 0x0A || !x.started || x.parked.isSome || x.code != 0 || x.prog.isEmpty || t ≥ bits shape 43 24 || x.prog.getD 2 0 = 1 ||
      (coreAt s c).q.stopped || (coreAt s c).halted then .next s
    else if x.prog.getD 2 0 = 0 then .next (dispNext fuel s c x)
    else match endRead s x c asid 0 (x.w 3) (8 * (t * K + r)) 8 with
      | .stop e => .next (engStop s c x.id asid e)
      | .ok (ch, _) =>
        let e := bits (leNat ch) 63 48
        let x0 := { x with prog := x.prog.set 2 0 }
        match dispExpert s c asid x e with
        | .stop e => .next (engStop s c x.id asid e)
        | .ok (wn, cap, doff, _) =>
          let v := x.prog.getD 3 0
          if v ≥ cap then .next (dispNext fuel s c { x0 with prog := x0.prog.set 1 (r + 1) }) else
          let w := winWords s asid wn
          let dst := doff + v * (16 + rowb)
          if !winLive w || winTgt w != 1 || winKey w = 0 || !hasRight (winRights w) rW || (winSize w != 0 && dst + 16 + rowb > winSize w) then
            .next (modCmd s c x.id fun y => { y with code := 4 })
          else match endRead s x c asid x.sk (x.w 2) (t * rowb) rowb with
            | .stop e => .next (engStop s c x.id asid e)
            | .ok (row, s) =>
              let hd := toBytes (x.w 9 + t) 4 ++ toBytes e 2 ++ toBytes r 1 ++ toBytes 0 1 ++ toBytes (leNat ch) 4 ++ toBytes (pkgNo s) 2 ++ toBytes c 2
              let land := if bits x.land 63 62 = 0 then some (BitVec.ofNat 64 x.land) else none
              let lines := (cutLines 128 (rowb + 17) (winBase w + dst) (hd ++ row)).map fun (a, l) => (a - (winBase w + dst), l, l.length)
              let s := sendLines s c x.tok w dst land lines
              let x1 := { x0 with prog := ((x0.prog.set 0 (t + 1)).set 1 0).set (5 + r) (x0.prog.getD (5 + r) 0 + 1), count := x0.count + 1 }
              .next (dispNext fuel s c x1)

/-- The status row of a `disp` (R283). -/
def dispRow (x : Cmd) : List Byte :=
  let placed := (upTo 8).map fun r => x.prog.getD (5 + r) 0
  toBytes placed.sum 8 ++ toBytes (x.prog.getD 4 0) 8 ++ (placed.map fun n => toBytes n 4).flatten ++
  ((upTo 20).map fun k => toBytes (x.prog.getD (13 + k) 0xFFFFFFFF) 4).flatten

/-! ## Arbiters: banks of the scratchpad and counter units (R56, R104, R420, R424) -/

/-- Counts a lost grant (R420): requester and bank. -/
def confAdd (c : Core) (r b : Nat) : Core := { c with conf := spMod 0 c.conf (16 * r + b) (· + 1) }

/-- The bank of a line (R51). -/
def bankOf (line : Nat) : Nat := line / 384

/-- The requester that an engine is at the banks, numbered as in R420: copy, or gather and scatter. -/
def Cmd.requester (x : Cmd) : Nat := if x.op = 2 || x.op = 3 then 7 else 6

/-- Whether no request of its source and lane came before arrival `i`. -/
def rxHead (s : State) (i : Nat) (p : Packet) : Bool := !(s.hub.rx.take i).any fun q => q.spkg == p.spkg && q.lane == p.lane && q.rsp == p.rsp

/-- The lines of the scratchpad that a write at an offset of a handle reaches; none in SHADOW or outside. -/
def entLines (e : HEnt) (o n : Nat) : List Nat := if e.valid && !e.shadow && o + n ≤ e.size then touched e o n else []

/-- Lines that an arriving write to a handle of core `cn` reaches. -/
def ingressLines (s : State) (cn : Nat) (p : Packet) : List Nat :=
  if p.op = 1 && !p.rsp && bit p.aux 5 && bits p.aux 25 18 = cn then
    match keyCheck s p.key 1 rW p.addr p.data.length with
    | some (_, o) => entLines (handle (coreAt s cn) (bits p.aux 17 10)) o p.data.length
    | none => []
  else []

/-- Lines of a piece in a handle. -/
def pieceLines (s : State) (p : Piece) : List Nat := if p.isVa then [] else entLines (handle (coreAt s p.core) p.h) p.at_ p.data.length

/-- The asynchronous accesses to a core's banks that are ready, all of them writes: requester and line. -/
def asyncLines (s : State) (cn : Nat) : List (Nat × Nat) :=
  (s.hub.rx.zipIdx.flatMap fun (p, i) => if rxHead s i p then (ingressLines s cn p).map fun n => (5, n) else []) ++
  s.cores.flatMap fun (_, k) => k.f.cmds.flatMap fun x =>
    if x.started && x.parked.isNone then match x.pieces.find? fun p => p.tag.isNone with
      | some p => if p.core = cn then (pieceLines s p).map fun n => (x.requester, n) else []
      | none => []
    else []

/-- Requesters as a mask. -/
def maskOf (l : List Nat) : Nat := (l.eraseDups.map (2 ^ ·)).sum

/-- An asynchronous access of requester `r` to lines of core `cn`'s scratchpad asks for their banks, after the lock-stepped requesters have had
them in this cycle. One that loses retries; each cycle it has lost counts (R56, R420). Where several reach one line, the choice is recorded
or replayed (R424, R425). -/
def bankTry (s : State) (cn r : Nat) (ls : List Nat) : Bool × State :=
  let c := coreAt s cn
  let taken := if c.q.last = s.now + 1 then c.lines else []
  let lost := ((ls.map bankOf).eraseDups).filter (taken.map fun x => bankOf x.2).contains
  if !lost.isEmpty then
    (false, modCore s cn fun c => lost.foldl (fun c b => if c.asks.contains (r, b) then c else { confAdd c r b with asks := (r, b) :: c.asks }) c)
  else
    let meets := if rplMode s = 0 then [] else
      let l := asyncLines s cn
      ls.filterMap fun n => let k := (r :: (l.filter fun x => x.2 == n).map Prod.fst).eraseDups; if k.length < 2 then none else some (maskOf k)
    let (go, s) := meets.foldl (fun (acc : Bool × State) m => if acc.1 then rplGate acc.2 (asidOf c) cn m r else acc) (true, s)
    if !go then (false, s) else
    (true, modCore s cn fun c => { c with lines := ls.map (fun n => (r, n)) ++ taken, asks := c.asks.filter fun x => !(x.1 == r && (ls.map bankOf).contains x.2) })

/-- Whether a member that halts has finished the waits of R175. -/
def drained1 (c : Core) : Bool :=
  c.f.xops.isEmpty && c.f.wb.isEmpty && c.f.ratHead.isNone && c.f.fill.isNone && c.f.gq.isEmpty && c.f.drainq.isEmpty && c.f.comb.isEmpty && c.r.tok == 0

def haltDone (c : Core) : Bool := c.q.running && c.q.hold == .halt && c.q.holdG == .none && c.q.holdO == .none && drained1 c && c.r.pbc == 0

/-- The counter that an arriving counter operation reaches (R363). -/
def pktCounter (s : State) (p : Packet) : Option CtrAt :=
  let core := bits p.aux 25 18
  if p.op != 4 || p.rsp then none
  else if bits p.aux 4 0 = 5 && bit p.aux 5 then (keyCheck s p.key 1 rW 0 0).map fun _ => .file core (p.addr / 8)
  else (keyCheck s p.key 2 (if bits p.aux 4 0 = 2 then rR else rA) p.addr 8).map fun x => .file core (x.2 / 8)

/-- The counter that a started command is about to operate on: its own, or that of its next piece's landing. -/
def Cmd.counter (s : State) (cn : Nat) (x : Cmd) : Option CtrAt :=
  let at_ := fun (n : CName) => match n with | .at_ a => some a | _ => none
  if !x.started || x.parked.isSome then none else
  match x.pieces.find? fun p => p.tag.isNone with
  | some p => at_ (landName s cn p.core x)
  | none =>
    if x.op = 0x0D || x.op = 0x0E || x.op = 0x0F then (if x.waits.isEmpty then at_ (cname s cn (asidOf (coreAt s cn)) x.x.toNat (if x.op = 0x0F then rR else rA) cn) else none)
    else none

/-- The counter that the DONE add of a gang goes to, where its last member is about to retire. -/
def doneDue (s : State) (g : Gang) : Option CtrAt :=
  if g.state ≤ 1 && recDoneV g.bytes && g.cores.all fun n => let c := coreAt s n; c.q.retired || haltDone c then
    match refAt s g.queue (recDoneRef g.bytes) rA with | .at_ a => some a | _ => none
  else none

/-- The operations on a counter that are ready (R104), by numbers that rise: packets by source and lane, commands by core and place, DONE
adds by gang (log 28). -/
def ctrReady (s : State) (a : CtrAt) : List Nat :=
  (s.hub.rx.zipIdx.filterMap fun (p, i) => if rxHead s i p && pktCounter s p == some a then some (16 * p.spkg + p.lane) else none) ++
  (s.cores.flatMap fun (n, k) => k.f.cmds.zipIdx.filterMap fun (x, i) => if x.counter s n == some a then some (2 ^ 20 + 1024 * n + i) else none) ++
  s.gangs.filterMap fun (n, g) => if doneDue s g == some a then some (2 ^ 30 + n) else none

/-- The unit of a counter: its core's, or that of the memory it stands in. -/
def ctrUnit (s : State) (a : CtrAt) : Nat := match a with | .file k _ => k | .hbm pa => 192 + stackOf s pa

/-- The counter unit's choice among operations that reach one counter at once: recorded or replayed (R104, R424, R425). -/
def ctrGate (s : State) (asid : Nat) (a : CtrAt) (key : Nat) : Bool × State :=
  if rplMode s = 0 then (true, s) else
  let l := (key :: ctrReady s a).eraseDups
  rplGate s asid (0x1000 + ctrUnit s a) (2 ^ min 16 l.length - 1) ((l.filter (· < key)).length % 16)

/-- The counter unit's choice for command `i` of core `cn`. -/
def cmdGate (s : State) (cn i : Nat) (x : Cmd) : Bool × State :=
  if rplMode s = 0 then (true, s) else
  match x.counter s cn with | some a => ctrGate s (asidOf (coreAt s cn)) a (2 ^ 20 + 1024 * cn + i) | none => (true, s)

/-- A piece asks for the banks of its lines, and for the counter of its landing add. -/
def pieceGate (s : State) (cn i : Nat) (x : Cmd) (p : Piece) : Bool × State :=
  let (go, s) := if p.isVa then (true, s) else bankTry s p.core x.requester (pieceLines s p)
  if go then cmdGate s cn i x else (false, s)

/-! ## Completion events -/

/-- `frec.wr` (R286): mask bits set from 0 to 1 and a new resume code address are the only changes taken. -/
def frecWrite (s : State) (cn : Nat) (x : Cmd) : State :=
  let b := slice x.recb 64 256
  let old := (coreAt s cn).q.tbuf
  let m0 := leNat (slice old 6 2)
  let m1 := leNat (slice b 6 2)
  let ok := (coreAt s cn).q.inHandler && slice b 4 2 == slice old 4 2 && b.drop 8 == old.drop 8 && m0 &&& m1 == m0 && m1 < 4096
  if ok then finishCmd (modCore s cn fun c => { c with q := { c.q with tbuf := b } }) cn { x with count := 256 }
  else finishCmd s cn { x with code := 1 }

/-- ENGINE_COMMAND_COMPLETE: command `i` of core `c` places piece `k`; with none left and nothing awaited, it completes (R264). `gat`
and `sct` place their rows in order (R273). -/
def execEngineCommandComplete (c i k : Nat) (s : State) : Out :=
  match cmdAt s c i with
  | none => .next s
  | some x =>
    if !x.started || x.parked.isSome then .next s else
    let kc := coreAt s c
    if !x.pieces.isEmpty then
      let k := if x.op = 2 || x.op = 3 then 0 else k % x.pieces.length
      -- the reply to an `rred` is placed line by line once all of it has come
      if x.op = 7 && x.drop = 0 then .next s else
      match x.pieces[k]? with
      | none => .next s
      | some p => match (if x.op = 6 || x.op = 7 then linePiece x.pieces p else some (p, x.pieces.eraseIdx k)) with
        | none => .next s
        | some (p, rest) =>
          if p.hub = 1 then .next s
          else if p.hub = 0 && pieceFar s c p then .next (pieceToPort s c x p)
          else match pieceGate s c i x p with
            | (true, s) => .next (placePiece (modCmd s c x.id fun y => { y with pieces := rest }) c x p rest)
            | (false, s) => .next s
    else if !x.waits.isEmpty then .next s
    else match x.op with
      | 2 | 3 =>
        -- an overflow of the landing add ends no row (R273)
        if (x.code != 0 && x.code != 0x0A) || x.prog.getD 0 0 ≥ bits x.len 63 40 then .next (finishCmd s c x) else
        match gatRow s c (asidOf kc) x with
        | .ok (x', s) => .next (modCmd s c x.id fun _ => x')
        | .stop e => .next (engStop s c x.id (asidOf kc) e)
      | 4 => .next (finishCmd s c (if x.drop = 0 then { x with count := x.count / 16 * 16 } else { x with code := 2, count := x.count / 16 * 16 + x.drop }))
      | 8 =>
        if x.prog.getD 0 0 = 0 then
          -- an `rst` before it may still put bytes into the combining buffer
          if kc.f.cmds.any fun y => y.op == 5 && y.seq < x.seq then .next s else
          let s := flushComb s c fun _ => true
          .next (modCmd s c x.id fun y => { y with prog := 1 :: (writesBefore (coreAt s c) x true).map Unacked.tag })
        else .next (if allAcked kc (x.prog.drop 1) && kc.f.drainq.all (fun r => x.seq ≤ r.op) && kc.f.xops.all (fun o => o.op != 11 || x.seq ≤ o.seq)
          then tokenDone s c x else s)
      | 9 => .next (if x.code != 0 || x.prog.getD 0 0 ≥ collTotal x then finishCmd s c x else s)
      | 0x0A =>
        if x.code = 0 && x.prog.getD 0 0 < bits (x.w 4) 43 24 then .next s
        else if x.prog.isEmpty then .next (finishCmd s c x)
        else match engWord s x c (asidOf kc) (x.w 8) 0 128 with
          | .ok e => .next (finishCmd (hWrite s c e (bits (x.w 8) 31 0) (dispRow x)) c x)
          | .stop (.bad code) => .next (finishCmd s c { x with code := if x.code = 0 then code else x.code })
          | .stop _ => .next (finishCmd s c x)
      | 0x0B => .next (finishCmd (endCcpy s c x) c (if x.code = 0 then x else { x with count := 0 }))
      | 0x0C =>
        if x.code != 0 then .next (finishCmd s c x) else
        let (code, s) := taskEnqueue s (asidOf kc) (x.prog.getD 0 0) (slice x.recb 64 64)
        .next (finishCmd s c { x with code := code, count := if code = 0 then 64 else 0 })
      | 0x0D | 0x0E => .next (if !tagsGone kc x.prog then s else match cmdGate s c i x with | (true, s) => applyCounter s c x | (false, s) => s)
      | 0x0F => .next (match cmdGate s c i x with | (true, s) => applyCounter s c x | (false, s) => s)
      | 0x11 => .next (if x.code != 0 then finishCmd s c x else frecWrite s c x)
      | 0x20 => .next s
      | 0x22 => .next (finishDone s c x)
      | _ => .next (finishCmd s c x)

/-- The contribution of an `rred` is read and sent again (R386, R390). What R55, R213 or R355 refuses by then ends the command; a page that is
not resident parks it. -/
def rredAgain (s : State) (cn : Nat) (x : Cmd) : State :=
  let asid := asidOf (coreAt s cn)
  match endTake s x cn asid x.sk x.src 0 (4 * bits x.len 13 0) rRED with
  | .ok (b, s) => redSend s cn x b (x.prog.getD 0 0)
  | .stop (.park a) => modCmd (engPark s cn x.id asid a) cn x.id fun y => { y with prog := y.prog.set 2 (max 1 s.dev) }
  | .stop e => modCmd (engStop (pbcDone s cn x.pieces) cn x.id asid e) cn x.id fun y => { y with drop := 1, waits := [], pieces := [] }

/-- RRED_RETRY: the back-off of the `rred` at place `i` of core `c` is over and its contribution goes out again (R386). -/
def execRredRetry (c i : Nat) (s : State) : Out :=
  match cmdAt s c i with
  | some x =>
    if x.op = 7 && x.started && x.parked.isNone && x.drop = 0 && x.prog.getD 2 0 != 0 && x.prog.getD 2 0 ≤ s.dev then
      .next (rredAgain (modCmd s c x.id fun y => { y with prog := (y.prog.set 2 0).set 3 (min 64 (2 * y.prog.getD 3 1)) }) c x)
    else .next s
  | none => .next s

/-- RRED_TIMEOUT: the local time-out of the `rred` at place `i` of core `c` has passed with no reply, or with a part of one (R277). -/
def execRredTimeout (c i : Nat) (s : State) : Out :=
  match cmdAt s c i with
  | some x => if x.op = 7 && x.started && x.drop = 0 && !x.prog.isEmpty && x.prog.getD 1 0 ≤ s.dev then
      .next (modCmd (pbcDone s c x.pieces) c x.id fun y => { y with code := 0x0C, drop := 1, waits := [], pieces := [] })
    else .next s
  | none => .next s

/-! ## Slot operations -/

/-- A_NOP (R140): nothing. -/
def execANop (_p : Nat) (s : State) : Out := .next s
/-- `cpy` (R272). -/
def execCpy (p r n a b c x : Nat) (s : State) : Out := .next (aRecord 0x01 p r ([a, b, c].take n) x s)
/-- `gat` (R273). -/
def execGat (p r n a b c x : Nat) (s : State) : Out := .next (aRecord 0x02 p r ([a, b, c].take n) x s)
/-- `sct` (R273). -/
def execSct (p r n a b c x : Nat) (s : State) : Out := .next (aRecord 0x03 p r ([a, b, c].take n) x s)
/-- `mcast.q` (R274). -/
def execMcastQ (p r n a b c x : Nat) (s : State) : Out := .next (aRecord 0x04 p r ([a, b, c].take n) x s)
/-- `rst` (R275). -/
def execRst (p r n a b c x : Nat) (s : State) : Out := .next (aRecord 0x05 p r ([a, b, c].take n) x s)
/-- `rld` (R276). -/
def execRld (p r n a b c x : Nat) (s : State) : Out := .next (aRecord 0x06 p r ([a, b, c].take n) x s)
/-- `rred` (R277). -/
def execRred (p r n a b c x : Nat) (s : State) : Out := .next (aRecord 0x07 p r ([a, b, c].take n) x s)
/-- `rflush` (R279). -/
def execRflush (p r n a b c : Nat) (s : State) : Out := .next (guarded s p (aPush 0x08 r ([a, b, c].take n) 0 0 0 0))
/-- `coll` (R280). -/
def execColl (p r n a b c x : Nat) (s : State) : Out := .next (aRecord 0x09 p r ([a, b, c].take n) x s)
/-- `disp` (R282). -/
def execDisp (p r n a b c x : Nat) (s : State) : Out := .next (aRecord 0x0A p r ([a, b, c].take n) x s)
/-- `ccpy` (R284). -/
def execCcpy (p r n a b c x : Nat) (s : State) : Out := .next (aRecord 0x0B p r ([a, b, c].take n) x s)
/-- `task` (R285). -/
def execTask (p r n a b c x : Nat) (s : State) : Out := .next (aRecord 0x0C p r ([a, b, c].take n) x s)
/-- `ctadd` (R268). -/
def execCtadd (p r n a b y x : Nat) (s : State) : Out := .next (aCounter 0x0D p r ([a, b].take n) 0 y x s)
/-- `ctraise` (R268). -/
def execCtraise (p r n a b y x : Nat) (s : State) : Out := .next (aCounter 0x0E p r ([a, b].take n) 0 y x s)
/-- `ctpoll` (R269). -/
def execCtpoll (p r n a d y x : Nat) (s : State) : Out := .next (aCounter 0x0F p r ([a].take n) d y x s)
/-- `frec.rd` (R286). -/
def execFrecRd (p r n a b c x : Nat) (s : State) : Out := .next (aRecord 0x10 p r ([a, b, c].take n) x s)
/-- `frec.wr` (R286). -/
def execFrecWr (p r n a b c x : Nat) (s : State) : Out := .next (aRecord 0x11 p r ([a, b, c].take n) x s)

end Sys2Proof.Machine
end

