-- ==== Sys2Proof/Machine/Trace.lean ====
section
/-! DEFINITION. Machine/Trace: the debug block's registers, trace records (spec/24, R413, R418 to R420), and asking members to stop. -/

namespace Sys2Proof.Machine

/-- A register of core `n`'s debug block (R413). -/
def dbgOff (n off : Nat) : Nat := 0x00100000 + 0x1000 * n + off
def dbgRd (s : State) (n off : Nat) : Word := barRd s (dbgOff n off)
def dbgWr (s : State) (n off : Nat) (v : Word) : State := barWr s (dbgOff n off) v

/-- Whether a debug session is open for the task of core `n` (R413). -/
def dbgOn (s : State) (n : Nat) : Bool :=
  let c := (dbgRd s n 0).toNat
  bit c 63 && (match (coreAt s n).bind with | some b => b.asid == bits c 45 32 | none => false)

/-- The 24-byte header of a record (R419) at a position. -/
def traceHead (s : State) (n kind units loop iter stage caddr : Nat) : List Byte :=
  toBytes kind 1 ++ toBytes units 1 ++ toBytes n 1 ++ toBytes loop 1 ++ toBytes iter 5 ++ toBytes stage 1 ++
  toBytes (asidOf (coreAt s n)) 2 ++ toBytes caddr 4 ++ toBytes (devNs s) 8

/-- A header at the position a core stands at. -/
def tracePos (s : State) (n kind units : Nat) : List Byte :=
  let c := coreAt s n
  traceHead s n kind units (posLoop c) (posIter c) (posStage c) c.q.pc

/-- Writes a record into a core's trace ring, or drops and counts it (R418). -/
def traceWrite (s : State) (n : Nat) (r : List Byte) : State :=
  let ctl := (dbgRd s n 0x48).toNat
  if !bit ctl 63 then s else
  let size := bits ctl 48 0 / 4096 * 4096
  let base := bits (dbgRd s n 0x40).toNat 38 12 * 4096
  let head := (dbgRd s n 0x50).toNat
  let lost := fun (s : State) => dbgWr s n 0x58 (satAdd64 (dbgRd s n 0x58) 1)
  if r.length > size then lost s
  else
    let pos := head % size
    let skip := if pos + r.length > size then size - pos else 0
    if !bit ctl 62 && head + skip + r.length > size then lost s
    else
      let s := if skip = 0 then s else hbmWrite s (base + pos) (List.replicate skip 0)
      let s := hbmWrite s (base + (head + skip) % size) r
      dbgWr s n 0x50 (BitVec.ofNat 64 (head + skip + r.length))

/-- Pads a record to a length. -/
def padTo (n : Nat) (b : List Byte) : List Byte := b ++ List.replicate (n - b.length) 0

/-- A STOP record (R419). -/
def traceStop (s : State) (n : Nat) (cause detail slot mask : Nat) : State :=
  traceWrite s n (padTo 64 (tracePos s n 1 1 ++ toBytes cause 1 ++ toBytes detail 1 ++ toBytes slot 1 ++ toBytes mask 2))

/-- A TEMPORAL level ends: with its bit in LOOPMASK set, the conflict matrix goes into a LOOP_EXIT record and is zeroed (R420). -/
def loopExit (s : State) (n lv caddr : Nat) : State :=
  let ctl := (dbgRd s n 0x48).toNat
  if !(bit ctl 63 && bit ctl (54 + lv)) then s else
  let c := coreAt s n
  let stage := if (levelOf c lv).stages > 1 then c.r.p.toNat / 256 else 0
  let body := ((upTo 144).map fun k => toBytes (min (spGet 0 c.conf k) (2 ^ 32 - 1)) 4).flatten
  modCore (traceWrite s n (padTo 640 (traceHead s n 2 10 lv (spGet 0 c.r.lc lv) stage caddr ++ body))) n fun c => { c with conf := [] }

/-- The cores of a core's gang. -/
def membersOf (s : State) (cn : Nat) : List Nat :=
  match (coreAt s cn).bind with
  | none => [cn]
  | some b => s.cores.filterMap fun (n, c) => if c.bind.map Bind.gang = some b.gang then some n else none

/-- Asks cores to stop at their next landing points (R44, R414): kind 1 pre-emption, 2 debug, 3 ISTOP, 4 filler. -/
def askStop (s : State) (l : List Nat) (kind : Nat) (detail : Option Nat) : State :=
  l.foldl (fun s n => modCore s n fun c => c.askedFor kind s.dev detail) s

/-- Asks for a debug stop at breakpoints of a session (R414): a code address, or a level and pass. -/
def breakAt (s : State) (cn kind where_ : Nat) : State :=
  if !dbgOn s cn then s else
  match (upTo 4).find? fun k => let w := (dbgRd s cn (0x10 + 8 * k)).toNat
    bit w 63 && bits w 62 62 == kind && (if kind = 0 then bits w 23 0 == where_ else bits w 42 0 == where_) with
  | some k => askStop s (membersOf s cn) 2 (some (0xF0 + k))
  | none => s

end Sys2Proof.Machine
end

