-- ==== Sys2Proof/Machine/Control.lean ====
section
/-! DEFINITION. Machine/Control: the C slot (spec/09, R163 to R183; tret, R287): branches, calls, loops, waits, ends and control registers. -/

namespace Sys2Proof.Machine

/-- Code address of the bundle being executed. -/
def bundlePc (s : State) : Nat := match s.issue with | some b => b.pc | none => (here s).q.pc

/-- Code words a bundle at an address takes (R141). -/
def wordsAt (c : Core) (a : Nat) : Nat := if c.prog.code[a]? = some 0xFFFF then 25 else 1

/-- The address after the bundle being executed. -/
def bundleNext (s : State) : Nat := match s.issue with | some b => b.pc + b.words | none => (here s).q.pc + wordsAt (here s) (here s).q.pc

/-- Redirects fetch (R163): with `keep`, R38 and R39 still apply to a body end. -/
def redirect (s : State) (target bubble : Nat) (keep : Bool) : State :=
  match s.issue with
  | some b => { s with issue := some { b with redirect := some (target, bubble), noLoop := !keep || b.noLoop } }
  | none => wr s fun c => { c with q := { c.q with pc := target } }

/-- p15 to p8 as a loop operation leaves them (R39). -/
def stagePreds (s : State) (v : BitVec 8) : State :=
  let set := fun (c : Core) => { c with r := { c.r with p := (c.r.p &&& 0xFF#16) ||| (v.setWidth 16 <<< 8) } }
  match s.issue with
  | some b => { s with issue := some { b with stageSet := some v } }
  | none => wr s set

/-- Bubbles of a transfer to b`n` (R312): from its `pbr` or `pbr.s`, while fetch still prefetches there. -/
def bubbleOf (c : Core) (n : Nat) : Nat := match spFind c.r.bprep n with | some a => 4 - (c.q.act - a) | none => 4

/-- A code address in a register, or the fault of R163. -/
def codeAddr (s : State) (v : Word) (f : BitVec 24 → State) : State :=
  if v.toNat ≥ 2 ^ 24 then raise s (slotNow s 11) 0x02 0 0 else f (v.setWidth 24)

/-- Writes a branch target and starts its prefetch (R164), which replaces the target that an earlier one prefetches (R312, log 71). -/
def prepare (s : State) (b : Nat) (v : BitVec 24) : State :=
  wr s fun c => { c with r := { c.r with b := spSet c.r.b b v, bprep := [(b, c.q.act)] } }

/-- Pushes a return address (R166): beyond sixteen held entries the oldest is spilled to h255. -/
def pushReturn (c : Core) (a : Nat) : Core :=
  let d := c.r.depth
  let c := if d < 16 then c else
    spadWrite c (handle c 255) (4 * (d - 16)) (toBytes ((c.r.rstack.getLast?.map BitVec.toNat).getD 0) 4)
  { c with r := { c.r with rstack := (BitVec.ofNat 24 a :: c.r.rstack).take 16, depth := d + 1 } }

/-- `call` (R166). -/
def callOp (p b : Nat) (s : State) : State :=
  guarded s p fun s =>
    let c := here s
    let d := c.r.depth
    match (if d < 16 then none else handleFault (handle c 255) (4 * (d - 16) : Nat) 4) with
    | some f => raise s (slotNow s 11) f 0 0
    | none =>
      let t := (bReg c b).toNat
      match s.issue with
      | some i => { s with issue := some { i with redirect := some (t, bubbleOf c b), calls := some t } }
      | none => wr s fun k => let k' := pushReturn k (bundleNext s); { k' with q := { k'.q with pc := t } }

/-- `ret` (R166). -/
def retOp (p : Nat) (s : State) : State :=
  guarded s p fun s =>
    let c := here s
    let d := c.r.depth
    if d = 0 then raise s (slotNow s 11) 0x0A 0 0 else
    match (if d ≤ 16 then none else handleFault (handle c 255) (4 * (d - 17) : Nat) 4) with
    | some f => raise s (slotNow s 11) f 0 0
    | none =>
      let back := if d ≤ 16 then [] else [BitVec.ofNat 24 (leNat (spadRead c (handle c 255) (4 * (d - 17)) 4))]
      let s := wr s fun k => { k with r := { k.r with rstack := k.r.rstack.drop 1 ++ back, depth := d - 1 } }
      redirect s ((c.r.rstack.headD 0).toNat) (if d ≤ 16 then 2 else 4) false

/-- The active levels once level `i` and those started after it have ended. -/
def endLevels (l : List Nat) (i : Nat) : List Nat := if l.contains i then (l.dropWhile (· != i)).drop 1 else l

/-- Those levels themselves, innermost first. -/
def endedLevels (l : List Nat) (i : Nat) : List Nat := if l.contains i then l.takeWhile (· != i) ++ [i] else []

/-- Ends levels: their LOOP_EXIT records; p15 to p8 fall when one used them (R38, R39, R420). -/
def leaveLevels (s : State) (i : Nat) : State :=
  let c := here s
  let ended := endedLevels c.r.loops i
  let s := ended.foldl (fun s k => loopExit s (hereNo s) k (bundlePc s)) s
  let s := wr s fun k => { k with r := { k.r with loops := endLevels c.r.loops i } }
  if ended.any fun k => (levelOf c k).stages > 1 then stagePreds s 0 else s

/-- The address after a level's body end. -/
def afterBody (c : Core) (i : Nat) : Nat := (levelOf c i).bend + wordsAt c (levelOf c i).bend

/-- `loop`, `loop.swp` (R168). -/
def loopOp (p i : Nat) (s : State) : State :=
  guarded s p fun s =>
    let c := here s
    let lv := levelOf c i
    let s := leaveLevels s i
    if lv.bound = 0 then redirect s (afterBody c i) (if afterBody c i = bundleNext s then 0 else 2) false
    else
      let s := wr s fun k => { k with r := { k.r with lc := spSet k.r.lc i 0, loops := i :: endLevels c.r.loops i } }
      let s := if lv.stages > 1 then stagePreds s (passPreds lv.bound 0) else s
      redirect (breakAt s (hereNo s) 1 (i * 2 ^ 40)) lv.bstart (if lv.bstart = bundleNext s then 0 else 2) false

/-- `lbrk` (R169). Of a level that is not active it has no effect, so R38 and R39 apply to a body end as without it (log 72). -/
def lbrkOp (p i : Nat) (s : State) : State :=
  guarded s p fun s =>
    let c := here s
    if !c.r.loops.contains i then s else redirect (leaveLevels s i) (afterBody c i) 2 false

/-! ## Waits -/

/-- Where a wait's counter stands, or its fault: cause and DETAIL (R171). -/
inductive WaitAt where
  | at_ (p : WaitPlace)
  | fault (cause detail : Nat)
deriving DecidableEq, Repr

/-- The counter of `ctwait.g` (R170, R171). -/
def waitAt (s : State) (cn va : Nat) : WaitAt :=
  if va % 8 != 0 then .fault 0x0D 0 else
  match xlat s cn (asidOf (coreAt s cn)) va with
  | .fail r => .fault 0x0B r
  | .loc pa k rt _ _ _ => if k != kCOUNTER then .fault 0x0D 0 else if hasRight rt rR then .at_ (.near (.hbm pa)) else .fault 0x0B 0x04
  | .win _ w o _ =>
    if winTgt w != 2 then .fault 0x0D 0
    else if !hasRight (winRights w) rR then .fault 0x0C 0
    else if winPkg w != pkgNo s then .at_ (.far w va o)
    else match keyCheck s (winKey w) 2 rR o 8 with
      | some (_, b) => if b < 4096 then .at_ (.near (.file (winCore w) (b / 8))) else .fault 0x0C 0
      | none => .fault 0x0C 0

/-- Sends the read of a polling wait (R109, R380). -/
def pollSend (s : State) (cn : Nat) (w : List Nat) (va o : Nat) : State :=
  let (t, s) := newTag s ⟨5, cn, (coreAt s cn).q.seq, 8, none⟩
  coreSend s cn (winRequest s w va o 0x04 2 8 t (toBytes 0 8))

/-- Whether a wait at a place registers in the monitor table of its die: only for a counter of this package (R109). -/
def regs (s : State) (cn : Nat) : WaitPlace → Bool
  | .near _ => monFree s (dieOf cn)
  | _ => false

/-- A wait at its issue (R108, R170, R171): the address is translated and a counter of this package checked once; then the line is
held. The first poll of a wait without an entry of the monitor table comes after 64 ns (R109). -/
def waitOp (own : Bool) (ct a : Nat) (va thr tmo : Word) (trap : Bool) (p : Nat) (s : State) : State :=
  let cn := hereNo s
  let v := thr.toNat % 2 ^ 63
  let hold := fun (s : State) (w : WaitPlace) => modCore s cn fun c =>
    { c with q := { c.q with hold := .counter own ct a va w v tmo.toNat s.dev p trap (regs s cn w) (s.dev + nsDev 64) 64 } }
  match (if own then WaitAt.at_ (.near (.file cn ct)) else waitAt s cn va.toNat) with
  | .fault f d => raise (if f = 0x0B then postPage s (asidOf (here s)) va.toNat d else s) (slotNow s 11) f d va
  | .at_ (.near c) =>
    if ctrStrict s (asidOf (here s)) c then raise (ctrUe s c) (slotNow s 11) 0x1C 0 va else
    let x := ctrRead s c
    let s := ctrSeen s (asidOf (here s)) c
    if x.getLsbD 63 then (if trap then raise s (slotNow s 11) 0x11 0 0 else putP s p false)
    else if ctrReached x v then s
    else if tmo = 0 then putP s p false
    else hold s (.near c)
  | .at_ w => hold s w

/-- Ends the wait a core is held in: satisfied, or false in its guard (R170). -/
def endWait (s : State) (cn : Nat) (sat : Bool) (guard : Nat) : State :=
  modCore s cn fun c =>
    let c := { c with q := { c.q with hold := .none } }
    if sat then c else setP c guard false

/-- The wait a core is held in faults (R108, R171). -/
def waitFault (s : State) (cn cause detail : Nat) (va : Word) : State :=
  heldFault (modCore s cn fun c => { c with q := { c.q with hold := .none } }) cn 11 cause detail va

/-- The wait a core is held in sees its counter: poisoned, satisfied, or neither (R108). -/
def seeWait (s : State) (cn : Nat) (x : Word) (v guard : Nat) (trap : Bool) : State :=
  if x.getLsbD 63 then (if trap then waitFault s cn 0x11 0 0 else endWait s cn false guard)
  else if ctrReached x v then endWait s cn true guard else s

/-- The wait a core is held in looks at a counter of this package: `f` gets its word. One in an uncorrectable line faults under STRICT, and
reads as zero otherwise (R369). -/
def lookWait (s : State) (cn : Nat) (k : CtrAt) (va : Word) (f : State → Word → State) : State :=
  let asid := asidOf (coreAt s cn)
  if ctrStrict s asid k then waitFault (ctrUe s k) cn 0x1C 0 va else f (ctrSeen s asid k) (ctrRead s k)

/-- A resumed wait starts again from its registers as they now stand (R417): its address is translated again, its time-out is the full one
(R170, R171). -/
def reenterWait (s : State) (c : Nat) : State :=
  match (coreAt s c).q.hold with
  | .counter own ct a _ .again _ _ _ g tr _ _ _ =>
    let k := coreAt s c
    let va := if own then 0 else sreg k a
    let b := if own then a else a + 1
    match (if own then WaitAt.at_ (.near (.file c ct)) else waitAt s c va.toNat) with
    | .at_ w => modCore s c fun k => { k with q := { k.q with hold := .counter own ct a va w ((sreg k b).toNat % 2 ^ 63) (sreg k (b + 1)).toNat s.dev g tr (regs s c w) (s.dev + nsDev 64) 64 } }
    | .fault f d => waitFault (if f = 0x0B then postPage s (asidOf (coreAt s c)) va.toNat d else s) c f d va
  | _ => s

/-- COUNTER_WAIT_SATISFIED: core `c`'s registered wait sees its counter satisfied or poisoned (R108, R109). -/
def execCounterWaitSatisfied (c : Nat) (s : State) : Out :=
  match (coreAt s c).q.hold with
  | .counter _ _ _ va (.near k) v _ _ g tr true _ _ => .next (lookWait s c k va fun s x => seeWait s c x v g tr)
  | _ => .next s

/-- COUNTER_WAIT_TIMEOUT: core `c`'s wait has reached its time-out in device time; a counter of this package is looked at first
(R108). A wait on another package's counter with a time-out of 0 ends at the reply of its one poll. -/
def execCounterWaitTimeout (c : Nat) (s : State) : Out :=
  match (coreAt s c).q.hold with
  | .counter _ _ _ va w v tmo t0 g tr _ _ _ =>
    if s.dev < t0 + nsDev tmo then .next s else
    match w with
    | .near k => .next (lookWait s c k va fun s x => if x.getLsbD 63 || ctrReached x v then seeWait s c x v g tr else endWait s c false g)
    | .far .. => .next (if tmo = 0 then s else endWait s c false g)
    | .again => .next s
  | _ => .next s

/-- MONITOR_POLL: core `c`'s polling wait polls: its next poll comes after twice the interval, at most 4 µs, and it tries to register
(R109). -/
def execMonitorPoll (c : Nat) (s : State) : Out :=
  match (coreAt s c).q.hold with
  | .counter own ct a va w v tmo t0 g tr false poll ivl =>
    if s.dev < poll then .next s else
    let i := min 4000 (2 * ivl)
    let later := fun (s : State) => modCore s c fun k => { k with q := { k.q with hold := .counter own ct a va w v tmo t0 g tr (regs s c w) (s.dev + nsDev i) i } }
    match w with
    | .far x y o => .next (later (pollSend s c x y o))
    | .near k => .next (lookWait s c k va fun s x => if x.getLsbD 63 || ctrReached x v then seeWait s c x v g tr else later s)
    | .again => .next s
  | _ => .next s

/-! ## Control registers -/

/-- PWR_CLASS of a core's task (R183). -/
def pwrClass (c : Core) : Word :=
  match c.bind with
  | some b => BitVec.ofNat 64 (b.pclass + (if b.pinned then 8 else 0) + (if b.filler then 16 else 0))
  | none => 0

/-- Reads a control register by number (R179). -/
def sysRead (s : State) (cn : Nat) (c : Core) (r : Nat) : Word :=
  if r = 0x000 then c.r.scr
  else if r = 0x001 then
    BitVec.ofNat 64 (asidOf c * 2 ^ 32 + 0xB1 * 2 ^ 24 + cn / 48 * 2 ^ 16 + cn % 48 / 4 * 2 ^ 12 + cn % 4 * 2 ^ 10 + cn)
  else if r = 0x002 then c.r.check
  else if r = 0x003 then pwrClass c
  else if r = 0x004 then BitVec.ofNat 64 (devNs s)
  else if r = 0x005 then c.r.rngs
  else if r = 0x006 then c.r.alnLoss
  else if r = 0x007 then c.r.cvtLoss
  else if r = 0x008 then BitVec.ofNat 64 c.r.pbc
  else if r = 0x009 then BitVec.ofNat 64 (c.r.depth % 65536)
  else if r = 0x00A then c.r.ssn
  else if 0x100 ≤ r && r ≤ 0x1FF then hword c (r - 0x100)
  else 0

/-- SCR with a written value: reserved bits ignore it; none for a reserved FRND (R180). A sticky bit written 1 is set (log 73). -/
def scrWritten (v : Word) : Option Word :=
  if scrFRND v = 4 || scrFRND v ≥ 6 then none else some (v &&& 0xFE7F)

/-- Writes a control register (R179, R180, R84). A loss counted by the same bundle is added to a written ALN_LOSS or CVT_LOSS
(log 74). -/
def sysWrite (s : State) (r : Nat) (v : Word) : State :=
  if r = 0x000 then match scrWritten v with
    | none => raise s (slotNow s 11) 0x01 0 0
    | some x => wr s fun c => { c with r := { c.r with scr := x } }
  else if r = 0x002 then wr s fun c => { c with r := { c.r with check := v &&& 1 } }
  else if r = 0x005 then
    let s := match s.issue with | some b => { s with issue := some { b with rngWr := true } } | none => s
    wr s fun c => { c with r := { c.r with rngs := if v = 0 then 1 else v } }
  else if r = 0x006 then wr s fun c => { c with r := { c.r with alnLoss := v } }
  else if r = 0x007 then wr s fun c => { c with r := { c.r with cvtLoss := v } }
  else s

/-! ## Slot operations -/

/-- C_NOP (R140): nothing. -/
def execCNop (_p : Nat) (s : State) : Out := .next s

/-- `pbr bn, label` (R164). -/
def execPbr (p b r : Nat) (s : State) : Out :=
  .next (guarded s p fun s => prepare s b (BitVec.ofInt 24 ((bundlePc s : Int) + sextN 12 r)))

/-- `pbr.s bn, sa` (R164). -/
def execPbrS (p b a : Nat) (s : State) : Out := .next (guarded s p fun s => codeAddr s (sreg (here s) a) fun v => prepare s b v)

/-- `br bn, pq` (R165). -/
def execBr (p b q : Nat) (s : State) : Out :=
  .next (guarded s p fun s => if preg (here s) q then redirect s (bReg (here s) b).toNat (bubbleOf (here s) b) false else s)

/-- `br.n bn, pq` (R165). -/
def execBrN (p b q : Nat) (s : State) : Out :=
  .next (guarded s p fun s => if preg (here s) q then s else redirect s (bReg (here s) b).toNat (bubbleOf (here s) b) false)

/-- `call bn` (R166). -/
def execCall (p b : Nat) (s : State) : Out := .next (callOp p b s)

/-- `ret` (R166). -/
def execRet (p : Nat) (s : State) : Out := .next (retOp p s)

/-- `loop id` (R168). -/
def execLoop (p i : Nat) (s : State) : Out := .next (loopOp p i s)

/-- `loop.swp id` (R168). -/
def execLoopSwp (p i : Nat) (s : State) : Out := .next (loopOp p i s)

/-- `lbrk id` (R169). -/
def execLbrk (p i : Nat) (s : State) : Out := .next (lbrkOp p i s)

/-- `ctwait ctn, sa` (R170). -/
def execCtwait (p c a : Nat) (s : State) : Out :=
  .next (guarded s p fun s => waitOp true c a 0 (sreg (here s) a) (sreg (here s) (a + 1)) false p s)

/-- `ctwait.t ctn, sa` (R170). -/
def execCtwaitT (p c a : Nat) (s : State) : Out :=
  .next (guarded s p fun s => waitOp true c a 0 (sreg (here s) a) (sreg (here s) (a + 1)) true p s)

/-- `ctwait.g sa` (R170, R171). -/
def execCtwaitG (p a : Nat) (s : State) : Out :=
  .next (guarded s p fun s => waitOp false 0 a (sreg (here s) a) (sreg (here s) (a + 1)) (sreg (here s) (a + 2)) false p s)

/-- `ctwait.gt sa` (R170, R171). -/
def execCtwaitGt (p a : Nat) (s : State) : Out :=
  .next (guarded s p fun s => waitOp false 0 a (sreg (here s) a) (sreg (here s) (a + 1)) (sreg (here s) (a + 2)) true p s)

/-- `tkwait` (R172): the bundle is held before it issues (R33); it has no other effect. -/
def execTkwait (_p _x _y _z : Nat) (s : State) : Out := .next s

/-- `sstep` (R29, R173): stage 1 begins when the bundle's other slots have committed. -/
def execSstep (p : Nat) (s : State) : Out :=
  .next (guarded s p fun s => wr s fun c => { c with q := { c.q with hold := .sstep 1 } })

/-- `yield` (R174): the slice of every member is marked used up. -/
def execYield (p : Nat) (s : State) : Out :=
  .next (guarded s p fun s => (membersOf s (hereNo s)).foldl (fun s n => modCore s n fun c => { c with q := { c.q with yielded := true } }) s)

/-- Sets aside R38 and R39 at a body end, for the bundle being executed (R167). -/
def noLoopRule (s : State) : State := match s.issue with | some b => { s with issue := some { b with noLoop := true } } | none => s

/-- `halt` (R167, R175): the core drains before it retires, and no pass follows. -/
def execHalt (p : Nat) (s : State) : Out :=
  .next (guarded s p fun s => noLoopRule (wr s fun c => { c with q := { c.q with hold := .halt } }))

/-- `brk n` (R176): with `brk` armed in a session for this task, a debug stop of every member is requested. -/
def execBrk (p n : Nat) (s : State) : Out :=
  .next (guarded s p fun s =>
    let cn := hereNo s
    if dbgOn s cn && (dbgRd s cn 0).getLsbD 62 then askStop s (membersOf s cn) 2 (some n) else s)

/-- `trap n` (R176): the trap follows the bundle's commit. -/
def execTrap (p n : Nat) (s : State) : Out :=
  .next (guarded s p fun s =>
    match s.issue with
    | some b => { s with issue := some { b with trapAfter := some n } }
    | none => let nx := bundleNext s; takeTrap s s.cur ⟨0x1A, n, 11, 0, nx, 0xFFFF, 0, 0⟩ false none)

/-- Whether a `frec.wr` is still under way (R287). -/
def frecBusy (c : Core) : Bool := c.f.cmds.any fun x => x.op == 0x11

/-- `tret` (R287): outside a handler it faults; inside, the line is held until every `frec.wr` has completed. -/
def execTret (p : Nat) (s : State) : Out :=
  .next (guarded s p fun s =>
    if !(here s).q.inHandler then raise s (slotNow s 11) 0x1B 0 0
    else wr s fun c => { c with q := { c.q with hold := .tret } })

/-- `sysrd sd, NAME` (R179). -/
def execSysrd (p d r : Nat) (s : State) : Out := .next (guarded s p fun s => putS s d (sysRead s (hereNo s) (here s) r))

/-- `syswr NAME, sa` (R179). -/
def execSyswr (p a r : Nat) (s : State) : Out := .next (guarded s p fun s => sysWrite s r (sreg (here s) a))

/-- `wheel n` (R177): the next bundle waits for position (c − n) mod 256 of the core it is then on. -/
def execWheel (p n : Nat) (s : State) : Out :=
  .next (guarded s p fun s => wr s fun c => { c with q := { c.q with wheel := some (n % 256) } })

/-- `pwr.hint n` (R178). -/
def execPwrHint (p n : Nat) (s : State) : Out := .next (guarded s p fun s => wr s fun c => { c with q := { c.q with hint := n } })

end Sys2Proof.Machine
end

