-- ==== Sys2Proof/Machine/Pack.lean ====
section
/-! DEFINITION. Machine/Pack: the pack slot P and the unpack slot U (spec/13, R256 to R260; places of elements, R61). -/

namespace Sys2Proof.Machine

/-- The view of mm14 and mm15 that P and U read (R256). -/
structure PkMode where
  fp6v : Bool
  srule : Nat
  fscale : Nat
  rnd : Nat
  blk : Nat
  lt : Bool
  lw : Bool
deriving DecidableEq, Repr

/-- Reads the fields of R256. -/
def pkMode (x : Word) : PkMode :=
  let n := x.toNat
  { fp6v := bit n 17, srule := bits n 16 15, fscale := bits n 14 7, rnd := bits n 6 4, blk := bits n 3 2, lt := bit n 1, lw := bit n 0 }

/-- Element formats of P and U (R258): an MXINT width, or a floating format. -/
inductive PkFmt where
  | mx (w : Nat)
  | fp (f : FpFmt) (bits : Nat)
deriving DecidableEq, Repr

/-- Format code f of a P or U opcode under a mode (R258): 0 to 2 MXINT8, MXINT6, MXINT4; 3 E4M3; 4 E5M2; 5 FP6; 6 E2M1. -/
def pkFmt (k : Nat) (m : PkMode) : PkFmt :=
  match k with
  | 0 => .mx 8 | 1 => .mx 6 | 2 => .mx 4 | 3 => .fp e4m3 8 | 4 => .fp e5m2 8
  | 5 => if m.fp6v then .fp e2m3 6 else .fp e3m2 6
  | _ => .fp e2m1 4

/-- Bits of an element. -/
def PkFmt.bits : PkFmt → Nat
  | .mx w => w
  | .fp _ b => b

/-- emax of R258. -/
def PkFmt.emax : PkFmt → Nat
  | .mx _ => 0
  | .fp f _ => if f = e4m3 then 8 else if f = e5m2 then 15 else if f = e3m2 then 4 else 2

/-- Whether the format keeps infinities and NaNs: E5M2 alone (R258). -/
def PkFmt.keeps : PkFmt → Bool
  | .mx _ => false
  | .fp f _ => f.hasInf

/-- Format of the lanes (R256). -/
def pkLane (m : PkMode) : FpFmt := if m.lw then fp32 else if m.lt then fp16 else bf16

/-- The 256 lanes of a part's rows (R257). -/
def pkLanes (c : Core) (m : PkMode) (row : Nat) : List Nat :=
  if m.lw then lanes32 (accRow c row) ++ lanes32 (accRow c (row + 1)) else lanes16 (accRow c row)

/-- The scale of a block (R258). -/
def pkScale (f : PkFmt) (m : PkMode) (old : Nat) (v : List FpVal) : Nat :=
  if !f.keeps && v.any FpVal.isNan then 0xFF
  else if m.srule = 1 then m.fscale
  else if m.srule = 2 then old
  else
    match v.filterMap (fun x => match x with | .fin _ k e => if k = 0 then none else some (flog2 k e) | _ => none) with
    | [] => 0x7F
    | a :: l => (satI (l.foldl max a - (f.emax : Int) + 127) 0 254).toNat

/-- One element under a scale (R258), and whether CVT_LOSS counts it. -/
def pkElem (f : PkFmt) (mode : RMode) (X r16 : Nat) (v : FpVal) : Nat × Bool :=
  if X = 0xFF then (0, false) else
  match f with
  | .mx w =>
    let lim : Int := 2 ^ (w - 1) - 1
    match v with
    | .nan => (0, false)
    | .inf n => (toPat w (if n then -lim else lim), true)
    | .fin n k e =>
      let q := (roundInt mode n k (e + ((w : Int) - 2) - ((X : Int) - 127)) r16).1
      (toPat w (satI (if n then -(q : Int) else q) (-lim) lim), false)
  | .fp g _ =>
    match v with
    | .nan => (0x7F, false)
    | .inf n => if g.hasInf then (infPat g n, false) else (signed g n g.maxPat, true)
    | .fin n k e =>
      let r := roundMag g mode n k (e - ((X : Int) - 127)) false r16
      (signed g n (min r.pat g.maxPat), false)

/-- Elements per block. -/
def pkBlk (m : PkMode) : Nat := blkSize m.blk

/-- Why a P fails at execution (R260). -/
def pkBad (m : PkMode) (row : Nat) (isP : Bool) : Bool :=
  m.blk == 0 || m.rnd > 5 || (isP && (m.srule == 3 || (m.srule == 1 && m.fscale == 0xFF))) || (m.lw && row % 2 == 1)

/-- A pack (R257, R258): format code, mode register, destination, part, row. -/
def pkOp (k mm p q part row : Nat) (s : State) : State :=
  guarded s p fun s =>
    let c := here s
    let m := pkMode (mmReg c mm)
    if pkBad m row true then raise s (slotNow s 2) 0x01 0 0 else
    let f := pkFmt k m
    let mode := (rmode m.rnd).getD .ne
    let (x, s) := if mode == .sr then drawRng s else (0, s)
    let v := (pkLanes c m row).map (fpRead (pkLane m))
    let b := pkBlk m
    let cb := 256 * part / b
    let blocks := (chunksOf b 16 v).zipIdx
    let scales := blocks.map fun (l, i) => pkScale f m ((qComp c q).extractLsb' (8 * (cb + i)) 8).toNat l
    let el := v.zipIdx.map fun (y, i) => pkElem f mode (scales.getD (i / b) 0) (rngR16 x i) y
    let s := wr s fun c => addCvt c (el.filter Prod.snd).length
    let lat := if m.lw then 3 else 2
    let w := f.bits
    let s := putLate s lat (.qbits q (256 * part * w) (256 * w) (packLanes w (el.map Prod.fst)))
    let s := if w = 6 then putLate s lat (.qbits q 3072 1024 0) else s
    let s := putLate s lat (.qcomp q (8 * cb) (8 * scales.length) (BitVec.ofNat 256 (scales.foldr (fun z acc => acc * 256 + z) 0)))
    occupy s 2 (if m.lw then 2 else 1)

/-- An element's value under its scale in a lane format (R259). -/
def unpkLane (f : PkFmt) (g : FpFmt) (mode : RMode) (X e : Nat) : Nat :=
  if X = 0xFF then nanPat g 2 else
  match f with
  | .mx w => match mxVal w (sextN w e) X with
    | .fin n k x => (fpWrite g mode 0 (.fin n k x false)).pat
    | _ => nanPat g 1
  | .fp h _ => match fpRead h e with
    | .nan => nanPat g 1
    | .inf n => infPat g n
    | .fin n k x => (fpWrite g mode 0 (.fin n k (x + ((X : Int) - 127)) false)).pat

/-- An unpack (R257, R259): stochastic rounding is taken as nearest-even. -/
def unpkOp (k mm p q part row : Nat) (s : State) : State :=
  guarded s p fun s =>
    let c := here s
    let m := pkMode (mmReg c mm)
    if pkBad m row false then raise s (slotNow s 1) 0x01 0 0 else
    let f := pkFmt k m
    let mode := match rmode m.rnd with | some .sr => RMode.ne | some r => r | none => .ne
    let w := f.bits
    let b := pkBlk m
    let qv := (qReg c q).toNat
    let qc := qComp c q
    let l := (upTo 256).map fun i =>
      unpkLane f (pkLane m) mode (qc.extractLsb' (8 * ((256 * part + i) / b)) 8).toNat (qv / 2 ^ (w * (256 * part + i)) % 2 ^ w)
    let s := if m.lw then
        putLate (putLate s 2 (.vop row (packLanes 32 (l.take 128)))) 3 (.vop (row + 1) (packLanes 32 (l.drop 128)))
      else putLate s 2 (.vop row (packLanes 16 l))
    occupy s 1 (if m.lw then 2 else 1)

/-- P_NOP (R140): nothing. -/
def execPNop (_p : Nat) (s : State) : Out := .next s
/-- U_NOP (R140): nothing. -/
def execUNop (_p : Nat) (s : State) : Out := .next s

/-- `pk` into Mxint8 through mm14 (R258). -/
def execPkMxint8Mm14 (p q k r : Nat) (s : State) : Out := .next (pkOp 0 14 p q k r s)
/-- `pk` into Mxint8 through mm15 (R258). -/
def execPkMxint8Mm15 (p q k r : Nat) (s : State) : Out := .next (pkOp 0 15 p q k r s)
/-- `pk` into Mxint6 through mm14 (R258). -/
def execPkMxint6Mm14 (p q k r : Nat) (s : State) : Out := .next (pkOp 1 14 p q k r s)
/-- `pk` into Mxint6 through mm15 (R258). -/
def execPkMxint6Mm15 (p q k r : Nat) (s : State) : Out := .next (pkOp 1 15 p q k r s)
/-- `pk` into Mxint4 through mm14 (R258). -/
def execPkMxint4Mm14 (p q k r : Nat) (s : State) : Out := .next (pkOp 2 14 p q k r s)
/-- `pk` into Mxint4 through mm15 (R258). -/
def execPkMxint4Mm15 (p q k r : Nat) (s : State) : Out := .next (pkOp 2 15 p q k r s)
/-- `pk` into E4m3 through mm14 (R258). -/
def execPkE4m3Mm14 (p q k r : Nat) (s : State) : Out := .next (pkOp 3 14 p q k r s)
/-- `pk` into E4m3 through mm15 (R258). -/
def execPkE4m3Mm15 (p q k r : Nat) (s : State) : Out := .next (pkOp 3 15 p q k r s)
/-- `pk` into E5m2 through mm14 (R258). -/
def execPkE5m2Mm14 (p q k r : Nat) (s : State) : Out := .next (pkOp 4 14 p q k r s)
/-- `pk` into E5m2 through mm15 (R258). -/
def execPkE5m2Mm15 (p q k r : Nat) (s : State) : Out := .next (pkOp 4 15 p q k r s)
/-- `pk` into Fp6 through mm14 (R258). -/
def execPkFp6Mm14 (p q k r : Nat) (s : State) : Out := .next (pkOp 5 14 p q k r s)
/-- `pk` into Fp6 through mm15 (R258). -/
def execPkFp6Mm15 (p q k r : Nat) (s : State) : Out := .next (pkOp 5 15 p q k r s)
/-- `pk` into E2m1 through mm14 (R258). -/
def execPkE2m1Mm14 (p q k r : Nat) (s : State) : Out := .next (pkOp 6 14 p q k r s)
/-- `pk` into E2m1 through mm15 (R258). -/
def execPkE2m1Mm15 (p q k r : Nat) (s : State) : Out := .next (pkOp 6 15 p q k r s)
/-- `unpk` from Mxint8 through mm14 (R259). -/
def execUnpkMxint8Mm14 (p q k r : Nat) (s : State) : Out := .next (unpkOp 0 14 p q k r s)
/-- `unpk` from Mxint8 through mm15 (R259). -/
def execUnpkMxint8Mm15 (p q k r : Nat) (s : State) : Out := .next (unpkOp 0 15 p q k r s)
/-- `unpk` from Mxint6 through mm14 (R259). -/
def execUnpkMxint6Mm14 (p q k r : Nat) (s : State) : Out := .next (unpkOp 1 14 p q k r s)
/-- `unpk` from Mxint6 through mm15 (R259). -/
def execUnpkMxint6Mm15 (p q k r : Nat) (s : State) : Out := .next (unpkOp 1 15 p q k r s)
/-- `unpk` from Mxint4 through mm14 (R259). -/
def execUnpkMxint4Mm14 (p q k r : Nat) (s : State) : Out := .next (unpkOp 2 14 p q k r s)
/-- `unpk` from Mxint4 through mm15 (R259). -/
def execUnpkMxint4Mm15 (p q k r : Nat) (s : State) : Out := .next (unpkOp 2 15 p q k r s)
/-- `unpk` from E4m3 through mm14 (R259). -/
def execUnpkE4m3Mm14 (p q k r : Nat) (s : State) : Out := .next (unpkOp 3 14 p q k r s)
/-- `unpk` from E4m3 through mm15 (R259). -/
def execUnpkE4m3Mm15 (p q k r : Nat) (s : State) : Out := .next (unpkOp 3 15 p q k r s)
/-- `unpk` from E5m2 through mm14 (R259). -/
def execUnpkE5m2Mm14 (p q k r : Nat) (s : State) : Out := .next (unpkOp 4 14 p q k r s)
/-- `unpk` from E5m2 through mm15 (R259). -/
def execUnpkE5m2Mm15 (p q k r : Nat) (s : State) : Out := .next (unpkOp 4 15 p q k r s)
/-- `unpk` from Fp6 through mm14 (R259). -/
def execUnpkFp6Mm14 (p q k r : Nat) (s : State) : Out := .next (unpkOp 5 14 p q k r s)
/-- `unpk` from Fp6 through mm15 (R259). -/
def execUnpkFp6Mm15 (p q k r : Nat) (s : State) : Out := .next (unpkOp 5 15 p q k r s)
/-- `unpk` from E2m1 through mm14 (R259). -/
def execUnpkE2m1Mm14 (p q k r : Nat) (s : State) : Out := .next (unpkOp 6 14 p q k r s)
/-- `unpk` from E2m1 through mm15 (R259). -/
def execUnpkE2m1Mm15 (p q k r : Nat) (s : State) : Out := .next (unpkOp 6 15 p q k r s)

end Sys2Proof.Machine
end

