-- ==== Sys2Proof/Machine/Scalar.lean ====
section
/-! DEFINITION. Machine/Scalar: the scalar slots S0 and S1 (spec/09, R184 to R195; rational forms by spec/10). Every meaning reads the
state before its bundle, acts under its guard (R41) and puts its result on its way at the latency of R302. -/

namespace Sys2Proof.Machine

/-- A result of a latency above 1 in a scalar register; a write to s0 is discarded (R184). -/
def lateS (s : State) (lat d : Nat) (v : Word) : State := if d = 0 then s else putLate s lat (.sreg d v)

/-- A register-register form of latency 1. -/
def srOp (f : Word → Word → Word) (p d a b : Nat) (s : State) : State :=
  guarded s p fun s => putS s d (f (sreg (here s) a) (sreg (here s) b))

/-- A register-register form of a latency above 1, which may depend on the operands. -/
def srLate (lat : Word → Word → Nat) (f : Word → Word → Word) (p d a b : Nat) (s : State) : State :=
  guarded s p fun s =>
    let x := sreg (here s) a
    let y := sreg (here s) b
    lateS s (lat x y) d (f x y)

/-- A one-operand form of latency 1. -/
def suOp (f : Word → Word) (p d a : Nat) (s : State) : State := guarded s p fun s => putS s d (f (sreg (here s) a))

/-- A compare writes a predicate pair (R187). -/
def cmpOp (f : Word → Word → Bool) (p k a b : Nat) (s : State) : State :=
  guarded s p fun s =>
    let t := f (sreg (here s) a) (sreg (here s) b)
    putP (putP s (2 * k) t) (2 * k + 1) (!t)

/-- Number of bits set. -/
def popcount (x : Word) : Nat := ((upTo 64).filter fun k => x.getLsbD k).length

/-- Leading zeros. -/
def clz64 (x : Word) : Nat := 64 - bitlen x.toNat

/-- `div` (R186). -/
def divS (a b : Word) : Word :=
  if b = 0 then BitVec.ofInt 64 (-1) else if a.toInt = -(2 ^ 63) && b.toInt = -1 then a else BitVec.ofInt 64 (a.toInt.tdiv b.toInt)

/-- `rem` (R186). -/
def remS (a b : Word) : Word :=
  if b = 0 then a else if a.toInt = -(2 ^ 63) && b.toInt = -1 then 0 else BitVec.ofInt 64 (a.toInt - b.toInt * a.toInt.tdiv b.toInt)

/-- `divu` (R186). -/
def divU (a b : Word) : Word := if b = 0 then BitVec.ofNat 64 (2 ^ 64 - 1) else BitVec.ofNat 64 (a.toNat / b.toNat)

/-- `remu` (R186). -/
def remU (a b : Word) : Word := if b = 0 then a else BitVec.ofNat 64 (a.toNat % b.toNat)

/-- The latency of a signed divide: short class 12, long class 20 (R302). -/
def divLatS (a b : Word) : Nat :=
  let small := fun (x : Word) => -(2 ^ 31) ≤ x.toInt && x.toInt < 2 ^ 31
  if b = 0 || (a.toInt = -(2 ^ 63) && b.toInt = -1) || (small a && small b) then 12 else 20

/-- The latency of an unsigned divide (R302). -/
def divLatU (a b : Word) : Nat := if b = 0 || (a.toNat < 2 ^ 32 && b.toNat < 2 ^ 32) then 12 else 20

/-- Takes the scalar floating datapath for `lat` active cycles (R302). -/
def takeFp (s : State) (lat : Nat) : State := wr s fun c => { c with f := { c.f with fpBusy := c.q.act + lat } }

/-- An FP64 form with a register result, or its FS64 form under SCR.RM (R193, R201): `op` is the opcode. -/
def fpOp (op fn lat : Nat) (f : Word → Word → Word → Word × Word) (p d a b : Nat) (s : State) : State :=
  guarded s p fun s =>
    let scr := (here s).r.scr
    let x := sreg (here s) a
    let y := sreg (here s) b
    if scrRM scr then ratStart s 10 op fn d (ratWord p op fn d a b) x y
    else
      let (v, st) := f scr x y
      orSticky (takeFp (lateS s lat d v) lat) st

/-- An FP64 result with its sticky bits. -/
def fp64Out (scr : Word) (r : FpRes) : Word × Word :=
  let w := fpWrite fp64 (frndMode scr) 0 r
  (BitVec.ofNat 64 w.pat, fpSticky r w)

def faddF (scr x y : Word) : Word × Word := fp64Out scr (fpAdd (frndMode scr) (fpRead fp64 x.toNat) (fpRead fp64 y.toNat))
def fsubF (scr x y : Word) : Word × Word := fp64Out scr (fpAdd (frndMode scr) (fpRead fp64 x.toNat) (fpNegV (fpRead fp64 y.toNat)))
def fmulF (scr x y : Word) : Word × Word := fp64Out scr (fpMul (fpRead fp64 x.toNat) (fpRead fp64 y.toNat))
def fdivF (scr x y : Word) : Word × Word := fp64Out scr (fpDiv (fpRead fp64 x.toNat) (fpRead fp64 y.toNat))
def fsqrtF (scr x _y : Word) : Word × Word := fp64Out scr (fpSqrt (fpRead fp64 x.toNat))
def fminF (_scr x y : Word) : Word × Word := (BitVec.ofNat 64 (fpMinMax fp64 false x.toNat y.toNat), 0)
def fmaxF (_scr x y : Word) : Word × Word := (BitVec.ofNat 64 (fpMinMax fp64 true x.toNat y.toNat), 0)
def fabsF (_scr x _y : Word) : Word × Word := (x &&& ~~~(1#64 <<< 63), 0)
def fnegF (_scr x _y : Word) : Word × Word := (x ^^^ (1#64 <<< 63), 0)

/-- `fcvt.d2l` (R195). -/
def fd2l (scr x _y : Word) : Word × Word :=
  match fpRead fp64 x.toNat with
  | .nan => (0, stickyBits false false true false false false false)
  | .inf n => (if n then BitVec.ofNat 64 (2 ^ 63) else BitVec.ofNat 64 (2 ^ 63 - 1), stickyBits false false true false false false false)
  | .fin n m e =>
    let (q, nx) := roundInt (frndMode scr) n m e 0
    let o := toI64 n q nx false
    (o.v, o.sticky)

/-- `fcvt.l2d` (R195). -/
def fl2d (scr x _y : Word) : Word × Word :=
  let w := fpWrite fp64 (frndMode scr) 0 (.fin x.msb x.toInt.natAbs 0 false)
  (BitVec.ofNat 64 (if x = 0 then 0 else w.pat), stickyBits false false false false false false w.inexact)

/-- `fcvt.d2s` (R195). -/
def fd2s (scr x _y : Word) : Word × Word :=
  match fpRead fp64 x.toNat with
  | .nan => (BitVec.ofNat 64 (nanPat fp32 1), 0)
  | v =>
    let w := fpWrite fp32 (frndMode scr) 0 (fpAsRes v)
    (BitVec.ofNat 64 w.pat, fpSticky (fpAsRes v) w)

/-- `fcvt.s2d` (R195). -/
def fs2d (_scr x _y : Word) : Word × Word :=
  match fpRead fp32 (x.toNat % 2 ^ 32) with
  | .nan => (BitVec.ofNat 64 (nanPat fp64 1), 0)
  | v => (BitVec.ofNat 64 (fpWrite fp64 .ne 0 (fpAsRes v)).pat, 0)

/-- An FP64 compare: latency 2, or the rational compare under SCR.RM (R194, R202). -/
def fcmpOp (fn : Nat) (f : FpVal → FpVal → Bool) (p k a b : Nat) (s : State) : State :=
  guarded s p fun s =>
    let scr := (here s).r.scr
    let x := sreg (here s) a
    let y := sreg (here s) b
    if scrRM scr then ratStart s 10 0x37 fn k (ratWord p 0x37 fn k a b) x y
    else
      let t := f (fpRead fp64 x.toNat) (fpRead fp64 y.toNat)
      takeFp (putLate (putLate s 2 (.pred (2 * k) t)) 2 (.pred (2 * k + 1) (!t))) 2

def fEq (a b : FpVal) : Bool := !a.isNan && !b.isNan && !fpLt false a b && !fpLt false b a
def fLt (a b : FpVal) : Bool := fpLt false a b
def fLe (a b : FpVal) : Bool := !a.isNan && !b.isNan && !fpLt false b a
def fUn (a b : FpVal) : Bool := a.isNan || b.isNan

/-- A rational-only operation of opcodes 0x3B to 0x3F (R204, R205). -/
def ratOp (op fn : Nat) (p d a b : Nat) (s : State) : State :=
  guarded s p fun s => ratStart s 10 op fn d (ratWord p op fn d a b) (sreg (here s) a) (sreg (here s) b)

/-- Sets a stream register from a `stset` and notes it for the uses of the bundle (R64). -/
def putStream (s : State) (t : Nat) (x : BitVec 256) : State :=
  let s := match s.issue with
    | some b => { s with issue := some { b with stWr := t :: b.stWr } }
    | none => s
  wr s fun c => { c with r := { c.r with st := spSet c.r.st t x } }

/-- Low bit and width of the field a `stset.f` selector names (R149, R62). -/
def stField : Nat → Nat × Nat
  | 1 => (242, 5) | 2 => (240, 2) | 3 => (237, 3) | 4 => (212, 22) | 5 => (196, 16) | 6 => (173, 23) | 7 => (157, 16)
  | 8 => (134, 23) | 9 => (118, 16) | 10 => (95, 23) | 11 => (73, 22) | 12 => (56, 17) | 13 => (32, 16) | 14 => (16, 16) | _ => (0, 16)

/-- An index field (13 to 15: I0, I1, I2) brought below its count (R62). -/
def stReduceAt (x : BitVec 256) (f : Nat) : BitVec 256 :=
  let t := stream x
  match f with
  | 13 => setBits x 32 16 (BitVec.ofNat 256 (t.i0 % (t.cnt0 + 1)))
  | 14 => setBits x 16 16 (BitVec.ofNat 256 (t.i1 % (t.cnt1 + 1)))
  | 15 => setBits x 0 16 (BitVec.ofNat 256 (t.i2 % (t.cnt2 + 1)))
  | _ => x

/-- Every index field brought below its count (R62). -/
def stReduce (x : BitVec 256) : BitVec 256 := stReduceAt (stReduceAt (stReduceAt x 13) 14) 15

/-- The value after `stset.f` writes field `f` from `v`; an index above its count is reduced (R62, R192). -/
def stPut (x : BitVec 256) (f : Nat) (v : Word) : BitVec 256 :=
  if f = 0 then setBits (setBits x 248 8 (v.setWidth 256)) 247 1 ((v >>> 8).setWidth 256)
  else
    let (lo, w) := stField f
    stReduceAt (setBits x lo w (v.setWidth 256)) f

/-- `stset.f` (R192): a reserved format or rounding code faults ILLEGAL_SLOT and changes nothing. -/
def stsetF (t f a : Nat) (s : State) : State :=
  let v := sreg (here s) a
  if f = 1 && (fmtBits (v.toNat % 32)).isNone then raise s (slotNow s 10) 0x01 0 0
  else if f = 3 && (rmode (v.toNat % 8)).isNone then raise s (slotNow s 10) 0x01 0 0
  else putStream s t (stPut (stReg (here s) t) f v)

/-- `mtpr` (R191). -/
def movToPreds (s : State) (v : Word) : State := (upTo 15).foldl (fun s k => putP s (k + 1) (v.getLsbD (k + 1))) s

/-- `mtb` (R191): a code address with any of bits 63:24 set faults INDEX_RANGE (R163); it starts no prefetch. -/
def movToB (n : Nat) (v : Word) (s : State) : State :=
  if v.toNat ≥ 2 ^ 24 then raise s (slotNow s 10) 0x02 0 0
  else wr s fun c => { c with r := { c.r with b := spSet c.r.b n (v.setWidth 24), bprep := spDel c.r.bprep n } }

/-- S_NOP (R140): nothing. -/
def execSNop (_p : Nat) (s : State) : Out := .next s

/-- `add sd, sa, sb` (R185). -/
def execAdd (p d a b : Nat) (s : State) : Out := .next (srOp (fun x y => x + y) p d a b s)

/-- `sub sd, sa, sb` (R185). -/
def execSub (p d a b : Nat) (s : State) : Out := .next (srOp (fun x y => x - y) p d a b s)

/-- `and sd, sa, sb` (R185). -/
def execAnd (p d a b : Nat) (s : State) : Out := .next (srOp (fun x y => x &&& y) p d a b s)

/-- `or sd, sa, sb` (R185). -/
def execOr (p d a b : Nat) (s : State) : Out := .next (srOp (fun x y => x ||| y) p d a b s)

/-- `xor sd, sa, sb` (R185). -/
def execXor (p d a b : Nat) (s : State) : Out := .next (srOp (fun x y => x ^^^ y) p d a b s)

/-- `andn sd, sa, sb` (R185). -/
def execAndn (p d a b : Nat) (s : State) : Out := .next (srOp (fun x y => x &&& ~~~y) p d a b s)

/-- `sll sd, sa, sb` (R185). -/
def execSll (p d a b : Nat) (s : State) : Out := .next (srOp (fun x y => x <<< (y.toNat % 64)) p d a b s)

/-- `srl sd, sa, sb` (R185). -/
def execSrl (p d a b : Nat) (s : State) : Out := .next (srOp (fun x y => x >>> (y.toNat % 64)) p d a b s)

/-- `sra sd, sa, sb` (R185). -/
def execSra (p d a b : Nat) (s : State) : Out := .next (srOp (fun x y => x.sshiftRight (y.toNat % 64)) p d a b s)

/-- `min sd, sa, sb` (R185). -/
def execMin (p d a b : Nat) (s : State) : Out := .next (srOp (fun x y => if x.toInt ≤ y.toInt then x else y) p d a b s)

/-- `max sd, sa, sb` (R185). -/
def execMax (p d a b : Nat) (s : State) : Out := .next (srOp (fun x y => if x.toInt ≤ y.toInt then y else x) p d a b s)

/-- `minu sd, sa, sb` (R185). -/
def execMinu (p d a b : Nat) (s : State) : Out := .next (srOp (fun x y => if x.toNat ≤ y.toNat then x else y) p d a b s)

/-- `maxu sd, sa, sb` (R185). -/
def execMaxu (p d a b : Nat) (s : State) : Out := .next (srOp (fun x y => if x.toNat ≤ y.toNat then y else x) p d a b s)

/-- `mul` (R185), latency 3 (R302). -/
def execMul (p d a b : Nat) (s : State) : Out := .next (srLate (fun _ _ => 3) (fun x y => x * y) p d a b s)

/-- `mulh`: high 64 bits of the signed product (R185). -/
def execMulh (p d a b : Nat) (s : State) : Out := .next (srLate (fun _ _ => 3) (fun x y => BitVec.ofInt 64 (x.toInt * y.toInt / 2 ^ 64)) p d a b s)

/-- `mulhu`: high 64 bits of the unsigned product (R185). -/
def execMulhu (p d a b : Nat) (s : State) : Out := .next (srLate (fun _ _ => 3) (fun x y => BitVec.ofNat 64 (x.toNat * y.toNat / 2 ^ 64)) p d a b s)

/-- `div` (R186), in the latency class of R302. -/
def execDiv (p d a b : Nat) (s : State) : Out := .next (srLate divLatS divS p d a b s)

/-- `divu` (R186), in the latency class of R302. -/
def execDivu (p d a b : Nat) (s : State) : Out := .next (srLate divLatU divU p d a b s)

/-- `rem` (R186), in the latency class of R302. -/
def execRem (p d a b : Nat) (s : State) : Out := .next (srLate divLatS remS p d a b s)

/-- `remu` (R186), in the latency class of R302. -/
def execRemu (p d a b : Nat) (s : State) : Out := .next (srLate divLatU remU p d a b s)

/-- `slli sd, sa, n` (R185). -/
def execSlli (p d a n : Nat) (s : State) : Out := .next (suOp (fun x => x <<< n) p d a s)

/-- `srli sd, sa, n` (R185). -/
def execSrli (p d a n : Nat) (s : State) : Out := .next (suOp (fun x => x >>> n) p d a s)

/-- `srai sd, sa, n` (R185). -/
def execSrai (p d a n : Nat) (s : State) : Out := .next (suOp (fun x => x.sshiftRight n) p d a s)

/-- `popc` (R185). -/
def execPopc (p d a : Nat) (s : State) : Out := .next (suOp (fun x => BitVec.ofNat 64 (popcount x)) p d a s)

/-- `clz` (R185). -/
def execClz (p d a : Nat) (s : State) : Out := .next (suOp (fun x => BitVec.ofNat 64 (clz64 x)) p d a s)

/-- A compare into a predicate pair (R187). -/
def execCmpEq (p k a b : Nat) (s : State) : Out := .next (cmpOp (fun x y => x == y) p k a b s)

/-- A compare into a predicate pair (R187). -/
def execCmpLt (p k a b : Nat) (s : State) : Out := .next (cmpOp (fun x y => x.toInt < y.toInt) p k a b s)

/-- A compare into a predicate pair (R187). -/
def execCmpLtu (p k a b : Nat) (s : State) : Out := .next (cmpOp (fun x y => x.toNat < y.toNat) p k a b s)

/-- A compare into a predicate pair (R187). -/
def execCmpLe (p k a b : Nat) (s : State) : Out := .next (cmpOp (fun x y => x.toInt ≤ y.toInt) p k a b s)

/-- A compare into a predicate pair (R187). -/
def execCmpLeu (p k a b : Nat) (s : State) : Out := .next (cmpOp (fun x y => x.toNat ≤ y.toNat) p k a b s)

/-- `plog pd, pa, pb, tt` (R188). -/
def execPlog (p d a b t : Nat) (s : State) : Out := .next (guarded s p fun s => putP s d (bit t (2 * (if preg (here s) a then 1 else 0) + (if preg (here s) b then 1 else 0))))

/-- `sel sd, pk, sa, sb` (R189). -/
def execSel (p k d a b : Nat) (s : State) : Out := .next (guarded s p fun s => putS s d (if preg (here s) k then sreg (here s) a else sreg (here s) b))

/-- `addi sd, imm` (R190). -/
def execAddi (p d i : Nat) (s : State) : Out := .next (guarded s p fun s => putS s d (sreg (here s) d + BitVec.ofInt 64 (sextN 12 i)))

/-- `li sd, imm` (R190). -/
def execLi (p d i : Nat) (s : State) : Out := .next (guarded s p fun s => putS s d (BitVec.ofInt 64 (sextN 12 i)))

/-- `lic sd, imm` (R190). -/
def execLic (p d i : Nat) (s : State) : Out := .next (guarded s p fun s => putS s d (BitVec.ofNat 64 i))

/-- `kconst sd, name` (R190). -/
def execKconst (p d i : Nat) (s : State) : Out := .next (guarded s p fun s => putS s d ((here s).prog.consts.getD i 0))

/-- `hmk sd, hn` (R190). -/
def execHmk (p d i : Nat) (s : State) : Out := .next (guarded s p fun s => putS s d (BitVec.ofNat 64 (i * 2 ^ 56)))

/-- `hsz sd, hn` (R190). -/
def execHsz (p d i : Nat) (s : State) : Out := .next (guarded s p fun s => putS s d (if (handle (here s) i).valid then BitVec.ofNat 64 (handle (here s) i).size else 0))

/-- `hrow sd, hn` (R190). -/
def execHrow (p d i : Nat) (s : State) : Out := .next (guarded s p fun s => putS s d (if (handle (here s) i).valid then BitVec.ofNat 64 (handle (here s) i).rowb else 0))

/-- `mfpr sd` (R191). -/
def execMfpr (p d : Nat) (s : State) : Out := .next (guarded s p fun s => putS s d (((here s).r.p ||| 1#16).setWidth 64))

/-- `mtpr sa` (R191). -/
def execMtpr (p a : Nat) (s : State) : Out := .next (guarded s p fun s => movToPreds s (sreg (here s) a))

/-- `mflc sd, lcn` (R191). -/
def execMflc (p d n : Nat) (s : State) : Out := .next (guarded s p fun s => putS s d (BitVec.ofNat 64 (spGet 0 (here s).r.lc n)))

/-- `mfb sd, bn` (R191). -/
def execMfb (p d n : Nat) (s : State) : Out := .next (guarded s p fun s => putS s d ((bReg (here s) n).setWidth 64))

/-- `mtb bn, sa` (R191). -/
def execMtb (p n a : Nat) (s : State) : Out := .next (guarded s p fun s => movToB n (sreg (here s) a) s)

/-- `stset.f stn, field, sa` (R192). -/
def execStsetF (p t f a : Nat) (s : State) : Out := .next (guarded s p fun s => stsetF t f a s)

/-- `stset.z stn` (R192). -/
def execStsetZ (p t : Nat) (s : State) : Out := .next (guarded s p fun s => putStream s t 0)

/-- `stset.cp stn, stm` (R192). -/
def execStsetCp (p t m : Nat) (s : State) : Out := .next (guarded s p fun s => putStream s t (stReg (here s) m))

/-- `mtmm mmn, sa` (R191, R227): all 64 bits, nothing checked. -/
def execMtmm (p n a : Nat) (s : State) : Out := .next (guarded s p fun s => let v := sreg (here s) a; wr s fun c => { c with r := { c.r with mm := spSet c.r.mm n v } })

/-- `mfmm sd, mmn` (R191). -/
def execMfmm (p d n : Nat) (s : State) : Out := .next (guarded s p fun s => putS s d (mmReg (here s) n))

/-- `fadd` (R193; R201 under SCR.RM). -/
def execFadd (p d a b : Nat) (s : State) : Out := .next (fpOp 0x30 0 4 faddF p d a b s)

/-- `fsub` (R193; R201 under SCR.RM). -/
def execFsub (p d a b : Nat) (s : State) : Out := .next (fpOp 0x31 0 4 fsubF p d a b s)

/-- `fmul` (R193; R201 under SCR.RM). -/
def execFmul (p d a b : Nat) (s : State) : Out := .next (fpOp 0x32 0 4 fmulF p d a b s)

/-- `fdiv` (R193; R201 under SCR.RM). -/
def execFdiv (p d a b : Nat) (s : State) : Out := .next (fpOp 0x33 0 20 fdivF p d a b s)

/-- `fsqrt` (R193; R201). -/
def execFsqrt (p d a : Nat) (s : State) : Out := .next (fpOp 0x34 0 24 fsqrtF p d a 0 s)

/-- `fmin` (R194; R202). -/
def execFmin (p d a b : Nat) (s : State) : Out := .next (fpOp 0x35 0 2 fminF p d a b s)

/-- `fmax` (R194; R202). -/
def execFmax (p d a b : Nat) (s : State) : Out := .next (fpOp 0x36 0 2 fmaxF p d a b s)

/-- An FP64 compare into a predicate pair (R194; R202 under SCR.RM). -/
def execFcmpEq (p k a b : Nat) (s : State) : Out := .next (fcmpOp 0 fEq p k a b s)

/-- An FP64 compare into a predicate pair (R194; R202 under SCR.RM). -/
def execFcmpLt (p k a b : Nat) (s : State) : Out := .next (fcmpOp 1 fLt p k a b s)

/-- An FP64 compare into a predicate pair (R194; R202 under SCR.RM). -/
def execFcmpLe (p k a b : Nat) (s : State) : Out := .next (fcmpOp 2 fLe p k a b s)

/-- An FP64 compare into a predicate pair (R194; R202 under SCR.RM). -/
def execFcmpUn (p k a b : Nat) (s : State) : Out := .next (fcmpOp 3 fUn p k a b s)

/-- A conversion (R195; R203 under SCR.RM). -/
def execFcvtD2l (p d a : Nat) (s : State) : Out := .next (fpOp 0x38 0 4 fd2l p d a 0 s)

/-- A conversion (R195; R203 under SCR.RM). -/
def execFcvtL2d (p d a : Nat) (s : State) : Out := .next (fpOp 0x38 1 4 fl2d p d a 0 s)

/-- A conversion (R195; R203 under SCR.RM). -/
def execFcvtD2s (p d a : Nat) (s : State) : Out := .next (fpOp 0x38 2 4 fd2s p d a 0 s)

/-- A conversion (R195; R203 under SCR.RM). -/
def execFcvtS2d (p d a : Nat) (s : State) : Out := .next (fpOp 0x38 3 4 fs2d p d a 0 s)

/-- `fabs` (R194; R202). -/
def execFabs (p d a : Nat) (s : State) : Out := .next (fpOp 0x39 0 2 fabsF p d a 0 s)

/-- `fneg` (R194; R202). -/
def execFneg (p d a : Nat) (s : State) : Out := .next (fpOp 0x3A 0 2 fnegF p d a 0 s)

/-- A rational operation (R204), finished by RATIONAL_RESULT. -/
def execFsGcd (p d a b : Nat) (s : State) : Out := .next (ratOp 0x3B 0 p d a b s)

/-- A rational operation (R204), finished by RATIONAL_RESULT. -/
def execFsMk (p d a b : Nat) (s : State) : Out := .next (ratOp 0x3C 0 p d a b s)

/-- A rational operation (R204), finished by RATIONAL_RESULT. -/
def execFsMed (p d a b : Nat) (s : State) : Out := .next (ratOp 0x3D 0 p d a b s)

/-- A rational operation (R204), finished by RATIONAL_RESULT. -/
def execFsNear (p d a b : Nat) (s : State) : Out := .next (ratOp 0x3E 0 p d a b s)

/-- A one-operand rational operation (R205), finished by RATIONAL_RESULT. -/
def execFsNum (p d a : Nat) (s : State) : Out := .next (ratOp 0x3F 0 p d a 0 s)

/-- A one-operand rational operation (R205), finished by RATIONAL_RESULT. -/
def execFsDen (p d a : Nat) (s : State) : Out := .next (ratOp 0x3F 1 p d a 0 s)

/-- A one-operand rational operation (R205), finished by RATIONAL_RESULT. -/
def execFsClass (p d a : Nat) (s : State) : Out := .next (ratOp 0x3F 2 p d a 0 s)

/-- A one-operand rational operation (R205), finished by RATIONAL_RESULT. -/
def execFsCanon (p d a : Nat) (s : State) : Out := .next (ratOp 0x3F 3 p d a 0 s)

/-- A one-operand rational operation (R205), finished by RATIONAL_RESULT. -/
def execFsCvtF32 (p d a : Nat) (s : State) : Out := .next (ratOp 0x3F 4 p d a 0 s)

/-- A one-operand rational operation (R205), finished by RATIONAL_RESULT. -/
def execFsCvtE8 (p d a : Nat) (s : State) : Out := .next (ratOp 0x3F 5 p d a 0 s)

/-- A one-operand rational operation (R205), finished by RATIONAL_RESULT. -/
def execFsPack32 (p d a : Nat) (s : State) : Out := .next (ratOp 0x3F 6 p d a 0 s)

/-- A one-operand rational operation (R205), finished by RATIONAL_RESULT. -/
def execFsUnpk32 (p d a : Nat) (s : State) : Out := .next (ratOp 0x3F 7 p d a 0 s)

end Sys2Proof.Machine
end

