-- ==== Sys2Proof/Machine/Footprint.lean ====
section
/-! DEFINITION. Machine/Footprint: what each slot operation reads and writes, as its encoding names it; the bundle-level checks of
R145 and R146, the checking scoreboard of R182 and R301, and what the interlocks of R33 look at. -/

namespace Sys2Proof.Machine

/-- What an operation names: guard, scalar registers, predicates, branch targets, vector operands, packed registers read and written;
the stream it accesses and the stream it sets; the rows of P (read) and U (written) with their mode register, and the part P writes; tokens consumed; whether it
uses the scalar floating datapath. -/
structure Foot where
  guard : Nat := 0
  sr : List Nat := []
  sw : List Nat := []
  pr : List Nat := []
  pw : List Nat := []
  br : List Nat := []
  bw : List Nat := []
  tr : List Nat := []
  tw : List Nat := []
  qr : List Nat := []
  qw : List Nat := []
  use : List Nat := []
  stw : List Nat := []
  prow : Option (Nat × Nat) := none
  urow : Option (Nat × Nat) := none
  qpart : Nat := 0
  tk : List Nat := []
  fp : Bool := false
deriving DecidableEq, Repr

/-- A token field with a valid bit of its own (R153, R155). -/
def tokV (v k : Nat) : List Nat := if v = 0 then [] else [k]

/-- A five-bit token field of `tkwait` (R147). -/
def tok5 (x : Nat) : List Nat := if x < 16 then [] else [x - 16]

/-- What an operation names; an event names nothing. -/
def foot (i : Instr) : Foot :=
  match i with
  | .cNop p => { guard := p }
  | .pbr p b _ => { guard := p, bw := [b] }
  | .pbrS p b a => { guard := p, sr := [a], bw := [b] }
  | .br p b q => { guard := p, pr := [q], br := [b] }
  | .brN p b q => { guard := p, pr := [q], br := [b] }
  | .call p b => { guard := p, br := [b] }
  | .ret p => { guard := p }
  | .loop p _ => { guard := p }
  | .loopSwp p _ => { guard := p }
  | .lbrk p _ => { guard := p }
  | .ctwait p _ a => { guard := p, sr := [a, a + 1], pw := [p] }
  | .ctwaitT p _ a => { guard := p, sr := [a, a + 1], pw := [p] }
  | .ctwaitG p a => { guard := p, sr := [a, a + 1, a + 2], pw := [p] }
  | .ctwaitGt p a => { guard := p, sr := [a, a + 1, a + 2], pw := [p] }
  | .tkwait p x y z => { guard := p, tk := tok5 x ++ tok5 y ++ tok5 z }
  | .sstep p => { guard := p }
  | .yield p => { guard := p }
  | .halt p => { guard := p }
  | .brk p _ => { guard := p }
  | .trap p _ => { guard := p }
  | .tret p => { guard := p }
  | .sysrd p d _ => { guard := p, sw := [d] }
  | .syswr p a _ => { guard := p, sr := [a] }
  | .wheel p _ => { guard := p }
  | .pwrHint p _ => { guard := p }
  | .sNop p => { guard := p }
  | .add p d a b => { guard := p, sr := [a, b], sw := [d] }
  | .sub p d a b => { guard := p, sr := [a, b], sw := [d] }
  | .mul p d a b => { guard := p, sr := [a, b], sw := [d] }
  | .mulh p d a b => { guard := p, sr := [a, b], sw := [d] }
  | .mulhu p d a b => { guard := p, sr := [a, b], sw := [d] }
  | .div p d a b => { guard := p, sr := [a, b], sw := [d] }
  | .divu p d a b => { guard := p, sr := [a, b], sw := [d] }
  | .rem p d a b => { guard := p, sr := [a, b], sw := [d] }
  | .remu p d a b => { guard := p, sr := [a, b], sw := [d] }
  | .and p d a b => { guard := p, sr := [a, b], sw := [d] }
  | .or p d a b => { guard := p, sr := [a, b], sw := [d] }
  | .xor p d a b => { guard := p, sr := [a, b], sw := [d] }
  | .andn p d a b => { guard := p, sr := [a, b], sw := [d] }
  | .sll p d a b => { guard := p, sr := [a, b], sw := [d] }
  | .srl p d a b => { guard := p, sr := [a, b], sw := [d] }
  | .sra p d a b => { guard := p, sr := [a, b], sw := [d] }
  | .slli p d a _ => { guard := p, sr := [a], sw := [d] }
  | .srli p d a _ => { guard := p, sr := [a], sw := [d] }
  | .srai p d a _ => { guard := p, sr := [a], sw := [d] }
  | .min p d a b => { guard := p, sr := [a, b], sw := [d] }
  | .max p d a b => { guard := p, sr := [a, b], sw := [d] }
  | .minu p d a b => { guard := p, sr := [a, b], sw := [d] }
  | .maxu p d a b => { guard := p, sr := [a, b], sw := [d] }
  | .popc p d a => { guard := p, sr := [a], sw := [d] }
  | .clz p d a => { guard := p, sr := [a], sw := [d] }
  | .cmpEq p k a b => { guard := p, sr := [a, b], pw := [2 * k, 2 * k + 1] }
  | .cmpLt p k a b => { guard := p, sr := [a, b], pw := [2 * k, 2 * k + 1] }
  | .cmpLtu p k a b => { guard := p, sr := [a, b], pw := [2 * k, 2 * k + 1] }
  | .cmpLe p k a b => { guard := p, sr := [a, b], pw := [2 * k, 2 * k + 1] }
  | .cmpLeu p k a b => { guard := p, sr := [a, b], pw := [2 * k, 2 * k + 1] }
  | .plog p d a b _ => { guard := p, pr := [a, b], pw := [d] }
  | .sel p k d a b => { guard := p, pr := [k], sr := [a, b], sw := [d] }
  | .addi p d _ => { guard := p, sr := [d], sw := [d] }
  | .li p d _ => { guard := p, sw := [d] }
  | .lic p d _ => { guard := p, sw := [d] }
  | .kconst p d _ => { guard := p, sw := [d] }
  | .hmk p d _ => { guard := p, sw := [d] }
  | .hsz p d _ => { guard := p, sw := [d] }
  | .hrow p d _ => { guard := p, sw := [d] }
  | .mfpr p d => { guard := p, pr := upTo 16, sw := [d] }
  | .mtpr p a => { guard := p, sr := [a], pw := upTo 16 }
  | .mflc p d _ => { guard := p, sw := [d] }
  | .mfb p d n => { guard := p, br := [n], sw := [d] }
  | .mtb p n a => { guard := p, sr := [a], bw := [n] }
  | .stsetF p t _ a => { guard := p, sr := [a], stw := [t] }
  | .stsetZ p t => { guard := p, stw := [t] }
  | .stsetCp p t _ => { guard := p, stw := [t] }
  | .mtmm p _ a => { guard := p, sr := [a] }
  | .mfmm p d _ => { guard := p, sw := [d] }
  | .fadd p d a b => { guard := p, sr := [a, b], sw := [d], fp := true }
  | .fsub p d a b => { guard := p, sr := [a, b], sw := [d], fp := true }
  | .fmul p d a b => { guard := p, sr := [a, b], sw := [d], fp := true }
  | .fdiv p d a b => { guard := p, sr := [a, b], sw := [d], fp := true }
  | .fsqrt p d a => { guard := p, sr := [a], sw := [d], fp := true }
  | .fmin p d a b => { guard := p, sr := [a, b], sw := [d], fp := true }
  | .fmax p d a b => { guard := p, sr := [a, b], sw := [d], fp := true }
  | .fcmpEq p k a b => { guard := p, sr := [a, b], pw := [2 * k, 2 * k + 1], fp := true }
  | .fcmpLt p k a b => { guard := p, sr := [a, b], pw := [2 * k, 2 * k + 1], fp := true }
  | .fcmpLe p k a b => { guard := p, sr := [a, b], pw := [2 * k, 2 * k + 1], fp := true }
  | .fcmpUn p k a b => { guard := p, sr := [a, b], pw := [2 * k, 2 * k + 1], fp := true }
  | .fcvtD2l p d a => { guard := p, sr := [a], sw := [d], fp := true }
  | .fcvtL2d p d a => { guard := p, sr := [a], sw := [d], fp := true }
  | .fcvtD2s p d a => { guard := p, sr := [a], sw := [d], fp := true }
  | .fcvtS2d p d a => { guard := p, sr := [a], sw := [d], fp := true }
  | .fabs p d a => { guard := p, sr := [a], sw := [d], fp := true }
  | .fneg p d a => { guard := p, sr := [a], sw := [d], fp := true }
  | .fsGcd p d a b => { guard := p, sr := [a, b], sw := [d], fp := true }
  | .fsMk p d a b => { guard := p, sr := [a, b], sw := [d], fp := true }
  | .fsMed p d a b => { guard := p, sr := [a, b], sw := [d], fp := true }
  | .fsNear p d a b => { guard := p, sr := [a, b], sw := [d], fp := true }
  | .fsNum p d a => { guard := p, sr := [a], sw := [d], fp := true }
  | .fsDen p d a => { guard := p, sr := [a], sw := [d], fp := true }
  | .fsClass p d a => { guard := p, sr := [a], sw := [d], fp := true }
  | .fsCanon p d a => { guard := p, sr := [a], sw := [d], fp := true }
  | .fsCvtF32 p d a => { guard := p, sr := [a], sw := [d], fp := true }
  | .fsCvtE8 p d a => { guard := p, sr := [a], sw := [d], fp := true }
  | .fsPack32 p d a => { guard := p, sr := [a], sw := [d], fp := true }
  | .fsUnpk32 p d a => { guard := p, sr := [a], sw := [d], fp := true }
  | .lNop p => { guard := p }
  | .vld32 p v t => { guard := p, tw := [v], use := [t] }
  | .vld16 p v t => { guard := p, tw := [v], use := [t] }
  | .qld p q t => { guard := p, qw := [q], use := [t] }
  | .ldsB p d a v k => { guard := p, sr := [a], sw := [d], tk := tokV v k }
  | .ldsH p d a v k => { guard := p, sr := [a], sw := [d], tk := tokV v k }
  | .ldsW p d a v k => { guard := p, sr := [a], sw := [d], tk := tokV v k }
  | .ldsD p d a v k => { guard := p, sr := [a], sw := [d], tk := tokV v k }
  | .ofill p _ t v k => { guard := p, use := [t], tk := tokV v k }
  | .halloc p _ d a => { guard := p, sr := [a], pw := [d] }
  | .hfree p _ => { guard := p }
  | .wNop p => { guard := p }
  | .vst32 p v t => { guard := p, tr := [v], use := [t] }
  | .vst16 p v t => { guard := p, tr := [v], use := [t] }
  | .qst p q t => { guard := p, qr := [q], use := [t] }
  | .stsB p d a v k => { guard := p, sr := [d, a], tk := tokV v k }
  | .stsH p d a v k => { guard := p, sr := [d, a], tk := tokV v k }
  | .stsW p d a v k => { guard := p, sr := [d, a], tk := tokV v k }
  | .stsD p d a v k => { guard := p, sr := [d, a], tk := tokV v k }
  | .oclaim p _ => { guard := p }
  | .orel p _ => { guard := p }
  | .gNop p => { guard := p }
  | .ldB p d a v t w u => { guard := p, sr := [a], sw := [d], tk := tokV v t ++ tokV w u }
  | .ldH p d a v t w u => { guard := p, sr := [a], sw := [d], tk := tokV v t ++ tokV w u }
  | .ldW p d a v t w u => { guard := p, sr := [a], sw := [d], tk := tokV v t ++ tokV w u }
  | .ldD p d a v t w u => { guard := p, sr := [a], sw := [d], tk := tokV v t ++ tokV w u }
  | .stB p d a v t w u => { guard := p, sr := [d, a], tk := tokV v t ++ tokV w u }
  | .stH p d a v t w u => { guard := p, sr := [d, a], tk := tokV v t ++ tokV w u }
  | .stW p d a v t w u => { guard := p, sr := [d, a], tk := tokV v t ++ tokV w u }
  | .stD p d a v t w u => { guard := p, sr := [d, a], tk := tokV v t ++ tokV w u }
  | .ldAcqW p d a v t w u => { guard := p, sr := [a], sw := [d], tk := tokV v t ++ tokV w u }
  | .ldAcqD p d a v t w u => { guard := p, sr := [a], sw := [d], tk := tokV v t ++ tokV w u }
  | .stRelW p d a v t w u => { guard := p, sr := [d, a], tk := tokV v t ++ tokV w u }
  | .stRelD p d a v t w u => { guard := p, sr := [d, a], tk := tokV v t ++ tokV w u }
  | .ldV p d a b => { guard := p, sr := [a, b], sw := [d] }
  | .stV p d a b => { guard := p, sr := [d, a, b] }
  | .amoAdd p d a b => { guard := p, sr := [a, b], sw := [d] }
  | .amoMax p d a b => { guard := p, sr := [a, b], sw := [d] }
  | .amoMaxu p d a b => { guard := p, sr := [a, b], sw := [d] }
  | .amoMin p d a b => { guard := p, sr := [a, b], sw := [d] }
  | .amoMinu p d a b => { guard := p, sr := [a, b], sw := [d] }
  | .amoAnd p d a b => { guard := p, sr := [a, b], sw := [d] }
  | .amoOr p d a b => { guard := p, sr := [a, b], sw := [d] }
  | .amoXor p d a b => { guard := p, sr := [a, b], sw := [d] }
  | .amoSwap p d a b => { guard := p, sr := [a, b], sw := [d] }
  | .amoCas p d a b => { guard := p, sr := [d, a, b], sw := [d] }
  | .amoScAdd p d a b => { guard := p, sr := [a, b], sw := [d] }
  | .amoScSwap p d a b => { guard := p, sr := [a, b], sw := [d] }
  | .amoScCas p d a b => { guard := p, sr := [d, a, b], sw := [d] }
  | .amoScMax p d a b => { guard := p, sr := [a, b], sw := [d] }
  | .amoScMin p d a b => { guard := p, sr := [a, b], sw := [d] }
  | .fenceCore p => { guard := p }
  | .fenceQuad p => { guard := p }
  | .fenceDie p => { guard := p }
  | .fencePackage p => { guard := p }
  | .fenceFabric p => { guard := p }
  | .pf p a => { guard := p, sr := [a] }
  | .wprobe p d a => { guard := p, sr := [a], sw := [d] }
  | .xNop p => { guard := p }
  | .mwld p _ _ _ => { guard := p }
  | .mtrans p _ _ _ => { guard := p }
  | .mma p _ _ _ _ => { guard := p }
  | .mmaAcc p _ _ _ _ => { guard := p }
  | .mmaTri p _ _ _ _ => { guard := p }
  | .mmaTriAcc p _ _ _ _ => { guard := p }
  | .mmaP p _ _ _ => { guard := p }
  | .mzero p _ _ => { guard := p }
  | .mdrain p _ _ _ => { guard := p }
  | .mdrainSp p _ _ => { guard := p }
  | .mdrainFab p _ _ => { guard := p }
  | .vNop p => { guard := p }
  | .vaddF p _ _ d a b => { guard := p, tr := [a, b], tw := [d] }
  | .vsubF p _ _ d a b => { guard := p, tr := [a, b], tw := [d] }
  | .vmulF p _ _ d a b => { guard := p, tr := [a, b], tw := [d] }
  | .vfma p _ _ d a b => { guard := p, tr := [d, a, b], tw := [d] }
  | .vminF p _ _ d a b => { guard := p, tr := [a, b], tw := [d] }
  | .vmaxF p _ _ d a b => { guard := p, tr := [a, b], tw := [d] }
  | .vabs p _ _ d a => { guard := p, tr := [a], tw := [d] }
  | .vneg p _ _ d a => { guard := p, tr := [a], tw := [d] }
  | .vcmpEqF p _ _ d a b => { guard := p, tr := [a, b], tw := [d] }
  | .vcmpLtF p _ _ d a b => { guard := p, tr := [a, b], tw := [d] }
  | .vcmpLeF p _ _ d a b => { guard := p, tr := [a, b], tw := [d] }
  | .vrsumF p _ _ d a => { guard := p, tr := [a], tw := [d] }
  | .vrmax p _ _ d a => { guard := p, tr := [a], tw := [d] }
  | .vrmin p _ _ d a => { guard := p, tr := [a], tw := [d] }
  | .vexp2 p _ _ d a => { guard := p, tr := [a], tw := [d] }
  | .vlog2 p _ _ d a => { guard := p, tr := [a], tw := [d] }
  | .vrcp p _ _ d a => { guard := p, tr := [a], tw := [d] }
  | .vrsq p _ _ d a => { guard := p, tr := [a], tw := [d] }
  | .vtanh p _ _ d a => { guard := p, tr := [a], tw := [d] }
  | .vsilu p _ _ d a => { guard := p, tr := [a], tw := [d] }
  | .vaddI p _ _ d a b => { guard := p, tr := [a, b], tw := [d] }
  | .vsubI p _ _ d a b => { guard := p, tr := [a, b], tw := [d] }
  | .vmulI p _ _ d a b => { guard := p, tr := [a, b], tw := [d] }
  | .vminI p _ _ d a b => { guard := p, tr := [a, b], tw := [d] }
  | .vmaxI p _ _ d a b => { guard := p, tr := [a, b], tw := [d] }
  | .vand p _ d a b => { guard := p, tr := [a, b], tw := [d] }
  | .vor p _ d a b => { guard := p, tr := [a, b], tw := [d] }
  | .vxor p _ d a b => { guard := p, tr := [a, b], tw := [d] }
  | .vshl p _ d a b => { guard := p, tr := [a, b], tw := [d] }
  | .vshr p _ d a b => { guard := p, tr := [a, b], tw := [d] }
  | .vsra p _ d a b => { guard := p, tr := [a, b], tw := [d] }
  | .vcmpEqI p _ d a b => { guard := p, tr := [a, b], tw := [d] }
  | .vcmpLtI p _ d a b => { guard := p, tr := [a, b], tw := [d] }
  | .vrsumI p _ _ d a => { guard := p, tr := [a], tw := [d] }
  | .vsel p _ d a b => { guard := p, tr := [d, a, b], tw := [d] }
  | .vmov p _ d a => { guard := p, tr := [a], tw := [d] }
  | .vbcast p _ d a _ => { guard := p, tr := [a], tw := [d] }
  | .vperm p _ d a b => { guard := p, tr := [a, b], tw := [d] }
  | .vrot p _ d a _ => { guard := p, tr := [a], tw := [d] }
  | .vrev p _ d a => { guard := p, tr := [a], tw := [d] }
  | .vcvtN p _ d a _ _ => { guard := p, tr := [a, d], tw := [d] }
  | .vcvtW p _ d a _ => { guard := p, tr := [a], tw := [d] }
  | .vcvtFi p _ _ d a _ => { guard := p, tr := [a], tw := [d] }
  | .vcvtIf p _ _ d a _ => { guard := p, tr := [a], tw := [d] }
  | .vcvtNi p d a _ => { guard := p, tr := [a, d], tw := [d] }
  | .vcvtWi p d a _ => { guard := p, tr := [a], tw := [d] }
  | .pNop p => { guard := p }
  | .pkMxint8Mm14 p q k r => { guard := p, qw := [q], prow := some (14, r), qpart := k }
  | .pkMxint8Mm15 p q k r => { guard := p, qw := [q], prow := some (15, r), qpart := k }
  | .pkMxint6Mm14 p q k r => { guard := p, qw := [q], prow := some (14, r), qpart := k }
  | .pkMxint6Mm15 p q k r => { guard := p, qw := [q], prow := some (15, r), qpart := k }
  | .pkMxint4Mm14 p q k r => { guard := p, qw := [q], prow := some (14, r), qpart := k }
  | .pkMxint4Mm15 p q k r => { guard := p, qw := [q], prow := some (15, r), qpart := k }
  | .pkE4m3Mm14 p q k r => { guard := p, qw := [q], prow := some (14, r), qpart := k }
  | .pkE4m3Mm15 p q k r => { guard := p, qw := [q], prow := some (15, r), qpart := k }
  | .pkE5m2Mm14 p q k r => { guard := p, qw := [q], prow := some (14, r), qpart := k }
  | .pkE5m2Mm15 p q k r => { guard := p, qw := [q], prow := some (15, r), qpart := k }
  | .pkFp6Mm14 p q k r => { guard := p, qw := [q], prow := some (14, r), qpart := k }
  | .pkFp6Mm15 p q k r => { guard := p, qw := [q], prow := some (15, r), qpart := k }
  | .pkE2m1Mm14 p q k r => { guard := p, qw := [q], prow := some (14, r), qpart := k }
  | .pkE2m1Mm15 p q k r => { guard := p, qw := [q], prow := some (15, r), qpart := k }
  | .uNop p => { guard := p }
  | .unpkMxint8Mm14 p q _ r => { guard := p, qr := [q], urow := some (14, r) }
  | .unpkMxint8Mm15 p q _ r => { guard := p, qr := [q], urow := some (15, r) }
  | .unpkMxint6Mm14 p q _ r => { guard := p, qr := [q], urow := some (14, r) }
  | .unpkMxint6Mm15 p q _ r => { guard := p, qr := [q], urow := some (15, r) }
  | .unpkMxint4Mm14 p q _ r => { guard := p, qr := [q], urow := some (14, r) }
  | .unpkMxint4Mm15 p q _ r => { guard := p, qr := [q], urow := some (15, r) }
  | .unpkE4m3Mm14 p q _ r => { guard := p, qr := [q], urow := some (14, r) }
  | .unpkE4m3Mm15 p q _ r => { guard := p, qr := [q], urow := some (15, r) }
  | .unpkE5m2Mm14 p q _ r => { guard := p, qr := [q], urow := some (14, r) }
  | .unpkE5m2Mm15 p q _ r => { guard := p, qr := [q], urow := some (15, r) }
  | .unpkFp6Mm14 p q _ r => { guard := p, qr := [q], urow := some (14, r) }
  | .unpkFp6Mm15 p q _ r => { guard := p, qr := [q], urow := some (15, r) }
  | .unpkE2m1Mm14 p q _ r => { guard := p, qr := [q], urow := some (14, r) }
  | .unpkE2m1Mm15 p q _ r => { guard := p, qr := [q], urow := some (15, r) }
  | .aNop p => { guard := p }
  | .cpy p _ _ _ _ _ x => { guard := p, sr := [48 + x] }
  | .gat p _ _ _ _ _ x => { guard := p, sr := [48 + x] }
  | .sct p _ _ _ _ _ x => { guard := p, sr := [48 + x] }
  | .mcastQ p _ _ _ _ _ x => { guard := p, sr := [48 + x] }
  | .rst p _ _ _ _ _ x => { guard := p, sr := [48 + x] }
  | .rld p _ _ _ _ _ x => { guard := p, sr := [48 + x] }
  | .rred p _ _ _ _ _ x => { guard := p, sr := [48 + x] }
  | .rflush p _ _ _ _ _ => { guard := p }
  | .coll p _ _ _ _ _ x => { guard := p, sr := [48 + x] }
  | .disp p _ _ _ _ _ x => { guard := p, sr := [48 + x] }
  | .ccpy p _ _ _ _ _ x => { guard := p, sr := [48 + x] }
  | .task p _ _ _ _ _ x => { guard := p, sr := [48 + x] }
  | .ctadd p _ _ _ _ y x => { guard := p, sr := [48 + x, 48 + y] }
  | .ctraise p _ _ _ _ y x => { guard := p, sr := [48 + x, 48 + y] }
  | .ctpoll p _ _ _ d y x => { guard := p, sr := [48 + x, 48 + y], pw := [d] }
  | .frecRd p _ _ _ _ _ x => { guard := p, sr := [48 + x] }
  | .frecWr p _ _ _ _ _ x => { guard := p, sr := [48 + x] }
  | _ => {}

/-- Slot index of an operation in a bundle, its operation. -/
abbrev SlotOp := Nat × Instr

/-! ## Checks at load and fetch (R145, R146) -/

/-- Tiles an operation reads or writes in its issue cycle (R59). -/
def Foot.tilesR (f : Foot) : List Nat := f.tr.map viewTile ++ (match f.prow with | some (_, r) => [r / 128] | none => [])
def Foot.tilesW (f : Foot) : List Nat := f.tw.map viewTile ++ (match f.urow with | some (_, r) => [r / 128] | none => [])

/-- The highest slot index among those that name one thing twice. -/
def clash (l : List (Nat × Nat)) : Option Nat :=
  (l.zipIdx.filterMap fun ((i, x), n) => if l.zipIdx.any (fun ((_, y), m) => n != m && x == y) then some i else none).max?

/-- What one slot's uses are, by slot index. -/
def named (ops : List SlotOp) (f : Foot → List Nat) : List (Nat × Nat) := ops.flatMap fun (i, o) => (f (foot o)).map fun x => (i, x)

/-- The kernel's own limits on an operation: loop levels and constants (R145). -/
def progOk (c : Core) (o : Instr) : Bool :=
  match o with
  | .loop _ i => i < c.prog.levels.length && (levelOf c i).kind == 0 && (levelOf c i).stages == 1
  | .loopSwp _ i => i < c.prog.levels.length && (levelOf c i).kind == 0 && (levelOf c i).stages > 1
  | .lbrk _ i => i < c.prog.levels.length && (levelOf c i).kind == 0
  | .kconst _ _ i => i < c.prog.consts.length
  | _ => true

/-- The bundle-level faults: BANK_DECODE before ILLEGAL_SLOT, each against the highest slot index involved (R59, R64, R110, R146,
R151). Cause and slot. -/
def bundleFault (ops : List SlotOp) : Option (Nat × Nat) :=
  match max (clash (named ops Foot.tilesR)) (clash (named ops Foot.tilesW)) with
  | some i => some (0x03, i)
  | none =>
    let fp := (ops.filter fun (_, o) => (foot o).fp).map Prod.fst
    let l := [clash (named ops Foot.sw), clash (named ops fun f => f.pw.filter (· != 0)), clash (named ops Foot.qw), clash (named ops Foot.use),
      clash (named ops Foot.stw), if fp.length > 1 then fp.max? else none]
    match l.foldl max none with
    | some i => some (0x01, i)
    | none => none

/-! ## The slots of a bundle -/

/-- The slots of a bundle: index, class, low bit, width (R138), C first. -/
def slotTable : List (Nat × SlotClass × Nat × Nat) :=
  [(11, .c, 352, 24), (10, .s, 324, 28), (9, .s, 296, 28), (8, .l, 268, 28), (7, .w, 240, 28), (6, .g, 208, 32), (5, .x, 176, 32),
   (4, .v, 128, 48), (3, .v, 80, 48), (2, .p, 56, 24), (1, .u, 32, 24), (0, .a, 0, 32)]

/-- A slot's field of a bundle. -/
def slotField (b : BitVec 384) (lo w : Nat) : Nat := (b.extractLsb' lo w).toNat

/- Decoding builds instructions (see Decode). -/
noncomputable section

/-- The occupied slots of a bundle, decoded in descending index, or the first slot that is no instruction (R42, R146). -/
def decodeSlots (c : Core) (b : BitVec 384) : List (Nat × SlotClass × Nat × Nat) → List SlotOp → Nat ⊕ List SlotOp
  | [], acc => .inr acc.reverse
  | (i, k, lo, w) :: l, acc =>
    let x := slotField b lo w
    if x = 0 then decodeSlots c b l acc else
    match decodeSlot k x with
    | .err _ => .inl i
    | .ok o => if progOk c o then decodeSlots c b l ((i, o) :: acc) else .inl i

/-- A bundle checked against R145: its occupied slots, or the cause and slot of its fault (R146). -/
def checkBundle (c : Core) (b : BitVec 384) : (Nat × Nat) ⊕ List SlotOp :=
  if b.extractLsb' 376 3 != 0 then .inl (0x01, 11) else
  match decodeSlots c b slotTable [] with
  | .inl i => .inl (0x01, i)
  | .inr ops => match bundleFault ops with
    | some f => .inl f
    | none => .inr ops

/-- The first dictionary entry that fails, with its fault (R144). -/
def dictFault (c : Core) : Nat → List (BitVec 384) → Option (Nat × Nat × Nat)
  | _, [] => none
  | n, b :: l => match checkBundle c b with
    | .inl (f, i) => some (n, f, i)
    | .inr _ => dictFault c (n + 1) l

end

/-! ## What issues -/

/-- The guard of an operation is true (R41). -/
def opOn (c : Core) (o : Instr) : Bool := preg c (foot o).guard

/-- Predicates a bundle reads: every occupied slot's guard, and the operands of operations whose guard is true. -/
def predsRead (c : Core) (ops : List SlotOp) : List Nat :=
  (ops.flatMap fun (_, o) => (foot o).guard :: (if opOn c o then (foot o).pr else [])).filter (· != 0)

/-- What the operations that are on name. -/
def liveNames (c : Core) (ops : List SlotOp) (f : Foot → List Nat) : List Nat := (ops.filter fun (_, o) => opOn c o).flatMap fun (_, o) => f (foot o)

/-- Rows P reads, and rows U writes with their latencies, as the mode registers stand (R257). -/
def prowsOf (c : Core) (f : Foot) : List Nat :=
  match f.prow with
  | none => []
  | some (m, r) => if (pkMode (mmReg c m)).lw then [r, r + 1] else [r]

def urowsOf (c : Core) (f : Foot) : List Nat :=
  match f.urow with
  | none => []
  | some (m, r) => if (pkMode (mmReg c m)).lw then [r, r + 1] else [r]

/-- Words of a vector operand field. -/
def viewCells (v : Nat) : List (Nat × Nat) := (upTo 128).map (viewWord v)

/-- Whether two operand fields name a word in common. -/
def viewsMeet (a b : Nat) : Bool := viewTile a == viewTile b && ((viewCells a).any fun w => (viewCells b).contains w)

/-- The packed register a pending result writes. -/
def wbQ : WbDest → Option Nat
  | .qbits q _ _ _ => some q
  | .qcomp q _ _ _ => some q
  | _ => none

/-- Whether a P operation reads scales that a pending result writes: under KEEP it takes the companion bytes of its own part (R257,
R258). -/
def keepsScale (c : Core) (f : Foot) (q off len : Nat) : Bool :=
  match f.prow with
  | none => false
  | some (m, _) =>
    let v := pkMode (mmReg c m)
    let lo := 8 * (256 * f.qpart / blkSize v.blk)
    let hi := 8 * ((256 * f.qpart + 255) / blkSize v.blk) + 8
    v.srule == 2 && f.qw.contains q && off < hi && lo < off + len

/-- Whether a pending fixed-latency result is among what a bundle reads (R182). -/
def wbRead (c : Core) (ops : List SlotOp) (d : WbDest) : Bool :=
  match d with
  | .sreg n _ => (liveNames c ops Foot.sr).contains n
  | .pred n _ => (predsRead c ops).contains n
  | .vop x _ => ((liveNames c ops Foot.tr) ++ liveNames c ops (prowsOf c)).any fun v => viewsMeet v x
  | .qbits q .. => (liveNames c ops Foot.qr).contains q
  | .qcomp q off len _ => (liveNames c ops Foot.qr).contains q || (ops.any fun (_, o) => opOn c o && keepsScale c (foot o) q off len)

/-- λ of an operation with a fixed-latency result (R302, R304, R305), on the core before it; none for the rest. -/
def fixedLat (c : Core) (o : Instr) : Option Nat :=
  let fp := fun (n : Nat) => if scrRM c.r.scr then none else some n
  match o with
  | .mul .. | .mulh .. | .mulhu .. => some 3
  | .div _ _ a b | .rem _ _ a b => some (divLatS (sreg c a) (sreg c b))
  | .divu _ _ a b | .remu _ _ a b => some (divLatU (sreg c a) (sreg c b))
  | .fmin .. | .fmax .. | .fabs .. | .fneg .. | .fcmpEq .. | .fcmpLt .. | .fcmpLe .. | .fcmpUn .. => fp 2
  | .fadd .. | .fsub .. | .fmul .. | .fcvtD2l .. | .fcvtL2d .. | .fcvtD2s .. | .fcvtS2d .. => fp 4
  | .fdiv .. => fp 20
  | .fsqrt .. => fp 24
  | .ldsB .. | .ldsH .. | .ldsW .. | .ldsD .. | .vld32 .. | .vld16 .. | .qld .. => some 3
  | .vmov .. | .vsel .. | .vbcast .. | .vperm .. | .vrot .. | .vrev .. | .vaddI .. | .vsubI .. | .vmulI .. | .vminI .. | .vmaxI .. | .vand .. | .vor ..
  | .vxor .. | .vshl .. | .vshr .. | .vsra .. | .vcmpEqI .. | .vcmpLtI .. => some 3
  | .vfma .. => some 5
  | .vrsumF .. | .vrmax .. | .vrmin .. | .vrsumI .. => some 8
  | .vexp2 .. | .vlog2 .. | .vrcp .. | .vrsq .. | .vtanh .. | .vsilu .. => some 10
  | _ =>
    let f := foot o
    if !f.tw.isEmpty then some 4
    else match f.prow with
      | some (m, _) => some (if (pkMode (mmReg c m)).lw then 3 else 2)
      | none => if f.urow.isSome then some 2
        else if f.fp || f.sw.isEmpty && f.pw.isEmpty then none
        else match o.slotClass with
          | some .s => some 1
          | some .l => some 1
          | some .c => if f.pw.isEmpty then some 1 else none
          | _ => none

/-- Whether an operation's result would land no later than a pending one to the same register (R301). -/
def wbOvertakes (c : Core) (o : Instr) (e : WbEntry) : Bool :=
  opOn c o &&
  match fixedLat c o with
  | none => false
  | some n =>
    let f := foot o
    let l := c.q.act + n - 1
    match e.dest with
    | .sreg d _ => d != 0 && f.sw.contains d && l ≤ e.land
    | .pred d _ => d != 0 && f.pw.contains d && l ≤ e.land
    | .vop x _ => (f.tw.any fun v => viewsMeet v x && l ≤ e.land) || ((urowsOf c f).zipIdx.any fun (v, k) => viewsMeet v x && l + k ≤ e.land)
    | .qbits q .. => f.qw.contains q && l ≤ e.land
    | .qcomp q .. => f.qw.contains q && l ≤ e.land

/-- STALL_UNDERSIZED: with CHK = 1, a bundle reads or overtakes a fixed-latency result not yet written (R182, R301). The highest slot
concerned. Slots already completed issue no more (R447). -/
def undersized (c : Core) (ops : List SlotOp) : Option Nat :=
  if !c.r.check.getLsbD 0 then none else
  ((ops.filter fun (i, _) => !c.q.skipMask.getLsbD i).filter fun (_, o) => c.f.wb.any fun e => e.land ≥ c.q.act && (wbRead c [(0, o)] e.dest || wbOvertakes c o e)).map Prod.fst |>.max?

/-- Scalar registers and predicates whose variable-latency result is pending (R33, R198, R218, R269). -/
def pendingS (c : Core) : List Nat :=
  ((c.f.rat.toList ++ c.f.ratWait).filter fun r => r.op != 0x37).map RatOp.d ++ (c.f.gq.filter fun g => g.kind.writesReg).map GOp.dst
def pendingP (c : Core) : List Nat :=
  ((c.f.rat.toList ++ c.f.ratWait).flatMap fun r => if r.op = 0x37 then [2 * r.d, 2 * r.d + 1] else []) ++ (c.f.cmds.filter fun x => x.op == 0x0F).map Cmd.pd

/-- Whether a bundle touches a scalar register. -/
def touchesS (c : Core) (ops : List SlotOp) (n : Nat) : Bool :=
  n != 0 && ((liveNames c ops Foot.sr).contains n || (liveNames c ops Foot.sw).contains n)

/-- Whether a bundle touches a predicate. -/
def touchesP (c : Core) (ops : List SlotOp) (n : Nat) : Bool := n != 0 && ((predsRead c ops).contains n || (liveNames c ops Foot.pw).contains n)

/-- Whether a bundle waits for a variable-latency result (R33). -/
def interlocked (c : Core) (ops : List SlotOp) : Bool := (pendingS c).any (touchesS c ops) || (pendingP c).any (touchesP c ops)

/-- Whether every occupied slot of a bundle that has one carries a false guard (R42). -/
def skipped (c : Core) (ops : List SlotOp) : Bool := !ops.isEmpty && ops.all fun (_, o) => !opOn c o

end Sys2Proof.Machine
end

