-- ==== Sys2Proof/Machine/Loader.lean ====
section
/-! DEFINITION. Machine/Loader: kernel images (spec/18, R317 to R325): reading and checking one, the shape of a gang (spec/02, R21 to
R26), and the state a tile task starts in. -/

namespace Sys2Proof.Machine

/-- The kernel image as the loader holds it; handle-plan entries are (handle, descriptor, init image). -/
structure Image where
  dict : List (BitVec 384)
  code : List (BitVec 16)
  consts : List Word
  levels : List Level
  presets : List (Nat × BitVec 256)
  plan : List (Nat × Word × List Byte)
  rspill : Nat
  seed : Word
  power : Nat
deriving DecidableEq, Repr

/-- Bytes of an image, read through pages of local HBM of kind STRONG, RELEASE or UNORDERED with the read right; none where one
cannot be read (R323, reason 0x09). -/
def imgSegs (s : State) (asid : Nat) : Nat → Nat → Nat → Option (List Byte)
  | 0, _, n => if n = 0 then some [] else none
  | k + 1, va, n =>
    if n = 0 then some [] else
    match tableLook s asid va with
    | .bad _ => none
    | .hit e => match (entRes e va).bounded n with
      | .loc pa kd rt span _ _ =>
        let m := min n span
        if (kd == kSTRONG || kd == kRELEASE || kd == kUNORDERED) && hasRight rt rR && !badSpan s pa m then
          (imgSegs s asid k (va + m) (n - m)).map fun l => memBytes s.mem pa m ++ l
        else none
      | _ => none

def imgRead (s : State) (asid va n : Nat) : Option (List Byte) := imgSegs s asid (n / 2 ^ 18 + 2) va n

/-- Entries of a section. -/
def entries (sz n : Nat) (b : List Byte) : List (List Byte) := (upTo n).map fun i => slice b (sz * i) sz

/-- A field of a byte list. -/
def fieldAt (b : List Byte) (off n : Nat) : Nat := leNat (slice b off n)

/-- Whether bytes are all zero. -/
def allZero (b : List Byte) : Bool := b.all (· == 0)

/-- A level of the loop table (R319). -/
def levelAt (e : List Byte) : Level :=
  let w := fieldAt e 4 4
  { kind := bits w 31 30, bound := fieldAt e 0 4, quad := bit w 29, stages := bits w 28 26 + 1, bstart := bits w 23 0, bend := bits (fieldAt e 8 4) 23 0 }

/-- Whether an entry keeps the layout and the limits of one level (R21, R319). -/
def levelOk (codelen : Nat) (e : List Byte) : Bool :=
  let w := fieldAt e 4 4
  let l := levelAt e
  l.kind != 3 && (!l.quad || l.kind == 1) && bits w 25 24 == 0 && bits (fieldAt e 8 4) 31 24 == 0 && fieldAt e 12 4 == 0 &&
  (if l.kind = 0 then l.bstart ≤ l.bend && l.bstart < codelen && l.bend < codelen else l.stages == 1 && l.bstart == 0 && l.bend == 0)

/-- No spatial level follows a TEMPORAL one, and a pipelined level is the last TEMPORAL one (R22). -/
def levelOrder : List Level → Bool
  | [] => true
  | l :: r => (l.kind != 0 || r.all (fun m => m.kind == 0)) && (l.stages ≤ 1 || r.all (fun m => m.kind != 0)) && levelOrder r

/-- The whole loop table: one level at least (R21, R22). -/
def levelsOk (codelen : Nat) (es : List (List Byte)) : Bool :=
  let ls := es.map levelAt
  !es.isEmpty && es.all (levelOk codelen) && (ls.filter fun l => l.kind != 0).length ≤ 3 && (ls.filter fun l => l.kind == 2).length ≤ 1 &&
  (ls.filter fun l => l.stages > 1).length ≤ 1 && levelOrder ls

/-- Whether numbers repeat. -/
def repeats : List Nat → Bool
  | [] => false
  | a :: l => l.contains a || repeats l

/-- A stream preset (R318, R62): indices above their counts are reduced. -/
def presetOf (e : List Byte) : Nat × BitVec 256 :=
  let x : BitVec 256 := BitVec.ofNat 256 (leNat (e.drop 8))
  let red := fun (x : BitVec 256) (hi lo chi clo : Nat) =>
    setBits x lo (hi + 1 - lo) (BitVec.ofNat 256 (bits x.toNat hi lo % (bits x.toNat chi clo + 1)))
  (fieldAt e 0 1, red (red (red x 47 32 211 196) 31 16 172 157) 15 0 133 118)

def presetOk (e : List Byte) : Bool :=
  let x := leNat (e.drop 8)
  fieldAt e 0 1 < 16 && allZero (slice e 1 7) && (fmtBits (bits x 246 242)).isSome && bits x 239 237 < 6 && bits x 236 234 == 0 && bits x 55 48 == 0

/-- A handle-plan entry (R318): handle, descriptor, INITOFF, INITLEN. -/
def planOk (initlen : Nat) (e : List Byte) : Bool :=
  let (h, _, bad) := shapeOf (BitVec.ofNat 64 (fieldAt e 8 8))
  fieldAt e 0 1 < 255 && allZero (slice e 1 7) && !bad && fieldAt e 16 4 + fieldAt e 20 4 ≤ initlen && fieldAt e 20 4 ≤ h.size

/-- A relocation (R321). -/
def relocOk (nsym nconst initlen : Nat) (e : List Byte) : Bool :=
  let t := fieldAt e 0 2
  let g := fieldAt e 4 4
  fieldAt e 2 2 < nsym && allZero (slice e 16 8) && ((t == 1 && g < nconst) || (t == 2 && g % 8 == 0 && g + 8 ≤ initlen))

/-- The value bound to a symbol (R322). -/
def boundSym (s : State) (asid image i : Nat) : Option Word :=
  (s.binds.find? fun (a, m, k, _) => a == asid && m == image && k == i).map fun (_, _, _, v) => v

/-- Sections as the header names them: offset and bytes, in the order of R317. -/
def sectionsOf (h : List Byte) : List (Nat × Nat) :=
  let f := fieldAt h
  let len := [48 * f 16 2, 2 * f 32 4, 8 * f 18 2, 16 * f 20 1, 40 * f 21 1, 24 * f 22 2, f 80 4, 48 * f 24 2, 32 * f 26 2, 24 * f 28 4]
  len.zipIdx.map fun (n, i) => (f (40 + 4 * i) 4, n)

/-- Nonempty sections lie behind the header, within SIZE and apart (R317). -/
def sectionsApart (size : Nat) (l : List (Nat × Nat)) : Bool :=
  let ne := l.filter fun (_, n) => n != 0
  l.all (fun (o, _) => o % 8 == 0) && ne.all (fun (o, n) => 128 ≤ o && o + n ≤ size) &&
  ne.zipIdx.all fun ((o, n), i) => ne.zipIdx.all fun ((p, m), j) => i == j || o + n ≤ p || p + m ≤ o

/-- Whether the counts keep their limits (R317), CODELEN from 1 on (log 116). -/
def countsOk (h : List Byte) : Bool :=
  let f := fieldAt h
  f 16 2 ≤ 4096 && f 18 2 ≤ 256 && f 20 1 ≤ 8 && f 21 1 ≤ 16 && f 22 2 ≤ 255 && f 24 2 ≤ 1024 && f 26 2 ≤ 4096 && f 28 4 ≤ 65536 &&
  1 ≤ f 32 4 && f 32 4 ≤ 2 ^ 24 && f 36 4 ≤ 65536 && f 84 4 ≤ 2 ^ 28

/-- Places the BANK handles of a plan, and h255, on an empty core (R52, R324); false where one finds no place. -/
def planFits (s : State) (plan : List (Nat × Word × List Byte)) (rspill : Nat) : Bool :=
  let put := fun (c : Option Core) (h : Nat) (d : Word) =>
    match c with
    | none => none
    | some k =>
      let (e, nlog, _) := shapeOf d
      if e.shadow then some k else
      (placeHandle s 0 k e nlog).map fun e' => { k with m := { k.m with htab := spSet k.m.htab h (hentWord e') } }
  let c := plan.foldl (fun c (h, d, _) => put c h d) (some Core.reset)
  (put c 255 (BitVec.ofNat 64 ((max rspill 1 - 1) * 2 ^ 48))).isSome

/-- The image at a virtual address, or the reason it is rejected for (R323). Without `body`, as far as the checks need it: INIT, CONST,
DICT and CODE are first needed by the loader steps, once the cores are known and every handle has found its place. -/
def loadImage (s : State) (asid va : Nat) (body : Bool) : Nat ⊕ Image :=
  let need := fun (c : Bool) (r : Nat) (k : Nat ⊕ Image) => if c then k else .inl r
  let rd := fun (o n : Nat) (k : List Byte → Nat ⊕ Image) => match imgRead s asid (va + o) n with | some b => k b | none => .inl 0x09
  rd 0 128 fun h =>
  let f := fieldAt h
  need (f 0 4 == 0x4B504F53 && f 4 2 == 1 && f 7 1 < 32 && allZero (slice h 88 40)) 0x01 <|
  need (f 6 1 == 0xB1) 0x02 <|
  let sec := sectionsOf h
  need (countsOk h && sectionsApart (f 84 4) sec) 0x03 <|
  let part := fun (i : Nat) (k : List Byte → Nat ⊕ Image) => rd (sec.getD i (0, 0)).1 (sec.getD i (0, 0)).2 k
  let late := fun (i : Nat) (k : List Byte → Nat ⊕ Image) => if body then part i k else k []
  part 3 fun lb =>
  let les := entries 16 (f 20 1) lb
  need (levelsOk (f 32 4) les) 0x04 <|
  part 4 fun sb =>
  let ses := entries 40 (f 21 1) sb
  need (ses.all presetOk && !repeats (ses.map fun e => fieldAt e 0 1)) 0x05 <|
  part 5 fun hb =>
  let hes := entries 24 (f 22 2) hb
  need (hes.all (planOk (f 80 4)) && !repeats (hes.map fun e => fieldAt e 0 1)) 0x06 <|
  part 9 fun rb =>
  let res := entries 24 (f 28 4) rb
  need (res.all (relocOk (f 26 2) (f 18 2) (f 80 4)) && (upTo (f 26 2)).all fun i => (boundSym s asid va i).isSome) 0x07 <|
  need (planFits s (hes.map fun e => (fieldAt e 0 1, BitVec.ofNat 64 (fieldAt e 8 8), [])) (f 36 4)) 0x08 <|
  late 6 fun ib =>
  late 2 fun cb =>
  let val := fun (e : List Byte) => (boundSym s asid va (fieldAt e 2 2)).getD 0 + BitVec.ofNat 64 (fieldAt e 8 8)
  let ib := res.foldl (fun b e => if fieldAt e 0 2 = 2 then patch b (fieldAt e 4 4) (toBytes (val e).toNat 8) else b) ib
  let cs := (entries 8 (f 18 2) cb).map fun b => BitVec.ofNat 64 (leNat b)
  let cs := res.foldl (fun l e => if fieldAt e 0 2 = 1 then l.set (fieldAt e 4 4) (val e) else l) cs
  let plan := hes.map fun e => (fieldAt e 0 1, BitVec.ofNat 64 (fieldAt e 8 8), slice ib (fieldAt e 16 4) (fieldAt e 20 4))
  late 0 fun db =>
  late 1 fun wb =>
  .inr { dict := (entries 48 (f 16 2) db).map fun b => BitVec.ofNat 384 (leNat b)
         code := (entries 2 (f 32 4) wb).map fun b => BitVec.ofNat 16 (leNat b)
         consts := cs, levels := les.map levelAt, presets := ses.map presetOf, plan := plan, rspill := f 36 4,
         seed := BitVec.ofNat 64 (f 8 8), power := f 7 1 }

/-! ## The shape of a gang -/

/-- The two overrides of a record: valid, level, bound (R336). -/
def overrides (b : List Byte) : List (Bool × Nat × Nat) :=
  let w := recWord b 7
  [(bit w 63, bits w 62 60, bits w 59 32), (bit w 31, bits w 30 28, bits w 27 0)]

/-- The loop table with a record's overrides applied (R23). -/
def boundsInForce (b : List Byte) (ls : List Level) : List Level :=
  (overrides b).foldl (fun ls (v, l, n) => if v then match ls[l]? with | some e => ls.set l { e with bound := n } | none => ls else ls) ls

/-- Spatial levels. -/
def spatial (ls : List Level) : List Level := ls.filter fun l => l.kind != 0

/-- G (R23). -/
def gangSize (ls : List Level) : Nat := (spatial ls).foldl (fun n l => n * l.bound) 1

/-- The dies of a partition, ascending. -/
def partDies (cores : List Nat) : List Nat := (upTo 4).filter fun d => cores.any fun n => dieOf n == d

/-- Whole quads of a partition: their first cores. -/
def partQuads (cores : List Nat) : List Nat := (upTo 48).filterMap fun q => if (upTo 4).all (fun k => cores.contains (4 * q + k)) then some (4 * q) else none

/-- Whether a gang fits a partition (R24). -/
def gangFits (cores : List Nat) (ls : List Level) : Bool :=
  let g := gangSize ls
  let dies := (spatial ls).find? fun l => l.kind == 2
  let quad := ls.any Level.quad
  let q := partQuads cores
  g ≤ cores.length &&
  (match dies with
   | none => !quad || g / 4 ≤ q.length
   | some l =>
     let on := fun (need : Nat) (l : List Nat) (d : Nat) => need ≤ (l.filter fun n => dieOf n == d).length
     l.bound = 0 || (l.bound ≤ ((upTo 4).filter (on (g / l.bound) cores)).length && (!quad || l.bound ≤ ((upTo 4).filter (on (g / (4 * l.bound)) q)).length)))

/-- Whether a launch shape fails (R24). -/
def shapeFails (cores : List Nat) (ls : List Level) : Bool :=
  ls.any (fun l => l.kind == 2 && l.bound > 4) || ls.any (fun l => l.quad && l.bound % 4 != 0) || !gangFits cores ls

/-- The coordinates of a gang, the last level fastest. -/
def coordsOf : List Level → List (List Nat)
  | [] => [[]]
  | l :: r => (upTo l.bound).flatMap fun i => (coordsOf r).map fun t => i :: t

/-- What placing has chosen so far: cores by member, and the quad taken for each group of four (R25). -/
structure Placing where
  cores : List Nat
  quads : List (List Nat × Nat)
deriving DecidableEq, Repr

/-- Places one member: `order` are the free cores in the order they are tried, `dies` the partition's dies (R25). Of a table with two
Quad levels the first one's coordinates are placed by quads, the other's as those of any level (log 86). -/
def placeOne (order dies : List Nat) (sp : List Level) (p : Option Placing) (co : List Nat) : Option Placing :=
  match p with
  | none => none
  | some p =>
    let lc := sp.zip co
    let okDie := fun (n : Nat) => match lc.find? fun (l, _) => l.kind == 2 with
      | some (_, d) => dies[d]? == some (dieOf n)
      | none => true
    match lc.zipIdx.find? fun ((l, _), _) => l.quad with
    | none => (order.find? fun n => okDie n && !p.cores.contains n).map fun n => { p with cores := p.cores ++ [n] }
    | some ((_, q), i) =>
      let key := setAt co i (q / 4)
      match p.quads.find? fun (k, _) => k == key with
      | some (_, b) => some { p with cores := p.cores ++ [b + q % 4] }
      | none =>
        ((order.map fun n => n / 4 * 4).find? fun b => okDie b && !(p.quads.any fun (_, x) => x == b) && (upTo 4).all fun k => order.contains (b + k)).map
          fun b => { cores := p.cores ++ [b + q % 4], quads := p.quads ++ [(key, b)] }

/-- The cores of a gang in the order of its coordinates, among free cores tried in an order; none when they do not suffice (R25). -/
def placeGang (cores order : List Nat) (ls : List Level) : Option (List Nat) :=
  let sp := spatial ls
  ((coordsOf sp).foldl (placeOne order (partDies cores) sp) (some ⟨[], []⟩)).map Placing.cores

/-! ## State at the first bundle -/

/-- Fills a new handle with zeros and its init image (R324). -/
def fillHandle (s : State) (cn : Nat) (e : HEnt) (init : List Byte) : State :=
  let s := if e.shadow then
      let ls := (upTo e.lines).map fun i => dieOf cn * 65536 + e.banks + i
      { s with shadow := ls.foldl (fun m l => spSet m l 0) s.shadow, shadowEp := ls.foldl (fun m l => spDel m l) s.shadowEp }
    else modCore s cn fun c =>
      let ls := (upTo e.lines).map e.place
      { c with m := { c.m with spad := ls.foldl (fun m l => spSet m l 0) c.m.spad, spadEp := ls.foldl (fun m l => spDel m l) c.m.spadEp } }
  hWrite s cn e 0 init

/-- Allocates one handle of the plan on a core; none where it finds no place. -/
def planHandle (s : State) (cn h : Nat) (d : Word) (init : List Byte) : Option State :=
  let c := coreAt s cn
  let (e, nlog, _) := shapeOf d
  (placeHandle s cn c e nlog).map fun e' =>
    let s := installHandle s cn h (hword c h) e'
    fillHandle s cn (handle (coreAt s cn) h) init

/-- The handle plan, then h255: max(RSPILL, 1) rows of 4 bytes, RAW, in one bank (R324). -/
def loadHandles (s : State) (cn : Nat) (img : Image) : Option State :=
  let l := img.plan ++ [(255, BitVec.ofNat 64 ((max img.rspill 1 - 1) * 2 ^ 48), [])]
  l.foldl (fun s (h, d, b) => match s with | some s => planHandle s cn h d b | none => none) (some s)

/-- RNGS at the start of member `g` (R84). -/
def rngsAt (seed : Word) (g : Nat) : Word :=
  let x := seed ^^^ BitVec.ofNat 64 (g * 0x9E3779B97F4A7C15)
  if x = 0 then 1 else x

/-- Scalar registers at the first bundle (R26, R325). -/
def startRegs (co : List Nat) (sp : List Level) (size : Nat) (arg : Word) : Sp Word :=
  let v := fun (k : Nat) => BitVec.ofNat 64 (co.getD k 0)
  let b := fun (k : Nat) => BitVec.ofNat 64 ((sp[k]?.map Level.bound).getD 1)
  ([(1, v 0), (2, v 1), (3, v 2), (4, b 0), (5, b 1), (6, b 2), (7, BitVec.ofNat 64 size), (8, arg)] : Sp Word)

/-- The gang index of a member (R84). -/
def gangIndex (co : List Nat) (sp : List Level) : Nat :=
  let b := fun (k : Nat) => (sp[k]?.map Level.bound).getD 1
  co.getD 0 0 + b 0 * (co.getD 1 0 + b 1 * co.getD 2 0)

/-- A core as a member of a gang finds it (R26, R325, R331); counters, loss counts, handle generations, caches and performance counters
stay as they are. Everything Reset U takes free values of a new epoch. -/
def startCore (s : State) (cn : Nat) (b : Bind) (img : Image) (ls : List Level) (chk : Bool) (arg : Word) : State :=
  let (ep, s) := drawFresh s
  let key := 192 * (ctxOf s b.asid b.part).getD 0 + cn
  let first := !s.ranOn.contains key
  modCore { s with ranOn := if first then key :: s.ranOn else s.ranOn } cn fun c =>
    { Core.reset with
      m := { Mems.reset with htab := c.m.htab.map fun (n, w) => (n, w &&& ~~~(1#64 <<< 63)), epoch := ep + 1, zeroed := first }
      r := { Regs.reset with s := startRegs b.coords (spatial ls) b.size arg, st := img.presets.foldl (fun m (n, x) => spSet m n x) [],
                             check := if chk then 1 else 0, rngs := rngsAt img.seed (gangIndex b.coords (spatial ls)), alnLoss := c.r.alnLoss, cvtLoss := c.r.cvtLoss }
      q := { Seqr.reset with running := true, ready := (img.dict.length + 1) / 2 + 64, last := c.q.last, hint := 15 }
      prog := { dict := img.dict, code := img.code, consts := img.consts, levels := ls, seed := img.seed, power := img.power }
      bind := some b, ct := c.ct, tlbR := c.tlbR, tlbP := c.tlbP, pmc := c.pmc, dbgErr := c.dbgErr, store := c.store }

/-- Starts one member: registers, then its handles. -/
def startMember (s : State) (cn : Nat) (b : Bind) (img : Image) (ls : List Level) (chk : Bool) (arg : Word) : Option State :=
  loadHandles (startCore s cn b img ls chk arg) cn img

end Sys2Proof.Machine
end

