-- ==== Sys2Proof/Machine/Sched.lean ====
section
/-! DEFINITION. Machine/Sched: queues, contexts, gangs (spec/19, R328 to R351, R446): commands, reading records, dispatch, stopping and
saving members, restoring them, retirement, teardown; filler (spec/25, R433). Rows are PF and VF commands and the scheduler's own
events; which one comes next is the agenda's choice. -/

namespace Sys2Proof.Machine

/-! ## Commands (R332, R352) -/

/-- Which function hears of a command's end: the VF whose status register it has (R404), else the owner of the ASID (R332). -/
def tellOf (s : State) (sts asid : Nat) : Nat := if sts < 2 ^ 40 then ownerOf s asid else sts / 2 ^ 40

/-- A command ends: RESULT in the status register, and the event of its completion. -/
def cmdDone (s : State) (sts asid op target result : Nat) : State :=
  let v := barRd s sts
  post (barWr s sts ((v &&& ~~~(0xFF#64 <<< 48)) ||| (BitVec.ofNat 64 result <<< 48))) (tellOf s sts asid) 3 [sts, op, target, result]

def schedSts : Nat := 0x00010020

/-- A command that completes later has been taken: RESULT 0, no event yet. -/
def cmdTaken (s : State) (sts : Nat) : State := barWr s sts (barRd s sts &&& ~~~(0xFF#64 <<< 48))

/-! ## Gangs -/

def gangAt (s : State) (g : Nat) : Option Gang := spFind s.gangs g

def modGang (s : State) (g : Nat) (f : Gang → Gang) : State :=
  match gangAt s g with | some x => { s with gangs := spSet s.gangs g (f x) } | none => s

/-- The end of a command of the scheduler: Q_TEARDOWN and PREEMPT that are under way complete, with their event, when the queue or gang
has reached its state (R332, R348, R349, log 35), where the command was given (R404). -/
def schedEnd (s : State) (sts asid op target result : Nat) : State :=
  if result = 0 && op = 4 then cmdTaken (modQ s target fun x => { x with tsts := sts }) sts
  else if result = 0 && op = 6 then cmdTaken (modGang s target fun g => { g with psts := sts }) sts
  else cmdDone s sts asid op target result

/-- The lowest gang id that no gang holds (R446). -/
def freeGangId (s : State) : Option Nat := (upTo 65536).find? fun n => (gangAt s n).isNone

/-- Gangs of a queue, running or saved. -/
def gangsOf (s : State) (q : Nat) : List (Nat × Gang) := s.gangs.filter fun (_, g) => g.queue == q

/-- Whether a gang has members on cores. -/
def Gang.placed (g : Gang) : Bool := g.state ≤ 1

/-- Whether a gang occupies cores of a partition for a context. -/
def ctxBusy (s : State) (ctx : Nat) : Bool := s.gangs.any fun (_, g) => g.ctx == ctx && g.placed

/-- Ends a gang: its record has its status (R446). -/
def dropGang (s : State) (g : Nat) : State := { s with gangs := spDel s.gangs g }

/-! ## Cores -/

/-- What a core keeps when a member leaves it: counters, loss counts, handle generations, translation caches, performance counters. -/
def vacate (c : Core) : Core :=
  { Core.reset with
    m := { Mems.reset with htab := c.m.htab.map fun (n, w) => (n, w &&& ~~~(1#64 <<< 63)) }
    r := { Regs.reset with alnLoss := c.r.alnLoss, cvtLoss := c.r.cvtLoss }
    q := { Seqr.reset with last := c.q.last, hint := c.q.hint }
    ct := c.ct, tlbR := c.tlbR, tlbP := c.tlbP, pmc := c.pmc, dbgErr := c.dbgErr, store := c.store }

/-- Frees the cores of a gang. -/
def freeCores (s : State) (l : List Nat) : State := l.foldl (fun s n => modCore s n vacate) s

/-- The versioned access that holds the line (R220). -/
def heldVer (c : Core) : Option GOp := match c.q.holdG with | .ver n _ => c.f.gq.find? fun g => g.seq == n && (g.kind == .ldv || g.kind == .stv) | _ => none

/-- What a stop records (R44, R45, R365): in a hold, the bundle that holds the line with the slots held open, and the address of a
versioned access that holds it (R295). -/
def stopInfo (c : Core) (cause detail flags : Nat) : TrapInfo :=
  if c.q.between then ⟨cause, detail, 0xFF, 0, c.q.pc, dxAt c c.q.pc, c.q.skipMask, flags⟩
  else ⟨cause, detail, 0xFF, ((heldVer c).map GOp.va).getD 0, c.q.lastPc, c.q.lastDx, heldMask c [], flags⟩

/-- The G access of a stop's record (R365): the versioned one that holds the line, one parked, or the first not performed. -/
def stopAccess (c : Core) : Option GOp :=
  match heldVer c with
  | some g => some g
  | none => match c.f.gq.find? (fun g => match g.st with | .parked _ _ => true | _ => false) with | some g => some g | none => c.f.gq.head?

/-- A stopped member's line: what is in flight stays with it (R266, R366), the combining buffer is flushed (R118). -/
def stopCore (s : State) (n cause detail flags : Nat) : State :=
  modCore s n fun c =>
    let c := xRetire c
    let rec' := faultRecord c (stopInfo c cause detail flags) (stopAccess c)
    let k := setAside c none
    { k with q := { k.q with aside := (match k.q.aside with | a :: l => { a with carry := c.q.carry } :: l | [] => []), frec := rec', running := false, stopped := true, stopReq := 0, stopT := s.dev, landed := false, logged := false } }

/-- Whether a member stands at a landing point: waiting in stage 4 of `sstep` or in a counter wait (R44), whatever else
holds the line with it. -/
def waitsAtLanding (c : Core) : Bool := match c.q.hold with | .counter .. => true | .sstep 4 => true | _ => false

/-- A member whose bundle holds the line will issue it again, for the slots it is held for (R447). -/
def reissue (c : Core) : Core := if c.q.between then c else { undoHold c with q := { (undoHold c).q with pc := c.q.lastPc, skipMask := heldMask c [] } }

/-- A member acts on its stop request (R44, R414): a debug stop halts it with its gang in place; a parting of the replay traps (R425). -/
def landingStop (s : State) (n : Nat) : State :=
  let c := coreAt s n
  if c.q.rhalt then
    takeTrap (modCore s n fun c => let k := reissue c; { k with q := { k.q with rhalt := false } }) n (stopInfo c 0x1F 0 0) false none
  else if c.q.stopReq = 2 then
    modCore (stopCore s n 0x1E (c.q.brk.getD 0xFF) 0) n fun c => { c with halted := true, dbgDetail := leNat (slice c.q.frec 9 1), q := { c.q with brk := none } }
  else stopCore s n 0x1D 0 0

/-- A stopped member goes on from a device time (R44, R170, R220, R366, R420): what was in flight continues, what it was held for holds it
again, with its whole time-out. -/
def Core.goOn (img : Core) (t : Nat) : Core :=
  let k := takeBack img
  { k with
    conf := [], lines := [], asks := []
    f := { k.f with gq := k.f.gq.map (fun g => { g with t0 := t }), cmds := k.f.cmds.map fun x => { x with reg := false, ivl := 0 } }
    q := { k.q with hold := k.q.hold.again, holdG := (match k.q.holdG with | .ver m _ => .ver m t | h => h), running := !k.q.retired,
                    stopped := false, landed := false, logged := false, waitT := t } }

/-- A member is stopped wherever it is (R45). -/
def forcedStop (s : State) (n : Nat) : State := stopCore s n 0x1D 0 4

/-- PREEMPT_FORCED_STOP: core `c` has reached no landing point for 200 µs since the request (R45). -/
def execPreemptForcedStop (c : Nat) (s : State) : Ans :=
  let k := coreAt s c
  if k.q.running && k.q.stopReq == 1 && s.dev ≥ k.q.stopT + nsDev 200000 then .next (forcedStop s c) else .next s

/-- FILLER_STOP_TIMEOUT: filler member `c` has reached no landing point for 1 µs (R433). -/
def execFillerStopTimeout (c : Nat) (s : State) : Ans :=
  let k := coreAt s c
  if k.q.running && k.q.stopReq == 4 && s.dev ≥ k.q.stopT + nsDev 1000 then .next (forcedStop s c) else .next s

/-! ## Contexts (R330, R348) -/

/-- Clears memory from an address. -/
def memClear (m : List Host.Cell) (a n : Nat) : List Host.Cell := m.filter fun (x, _) => x < a || a + n ≤ x

/-- Stores a counter file at an address. -/
def putFile (s : State) (a : Nat) (f : Sp Word) : State :=
  { s with mem := f.foldl (fun m (n, w) => if n < 512 then memPutBytes m (a + 8 * n) (bvBytes w 8) else m) (memClear s.mem a 4096) }

/-- A counter file from an address. -/
def getFile (s : State) (a : Nat) : Sp Word :=
  (upTo 512).filterMap fun n => let v := memNat s (a + 8 * n) 8; if v = 0 then none else some (n, BitVec.ofNat 64 v)

/-- Granted shadow lines of a partition, one per line, as keys of shadow storage, die by die. -/
def grantedLines (s : State) (part : Nat) : List Nat :=
  let (f, n) := shadowGrant s part
  (partDies (partCores s part)).flatMap fun d => (upTo n).map fun i => d * 65536 + f + i

/-- Saves the context-wide part (R348). -/
def saveWide (s : State) (ctx : Nat) : State :=
  let part := ctxPart s ctx
  let base := ctxWide s ctx
  let cs := partCores s part
  let s := cs.zipIdx.foldl (fun s (n, i) =>
    let c := coreAt s n
    { putFile s (base + 4096 * i) c.ct with loss := spSet s.loss (192 * ctx + n) (c.r.alnLoss, c.r.cvtLoss) }) s
  let s := (grantedLines s part).zipIdx.foldl (fun s (k, i) => { s with mem := memPutBytes s.mem (base + 4096 * cs.length + 512 * i) (bvBytes (shadowLine s k) 512) }) s
  ctxSetState s ctx true 2

/-- Loads the context-wide part of a saved context, or begins an empty one (R330, R348). -/
def loadWide (s : State) (ctx : Nat) : State :=
  let part := ctxPart s ctx
  let base := ctxWide s ctx
  let cs := partCores s part
  let saved := ctxState s ctx == 2
  let s := cs.zipIdx.foldl (fun s (n, i) =>
    let f := getFile s (base + 4096 * i)
    let (a, b) := spGet (0, 0) s.loss (192 * ctx + n)
    modCore s n fun c => { c with ct := f, r := { c.r with alnLoss := a, cvtLoss := b } }) s
  let s := (grantedLines s part).zipIdx.foldl (fun s (k, i) =>
    let v : BitVec 4096 := if saved then BitVec.ofNat 4096 (leNat (memBytes s.mem (base + 4096 * cs.length + 512 * i) 512)) else 0
    { s with shadow := spSet s.shadow k v, shadowEp := spDel s.shadowEp k }) s
  ctxSetState s ctx true 1

/-- The resident context of a partition. -/
def residentOf (s : State) (part : Nat) : Option Nat := (upTo 4096).find? fun c => ctxValid s c && ctxPart s c == part && ctxState s c == 1

/-- Makes a context resident (R344 step 5, R348). -/
def makeResident (s : State) (ctx : Nat) : State :=
  if ctxState s ctx = 1 then s else
  let s := match residentOf s (ctxPart s ctx) with | some o => saveWide s o | none => s
  loadWide s ctx

/-- Whether an ASID has an entry (R353). -/
def asidLive (s : State) (asid : Nat) : Bool := bit (memNat s (atabEntry s asid) 8) 63

/-- CTX_CREATE (R330): the operand is checked, every counter and loss count of the new context is zeroed. -/
def ctxCreate (s : State) (c : Nat) : Nat × State :=
  let cs := partCores s (ctxPart s c)
  if c ≥ 4096 || !partValid s (ctxPart s c) || !asidLive s (ctxAsid s c) || ctxSave s c % 2 ^ 22 != 0 then (1, s)
  else if ctxValid s c then (2, s)
  else
    let s := { s with mem := memClear s.mem (ctxWide s c) (4096 * cs.length), loss := s.loss.filter (fun (k, _) => k / 192 != c), ranOn := s.ranOn.filter fun k => k / 192 != c }
    (0, ctxSetState s c true 0)

/-- CTX_DESTROY (R330). -/
def ctxDestroy (s : State) (c : Nat) : Nat × State :=
  if c ≥ 4096 then (1, s)
  else if !ctxValid s c then (2, s)
  else if s.gangs.any (fun (_, g) => g.ctx == c) ||
      s.qs.any (fun (q, x) => x.bound && qAsid s q == ctxAsid s c && qPart s q == ctxPart s c && qState s q != 3) then (2, s)
  else (0, ctxSetState s c false 0)

/-! ## Queues (R334, R341, R349) -/

/-- Q_BIND (R334). -/
def qBind (s : State) (q : Nat) : Nat × State :=
  if !qValid s q || qRlog s q < 4 || qRlog s q > 20 || !partValid s (qPart s q) || !asidLive s (qAsid s q) || (ctxOf s (qAsid s q) (qPart s q)).isNone
  then (1, s)
  else if (qsOf s q).bound && qState s q != 3 then (2, s)
  else (0, qSetState (modQ s q fun _ => { QState.reset with bound := true }) q 0)

/-- The bytes of a record in a ring in HBM. -/
def ringRead (s : State) (q idx : Nat) : List Byte := memBytes s.mem (qSlot s q idx) 64

/-- Ends the record at a queue's head without placing it. -/
def endHead (s : State) (q code reason : Nat) : State :=
  match (qsOf s q).head with
  | none => s
  | some r => finishRec (dropReq (modQ s q fun x => { x with head := none, unmet := none }) q) q r.idx code reason r.bytes

/-- Discards every record of a ring in HBM that has not been read (R349). -/
def discardRing : Nat → State → Nat → State
  | 0, s, _ => s
  | k + 1, s, q =>
    let t := qTake s q
    if t ≥ qTail s q then s else
    discardRing k (finishRec (qSet s q 4 (t + 1)) q t 6 0 (ringRead s q t)) q

/-- A member is killed at a device time (R349): in-flight work and unstarted commands are dropped; started ones run on. -/
def killCore (t : Nat) (c : Core) : Core :=
  { c with
    q := { c.q.release with stopT := t, running := false, stopped := true, carry := none, aside := [], stopReq := 0, rhalt := false, logged := true }
    halted := false
    f := { c.f with wb := [], rat := none, ratWait := [], fpBusy := 0, xops := [], fill := none, drainq := c.f.drainq.filter DrainRow.sent, comb := [], deferred := [],
                    gq := c.f.gq.filter (fun g => match g.st with | .sent _ => true | _ => false), cmds := c.f.cmds.filter Cmd.started } }

/-- Whether a gang's last retirement is due: every member has retired or is about to. -/
def lastRetire (s : State) (g : Gang) : Bool := g.placed && g.cores.all fun n => let c := coreAt s n; c.q.retired || haltDone c

/-- A KILL reaches a gang (R349, R350): the decision between it (input 1) and the last retirement (input 0) may be recorded or replayed. -/
def killGang (s : State) (n : Nat) (g : Gang) : State :=
  let (go, s) := rplGate s g.asid (0x5000 + n % 2048) (if lastRetire s g then 3 else 2) 1
  if !go then s else
  let s := dropReq s (65536 + n)
  let s := if g.placed then g.cores.foldl (fun s c => modCore s c (killCore s.dev)) s else s
  modGang s n fun g => { g with killed := true }

/-- Whether the scheduler has taken a KILL of a queue that it has still to carry out. -/
def killTaken (s : State) (q : Nat) : Bool := s.sched == some (4, 1, q)

/-- The decision between a record's dependence check (input 0) and a KILL (input 1), recorded or replayed (R350, R424, R425). -/
def checkGate (s : State) (q choice : Nat) : Bool × State :=
  match (qsOf s q).head with
  | some r => if r.met then (true, s) else rplGate s (qAsid s q) (0x5800 + q % 2048) (if choice = 1 || killTaken s q then 3 else 1) choice
  | none => (true, s)

/-- Q_TEARDOWN (R349): `mode` 0 DRAIN, 1 KILL, 2 FREEZE. -/
def qTeardown (s : State) (q mode : Nat) : Nat × State :=
  let st := qState s q
  if !(qsOf s q).bound then (1, s)
  else if st = 3 || (mode = 0 && st = 1) || (mode = 2 && st != 0) then (2, s)
  else if mode = 2 then
    let s := modQ (qSetState s q 2) q fun x => { x with teardown := some 2 }
    let s := modQ (dropReq s q) q fun x => { x with head := x.head.map fun r => { r with asked := false, granted := false } }
    (0, (gangsOf s q).foldl (fun s (n, g) => if g.state = 0 then modGang (askStop s g.cores 1 none) n fun g => { g with state := 1 } else s) s)
  else
    let s := modQ (qSetState s q 1) q fun x => { x with teardown := some mode }
    let s := endHead s q 6 0
    let s := if qHost s q then s else discardRing (qTail s q - qTake s q) s q
    (0, if mode = 1 then (gangsOf s q).foldl (fun s (n, g) => killGang s n g) s else s)

/-- Q_RESTORE (R349): ACTIVE again; the saved gangs may be placed. -/
def qRestore (s : State) (q : Nat) : Nat × State :=
  if !(qsOf s q).bound then (1, s) else if qState s q != 2 || (qsOf s q).teardown.isSome then (2, s) else (0, qSetState s q 0)

/-- PREEMPT (R332, R348): the gang is stopped and saved, and waits for RESUME. -/
def preemptGang (s : State) (n : Nat) : Nat × State :=
  match gangAt s n with
  | none => (1, s)
  | some g =>
    if g.state ≥ 2 then (2, s) else
    (0, modGang (askStop s g.cores 1 none) n fun g => { g with state := 1, trap := true })

/-- Whether a member trapped in place of retiring (R434). -/
def rampHeld (c : Core) : Bool := c.q.hold == .halt && !c.q.retired && leNat (slice c.q.frec 8 1) == 0x19

/-- A retired member's core: its levels are ended, its return stack, slots and handles gone (R54, R175, R326). -/
def Core.retire (k : Core) : Core :=
  { k with
    r := { k.r with loops := [], rstack := [], depth := 0 }
    m := { k.m with slots := [], hheld := [], htab := k.m.htab.map fun (h, w) => (h, w &&& ~~~(1#64 <<< 63)) }
    q := { k.q.release with running := false, retired := true, carry := none, stopReq := 0, rhalt := false, heldBy := 0 } }

/-- RESUME retires the members of a saved gang that trapped in place of retiring, and nothing is charged (R434). A member that
retires before others reach its super-step poisons the gang's barrier (R31). -/
def retireHeld (l : List Core) : List Core :=
  let late := l.any fun k => rampHeld k && l.any fun o => match o.q.hold with | .sstep 4 => o.r.ssn.toNat + 1 > k.r.ssn.toNat | _ => false
  let l := l.map fun k => if rampHeld k then k.retire else k
  match l with | k :: ks => (if late then ctSet k 511 (ctrPoison (ctGet k 511)) else k) :: ks | [] => []

/-- RESUME (R332, R346, R434): the gang may be placed again, or is complete where its last members retire. -/
def resumeGang (s : State) (n : Nat) : Nat × State :=
  match gangAt s n with
  | none => (1, s)
  | some g =>
    if g.state != 3 then (2, s)
    else
      let saved := retireHeld g.saved
      if !saved.isEmpty && saved.all (fun k => k.q.retired) then (0, dropGang (finishRec s g.queue g.idx 0 0 g.bytes) n)
      else (0, modGang s n fun g => { g with state := 2, trap := false, resume := true, saved := saved })

/-! ## A member's image (R348, R365, R366) -/

/-- Where member core `n`'s bulk and register parts stand in a context's save area (R348). -/
def bulkAt (s : State) (ctx n : Nat) : Nat := ctxSave s ctx + 2 ^ 22 * partIndex s (ctxPart s ctx) n
def regAt (s : State) (ctx n : Nat) : Nat := ctxSave s ctx + 2 ^ 22 * (partCores s (ctxPart s ctx)).length + 2 ^ 17 * partIndex s (ctxPart s ctx) n

/-- The time of a save or a restore of `n` members, each way (R348): 8 µs, or 2 µs and 4,224 KiB a member at 25 TB/s. -/
def swapTime (fast : Bool) (n : Nat) : Nat := if fast then nsDev 8000 else nsDev 2000 + 4224 * 1024 * n * 760

/-- Bytes of an image part whose inner layout the spec does not give: free values (log 90). -/
def freeBytes (ep base n : Nat) : List Byte := (upTo n).map fun i => Config.freeBits 8 ep (2 ^ 20 + base + i)

/-- The scratchpad part of an image as R410 seals it: bytes that no path reads. -/
def sealedPad (ep : Nat) : List Byte := (upTo 6144).flatMap fun l => bvBytes (Config.freeBits 4096 ep l) 512

/-- The bulk part of a member's image (R348). -/
def bulkPart (c : Core) (ep : Nat) (sealed : Bool) : List Byte :=
  let slot := fun (f : MxRow → List Byte) (n base : Nat) => (upTo 16).flatMap fun k =>
    let o := slotOf c k
    if o.st = .free then freeBytes ep (base + k * 128 * n) (128 * n) else (upTo 128).flatMap fun i => f (o.row k i)
  (if sealed then sealedPad ep else (upTo 6144).flatMap fun l => bvBytes (spadLine c l) 512) ++
  slot (fun r => bvBytes r.el 256) 256 0 ++ slot (fun r => bvBytes r.sc 16) 16 524288 ++
  freeBytes ep 557056 8192 ++
  ((upTo 640).flatMap fun i => bvBytes (accRow c i) 512) ++
  ((upTo 128).flatMap fun i => bvBytes (spGet 0 c.m.drain i) 512) ++
  freeBytes ep 565248 73728 ++
  ((upTo 16).flatMap fun i => bvBytes (qReg c i) 512 ++ bvBytes (qComp c i) 32) ++
  List.replicate 7680 0

/-- An entry of the write-back area (R366): 536 bytes, where the result goes, its order, its remaining active cycles, its value (log 90). -/
def wbBytes (act : Nat) (e : WbEntry) : List Byte :=
  let (k, n, off, len, v) := match e.dest with
    | .sreg n v => (1, n, 0, 0, v.toNat)
    | .pred n v => (2, n, 0, 0, if v then 1 else 0)
    | .vop x v => (3, x, 0, 0, v.toNat)
    | .qbits q o l v => (4, q, o, l, v.toNat)
    | .qcomp q o l v => (5, q, o, l, v.toNat)
  toBytes (k + n * 256 + off * 2 ^ 16 + len * 2 ^ 32) 8 ++ toBytes e.seq 8 ++ toBytes (e.land - act) 8 ++ toBytes v 512

/-- The result that an entry holds; none where nothing is written. -/
def wbOf (act : Nat) (b : List Byte) : Option WbEntry :=
  let h := leNat (b.take 8)
  let n := bits h 15 8
  let off := bits h 31 16
  let len := bits h 63 32
  let v := leNat (slice b 24 512)
  let e := fun (d : WbDest) => some ⟨act + leNat (slice b 16 8), leNat (slice b 8 8), d⟩
  match bits h 7 0 with
  | 1 => e (.sreg n (BitVec.ofNat 64 v))
  | 2 => e (.pred n (bit v 0))
  | 3 => e (.vop n (BitVec.ofNat 4096 v))
  | 4 => e (.qbits n off len (BitVec.ofNat 4096 v))
  | 5 => e (.qcomp n off len (BitVec.ofNat 256 v))
  | _ => none

/-- The write-back area of a member: the results not yet landed at its stop (R366). -/
def wbArea (c : Core) : List Byte :=
  let (act, l) := match c.q.aside with | a :: _ => (a.act, a.wb) | [] => (c.q.act, c.f.wb)
  (l.flatMap (wbBytes act) ++ List.replicate 65536 0).take 65536

/-- The results that a write-back area holds. -/
def wbTaken (act : Nat) (b : List Byte) : List WbEntry := (upTo 122).filterMap fun i => wbOf act (slice b (536 * i) 536)

/-- The register part of a member's image (R348, R365, R366). -/
def regPart (c : Core) (ep : Nat) : List Byte :=
  let xs := ((xOrder (match c.q.aside with | a :: _ => a.xops | [] => c.f.xops)).drop 4).flatMap xopBytes
  (c.q.frec ++ List.replicate 256 0).take 256 ++ freeBytes ep 638976 3840 ++ wbArea c ++
  (xs ++ List.replicate 64 0).take 64 ++ freeBytes ep 708352 61376

/-- Writes a member's image into the save area in HBM (R348). -/
def putImage (s : State) (ctx n : Nat) (c : Core) : State :=
  let (ep, s) := drawFresh s
  { s with mem := memPutBytes (memPutBytes s.mem (bulkAt s ctx n) (bulkPart c (ep + 1) (!c.m.hheld.isEmpty))) (regAt s ctx n) (regPart c (ep + 1)) }

/-- Writes a member's image into shadow storage and its core's shadow register store (R348). -/
def putFast (s : State) (die n : Nat) (lines : List Nat) (c : Core) : State :=
  let (ep, s) := drawFresh s
  let b := bulkPart c (ep + 1) false
  let s := lines.zipIdx.foldl (fun s (l, i) =>
    { s with shadow := spSet s.shadow (die * 65536 + l) (BitVec.ofNat 4096 (leNat (slice b (512 * i) 512))), shadowEp := spDel s.shadowEp (die * 65536 + l) }) s
  modCore s n fun k => { k with store := regPart c (ep + 1) }

/-! ## Locked address spaces (R403) -/

/-- Locked ASIDs of a function's TDI. -/
def lockedOf (s : State) (f : Nat) : List Nat := s.sec.locked.filter fun a => ownerOf s a == f

/-- The CONF handles of a core are zeroed and held (R403). -/
def wipeCore (c : Core) : Core :=
  (c.m.hheld.filter fun (_, v) => v == 3).foldl (fun c (h, _) =>
    let k := spadWrite c (handle c h) 0 (List.replicate (handle c h).size 0)
    { k with m := { k.m with hheld := spSet k.m.hheld h 2 } }) c

/-- CONF handles of an address space are zeroed and held, in its cores and in the images of its saved members (R403, R409). -/
def wipeConf (s : State) (asid : Nat) : State :=
  let s := s.cores.foldl (fun s (n, c) => if c.bind.isSome && asidOf c == asid then modCore s n wipeCore else s) s
  s.gangs.foldl (fun s (n, g) =>
    if g.asid == asid && g.saved.any (fun k => k.m.hheld.any fun (_, v) => v == 3) then
      let saved := g.saved.map wipeCore
      let s := match g.fast with
        | some (d, l) => (g.cores.zip saved).zipIdx.foldl (fun s ((c, k), i) => putFast s d c ((l.drop (8192 * i)).take 8192) k) s
        | none => s
      modGang s n fun g => { g with saved := saved }
    else s) s

/-- Entering ERROR, or leaving RUN: key slots are erased, CONF handles zeroed and held, queues torn down as KILL (R403). -/
def tdiWipe (s : State) (f : Nat) : State :=
  let l := lockedOf s f
  let s := { s with sec := { s.sec with slots := s.sec.slots.filter fun (_, k) => !l.contains k.asid } }
  let s := l.foldl wipeConf s
  (s.qs.filter fun (q, x) => x.bound && l.contains (qAsid s q)).foldl (fun s (q, _) => (qTeardown s q 1).2) s

/-- A TDI that is CONFIG_LOCKED or RUN goes to ERROR. -/
def tdiError (s : State) (f : Nat) : State :=
  let st := spGet 0 s.sec.tdi f
  if st = 1 || st = 2 then tdiWipe { s with sec := { s.sec with tdi := spSet s.sec.tdi f 3 } } f else s

/-- A restore's seal check has failed (R410): the TDI of the ASID's function goes to ERROR. -/
def sealFail (s : State) (asid : Nat) : State := tdiError s (ownerOf s asid)

/-- What a command does, by its OP; RESULT and the new state (R332). -/
def schedOp (s : State) (op mode t : Nat) : Nat × State :=
  if op = 1 then ctxCreate s t else if op = 2 then ctxDestroy s t else if op = 3 then qBind s t else if op = 4 then (if mode = 3 then (1, s) else qTeardown s t mode)
  else if op = 5 then qRestore s t else if op = 6 then preemptGang s t else if op = 7 then resumeGang s t else (1, s)

/-- The ASID a command's target belongs to; a gang that nobody holds belongs to none. -/
def schedAsid (s : State) (op t : Nat) : Option Nat :=
  if op ≤ 2 then some (ctxAsid s t) else if op ≤ 5 then some (qAsid s t) else (gangAt s t).map Gang.asid

/-- BUSY rises with a command that the scheduler has taken, and falls when it has been carried out (R332). -/
def schedBusy (s : State) (c : Option (Nat × Nat × Nat)) : State :=
  let v := barRd s schedSts
  { barWr s schedSts (if c.isSome then v ||| (1#64 <<< 63) else v &&& ~~~(1#64 <<< 63)) with sched := c }

/-- A write to SCHED_CMD (R332): it is taken unless a command is being carried out, in which case it is dropped and sets LOST and QUEUE of
HLTH_SUM (R442). -/
def schedTake (s : State) (op mode t : Nat) : State :=
  if s.sec.recovery then s
  else if s.sched.isSome then setHealth (barWr s schedSts (barRd s schedSts ||| (1#64 <<< 62))) 0
  else schedBusy s (some (op, mode, t))

/-- The scheduler carries out a command of the PF (R332): the status register reports it. -/
def schedDo (s : State) (op mode t : Nat) : State :=
  let names := schedAsid s op t
  let asid := names.getD 0
  if s.sec.recovery then s
  -- a command that names a locked ASID moves its TDI to ERROR, and is refused (R403, log 33)
  else if names.any s.sec.locked.contains && op != 2 && !(op = 4 && mode = 1) then cmdDone (tdiError s (ownerOf s asid)) schedSts asid op t 2 else
  let (r, s) := schedOp s op mode t
  schedEnd s schedSts asid op t r

/-- The command that the scheduler has taken is carried out, a KILL when the arbiter lets it come first (R350). -/
def schedNow (s : State) (op mode t : Nat) : State :=
  let (go, s) := if op = 4 && mode = 1 then checkGate s t 1 else (true, s)
  if go then schedDo (schedBusy s none) op mode t else s

/-- A command's row: the one the scheduler has taken is carried out; another is written meanwhile (R332). -/
def schedCmd (s : State) (op mode t : Nat) : State :=
  match s.sched with
  | none => schedDo s op mode t
  | some c => if c == (op, mode, t) then schedNow s op mode t else schedTake s op mode t

/-- The scheduler carries out the command it has taken, where nothing else is to come first (log 2). -/
def schedRun (s : State) : State :=
  match s.sched with
  | some (op, mode, t) => if s.agenda.isEmpty then schedNow s op mode t else s
  | none => s

/-- CTX_CREATE. -/
def execCtxCreate (c : Nat) (s : State) : Ans := .next (schedCmd s 1 0 c)
/-- CTX_DESTROY. -/
def execCtxDestroy (c : Nat) (s : State) : Ans := .next (schedCmd s 2 0 c)
/-- Q_BIND. -/
def execQBind (q : Nat) (s : State) : Ans := .next (schedCmd s 3 0 q)
/-- Q_TEARDOWN DRAIN. -/
def execQTeardownDrain (q : Nat) (s : State) : Ans := .next (schedCmd s 4 0 q)
/-- Q_TEARDOWN KILL. -/
def execQTeardownKill (q : Nat) (s : State) : Ans := .next (schedCmd s 4 1 q)
/-- Q_TEARDOWN FREEZE. -/
def execQTeardownFreeze (q : Nat) (s : State) : Ans := .next (schedCmd s 4 2 q)
/-- Q_RESTORE. -/
def execQRestore (q : Nat) (s : State) : Ans := .next (schedCmd s 5 0 q)
/-- PREEMPT. -/
def execPreempt (g : Nat) (s : State) : Ans := .next (schedCmd s 6 0 g)
/-- RESUME. -/
def execResume (g : Nat) (s : State) : Ans := .next (schedCmd s 7 0 g)

/-- DOORBELL_WRITE: function `f` writes `v` to the doorbell of queue `q` (R328, R335). -/
def execDoorbellWrite (f q v : Nat) (s : State) : Ans :=
  if s.sec.recovery || q ≥ 65536 || ownerOf s (qAsid s q) != f then .next s
  else if !(qsOf s q).bound || qDevfed s q || qState s q != 0 || v < qTail s q || v > qHead s q + 2 ^ qRlog s q then .next (qDrop s q)
  else .next (qSet s q 3 v)

/-- Whether a queue asks for service (R341). -/
def qActive (s : State) (q : Nat) : Bool := (qsOf s q).bound && qState s q != 3 && (qTake s q < qTail s q || (qsOf s q).head.isSome || !(gangsOf s q).isEmpty)

/-- Queues that hold a slot. -/
def qSlotted (s : State) : List Nat := (s.qs.filter fun (_, x) => x.slot.isSome).map Prod.fst

/-- The least element of a list by a measure. -/
def leastBy (f : Nat → Nat) : List Nat → Option Nat
  | [] => none
  | x :: l => match leastBy f l with | none => some x | some y => if f y < f x then some y else some x

/-- The queue to evict for another (R341). -/
def qVictim (s : State) (q : Nat) : Option Nat :=
  let l := qSlotted s
  match l.find? fun v => match (qsOf s v).slot, (qsOf s v).unmet with
    | some a, some b => max a b + nsDev (1000 * qQuantum s v) ≤ s.dev
    | _, _ => false with
  | some v => some v
  | none =>
    let low := (l.map (qPrio s)).foldl min 7
    if low > qPrio s q then none else leastBy (fun v => (qsOf s v).served) (l.filter fun v => qPrio s v == low)

/-- QUEUE_SLOT_REQUEST: an active queue without a slot gets one, evicting another if it must (R341). A ramp request of the evicted queue stands:
nothing delays it (R435). -/
def execQueueSlotRequest (q : Nat) (s : State) : Ans :=
  if !qActive s q || (qsOf s q).slot.isSome then .next s else
  let give := fun (s : State) => modQ s q fun x => { x with slot := some s.dev }
  if (qSlotted s).length < 64 then .next (give s) else
  match qVictim s q with
  | none => .next s
  | some v => .next (give (modQ s v fun x => { x with slot := none, head := x.head.map fun r => { r with reg := [], ivl := 0 } }))

/-! ## Reading records (R335 to R338) -/

/-- Counter references of a record: valid dependences, then DONE. -/
def recDeps (b : List Byte) : List (Nat × Nat × Nat) :=
  (upTo 4).filterMap fun i => if bit (recWord b 0) (60 + i) then some (i, bits (recWord b (2 + i)) 63 43, bits (recWord b (2 + i)) 42 0) else none

/-- The class and PINNED bit in force, given the image's power byte (R337). -/
def recPower (b : List Byte) (image : Nat) : Nat × Bool :=
  let w := recWord b 0
  if bit w 4 then (bits w 2 0, bit w 3) else (bits image 2 0, bit image 3)

/-- Whether a class and PINNED bit are above what the queue allows (R337). -/
def powerBad (s : State) (q : Nat) (p : Nat × Bool) : Bool := p.1 > qPcmax s q || (p.2 && !qPinok s q)

/-- Why a record is refused when it is read (R337): the reason, none when it is good. -/
def recBad (s : State) (q : Nat) (b : List Byte) : Option Nat :=
  let w := recWord b 0
  let ov := overrides b
  let ref := fun (r : Nat) => match refAt s q r rA with | .bad => true | _ => false
  if bits w 58 56 != 0 || bit w 7 then some 1
  else if ov.all (fun (v, _) => v) && (ov.map fun (_, l, _) => l).eraseDups.length = 1 then some 2
  else if bit w 4 && powerBad s q (recPower b 0) then some 3
  else if (recDeps b).any (fun (_, r, _) => ref r) || (recDoneV b && ref (recDoneRef b)) then some 4
  else none

/-- RECORD_READ: the scheduler reads queue `q`'s next record (R335, R337); `h` is what a read of host memory brings. A queue that is being
torn down discards it (R349). -/
def execRecordRead (q h : Nat) (s : State) : Ans :=
  let x := qsOf s q
  let t := qTake s q
  if !servesQueues s || !x.bound || t ≥ qTail s q || x.head.isSome || qState s q ≥ 2 || (qHost s q && !streamOk s (ownerOf s (qAsid s q))) then .next s
  else if qState s q = 0 && x.slot.isNone then .next s
  else
    let b := if qHost s q then toBytes h 64 else ringRead s q t
    let s := modTime (qSet s q 4 (t + 1)) fun t => { t with served := true }
    if qState s q = 1 then .next (finishRec s q t 6 0 b)
    else match recBad s q b with
      | some r => .next (finishRec s q t 3 r b)
      | none => .next (modQ s q fun x => { x with head := some ⟨t, b, [], [], 0, 0, false, false, false⟩, unmet := some s.dev })

/-! ## Dependences, image and shape (R344) -/

/-- Whether a record's dependences without an entry of the monitor table are looked at now: at the start of step 1, and at each poll
(R109). -/
def QRec.polls (r : QRec) (dev : Nat) : Bool := r.ivl == 0 || r.poll ≤ dev

/-- What one dependence comes to: 0 met, 1 not yet, 2 poisoned, 3 refused; a counter of another package also says what is to be read. -/
def depState (s : State) (q : Nat) (r : QRec) (d : Nat × Nat × Nat) : Nat × Option (List Nat × Nat × Nat) :=
  let (i, ref, thr) := d
  let see := fun (w : Word) => if w.getLsbD 63 then 2 else if ctrReached w thr then 0 else 1
  match refAt s q ref rR with
  | .bad => (3, none)
  | .at_ c => (if r.polls s.dev || r.reg.contains i then see (ctrRead s c) else 1, none)
  | .far w va o => match spFind r.seen i with
    | some v => let k := if v = 0 then 3 else see (BitVec.ofNat 64 (v - 1)); (k, if k = 1 then some (w, va, o) else none)
    | none => (1, some (w, va, o))

/-- The power byte of an image as a class and flags in force. -/
def recForce (b : List Byte) (img : Image) : Nat × Bool := recPower b img.power

/-- The image of a record. -/
def recImage (b : List Byte) : Nat := bits (recWord b 0) 55 8 * 256

/-- Step 2 of R344: a code and reason, or the image and its levels with bounds in force. -/
def recShape (s : State) (q : Nat) (b : List Byte) : (Nat × Nat) ⊕ (Image × List Level) :=
  match loadImage s (qAsid s q) (recImage b) false with
  | .inl r => .inl (2, r)
  | .inr img =>
    if (overrides b).any fun (v, l, _) => v && l ≥ img.levels.length then .inl (3, 2)
    else if powerBad s q (recForce b img) then .inl (3, 3)
    else
      let ls := boundsInForce b img.levels
      if shapeFails (partCores s (qPart s q)) ls then .inl (1, 0) else .inr (img, ls)

/-- A dependence tries to get an entry of the monitor table (R109, log 88). -/
def depRegister (s : State) (q i : Nat) : State :=
  if monFree s (dieOf ((partCores s (qPart s q)).headD 0)) then modQ s q fun x => { x with head := x.head.map fun r => { r with reg := i :: r.reg.erase i } } else s

/-- The next poll of a head record's dependences: after 64 ns, then after twice the interval, at most 4 µs (R109). -/
def depLater (s : State) (q : Nat) : State :=
  modQ s q fun x => { x with head := x.head.map fun r => let i := if r.ivl = 0 then 64 else min 4000 (2 * r.ivl); { r with poll := s.dev + nsDev i, ivl := i } }

/-- DEPENDENCES_MET: the dependences of queue `q`'s head record are looked at; once all are met its image and shape are checked (R344). -/
def execDependencesMet (q : Nat) (s : State) : Ans :=
  match (qsOf s q).head with
  | none => .next s
  | some r =>
    if r.met || qState s q != 0 || (qsOf s q).slot.isNone || !servesQueues s then .next s else
    let ds := recDeps r.bytes
    let st := ds.map fun d => (d, depState s q r d)
    let (go, s) := if st.any (fun (_, k, _) => k = 2 || k = 3) || st.all fun (_, k, _) => k = 0 then checkGate s q 0 else (true, s)
    if !go then .next s
    else if st.any fun (_, k, _) => k = 2 then .next (endHead s q 4 0)
    else if st.any fun (_, k, _) => k = 3 then .next (endHead s q 3 4)
    else if st.all fun (_, k, _) => k = 0 then
      match recShape s q r.bytes with
      | .inl (c, e) => .next (endHead s q c e)
      | .inr (_, ls) =>
        if gangSize ls = 0 then .next (endHead s q 0 0)
        else .next (modQ s q fun x => { x with head := some { r with met := true, reg := [] }, unmet := none })
    else if !r.polls s.dev then .next s
    else .next (st.foldl (fun s ((i, _, _), k, far) => match far with
      | none => if k = 1 then depRegister s q i else s
      | some (w, va, o) =>
        if r.ivl = 0 || s.hub.pend.any (fun (_, p) => p.what == 9 && p.core == i + 1 && p.ref == q) then s else
        let (t, s) := newTag s ⟨9, i + 1, q, 8, none⟩
        hubSend s (winRequest s w va o 0x04 2 8 t (toBytes 0 8))) (depLater s q))

/-! ## Dispatch (R342 to R347) -/

/-- Queues of a partition whose head record is ready. -/
def readyQs (s : State) (part : Nat) : List Nat :=
  (s.qs.filter fun (q, x) => x.bound && x.slot.isSome && (match x.head with | some r => r.met | none => false) &&
    qState s q == 0 && qPart s q == part && !qFiller s q).map Prod.fst

/-- Ready queues of the highest priority, ascending. -/
def readyTop (s : State) (part : Nat) : List Nat :=
  let l := readyQs s part
  let p := (l.map (qPrio s)).foldl max 0
  l.filter fun q => qPrio s q == p

/-- The next element after one in ascending order, wrapping. -/
def nextAfter (q : Nat) (l : List Nat) : Option Nat := match l.find? fun x => q < x with | some x => some x | none => l.head?

/-- The queue that had the last turn of a level of a partition, and whether that turn has passed (R342). -/
def lastTurn (s : State) (part prio : Nat) : Option (Nat × Bool) :=
  (s.qs.find? fun (q, x) => x.bound && x.turn.isSome && qPart s q == part && qPrio s q == prio).map fun (q, x) => (q, x.lapsed)

/-- The queue whose turn it is in a level of a partition. -/
def turnOf (s : State) (part prio : Nat) : Option Nat := match lastTurn s part prio with | some (q, false) => some q | _ => none

/-- Whether a queue's turn begins with its record or saved gang: it has been given the turn and has not dispatched, or the turn before
has passed and it is the next to be ready (R342, R347). -/
def turnBegins (s : State) (q : Nat) (ready : List Nat) : Bool :=
  (qsOf s q).turn == some 0 || (match lastTurn s (qPart s q) (qPrio s q) with | some (h, true) => nextAfter h ready == some q | _ => false)

/-- Saved gangs of a partition that wait for cores. -/
def waitingGangs (s : State) (part : Nat) : List (Nat × Gang) :=
  s.gangs.filter fun (n, g) => g.part == part && g.state == 2 && !g.killed && !g.filler && (qState s g.queue == 0 || qState s g.queue == 1) &&
    !s.gangs.any fun (_, h) => h.aside == some n

/-- Whether a gang has given up its slice (R174). -/
def Gang.yields (g : Gang) : Bool := g.saved.any fun c => c.q.yielded

/-- Whether a saved gang comes before a head record of queue `q`: by priority, then by the turn, then as the elder, unless it yields. -/
def gangFirst (s : State) (part q : Nat) : Bool :=
  (waitingGangs s part).any fun (_, g) =>
    qPrio s q < qPrio s g.queue || (qPrio s q == qPrio s g.queue && !g.yields && (g.queue == q || turnOf s part (qPrio s q) == some g.queue))

/-- A gang's place among the saved ones of its level: those whose queue has the turn, those that have not yielded, the longest unplaced. -/
def gangRank (s : State) (g : Gang) : Nat :=
  (if turnOf s g.part (qPrio s g.queue) == some g.queue then 0 else 2 ^ 101) + (if g.yields then 2 ^ 100 else 0) + g.at_

/-- Whether a saved gang is what is considered next on its partition. -/
def mayRestore (s : State) (n : Nat) (g : Gang) : Bool :=
  let P := qPrio s g.queue
  !((readyQs s g.part).any fun q => P < qPrio s q || (P == qPrio s q && (g.yields || (q != g.queue && turnOf s g.part P == some q)))) &&
  !((waitingGangs s g.part).any fun (m, h) => m != n && (P < qPrio s h.queue || (P == qPrio s h.queue && gangRank s h < gangRank s g)))

/-- Whether a queue's head record is the one considered next on its partition (R342). -/
def mayDispatch (s : State) (q : Nat) : Bool :=
  let part := qPart s q
  let top := readyTop s part
  top.contains q && !gangFirst s part q &&
  match lastTurn s part (qPrio s q) with
  | some (h, lapsed) => if top.contains h && !lapsed then q == h else nextAfter h top == some q
  | none => top.head? == some q

/-- Whether a context of a partition other than one stands in the way (R344 step 4). -/
def otherBlocks (s : State) (part ctx : Nat) : Bool := match residentOf s part with | some o => o != ctx && ctxBusy s o | none => false

/-- Free cores of a partition for a context, in the order they are tried; cores set aside for another request are not free. -/
def freeOrder (s : State) (part ctx key : Nat) (pick : List Nat) : List Nat :=
  if otherBlocks s part ctx then [] else
  let aside := (s.drl.reqs.filter fun r => r.queue != key).flatMap RampReq.cores
  let free := (partCores s part).filter fun n => (coreAt s n).bind.isNone && !aside.contains n
  let first := (pick.filter fun n => free.contains n).eraseDups
  first ++ free.filter fun n => !first.contains n

/-- Whether a running gang is one the scheduler may pre-empt on its own account (R414). -/
def mayPreempt (s : State) (g : Gang) : Bool := g.state == 0 && !g.killed && g.cores.all fun n => !(coreAt s n).halted

/-- Asks a gang's members to stop (R347). -/
def askGang (s : State) (n : Nat) (kind : Nat) : State :=
  match gangAt s n with
  | some g => modGang (askStop s g.cores kind none) n fun g => { g with state := 1 }
  | none => s

/-- The same, so that another gang may be placed (R347, R432). -/
def askGive (s : State) (n kind : Nat) : State := modGang (askGang s n kind) n fun g => { g with giving := true }

/-- Running gangs of a partition that a ready record of priority `P` may push out, lowest priority first, then longest running; where the
turn of a queue `same` begins, those of its own level whose queue's turn has passed as well (R347). -/
def victims (s : State) (part P : Nat) (same : Option Nat) : List (Nat × Gang) :=
  let passed := fun (q : Nat) => (qsOf s q).turn.isNone || (qsOf s q).lapsed
  let l := s.gangs.filter fun (_, g) => g.part == part && mayPreempt s g &&
    (qPrio s g.queue < P || (same.any (fun q => q != g.queue) && !g.filler && qPrio s g.queue == P && passed g.queue))
  (upTo 8).flatMap fun p => (l.filter fun (_, g) => qPrio s g.queue == p).mergeSort fun a b => a.2.at_ ≤ b.2.at_

/-- Whether a gang of another resident context stands in the way, apart from gangs that are to go. -/
def stillBlocks (s : State) (part ctx : Nat) (gone : List Nat) : Bool :=
  match residentOf s part with
  | some o => o != ctx && s.gangs.any fun (m, h) => h.ctx == o && h.placed && h.state == 0 && !gone.contains m
  | none => false

/-- Takes victims until enough cores would be free (R347); `place` finds cores for the record among free ones. -/
def enough (s : State) (part ctx : Nat) (place : List Nat → Option (List Nat)) : List (Nat × Gang) → List Nat → List Nat → Option (List Nat)
  | l, cores, acc =>
    if !stillBlocks s part ctx acc && (place cores.mergeSort).isSome then some acc else
    match l with
    | [] => none
    | (n, g) :: l => enough s part ctx place l (cores ++ g.cores) (acc ++ [n])

/-- Requests pre-emptions for a record or gang that cannot be placed (R347). Gangs of the partition that are being stopped already count as
gone. -/
def preemptFor (s : State) (part ctx key P : Nat) (same : Option Nat) (place : List Nat → Option (List Nat)) : State :=
  let aside := (s.drl.reqs.filter fun r => r.queue != key).flatMap RampReq.cores
  let going := (s.gangs.filter fun (_, g) => g.part == part && g.state == 1).flatMap fun (_, g) => g.cores
  let free := (partCores s part).filter fun n => ((coreAt s n).bind.isNone && !aside.contains n) || going.contains n
  match enough s part ctx place (victims s part P same) free [] with
  | some l => l.foldl (fun s n => askGive s n (if (gangAt s n).any Gang.filler then 4 else 1)) s
  | none => s

/-! ## Starting a gang (R344 step 5) -/

/-- A dispatch of a queue: the first one of its turn starts its quantum, and begins a turn where none of its level has one. A turn that has
not begun, of a queue that has no ready record, passes to the next ready queue, which this one is (R342). -/
def takeTurn (s : State) (q : Nat) : State :=
  let begin_ := fun (s : State) => modQ s q fun x => { x with turn := some (s.dev + 1), lapsed := false }
  if (qsOf s q).turn == some 0 then begin_ s
  else if qFiller s q then s
  else match lastTurn s (qPart s q) (qPrio s q) with
    | none => begin_ s
    | some (h, true) => begin_ (modQ s h fun x => { x with turn := none, lapsed := false })
    | some (h, false) =>
      if (qsOf s h).turn == some 0 && !(readyQs s (qPart s q)).contains h then begin_ (modQ s h fun x => { x with turn := none }) else s

/-- The bindings of a gang's members, in the order of their coordinates. -/
def bindsOf (g asid part : Nat) (ls : List Level) (pw : Nat × Bool) (filler : Bool) : List Bind :=
  (coordsOf (spatial ls)).zipIdx.map fun (co, i) => ⟨g, i, asid, part, co, gangSize ls, pw.1, pw.2, filler⟩

/-- The loader steps on every member; none where a planned handle finds no place. -/
def startMembers (s : State) (img : Image) (ls : List Level) (chk : Bool) (arg : Word) : List (Nat × Bind) → Option State
  | [] => some s
  | (n, b) :: l => match startMember s n b img ls chk arg with
    | some s => startMembers s img ls chk arg l
    | none => none

/-- Every member of a gang that has not retired traps at load (R144, R434). -/
def trapAll (s : State) (cores : List Nat) (cause dx slot : Nat) : State :=
  (cores.filter fun n => !(coreAt s n).q.retired).foldl (fun s n =>
    takeTrap (modCore s n reissue) n ⟨cause, 0, slot, 0, 0xFFFFFFFF, dx, 0, 0⟩ true none) s

/-- The slots a gang's shape needs in all. -/
def gangSlots (s : State) (ls : List Level) (pc : Nat) : Nat := gangSize ls * slotsPer s pc

/- Checking the dictionary decodes bundles (see Decode). -/
noncomputable section

/-- The dictionary load (R144): a failing entry traps every member. -/
def dictLoad (s : State) (cores : List Nat) : State :=
  match cores with
  | [] => s
  | n :: _ => match dictFault (coreAt s n) 0 (coreAt s n).prog.dict with
    | some (dx, f, i) => trapAll s cores f dx i
    | none => s

/-- Places a record's gang on cores (R344 step 5, R434, R446): `aside` names the gang that a filler stands in for. -/
def startGang (s : State) (q : Nat) (r : QRec) (img : Image) (ls : List Level) (cores : List Nat) (aside : Option Nat) : State :=
  let asid := qAsid s q
  let part := qPart s q
  match ctxOf s asid part, freeGangId s with
  | some ctx, some g =>
    let pw := recForce r.bytes img
    let s := makeResident s ctx
    let s := dropReq s q
    let s := ringWrite s q r.idx 48 (toBytes (g * 2 ^ 48 + devNs s % 2 ^ 48) 8)
    let s := takeTurn (modQ s q fun x => { x with head := none, served := s.dev }) q
    let s := modTime s fun t => { t with served := true }
    let s := match cores with | n :: _ => modCore s n fun c => ctSet c 511 0 | [] => s
    let binds := bindsOf g asid part ls pw (qFiller s q)
    let start := fun (img : Image) => startMembers s img ls (bit (recWord r.bytes 0) 6) (BitVec.ofNat 64 (recWord r.bytes 1)) (cores.zip binds)
    let reject := fun (e : Nat) => finishRec (freeCores s cores) q r.idx 2 e r.bytes
    match (start img).isSome, loadImage s asid (recImage r.bytes) true with
    | false, _ => reject 8
    | true, .inl e => reject e
    | true, .inr img => match start img with
    | none => reject 8
    | some s =>
      let gang : Gang := ⟨q, r.idx, r.bytes, asid, part, ctx, cores, 0, pw.1, pw.2, qFiller s q, s.dev, [], none, false, false, false, aside, false, 0, 0, false, [], 0⟩
      let s := { s with gangs := spSet s.gangs g gang }
      let s := if pw.2 then s else keepSlots s asid cores (slotsPer s pw.1)
      if pw.2 && upRefused s (gangSlots s ls pw.1) then rampCount (trapAll s cores 0x19 0xFFFF 0xFF) 0x20
      else
        let s := if pw.2 then chargeUp s (gangSlots s ls pw.1) else s
        let s := dictLoad s cores
        if bit (recWord r.bytes 0) 5 then askStop s cores 3 none else s
  | _, _ => s

/-- Queue `q`'s head record is placed, or asks for ramp slots, or for pre-emptions (R344, R347); `pick` orders the free cores as the scheduler
tries them. -/
def placeHead (q : Nat) (pick : List Nat) (s : State) : State :=
  match (qsOf s q).head with
  | none => s
  | some r =>
    if !r.met || !((reqOf s q).isSome || mayDispatch s q) || !servesQueues s then s else
    match recShape s q r.bytes, ctxOf s (qAsid s q) (qPart s q) with
    | .inl (c, e), _ => endHead s q c e
    | .inr _, none => s
    | .inr (img, ls), some ctx =>
      let part := qPart s q
      let pw := recForce r.bytes img
      let place := fun (free : List Nat) => placeGang (partCores s part) free ls
      let push := fun (s : State) => preemptFor s part ctx q (qPrio s q) (if turnBegins s q (readyTop s part) then some q else none) place
      -- without a free gang id the record waits in step 5 (R446)
      let start := fun (s : State) (cores : List Nat) => if (freeGangId s).isSome then startGang s q r img ls cores none else s
      match reqOf s q with
      | some rq => if otherBlocks s part ctx then push s else if rq.lack = 0 then start s rq.cores else s
      | none =>
        match place (freeOrder s part ctx q pick) with
        | none => push s
        | some cores =>
          if pw.2 || !drlEn s then start s cores
          else
            let s := askSlots s q (qAsid s q) cores (slotsPer s pw.1)
            match reqOf s q with | some rq => if rq.lack = 0 then start s cores else s | none => s

/-- GANG_PLACEMENT: the record at the head of queue `q`. -/
def execGangPlacement (q : Nat) (pick : List Nat) (s : State) : Ans := .next (placeHead q pick s)

end

/-- Queues of a level of a partition with a ready record, ascending. -/
def sameLevel (s : State) (part prio : Nat) : List Nat := ((readyQs s part).filter fun n => qPrio s n == prio).mergeSort

/-- QUANTUM_EXPIRY: queue `q`'s quantum has passed; the turn goes to the next queue of its level with a ready record, which may then push
out gangs whose turn has passed (R342, R347). With none, it goes to the first that will be ready. -/
def execQuantumExpiry (q : Nat) (s : State) : Ans :=
  match (qsOf s q).turn with
  | some (t + 1) =>
    if s.dev < t + nsDev (1000 * qQuantum s q) || (qsOf s q).lapsed then .next s else
    let part := qPart s q
    match nextAfter q (sameLevel s part (qPrio s q)) with
    | some n => .next (modQ (modQ s q fun x => { x with turn := none }) n fun x => { x with turn := some 0 })
    | none => .next (modQ s q fun x => { x with lapsed := true })
  | _ => .next s

/-- Whether a gang of equal or higher priority waits for cores of a partition (R174). -/
def schedWaits (s : State) (part prio : Nat) : Bool :=
  (readyQs s part).any (fun q => prio ≤ qPrio s q) || (waitingGangs s part).any fun (_, g) => prio ≤ qPrio s g.queue

/-! ## Saving a gang (R266, R348) -/

/-- Whether the answer to a write may still come. Of a write to another package that is judged by its age (R371, log 29). -/
def mayAnswer (s : State) (n tag : Nat) (fabric : Bool) : Bool :=
  s.hub.rx.any (fun k => k.tag == tag) || s.hub.ports.any (fun (_, q) => q.wait.any fun (_, _, k) => k.carries tag) || s.hub.parked.any (fun k => k.pkt.tag == tag && k.pkt.spkg == pkgNo s) ||
  (fabric && s.dev < (coreAt s n).q.stopT + nsDev (2000 * (barRd s 0x00030008).toNat))

/-- Tags of the replies that a started command still awaits: its own requests', its reads', and for a release or an `rflush` those of earlier
writes. -/
def cmdAwaits (c : Core) (x : Cmd) : List Nat :=
  let writes := fun (l : List Nat) => (c.f.unacked.filter fun u => !u.acked && l.contains u.tag).map Unacked.tag
  x.waits ++ x.pieces.filterMap Piece.tag ++
  (if x.op = 8 then writes (x.prog.drop 1) else if (x.op = 0x0D || x.op = 0x0E) && x.waits.isEmpty then writes x.prog else [])

/-- Whether a started command can never complete, as when its replies were lost with a trunk: an `rflush` behind dropped writes ends only by
pre-emption or teardown (R107, R397, log 112). -/
def cmdStuck (s : State) (n : Nat) (x : Cmd) : Bool :=
  let c := coreAt s n
  x.started && (x.op != 8 || x.prog.getD 0 0 = 1) && !(cmdAwaits c x).isEmpty && (cmdAwaits c x).all fun t => !mayAnswer s n t true

/-- Whether a stopped member's context may be saved: started commands have completed (R266), and no answer is on its way. -/
def savable (s : State) (n : Nat) : Bool :=
  let c := coreAt s n
  (c.q.stopped || c.q.retired) && c.f.cmds.all (fun x => (!x.started && x.drop != 1) || cmdStuck s n x || ((x.op == 9 || x.op == 0x0A) && x.waits.isEmpty)) &&
  c.f.gq.all (fun g => match g.st with | .sent _ => false | _ => true) && c.f.comb.isEmpty &&
  c.f.unacked.all (fun u => u.lost || (!u.acked && !mayAnswer s n u.tag u.fabric)) &&
  c.f.drainq.all fun r => !r.sent || (!r.acked && !mayAnswer s n r.tag true)

/-- Lines of a die's shadow storage free for a fast save, ascending (R348). -/
def fastLines (s : State) (die : Nat) : List Nat :=
  let granted := (upTo 192).filterMap fun p => if partValid s p && (partDies (partCores s p)).contains die then some (shadowGrant s p) else none
  let used := s.gangs.flatMap fun (_, g) => match g.fast with | some (d, l) => if d = die then l else [] | none => []
  (upTo 65536).filter fun l => !(granted.any fun (f, n) => f ≤ l && l < f + n) && !used.contains l

/-- Whether a gang is saved through shadow storage (R348): die and lines, the lowest free ones (log 89). -/
def fastPath (s : State) (g : Gang) : Option (Nat × List Nat) :=
  match g.cores with
  | [] => none
  | n :: l =>
    if g.cores.length ≤ 8 && l.all (fun m => dieOf m == dieOf n) && !s.gangs.any (fun (_, h) => h.fast.isSome && h.cores.any fun m => g.cores.contains m) then
      let free := fastLines s (dieOf n)
      if 8192 * g.cores.length ≤ free.length then some (dieOf n, free.take (8192 * g.cores.length)) else none
    else none

/-- The parts of a member's image, where the gang was saved to: member `i`, of core `n` (R348). -/
def imageParts (s : State) (g : Gang) (n i : Nat) : List Byte × List Byte :=
  match g.fast with
  | some (d, l) => (((l.drop (8192 * i)).take 8192).flatMap fun l => bvBytes (shadowLine s (d * 65536 + l)) 512, (coreAt s n).store)
  | none => (memBytes s.mem (bulkAt s g.ctx n) (2 ^ 22), memBytes s.mem (regAt s g.ctx n) (2 ^ 17))

/-- A member as its image gives it back (R346, R348, log 90): what the image's layout places, from there, the results not yet landed (R366), and
the resume address and mask of its fault record. -/
def getImage (c : Core) (sealed : Bool) (p : List Byte × List Byte) : Core :=
  let (b, r) := p
  let row := fun (a : Nat) => (BitVec.ofNat 4096 (leNat (slice b a 512)))
  let same := slice r 0 8 == slice c.q.frec 0 8
  let c := { c with q := { c.q with aside := match c.q.aside with | a :: l => { a with wb := wbTaken a.act (slice r 4096 65536) } :: l | [] => [] } }
  let k := if same then c else { undoHold c with q := { (undoHold c).q with aside := match c.q.aside with
    | a :: l => { a with carry := a.carry.map fun y => { y with held := false, xgone := a.xops.any fun x => !x.launched && x.seq == y.seq } } :: l
    | [] => [] } }
  { k with
    m := { k.m with
      spad := if sealed then c.m.spad else (upTo 6144).filterMap fun l => let v := row (512 * l); if v = 0 then none else some (l, v)
      spadEp := if sealed then c.m.spadEp else []
      slots := c.m.slots.map fun (k, o) => (k, if o.st = .free then o else { o with rows := (upTo 128).map fun i =>
        (i, ⟨BitVec.ofNat 2048 (leNat (slice b (3145728 + 32768 * k + 256 * i) 256)), BitVec.ofNat 128 (leNat (slice b (3670016 + 2048 * k + 16 * i) 16)), (o.row k i).cl⟩) })
      acc := (upTo 640).map fun i => (i, row (3710976 + 512 * i))
      drain := (upTo 128).map fun i => (i, row (4038656 + 512 * i))
      q := (upTo 16).map fun i => (i, row (4177920 + 544 * i))
      qc := (upTo 16).map fun i => (i, BitVec.ofNat 256 (leNat (slice b (4177920 + 544 * i + 512) 32))) }
    q := if same then c.q else { k.q with pc := leNat (slice r 0 4), skipMask := BitVec.ofNat 12 (leNat (slice r 6 2)) } }

/-- Adopts a filler's end: the gang it stood in for may come back (R433). -/
def fillerGone (s : State) (n : Nat) : State := modGang s n fun g => { g with aside := none }

/-- The gang's members leave their cores (R348); `keep` leaves the ramp slots for the gang that comes in their place (R433). -/
def saveGang (s : State) (n : Nat) (g : Gang) (keep : Bool) : State :=
  let images := g.cores.map (coreAt s)
  let fast := fastPath s g
  let sealEp := s.fresh + 1
  let s := match fast with
    | some (d, l) => g.cores.zipIdx.foldl (fun s (c, i) => putFast s d c ((l.drop (8192 * i)).take 8192) (coreAt s c)) s
    | none => g.cores.foldl (fun s c => putImage s g.ctx c (coreAt s c)) s
  let s := freeCores s g.cores
  let s := if keep || g.pinned then s else g.cores.foldl (fun s c => releaseSlots s c 0) s
  modGang s n fun g =>
    { g with
      state := if g.trap then 3 else 2, saved := images, fast := fast, resume := false, aside := none, filling := false, giving := false
      sealEp := sealEp, seen := [], poll := 0 }

/-! ## Restoring a gang (R351) -/

/-- A member comes back on a core, and goes on at a device time (R87, R351); one that was halted in a debug stop is halted again, and a stop
that was asked for is pending again (R414, log 113). -/
def restoreCore (s : State) (n : Nat) (img : Core) (wake : Nat) : State :=
  modCore s n fun c =>
    let halts := img.q.dbg == 2 && !img.q.retired
    let k := if halts then { img with conf := [], lines := [], asks := [] } else img.goOn wake
    { k with
      ct := c.ct, tlbR := [], tlbP := [], pmc := c.pmc, halted := halts, dbgErr := c.dbgErr, store := c.store
      r := { k.r with alnLoss := c.r.alnLoss, cvtLoss := c.r.cvtLoss }
      q := { k.q with stopReq := if img.q.dbg = 1 then 2 else 0, dbg := 0, rhalt := false, last := c.q.last, yielded := false, wake := wake } }

/- The dictionary is loaded and checked again (R144, R348). -/
noncomputable section

/-- The members of a saved gang on new cores, in the order of their coordinates (R351): a fast save is moved through HBM to another
die, sealed there as R410 has it. -/
def restoreGang (s : State) (n : Nat) (g : Gang) (cores : List Nat) : State :=
  let s := makeResident s g.ctx
  let bar := match g.saved with | c :: _ => ctGet c 511 | [] => 0
  let old := g.cores.zip g.saved
  let parts := old.zipIdx.map fun ((c, _), i) => imageParts s g c i
  let near := match g.fast with | some (d, _) => cores.all fun c => dieOf c == d | none => false
  let s := if g.fast.isSome && !near then
      (old.zip parts).foldl (fun s ((c, k), b, r) =>
        let (ep, s) := drawFresh s
        let b := if k.m.hheld.isEmpty then b else sealedPad (ep + 1) ++ b.drop 3145728
        { s with mem := memPutBytes (memPutBytes s.mem (bulkAt s g.ctx c) b) (regAt s g.ctx c) r }) s
    else s
  let imgs := (old.zip parts).map fun ((_, k), p) => getImage k (g.fast.isNone && !k.m.hheld.isEmpty) p
  let wake := s.dev + swapTime near cores.length
  let s := (cores.zip imgs).foldl (fun s (c, k) => restoreCore s c k wake) s
  let s := match cores with | c :: _ => modCore s c fun k => ctSet k 511 bar | [] => s
  let s := dropReq s (65536 + n)
  let s := if g.pinned then s else keepSlots s g.asid cores (slotsPer s g.pclass)
  let s := takeTurn s g.queue
  dictLoad (modGang s n fun g => { g with cores := cores, state := 0, saved := [], fast := none, at_ := s.dev, resume := true }) cores

/-- Whether a saved gang has an image that R410 seals wherever it leaves its die: such a gang stays on this package. -/
def Gang.isSealed (g : Gang) : Bool := g.saved.any fun c => !c.m.hheld.isEmpty

/-- Whether the seals of a gang's images hold: in HBM they are as they were written (R410). -/
def sealOk (s : State) (g : Gang) : Bool :=
  g.fast.isSome || (g.cores.zip g.saved).zipIdx.all fun ((n, k), i) =>
    k.m.hheld.isEmpty || memBytes s.mem (bulkAt s g.ctx n) 3145728 == sealedPad (g.sealEp + i)

/-- The levels of a saved gang, with the bounds in force. -/
def Gang.levels (g : Gang) : List Level := match g.saved with | c :: _ => c.prog.levels | [] => []

/-- Dies that a list of cores lies on. -/
def diesOf (l : List Nat) : Nat := (l.map dieOf).eraseDups.length

/-- Sets of dies, the whole package first. -/
def dieSets : List (List Nat) := [[0, 1, 2, 3], [0], [1], [2], [3], [0, 1], [0, 2], [0, 3], [1, 2], [1, 3], [2, 3], [0, 1, 2], [0, 1, 3], [0, 2, 3], [1, 2, 3]]

/-- Cores for a saved gang that lie on as many dies as the ones it left (R24, R25, R351). -/
def placeKept (all : List Nat) (ls : List Level) (dies : Nat) (free : List Nat) : Option (List Nat) :=
  dieSets.findSome? fun ds => (placeGang all (free.filter fun n => ds.contains (dieOf n)) ls).filter fun l => diesOf l == dies

/-- A gang that another package hands over is taken in as a saved gang of this one, with its images in the save area of a context of its
address space on the partition it names (R351, log 87). -/
def takeIn (s : State) : State :=
  match s.handed with
  | [] => s
  | g :: l =>
    if g.isSealed then s else
    match freeGangId s, ctxOf s g.asid g.part, placeKept (partCores s g.part) g.levels (diesOf g.cores) (partCores s g.part) with
    | some n, some ctx, some cores =>
      let s := (cores.zip g.saved).foldl (fun s (c, k) => putImage s ctx c k) { s with handed := l }
      { s with gangs := spSet s.gangs n { g with ctx := ctx, cores := cores, state := 2, fast := none, aside := none, filling := false } }
    | _, _, _ => s

/-- Saved gang `g` is placed again (R351), having asked for its ramp slots (R430); `pick` orders the free cores. `ok` is 2
where the image has been brought from a package of another stepping, 3 where another package takes the gang, and 4 where this one takes in
what another hands over (R351, log 87). -/
def restoreSaved (g ok : Nat) (pick : List Nat) (s : State) : State :=
  match (if ok = 4 then none else gangAt s g) with
  | none => if ok = 4 then takeIn s else s
  | some x =>
    let q := x.queue
    let st := qState s q
    if x.state != 2 || x.killed || x.filler || !(st = 0 || st = 1) || !servesQueues s ||
        s.gangs.any (fun (_, h) => h.aside == some g) || !((reqOf s (65536 + g)).isSome || mayRestore s g x) then s else
    let key := 65536 + g
    if ok = 2 then dropGang (finishRec (dropReq s key) q x.idx 2 2 x.bytes) g
    else if ok = 3 && !x.isSealed then dropGang (dropReq s key) g else
    let go := fun (s : State) (cores : List Nat) =>
      if !sealOk s x then sealFail s x.asid
      -- a pinned up step that is refused: every member traps before it goes on (R434)
      else if x.pinned && upRefused s (x.cores.length * slotsPer s x.pclass) then rampCount (trapAll (restoreGang s g x cores) cores 0x19 0xFFFF 0xFF) 0x20
      else
        let s := if x.pinned then chargeUp s (x.cores.length * slotsPer s x.pclass) else s
        restoreGang s g x cores
    let place := placeKept (partCores s x.part) x.levels (diesOf x.cores)
    let push := fun (s : State) => preemptFor s x.part x.ctx key (qPrio s q) (if turnBegins s q (sameLevel s x.part (qPrio s q)) then some q else none) place
    match reqOf s key with
    | some rq => if otherBlocks s x.part x.ctx then push s else if rq.lack = 0 then go s rq.cores else s
    | none =>
      match place (freeOrder s x.part x.ctx key pick) with
      | none => push s
      | some cores =>
        if x.pinned || !drlEn s then go s cores
        else
          let s := askSlots s key x.asid cores (slotsPer s x.pclass)
          match reqOf s key with | some rq => if rq.lack = 0 then go s cores else s | none => s

/-- CONTEXT_RESTORE: saved gang `g`. -/
def execContextRestore (g ok : Nat) (pick : List Nat) (s : State) : Ans := .next (restoreSaved g ok pick s)

/-- The gangs of requests that lack no slot any more start (R429). -/
def startGranted (s : State) : State :=
  s.drl.reqs.foldl (fun s r => if r.lack != 0 then s else if r.queue < 65536 then placeHead r.queue [] s else restoreSaved (r.queue - 65536) 1 [] s) s

/-- DRL_CTL_WRITE: gangs whose requests EN's fall has granted start (R426). -/
def execDrlCtlWrite (v : Nat) (s : State) : Ans := .next (if s.sec.recovery then s else startGranted (drlWrite s v))


end

/-! ## Retirement (R31, R175, R345, R432, R434) -/

/-- Poison on a gang's barrier counter (R31). -/
def poisonBarrier (s : State) (cn : Nat) : State :=
  match (coreAt s cn).bind with
  | none => s
  | some b => match gangAt s b.gang with
    | some g => match g.cores with | n :: _ => modCore s n fun c => ctSet c 511 (ctrPoison (ctGet c 511)) | [] => s
    | none => s

/-- A member retires: the levels it ends are traced (R175, R420). -/
def retireCore (s : State) (n : Nat) : State :=
  let c := coreAt s n
  let s := c.r.loops.foldl (fun s k => loopExit s n k c.q.lastPc) s
  modCore s n Core.retire

/-- The gang's last member has retired: the DONE add, the status, the cores (R345). -/
def gangComplete (s : State) (n : Nat) (g : Gang) : State :=
  let s := finishRec s g.queue g.idx 0 0 g.bytes
  dropGang (freeCores s g.cores) n

/-- TILE_TASK_RETIRE: core `c`, halting, has finished its waits and retires (R175). -/
def execTileTaskRetire (c : Nat) (s : State) : Ans :=
  let k := coreAt s c
  match k.bind with
  | none => .next s
  | some b =>
    match gangAt s b.gang with
    | none => .next s
    | some g =>
      if !haltDone k || g.killed then .next s else
      -- the last retirement and a KILL: the arbiter decides which comes first (R350)
      let (go, s) := if g.cores.all fun n => n == c || (coreAt s n).q.retired then rplGate s g.asid (0x5000 + b.gang % 2048) (if killTaken s g.queue then 3 else 1) 0
        else (true, s)
      if !go then .next s else
      -- and the order of its DONE add among the operations on that counter (R104)
      let (go, s) := match doneDue s g with | some a => ctrGate s g.asid a (2 ^ 30 + b.gang) | none => (true, s)
      if !go then .next s else
      let per := slotsPer s b.pclass
      if b.pinned && downRefused s per then
        let s := takeTrap s c (stopInfo k 0x19 0 0) false none
        .next (rampCount (modCore s c fun k => { k with q := { k.q with hold := .halt } }) 0x20)
      else
        let m := k.r.ssn.toNat
        let late := (membersOf s c).any fun n => n != c && (match (coreAt s n).q.hold with | .sstep 4 => (coreAt s n).r.ssn.toNat + 1 > m | _ => false)
        let s := if late then poisonBarrier s c else s
        let s := retireCore s c
        let s := if b.pinned then chargeDown s per else releaseSlots s c 0
        match gangAt s b.gang with
        | some g => .next (if g.cores.all fun n => (coreAt s n).q.retired then gangComplete s b.gang g else s)
        | none => .next s

/-! ## Filler (R433) -/

/-- Whether a member has waited at a landing point for FILLWAIT evaluations, the last of which is the one under way. -/
def longWait (s : State) (c : Core) : Bool :=
  let since := fun (t0 : Nat) => decide (t0 + nsDev (10000 * drlFillwait s) ≤ nsDev (10000 * (s.drl.evals + 1)))
  waitsAtLanding c && match c.q.hold with
    | .counter _ _ _ _ _ _ _ t0 .. => since t0
    | .sstep 4 => since c.q.waitT
    | _ => false

/-- Whether filler may replace a gang. -/
def replaceable (s : State) (g : Gang) : Bool :=
  g.state == 0 && !g.filler && !g.pinned && !g.killed && g.cores.length ≤ 8 && (fastPath s g).isSome &&
  g.cores.all fun n => let c := coreAt s n; !c.halted && c.q.running && longWait s c

/-- The counter of this package that a saved member waits on. -/
def watched (s : State) (g : Gang) (c : Core) : Option (Word × Nat) :=
  match c.q.hold with
  | .counter _ _ _ _ (.near (.file k n)) v .. => some (if g.cores.contains k then ctrRead s (ctxCounter s g.ctx k n) else ctrRead s (.file k n), v)
  | .counter _ _ _ _ (.near p) v .. => some (ctrRead s p, v)
  | .sstep 4 => some (ctGet (g.saved.headD c) 511, (match c.bind with | some b => b.size | none => 1) * (c.r.ssn.toNat + 1))
  | _ => none

/-- Whether the watched wait of saved member `i` has ended: satisfied, poisoned or timed out. A counter of another package is what the last
read of it brought. -/
def watchOver (s : State) (g : Gang) (i : Nat) (c : Core) : Bool :=
  let met := fun (x : Word) (v : Nat) => x.getLsbD 63 || ctrReached x v
  (match c.q.hold with
    | .counter _ _ _ _ (.far ..) v .. => (match spFind g.seen i with | some 0 => true | some k => met (BitVec.ofNat 64 (k - 1)) v | none => false)
    | _ => match watched s g c with | some (x, v) => met x v | none => true) ||
  (match c.q.hold with | .counter _ _ _ _ _ _ tmo t0 .. => s.dev ≥ t0 + nsDev tmo | _ => false)

/-- The scheduler reads the counters of other packages that the members of saved gang `n` wait on, every 4 µs (R109, R433, log 88). -/
def watchPoll (s : State) (n : Nat) (g : Gang) : State :=
  if s.dev < g.poll then s else
  g.saved.zipIdx.foldl (fun s (c, i) => match c.q.hold with
    | .counter _ _ _ _ (.far w va o) .. =>
      if s.hub.pend.any fun (_, p) => p.what == 10 && p.core == i && p.ref == n then s else
      let (t, s) := newTag s ⟨10, i, n, 8, none⟩
      modGang (hubSend s (winRequest s w va o 0x04 2 8 t (toBytes 0 8))) n fun g => { g with poll := s.dev + nsDev 4000 }
    | _ => s) s

/-- What a read of such a counter brought: the word + 1, or 0 where it was refused. -/
def watchSeen (s : State) (q : Pend) (v : Nat) : State := modGang s q.ref fun g => { g with seen := spSet g.seen q.core v }

/-- A waiting gang's wait has ended: its filler is asked to leave, unless a debug stop holds it (R414). -/
def fillerLeave (s : State) : State :=
  s.gangs.foldl (fun s (n, f) =>
    match f.aside with
    | some w => match gangAt s w with
      | some g =>
        let s := watchPoll s w g
        if mayPreempt s f && g.saved.zipIdx.any fun (c, i) => watchOver s g i c then askGang s n 4 else s
      | none => if mayPreempt s f then askGang s n 4 else s
    | none => s) s

/-- Whether a gang's cores and the slots they hold suffice for levels of a class, and where they would run (R433). -/
def fillFits (s : State) (g : Gang) (ls : List Level) (pc : Nat) : Option (List Nat) :=
  (placeGang (partCores s g.part) g.cores.mergeSort ls).filter fun _ => gangSlots s ls pc ≤ (g.cores.map (slotsOf s)).sum

/-- Whether a filler's context may run in the place of gang `n`. -/
def fillAlone (s : State) (n : Nat) (g : Gang) (ctx : Nat) : Bool := ctx == g.ctx || !s.gangs.any fun (m, h) => m != n && h.part == g.part && h.placed

/-- A saved filler gang that fits a waiting gang's cores (R433). -/
def fillSaved (s : State) (n : Nat) (g : Gang) : Option (Nat × Gang) :=
  s.gangs.find? fun (_, f) => f.filler && f.state == 2 && f.part == g.part && qState s f.queue == 0 && fillAlone s n g f.ctx && (fillFits s g f.levels f.pclass).isSome

/-- A filler queue whose ready record fits a waiting gang's cores (R433): its record, image and levels. -/
def fillReady (s : State) (n : Nat) (g : Gang) : Option (Nat × QRec × Image × List Level) :=
  s.qs.findSome? fun (q, x) =>
    match x.head, ctxOf s (qAsid s q) (qPart s q) with
    | some r, some ctx =>
      if x.bound && qFiller s q && qPart s q == g.part && qState s q == 0 && x.slot.isSome && r.met && fillAlone s n g ctx then
        match recShape s q r.bytes with
        | .inr (img, ls) => if (fillFits s g ls (recForce r.bytes img).1).isSome then some (q, r, img, ls) else none
        | .inl _ => none
      else none
    | _, _ => none

noncomputable section

/-- The cores that a gang has left for filler: a saved filler gang, or the ready record of a filler queue, takes them without asking for
slots; with neither, the slots are released (R432, R433). -/
def fillPlace (s : State) (n : Nat) (g : Gang) : State :=
  match fillSaved s n g with
  | some (m, f) => match fillFits s g f.levels f.pclass with
    | some cs => if sealOk s f then modGang (restoreGang s m f cs) m fun f => { f with aside := some n } else sealFail s f.asid
    | none => s
  | none => match fillReady s n g with
    | some (q, r, img, ls) => match fillFits s g ls (recForce r.bytes img).1 with
      | some cs => startGang s q r img ls cs (some n)
      | none => s
    | none => g.cores.foldl (fun s c => releaseSlots s c 0) s

/-- Whether a gang waits for cores of a partition: a ready record, or a saved gang; only then do cores given up for another gang keep their
slots (R432, log 118). -/
def othersWait (s : State) (part : Nat) : Bool := !(readyQs s part).isEmpty || !(waitingGangs s part).isEmpty

/-- CONTEXT_SAVE: gang `g`'s members have all stopped, its image has had the time it takes, and the gang is saved (R348); PREEMPT and ISTOP
are announced. Where it makes place for filler, the filler comes (R433). -/
def execContextSave (g : Nat) (s : State) : Ans :=
  match gangAt s g with
  | none => .next s
  | some x =>
    let cs := x.cores.map (coreAt s)
    if !x.placed || x.killed || !x.cores.all (savable s) || cs.all (fun c => c.q.retired) || cs.any (fun c => c.halted) ||
        s.dev < (cs.map fun c => c.q.stopT).foldl max 0 + swapTime (fastPath s x).isSome cs.length then .next s else
    let isIstop := bit (recWord x.bytes 0) 5 && cs.any fun c => leNat (slice c.q.frec 8 1) == 0x1D
    let trap := x.trap || cs.any fun c => let k := leNat (slice c.q.frec 8 1); !c.q.retired && k != 0x1D && k != 0x1E
    let first := isIstop && !x.resume && x.saved.isEmpty
    let asked := x.trap
    let s := modGang s g fun x => { x with trap := trap || first }
    let x := { x with trap := trap || first }
    let s := saveGang s g x (x.aside.isSome || x.filling || (x.giving && othersWait s x.part))
    let s := if first then post s (ownerOf s x.asid) 4 [g] else s
    let s := if asked then post s (tellOf s x.psts x.asid) 3 [x.psts, 6, g, 0] else s
    .next (if x.filling && !x.trap then fillPlace s g x else s)

/-- Whether filler waits that fits a gang's cores. -/
def fillWaits (s : State) (n : Nat) (g : Gang) : Bool := (fillSaved s n g).isSome || (fillReady s n g).isSome

/-- DERAILLEUR_EVALUATION: the governor's evaluation, when one is due (R427), at which gangs whose last slot it grants start (R429); then gangs that wait long are stopped and saved to make place for filler (R433). -/
def execDerailleurEvaluation (s : State) : Ans :=
  if !evalDue s then .next s else
  let s := startGranted (drlEvaluate s)
  if !drlEn s || drlFillwait s = 0 then .next s else
  .next (s.gangs.foldl (fun s (n, _) => match gangAt s n with
    | some g => if replaceable s g && fillWaits s n g then modGang (askGang s n 1) n fun g => { g with filling := true } else s
    | none => s) s)

end

/-! ## Settling -/

/-- Gangs that a KILL reached end when their started commands have completed (R349). -/
def settleKilled (s : State) : State :=
  s.gangs.foldl (fun s (n, g) =>
    if !g.killed then (if (qsOf s g.queue).teardown == some 1 then killGang s n g else s)
    else if g.placed && g.cores.any fun c => (coreAt s c).f.cmds.any fun x => !cmdStuck s c x then s
    else
      let s := if g.placed then (if g.pinned then freeCores s g.cores else g.cores.foldl (fun s c => releaseSlots s c 0) (freeCores s g.cores)) else s
      dropGang (finishRec s g.queue g.idx 5 0 g.bytes) n) s

/-- Teardowns that have reached their end (R349). -/
def settleQueues (s : State) : State :=
  s.qs.foldl (fun s (q, x) =>
    let torn := fun (s : State) => post (modQ s q fun x => { x with teardown := none, slot := none, turn := none }) (tellOf s x.tsts (qAsid s q)) 3 [x.tsts, 4, q, 0]
    match x.teardown with
    | some 2 => if (gangsOf s q).all fun (_, g) => g.state ≥ 2 then torn s else s
    | some _ => if (qsOf s q).head.isNone && qTake s q ≥ qTail s q && (gangsOf s q).isEmpty then qSetState (torn s) q 3 else s
    | none => s) s

/-- Whether a member has been stopped by a trap to the driver, and not by a request. -/
def trapped (c : Core) : Bool := let k := leNat (slice c.q.frec 8 1); c.q.stopped && k != 0x1D && k != 0x1E

/-- Stops leave their trace records (R419); a member that has trapped to the driver gives up its slots, in the order of these events (R432). -/
def settleStops (s : State) : State :=
  s.cores.foldl (fun s (n, c) =>
    if c.q.stopped && !c.q.logged then
      let f := c.q.frec
      let s := if trapped c && !(c.bind.any Bind.pinned) then releaseSlots s n 0 else s
      modCore (traceStop s n (leNat (slice f 8 1)) (leNat (slice f 9 1)) (leNat (slice f 10 1)) (leNat (slice f 6 2))) n fun c => { c with q := { c.q with logged := true } }
    else s) s

/-- A member's trap to the driver puts its gang among those being stopped (R346). -/
def settleTraps (s : State) : State :=
  s.gangs.foldl (fun s (n, g) =>
    if g.state = 0 && g.cores.any fun c => let k := coreAt s c; k.q.stopped && !k.halted then modGang s n fun g => { g with state := 1 } else s) s

/-- Cores whose slots were kept for a gang to come give them up where none comes any more (R432). -/
def releaseIdle (s : State) : State :=
  s.drl.slots.foldl (fun s (n, k) =>
    if k = 0 || (coreAt s n).bind.isSome || s.drl.reqs.any (fun r => r.cores.contains n) ||
        (s.qs.any fun (q, _) => (partCores s (qPart s q)).contains n && othersWait s (qPart s q)) || s.gangs.any (fun (_, g) => g.filling && g.cores.contains n) then s
    else releaseSlots s n 0) s

/-- What follows at once from the state the scheduler finds. -/
def schedSettle (s : State) : State := fillerLeave (releaseIdle (settleQueues (settleKilled (settleTraps (settleStops (schedRun s))))))

end Sys2Proof.Machine
end

