-- ==== Sys2Proof/Machine/Cycle.lean ====
section
/-! DEFINITION. Machine/Cycle: one cycle of a core (spec/02, R32 to R45; spec/17, R299 to R316): what holds the line, fetch, skipped bundles,
issue, the commit of a bundle and its faults (R447), what advances in an active cycle. BUNDLE_FETCH puts the slots of the bundle that
issues on `issue.todo`; the step runs them and then commits the bundle. -/

namespace Sys2Proof.Machine

/-! ## Rows of drains and fills, and the banks they take (R56, R215, R241, R304) -/

/-- The launched drains into handles whose next row is due and waits for no other operation; `bs` are those launched before. -/
def rowsDue : List XOp → List XOp → List XOp
  | _, [] => []
  | bs, x :: l =>
    (if x.launched && x.op == 10 && x.done < 128 && x.done + x.slip ≤ x.age && !(stream x.str).tgt && (xBlockers bs x).isEmpty then [x] else [])
      ++ rowsDue (bs ++ [x]) l

/-- The lines of row `i` of a drain into a handle, and their banks. -/
def rowLines (c : Core) (x : XOp) (i : Nat) : List Nat :=
  let t := stream x.str
  touched (handle c t.hnd) (stAddr (stream (stSteps i x.str))).toNat (16 * (fmtBits t.fmt).getD 8)

def rowBanks (c : Core) (x : XOp) (i : Nat) : List Nat := ((rowLines c x i).map bankOf).eraseDups

/-- The rows that the drain port writes in a cycle in which the drains that `sel` names advance: those due, and one whose second line of one
bank is written in its further cycle. -/
def drainRows (sel : XOp → Bool) (c : Core) : List (XOp × Nat) :=
  ((rowsDue [] c.f.xops).filter sel).map (fun x => (x, x.done)) ++
  (c.f.xops.filter fun x => sel x && x.launched && x.op == 10 && !(stream x.str).tgt && 0 < x.done && x.age < x.done + x.slip).map
    fun x => (x, x.done - 1)

/-- The banks that the drain port takes in such a cycle, and the lines. -/
def drainBanks (sel : XOp → Bool) (c : Core) : List Nat := (drainRows sel c).flatMap fun (x, i) => rowBanks c x i
def drainLines (sel : XOp → Bool) (c : Core) : List Nat := (drainRows sel c).flatMap fun (x, i) => rowLines c x i

/-- Whether a fill gets its banks beside the drain port, which has them first. -/
def fillGets (c : Core) (drains : List Nat) : Bool := !(fillBanks c).any drains.contains

/-- The lines that a fill reads in its next cycle. -/
def fillUse (c : Core) : List Nat :=
  match c.f.fill with
  | some f => if f.reads then (fillLines c f).filter fun n => (fillBanks c).contains (bankOf n) else []
  | none => []

/-- What is granted at the banks in a cycle: asynchronous accesses that are still ready have lost to it once more (R56, R420). -/
def noteLines (l : List (Nat × Nat)) (c : Core) : Core :=
  (c.asks.filter fun x => (l.map fun y => bankOf y.2).contains x.2).foldl (fun c x => confAdd c x.1 x.2) { c with lines := l }

/-- The grants that a fill loses to the drain port (R215, R420). -/
def fillLoss (drains : List Nat) (c : Core) : Core := ((fillBanks c).filter drains.contains).foldl (fun c b => confAdd c 1 b) c

/-- The banks of a cycle without a bundle's accesses: of the drains that `sel` names, and of the fill where it may get on. -/
def noteCycle (sel : XOp → Bool) (fill : Bool) (c : Core) : Core :=
  let d := drainBanks sel c
  noteLines ((drainLines sel c).map (fun n => (0, n)) ++ if fill && fillGets c d then (fillUse c).map fun n => (1, n) else [])
    (if fill && !fillGets c d then fillLoss d c else c)

/-- A cycle of the fill in progress; `free` says that it gets its banks (R215, R304). -/
def fillCycle (free : Bool) (c : Core) : Core :=
  match c.f.fill with
  | none => c
  | some f =>
    match f.fullAt with
    | some k => { c with f := { c.f with fill := some { f with fullAt := some (k - 1) } } }
    | none => if free then fillStep c else c

/-! ## An active cycle -/

/-- Start delays run down by one; that of the bundle issued in this cycle does not begin to run yet (R32). -/
def delaysRun (sel : XOp → Bool) (c : Core) : Core :=
  { c with f := { c.f with xops := c.f.xops.map fun x => if x.launched || !sel x then x else { x with delay := x.delay - 1 } } }

/-- Matrix operations, start delays and the fill advance by one cycle (R32, R231); `seq` is the order of the bundle issued in this cycle,
`gone` the drains whose row is written already, and `old` says that the fill was in progress before it. -/
def xCycle (seq : Option Nat) (gone : List Nat) (free old : Bool) (c : Core) : Core :=
  let c := delaysRun (fun x => some x.seq != seq) (xAdvance (fun _ => true) gone c)
  if old then fillCycle free c else c

/-- The end of an active cycle: results land, the rational operation in flight finishes, the cycle is counted (R299, R308). -/
def endActive (c : Core) : Core :=
  let t := c.q.act
  let c := landUpTo c t
  let c := match c.f.rat with | some r => if r.land ≤ t then ratFinish c else c | none => c
  let c := countEv c 0x01 1
  { c with q := { c.q with act := t + 1, heldBy := 0 }, sample := c.sample + 1, f := { c.f with ports := c.f.ports.filter fun (k, _, _) => t < k } }

/-- An `amo.sc` on its third active cycle arrives at the wheel (R313). -/
def wheelArrive (s : State) (cn : Nat) : State :=
  modCore s cn fun c => { c with f := { c.f with gq := c.f.gq.map fun g => match g.st with
    | .wheel a none => if a ≤ c.q.act then { g with st := .wheel a (some s.now) } else g
    | _ => g } }

/-- In a cycle of the wheel that a core owns, its oldest `amo.sc` that has arrived and may go is performed (R116). -/
def wheelTurn (s : State) (cn : Nat) : State :=
  if !wheelOwned s cn then s else
  match findIdxOf (fun (g : GOp) => match g.st with | .wheel _ (some _) => true | _ => false) (coreAt s cn).f.gq with
  | some (i, _) => gTry s cn i
  | none => s

/-- A cycle in which no bundle issues and the line is low. -/
def idleActive (s : State) (cn : Nat) : State :=
  let s := wheelTurn (wheelArrive s cn) cn
  modCore s cn fun c => endActive (xCycle none [] (fillGets c (drainBanks (fun _ => true) c)) true (noteCycle (fun _ => true) true c))

/-! ## A held cycle (R33)

Nothing of the domain gets on, but what the line is held for: were that still too, the hold would never end (log 36, 37). -/

/-- Every `amo.sc` that the line may be waiting for gets on by one cycle on its way to the wheel. -/
def amoTravel (sel : GOp → Bool) (c : Core) : Core :=
  { c with f := { c.f with gq := c.f.gq.map fun g => match g.st with | .wheel a none => if sel g then { g with st := .wheel (a - 1) none } else g | _ => g } }

/-- A held cycle, counted under its cause (R33, R422): `adv` is what gets on of the domain, `amo` which `amo.sc` do. -/
def heldCycle (s : State) (cn ev : Nat) (adv : Core → Core) (amo : GOp → Bool) : State :=
  let s := wheelTurn (wheelArrive (modCore s cn (amoTravel amo)) cn) cn
  modCore s cn fun c => let k := adv c; countEv { k with q := { k.q with heldBy := ev } } ev 1

/-- A held cycle in which nothing of the domain gets on. -/
def stillCycle (s : State) (cn ev : Nat) : State := heldCycle s cn ev id fun _ => false

/-- The operations that a condition names, and those that launch before them: operations take effect in launch order (R231). -/
def xUpTo (need : XOp → Bool) (c : Core) : List Nat := (((xOrder c.f.xops).reverse.dropWhile fun x => !need x).map XOp.seq)

/-- Launches, in order, those of some operations whose start delay ends in this cycle; says whether one is held or has faulted. -/
def launchDue (sel : XOp → Bool) : Nat → State → Nat → XCheck × State
  | 0, s, _ => (.ok, s)
  | k + 1, s, cn =>
    let c := coreAt s cn
    match c.f.xops.find? fun x => !x.launched && x.delay ≤ 1 && sel x with
    | none => (.ok, s)
    | some x =>
      let x := { x with delay := 0 }
      match launchOne (modCore s cn fun c => putX c x) cn c x with
      | (.ok, s) => launchDue sel k s cn
      | r => r

/-- The operand slot that an operation not yet launched waits for, if it is FILLING. -/
def waitsSlot (c : Core) (x : XOp) : Option Nat :=
  if x.launched then none
  else if readsSlot x.op then some x.os
  else if x.op = 10 then let t := stream (stReg c (dview (mmReg c x.mm)).st); if t.tgt then some (t.hnd % 16) else none
  else none

/-- A cycle in which some operations get on with those that launch before them, and the fill where it is waited for. -/
def matrixOn (on : XOp → Bool) (fill : Bool) (c : Core) : Core :=
  let fill := fill || c.f.fill.any fun f => c.f.xops.any fun x => on x && waitsSlot c x == some f.os
  let free := fillGets c (drainBanks on c)
  let c := delaysRun on (xAdvance on [] (noteCycle on fill c))
  if fill then fillCycle free c else c

/-- A held cycle in which the line waits for matrix operations, or for the fill: those get on, and what launches before them. -/
def matrixHeld (s : State) (cn ev : Nat) (need : XOp → Bool) (fill : Bool) (more : Core → Core) (amo : GOp → Bool) : State :=
  let l := xUpTo need (coreAt s cn)
  let on := fun (x : XOp) => l.contains x.seq
  match launchDue on 9 s cn with
  | (.fault _, s) => s
  | (_, s) => heldCycle s cn ev (fun c => more (matrixOn on fill c)) amo

/-- The hold of an operation found at its launch (R231): what launches before it gets on, and the fill of its slot. -/
def launchHeld (s : State) (cn : Nat) : State :=
  let c := coreAt s cn
  match c.f.xops.find? fun x => !x.launched && x.delay ≤ 1 with
  | some x => matrixHeld s cn 0x06 (fun y => y.seq == x.seq) false id fun _ => false
  | none => stillCycle s cn 0x06

/-- Drain back-pressure (R237, R243): only the rows that are waited for are written or read. -/
def backPressure (s : State) (cn : Nat) : State :=
  heldCycle s cn 0x07 (fun c => let l := waitedFor [] c.f.xops; let on := fun (x : XOp) => l.contains x.seq; xAdvance on [] (noteCycle on false c)) fun _ => false

/-! ### What a held line waits for in the order of accesses and of engine commands (log 36, 37) -/

/-- The commands that a wait for some commands is a wait for (R35, R279): those, the producers of the tokens that one not yet started consumes,
and of an `rflush` the `rst` before it. -/
def awaits (c : Core) (first : Cmd → Bool) : List Cmd :=
  c.f.cmds.foldr (fun y l => if first y || l.any (fun x => (!x.started && x.cons.contains y.tok) || (x.op == 8 && y.op == 5)) then y :: l else l) []

/-- What of the domain a held line waits for: `amo.sc` before an order of issue, rows of `mdrain.fab` before one, the fill. -/
structure Awaited where
  amo : Nat
  fab : Nat
  fill : Bool
deriving DecidableEq, Repr

/-- The order of issue before which a command that has not started waits for accesses of the queue (R36, R268): a release for all, any
other for stores. -/
def cmdBefore (c : Core) (x : Cmd) : Nat :=
  if x.started then 0
  else if x.op = 8 || x.op = 0x0D || x.op = 0x0E then x.seq
  else ((c.f.gq.filter fun g => g.seq < x.seq && !g.kind.writesReg).map fun g => g.seq + 1).foldl max 0

/-- A line held for the accesses before an order of issue and for some commands: `amo.sc` on their way there, the rows that an `rflush` sends,
and the fill where an `amo.sc`, a release store or a counter add comes after it (R105, R113, R116). -/
def awaited (c : Core) (before : Nat) (xs : List Cmd) : Awaited :=
  let amo := (xs.map (cmdBefore c)).foldl max before
  { amo := amo, fab := ((xs.filter fun x => x.op == 8).map Cmd.seq).foldl max 0,
    fill := c.f.fill.any fun f => f.reads &&
      (c.f.gq.any (fun g => g.seq < amo && f.seq < g.seq && (g.kind == .amoSc || g.kind == .storeRel)) ||
       xs.any fun x => !x.started && (x.op == 0x0D || x.op == 0x0E) && f.seq < x.seq) }

/-- Whether anything of the domain has to get on before a wait can end. -/
def Awaited.any (a : Awaited) (c : Core) : Bool :=
  a.fill || c.f.gq.any (fun g => g.kind == .amoSc && g.seq < a.amo) || c.f.xops.any fun x => x.op == 11 && x.seq < a.fab

/-- A held cycle of a line that waits for the accesses before an order of issue and for some commands; `adv` besides gets on. -/
def orderHeld (s : State) (cn ev : Nat) (adv : Core → Core) (before : Nat) (xs : List Cmd) : State :=
  let a := awaited (coreAt s cn) before xs
  matrixHeld s cn ev (fun x => x.op == 11 && x.seq < a.fab) a.fill adv fun g => g.seq < a.amo

/-- The order of issue that lies behind some operations of the queue. -/
def behind (c : Core) (sel : GOp → Bool) : Nat := ((c.f.gq.filter sel).map fun g => g.seq + 1).foldl max 0

/-- The scalar floating datapath gets on by one cycle (R302). -/
def fpCycle (c : Core) : Core := { c with f := { c.f with fpBusy := c.f.fpBusy - 1 } }

/-- The rational operation in flight gets on by one cycle, or, while one waits to start again, what has the datapath (R198, R302). -/
def ratCycle (c : Core) : Core :=
  match c.f.rat with
  | some r => if r.land ≤ c.q.act then ratFinish c else { c with f := { c.f with rat := some { r with land := r.land - 1 } } }
  | none => if c.f.ratWait.isEmpty then c else fpCycle c

/-- Results on their way get on by one cycle. -/
def resultsCycle (c : Core) : Core :=
  let c := ratCycle (landUpTo c c.q.act)
  { c with f := { c.f with wb := c.f.wb.map fun e => { e with land := e.land - 1 } } }

/-- Units that are waited for get on by one cycle (R307). -/
def unitsCycle (slots : List Nat) (c : Core) : Core :=
  { c with f := { c.f with busy := c.f.busy.map fun (k, v) => (k, if slots.contains k then v - 1 else v) } }

/-! ## Loops (R38, R39, R167) -/

/-- R38 and R39 at a body end: levels whose body ends here, innermost first; the address fetched next, when a pass follows. -/
def bodyEnd : Nat → State → Nat → Nat → State × Option Nat
  | 0, s, _, _ => (s, none)
  | k + 1, s, cn, pc =>
    let c := coreAt s cn
    match c.r.loops.find? fun n => (levelOf c n).bend == pc with
    | none => (s, none)
    | some n =>
      let lv := levelOf c n
      let j := spGet 0 c.r.lc n
      if j + 1 < lv.bound + lv.stages - 1 then
        (modCore s cn fun c => { c with r := { c.r with lc := spSet c.r.lc n (j + 1) }, q := { c.q with newPass := if lv.stages > 1 then some n else c.q.newPass } },
         some lv.bstart)
      else
        let s := loopExit s cn n pc
        let s := modCore s cn fun c => { c with r := { c.r with loops := c.r.loops.filter (· != n), p := (if lv.stages > 1 then c.r.p &&& 0xFF#16 else c.r.p) },
                                                  q := { c.q with pfinal := (if lv.stages > 1 then c.q.pfinal.filter (fun kv => kv.1 < 8) else c.q.pfinal) } }
        bodyEnd k s cn pc

/-! ## Fetch (R141 to R143) -/

/-- What stands at a code address: a bundle with its dictionary index and words, or nothing that is one. -/
def bundleAt (c : Core) (a : Nat) : Option (BitVec 384 × Nat × Nat) :=
  match c.prog.code[a]? with
  | none => none
  | some w =>
    if w.toNat < c.prog.dict.length then (c.prog.dict[w.toNat]?).map fun b => (b, w.toNat, 1)
    else if w = 0xFFFF ∧ a + 25 ≤ c.prog.code.length then
      some (BitVec.ofNat 384 (((c.prog.code.drop (a + 1)).take 24).foldl (fun v x => v * 65536 + x.toNat) 0), 0xFFFF, 25)
    else none

/-- The stall count and iteration-boundary bit of a bundle (R138). -/
def bundleStall (b : BitVec 384) : Nat := (b.extractLsb' 380 4).toNat
def bundleIb (b : BitVec 384) : Bool := b.getLsbD 379

/-- Position breakpoints for passes that have begun since a core stood as `b`. -/
def breakPasses (s : State) (cn : Nat) (b : Core) : State :=
  let c := coreAt s cn
  c.r.loops.foldl (fun s n =>
    let j := spGet 0 c.r.lc n
    if !b.r.loops.contains n || spGet 0 b.r.lc n != j then breakAt s cn 1 (n * 2 ^ 40 + j) else s) s

/-! ## Tokens and engines of a bundle (R33, R35) -/

/-- The token an A operation produces; the opcode and the register of its name word or record. -/
def aOp (i : Instr) : Option (Nat × Nat × Nat) :=
  match i with
  | .cpy _ r _ _ _ _ x => some (r, 0x01, 48 + x)
  | .gat _ r _ _ _ _ x => some (r, 0x02, 48 + x)
  | .sct _ r _ _ _ _ x => some (r, 0x03, 48 + x)
  | .mcastQ _ r _ _ _ _ x => some (r, 0x04, 48 + x)
  | .rst _ r _ _ _ _ x => some (r, 0x05, 48 + x)
  | .rld _ r _ _ _ _ x => some (r, 0x06, 48 + x)
  | .rred _ r _ _ _ _ x => some (r, 0x07, 48 + x)
  | .rflush _ r _ _ _ _ => some (r, 0x08, 0)
  | .coll _ r _ _ _ _ x => some (r, 0x09, 48 + x)
  | .disp _ r _ _ _ _ x => some (r, 0x0A, 48 + x)
  | .ccpy _ r _ _ _ _ x => some (r, 0x0B, 48 + x)
  | .task _ r _ _ _ _ x => some (r, 0x0C, 48 + x)
  | .ctadd _ r _ _ _ _ x => some (r, 0x0D, 48 + x)
  | .ctraise _ r _ _ _ _ x => some (r, 0x0E, 48 + x)
  | .ctpoll _ r _ _ _ _ x => some (r, 0x0F, 48 + x)
  | .frecRd _ r _ _ _ _ x => some (r, 0x10, 48 + x)
  | .frecWr _ r _ _ _ _ x => some (r, 0x11, 48 + x)
  | _ => none

/-- The X operation of a slot: opcode, start delay, tile, operand slot. -/
def xOpOf (i : Instr) : Option (Nat × Nat × Nat × Nat) :=
  match i with
  | .mwld _ l o _ => some (1, l, 0, o)
  | .mtrans _ l o _ => some (2, l, 0, o)
  | .mma _ l t o _ => some (3, l, t, o)
  | .mmaAcc _ l t o _ => some (4, l, t, o)
  | .mmaTri _ l t o _ => some (5, l, t, o)
  | .mmaTriAcc _ l t o _ => some (6, l, t, o)
  | .mmaP _ l o _ => some (7, l, 0, o)
  | .mzero _ l t => some (8, l, t, 0)
  | .mdrain _ l t _ => some (9, l, t, 0)
  | .mdrainSp _ l _ => some (10, l, 0, 0)
  | .mdrainFab _ l _ => some (11, l, 0, 0)
  | _ => none

/-- Operations of a bundle whose guards are true. -/
def onOps (c : Core) (ops : List SlotOp) : List Instr := (ops.filter fun (_, o) => opOn c o).map Prod.snd

/-- The tokens that a bundle waits for (R35): those its C, L, W and G operations consume, and those its commands produce. -/
def tokensOf (l : List Instr) : List Nat := l.flatMap fun o => (foot o).tk ++ (match aOp o with | some (r, _) => [r] | none => [])

/-- Token wait (R33): a consumed token, or the token to be produced, is pending. -/
def tokenHeld (c : Core) (l : List Instr) : Bool := (tokensOf l).any fun t => c.r.tok.getLsbD t

/-- Engine queue (R33). -/
def engineHeld (c : Core) (l : List Instr) : Bool := l.any fun o => match aOp o with | some (_, op, x) => engFull c op (sreg c x) | none => false

/-! ## Operand slots and scratchpad (R58, R59, R208, R215, R216, R244) -/

/-- Handle that a W operation or `hfree` names, where it has one. -/
def wHandle (c : Core) (i : Instr) : Option Nat :=
  match i with
  | .vst32 _ _ t => some (stream (stReg c t)).hnd
  | .vst16 _ _ t => some (stream (stReg c t)).hnd
  | .qst _ _ t => some (stream (stReg c t)).hnd
  | .stsB _ _ a _ _ => some (handleWord (sreg c a)).1
  | .stsH _ _ a _ _ => some (handleWord (sreg c a)).1
  | .stsW _ _ a _ _ => some (handleWord (sreg c a)).1
  | .stsD _ _ a _ _ => some (handleWord (sreg c a)).1
  | .hfree _ h => some h
  | _ => none

/-- Whether an operation keeps a slot: it has not finished reading it, or fills it, or is about to be launched to fill it (R58, R242). -/
def keepsSlot (c : Core) (os : Nat) (x : XOp) : Bool :=
  (readsSlot x.op && x.os == os && (!x.launched || (if isLoad x.op then x.done < 128 else x.entered < 128))) ||
  (x.op == 10 && x.launched && (stream x.str).tgt && (stream x.str).hnd % 16 == os) || (x.op == 10 && x.delay ≤ 1 && waitsSlot c x == some os)

/-- Whether an X operation issued earlier keeps a slot. -/
def slotKept (c : Core) (os : Nat) : Bool := c.f.xops.any (keepsSlot c os)

/-- Whether an `ofill` or `orel` of a slot waits for it (R58, R216). -/
def slotBusy (c : Core) (os : Nat) : Bool := (slotOf c os).st == .filling || slotKept c os

/-- Operand-slot holds of a bundle (R58, R215, R216): the slots waited for, and whether the fill is. -/
def slotWaits (c : Core) (l : List Instr) : List Nat × Bool :=
  let slots := l.filterMap fun o => match o with
    | .ofill _ os _ _ _ => if slotBusy c os then some os else none
    | .orel _ os => if slotBusy c os then some os else none
    | _ => none
  (slots, c.f.fill.any fun f => slots.contains f.os || l.any fun o => match o with
    | .ofill .. => true
    | _ => wHandle c o == some (stream f.str).hnd)

/-- An `hfree` of a handle that a `ccpy` holds waits (R408). -/
def freeHeld (c : Core) (l : List Instr) : Bool := l.any fun o => match o with | .hfree _ h => spGet 0 c.m.hheld h == 1 | _ => false

/-- Accumulator ports that an operation takes in this cycle, launched already or about to (R59, R244). -/
def portsOf (x : XOp) : List (Nat × Bool) :=
  if x.launched then xPort x else if x.delay ≤ 1 && (x.op == 8 || x.op == 9) then [(x.t, true)] else []

/-- Whether a bundle needs one of some ports: tile, and whether the write port. -/
def wantsPort (l : List Instr) (taken : List (Nat × Bool)) : Bool :=
  l.any fun o => let f := foot o; f.tilesR.any (fun t => taken.contains (t, false)) || f.tilesW.any (fun t => taken.contains (t, true))

/-- Whether a bundle's ports are taken by the second row of P or U (R257). -/
def rowHeld (c : Core) (l : List Instr) : Bool :=
  l.any fun o => let f := foot o
    f.tilesR.any (fun t => c.f.ports.contains (c.q.act, t, false)) || f.tilesW.any (fun t => c.f.ports.contains (c.q.act, t, true))

/-- Whether an operation accesses memory beside the G queue: an `amo.sc` before it is performed first (R116). -/
def besideQueue (i : Instr) : Bool := match i with
  | .vld32 .. => true | .vld16 .. => true | .qld .. => true | .ldsB .. => true | .ldsH .. => true | .ldsW .. => true | .ldsD .. => true
  | .vst32 .. => true | .vst16 .. => true | .qst .. => true | .stsB .. => true | .stsH .. => true | .stsW .. => true | .stsD .. => true
  | .ofill .. => true | .ldV .. => true | .stV .. => true
  | _ => false

/-- Whether a bundle waits for an `amo.sc` on its way (R116). -/
def scHeld (c : Core) (l : List Instr) : Bool := c.f.gq.any (fun g => g.kind == .amoSc) && l.any besideQueue

/-- Whether an operation is a G operation that needs room in the queue (R218); a fence holds the line itself (R223). -/
def joinsQueue (i : Instr) : Bool := match i with
  | .gNop .. => false | .fenceCore _ => false | .fenceQuad _ => false | .fenceDie _ => false | .fencePackage _ => false | .fenceFabric _ => false
  | _ => i.slotClass == some .g

/-- Whether the G queue has no room for a bundle's operation: it holds 48, each of one order of issue (R218). -/
def queueFull (c : Core) (l : List Instr) : Bool := 48 ≤ (c.f.gq.map GOp.seq).eraseDups.length && l.any joinsQueue

/-- Lines of the scratchpad that an L or W operation, a call or a return accesses in its issue cycle; one that faults accesses none. -/
def linesOf (c : Core) (i : Instr) : List Nat :=
  let vec := fun (w : Bool) (n : Nat) => let t := stream (stReg c n)
    match vecFault c t w, vecShape w t.fmt with | none, some (_, _, k) => touched (handle c t.hnd) (stAddr t).toNat k | _, _ => []
  let packed := fun (n : Nat) => let t := stream (stReg c n)
    match qFault c t, qShape t.fmt with
    | none, some (_, e, k) => touched (handle c t.hnd) (stAddr t).toNat k ++ (if t.blk = 0 then [] else touched (handle c t.hnd) (stScale t e).toNat (qScales t e))
    | _, _ => []
  let bytes := fun (h o n : Nat) => if (handleFault (handle c h) o n).isSome then [] else touched (handle c h) o n
  let word := fun (a n : Nat) => let (h, o, ok) := handleWord (sreg c a); if ok then bytes h o n else []
  match i with
  | .vld32 _ _ t => vec false t
  | .vld16 _ _ t => vec true t
  | .qld _ _ t => packed t
  | .ldsB _ _ a _ _ => word a 1
  | .ldsH _ _ a _ _ => word a 2
  | .ldsW _ _ a _ _ => word a 4
  | .ldsD _ _ a _ _ => word a 8
  | .vst32 _ _ t => vec false t
  | .vst16 _ _ t => vec true t
  | .qst _ _ t => packed t
  | .stsB _ _ a _ _ => word a 1
  | .stsH _ _ a _ _ => word a 2
  | .stsW _ _ a _ _ => word a 4
  | .stsD _ _ a _ _ => word a 8
  | .call _ _ => if c.r.depth < 16 then [] else bytes 255 (4 * (c.r.depth - 16)) 4
  | .ret _ => if c.r.depth ≤ 16 then [] else bytes 255 (4 * (c.r.depth - 17)) 4
  | _ => []

/-- Whether an operation's scratchpad accesses have the priority of L, or of W (R56, R166). -/
def isRead (i : Instr) : Bool := match i with
  | .vld32 .. => true | .vld16 .. => true | .qld .. => true | .ldsB .. => true | .ldsH .. => true | .ldsW .. => true | .ldsD .. => true
  | .ret _ => true | _ => false

/-- Accesses of a bundle in priority order: requester (R420) and bank. `drains` are the banks of the drain port, `fill` those of the fill's
row where it is read in this cycle. -/
def bankUse (c : Core) (drains fill : List Nat) (l : List Instr) : List (Nat × Nat) :=
  let rd := (l.filter isRead).flatMap (linesOf c)
  let wt := (l.filter fun o => !isRead o).flatMap (linesOf c)
  drains.map (fun b => (0, b)) ++ rd.map (fun x => (1, x / 384)) ++ fill.map (fun b => (1, b)) ++ wt.map fun x => (2, x / 384)

/-- Cycles that bank conflicts hold the line for, and the grants lost (R56, R208, R420). The drain port has no one before it. -/
def bankLoss (c : Core) (l : List (Nat × Nat)) : Nat × Core :=
  let r := l.foldl (fun (acc : List Nat × Nat × Core) (u : Nat × Nat) =>
    let n := if u.1 = 0 then 0 else (acc.1.filter (· == u.2)).length
    (u.2 :: acc.1, max acc.2.1 n, (upTo n).foldl (fun c _ => confAdd c u.1 u.2) acc.2.2)) ([], 0, c)
  (r.2.1, r.2.2)

/-! ## Need points (R360) -/

/-- The first parked access of a core. -/
def parkedG (c : Core) : Option (GOp × Nat × Nat) :=
  c.f.gq.findSome? fun g => match g.st with | .parked f d => some (g, f, d) | _ => none

/-- The accesses of a queue that cannot be performed before a parked one is, each with that one (R111, R360): those parked, and those that
follow one of them. -/
def stuckG (s : State) (cn : Nat) : List (GOp × GOp × Nat × Nat) :=
  (coreAt s cn).f.gq.foldl (fun l g =>
    match g.st with
    | .parked f d => l ++ [(g, g, f, d)]
    | _ => match l.find? fun x => gAfter s cn x.1 g with
      | some x => l ++ [(g, x.2)]
      | none => l) []

/-- Whether an operation is a need point for every parked access: a fence, an acquire, a release, the end of a superstep or of the task. -/
def needAll (i : Instr) : Bool := match i with
  | .fenceCore _ => true | .fenceQuad _ => true | .fenceDie _ => true | .fencePackage _ => true | .fenceFabric _ => true
  | .ldAcqW .. => true | .ldAcqD .. => true | .stRelW .. => true | .stRelD .. => true
  | .ctadd .. => true | .ctraise .. => true | .sstep _ => true | .halt _ => true | _ => false

/-- A parked access whose need point has issued: an acquire or release form behind it in the queue, or a counter add behind it that has not
started (R360). It is trapped between two bundles, or in the hold that a bundle has begun (log 16). -/
def needPending (c : Core) : Option (GOp × Nat × Nat) :=
  c.f.gq.findSome? fun g => match g.st with
    | .parked f d =>
      if c.f.gq.any (fun h => g.seq < h.seq && (h.kind == .loadAcq || h.kind == .storeRel)) ||
          c.f.cmds.any (fun x => (x.op == 0x0D || x.op == 0x0E) && !x.started && g.seq < x.seq) then some (g, f, d) else none
    | _ => none

/-- The parked access whose need point a bundle is, on the core `c` as it issues: at one for every access the first one; else one that keeps
a register it touches, an `amo.sc` it waits for, or the queue full (log 93). -/
def needed (s : State) (cn : Nat) (c : Core) (ops : List SlotOp) : Option (GOp × Nat × Nat) :=
  if (parkedG c).isNone then none
  else if (onOps c ops).any needAll then parkedG c
  else if (needPending c).isSome then needPending c else
  let l := stuckG s cn
  match l.find? fun x => (x.1.kind.writesReg && touchesS c ops x.1.dst) || (x.1.kind == .amoSc && scHeld c (onOps c ops)) with
  | some x => some x.2
  | none => if queueFull c (onOps c ops) && l.length == c.f.gq.length then parkedG c else none

/-- The trap of a parked access at its need point: GACC holds the access (R360, R365). -/
def needTrap (s : State) (cn : Nat) (x : GOp × Nat × Nat) (caddr dx : Nat) (mask : BitVec 12) : State :=
  takeTrap s cn ⟨x.2.1, x.2.2, 6, x.1.va, caddr, dx, mask, 0⟩ false (some x.1)

/-- Of an access that the bundle holding the line waits for (R360). -/
def needHeld (s : State) (cn : Nat) (x : GOp × Nat × Nat) : State :=
  let c := coreAt s cn
  needTrap (modCore s cn undoHold) cn x c.q.lastPc c.q.lastDx (heldMask c [])

/-! ## Holds after issue -/

/-- The core whose ct511 is a gang's barrier, its size, and whether a retired member has made fewer supersteps (R28, R31). -/
def barrierOf (s : State) (cn : Nat) : Nat × Nat × Bool :=
  match (coreAt s cn).bind with
  | none => (cn, 1, false)
  | some b =>
    let n := (coreAt s cn).r.ssn.toNat + 1
    let first := match gangAt s b.gang with | some g => g.cores.headD cn | none => cn
    (first, b.size, (membersOf s cn).any fun m => m != cn && (coreAt s m).q.retired && (coreAt s m).r.ssn.toNat < n)

/-- Sets what a core is held for by its C slot. -/
def setHold (s : State) (cn : Nat) (h : Hold) : State := modCore s cn fun c => { c with q := { c.q with hold := h } }

/-- Whether a core has trapped since it stood as `c`. -/
def trappedSince (c : Core) (s : State) (cn : Nat) : Bool := let k := coreAt s cn; !k.q.running || (k.q.inHandler && !c.q.inHandler)

/-- Whether a core waits by polling (R109): its own counter wait, or that of one of its engines. -/
def pollsNow (c : Core) : Bool :=
  (match c.q.hold with | .counter _ _ _ _ .again .. => false | .counter _ _ _ _ _ _ _ _ _ _ false _ _ => true | _ => false) || c.f.cmds.any fun x => !x.reg && x.ivl != 0

/-- The counter wait of a core in a cycle (R108, R109): translated again if it has been resumed, it looks at its counter, polls, or runs
out of time, whatever else holds the line. -/
def lookCounter (s : State) (cn : Nat) : State :=
  let out := fun (r : Out) => match r with | .next s => s | _ => s
  let waits := fun (s : State) => match (coreAt s cn).q.hold with | .counter .. => true | _ => false
  let s := if waits s then reenterWait s cn else s
  let s := if waits s then out (execCounterWaitSatisfied cn s) else s
  let s := if waits s then out (execMonitorPoll cn s) else s
  if waits s then out (execCounterWaitTimeout cn s) else s

/-- Whether the bundle of an `sstep` or `halt` has otherwise committed (R173, R175). -/
def alone (c : Core) : Bool := c.q.holdG == .none && c.q.holdO == .none

/-- Stage 1 of `sstep`, and `halt`: an access parked is needed now (R360); the combining buffer is flushed (R29). -/
def stageOne (s : State) (cn : Nat) : State :=
  match parkedG (coreAt s cn) with
  | some x => needHeld s cn x
  | none => flushComb s cn fun _ => true

/-- What an `sstep` finds in a cycle (R29, R31, R173): the next stage begins when the one it stands in is over. -/
def lookSstep (s : State) (cn stage : Nat) : State :=
  let c := coreAt s cn
  match stage with
  | 1 =>
    if !alone c then s else
    let s := stageOne s cn
    if trappedSince c s cn then s else if drained1 (coreAt s cn) then setHold s cn (.sstep 2) else s
  | 2 => if c.r.pbc = 0 then setHold s cn (.sstep 3) else s
  | 3 =>
    let (b, _, late) := barrierOf s cn
    let s := if late then modCore s b fun k => ctSet k 511 (ctrPoison (ctGet k 511)) else s
    let s := modCore s b fun k => ctSet k 511 (addOrPoison (ctGet k 511) 1).1
    modCore s cn fun k => { k with q := { k.q with hold := .sstep 4, waitT := s.dev } }
  | _ =>
    let (b, g, _) := barrierOf s cn
    let x := ctGet (coreAt s b) 511
    if x.getLsbD 63 then heldFault (setHold s cn .none) cn 11 0x11 0 0
    else if g * (c.r.ssn.toNat + 1) ≤ x.toNat then
      modCore s cn fun k => { k with q := { k.q with hold := .none }, r := { k.r with ssn := k.r.ssn + 1 } }
    else s

/-- What the C slot's hold finds in a cycle. -/
def lookC (s : State) (cn : Nat) : State :=
  let c := coreAt s cn
  match c.q.hold with
  | .sstep k => lookSstep s cn k
  | .halt => if alone c then stageOne s cn else s
  | .tret => if alone c && !frecBusy c then modCore s cn trapReturn else match needPending c with | some x => needHeld s cn x | none => s
  | .counter .. => match needPending c with | some x => needHeld s cn x | none => s
  | _ => s

/-- What the G slot's hold finds in a cycle: a fence flushes and may be satisfied (R115), a versioned access is tried again, or is stuck
behind a parked one (R121, R122, R360). -/
def lookG (s : State) (cn : Nat) : State :=
  match (coreAt s cn).q.holdG with
  | .fence k => match parkedG (coreAt s cn) with
    | some x => needHeld s cn x
    | none => let s := fenceFlush s cn k; if fenceDone s cn k then freeG s cn else s
  | .ver q _ =>
    match (stuckG s cn).find? fun x => x.1.seq == q with
    | some x => needHeld s cn x.2
    | none =>
      let c := coreAt s cn
      let s := verRetry s cn false (some 0x12)
      if trappedSince c s cn then s else verRetry s cn true (some 0x16)
  | _ => s

/-- What the operand slots' hold finds in a cycle: the fill begins, or the slot is released, once the slot has been read (R216). -/
def lookO (c : Core) : Core :=
  match c.q.holdO with
  | .opslot f r =>
    let (f, c) := match f with
      | some (os, n, x) => if !slotBusy c os && c.f.fill.isNone then (none, startFill c os n x) else (f, c)
      | none => (f, c)
    let (r, c) := match r with
      | some os => if !slotBusy c os then (none, setSlot c os { slotOf c os with st := .free }) else (r, c)
      | none => (r, c)
    { c with q := { c.q with holdO := if f.isNone && r.isNone then .none else .opslot f r } }
  | _ => c

/-- The operand slots that a core is held for. -/
def holdSlots (c : Core) : List Nat := match c.q.holdO with | .opslot f r => (f.map fun x => x.1).toList ++ r.toList | _ => []

/-- Whether lock-stepped work is under way (R29). -/
def domainBusy (c : Core) : Bool := !(c.f.xops.isEmpty && c.f.wb.isEmpty && c.f.rat.isNone && c.f.ratWait.isEmpty && c.f.fill.isNone)

/-- The cause of R33 that counts a cycle of what a core is held for; `halt` counts as a counter wait (log 16). -/
def holdEv (q : Seqr) : Nat :=
  match q.hold with
  | .counter .. => 0x0A
  | .sstep _ => 0x0A
  | .halt => 0x0A
  | _ => if q.holdG != .none then 0x08 else if q.holdO != .none then 0x06 else 0x09

/-- A cycle of a core whose line is held for what its last bundle began (R33): what is held for is looked at; if some of it still holds, the
cycle is a held one. -/
def holdCycle (s : State) (cn : Nat) : State :=
  let c := coreAt s cn
  let s := lookG s cn
  if trappedSince c s cn then s else
  let s := modCore s cn lookO
  let s := lookC s cn
  if trappedSince c s cn then s else
  let c := coreAt s cn
  if c.q.free then s else
  let ev := holdEv c.q
  let drains := (match c.q.hold with | .sstep 1 => true | .halt => true | _ => false) && alone c
  if drains then matrixHeld s cn ev (fun _ => true) true resultsCycle fun _ => true else
  let before := match c.q.holdG with | .fence _ => behind c fun _ => true | .ver q _ => q | _ => 0
  let a := awaited c before (if c.q.hold == .tret then awaits c fun x => x.op == 0x11 else [])
  let l := holdSlots c
  matrixHeld s cn ev (fun x => (x.op == 11 && x.seq < a.fab) || l.any fun os => keepsSlot c os x)
    (a.fill || c.f.fill.isSome && (c.q.holdO != .none || (match c.q.holdG with | .fence _ => true | _ => false))) id fun g => g.seq < a.amo

/-! ## A bundle's end -/

/-- Bubbles of a transfer to an address: three more to a literal (R312). -/
def literalBubble (c : Core) (a n : Nat) : Nat := if c.prog.code[a]? = some 0xFFFF then n + 3 else n

/-- p15 to p8 as a loop operation of a bundle leaves them (R39, R168, R169). -/
def stageForced (v : Option (BitVec 8)) (c : Core) : Core :=
  match v with
  | some v => { c with r := { c.r with p := (c.r.p &&& 0xFF#16) ||| (v.setWidth 16 <<< 8) }, q := { c.q with pfinal := c.q.pfinal.filter (fun kv => kv.1 < 8) } }
  | none => c

/-- The end of a bundle, once nothing that it began holds the line (R110, R163, R167, R173, R300): the loop rule, the push of a call, the
next address and its earliest cycle; then the trap that a `trap` asks for. -/
def finishCommit (s : State) (n : Nat) : State :=
  let c0 := coreAt s n
  match c0.q.carry with
  | none => s
  | some k =>
    let s := modCore s n (stageForced k.stageSet)
    let (s, pass) := if k.noLoop then (s, none) else bodyEnd 9 s n k.pc
    let nx := pass.getD (k.pc + k.words)
    let s := if k.calls.isSome then modCore s n fun c => pushReturn c nx else s
    let c := coreAt s n
    let (pc, bub) := match k.redirect with
      | some (t, b) => (t, literalBubble c t b)
      | none => (nx, if pass.isSome then literalBubble c nx 0 else 0)
    let s := modCore s n fun c => { c with q := { c.q with pc := pc, ready := k.at_ + max (k.stall + 1) (1 + bub), landed := k.ib, skipMask := 0, carry := none } }
    let s := breakPasses s n c0
    match k.trapAfter with
    | some d => let c := coreAt s n; takeTrap s n ⟨0x1A, d, 11, 0, pc, dxAt c pc, 0, 0⟩ false none
    | none => s

/-- Ends the bundle that has issued, once nothing holds the line. -/
def settleCommit (s : State) (n : Nat) : State :=
  let q := (coreAt s n).q
  if q.free && q.carry.any Carry.held then finishCommit s n else s

/-! ## Skipped bundles (R42) -/

/-- The value that a guard has for bundle k's skip: one that lands in this cycle is final (R42, R311). -/
def finalP (c : Core) (g : Nat) : Bool :=
  (c.f.wb.foldl (fun (m : Option Bool) e => match e.dest with | .pred n v => if n = g && e.land ≤ c.q.act then some v else m | _ => m) none).getD (preg c g)

/-- The active cycle in which a guard became final, where something wrote it. -/
def finalAt (c : Core) (g : Nat) : Option Nat :=
  if c.f.wb.any (fun e => match e.dest with | .pred n _ => n == g && e.land ≤ c.q.act | _ => false) then some c.q.act else spFind c.q.pfinal g

/-- Whether every occupied slot of a bundle carries a false guard (R42). -/
def skips (c : Core) (ops : List SlotOp) : Bool := !ops.isEmpty && ops.all fun (_, o) => !finalP c (foot o).guard

/-- Active cycles a skip uses: when the last of its guards became final, against the cycles of the last two bundles. A moment between two
of the table counts as the later one (R42, R311, log 92). -/
def skipCost (c : Core) (ops : List SlotOp) : Nat :=
  match ((ops.filterMap fun (_, o) => finalAt c (foot o).guard).max?), c.q.issues with
  | none, _ => 0
  | some f, a :: b :: _ => if f ≤ b then 0 else if f ≤ a then 1 else 2
  | some f, [a] => if f ≤ a then 1 else 2
  | some _, [] => 0

/-- A skipped bundle (R42): the pass it begins begins, its body end and its iteration boundary count, its stall count does not. A `wheel`
before it is spent (log 94). -/
def skipBundle (s : State) (cn : Nat) (b : BitVec 384) (words : Nat) (ops : List SlotOp) : State × Nat :=
  let s := modCore s cn beginPass
  let c := coreAt s cn
  let cost := skipCost c ops
  let (s, nx) := bodyEnd 9 s cn c.q.pc
  let s := modCore s cn fun k =>
    let k := if words = 1 then countEv k 0x03 1 else countEv (countEv k 0x03 1) 0x04 1
    { k with q := { k.q with pc := nx.getD (c.q.pc + words), landed := bundleIb b,
                             ready := c.q.act + cost + (match nx with | some a => literalBubble c a 0 | none => 0), wheel := none, skipMask := 0,
                             issues := (c.q.act :: c.q.issues).take 2, lastIss := k.q.lastIss.map (· + cost) } }
  (breakPasses s cn c, cost)

/-- Second rows of P and U take their port in the next active cycle (R257). -/
def secondRows (c : Core) (l : List Instr) : List (Nat × Nat × Bool) :=
  l.flatMap fun o =>
    let f := foot o
    (match f.prow with | some (m, r) => if (pkMode (mmReg c m)).lw then [(c.q.act + 1, r / 128, false)] else [] | none => []) ++
    (match f.urow with | some (m, r) => if (pkMode (mmReg c m)).lw then [(c.q.act + 1, r / 128, true)] else [] | none => [])

/-! ## Issue -/

/-- The order in which a bundle's slots run: each reads the core as it stood before, but the stochastic draws go by V0, V1, P, then L and W
(R84). -/
def slotOrder : List Nat := [11, 10, 9, 4, 3, 2, 8, 7, 6, 5, 1, 0]

/-- A bundle's own `mdrain.sp` of delay 0 as it will launch, if it writes a row in its issue cycle. -/
def ownDrain (s : State) (c : Core) (l : List Instr) : Option XOp :=
  l.findSome? fun o => match o with
    | .mdrainSp p 0 m =>
      let x := xSet c [] (xNew c.q.seq 0 10 0 0 m (xWord p 0 10 0 0 m))
      if !(stream x.str).tgt && xCheck s c x == .ok && (xBlockers (c.f.xops.filter XOp.launched) x).isEmpty then some x else none
    | _ => none

/-- The decisions of a core's bank arbiter where lock-stepped requesters reach one line in a cycle with each other or with asynchronous ones
(`asy`) that are ready, and one of them writes (R56, R424): the requesters as a mask, numbered as in R420, and the first of them, which is
granted. -/
def bankMeets (c : Core) (own : List XOp) (asy : List (Nat × Nat)) (l : List Instr) : List (Nat × Nat) :=
  let dr := (rowsDue [] c.f.xops ++ own).flatMap fun x => let (h, o, b, _) := spBytes c x x.done; touched h o b.length
  let ld := (l.filter isRead).flatMap (linesOf c)
  let rd := if !ld.isEmpty then ld else fillUse c
  let wt := (l.filter fun o => !isRead o).flatMap (linesOf c)
  ((dr ++ wt ++ asy.map Prod.snd).eraseDups).filterMap fun n =>
    let own := (if dr.contains n then [0] else []) ++ (if rd.contains n then [1] else []) ++ (if wt.contains n then [2] else [])
    let k := own ++ ((asy.filter fun x => x.2 == n).map Prod.fst).eraseDups
    if k.length < 2 then none else own.head?.map fun r => (maskOf k, r)

/-- Whether the bank arbiter grants what a bundle and the drain port reach: recorded or replayed (R424, R425). While it waits, they have
lost, and hold the line. -/
def bankGate (s : State) (cn : Nat) (c0 : Core) (ops : List SlotOp) : Bool × State :=
  if rplMode s = 0 then (true, s) else
  let c := { coreAt s cn with r := { (coreAt s cn).r with st := c0.r.st } }
  let l := onOps c (ops.filter fun (i, _) => !c.q.skipMask.getLsbD i)
  let r := (bankMeets c (ownDrain s c l).toList (asyncLines s cn) l).foldl (fun (acc : Bool × State) (m, k) => if acc.1 then rplGate acc.2 (asidOf c) cn m k else acc) (true, s)
  if r.1 then r else (false, { s with rpl := { s.rpl with waiting := r.2.rpl.waiting } })

/-- The drain port writes a row of a drain into a handle (R56, R241). -/
def writeRow (c : Core) (x : XOp) : Core := let (h, o, b, loss) := spBytes c x x.done; addCvt (spadWrite c h o b) loss

/-- Begins the issue of a bundle: its slots, without those already completed (R447, R287), are put up for execution. `c0` is the core before
this cycle's launches: a stream that one of them moves is read as it stood, and an advance of it is discarded (R64, R241). The drain port
writes its rows of the cycle first (R56). -/
def beginIssue (s : State) (cn : Nat) (c0 : Core) (b : BitVec 384) (dx words : Nat) (ops : List SlotOp) : State :=
  let now := beginPass (coreAt s cn)
  let c := { now with r := { now.r with st := c0.r.st } }
  let moved := (upTo 16).filter fun n => stReg now n != stReg c n
  let again := match c.q.carry with | some k => if k.pc = c.q.pc && c.q.skipMask != 0 then some k else none | none => none
  let gone := match again with | some k => k.xgone | none => false
  let todo := slotOrder.filterMap fun i => if c.q.skipMask.getLsbD i || (i == 5 && gone) then none else ops.find? fun o => o.1 == i
  let l := onOps c todo
  let own := (ownDrain s c l).toList
  let rows := rowsDue [] c.f.xops ++ own
  let drains := drainBanks (fun _ => true) c ++ own.flatMap fun x => rowBanks c x 0
  let lacc := !((l.filter isRead).flatMap (linesOf c)).isEmpty
  let fills := !lacc && fillGets c drains
  let (hold, now) := bankLoss (rows.foldl writeRow now) (bankUse c drains (if fills then fillBanks c else []) l)
  let now := noteLines ((drainLines (fun _ => true) c ++ own.flatMap fun x => rowLines c x 0).map (fun n => (0, n)) ++
    ((l.filter isRead).flatMap (linesOf c) ++ if fills then fillUse c else []).map (fun n => (1, n)) ++
    ((l.filter fun o => !isRead o).flatMap (linesOf c)).map fun n => (2, n)) (if !lacc && !fills then fillLoss drains now else now)
  let before := { c with m := { c.m with spad := now.m.spad, spadEp := now.m.spadEp } }
  let x := l.findSome? fun o => match xOpOf o with | some (op, _, _, os) => if readsSlot op then some os else none | none => none
  let ca := if c.q.skipMask.getLsbD 11 then again else none
  let now := countEv (if dx = 0xFFFF then countEv now 0x04 1 else now) 0x02 1
  let q := { now.q with bankHold := hold, landed := false, carry := none, wheel := none, xwait := none, lastIss := some c.q.act,
                        issues := (c.q.act :: c.q.issues).take 2 }
  let s := modCore s cn fun _ => { now with q := q }
  let s := breakAt s cn 0 c.q.pc
  { s with issue := some { core := cn, before := before, todo := todo, slot := 11, faults := [], mask := c.q.skipMask,
                           redirect := (ca.map Carry.redirect).getD none, calls := (ca.map Carry.calls).getD none,
                           noLoop := (ca.map Carry.noLoop).getD false, rng := c.r.rngs, rngWr := false,
                           stWr := moved ++ l.flatMap fun o => (foot o).stw, lbusy := !fills, rows := secondRows c l, drained := rows.map XOp.seq,
                           xslot := x, stageSet := (ca.map Carry.stageSet).getD none,
                           trapAfter := (ca.map Carry.trapAfter).getD none, pc := c.q.pc, dx := dx, words := words, ib := bundleIb b,
                           stall := bundleStall b } }

/-- What becomes of the next bundle in this cycle. -/
inductive Fetched where
  /-- The cycle is over: a hold, a trap, a stop. -/
  | ends (s : State)
  /-- The line is low and nothing issues. -/
  | wait (s : State)
  /-- The bundle issues. -/
  | go (s : State) (b : BitVec 384) (dx words : Nat) (ops : List SlotOp)

/-- A held cycle of a bundle that waits for results (R33): of the rational operations, of operations of the G queue, of engine commands. -/
def resultHeld (s : State) (cn ev : Nat) (rat : Bool) (gs : GOp → Bool) (xs : Cmd → Bool) : State :=
  let c := coreAt s cn
  orderHeld s cn ev (if rat then ratCycle else id) (behind c gs) (awaits c xs)

/-- Whether a pending rational operation writes a register of a kind: `p` asks for a predicate, `d` for a scalar register. -/
def ratTouches (c : Core) (p d : Nat → Bool) : Bool :=
  (c.f.rat.toList ++ c.f.ratWait).any fun r => if r.op = 0x37 then p (2 * r.d) || p (2 * r.d + 1) else d r.d

/-- The commands of the engines that are full for a bundle, where none of them can start before the domain gets on (R33). -/
def engineStuck (c : Core) (l : List Instr) (x : Cmd) : Bool :=
  let mine := fun (y : Cmd) => !y.started && l.any fun o => match aOp o with | some (_, op, r) => engFull c op (sreg c r) && engOf op (sreg c r) == engOf y.op y.x | none => false
  mine x && (c.f.cmds.filter mine).all fun y => (awaited c 0 (awaits c fun z => z.id == y.id)).any c

/-- Scalar units that a bundle waits for (R307): by slot; a nop needs none (R140). -/
def unitsHeld (c : Core) (ops : List SlotOp) : List Nat :=
  [4, 3, 2, 1].filter fun i => c.q.act < spGet 0 c.f.busy i && ops.any fun (j, o) => j == i && opOn c o &&
    (match o with | .vNop _ => false | .pNop _ => false | .uNop _ => false | _ => true)

/-- The holds and traps before a bundle issues, in order (R33, R182, R231, R360). `c` is the core as the bundle finds it; `ops` are the
slots it has still to run. -/
def preIssue (s : State) (cn : Nat) (c : Core) (b : BitVec 384) (dx words : Nat) (ops : List SlotOp) : Fetched :=
  let todo := ops.filter fun (i, _) => !c.q.skipMask.getLsbD i
  let l := onOps c todo
  let sysScr := l.any fun o => match o with | .sysrd _ _ r => r == 0 | _ => false
  let units := unitsHeld c todo
  let floats := todo.any fun (_, o) => (foot o).fp
  let fpBusy := floats && c.q.act < c.f.fpBusy
  let ratBusy := c.f.ratHead.isSome && (floats || sysScr)
  let slots := slotWaits c l
  let taken := c.f.xops.flatMap portsOf
  match needed s cn c todo with
  | some x => .ends (needTrap s cn x c.q.pc dx c.q.skipMask)
  | none =>
    if wantsPort l taken then .ends (matrixHeld s cn 0x05 (fun x => wantsPort l (portsOf x)) false id fun _ => false)
    else if rowHeld c l then .ends (stillCycle (modCore s cn fun c => { c with f := { c.f with ports := c.f.ports.filter fun (k, _, _) => k != c.q.act } }) cn 0x05)
    else if !slots.1.isEmpty || slots.2 then .ends (matrixHeld s cn 0x06 (fun x => slots.1.any fun os => keepsSlot c os x) slots.2 id fun _ => false)
    else if interlocked c todo then
      .ends (resultHeld s cn 0x08 (ratTouches c (touchesP c todo) (touchesS c todo)) (fun g => g.kind.writesReg && touchesS c todo g.dst)
        fun x => x.op == 0x0F && touchesP c todo x.pd)
    else if fpBusy || ratBusy || !units.isEmpty then
      .ends (heldCycle s cn 0x08 (fun k => unitsCycle units (if ratBusy then ratCycle k else if fpBusy then fpCycle k else k)) fun _ => false)
    else if scHeld c l then .ends (resultHeld s cn 0x08 false (fun g => g.kind == .amoSc) fun _ => false)
    else if tokenHeld c l then .ends (resultHeld s cn 0x09 false (fun _ => false) fun x => (tokensOf l).contains x.tok)
    else if freeHeld c l then .ends (resultHeld s cn 0x0B false (fun _ => false) fun x => x.op == 0x0B)
    else if engineHeld c l then .ends (resultHeld s cn 0x0B false (fun _ => false) (engineStuck c l))
    else if queueFull c l then .ends (resultHeld s cn 0x0B false (fun _ => true) fun _ => false)
    else match undersized c todo with
      | some i => .ends (takeTrap s cn ⟨0x04, 0, i, 0, c.q.pc, dx, c.q.skipMask, 0⟩ false none)
      | none =>
        let isX := l.any fun o => (xOpOf o).isSome
        let old := match c.q.xwait with
          | some n => if c.f.xops.any (fun x => x.seq == n) then some n else none
          | none => if isX && 8 ≤ c.f.xops.length then (c.f.xops.map XOp.seq).min? else none
        match old with
        | some n => .wait (modCore s cn fun c => countEv { c with q := { c.q with xwait := some n } } 0x08 1)
        | none => .go s b dx words ops

/-- A yielded slice at a landing point (R174): a pre-emption request where a gang of its partition waits for cores; else it lapses. -/
def yieldLook (s : State) (cn : Nat) : State :=
  let c := coreAt s cn
  if !c.q.yielded then s else
  let s := match c.bind with
    | some b => match gangAt s b.gang with
      | some g => if schedWaits s b.part (qPrio s g.queue) then askGive s b.gang 1 else s
      | none => s
    | none => s
  if (coreAt s cn).q.stopReq = 0 then modCore s cn fun c => { c with q := { c.q with yielded := false } } else s

/-- Whether a landing point's stop is asked for: by a request, or by a parting of the replay (R44, R425). -/
def stopsHere (c : Core) : Bool := c.q.stopReq != 0 || c.q.rhalt

noncomputable section

/-- The next bundle, when its cycle has come: deferred traps, landing points, then fetch, with its faults, `wheel` and skips; a skip that
costs nothing goes straight on (R42, R44, R141 to R146, R174, R177, R265, R300, R316). -/
def nextBundle : Nat → State → Nat → Fetched
  | 0, s, _ => .wait s
  | k + 1, s, cn =>
    let c := coreAt s cn
    match c.f.deferred with
    | (f, t) :: l =>
      .ends (takeTrap (modCore s cn fun c => { c with f := { c.f with deferred := l } }) cn ⟨f, t, 0, 0, c.q.pc, dxAt c c.q.pc, c.q.skipMask, 1⟩ false none)
    | [] =>
      let s := if c.q.landed then yieldLook s cn else s
      let c := beginPass (coreAt s cn)
      if c.q.landed && stopsHere c then .ends (landingStop s cn)
      else if c.q.act < c.q.ready then .wait s
      else match bundleAt c c.q.pc with
      | none => .ends (takeTrap s cn ⟨0x02, 0, 0xFF, 0, c.q.pc, 0xFFFF, 0, 0⟩ true none)
      | some (b, dx, words) =>
        match checkBundle c b with
        | .inl (f, i) => .ends (takeTrap s cn ⟨f, 0, i, 0, c.q.pc, dx, 0, 0⟩ true none)
        | .inr ops =>
          let guards := ops.map fun (_, o) => (foot o).guard
          let pend := fun (g : Nat) => g != 0 && (pendingP c).contains g
          let skip := c.q.skipMask = 0 && skips c ops
          if !skip && dx = 0xFFFF && c.q.lastIss.any (fun a => c.q.act < a + 3) then .wait s
          else if c.q.wheel.any (fun n => (cn + 256 - n) % 256 != s.now % 256) then .ends (stillCycle s cn 0x08)
          else if guards.any pend then
            .ends (resultHeld s cn 0x08 (ratTouches c guards.contains fun _ => false) (fun _ => false) fun x => x.op == 0x0F && guards.contains x.pd)
          else match (if skip then undersized c (ops.filter fun (_, o) => c.f.wb.any fun e => match e.dest with
              | .pred n _ => n == (foot o).guard && n != 0
              | _ => false) else none) with
          | some i => .ends (takeTrap s cn ⟨0x04, 0, i, 0, c.q.pc, dx, 0, 0⟩ false none)
          | none =>
            if skip then
              let (s, cost) := skipBundle s cn b words ops
              if cost = 0 then nextBundle k s cn else .wait s
            else preIssue s cn c b dx words ops

/-- A cycle whose line is low so far: the next bundle, if its cycle has come, and launches. -/
def issueCycle (s : State) (cn : Nat) : State :=
  let launch := fun (s : State) (f : State → State) => match launchDue (fun _ => true) 9 s cn with
    | (.ok, s) => f s
    | (.hold, s) => launchHeld s cn
    | (.fault _, s) => s
  match nextBundle (2 ^ 64) s cn with
  | .ends s => s
  | .wait s => launch s fun s => idleActive s cn
  | .go s b dx words ops => launch s fun t => match bankGate t cn (coreAt s cn) ops with
    | (true, t) => beginIssue t cn (coreAt s cn) b dx words ops
    | (false, t) => stillCycle t cn 0x05

/-- One cycle of a core that runs a task. -/
def runCycle (s : State) (cn : Nat) : State :=
  let c := coreAt s cn
  let s := if pollsNow c then modCore s cn fun c => countEv c 0x0E 1 else s
  let s := lookCounter s cn
  if trappedSince c s cn then s else
  let s := settleCommit s cn
  if trappedSince c s cn then s else
  -- a barrier that has come true is left, whatever stop is asked for
  let s := if (coreAt s cn).q.hold == .sstep 4 && stopsHere (coreAt s cn) then settleCommit (lookSstep s cn 4) cn else s
  if trappedSince c s cn then s else
  let s := if waitsAtLanding (coreAt s cn) then yieldLook s cn else s
  let c := coreAt s cn
  if stopsHere c && waitsAtLanding c then landingStop s cn
  else if c.q.bankHold > 0 then stillCycle (modCore s cn fun c => noteLines c.lines { c with q := { c.q with bankHold := c.q.bankHold - 1 } }) cn 0x05
  else if anyWaits c [] c.f.xops then backPressure s cn
  else
    let s := if c.q.free then s else holdCycle s cn
    if trappedSince c s cn || !(coreAt s cn).q.free then s else
    let s := settleCommit s cn
    if trappedSince c s cn then s else issueCycle s cn

end

/-! ## Commit -/

/-- A bundle's X operation of delay 0 launches in its issue cycle, on the state before the bundle, and takes part in R447 as slot 5. -/
def launchNow (s : State) (b : Issue) : State × List SlotFault :=
  let c := coreAt s b.core
  match c.f.xops.find? fun x => !x.launched && x.delay == 0 && x.seq == b.before.q.seq with
  | none => (s, [])
  | some x => match xCheck s b.before x with
    | .ok => (modCore s b.core (xLaunch b.before (xWords s b.before x) b.stWr x), [])
    | .hold => (s, [])
    | .fault f => (modCore s b.core fun c => { c with f := { c.f with xops := c.f.xops.filter fun y => y.seq != x.seq } }, [⟨5, f, 0, 0⟩])

/-- The bits of faulting slots. -/
def faultBits (l : List Nat) : BitVec 12 := l.foldl (fun m i => m ||| (1#12 <<< i)) 0

/-- The fault a record reports: of the highest slot index (R447). -/
def topFault (l : List SlotFault) : Option SlotFault :=
  l.foldl (fun (m : Option SlotFault) f => match m with | some g => if g.slot < f.slot then some f else m | none => some f) none

/-- The active part of the issue cycle: matrix operations and the fill, landings. -/
def issueActive (s : State) (b : Issue) : State :=
  let s := wheelTurn (wheelArrive s b.core) b.core
  modCore s b.core fun c =>
    endActive (xCycle (some b.before.q.seq) b.drained (!b.lbusy) b.before.f.fill.isSome
      { c with q := { c.q with seq := c.q.seq + 1 }, f := { c.f with ports := c.f.ports ++ b.rows } })

/-- What the C slot of a bundle has chosen, for the bundle's end or for its reissue. -/
def Issue.carry (b : Issue) (act : Nat) (xgone held : Bool) : Carry :=
  { pc := b.pc, redirect := b.redirect, calls := b.calls, noLoop := b.noLoop, stageSet := b.stageSet, trapAfter := b.trapAfter, xgone := xgone,
    words := b.words, ib := b.ib, stall := b.stall, at_ := act, seq := b.before.q.seq, held := held }

/-- A predicate that a loop operation overrides. -/
def WbDest.isStage : WbDest → Bool
  | .pred n _ => 8 ≤ n
  | _ => false

/-- Results of a bundle on their way to p8 to p15 are overridden by its loop operation (R169). -/
def voidStages (b : Issue) (c : Core) : Core :=
  if b.stageSet.isNone then c else
  { c with f := { c.f with wb := c.f.wb.filter fun e => !(e.seq == b.before.q.seq && e.dest.isStage),
                           rat := if b.before.f.rat.isNone then c.f.rat.map fun r => { r with void := r.void || (r.op == 0x37 && 4 ≤ r.d) } else c.f.rat } }

/-- A bundle some of whose slots have faulted (R447): the rest has committed, and the highest slot's fault is trapped. -/
def commitFault (s : State) (b : Issue) (faults : List SlotFault) (f : SlotFault) : State :=
  let c := coreAt s b.core
  let xgone := c.f.xops.any fun x => !x.launched && x.seq == b.before.q.seq
  let mask := ~~~(faultBits (faults.map SlotFault.slot ++ heldSlots c.q ++ (if xgone then [5] else [])))
  let s := modCore s b.core fun c =>
    let c := undoHold (voidStages b c)
    { c with q := { c.q with carry := some (b.carry c.q.act xgone false), lastPc := b.pc, lastDx := b.dx, lastMask := mask, skipMask := mask, ready := c.q.act + 1 } }
  takeTrap (issueActive s b) b.core ⟨f.cause, f.detail, f.slot, f.addr, b.pc, b.dx, mask, 0⟩ false none

/-- A bundle none of whose slots has faulted: its issue cycle ends, and the bundle with it unless something it began holds the line. -/
def commitOk (s : State) (b : Issue) : State :=
  let n := b.core
  let s := modCore s n fun c => voidStages b (stageForced b.stageSet c)
  let s := modCore (breakPasses s n b.before) n fun c =>
    { c with q := { c.q with carry := some (b.carry c.q.act false true), lastPc := b.pc, lastDx := b.dx, lastMask := 0xFFF } }
  settleCommit (issueActive s b) n

/-- The commit of the bundle being issued, once its slots have run (R447). -/
def commitBundle (s : State) : State :=
  match s.issue with
  | none => s
  | some b =>
    let (s, xf) := launchNow { s with issue := none } b
    let faults := b.faults ++ xf
    match topFault faults with
    | some f => commitFault s b faults f
    | none => commitOk s b

/-! ## Events -/

/-- DEFERRED_TRAP: core `c`, between bundles, takes a trap that a report has deferred (R265). -/
def execDeferredTrap (c : Nat) (s : State) : Ans :=
  let k := coreAt s c
  match k.f.deferred with
  | (f, t) :: l =>
    if !k.q.running || !k.q.between || s.issue.isSome then .next s
    else .next (takeTrap (modCore s c fun c => { c with f := { c.f with deferred := l } }) c ⟨f, t, 0, 0, k.q.pc, dxAt k k.q.pc, k.q.skipMask, 1⟩ false none)
  | [] => .next s

/-- The address space that a core's ballast is charged to (R429, R297): of the task that runs on it, else of the request that waits for it,
else of the gang its slots were last taken for. -/
def ballastOf (s : State) (n : Nat) : Option Nat :=
  match (coreAt s n).bind, s.drl.reqs.find? fun r => r.cores.contains n with
  | some b, _ => some b.asid
  | none, some r => some r.asid
  | none, none => spFind s.drl.owner n

/-- The Derailleur's counts of a cycle, as it has come out (R429, R431, R433). -/
def countPower (s : State) (n : Nat) : State :=
  let c := coreAt s n
  let s := match s.drl.reqs.find? fun r => r.cores.contains n with | some r => modCore s n fun c => countFor c r.asid 0x11 | none => s
  let s := if inBallast s n then (match ballastOf s n with | some a => modCore s n fun c => countFor c a 0x12 | none => s) else s
  match c.bind with | some b => if b.filler && c.q.running then modCore s n fun c => countFor c b.asid 0x13 else s | none => s

/-- BUNDLE_FETCH: core `c` has its cycle of the package clock, once a cycle; a member whose saved state is still being brought back waits
(R348). -/
noncomputable def execBundleFetch (c : Nat) (s : State) : Ans :=
  if 192 ≤ c || s.issue.isSome || s.now < (coreAt s c).q.last then .next s else
  let s := modCore s c fun k => let k := ratBegin (fillFinish (xRetire k)); { k with lines := if k.q.bankHold > 0 then k.lines else [], q := { k.q with last := s.now + 1, heldBy := 0 } }
  -- cycles run free after a parting (R425)
  let s := if rplMode s == 2 && s.rpl.parted && bit (rplCtl s) 61 then modCore s c fun k => countFor k (rplAsid s) 0x14 else s
  let k := coreAt s c
  .next (countPower (if k.q.running && !k.halted && k.q.wake ≤ s.dev then runCycle s c else s) c)

end Sys2Proof.Machine
end

