-- ==== Sys2Proof/Machine/Tables.lean ====
section
/-! DEFINITION. Machine/Tables: the commands of the translation unit (spec/20, R352, R359, R361, R364; spec/06, R119): invalidations,
windows, regions, parked accesses. -/

namespace Sys2Proof.Machine

def xlatSts : Nat := 0x00020020

/-! ## Invalidation (R359) -/

/-- Takes cached translations out of every core and die. -/
def dropCached (s : State) (sel : XEnt → Bool) : State :=
  { s with dieTlb := s.dieTlb.map fun (d, l) => (d, l.filter fun e => !sel e),
           cores := s.cores.map fun (n, c) => (n, { c with tlbR := c.tlbR.filter (fun e => !sel e), tlbP := c.tlbP.filter (fun e => !sel e) }) }

/-- Tags of requests on their way for tasks of an address space. -/
def tagsOf (s : State) (asid : Nat) : List Nat :=
  (s.hub.pend.filter fun (_, p) => p.what ≤ 5 && asidOf (coreAt s p.core) == asid && (coreAt s p.core).bind.isSome).map Prod.fst

/-- Whether the request of a tag has been performed: answered; or, a write, which a target may drop without an answer, no longer among
this package's arrivals and as old as a packet and its answer can grow (R371, log 29). -/
def tagSettled (s : State) (t0 t : Nat) : Bool :=
  match spFind s.hub.pend t with
  | none => true
  | some p => (p.what == 1 || p.what == 3) && !(s.hub.rx.any fun k => k.tag == t && !k.rsp && k.spkg == pkgNo s) &&
      !(s.hub.ports.any fun (_, q) => q.wait.any fun (_, _, k) => k.carries t) &&
      s.dev ≥ t0 + nsDev (2000 * (barRd s 0x00030008).toNat)

/-- An invalidation: entries leave the caches at once; buffered stores of the address space leave their cores, and the command ends
when every access begun before it has been performed. -/
def invalidate (s : State) (asid : Nat) (sel : XEnt → Bool) : List Nat × State :=
  let s := dropCached s sel
  let s := (s.cores.filter fun (_, c) => asidOf c == asid && c.bind.isSome && !c.f.comb.isEmpty).foldl (fun s (n, _) => flushComb s n fun _ => true) s
  (tagsOf s asid, s)

/-- The `mdrain.fab` operations of an address space that hold a window's words and have rows to send (R243). -/
def drainsOf (s : State) (asid : Nat) : List (Nat × Nat) :=
  (s.cores.filter fun (_, c) => asidOf c == asid && c.bind.isSome).flatMap fun (n, c) =>
    ((c.f.xops.filter fun x => x.op == 11).map fun x => (n, x.seq)) ++ (c.f.drainq.map fun r => (n, r.op))

/-- Whether the rows of one of them are all on their way and settled. -/
def drainSettled (s : State) (t0 : Nat) (d : Nat × Nat) : Bool :=
  let c := coreAt s d.1
  !(c.f.xops.any fun x => x.op == 11 && x.seq == d.2) && c.f.drainq.all fun r => r.op != d.2 || (r.sent && tagSettled s t0 r.tag)

/-- Tags of requests that this package has sent on after checking them by a key (R383). -/
def tagsPast (s : State) (k : Nat) : List Nat :=
  (s.hub.pend.filter fun (_, p) => p.what == 6 && (match p.orig with | some o => o.key / 4096 == k | none => false)).map Prod.fst

/-! ## Windows (R361) -/

/-- Takes out of the caches what they hold of a window, and whatever other entry covers an address of its range (R354, R361, log 111). -/
def dropWindow (s : State) (asid n : Nat) : State :=
  let w := winWords s asid n
  dropCached s fun e => e.asid == asid && ((e.cls == 1 && e.n == n) || (e.lo < winBase w + winSize w && winBase w < e.hi))

/-- GEN of a handle of another package, with 16 added where it is valid, as the firmwares have told each other: where they have not, any
value (R361, log 30). -/
def farHandle (s : State) (w : List Nat) : Nat × State :=
  match spFind s.hub.far (winPkg w * 2 ^ 16 + winCore w * 2 ^ 8 + winHnd w) with
  | some v => (v, s)
  | none => let (f, s) := drawFresh s; ((Config.freeBits 5 (f + 1) 1200).toNat, s)

/-- WIN_MAKE: HGEN is the target handle's GEN, and the window is dead to arrivals where the handle is invalid. MADE is set and every other byte
stays. From now on the window answers for its range: what the caches hold of it goes. -/
def winMake (s : State) (asid n : Nat) : Nat × State :=
  if n ≥ 4096 then (1, s) else
  let a := bits (memNat s (atabEntry s asid + 24) 8) 38 17 * 2 ^ 17 + 32 * n
  let w := winWords s asid n
  let (s, hgen, dead) :=
    if winTgt w != 1 then (s, none, false)
    else if winPkg w = pkgNo s then let e := handle (coreAt s (winCore w)) (winHnd w); (s, some e.gen, !e.valid)
    else let (v, s) := farHandle s w; (s, some (v % 16), v < 16)
  let s := modHub s fun h => { h with dead := if dead then (asid, n) :: h.dead.erase (asid, n) else h.dead.erase (asid, n) }
  let s := match hgen with
    | some g => let x := w.getD 2 0; memSetNat s (a + 16) 8 (x - bits x 33 30 * 2 ^ 30 + g * 2 ^ 30)
    | none => s
  let x := w.getD 0 0
  (0, dropWindow (memSetNat s a 8 (if bit x 56 then x else x + 2 ^ 56)) asid n)

/-! ## Regions (R119, R352) -/

/-- Whether an address translates to a counter in an address space. -/
def isCounter (s : State) (asid va : Nat) : Bool := va % 8 == 0 && (ctrOfVa s 0 asid va).isSome

/-- Versions of a region's lines are forgotten: each line holds the bytes that stand in HBM, as version 0 (R120). -/
def forgetVers (s : State) (n : Nat) : State :=
  let ls := (s.vreg.filter fun (_, r) => r == n).map Prod.fst
  { s with vers := s.vers.filter (fun (l, _) => !ls.contains l), vreg := s.vreg.filter fun (_, r) => r != n }

def regionSet (s : State) (n : Nat) : Nat × State :=
  let w := regionWord s n
  if n ≥ 1024 then (1, s)
  else if bit w 255 then (2, s)
  else if isCounter s (bits w 254 241) (bits w 199 144) && isCounter s (bits w 254 241) (bits w 143 88) then
    (0, memSetNat (forgetVers s n) (regionAt s n) 32 (w + 2 ^ 255))
  else (1, s)

def regionClear (s : State) (n : Nat) : Nat × State :=
  if n ≥ 1024 then (1, s) else
  let w := regionWord s n
  (0, memSetNat (forgetVers s n) (regionAt s n) 32 (w % 2 ^ 255))

/-! ## Parked accesses (R360, R364) -/

/-- Flits parked by port, of the 256 it may hold (R364). -/
def parkedFlits (s : State) (port : Nat) : Nat := ((s.hub.parked.filter fun k => k.pkt.port == port).map fun k => flitCount k.pkt).sum

/-- Credits of the parking channel go back once the port has room (R364, R376). -/
def giveCredits (s : State) : State :=
  (s.hub.trunks.filter fun (n, t) => !t.kept.isEmpty && parkedFlits s n < 256).foldl (fun s (n, _) =>
    modTrunk s n fun t => { t with owe := t.owe ++ t.kept, kept := [] }.pump) s

/-- Counts flits of a packet in a trunk's PARKED (5) or PARK_DROP (6); a packet of this package came by no trunk. -/
def parkCount (s : State) (k : Nat) (p : Packet) : State := if p.port < 144 then hubCount s (8 * p.port + k) (flitCount p) else s

/-- Where a parked write would be placed: the address space and virtual address its key gives. -/
def parkedVa (s : State) (p : Packet) : Option (Nat × Nat) := if p.op = 1 then keyCheck s p.key 0 rW p.addr p.data.length else none

/-- The lanes whose first parked packet waits for the page. -/
def heldLanes (s : State) (asid lo hi : Nat) : List (Nat × Nat) :=
  let lanes := s.hub.parked.foldl (fun l k => if l.contains (k.pkt.spkg, k.pkt.lane) then l else l ++ [(k.pkt.spkg, k.pkt.lane)]) []
  lanes.filter fun (p, l) => match s.hub.parked.find? fun k => k.pkt.spkg == p && k.pkt.lane == l with
    | some k => k.asid == asid && lo ≤ k.va && k.va < hi
    | none => false

/-- Packets of released lanes go back, in the order they came, before what has arrived since. -/
def unpark (s : State) (ls : List (Nat × Nat)) : State :=
  let out := s.hub.parked.filter fun k => ls.contains (k.pkt.spkg, k.pkt.lane)
  giveCredits <| modHub s fun h => { h with parked := h.parked.filter (fun k => !ls.contains (k.pkt.spkg, k.pkt.lane)), rx := out.map Parked.pkt ++ h.rx }

/-- Accesses of cores and engines parked at the page go on (R263, R360). -/
def retryParked (s : State) (asid lo hi : Nat) : State :=
  { s with cores := s.cores.map fun (n, c) =>
      (n, { c with f := { c.f with
        gq := c.f.gq.map (fun g => if asidOf c == asid && g.lo < hi && lo < g.hi && g.st == .parked 0x0B 0x03 then { g with st := .ready } else g),
        cmds := c.f.cmds.map (fun x => match x.parked with
          | some (a, va) => if a = asid && lo ≤ va && va < hi then { x with parked := none } else x
          | none => x) } }) }

def parkResume (s : State) (asid va : Nat) : State :=
  let (lo, hi) := pageOf s asid va
  unpark (retryParked s asid lo hi) (heldLanes s asid lo hi)

/-- Whether a write has bytes in a page. -/
def inPage (s : State) (asid lo hi : Nat) (p : Packet) : Bool :=
  match parkedVa s p with | some (a, va) => a == asid && va < hi && lo < va + p.data.length | none => false

/-- Drops the page's writes among packets of a lane, each with the landing add directly after it (R106, R364); `gone` says that the
packet before was dropped. -/
def dropPage (asid lo hi : Nat) : Bool → List Packet → State → State × List Packet
  | _, [], s => (s, [])
  | gone, p :: l, s =>
    let here := inPage s asid lo hi p
    let add : Bool := gone && p.op == 4 && bits p.aux 4 0 == 5
    if here || add then dropPage asid lo hi here l (parkCount (if here && l.isEmpty then modHub s fun h => { h with skip := spSet h.skip (16 * p.spkg + p.lane) 1 } else s) 6 p)
    else let (s, r) := dropPage asid lo hi false l s; (s, p :: r)

def parkDrop (s : State) (asid va : Nat) : State :=
  let (lo, hi) := pageOf s asid va
  giveCredits <| (heldLanes s asid lo hi).foldl (fun s (p, l) =>
    let mine := s.hub.parked.filter fun k => k.pkt.spkg == p && k.pkt.lane == l
    let s := modHub s fun h => { h with parked := h.parked.filter fun k => !(k.pkt.spkg == p && k.pkt.lane == l) }
    let (s, r) := dropPage asid lo hi false (mine.map Parked.pkt) s
    modHub s fun h => { h with rx := r ++ h.rx }) s

/-! ## Commands -/

/-- What a command does (R352): RESULT, the tags it waits for, the new state. No key check in the model outlives its packet: INV_KEY waits for
the requests that were checked by the key and sent on (R359). -/
def xlatOp (s : State) (op a n va : Nat) : Nat × List Nat × State :=
  if op = 1 then let (l, s) := invalidate s a fun e => e.asid == a; (0, l, s)
  else if op = 2 then let (l, s) := invalidate s a fun e => e.asid == a && e.cls == 2 && va / e.w.getD 1 1 == e.n; (0, l, s)
  else if op = 3 then (if n ≥ 4096 then (1, [], s) else let (l, s) := invalidate (dropWindow s a n) a fun _ => false; (0, l, s))
  else if op = 4 then (if n ≥ 2 ^ 20 then (1, [], s) else (0, tagsPast s n, s))
  else if op = 5 then let (r, s) := winMake s a n; (r, [], s)
  else if op = 6 then let (r, s) := regionSet s n; (r, [], s)
  else if op = 7 then let (r, s) := regionClear s n; (r, [], s)
  else if op = 8 then (0, [], parkResume s a va)
  else if op = 9 then (0, [], parkDrop s a va)
  else (1, [], s)

/-- Carries a command out (R332, R352): one at a time; a write while BUSY is dropped and sets LOST. Its completion tells the code the
command has in its register (R404). -/
def xlatCmd (s : State) (sts op a n va : Nat) : State :=
  let asid := if op = 6 || op = 7 then bits (regionWord s n) 254 241 else if op = 4 then bits (memNat s ((barRd s 0x00020008).toNat + 32 * n) 8) 44 31 else a
  if s.sec.recovery then s
  else if (barRd s sts).getLsbD 63 then barWr s sts (barRd s sts ||| (1#64 <<< 62))
  -- a command of the PF that names a locked ASID moves its TDI to ERROR, and is refused (R403, log 33)
  else if sts = xlatSts && s.sec.locked.contains asid && !(1 ≤ op && op ≤ 4) then cmdDone (tdiError s (ownerOf s asid)) sts asid op n 2
  else if sts = xlatSts && s.sec.locked.contains a && !(1 ≤ op && op ≤ 4) then cmdDone (tdiError s (ownerOf s a)) sts a op n 2 else
  let d := if 1 ≤ op && op ≤ 3 then drainsOf s a else []
  let (r, l, s) := xlatOp s op a n va
  let told := if sts = xlatSts then op else op + 0x10
  if r != 0 || (l.isEmpty && d.isEmpty) then cmdDone s sts asid told n r
  else { barWr s sts (barRd s sts ||| (1#64 <<< 63)) with invs := s.invs ++ [⟨sts, asid, told, n, s.dev, l, d⟩] }

/-- Invalidations whose accesses have all been performed complete (R359). -/
def invSettle (s : State) : State :=
  s.invs.foldl (fun s w =>
    if w.tags.all (tagSettled s w.t0) && w.drains.all (drainSettled s w.t0) then
      cmdDone (barWr { s with invs := s.invs.filter fun x => x.sts != w.sts } w.sts (barRd s w.sts &&& ~~~(1#64 <<< 63))) w.sts w.asid w.op w.n 0
    else s) s

/-- XLAT_ARG. -/
def xlatArg (s : State) : Nat := (barRd s 0x00020028).toNat

/-- INV_ASID. -/
def execInvAsid (a : Nat) (s : State) : Ans := .next (xlatCmd s xlatSts 1 a 0 0)
/-- INV_PAGE. -/
def execInvPage (a : Nat) (s : State) : Ans := .next (xlatCmd s xlatSts 2 a 0 (xlatArg s))
/-- INV_WINDOW. -/
def execInvWindow (a n : Nat) (s : State) : Ans := .next (xlatCmd s xlatSts 3 a n 0)
/-- INV_KEY. -/
def execInvKey (k : Nat) (s : State) : Ans := .next (xlatCmd s xlatSts 4 0 k 0)
/-- WIN_MAKE. -/
def execWinMake (a n : Nat) (s : State) : Ans := .next (xlatCmd s xlatSts 5 a n 0)
/-- REGION_SET. -/
def execRegionSet (n : Nat) (s : State) : Ans := .next (xlatCmd s xlatSts 6 0 n 0)
/-- REGION_CLEAR. -/
def execRegionClear (n : Nat) (s : State) : Ans := .next (xlatCmd s xlatSts 7 0 n 0)
/-- PARK_RESUME. -/
def execParkResume (a : Nat) (s : State) : Ans := .next (xlatCmd s xlatSts 8 a 0 (xlatArg s))
/-- PARK_DROP. -/
def execParkDrop (a : Nat) (s : State) : Ans := .next (xlatCmd s xlatSts 9 a 0 (xlatArg s))

end Sys2Proof.Machine
end

