-- ==== Sys2Proof/Machine/Link.lean ====
section
/-! DEFINITION. Machine/Link: trunks, flits, credits, replay, lane failure, routes (spec/21, R370 to R383). Which flit arrives next, and
which lane fails, are inputs. -/

namespace Sys2Proof.Machine

def hubSts : Nat := 0x00030028

/-- A command of the hub ends (R371); those that name no address space tell the PF. -/
def hubDone (s : State) (op t r : Nat) : State :=
  post (barWr s hubSts ((barRd s hubSts &&& ~~~(0xFF#64 <<< 48)) ||| (BitVec.ofNat 64 r <<< 48))) 0 3 [hubSts, op, t, r]

/-- BUSY rises with a command that the hub has taken, and falls when it has been carried out (R371, as R332). -/
def hubBusy (s : State) (c : Option (Nat × Nat)) : State :=
  let v := barRd s hubSts
  modHub (barWr s hubSts (if c.isSome then v ||| (1#64 <<< 63) else v &&& ~~~(1#64 <<< 63))) fun h => { h with cmd := c }

/-- A write to HUB_CMD: it is taken unless a command is being carried out, in which case it is dropped and sets LOST. -/
def hubTake (s : State) (op t : Nat) : State :=
  if s.sec.recovery then s
  else if s.hub.cmd.isSome then barWr s hubSts (barRd s hubSts ||| (1#64 <<< 62)) else hubBusy s (some (op, t))

/-- A command's row: the one the hub has taken is carried out; another is written meanwhile. -/
def hubCmd (s : State) (op t : Nat) (act : State → State) : State :=
  if s.sec.recovery then s else
  match s.hub.cmd with
  | none => act s
  | some c => if c == (op, t) then act (hubBusy s none) else hubTake s op t

/-! ## Configuration (R370, R372) -/

def trunkReg (n : Nat) : Nat := 0x00031000 + 8 * n

/-- TRUNK_CFG*n* as it reads: what was written, and what training found. -/
def trunkCfg (s : State) (n : Nat) : Word :=
  let v := (barRd s (trunkReg n)).toNat
  let t := trunkAt s n
  BitVec.ofNat 64 (bits v 63 61 * 2 ^ 61 + t.peer * 2 ^ 47 + t.state * 2 ^ 44 + (if t.nrz then 2 ^ 43 else 0) + t.lanes.length % 32 * 2 ^ 38 +
    bits v 33 16 * 2 ^ 16 + (t.lanes.map fun k => 2 ^ k).sum)

/-- Lanes of a trunk at full width. -/
def trunkWidth (s : State) (n : Nat) : Nat := 2 * 2 ^ bits (barRd s (trunkReg n)).toNat 62 61

/-! ## Transitions (R378) -/

/-- Puts an unsequenced flit on the lanes: the SEQ to come, the last good SEQ, no credits (R375). -/
def Trunk.plain (t : Trunk) (typ : Nat) (p : List Byte) : Trunk :=
  { t with wire := ⟨t.txSeq, (t.rxExp + 4095) % 4096, 0, 0, 0, 0, typ, p ++ List.replicate (236 - p.length) 0, 0⟩ :: t.wire }

/-- Every transition posts an event with the trunk id and the new state. -/
def trunkTo (s : State) (n st : Nat) (f : Trunk → Trunk) : State :=
  post (modTrunk s n fun t => f { t with state := st, since := s.dev }) 0 8 [n, st]

/-- The packets of which no flit has been sent, in order, and the number of flits of packets that had begun. `part` holds by channel what
of a packet has been met. -/
def unsent : Sp (List Byte) → List Flit → List Packet × Nat
  | _, [] => ([], 0)
  | part, f :: l =>
    match (if f.typ = 1 then some [] else spFind part f.vc) with
    | none => let (ps, k) := unsent part l; (ps, k + 1)
    | some b =>
      let b := b ++ f.payload
      if packetSize b ≤ b.length then
        let (ps, k) := unsent (spDel part f.vc) l
        ({ unpackPacket (b.take (packetSize b)) with num := f.num } :: ps, k)
      else unsent (spSet part f.vc b) l

/-- A trunk goes DOWN: flits that were outstanding, and the rest of packets that had begun, are dropped and counted; packets of which nothing
was sent go by another next hop, ahead of later ones of their lanes (R378, R391, R392). -/
def trunkDown (s : State) (n : Nat) : State :=
  let t := trunkAt s n
  let (ps, k) := unsent [] t.waitq
  let s := setHealth (hubCount s (8 * n + 4) (t.outst.length + k)) 5
  ps.foldl hubSend (trunkTo s n 0 fun t => { t with outst := [], waitq := [], replay := none, asm := [], owe := [], lanes := [], buf := [], kept := [], corr := [] })

/-- A trunk begins to retrain for a mode; training flits tell this package's number (log 31). -/
def trunkRetrain (s : State) (n : Nat) (nrz : Bool) : State :=
  trunkTo s n 2 fun t => { t with aimNrz := nrz, asked := (0, 0) }.plain 4 (toBytes (pkgNo s) 2)

/-- Asks for replay from the SEQ expected, once an episode (R377, R392, R397). -/
def askReplay (s : State) (n : Nat) : State :=
  let t := trunkAt s n
  let s := if t.replay.isNone then hubCount s (8 * n) 1 else s
  modTrunk s n fun t => { t with replay := some (s.dev, (match t.replay with | some (_, k) => k | none => 0) + 1) }.plain 3 (toBytes t.rxExp 2)

/-- Retrains trunk `n` at full width in PAM4 from any state; from DOWN, both ends begin with SEQ 0 and full credits (log 31). -/
def trunkTrain (n : Nat) (s : State) : State :=
  if n ≥ 144 || !(barRd s (trunkReg n)).getLsbD 63 then hubDone s 4 n 1 else
  let w := trunkWidth s n
  let s := modTrunk s n fun t =>
    let t := if t.state = 0 then { Trunk.reset with wire := t.wire, peer := t.peer } else t
    { t with lanes := upTo w }
  hubDone (trunkRetrain s n false) 4 n 0

/-- TRUNK_TRAIN *n*. -/
def execTrunkTrain (n : Nat) (s : State) : Ans := .next (hubCmd s 4 n (trunkTrain n))

/-- TRUNK_CFG_WRITE *n*: a VALID that breaks the alignment rule is ignored, and HUB_STS.RESULT reads 0x01. -/
def execTrunkCfgWrite (n v : Nat) (s : State) : Ans :=
  if s.sec.recovery || n ≥ 144 then .next s
  else if bit v 63 && n % 2 ^ bits v 62 61 != 0 then
    .next (barWr s hubSts ((barRd s hubSts &&& ~~~(0xFF#64 <<< 48)) ||| (1#64 <<< 48)))
  else .next (barWr s (trunkReg n) (BitVec.ofNat 64 (bits v 63 61 * 2 ^ 61 + bits v 33 16 * 2 ^ 16)))

/-- Fails lane `k` of a trunk: to NRZ, to half the lanes, or DOWN. -/
def laneFail (s : State) (n k : Nat) : State :=
  let t := trunkAt s n
  if !t.lanes.contains k || t.state = 0 then s
  else if t.lanes.length = 1 then trunkDown s n
  else if t.state = 1 then trunkRetrain s n true
  else if t.state = 3 || t.state = 4 then
    let h := t.lanes.length / 2
    let low := t.lanes.take h
    let s := trunkTo (hubCount s (8 * n + 3) 1) n 5 fun t => t
    trunkRetrain (modTrunk s n fun t => { t with lanes := if low.contains k then t.lanes.drop h else low }) n false
  else s

/-- FEC has corrected a symbol on lane `k` of a trunk: with more than LANE_THR of them within 10 µs the lane fails (R372, R378). -/
def laneNoted (s : State) (n k : Nat) : State :=
  let l := ((trunkAt s n).corr.filter fun (_, t) => s.dev < t + nsDev 10000) ++ [(k, s.dev)]
  let s := modTrunk s n fun t => { t with corr := l }
  if (l.filter fun (j, _) => j == k).length > bits (barRd s (trunkReg n)).toNat 33 16 then laneFail s n k else s

/-- LANE_FAIL: lane `k` of trunk `n` has lost symbol lock. -/
def execLaneFail (n k : Nat) (s : State) : Ans := .next (laneFail s n k)

/-- TRAINING_DONE: after its 20 µs or 30 µs, the training of trunk `n` has succeeded (`ok` not 0) or failed. A trunk that comes up asks
once for replay from the flit it expects (R397), again and again only where it was already waiting for one (R377), and sends what waits. -/
def execTrainingDone (n ok : Nat) (s : State) : Ans :=
  let t := trunkAt s n
  if t.state != 2 || s.dev < t.since + nsDev (if t.aimNrz then 20000 else 30000) then .next s
  else if ok = 0 then .next (trunkDown s n)
  else
    let s := if t.aimNrz then hubCount s (8 * n + 2) 1 else s
    let s := trunkTo s n (if t.aimNrz then 3 else 1) fun t => { t with nrz := t.aimNrz, asked := (0, 0) }
    let s := modTrunk (hubCount s (8 * n) 1) n fun t => { t with replay := t.replay.map fun _ => (s.dev, 1) }.plain 3 (toBytes t.rxExp 2)
    .next (modTrunk s n Trunk.pump)

/-- PROBATION_EXPIRY: 100 µs of PROBATION without a failure. -/
def execProbationExpiry (n : Nat) (s : State) : Ans :=
  let t := trunkAt s n
  if t.state = 3 && s.dev ≥ t.since + nsDev 100000 then .next (trunkTo s n 4 fun t => t) else .next s

/-! ## Flits arriving (R373 to R377) -/

/-- A flit's link-layer field and payload. -/
def readFlit (w : Nat) : Flit :=
  let l := bits w 1935 1888
  ⟨bits l 47 36, bits l 35 24, bits l 23 20, bits l 19 19, bits l 18 11, bits l 10 7, bits l 6 4, toBytes w 236, 0⟩

/-- Whether a flit is bad for a reason other than its FEC and CRC. -/
def flitBad (w : Nat) (f : Flit) : Bool := f.typ > 4 || f.vc > 9 || bits w 1891 1888 != 0

/-- The other end's ACK: outstanding flits that it covers are done with. -/
def Trunk.acked (t : Trunk) (a : Nat) : Trunk :=
  let d := (a + 4096 - t.txAck) % 4096
  if d ≥ 2048 then t else
  { t with txAck := a, outst := t.outst.filter (fun f => (f.seq + 4095 - t.txAck) % 4096 ≥ d), asked := if d = 0 then t.asked else (0, 0) }

/-- Credits come back (R376). A shared one is counted to the lowest channel that holds any (log 31). -/
def Trunk.credited (t : Trunk) (ch n : Nat) : Trunk :=
  if ch = 15 then
    (upTo n).foldl (fun t _ =>
      let t := { t with credS := t.credS + 1 }
      match t.heldS.find? fun (_, k) => k != 0 with
      | some (v, _) => { t with heldS := spMod 0 t.heldS v (· - 1) }
      | none => t) t
  else if ch ≤ 9 then { t with credD := spMod 0 t.credD ch (· + n) } else t

/-- The receiver owes a credit of the kind a flit spent. -/
def oweCredit (ch : Nat) : List (Nat × Nat) → List (Nat × Nat)
  | [] => [(ch, 1)]
  | (c, n) :: l => if c = ch && n < 255 then (c, n + 1) :: l else (c, n) :: oweCredit ch l

/-- Operations a packet may name (R380). -/
def opKnown (op : Nat) : Bool := (1 ≤ op && op ≤ 7) || (0x20 ≤ op && op ≤ 0x24) || op == 0x30

/-- Credits of flits that have left trunk `n`'s receive buffers go back: those of the parking channel while its store has room (R364, R376). -/
def creditsBack (s : State) (n : Nat) (l : List (Nat × Nat × Nat)) : State :=
  let full := parkedFlits s n ≥ 256
  modTrunk s n fun t => l.foldl (fun t (vc, _, ch) =>
    if vc = 8 && full then { t with kept := oweCredit ch t.kept } else { t with owe := oweCredit ch t.owe }) t

/-- Whether a packet still stands in its trunk's receive buffers: it has not been taken, or waits to be sent on (R376). -/
def buffered (s : State) (num : Nat) : Bool :=
  s.hub.rx.any (fun p => p.num == num) || s.hub.holds.any (fun (_, _, l) => l.any fun p => p.num == num) ||
  s.hub.trunks.any fun (_, t) => t.waitq.any fun f => f.num == num

/-- Receive buffers give up the flits of packets that have been taken, sent on or dropped (R376). -/
def bufSettle (s : State) : State :=
  (s.hub.trunks.filter fun (_, t) => !t.buf.isEmpty).foldl (fun s (n, t) =>
    let stays := fun (e : Nat × Nat × Nat) => if e.2.1 = 0 then (spFind t.asm e.1).isSome else buffered s e.2.1
    let gone := t.buf.filter fun e => !stays e
    if gone.isEmpty then s else modTrunk (creditsBack (modTrunk s n fun t => { t with buf := t.buf.filter stays }) n gone) n Trunk.pump) s

/-- A whole packet has reached the hub by trunk `n` on a channel: HOP rises, and it is taken in, sent on, or dropped (R380, R383). -/
def packetIn (s : State) (n vc num : Nat) (b : List Byte) : State :=
  let p := unpackPacket b
  let p := { p with hop := p.hop + 1, port := n, num := num }
  if !opKnown p.op || (p.op = 0x30 && vc != 9) then hubCount s 2000 1
  else if p.dpkg = pkgNo s then modHub s fun h => { h with rx := h.rx ++ [p] }
  else hubSend s { p with port := 999 }

/-- An accepted START or CONT flit: it stands in the receive buffers and joins the packet of its channel (R375, R376). -/
def flitData (s : State) (n : Nat) (f : Flit) : State :=
  let old := spGet [] (trunkAt s n).asm f.vc
  let b := if f.typ = 1 then f.payload else old ++ f.payload
  let ch := if f.csrc = 1 then 15 else f.vc
  let s := modTrunk s n fun t => { t with buf := t.buf ++ [(f.vc, 0, ch)] }
  if f.typ = 2 && old.isEmpty then s
  else if packetSize b ≤ b.length then
    let (k, s) := drawFresh s
    let s := modTrunk s n fun t => { t with asm := spDel t.asm f.vc, buf := t.buf.map fun e => if e.1 = f.vc && e.2.1 = 0 then (e.1, k + 1, e.2.2) else e }
    packetIn s n f.vc (k + 1) (b.take (packetSize b))
  else modTrunk s n fun t => { t with asm := spSet t.asm f.vc b }

/-- Sends again every outstanding flit from a SEQ on (R377). -/
def Trunk.resend (t : Trunk) (q : Nat) : Trunk :=
  let again := (t.outst.filter fun f => (f.seq + 4096 - q) % 4096 < 2048).map fun f => { f with ack := (t.rxExp + 4095) % 4096 }
  { t with wire := again.reverse ++ t.wire, asked := if t.asked.1 = q && t.asked.2 != 0 then (q, t.asked.2 + 1) else (q, 1) }

/-- What the FEC of a flit has corrected, noted after the flit has been taken. -/
def flitNoted (n bad : Nat) (s : State) : State := if bad ≥ 2 then laneNoted s n (bad - 2) else s

/-- A flit arrives on trunk `n`: 2,048 bits. `bad` is 1 where FEC or CRC finds it bad (log 31), and 2 + k where FEC has corrected a symbol of
lane k. `typ` is the type this event stands for. No flit but those of the training passes in RETRAIN (R378). -/
def flitArrive (n w bad typ : Nat) (s : State) : State :=
  let t := trunkAt s n
  let f := readFlit w
  if n ≥ 144 || !(t.flows || (t.state = 2 && typ = 4)) then s
  else if bad = 1 || flitBad w f then (if t.flows then askReplay (hubCount s (8 * n + 1) 1) n else s)
  else if f.typ != typ then s
  else flitNoted n bad <|
    let s := modTrunk s n fun t => t.acked f.ack
    if f.typ = 1 || f.typ = 2 || (f.typ = 0 && f.crcnt != 0) then
      if f.seq != (trunkAt s n).rxExp then (if (trunkAt s n).replay.isNone then askReplay s n else s)
      else
        let s := modTrunk s n fun t => { t with rxExp := (t.rxExp + 1) % 4096, replay := none }.credited f.crch f.crcnt
        let s := if f.typ = 0 then s else bufSettle (flitData s n f)
        -- what waits goes out; an ACK goes back even when nothing else does
        modTrunk s n fun t => let t' := t.pump; if t'.wire.length = t.wire.length then t'.plain 0 [] else t'
    else if f.typ = 3 then
      let q := leNat (f.payload.take 2) % 4096
      let s := modTrunk s n fun t => t.resend q
      if (trunkAt s n).asked.2 ≥ 16 then trunkRetrain s n t.nrz else s
    else if f.typ = 4 then modTrunk s n fun t => { t with peer := leNat (f.payload.take 2) % 16384 }
    else modTrunk s n Trunk.pump

/-- START_FLIT: a flit that begins a packet arrives on trunk `n`. -/
def execStartFlit (n w bad : Nat) (s : State) : Ans := .next (flitArrive n w bad 1 s)
/-- CONT_FLIT: a flit that continues a packet arrives. -/
def execContFlit (n w bad : Nat) (s : State) : Ans := .next (flitArrive n w bad 2 s)
/-- IDLE_FLIT: a flit with no packet bytes arrives. -/
def execIdleFlit (n w bad : Nat) (s : State) : Ans := .next (flitArrive n w bad 0 s)
/-- REPLAY_REQ: the peer asks for flits again. -/
def execReplayReq (n w bad : Nat) (s : State) : Ans := .next (flitArrive n w bad 3 s)
/-- TRAIN_FLIT: a training flit arrives and tells the peer's number (log 31). -/
def execTrainFlit (n w bad : Nat) (s : State) : Ans := .next (flitArrive n w bad 4 s)

/-- REPLAY_REQ_REPEAT: 1 µs without the expected SEQ on trunk `n`: the request goes out again; after 16 the trunk retrains as it is. -/
def execReplayReqRepeat (n : Nat) (s : State) : Ans :=
  let t := trunkAt s n
  match t.replay with
  | some (at_, k) =>
    if !t.flows || s.dev < at_ + nsDev 1000 then .next s
    else if k ≥ 16 then .next (trunkRetrain (modTrunk s n fun t => { t with replay := none }) n t.nrz)
    else .next (askReplay s n)
  | none => .next s

/-- Counts a cycle in every trunk where a flit waits for credit (R392); one that waits because 2,048 are outstanding does not. -/
def creditTick (s : State) : State :=
  (s.hub.trunks.filter fun (_, t) => t.flows && !t.waitq.isEmpty && t.outst.length < 2048).foldl (fun s (n, _) => hubCount s (8 * n + 7) 1) s

/-! ## Routes (R381, R382) -/

/-- Loads the routing entry of `d` and holds packets for `d` until FAB_MAXLAT has passed. -/
def routeWr (d : Nat) (s : State) : State :=
  if d ≥ 16384 then hubDone s 1 d 1 else
  let w := BitVec.ofNat 64 (memNat s ((barRd s 0x00030010).toNat + 8 * d) 8)
  let t := s.dev + nsDev (1000 * bits (barRd s 0x00030008).toNat 31 0)
  let s := modHub s fun h => { h with routes := spSet h.routes d w,
                                      holds := match h.holds.find? fun x => x.1 == d with
                                        | some (_, _, l) => h.holds.map fun x => if x.1 = d then (d, t, l) else x
                                        | none => h.holds ++ [(d, t, [])] }
  hubDone s 1 d 0

/-- ROUTE_WR *d*. -/
def execRouteWr (d : Nat) (s : State) : Ans := .next (hubCmd s 1 d (routeWr d))

/-- ROUTE_HOLD_EXPIRY: FAB_MAXLAT after the last ROUTE_WR of `d`, the held packets go out in the order they came. -/
def execRouteHoldExpiry (d : Nat) (s : State) : Ans :=
  match s.hub.holds.find? fun x => x.1 == d with
  | some (_, t, l) =>
    if s.dev < t then .next s
    else .next (l.foldl hubSend (modHub s fun h => { h with holds := h.holds.filter fun x => x.1 != d }))
  | none => .next s

end Sys2Proof.Machine
end

