-- ==== Sys2Proof/Machine/Packet.lean ====
section
/-! DEFINITION. Machine/Packet: packets that have arrived for this package (spec/21, R380; spec/20, R363, R364; spec/03, R55; spec/23, R408,
R409): requests performed at their target, responses taken by what waits for them. Packets of one lane from one source are taken in
the order they arrived. -/

namespace Sys2Proof.Machine

/-- Arrival `i`, where it is one of the operation and no packet of its source, lane and direction came before it. -/
def rxFirst (s : State) (i op : Nat) : Option Packet :=
  match s.hub.rx[i]? with
  | none => none
  | some p =>
    if p.op = op && (op == 0x30 || p.rsp == decide (0x20 ≤ op)) &&
      !(s.hub.rx.take i).any (fun q => q.spkg == p.spkg && q.lane == p.lane && q.rsp == p.rsp) then some p else none

/-- Takes arrival `i` out. -/
def rxTake (s : State) (i : Nat) : State := modHub s fun h => { h with rx := h.rx.eraseIdx i }

/-- Whether a packet of a request's lane is parked: it parks too (R364). -/
def laneParked (s : State) (p : Packet) : Bool := s.hub.parked.any fun k => k.pkt.spkg == p.spkg && k.pkt.lane == p.lane

/-- Parks arrival `i` while its port has room; otherwise it waits where it is (R364). -/
def parkArrival (s : State) (i : Nat) (p : Packet) (page : Option (Nat × Nat)) : State :=
  if parkedFlits s p.port + flitCount p > 256 then s else
  let s := parkCount (rxTake s i) 5 p
  let (a, va) := page.getD (16384, 0)
  let s := modHub s fun h => { h with parked := h.parked ++ [⟨p.port, a, va, p⟩] }
  match page with
  | some (a, va) => post s (driverOf s a) 2 [a, va]
  | none => s

/-- What a request reaches, with its ASID: a 128-byte line of memory, a 512-byte line of a handle, or a counter. -/
def pktReach (s : State) (p : Packet) : Option (Nat × Nat × Nat × Nat) :=
  let mem := fun (need : Nat) => (keyCheck s p.key 0 need p.addr 0).map fun x => (x.1, 0, 0, x.2 / 128)
  if p.op = 4 then
    if bits p.aux 4 0 = 5 && bit p.aux 5 then (keyCheck s p.key 1 rW 0 0).map fun x => (x.1, 2, bits p.aux 25 18, p.addr / 8)
    else (keyCheck s p.key 2 (if bits p.aux 4 0 = 2 then rR else rA) p.addr 8).map fun x => (x.1, 2, bits p.aux 25 18, x.2 / 8)
  else if p.op = 1 then
    if bit p.aux 5 then (keyCheck s p.key 1 rW p.addr 0).map fun x => (x.1, 1, bits p.aux 25 10, x.2 / 512) else mem rW
  else if p.op = 2 then mem rR
  else if p.op = 3 then mem rA
  else if p.op = 5 then mem (if bits p.aux 4 0 = 1 then rW else rR)
  else none

/-- The decision of a port's ingress, or of a counter unit, among requests of different sources that reach one line, or one counter, at
once: recorded or replayed (R391, R424, R425). Their inputs are numbered by ascending source and lane (log 28). -/
def ingress (s : State) (i : Nat) (p : Packet) : Bool × State :=
  if rplMode s = 0 then (true, s) else
  match pktReach s p with
  | none => (true, s)
  | some (asid, k, a, b) =>
    let key := fun (q : Packet) => 16 * q.spkg + q.lane
    if k = 2 then ctrGate s asid (.file a b) (key p) else
    let l := (s.hub.rx.zipIdx.filter fun (q, j) => (rxFirst s j q.op).isSome && !laneParked s q && pktReach s q == some (asid, k, a, b) &&
      (j == i || q.spkg != p.spkg)).map fun (q, _) => key q
    rplGate s asid (0x4000 + p.port % 4096) (2 ^ min 16 l.length - 1) ((l.filter (· < key p)).length % 16)

/-- A request is taken: behind a parked one of its lane it parks, otherwise `f` performs it where the arbiter lets it. -/
def onRequest (s : State) (i op : Nat) (f : State → Packet → State) : Ans :=
  match rxFirst s i op with
  | none => .next s
  | some p =>
    if laneParked s p then .next (parkArrival s i p none) else
    match ingress s i p with
    | (true, s) => .next (f s p)
    | (false, s) => .next s

/-- Remembers that the last write of a lane was dropped, or was placed (R106). -/
def setSkip (s : State) (p : Packet) (dropped : Bool) : State :=
  modHub s fun h => { h with skip := if dropped then spSet h.skip (16 * p.spkg + p.lane) 1 else spDel h.skip (16 * p.spkg + p.lane) }

/-- An arriving write is dropped and counted, and the landing add behind it will be (R55, R363; log 32). Its source learns that it will
not be placed, with a status of R263 (log 82). -/
def dropWrite (s : State) (p : Packet) (code : Nat) : State := sendRsp (setSkip (hubCount s 2000 1) p true) (respond s p 0x24 code [])

/-- Target core, handle and its GEN that a HANDLE or COUNTER window names (log 21). -/
def pktCore (p : Packet) : Nat := bits p.aux 25 18
def pktHnd (p : Packet) : Nat := bits p.aux 17 10
def pktGen (p : Packet) : Nat := bits p.aux 9 6
def pktFn (p : Packet) : Nat := bits p.aux 4 0

/-! ## WR -/

/-- The leaf of an address, resident or not (R357). -/
def ptLeaf (s : State) (va : Nat) : Nat → Nat → Option Nat
  | 0, _ => none
  | k + 1, base =>
    let e := memNat s (base + 8 * ptIndex k va) 8
    if bits e 63 62 = 2 then some e else if bits e 63 62 = 1 then ptLeaf s va k (bits e 38 6 * 64) else none

/-- Whether a non-resident address lies in a staging page (R364). -/
def staging (s : State) (asid va : Nat) : Bool :=
  match ptLeaf s va 4 (bits (memNat s (atabEntry s asid + 16) 8) 38 16 * 2 ^ 16) with | some e => bit e 53 | none => false

/-- What an arriving write to memory meets before any byte is written: none, a page to park at, or a failure. -/
inductive WriteAt where
  | ok
  | park (va : Nat)
  | drop
deriving DecidableEq, Repr

def writeAt (s : State) (asid va n : Nat) : WriteAt :=
  (xsplit s 0 asid (n + 1) va 0 n).foldl (fun acc (a, _, _, r) => match acc with
    | .ok => match r with
      | .fail f => if f = 3 && staging s asid a then .park a else .drop
      | .loc _ k rt _ _ _ => if k = kVERSIONED || k = kCOUNTER || !hasRight rt rW then .drop else .ok
      | .win _ w _ _ => if winTgt w = 2 || !hasRight (winRights w) rW then .drop else .ok
    | x => x) .ok

/-- Which of `m` bytes from an offset on a masked write writes (R118). -/
def wrMask (p : Packet) (off m : Nat) : Option Nat := if masked p.op p.aux then some (p.pre.getD 0 0 / 2 ^ off % 2 ^ m) else none

/-- Bytes with those that a mask leaves out taken from what stood there. -/
def underMask (mask : Option Nat) (new old : List Byte) : List Byte :=
  match mask with
  | none => new
  | some k => (new.zip old).zipIdx.map fun ((n, o), i) => if bit k i then n else o

/-- Places the bytes of a write from an offset on, forwarding what a window of the target's own takes (R383); then answers. -/
def writeOn : Nat → State → Packet → Nat → Nat → Nat → State
  | 0, s, _, _, _, _ => s
  | k + 1, s, p, asid, va, off =>
    if off ≥ p.data.length then sendRsp s (respond s p 0x20 0 []) else
    match (xlat s 0 asid (va + off)).bounded (p.data.length - off) with
    | .loc pa _ _ sp _ _ =>
      let m := min sp (p.data.length - off)
      writeOn k (hbmWrite s pa (underMask (wrMask p off m) (slice p.data off m) (memBytes s.mem pa m))) p asid va (off + m)
    | .win _ w o sp =>
      let m := min sp (p.data.length - off)
      let (t, s) := newTag s ⟨6, 0, 0, m, some { p with pre := [p.pre.getD 0 0, off + m] }⟩
      -- on its arrival, the landing add behind it has to wait
      let s := if p.pre.length < 2 then modHub s fun h => { h with skip := spSet h.skip (16 * p.spkg + p.lane) (2 + p.tag) } else s
      let k := wrMask p off m
      hubSend s { winRequest s w (va + off) o 0x01 (if k.isSome then 1 else 0) m t (slice p.data off m) with hop := p.hop, pre := k.toList, port := p.port }
    | .fail _ => s

/-- A write into a handle of a core (R55, R361, R408, R409). -/
def writeHandle (s : State) (p : Packet) (asid off : Nat) : State :=
  let c := pktCore p
  let e := handle (coreAt s c) (pktHnd p)
  let held := spGet 0 (coreAt s c).m.hheld (pktHnd p)
  if c < 192 && p.ggen = 0 && e.valid && e.gen == pktGen p && !e.shadow && off + p.data.length ≤ e.size && held != 1 && held != 2 &&
      (held != 3 || asidOf (coreAt s c) == asid)
  then
    let b := underMask (wrMask p 0 p.data.length) p.data (spadRead (coreAt s c) e off p.data.length)
    sendRsp (setSkip (hWrite s c e off b) p false) (respond s p 0x20 0 [])
  else dropWrite s p 0x02

/-- WR: arrival `i`, a write, is checked and placed, parked or dropped (R363, R364). -/
def execWr (i : Nat) (s : State) : Ans :=
  onRequest s i 1 fun s p =>
    let tgt := if bit p.aux 5 then 1 else 0
    match keyCheck s p.key tgt rW p.addr p.data.length with
    | none => dropWrite (rxTake s i) p 0x04
    | some (asid, va) =>
      if tgt = 1 then
        match bankTry s (pktCore p) 5 (ingressLines s (pktCore p) p) with
        | (true, s) => writeHandle (rxTake s i) p asid va
        | (false, s) => s
      else match writeAt s asid va p.data.length with
        | .ok => writeOn (p.data.length + 1) (setSkip (rxTake s i) p false) p asid va 0
        | .park a => parkArrival s i p (some (asid, a))
        | .drop => dropWrite (rxTake s i) p 0x04

/-! ## RD and AMO -/

/-- A refusal of a read: the status, the cause and the reason the issuer reports (log 21). -/
def refuse (s : State) (p : Packet) (code cause detail : Nat) : State :=
  sendRsp s (respond s p 0x24 (code + 256 * cause + 65536 * detail) [])

/-- Reads on from what has been read, forwarding what a window takes; then answers. -/
def readOn : Nat → State → Packet → Nat → Nat → State
  | 0, s, _, _, _ => s
  | k + 1, s, p, asid, va =>
    let off := p.data.length
    if off ≥ p.len then sendRsp s (respond s p 0x21 0 p.data) else
    match (xlat s 0 asid (va + off)).bounded (p.len - off) with
    | .loc pa kd rt sp _ _ =>
      if kd = kVERSIONED || kd = kCOUNTER then refuse s p 0x05 0x0D 0
      else if !hasRight rt rR then refuse s p 0x03 0x0B 0x04
      else
        let m := min sp (p.len - off)
        let (b, s) := hbmRead s asid pa m
        readOn k s { p with data := p.data ++ b } asid va
    | .win _ w o sp =>
      if winTgt w != 0 || !hasRight (winRights w) rR then refuse s p 0x04 0x0C 0 else
      let m := min sp (p.len - off)
      let (t, s) := newTag s ⟨6, 0, 0, m, some p⟩
      hubSend s { winRequest s w (va + off) o 0x02 (m - 1) m t [] with hop := p.hop }
    | .fail r => refuse (postPage s asid (va + off) r) p 0x03 0x0B r

/-- RD: arrival `i`, a read, is answered with DATA or refused. -/
def execRd (i : Nat) (s : State) : Ans :=
  onRequest s i 2 fun s p =>
    let s := rxTake s i
    match keyCheck s p.key 0 rR p.addr p.len with
    | none => refuse s p 0x04 0x0C 0
    | some (asid, va) => readOn (p.len + 1) s p asid va

/-- AMO: arrival `i`, an atomic, is performed (R221) and the old value returned. -/
def execAmo (i : Nat) (s : State) : Ans :=
  onRequest s i 3 fun s p =>
    let s := rxTake s i
    match keyCheck s p.key 0 rA p.addr 8 with
    | none => refuse s p 0x04 0x0C 0
    | some (asid, va) =>
      if va % 8 != 0 then refuse s p 0x05 0x0D 0 else
      match xlat s 0 asid va with
      | .loc pa k rt _ _ _ =>
        if k = kVERSIONED || k = kCOUNTER then refuse s p 0x05 0x0D 0
        else if !hasRight rt rA then refuse s p 0x03 0x0B 0x04
        else
          let (b, s) := hbmRead s asid pa 8
          let m : Word := BitVec.ofNat 64 (leNat b)
          let x : Word := BitVec.ofNat 64 (leNat (slice p.data 8 8))
          let v := amoFn (pktFn p) m (BitVec.ofNat 64 (leNat (p.data.take 8))) x
          let s := if pktFn p = 9 && m != x then s else hbmWrite s pa (toBytes v.toNat 8)
          sendRsp s (respond s p 0x21 0 (toBytes m.toNat 8))
      | .win _ w o _ =>
        if winTgt w != 0 || !hasRight (winRights w) rA then refuse s p 0x04 0x0C 0 else
        let (t, s) := newTag s ⟨6, 0, 0, 8, some p⟩
        hubSend s { winRequest s w va o 0x03 (pktFn p) 16 t p.data with hop := p.hop }
      | .fail r => refuse (postPage s asid va r) p 0x03 0x0B r

/-! ## CTR and VER -/

/-- A landing add is not made; its source learns that (R380, log 82). -/
def landDropped (s : State) (p : Packet) (code : Nat) : State := sendRsp s (respond s p 0x24 code [])

/-- A landing add takes effect and is answered (R380); an overflow poisons the counter, and nothing else records it (R101, R106). -/
def landApply (s : State) (p : Packet) (n : Nat) : State :=
  let ct := if bit p.aux 5 then (match keyCheck s p.key 1 rW 0 0 with | some _ => some (p.addr / 8) | none => none)
            else (keyCheck s p.key 2 rA p.addr 8).map fun x => x.2 / 8
  match ct with
  | some k =>
    if k < 512 && pktCore p < 192 then
      sendRsp (ctrWrite s (addOrPoison (ctrRead s (.file (pktCore p) k)) n).1 (.file (pktCore p) k)) (respond s p 0x20 0 [])
    else landDropped (hubCount s 2000 1) p 0x04
  | none => landDropped (hubCount s 2000 1) p 0x04

/-- A landing add (R106, R275, R380): it goes the way of the write before it, and waits while that is being forwarded. -/
def landAdd (s : State) (p : Packet) (n : Nat) : State :=
  let k := spGet 0 s.hub.skip (16 * p.spkg + p.lane)
  if k = 1 then landDropped (setSkip s p false) p 0x04
  else if k ≥ 2 then modHub (setSkip s p false) fun h => { h with owed := h.owed ++ [(p.spkg, k - 2, p)] }
  else landApply s p n

/-- What follows the end of forwarded write `p`: its landing adds count if all of it was placed, and are dropped if not; so will one
that has still to come. -/
def forwarded (s : State) (p : Packet) (placed : Bool) : State :=
  let mine := s.hub.owed.filter fun (k, t, _) => k == p.spkg && t == p.tag
  let s := modHub s fun h => { h with owed := h.owed.filter fun (k, t, _) => !(k == p.spkg && t == p.tag) }
  let s := if spGet 0 s.hub.skip (16 * p.spkg + p.lane) = 2 + p.tag then setSkip s p (!placed) else s
  mine.foldl (fun s (_, _, q) => if placed then landApply s q (leNat (q.data.take 8)) else landDropped s q 0x04) s

/-- Whether parts of write `p` are on their way to where a window of this package leads. -/
def forwarding (s : State) (p : Packet) : Bool :=
  s.hub.pend.any fun (_, q) => q.what == 6 && (match q.orig with | some o => o.op == 1 && o.spkg == p.spkg && o.tag == p.tag | none => false)

/-- Goes on with a forwarded write once a part of it has been placed (R383). -/
def writeNext (s : State) (o : Packet) (asid va : Nat) : State :=
  let off := o.pre.getD 1 0
  match writeAt s asid (va + off) (o.data.length - off) with
  | .ok =>
    let s := writeOn (o.data.length + 1) s o asid va off
    if forwarding s o then s else forwarded s o true
  | _ => sendRsp (forwarded (hubCount s 2000 1) o false) (respond s o 0x24 0x04 [])

/-- A counter operation through a COUNTER window (R101, R268, R269): 0 add and 1 raise by a core, 2 read, 4 poison, 6 add by another party: one of those that overflows poisons the counter, and the status COUNTER_OVERFLOW tells the adder
(R101). A core's add to the reserved counter is refused as a missing right is: COUNTER_RESERVED is never deferred (R367). -/
def counterOp (s : State) (p : Packet) (a : Nat) : State :=
  let fn := pktFn p
  match keyCheck s p.key 2 (if fn = 2 then rR else rA) p.addr 8 with
  | none => refuse s p 0x04 0x0C 0
  | some (_, b) =>
    let at_ := CtrAt.file (pktCore p) (b / 8)
    if b / 8 ≥ 512 || b % 8 != 0 || pktCore p ≥ 192 then refuse s p 0x04 0x0C 0
    else if b / 8 = 511 && fn ≤ 1 && (coreAt s (pktCore p)).bind.isSome then refuse s p 0x04 0x0C 0
    else
      let v := ctrRead s at_
      if fn = 2 then sendRsp s (respond s p 0x21 0 (toBytes v.toNat 8))
      else if fn = 4 then sendRsp (ctrWrite s (ctrPoison v) at_) (respond s p 0x20 0 [])
      else if fn = 6 then
        let (v', o) := addOrPoison v a
        let s := ctrWrite s v' at_
        if o then refuse s p 0x0A 0x0F 0 else sendRsp s (respond s p 0x20 0 [])
      else
        let (v', o) := if fn = 0 then ctrAdd v a else ctrRaise v a
        if o then refuse s p 0x0A 0x0F 0 else sendRsp (ctrWrite s v' at_) (respond s p 0x20 0 [])

/-- CTR: arrival `i`, a counter operation, is applied. -/
def execCtr (i : Nat) (s : State) : Ans :=
  onRequest s i 4 fun s p =>
    let a := leNat (p.data.take 8)
    if pktFn p = 5 then landAdd (rxTake s i) p a else counterOp (rxTake s i) p a

/-- What a versioned access meets at its home (R125): its key checked, and its second one where it has two parts (log 81). -/
def verHome (s : State) (p : Packet) (need : Nat) : VReach :=
  let one := fun (key o n : Nat) => match keyCheck s key 0 need o n with
    | none => VReach.fault 0x0C 0
    | some (asid, va) => verReach s 0 asid va n need
  if p.data.length ≤ 16 then one p.key p.addr 8 else
  let m := leNat (slice p.data 28 1)
  match one p.key p.addr m, one (leNat (slice p.data 16 4)) (leNat (slice p.data 20 8)) (8 - m) with
  | .here a, .here b => .here (a ++ b.map fun (l, o, off, n, r) => (l, o, off + m, n, r))
  | .fault f d, _ => .fault f d
  | _, .fault f d => .fault f d
  | _, _ => .fault 0x0E 0

/-- VER: arrival `i`, a versioned access, is performed at its region's home (R125). One that must wait stays at the head of its lane until
it can be performed or its region's TIMEOUT has passed since it was first tried; `pre` holds that moment. -/
def execVer (i : Nat) (s : State) : Ans :=
  onRequest s i 5 fun s p =>
    let isStore := pktFn p = 1
    let need := if isStore then rW else rR
    let ver := leNat (p.data.take 8) % 2 ^ 32
    let data : Word := BitVec.ofNat 64 (leNat (slice p.data 8 8))
    let out := rxTake s i
    match verHome s p need with
    | .fault f d => refuse out p (if f = 0x0B then 0x03 else if f = 0x0C then 0x04 else 0x05) f d
    | .window w o two =>
      if two.isSome then refuse out p 0x05 0x0E 0 else
      let (t, s) := newTag out ⟨6, 0, 0, 8, some p⟩
      hubSend s { winRequest s w (winBase w + o) o 0x05 (pktFn p) 16 t p.data with hop := p.hop }
    | .here ps =>
      match verTry s isStore ps ver data with
      | .done v s =>
        let s := rxTake s i
        sendRsp s (if isStore then respond s p 0x20 0 [] else respond s p 0x21 0 (toBytes v.toNat 8))
      | .fault f => refuse out p 0x04 f 0
      | .wait rs => match p.pre with
        | t :: _ => if rs.any fun n => s.dev ≥ t + nsDev (1000 * bits (regionWord s n) 231 200) then refuse out p 0x04 (if isStore then 0x16 else 0x12) 0 else s
        | [] => modHub s fun h => { h with rx := setAt h.rx i { p with pre := [s.dev] } }

/-- MGMT: a management packet leaves the arrivals; what it asks of the hub's firmware the spec does not say (R380). -/
def execMgmt (i : Nat) (s : State) : Ans :=
  match rxFirst s i 0x30 with
  | none => .next s
  | some _ => .next (rxTake s i)

/-! ## Responses -/

/-- A response is taken with what waited for its tag; `late` takes one whose tag nobody waits for. -/
def onResponse (s : State) (i op : Nat) (late : State → Packet → State) (f : State → Packet → Pend → State) : Ans :=
  match rxFirst s i op with
  | none => .next s
  | some p =>
    let s := rxTake s i
    match spFind s.hub.pend p.tag with
    | none => .next (late s p)
    | some q => .next (f s p q)

def dropTag (s : State) (t : Nat) : State := modHub s fun h => { h with pend := spDel h.pend t }

/-- The queue entry that waits for a tag. -/
def gWaiting (s : State) (cn tag : Nat) : Option (Nat × GOp) := findIdxOf (fun (g : GOp) => g.st == .sent tag) (coreAt s cn).f.gq

/-- A G operation's reply (R218, R220, R221). -/
def gReply (s : State) (cn tag : Nat) (b : List Byte) : State :=
  match gWaiting s cn tag with
  | none => s
  | some (i, g) =>
    let v := leNat b
    match g.kind with
    | .load | .loadAcq => gLoaded s cn i g (overlay g.ver g.cmp.toNat v g.size)
    | .ldv => gResult (freeG (gRemove s cn i) cn) cn g.dst (BitVec.ofNat 64 v)
    | .stv => freeG (gRemove s cn i) cn
    | _ => gResult (gRemove s cn i) cn g.dst (BitVec.ofNat 64 v)

/-- A G operation's refusal: it parks, or a versioned access faults where the core is held (R125, R360). -/
def gRefused (s : State) (cn tag cause detail : Nat) : State :=
  match gWaiting s cn tag with
  | none => s
  | some (i, g) =>
    if g.kind == .ldv || g.kind == .stv then
      heldFault (freeG (gRemove s cn i) cn) cn 6 cause detail g.va
    else gPark s cn i g cause detail

/-- A write of a core has been placed (R107). -/
def writeAcked (s : State) (cn tag : Nat) : State :=
  modCore s cn fun c => { c with f := { c.f with unacked := c.f.unacked.map fun u => if u.tag = tag then { u with acked := true } else u } }

/-- A write of a core has been dropped at its target: its bytes stay in PBC, and no later release waits for it (R107, log 82). -/
def writeLost (s : State) (cn tag : Nat) : State :=
  modCore s cn fun c => { c with f := { c.f with unacked := c.f.unacked.map fun u => if u.tag = tag then { u with lost := true } else u } }

/-- A drain row has been dropped at its target: it leaves the queue, and its bytes stay in PBC. -/
def rowLost (s : State) (cn tag : Nat) : State :=
  modCore s cn fun c => { c with f := { c.f with drainq := c.f.drainq.filter fun r => !(r.sent && r.tag == tag) } }

/-- A drain row has been placed (R243). -/
def rowAcked (s : State) (cn tag : Nat) : State :=
  modCore s cn fun c => { c with f := { c.f with drainq := c.f.drainq.map fun r => if r.sent && r.tag = tag then { r with acked := true } else r } }

/-- An add of an engine has been answered: a landing add that overflowed gives the command its status (R101). -/
def addAnswered (s : State) (cn : Nat) (x : Cmd) (tag : Nat) (full : Bool) : State :=
  let s := modCore s cn fun c => { c with r := { c.r with pbc := c.r.pbc - 8 } }
  let s := modCmd s cn x.id fun y => { y with code := if full then 0x0A else y.code, waits := y.waits.filter fun t => t != tag }
  if x.op = 0x20 then tokenDone s cn x else s

/-- Data for a command: a piece of an `rld`, or the claim of a `disp`. -/
def cmdData (s : State) (cn : Nat) (x : Cmd) (tag : Nat) (b : List Byte) : State :=
  if x.op = 0x0A then modCmd s cn x.id fun y => { y with prog := (y.prog.set 2 2).set 3 (leNat b), waits := y.waits.filter fun t => t != tag }
  else
    let got := (x.pieces.filter fun p => p.tag == some tag).map fun p => { p with data := b, tag := none }
    pbcPieces (modCmd s cn x.id fun y => { y with pieces := y.pieces.map fun p => if p.tag == some tag then { p with data := b, tag := none } else p }) cn got

/-- A refusal of a command's read or claim: the command ends with the status once nothing more is placed. -/
def cmdRefused (s : State) (cn : Nat) (x : Cmd) (tag code : Nat) : State :=
  if x.op = 0x0A && x.prog.getD 2 0 = 1 && x.waits.contains tag then
    modCmd s cn x.id fun y => { y with code := code, prog := y.prog.set 2 0, waits := [] }
  else if x.pieces.any fun p => p.tag == some tag then
    -- what had come for other pieces counted in PBC, and will not be written (R107)
    modCmd (pbcDone s cn (x.pieces.filter fun p => p.tag.isNone)) cn x.id fun y => { y with code := code, pieces := [] }
  else addAnswered s cn x tag (code == 0x0A)

/-- The wait that a poll serves (R109): address, threshold, time-out, guard, trap choice. -/
def pollWait (s : State) (q : Pend) : Option (Word × Nat × Nat × Nat × Bool) :=
  let c := coreAt s q.core
  match c.q.hold with
  | .counter false _ _ va (.far ..) v tmo _ g tr _ _ _ => if c.q.seq = q.ref then some (va, v, tmo, g, tr) else none
  | _ => none

/-- What a read of a dependence's counter brought: word + 1, or 0 where it was refused (R344). -/
def depSeen (s : State) (q : Pend) (v : Nat) : State :=
  if q.core = 0 then s else modQ s q.ref fun x => { x with head := x.head.map fun r => { r with seen := spSet r.seen (q.core - 1) v } }

/-- A reply with no refusal reaches what waited (R380). -/
def answered (s : State) (p : Packet) (q : Pend) : State :=
  let s := dropTag s p.tag
  let word : Word := BitVec.ofNat 64 (leNat p.data)
  match q.what with
  | 0 => gReply s q.core p.tag p.data
  | 1 => writeAcked s q.core p.tag
  | 2 => match cmdById s q.core q.ref with
    | some x => if p.op = 0x21 then cmdData s q.core x p.tag p.data else addAnswered s q.core x p.tag false
    | none => s
  | 3 => rowAcked s q.core p.tag
  | 4 => match cmdById s q.core q.ref with
    | some x => counterReply s q.core x (if p.op = 0x21 then some word else none) 0
    | none => s
  | 5 => match pollWait s q with
    | some (_, v, tmo, g, tr) =>
      -- a wait with a time-out of 0 checks once (R108)
      if tmo = 0 && !word.getLsbD 63 && !ctrReached word v then endWait s q.core false g else seeWait s q.core word v g tr
    | none => s
  | 6 => match q.orig with
    | none => s
    | some o => match keyCheck s o.key 0 (if o.op = 1 then rW else rR) o.addr (if o.op = 1 then o.data.length else o.len) with
      | some (asid, va) =>
        if o.op = 1 then writeNext s o asid va
        else if o.op = 2 then readOn (o.len + 1) s { o with data := o.data ++ p.data } asid va
        else sendRsp s (respond s o p.op p.aux p.data)
      | none => if o.op ≤ 2 then refuse (if o.op = 1 then forwarded s o false else s) o 0x04 0x0C 0 else sendRsp s (respond s o p.op p.aux p.data)
  | 9 => depSeen s q (word.toNat + 1)
  | 10 => watchSeen s q (word.toNat + 1)
  | _ => s

/-- ACKPL: arrival `i` says that a write or counter operation has been placed. -/
def execAckpl (i : Nat) (s : State) : Ans := onResponse s i 0x20 (fun s _ => s) answered

/-- DATA: arrival `i` brings what a read, atomic, poll or versioned load asked for. -/
def execData (i : Nat) (s : State) : Ans := onResponse s i 0x21 (fun s _ => s) answered

/-- The cause an issuer reports for a refusal (R263, R367, R383): the one a packet names where the table of R367 has it. -/
def nackCause (p : Packet) : Nat :=
  let c := bits p.aux 15 8
  if 0 < c && c < 0x20 then c else match bits p.aux 7 0 with
  | 3 => 0x0B
  | 5 => 0x0D
  | 0x0A => 0x0F
  | _ => 0x0C

/-- A contribution's reply finds its command still waiting. -/
def redCmd (s : State) (q : Pend) : Option Cmd :=
  match cmdById s q.core q.ref with
  | some x => if x.op = 7 && x.started && x.drop = 0 then some x else none
  | none => none

/-- A refusal reaches what waited. A refused write is never acknowledged as placed (R107); RETRY starts a contributor's back-off (R386). -/
def refused (s : State) (p : Packet) (q : Pend) : State :=
  let code := bits p.aux 7 0
  let cause := nackCause p
  let detail := bits p.aux 23 16
  if q.what = 7 then
    match redCmd s q with
    | none => hubCount s 2007 1
    | some x =>
      if code = 0xFF then
        if x.prog.getD 2 0 != 0 then s
        else modCmd s q.core x.id fun y => { y with prog := y.prog.set 2 (s.dev + nsDev (1000 * y.prog.getD 3 1)) }
      else modCmd (dropTag s p.tag) q.core x.id fun y => { y with code := code, drop := 1, waits := [] }
  else
    let s := dropTag s p.tag
    match q.what with
    | 0 => gRefused s q.core p.tag cause detail
    | 1 => writeLost s q.core p.tag
    | 3 => rowLost s q.core p.tag
    | 2 => match cmdById s q.core q.ref with
      | some x => cmdRefused s q.core x p.tag code
      | none => s
    | 4 => match cmdById s q.core q.ref with
      | some x => counterReply s q.core x none (if cause = 0x0F then 0x0F else 0x0C)
      | none => s
    | 5 => match pollWait s q with
      | some (va, _, _, _, _) => waitFault s q.core cause detail va
      | none => s
    | 6 => match q.orig with
      | some o => sendRsp (if o.op = 1 then forwarded s o false else s) (respond s o 0x24 p.aux [])
      | none => s
    | 9 => depSeen s q 0
    | 10 => watchSeen s q 0
    | _ => s

/-- NACK: arrival `i` refuses a request, or asks for a retry. One of a contribution whose command has ended is counted (R390, log 21). -/
def execNack (i : Nat) (s : State) : Ans := onResponse s i 0x24 (fun s p => if bit p.aux 25 then hubCount s 2007 1 else s) refused

/-- Bytes of a reduction's reply go to DST (R277): all of them taken, nothing more is awaited. `code` is the status they bring. -/
def redReply (code off : Nat) (s : State) (p : Packet) (q : Pend) : State :=
  match redCmd s q with
  | none => hubCount s 2007 1
  | some x =>
    let n := 4 * bits x.len 13 0
    let b := p.data.take (n - off)
    let ps := (piecesOf s q.core x.dk x.dst off b none).map fun p =>
      { p with gen := ((x.gens.find? fun (k, h, _) => k == p.core && h == p.h).map fun y => y.2.2).getD p.gen }
    let got := x.prog.getD 4 0 + b.length
    let s := pbcPieces s q.core ps
    let s := modCmd s q.core x.id fun y =>
      { y with code := code, pieces := y.pieces ++ ps, prog := y.prog.set 4 got, drop := if got ≥ n then 1 else 0, waits := if got ≥ n then [] else y.waits,
               count := if code = 6 then y.count + b.length else y.count }
    if got ≥ n then dropTag s p.tag else s

/-- RESULT: arrival `i` brings elements of a completed reduction, from the first element in ADDR on. -/
def execResult (i : Nat) (s : State) : Ans :=
  onResponse s i 0x22 (fun s _ => hubCount s 2007 1) fun s p q =>
    match redCmd s q with
    | some x => redReply 0 (p.addr * redElem (bits x.red 6 5)) s p q
    | none => hubCount s 2007 1

/-- PARTIAL: arrival `i` brings bytes of the missing bitmap, from the byte in ADDR on. -/
def execPartialRelease (i : Nat) (s : State) : Ans := onResponse s i 0x23 (fun s _ => hubCount s 2007 1) fun s p q => redReply 6 p.addr s p q

end Sys2Proof.Machine
end

