-- ==== Sys2Proof/Machine/Reduce.lean ====
section
/-! DEFINITION. Machine/Reduce: groups and combining entries (spec/21, R384 to R390): contributions checked and taken, results formed,
releases. -/

namespace Sys2Proof.Machine

def gtabEntry (s : State) (g : Nat) : Nat := (barRd s 0x00030018).toNat + 32 * g

def groupAt (s : State) (g : Nat) : Option Group := spFind s.hub.groups g

/-- FAB_MAXLAT in units of device time. -/
def maxLat (s : State) : Nat := nsDev (1000 * bits (barRd s 0x00030008).toNat 31 0)

/-- Word 3 of a group's entry: SEQHI and CLOSED, which the device keeps (R384). -/
def putClosed (s : State) (g : Nat) (hi : Nat) (c : BitVec 48) : State :=
  let s := modHub s fun h => { h with groups := match spFind h.groups g with
    | some x => spSet h.groups g { x with seqhi := hi, closed := c }
    | none => h.groups }
  memSetNat s (gtabEntry s g + 24) 8 (hi * 2 ^ 48 + c.toNat)

/-! ## Sequence numbers (R387) -/

/-- How far a SEQ lies below SEQHI, modulo 2^16. -/
def seqBelow (x : Group) (seq : Nat) : Nat := (x.seqhi + 65536 - seq % 65536) % 65536

def seqClosed (x : Group) (seq : Nat) : Bool :=
  let d := seqBelow x seq
  (48 ≤ d && d ≤ 32768) || (d < 48 && x.closed.getLsbD d)

/-- Closes a SEQ. -/
def closeSeq (s : State) (g seq : Nat) : State :=
  match groupAt s g with
  | none => s
  | some x =>
    let d := seqBelow x seq
    if d > 32768 then
      let up := 65536 - d
      putClosed s g (seq % 65536) ((if up ≥ 48 then 0 else x.closed <<< up) ||| 1)
    else if d < 48 then putClosed s g x.seqhi (x.closed ||| (1#48 <<< d))
    else s

/-! ## Replies -/

/-- Sends bytes of a reply to a contributor, 4,096 at a time; ADDR tells where they begin, in units of `unit` bytes. -/
def redAnswer (s : State) (op unit : Nat) (pkg tag ggen : Nat) (b : List Byte) : State :=
  (upTo ((b.length + 4095) / 4096)).foldl (fun s k =>
    let d := slice b (4096 * k) 4096
    sendRsp s { dpkg := pkg, spkg := pkgNo s, lane := 0, hop := 0, rsp := true, op := op, len := d.length, key := 0, addr := 4096 * k / unit, tag := tag,
                ggen := ggen, aux := 0, pre := [], data := d, port := 999 }) s

/-- The missing bitmap (R277), padded or cut to `n` bytes: bit k set where contributor k is not among those named; `all` sets every
contributor's bit. -/
def missing (nmem n : Nat) (got : List Nat) (all : Bool) : List Byte :=
  (upTo n).map fun i => BitVec.ofNat 8 (((upTo 8).filter fun j => 8 * i + j < nmem && (all || !got.contains (8 * i + j))).map fun j => 2 ^ j).sum

/-! ## Open reductions -/

/-- Form of an open reduction: element, mode, operation, saturating, length in 4-byte units, contributors. -/
def Red.el (r : Red) : Nat := r.form.getD 0 0
def Red.mode (r : Red) : Nat := r.form.getD 1 0
def Red.op (r : Red) : Nat := r.form.getD 2 0
def Red.sat (r : Red) : Bool := r.form.getD 3 0 == 1
def Red.bytes (r : Red) : Nat := 4 * r.form.getD 4 0
def Red.n (r : Red) : Nat := r.form.getD 5 0
def Red.es (r : Red) : Nat := redElem r.el
def Red.elems (r : Red) : Nat := r.bytes / r.es

/-- Combining entries a reduction of a length takes (R386). -/
def entriesOf (el units : Nat) : Nat := (4 * units / redElem el + 1023) / 1024

/-- Entries in use. -/
def entriesUsed (s : State) : Nat := (s.hub.reds.map fun r => entriesOf r.el (r.form.getD 4 0)).sum

/-- Elements of a contributor that have arrived. -/
def Red.have_ (r : Red) (k : Nat) : Nat := ((r.parts.filter fun p => p.1 == k).map fun p => p.2.2.length / r.es).sum

/-- Contributors of whom every element has arrived. -/
def Red.arrived (r : Red) : List Nat := (r.who.map fun w => w.1).filter fun k => r.have_ k == r.elems

/-- Values of element `i`, in the order the contributions were taken, each with its contributor. -/
def Red.values (r : Red) (i : Nat) : List (Nat × Nat) :=
  r.parts.filterMap fun (k, first, b) =>
    if first ≤ i && i < first + b.length / r.es then some (k, leNat (slice b (r.es * (i - first)) r.es)) else none

/-- The values in the order of their contributors. -/
def byIndex (n : Nat) (l : List (Nat × Nat)) : List Nat := (upTo n).filterMap fun k => (l.find? fun x => x.1 == k).map Prod.snd

/-- A partial sum in FP32, or the cause of a NaN (R91, R92). -/
def redIn (f : FpFmt) (v : Nat) : Nat ⊕ Nat := if (fpRead f v).isNan then .inl 1 else .inr (fpConvert f fp32 .ne 0 v).1

/-- A root in the element format. -/
def redOut (f : FpFmt) : Nat ⊕ Nat → Nat
  | .inl c => nanPat f c
  | .inr v => (fpConvert fp32 f .ne 0 v).1

/-- The exact sum of FP32 values, rounded once (R388, EXACT). -/
def exactSum (l : List Nat) : Nat :=
  let vs := l.map (fpRead fp32)
  if vs.any FpVal.isNan then nanPat fp32 1
  else if vs.contains (.inf false) && vs.contains (.inf true) then nanPat fp32 3
  else if vs.contains (.inf false) then infPat fp32 false
  else if vs.contains (.inf true) then infPat fp32 true
  else
    let t : Int := (vs.map fun v => match v with | .fin n m e => (if n then -1 else 1) * ((m * 2 ^ (e + 149).toNat : Nat) : Int) | _ => 0).sum
    if t = 0 then (if l.all (· == 0x80000000) then 0x80000000 else 0)
    else (fpWrite fp32 .ne 0 (.fin (decide (t < 0)) t.natAbs (-149) false)).pat

/-- Folds a list that is not empty. -/
def foldFirst {α : Type} (op : α → α → α) (d : α) : List α → α
  | [] => d
  | x :: l => l.foldl op x

/-- A NaN of an arithmetic result: one contribution passes through the reduction as an operand does (R72, R388). -/
def nanOut (f : FpFmt) (v : Nat) : Nat := if (fpRead f v).isNan then nanPat f 1 else v

/-- Element `i` of the result (R388). -/
def Red.result (r : Red) (i : Nat) : Nat :=
  let taken := r.values i
  let l := byIndex r.n taken
  let f := if r.el = 1 then bf16 else fp32
  if r.el ≤ 1 then
    if r.op = 1 then nanOut f (foldFirst (fpMinMax f true) 0 l)
    else if r.op = 2 then nanOut f (foldFirst (fpMinMax f false) 0 l)
    else if r.mode = 2 then exactSum l
    else if r.mode = 1 then redOut f (foldFirst redAdd (.inr 0) (taken.map fun x => redIn f x.2))
    else redOut f ((treeOf redAdd 32 (l.map (redIn f))).headD (.inr 0))
  else
    let w := 8 * r.es
    let vs := l.map (sextN w)
    let v : Int := if r.op = 1 then foldFirst max 0 vs else if r.op = 2 then foldFirst min 0 vs else vs.sum
    toPat w (if r.op = 0 && r.sat then satI v (-(2 ^ (w - 1))) (2 ^ (w - 1) - 1) else v)

/-- The whole result. -/
def Red.bytesOut (r : Red) : List Byte := ((upTo r.elems).map fun i => toBytes (r.result i) r.es).flatten

def dropRed (s : State) (r : Red) : State :=
  modHub s fun h => { h with reds := h.reds.filter fun x => !(x.group == r.group && x.ggen == r.ggen && x.seq == r.seq) }

/-- Release (R390): PARTIAL to every contributor that has arrived, the entries freed, the SEQ closed. -/
def releaseRed (s : State) (r : Red) (all : Bool) : State :=
  let s := closeSeq (dropRed s r) r.group r.seq
  let got := r.arrived
  let b := missing r.n r.bytes got all
  (r.who.filter fun w => got.contains w.1).foldl (fun s (_, pkg, tag) => redAnswer s 0x23 1 pkg tag r.ggen b) s

/-- A reduction that all contributors have reached completes (R389). -/
def completeRed (s : State) (r : Red) : State :=
  let s := closeSeq (dropRed s r) r.group r.seq
  let b := r.bytesOut
  r.who.foldl (fun s (_, pkg, tag) => redAnswer s 0x22 r.es pkg tag r.ggen b) s

/-! ## RED -/

/-- MEMBERS[k] of a group. -/
def memberOf (s : State) (x : Group) (k : Nat) : Nat := memNat s (x.members + 2 * k) 2 % 16384

/-- Names of a combining packet (log 21). -/
def redGroup (p : Packet) : Nat := bits p.addr 43 32
def redFirst (p : Packet) : Nat := bits p.addr 31 0
def redSeq (p : Packet) : Nat := bits p.aux 15 0
def redForm (p : Packet) : List Nat :=
  [bits p.aux 22 21, bits p.aux 20 19, bits p.aux 18 17, bits p.aux 16 16, p.pre.getD 2 0, p.pre.getD 1 0]

/-- Takes a contribution's packet into an open reduction (R387). -/
def takePart (s : State) (r : Red) (p : Packet) : State :=
  let k := p.pre.getD 0 0
  let r := { r with parts := r.parts ++ [(k, redFirst p, p.data)], who := if r.who.any (fun w => w.1 == k) then r.who else r.who ++ [(k, p.spkg, p.tag)] }
  let s := modHub s fun h => { h with reds := h.reds.map fun x => if x.group = r.group && x.ggen = r.ggen && x.seq = r.seq then r else x }
  if (upTo r.n).all fun k => r.have_ k == r.elems then completeRed s r else s

/-- Candidates of an ARRIVAL reduction: contributions among the arrivals, by index modulo 16 (R424). -/
def redCands (s : State) (p : Packet) : Nat :=
  let l := (s.hub.rx.filter fun q => q.op == 6 && !q.rsp && redGroup q == redGroup p && q.ggen == p.ggen && redSeq q == redSeq p).map fun q => q.pre.getD 0 0 % 16
  ((upTo 16).filter fun i => l.contains i).map (2 ^ ·) |>.sum

/-- A NACK of a contribution says that it is one, in AUX[25] (log 21). -/
def redNack (s : State) (p : Packet) (code : Nat) : State := sendRsp s (respond s p 0x24 (code + 2 ^ 25) [])

/-- RED: arrival `i`, a contribution, is checked in the order of R387 and taken. -/
def execRed (i : Nat) (s : State) : Ans :=
  onRequest s i 6 fun s p =>
    let out := rxTake s i
    let g := redGroup p
    let k := p.pre.getD 0 0
    let fm := redForm p
    let es := redElem (fm.getD 0 0)
    match groupAt s g with
    | none => hubCount out 2003 1
    | some x =>
      if !x.valid || x.gen != p.ggen then hubCount out 2003 1
      else if k ≥ x.nmem || memberOf s x k != p.spkg || p.pre.getD 1 0 != x.nmem then hubCount out 2004 1
      else if seqClosed x (redSeq p) then redAnswer out 0x23 1 p.spkg p.tag p.ggen (missing x.nmem (4 * fm.getD 4 0) [] true)
      else
        let open_ := s.hub.reds.find? fun r => r.group == g && r.ggen == p.ggen && r.seq == redSeq p
        let fits := p.data.length % es == 0 && redFirst p * es + p.data.length ≤ 4 * fm.getD 4 0
        if (match open_ with | some r => r.form != fm | none => false) || !fits then redNack out p 0x01
        else if (match open_ with
            | some r => r.parts.any fun (c, f, b) => c == k && f < redFirst p + p.data.length / es && redFirst p < f + b.length / es
            | none => false) then hubCount out 2005 1
        else
          let need := if open_.isSome then 0 else entriesOf (fm.getD 0 0) (fm.getD 4 0)
          if entriesUsed s + need > 8192 then redNack (hubCount out 2008 1) p 0xFF
          else
            -- the arbiter of an ARRIVAL floating reduction may be recorded or replayed (R424)
            let (go, s) := if fm.getD 1 0 = 1 && fm.getD 0 0 ≤ 1 then rplGate s x.asid (0x3000 + g) (redCands s p) (k % 16) else (true, s)
            if !go then s else
            let s := rxTake s i
            match open_ with
            | some r => takePart s r p
            | none =>
              let r : Red := ⟨g, p.ggen, redSeq p, fm, [], [], s.dev, false⟩
              takePart (modHub s fun h => { h with reds := h.reds ++ [r] }) r p

/-- On replay, an open ARRIVAL reduction waits for the contributors that its next entry names from the moment it is their turn, also where none
of them comes (R425). -/
def rplWatch (s : State) : State :=
  if rplMode s != 2 || s.rpl.parted then s else
  s.hub.reds.foldl (fun s r =>
    let arb := 0x3000 + r.group
    if !(r.form.getD 1 0 = 1 && r.form.getD 0 0 ≤ 1 && (groupAt s r.group).any fun x => x.asid == rplAsid s) || s.rpl.waiting.any (fun x => x.1 == arb) then s
    else match rplEntry s arb with | some (m, _) => rplWait s arb m 0 | none => s) s

/-- REREQ: arrival `i` asks this package for a contribution again; a matching `rred` that has not completed sends it (R390). -/
def execRereq (i : Nat) (s : State) : Ans :=
  onRequest s i 7 fun s p =>
    let s := rxTake s i
    s.cores.foldl (fun s (n, _) =>
      match (coreAt s n).f.cmds.find? fun x => x.op == 7 && x.started && x.drop == 0 && !x.prog.isEmpty && bits x.len 47 34 == p.spkg &&
          bits x.len 33 22 == redGroup p && bits x.len 21 14 == p.ggen && bits x.len 63 48 == redSeq p && bits x.aux 31 0 == bits p.addr 31 0 with
      | none => s
      | some x => rredAgain s n x) s

/-! ## Time-outs and errors (R390) -/

/-- PTMO of a reduction's group in units of device time. -/
def ptmoOf (s : State) (r : Red) : Nat := match groupAt s r.group with | some x => nsDev (1000 * x.ptmo) | none => 0

/-- PTMO_EXPIRY: open reduction `i` has been open for PTMO and is released. -/
def execPtmoExpiry (i : Nat) (s : State) : Ans :=
  match s.hub.reds[i]? with
  | some r => if s.dev ≥ r.t0 + ptmoOf s r then .next (releaseRed s r false) else .next s
  | none => .next s

/-- PTMO_HALF_REREQ: at half of PTMO, one REREQ goes to the package of each contributor of open reduction `i` that has not arrived. -/
def execPtmoHalfRereq (i : Nat) (s : State) : Ans :=
  match s.hub.reds[i]? with
  | none => .next s
  | some r =>
    if r.asked || s.dev < r.t0 + ptmoOf s r / 2 then .next s else
    match groupAt s r.group with
    | none => .next s
    | some x =>
      let s := modHub s fun h => { h with reds := setAt h.reds i { r with asked := true } }
      let got := r.arrived
      .next (((upTo r.n).filter fun k => !got.contains k).foldl (fun s k =>
        hubSend s { dpkg := memberOf s x k, spkg := pkgNo s, lane := 0, hop := 0, rsp := false, op := 0x07, len := 1, key := 0, addr := r.group * 2 ^ 32 + k,
                    tag := 0, ggen := r.ggen, aux := r.seq, pre := [], data := [], port := 999 }) s)

/-- COMBINING_UNCORRECTABLE: an entry of open reduction `i` fails; it is released at once, with every bitmap bit set, and counted. -/
def execCombiningUncorrectable (i : Nat) (s : State) : Ans :=
  match s.hub.reds[i]? with
  | some r => .next (releaseRed (hubCount s 2006 1) r true)
  | none => .next s

/-! ## Group commands (R385) -/

/-- A group command ends: the function that owns the group's ASID is told. -/
def groupDone (s : State) (op g asid r : Nat) : State := cmdDone s hubSts asid op g r

/-- Accepts the group entry the driver has written, unless an entry of `g` is open or a changed GEN comes too soon. -/
def grpSet (g : Nat) (s : State) : State :=
  if g ≥ 4096 then groupDone s 2 g 0 1 else
  let a := gtabEntry s g
  let w := memNat s a 8
  let early : Bool := match groupAt s g with | some x => x.gen != bits w 62 55 && s.dev < x.genAt + 2 * maxLat s | none => false
  if early || s.hub.reds.any (fun r => r.group == g) then groupDone s 2 g (bits w 54 41) 2 else
  let x : Group := ⟨bit w 63, bits w 62 55, bits w 54 41, bits w 40 21, bits (memNat s (a + 8) 8) 38 0, bits (memNat s (a + 16) 8) 31 0, s.dev, 0, 0⟩
  let s := putClosed (modHub s fun h => { h with groups := spSet h.groups g x }) g 0 0
  groupDone s 2 g x.asid 0

/-- GRP_SET *g*. -/
def execGrpSet (g : Nat) (s : State) : Ans := .next (hubCmd s 2 g (grpSet g))

/-- Releases the open reductions of `g`, then clears VALID. -/
def grpClear (g : Nat) (s : State) : State :=
  if g ≥ 4096 then groupDone s 3 g 0 1 else
  let s := (s.hub.reds.filter fun r => r.group == g).foldl (fun s r => releaseRed s r false) s
  let a := gtabEntry s g
  let w := memNat s a 8
  let s := memSetNat s a 8 (w % 2 ^ 63)
  let s := modHub s fun h => { h with groups := match spFind h.groups g with
    | some x => spSet h.groups g { x with valid := false, genAt := s.dev }
    | none => h.groups }
  groupDone s 3 g (bits w 54 41) 0

/-- GRP_CLEAR *g*. -/
def execGrpClear (g : Nat) (s : State) : Ans := .next (hubCmd s 3 g (grpClear g))

/-- The hub carries out the command it has taken, where nothing else is to come first (R371, log 2); an OP that is reserved ends with RESULT 0x01. -/
def hubRun (s : State) : State :=
  match s.hub.cmd with
  | some (op, t) =>
    if !s.agenda.isEmpty then s else
    let s := hubBusy s none
    if op = 1 then routeWr t s else if op = 2 then grpSet t s else if op = 3 then grpClear t s else if op = 4 then trunkTrain t s else hubDone s op t 1
  | none => s

end Sys2Proof.Machine
end

