-- ==== Sys2Proof/Machine/Security.lean ====
section
/-! DEFINITION. Machine/Security: boot and identity, SPDM, IDE, TDISP, key slots, the command block of a VF (spec/23, R398 to R411). Messages
whose formats other standards give are taken at the level of what they do to the part; their bytes are free values (log 13). -/

namespace Sys2Proof.Machine

def natBytes (b : List Nat) : List Byte := b.map (BitVec.ofNat 8)
def byteNats (b : List Byte) : List Nat := b.map BitVec.toNat

def modSec (s : State) (f : Sec → Sec) : State := { s with sec := f s.sec }

/-! ## Boot (R398, R399, R401) -/

/-- Digest of the vendor root key, in fuses. -/
def vendorRoot : List Nat := byteNats (Config.messageBytes 99 [])

/-- Security version, signature and public key of an image, and what is signed (log 13). -/
def imgSvn (b : List Nat) : Nat := leNat (natBytes (b.take 4))
def imgSig (b : List Nat) : List Nat := (b.drop 4).take 64
def imgKey (b : List Nat) : List Nat := (b.drop 68).take 32
def imgSigned (b : List Nat) : List Nat := b.take 4 ++ b.drop 68

/-- Whether the boot ROM runs image `k`: its signature, its key, its security version (R398). -/
def imgOk (s : State) (k : Nat) (b : List Nat) : Bool :=
  100 ≤ b.length && Config.signatureOk (beNat (imgKey b)) (natBytes (sha512 (imgSigned b))) (natBytes (imgSig b)) &&
  sha512 (imgKey b) == vendorRoot && spGet 0 s.sec.minSvn k ≤ imgSvn b

/-- Whether all four images run. -/
def bootOk (s : State) (fw : List (List Nat)) : Bool := fw.length == 4 && (upTo 4).all fun k => imgOk s k (fw.getD k [])

/-- A digest as a measurement. -/
def digestOf (b : List Nat) : BitVec 512 := BitVec.ofNat 512 (beNat (sha512 b))

/-- m1 to m5 (R401). -/
def bootMeas (s : State) (fw : List (List Nat)) : List (BitVec 512) :=
  let im := fun (k : Nat) => fw.getD k []
  [digestOf (byteNats (Config.messageBytes 98 [])), digestOf (im 0), digestOf (im 1 ++ im 2 ++ im 3),
   digestOf (((upTo 4).flatMap fun k => byteNats (toBytes (spGet 0 s.sec.minSvn k) 4)) ++ [if s.sec.dbgFuse then 1 else 0]),
   digestOf (0xB1 :: byteNats (toBytes (bits s.flashPkg.toNat 13 0) 2))]

/-- The package right after reset (R398, R371): registers, cores, hub, scheduler and key slots begin again. Fuses, the package's flash and
HBM keep what they hold (log 14). Firmware that runs may have the minimum security versions raised, never lowered: the measurements are of
those that stood at the boot (R401). -/
def booted (s : State) (fw : List (List Nat)) : State :=
  let svn := if bootOk s fw then (upTo 4).map fun k => (k, max (spGet 0 s.sec.minSvn k) (Config.svnRaise k (spGet 0 s.sec.minSvn k))) else s.sec.minSvn
  let r : State := { State.reset with
    agenda := s.agenda, mem := s.mem, bad := s.bad, soft := s.soft, flashPkg := s.flashPkg, fresh := s.fresh,
    sec := { Sec.reset with minSvn := svn, dbgFuse := s.sec.dbgFuse, owner := s.sec.owner, recovery := !bootOk s fw,
                            meas := if bootOk s fw then bootMeas s fw else [] } }
  if s.flashPkg = 0 then r else barWr r 0x00030000 s.flashPkg

/-- PACKAGE_RESET: the package is reset and boots the four images, or stays in recovery. -/
def execPackageReset (fw : List (List Nat)) (s : State) : Ans := .next (booted s fw)

/-- RECOVERY_IMAGE: in recovery a new signed image of kind `k` is offered; the package boots once all four images pass (R398). -/
def execRecoveryImage (k : Nat) (img : List (List Nat)) (s : State) : Ans :=
  .next (if s.sec.recovery && k < 4 && imgOk s k (img.getD k []) && bootOk s img then booted s img else s)

/-- The fused unique secret U. -/
def uniqueSecret : List Nat := beBytes (Config.secret 0 0).toNat 32

/-- Private seed of the device root key (R399): HMAC-SHA-512(U, "OCETH-ROOT")[0:32]. -/
def rootSeed : List Nat := (hmac512 uniqueSecret [0x4F, 0x43, 0x45, 0x54, 0x48, 0x2D, 0x52, 0x4F, 0x4F, 0x54]).take 32

/-- M: the digest of the five measurements. -/
def measDigest (s : State) : List Nat := sha512 (s.sec.meas.flatMap fun m => beBytes m.toNat 64)

/-- Private seed of the identity key (R399): HMAC-SHA-512(U, "OCETH-ID" ‖ M)[0:32]. -/
def idSeed (s : State) : List Nat := (hmac512 uniqueSecret ([0x4F, 0x43, 0x45, 0x54, 0x48, 0x2D, 0x49, 0x44] ++ measDigest s)).take 32

/-- A signature with the identity key. -/
def idSign (s : State) (b : List Byte) : List Byte := Config.signature (beNat (idSeed s)) b

/-! ## SPDM (R400) -/

/-- A response in a function's mailbox. -/
def answer (s : State) (f code : Nat) (b : List Byte) : State := modSec s fun x => { x with doe := (f, code, b) :: x.doe }

/-- Connection state of a function: 0 none, 1 version, 2 capabilities, 3 algorithms agreed, 4 a session's handshake under way, 5 a
secured session. -/
def spdmState (s : State) (f : Nat) : Nat := spGet 0 s.sec.spdm f

/-- Error responses of SPDM: an unexpected request, an unsupported one, one that does not decrypt (log 13). -/
def spdmError (s : State) (f code : Nat) : State := answer s f 0x7F [BitVec.ofNat 8 code, 0]

/-- A request taken in the states `lo` to `hi`: the response, and the state it leaves. -/
def spdmReq (s : State) (f lo hi code next : Nat) (b : List Byte) : Ans :=
  if s.sec.recovery || f > 64 then .next s
  else if lo ≤ spdmState s f && spdmState s f ≤ hi then
    .next (modSec (answer s f code b) fun x => { x with spdm := spSet x.spdm f next })
  else .next (spdmError s f 0x04)

/-- The certificate chain of slot 0: the identity certificate, which binds M and which the device root key signs at each boot, the device
root certificate and the Svamal root (R399, R400). -/
def certChain (s : State) : List Byte :=
  let id := Config.messageBytes 0x82 (natBytes (measDigest s))
  id ++ Config.signature (beNat rootSeed) id ++ Config.messageBytes 97 []

/-- The measurement blocks (R401): index, DMTF type, digest. -/
def measBlocks (s : State) : List Byte :=
  (s.sec.meas.zipIdx.map fun (m, i) =>
    natBytes ([i + 1, 1] ++ [67, 0] ++ [[0, 1, 1, 3, 2].getD i 0, 64, 0] ++ beBytes m.toNat 64)).flatten

/-- GET_VERSION: SPDM 1.3; a connection begins again. -/
def execGetVersion (f : Nat) (_b : List Nat) (s : State) : Ans := spdmReq s f 0 5 0x04 1 [0, 1, 0, 0x13]
/-- GET_CAPABILITIES. -/
def execGetCapabilities (f : Nat) (b : List Nat) (s : State) : Ans := spdmReq s f 1 2 0x61 2 (Config.messageBytes 0xE1 (natBytes b))
/-- NEGOTIATE_ALGORITHMS: Ed25519, SHA-512, secp384r1, AES-256-GCM. -/
def execNegotiateAlgorithms (f : Nat) (b : List Nat) (s : State) : Ans := spdmReq s f 2 3 0x63 3 (Config.messageBytes 0xE3 (natBytes b))
/-- GET_DIGESTS: the digest of slot 0's chain. -/
def execGetDigests (f : Nat) (_b : List Nat) (s : State) : Ans := spdmReq s f 3 5 0x01 (spdmState s f) (natBytes (1 :: sha512 (byteNats (certChain s))))
/-- GET_CERTIFICATE: slot 0's chain. -/
def execGetCertificate (f : Nat) (b : List Nat) (s : State) : Ans :=
  if b.headD 0 % 16 = 0 then spdmReq s f 3 5 0x02 (spdmState s f) (certChain s) else spdmReq s f 3 5 0x7F (spdmState s f) [1, 0]
/-- CHALLENGE: signed with the identity key. -/
def execChallenge (f : Nat) (b : List Nat) (s : State) : Ans :=
  spdmReq s f 3 5 0x03 (spdmState s f) (let m := natBytes (sha512 (byteNats (certChain s))); m ++ idSign s (natBytes b ++ m))
/-- GET_MEASUREMENTS: the five blocks, signed with the identity key. -/
def execGetMeasurements (f : Nat) (b : List Nat) (s : State) : Ans :=
  spdmReq s f 3 5 0x60 (spdmState s f) (measBlocks s ++ idSign s (natBytes b ++ measBlocks s))
/-- KEY_EXCHANGE: a session's handshake begins. -/
def execKeyExchange (f : Nat) (b : List Nat) (s : State) : Ans :=
  spdmReq s f 3 3 0x64 4 (let m := Config.messageBytes 0xE4 (natBytes b); m ++ idSign s (natBytes b ++ m))
/-- FINISH: the session is secured where the requester's proof holds. -/
def execFinish (f : Nat) (b : List Nat) (s : State) : Ans :=
  if spdmState s f = 4 && !Config.signatureOk 0xE5 (natBytes b) [] then .next (spdmError s f 0x06)
  else spdmReq s f 4 4 0x65 5 (Config.messageBytes 0xE5 (natBytes b))
/-- HEARTBEAT. -/
def execHeartbeat (f : Nat) (_b : List Nat) (s : State) : Ans := spdmReq s f 5 5 0x68 5 []
/-- KEY_UPDATE: the session goes on under new keys. -/
def execKeyUpdate (f : Nat) (b : List Nat) (s : State) : Ans := spdmReq s f 5 5 0x69 5 (natBytes (b.take 2))
/-- END_SESSION. -/
def execEndSession (f : Nat) (_b : List Nat) (s : State) : Ans := spdmReq s f 5 5 0x6C 3 []
/-- Any other request receives the error UnsupportedRequest (R400). -/
def execUnsupportedRequest (f : Nat) (_b : List Nat) (s : State) : Ans := if s.sec.recovery || f > 64 then .next s else .next (spdmError s f 0x07)

/-! ## Key slots (R405, R406) -/

/-- A request of R406: OP, DIE, SLOT, ASID, zeros, SALT, KEY. Its response is one status byte. -/
def keyRequest (s : State) (f : Nat) (b : List Nat) (op len : Nat) : Ans :=
  if s.sec.recovery || f > 64 then .next s
  else if spdmState s f != 5 then .next (spdmError s f 0x04) else
  let bs := natBytes b
  let die := b.getD 1 0
  let slot := leNat (slice bs 2 2)
  let asid := leNat (slice bs 4 2)
  let old := spGet ⟨false, 0, 0, 0, 0⟩ s.sec.slots (1024 * die + slot)
  let say := fun (s : State) (st : Nat) => Host.Outcome.next (answer s f 0x7E [BitVec.ofNat 8 st])
  if b.headD 0 != op || b.length < len || die > 3 || slot > 1023 || asid > 16383 || leNat (slice bs 6 2) != 0 then say s 0x01
  else if spGet 0 s.sec.tdi f != 2 || !(lockedOf s f).contains asid then say s 0x02
  else if old.valid && old.asid != asid then say s 0x03
  else
    let new : KeySlot := if op = 1 then ⟨true, asid, BitVec.ofNat 256 (beNat ((b.drop 12).take 32)), BitVec.ofNat 32 (leNat (slice bs 8 4)), 0⟩
                         else { old with valid := false }
    say (modSec s fun x => { x with slots := spSet x.slots (1024 * die + slot) new }) 0x00

/-- KEY_PROG: writes every field of a slot and sets LASTCTR to 0. -/
def execKeyProg (f : Nat) (b : List Nat) (s : State) : Ans := keyRequest s f b 1 44
/-- KEY_ERASE: clears VALID. -/
def execKeyErase (f : Nat) (b : List Nat) (s : State) : Ans := keyRequest s f b 2 8

/-! ## IDE and TDISP (R402, R403) -/

/-- IDE_KM: programs the key of a function's stream over its secured session. -/
def execIdeKm (f : Nat) (b : List Nat) (s : State) : Ans :=
  if s.sec.recovery || f > 64 then .next s
  else if spdmState s f != 5 then .next (spdmError s f 0x04)
  else .next (modSec (answer s f 0x7E []) fun x =>
    { x with ide := spSet x.ide f (BitVec.ofNat 256 (beNat (b.take 32))), insecure := x.insecure.filter (· != f) })

/-- IDE_INTEGRITY_FAILURE: a TLP of function `f`'s stream fails and is dropped; the stream is insecure, and the TDI goes to ERROR. -/
def execIdeIntegrityFailure (f : Nat) (s : State) : Ans :=
  if s.sec.recovery || f > 64 then .next s else
  .next (tdiError (modSec s fun x => { x with insecure := if x.insecure.contains f then x.insecure else f :: x.insecure }) f)

/-- ASIDs assigned to a function. -/
def ownedBy (s : State) (f : Nat) : List Nat := (s.sec.owner.filter fun (_, g) => g == f).map Prod.fst

/-- A TDISP request to a VF, taken in the states given. -/
def tdispReq (s : State) (f : Nat) (sts : List Nat) (code : Nat) (b : List Byte) (k : State → State) : Ans :=
  if s.sec.recovery || f = 0 || f > 64 then .next s
  else if sts.contains (spGet 0 s.sec.tdi f) then .next (answer (k s) f (0x1000 + code) b)
  else .next (answer s f 0x107F [4])

def setTdi (f st : Nat) (s : State) : State := modSec s fun x => { x with tdi := spSet x.tdi f st }

/-- GET_DEVICE_INTERFACE_STATE. -/
def execGetDeviceInterfaceState (f : Nat) (s : State) : Ans := tdispReq s f [0, 1, 2, 3] 5 [BitVec.ofNat 8 (spGet 0 s.sec.tdi f)] fun s => s
/-- LOCK_INTERFACE_REQUEST: the ASIDs bound to the VF become locked. -/
def execLockInterfaceRequest (f : Nat) (s : State) : Ans :=
  tdispReq s f [0] 3 [] fun s => setTdi f 1 (modSec s fun x => { x with locked := x.locked ++ (ownedBy s f).filter fun a => !x.locked.contains a })
/-- GET_DEVICE_INTERFACE_REPORT: the TDI's doorbells and ASIDs. -/
def execGetDeviceInterfaceReport (f : Nat) (s : State) : Ans :=
  let l := ownedBy s f
  let qs := (s.qs.filter fun (q, x) => x.bound && l.contains (qAsid s q)).map Prod.fst
  tdispReq s f [1, 2] 4 (toBytes qs.length 2 ++ (qs.map fun q => toBytes q 2).flatten ++ toBytes l.length 2 ++ (l.map fun a => toBytes a 2).flatten) fun s => s
/-- START_INTERFACE_REQUEST. -/
def execStartInterfaceRequest (f : Nat) (s : State) : Ans := tdispReq s f [1] 6 [] (setTdi f 2)
/-- STOP_INTERFACE_REQUEST: leaving RUN wipes what R403 names; the ASIDs are no longer locked. -/
def execStopInterfaceRequest (f : Nat) (s : State) : Ans :=
  tdispReq s f [0, 1, 2, 3] 7 [] fun s =>
    let s := if spGet 0 s.sec.tdi f = 2 then tdiWipe s f else s
    setTdi f 0 (modSec s fun x => { x with locked := x.locked.filter fun a => !(lockedOf s f).contains a })

/-! ## The command block of a VF (R404) -/

/-- A register of a VF's BAR0. -/
def vfReg (f off : Nat) : Nat := f * 2 ^ 40 + off
def vfSts (f : Nat) : Nat := vfReg f 8

/-- Whether a command of a VF is under way; a write meanwhile is dropped and sets LOST. -/
def vfBusy (s : State) (f : Nat) : Bool := (barRd s (vfSts f)).getLsbD 63
def vfLost (s : State) (f : Nat) : State := barWr s (vfSts f) (barRd s (vfSts f) ||| (1#64 <<< 62))

/-- A scheduler command of a VF: queue or gang `n` must belong to an ASID assigned to it. -/
def vfSched (s : State) (f a op mode n : Nat) : Ans :=
  if s.sec.recovery || f = 0 || f > 64 then .next s else
  if vfBusy s f then .next (vfLost s f) else
  let has : Bool := if op ≤ 5 then qAsid s n == a && n < 65536 else (match gangAt s n with | some g => g.asid == a | none => false)
  let (r, s) := if ownerOf s a = f && has then schedOp s op mode n else (1, s)
  .next (schedEnd s (vfSts f) a op n r)

/-- What a VF may name in a translation command. -/
def vfNames (s : State) (a op n : Nat) : Bool :=
  if op = 4 then n < 2 ^ 20 && bits (memNat s ((barRd s 0x00020008).toNat + 32 * n) 8) 44 31 == a
  else if op = 6 || op = 7 then n < 1024 && bits (regionWord s n) 254 241 == a
  else true

/-- A translation command of a VF. -/
def vfXlat (s : State) (f a op n : Nat) : Ans :=
  if s.sec.recovery || f = 0 || f > 64 then .next s
  else if vfBusy s f then .next (vfLost s f)
  else if ownerOf s a = f && vfNames s a op n then .next (xlatCmd s (vfSts f) op a n (barRd s (vfReg f 0x10)).toNat)
  else .next (cmdDone s (vfSts f) a (op + 0x10) n 1)

/-- Q_BIND by a VF. -/
def execVfQBind (f a n : Nat) (s : State) : Ans := vfSched s f a 3 0 n
/-- Q_TEARDOWN DRAIN by a VF. -/
def execVfQTeardownDrain (f a n : Nat) (s : State) : Ans := vfSched s f a 4 0 n
/-- Q_TEARDOWN KILL by a VF. -/
def execVfQTeardownKill (f a n : Nat) (s : State) : Ans := vfSched s f a 4 1 n
/-- Q_TEARDOWN FREEZE by a VF. -/
def execVfQTeardownFreeze (f a n : Nat) (s : State) : Ans := vfSched s f a 4 2 n
/-- Q_RESTORE by a VF. -/
def execVfQRestore (f a n : Nat) (s : State) : Ans := vfSched s f a 5 0 n
/-- PREEMPT by a VF. -/
def execVfPreempt (f a n : Nat) (s : State) : Ans := vfSched s f a 6 0 n
/-- RESUME by a VF. -/
def execVfResume (f a n : Nat) (s : State) : Ans := vfSched s f a 7 0 n
/-- INV_ASID by a VF. -/
def execVfInvAsid (f a n : Nat) (s : State) : Ans := vfXlat s f a 1 n
/-- INV_PAGE by a VF. -/
def execVfInvPage (f a n : Nat) (s : State) : Ans := vfXlat s f a 2 n
/-- INV_WINDOW by a VF. -/
def execVfInvWindow (f a n : Nat) (s : State) : Ans := vfXlat s f a 3 n
/-- INV_KEY by a VF. -/
def execVfInvKey (f a n : Nat) (s : State) : Ans := vfXlat s f a 4 n
/-- WIN_MAKE by a VF. -/
def execVfWinMake (f a n : Nat) (s : State) : Ans := vfXlat s f a 5 n
/-- REGION_SET by a VF. -/
def execVfRegionSet (f a n : Nat) (s : State) : Ans := vfXlat s f a 6 n
/-- REGION_CLEAR by a VF. -/
def execVfRegionClear (f a n : Nat) (s : State) : Ans := vfXlat s f a 7 n
/-- PARK_RESUME by a VF. -/
def execVfParkResume (f a n : Nat) (s : State) : Ans := vfXlat s f a 8 n
/-- PARK_DROP by a VF. -/
def execVfParkDrop (f a n : Nat) (s : State) : Ans := vfXlat s f a 9 n

/-- VF_ENTRY: the 64 staged bytes. -/
def vfEntry (s : State) (f : Nat) : List Byte := ((upTo 8).map fun k => toBytes (barRd s (vfReg f (0x40 + 8 * k))).toNat 8).flatten

/-- What ENTRY_WR does (R404): RESULT and the new state. The entry replaced, where it is live, must belong to the ASID too. -/
def entryWr (s : State) (f a sel n : Nat) : Nat × State :=
  let b := vfEntry s f
  let w := leNat b
  let put := fun (adr : Nat) (b : List Byte) => { s with mem := memPutBytes s.mem adr b }
  let wtab := bits (memNat s (atabEntry s a + 24) 8) 38 17 * 2 ^ 17
  let key := (barRd s 0x00020008).toNat + 32 * n
  if ownerOf s a != f then (1, s)
  else if sel = 0 then
    if n ≥ 65536 || (((qsOf s n).bound || qValid s n) && qAsid s n != a) then (1, s)
    else if (qsOf s n).bound || bits w 48 35 != a then (2, s)
    else (0, put (qAddr s n) b)
  else if sel = 1 then
    if n ≥ 4096 then (1, s) else (0, put (wtab + 32 * n) (toBytes (if bit w 56 then w % 2 ^ 256 - 2 ^ 56 else w) 32))
  else if sel = 2 then
    if n ≥ 1024 || (bit (regionWord s n) 255 && bits (regionWord s n) 254 241 != a) then (1, s)
    else if bit (regionWord s n) 255 || bits w 254 241 != a then (2, s)
    else (0, put (regionAt s n) (b.take 32))
  else if sel = 3 then
    if n ≥ 2 ^ 20 || (bit (memNat s key 8) 63 && bits (memNat s key 8) 44 31 != a) then (1, s)
    else if bits w 44 31 != a then (2, s)
    else (0, put key (b.take 32))
  else (1, s)

/-- ENTRY_WR: VF `f` writes a table entry of ASID `a`. -/
def execEntryWr (f a sel n : Nat) (s : State) : Ans :=
  if s.sec.recovery || f = 0 || f > 64 then .next s else
  if vfBusy s f then .next (vfLost s f) else
  let (r, s) := entryWr s f a sel n
  .next (cmdDone s (vfSts f) a 0x20 n r)

end Sys2Proof.Machine
end

