-- ==== Sys2Proof/Machine/Debug.lean ====
section
/-! DEFINITION. Machine/Debug: the debug window, samples, counter rotation, a parting on replay (spec/24, R413 to R425). -/

namespace Sys2Proof.Machine

/-! ## Sessions and stops (R413, R414) -/

/-- A window access of core `n` is refused. -/
def dbgRefuse (s : State) (n : Nat) : State := modCore s n fun c => { c with dbgErr := true }

/-- The fields a write of DBG_CTL keeps: SESS, BRK, ASID. -/
def dbgCtlKept (v : Nat) : Word := BitVec.ofNat 64 (bits v 63 62 * 2 ^ 62 + bits v 45 32 * 2 ^ 32)

/-- Whether a write of DBG_CTL asks for a session that R413 refuses. -/
def sessRefused (s : State) (v : Nat) : Bool := bit v 63 && s.sec.locked.contains (bits v 45 32)

/-- DBG_SESSION_WRITE: `v` is written to DBG_CTL of core `n`; a session for a locked ASID is refused. -/
def execDbgSessionWrite (n v : Nat) (s : State) : Ans :=
  if s.sec.recovery || 192 ≤ n then .next s
  else if sessRefused s v then .next (dbgRefuse s n)
  else .next (dbgWr s n 0 (dbgCtlKept v))

/-- A stop is asked of every member of core `n`'s gang. -/
def askDebug (s : State) (n : Nat) : State := askStop s (membersOf s n) 2 none

/-- A member goes on from its debug stop; one that has not halted yet is no longer asked to (R414, R415, R417). -/
def resumeMember (s : State) (n : Nat) : State :=
  modCore s n fun c =>
    if c.halted then { c.goOn s.dev with halted := false }
    else if c.q.stopReq = 2 then { c with q := { c.q with stopReq := 0, brk := none } }
    else { c with q := { c.q with dbg := 0 } }

/-- DBG_STOP: the command STOP in core `n`'s block. -/
def execDbgStop (n : Nat) (s : State) : Ans := .next (if dbgOn s n then askDebug s n else s)

/-- DBG_RESUME: every member goes on. -/
def execDbgResume (n : Nat) (s : State) : Ans := .next (if dbgOn s n then (membersOf s n).foldl resumeMember s else s)

/-- DBG_STEP: every member goes on, and stops again at its next landing point. -/
def execDbgStep (n : Nat) (s : State) : Ans := .next (if dbgOn s n then askDebug ((membersOf s n).foldl resumeMember s) n else s)

/-! ## The window (R416) -/

def dbgSpace (s : State) (n : Nat) : Nat := bits (dbgRd s n 0x30).toNat 63 56
def dbgIndex (s : State) (n : Nat) : Nat := bits (dbgRd s n 0x30).toNat 55 0

/-- 64 bits of a wider register. -/
def word64 {w : Nat} (x : BitVec w) (k : Nat) : Word := x.extractLsb' (64 * k) 64

/-- Replaces 64 bits of a wider register. -/
def putWord64 {w : Nat} (x : BitVec w) (k : Nat) (v : Word) : BitVec w := setBits x (64 * k) 64 (v.setWidth w)

/-- Control registers that exist (R179), and those that are written. -/
def sysKnown (r : Nat) : Bool := r ≤ 0x00A || (0x100 ≤ r && r ≤ 0x1FF)
def sysWritable (r : Nat) : Bool := [0x000, 0x002, 0x005, 0x006, 0x007].contains r

/-- The state a space and index name in a halted core; none where there is none, or its check fails. -/
def dbgGet (s : State) (n sp i : Nat) : Option Word :=
  let c := coreAt s n
  if sp = 0x01 then (if i < 64 then some (sreg c i) else none)
  else if sp = 0x02 then (if i = 0 then some (c.r.p.setWidth 64) else none)
  else if sp = 0x03 then (if i < 8 then some ((bReg c i).setWidth 64) else none)
  else if sp = 0x04 then (if i < 8 then some (BitVec.ofNat 64 (spGet 0 c.r.lc i)) else none)
  else if sp = 0x05 then (if i < 64 then some (word64 (stReg c (i / 4)) (i % 4)) else none)
  else if sp = 0x06 then
    (if i < 16 * 68 then some (if i % 68 < 64 then word64 (qReg c (i / 68)) (i % 68) else word64 (qComp c (i / 68)) (i % 68 - 64)) else none)
  else if sp = 0x07 then (if i < 16 then some (mmReg c i) else none)
  else if sp = 0x08 then (if i < 64 * 640 then some (word64 (accRow c (i / 64)) (i % 64)) else none)
  else if sp = 0x09 then
    let h := i / 2 ^ 48
    let o : Nat := i % 2 ^ 32 * 8
    if bits i 47 32 != 0 || (handleFault (handle c h) o 8).isSome then none
    else if spGet 0 c.m.hheld h == 3 then some 0 else some (BitVec.ofNat 64 (leNat (spadRead c (handle c h) o 8)))
  else if sp = 0x0A then (if sysKnown i then some (sysRead s n c i) else none)
  else if sp = 0x0B then (if i < 32 then some (BitVec.ofNat 64 (leNat (slice c.q.frec (8 * i) 8))) else none)
  else if sp = 0x0C then (if i < 512 then some (ctGet c i) else none)
  else none

/-- A stream register with one of its words replaced, checked as `stset.*` of the fields in that word (R62, R192): the codes FMT and RND
stand in word 3, the indices in word 0. -/
def dbgStream (x : BitVec 256) (k : Nat) (v : Word) : Option (BitVec 256) :=
  let y := putWord64 x k v &&& ~~~((7#256 <<< 234) ||| (0xFF#256 <<< 48))
  if k = 3 && ((fmtBits (stream y).fmt).isNone || (rmode (stream y).rnd).isNone) then none else some (if k = 0 then stReduce y else y)

/-- The halted core with the named state replaced; none where it is not writable or a check fails. -/
def dbgPut (s : State) (n sp i : Nat) (v : Word) : Option State :=
  let c := coreAt s n
  let put := fun (k : Core) => some (modCore s n fun _ => k)
  if sp = 0x01 then (if i < 64 then put (setS c i v) else none)
  else if sp = 0x02 then (if i = 0 then put { c with r := { c.r with p := v.setWidth 16 ||| 1 } } else none)
  else if sp = 0x03 then (if i < 8 && v.toNat < 2 ^ 24 then put { c with r := { c.r with b := spSet c.r.b i (v.setWidth 24), bprep := spDel c.r.bprep i } } else none)
  else if sp = 0x05 then
    (if i < 64 then match dbgStream (stReg c (i / 4)) (i % 4) v with
      | some x => put { c with r := { c.r with st := spSet c.r.st (i / 4) x } }
      | none => none
    else none)
  else if sp = 0x06 then
    (if 16 * 68 ≤ i then none
    else if i % 68 < 64 then put { c with m := { c.m with q := spSet c.m.q (i / 68) (putWord64 (qReg c (i / 68)) (i % 68) v) } }
    else put { c with m := { c.m with qc := spSet c.m.qc (i / 68) (putWord64 (qComp c (i / 68)) (i % 68 - 64) v) } })
  else if sp = 0x07 then (if i < 16 then put { c with r := { c.r with mm := spSet c.r.mm i v } } else none)
  else if sp = 0x08 then
    (if i < 64 * 640 then put { c with m := { c.m with acc := spSet c.m.acc (i / 64) (putWord64 (accRow c (i / 64)) (i % 64) v) } } else none)
  else if sp = 0x09 then
    let h := i / 2 ^ 48
    let o : Nat := i % 2 ^ 32 * 8
    if bits i 47 32 != 0 || spGet 0 c.m.hheld h == 3 || (handleFault (handle c h) o 8).isSome then none
    else put (spadWrite c (handle c h) o (toBytes v.toNat 8))
  else if sp = 0x0A then
    (if sysWritable i && (i != 0 || (scrWritten v).isSome) then
      let t := sysWrite { s with issue := none, cur := n } i v
      some { t with issue := s.issue, cur := s.cur }
    else none)
  else none

/-- Whether the window of core `n` acts: a halted core, in a session for its task. -/
def dbgOpen (s : State) (n : Nat) : Bool := (coreAt s n).halted && dbgOn s n

/-- DBG_DATA_READ: the value read goes to the PF; a refused read returns 0. -/
def execDbgDataRead (n : Nat) (s : State) : Ans :=
  if s.sec.recovery || !(dbgRd s n 0).getLsbD 63 then .next (post s 0 101 [0])
  else match (if dbgOpen s n then dbgGet s n (dbgSpace s n) (dbgIndex s n) else none) with
    | some v => .next (post s 0 101 [v.toNat])
    | none => .next (post (dbgRefuse s n) 0 101 [0])

/-- DBG_DATA_WRITE: the selected state takes `v`. -/
def execDbgDataWrite (n v : Nat) (s : State) : Ans :=
  if s.sec.recovery || !(dbgRd s n 0).getLsbD 63 then .next s
  else match (if dbgOpen s n then dbgPut s n (dbgSpace s n) (dbgIndex s n) (BitVec.ofNat 64 v) else none) with
    | some t => .next t
    | none => .next (dbgRefuse s n)

/-- DBG_STS (R413). -/
def dbgSts (s : State) (n : Nat) : Word :=
  let c := coreAt s n
  BitVec.ofNat 64 ((if c.halted then 2 ^ 63 + c.dbgDetail * 256 + leNat (slice c.q.frec 8 1) else 0) + (if c.dbgErr then 2 ^ 62 else 0))

/-! ## Samples and performance counters (R418, R419, R421) -/

/-- Active cycles between samples; none without sampling. -/
def samplePeriod (s : State) (n : Nat) : Option Nat :=
  let ctl := (dbgRd s n 0x48).toNat
  let k := bits ctl 53 49
  if bit ctl 63 && k != 0 then some (2 ^ (k + 10)) else none

/-- TRACE_SAMPLE: core `c`'s sampling period has passed. -/
def execTraceSample (c : Nat) (s : State) : Ans :=
  match samplePeriod s c with
  | none => .next s
  | some n =>
    let k := coreAt s c
    if k.sample < n || !k.q.running then .next s else
    .next (modCore (traceWrite s c (padTo 64 (tracePos s c 3 1 ++ toBytes k.q.heldBy 1))) c fun k => { k with sample := k.sample - n })

/-- Rotation period of a core's counters, in units of device time. -/
def pmcPeriod (c : Core) : Nat := let r := bits c.pmc.ctl.toNat 31 0; nsDev (1000 * (if r = 0 then 1000 else r))

/-- PMC_ROTATION: core `c`'s rotation period has passed. -/
def execPmcRotation (c : Nat) (s : State) : Ans :=
  let k := coreAt s c
  let n := bits k.pmc.ctl.toNat 62 61
  if !k.pmc.ctl.getLsbD 63 || n = 0 || s.dev < k.pmc.since + pmcPeriod k then .next s else
  .next (modCore s c fun k => { k with pmc := { k.pmc with set := (k.pmc.set + 1) % (n + 1), since := k.pmc.since + pmcPeriod k } })

/-- PMC_CTL_WRITE: the control register of core `c`'s counters; every count and time is zeroed. -/
def execPmcCtlWrite (c v : Nat) (s : State) : Ans :=
  if s.sec.recovery || 192 ≤ c then .next s else
  .next (modCore s c fun k => { k with pmc := { Pmc.reset with
    ctl := BitVec.ofNat 64 (bits v 63 61 * 2 ^ 61 + bits v 45 0), sel := k.pmc.sel, since := s.dev } })

/-- ENABLED and RUNNING of a core over a length of device time (R421). -/
def pmcTime (c : Core) (d : Nat) : Core :=
  if !pmcOn c then c
  else { c with pmc := { c.pmc with en := c.pmc.en + d, run := spMod 0 c.pmc.run c.pmc.set (· + d) } }

/-! ## A parting (R425) -/

/-- Cores that run a gang of an ASID. -/
def coresOf (s : State) (asid : Nat) : List Nat :=
  s.cores.filterMap fun (n, c) => if (match c.bind with | some b => b.asid == asid | none => false) then some n else none

/-- REPLAY_PARTING: arbiter `c` has waited WINDOW cycles for the candidates the log names. -/
def execReplayParting (c : Nat) (s : State) : Ans :=
  match s.rpl.waiting.find? fun x => x.1 == c with
  | none => .next s
  | some (arb, t, want, seen) =>
    if rplMode s != 2 || s.rpl.parted || s.now < t + rplWindow s then .next s else
    let cs := coresOf s (rplAsid s)
    let served := if arb / 4096 < 2 then arb % 4096 else if arb / 4096 = 2 then arb % 4096 / 16 else cs.headD 0
    let choice := match rplEntry s arb with | some (_, k) => k | none => 0
    let r := padTo 128 (tracePos s served 4 2 ++ toBytes arb 2 ++ toBytes (spGet 0 s.rpl.seqs arb) 6 ++ toBytes want 2 ++ toBytes seen 2 ++ toBytes choice 1)
    let s := cs.foldl (fun s n => traceWrite s n r) s
    let s := { s with rpl := { s.rpl with parted := true, waiting := [] } }
    .next (if bit (rplCtl s) 61 then s else cs.foldl (fun s n => modCore s n fun c => { c with q := { c.q with rhalt := true } }) s)

end Sys2Proof.Machine
end

