-- ==== Sys2Proof/Machine/Registers.lean ====
section
/-! DEFINITION. Machine/Registers: writes of device registers under their access codes (R6), command registers taken apart, and what reads of
them return. -/

namespace Sys2Proof.Machine

/-- A command's outcome as a state. -/
def stateOf (s : State) : Ans → State
  | .next t => t
  | _ => s

/-- A register whose bits hi:lo are RW and whose others are reserved. -/
def keepBits (s : State) (off v hi lo : Nat) : State := barWr s off (BitVec.ofNat 64 (bits v hi lo * 2 ^ lo))

/-- Bits of a register that a write of 1 clears. -/
def w1c (s : State) (off v mask : Nat) : State := barWr s off (barRd s off &&& ~~~(BitVec.ofNat 64 (v &&& mask)))

/-! ## Commands taken apart -/

/-- SCHED_CMD (R332). -/
def schedWrite (s : State) (v : Nat) : State := schedTake s (bits v 63 56) (bits v 49 48) (bits v 47 32)

/-- XLAT_CMD (R352). -/
def xlatWrite (s : State) (v : Nat) : State := xlatCmd s xlatSts (bits v 63 56) (bits v 49 36) (bits v 35 0) (xlatArg s)

/-- HUB_CMD (R371). -/
def hubWrite (s : State) (v : Nat) : State := hubTake s (bits v 63 56) (bits v 47 32)

/-- VF_CMD (R404). -/
def vfWrite (s : State) (f v : Nat) : State :=
  let op := bits v 63 56
  let a := bits v 49 36
  let n := bits v 35 0
  stateOf s (if 3 ≤ op && op ≤ 7 then vfSched s f a op (bits v 55 54) n
    else if 0x11 ≤ op && op ≤ 0x19 then vfXlat s f a (op - 0x10) n
    else if op = 0x20 then execEntryWr f a (bits v 53 50) n s
    else if vfBusy s f then .next (vfLost s f) else .next (cmdDone s (vfSts f) a op n 1))

/-! ## Settings -/

/-- Whether any context exists (R333). -/
def anyContext (s : State) : Bool := (upTo 4096).any (ctxValid s)

/-- WHEEL*w* (R333). -/
def wheelWrite (s : State) (off v : Nat) : State :=
  let runs := fun (n : Nat) => (coreAt s n).bind.isSome
  let old := (barRd s off).toNat
  if runs (bits v 7 0) || (bit old 63 && runs (bits old 7 0)) then s else barWr s off (BitVec.ofNat 64 (bits v 63 63 * 2 ^ 63 + bits v 7 0))

/-- RPL_CTL (R423): MODE changes only while no gang of ASID is placed; a new MODE begins at the head of the log. -/
def rplWrite (s : State) (v : Nat) : State :=
  let placed := s.gangs.any fun (_, g) => g.placed && (g.asid == bits v 45 32 || g.asid == rplAsid s)
  let mode := if placed then rplMode s else bits v 63 62
  let w := BitVec.ofNat 64 (mode * 2 ^ 62 + bits v 61 61 * 2 ^ 61 + bits v 45 0)
  if mode = rplMode s then barWr s 0x00048000 w
  else barWr (barWr { s with rpl := .reset } 0x00048018 0) 0x00048000 w

/-- A ring's control register: HEAD counts from the rise of EN. -/
def ringCtl (s : State) (ctl head : Nat) (v : Word) : State :=
  let s := if v.getLsbD 63 && !(barRd s ctl).getLsbD 63 then barWr s head 0 else s
  barWr s ctl v

/-- A core's debug block (R413, R418, R421). -/
def dbgBlock (s : State) (n o v : Nat) : State :=
  if o = 0x00 then
    let refused := sessRefused s v
    let s := stateOf s (execDbgSessionWrite n v s)
    let cmd := bits v 61 60
    if refused then s else
    stateOf s (if cmd = 1 then execDbgStop n s else if cmd = 2 then execDbgResume n s else if cmd = 3 then execDbgStep n s else .next s)
  else if o = 0x08 then (if bit v 62 then modCore s n fun c => { c with dbgErr := false } else s)
  else if o = 0x10 || o = 0x18 || o = 0x20 || o = 0x28 then dbgWr s n o (BitVec.ofNat 64 (bits v 63 62 * 2 ^ 62 + bits v 42 0))
  else if o = 0x30 then dbgWr s n o (BitVec.ofNat 64 v)
  else if o = 0x38 then stateOf s (execDbgDataWrite n v s)
  else if o = 0x40 then keepBits s (dbgOff n o) v 38 12
  else if o = 0x48 then modCore (ringCtl s (dbgOff n 0x48) (dbgOff n 0x50) (BitVec.ofNat 64 v)) n fun c => { c with sample := 0 }
  else if o = 0x100 then stateOf s (execPmcCtlWrite n v s)
  else if o = 0x108 || o = 0x110 || o = 0x118 || o = 0x120 then modCore s n fun c => { c with pmc := { c.pmc with sel := spSet c.pmc.sel ((o - 0x108) / 8) (BitVec.ofNat 64 v) } }
  else s

/-- A register of the scheduler and the package (R332, R333). -/
def pkgRegs (s : State) (off v : Nat) : State :=
  if off = 0x00010000 then keepBits s off v 38 22
  else if off = 0x00010008 || off = 0x00010010 then keepBits s off v 38 0
  else if off = 0x00010018 then schedWrite s v
  else if off = 0x00010020 then w1c s off v (2 ^ 62)
  else if off = 0x00010100 then (if anyContext s then s else keepBits s off v 63 63)
  else if off = 0x00010108 || off = 0x00010110 then (if anyContext s then s else keepBits s off v 38 18)
  else if 0x00010200 ≤ off && off < 0x00010400 then wheelWrite s off v
  else s

/-- A register of the translation unit (R352). -/
def xlatRegs (s : State) (off v : Nat) : State :=
  if off = 0x00020000 then keepBits s off v 38 20
  else if off = 0x00020008 then keepBits s off v 38 25
  else if off = 0x00020010 then keepBits s off v 38 15
  else if off = 0x00020018 then xlatWrite s v
  else if off = 0x00020020 then w1c s off v (2 ^ 62)
  else if off = 0x00020028 then keepBits s off v 63 0
  else s

/-- A register of the hub (R371, R372): the flash keeps HUB_PKG; the bases keep the bits that place an aligned address (log 65). -/
def hubRegs (s : State) (off v : Nat) : State :=
  if off = 0x00030000 then keepBits { s with flashPkg := BitVec.ofNat 64 (bits v 13 0) } off v 13 0
  else if off = 0x00030008 then keepBits s off v 31 0
  else if off = 0x00030010 || off = 0x00030018 then keepBits s off v 38 17
  else if off = 0x00030020 then hubWrite s v
  else if off = 0x00030028 then w1c s off v (2 ^ 62)
  else if 0x00031000 ≤ off && off < 0x00031480 then stateOf s (execTrunkCfgWrite ((off - 0x00031000) / 8) v s)
  else s

noncomputable section

/-- A register of replay, the governor, time, telemetry or health (R423, R426, R428, R436, R437, R438, R442, R443). -/
def miscRegs (s : State) (off v : Nat) : State :=
  if off = 0x00048000 then rplWrite s v
  else if off = 0x00048008 then keepBits s off v 38 12
  else if off = 0x00048010 then keepBits s off v 47 0
  else if off = 0x00050000 then startGranted (drlWrite s v)
  else if off = 0x00050008 then keepBits s off v 63 0
  else if off = 0x00050010 then w1c s off v (2 ^ 63)
  else if off = 0x00050040 then barWr s off (BitVec.ofNat 64 (bits v 63 62 * 2 ^ 62 + timeState s * 2 ^ 60))
  else if off = 0x00050048 then keepBits s off v 38 12
  else if off = 0x00050050 then ringCtl s off 0x00050058 (BitVec.ofNat 64 (bits v 63 63 * 2 ^ 63 + bits v 47 0))
  else if off = 0x00060000 then w1c s off v 0x1FF
  else if off = 0x00060080 then keepBits s off v 63 0
  else s

/-- A write to BAR0 of the PF. Offsets that no statement assigns ignore it. -/
def pfWrite (s : State) (off v : Nat) : State :=
  if 0x00100000 ≤ off && off < 0x001C0000 then dbgBlock s ((off - 0x00100000) / 0x1000) (off % 0x1000) v
  else if off / 0x10000 = 1 then pkgRegs s off v
  else if off / 0x10000 = 2 then xlatRegs s off v
  else if off / 0x10000 = 3 then hubRegs s off v
  else miscRegs s off v

/-- A write to BAR0 of a VF (R404). -/
def vfBar (s : State) (f off v : Nat) : State :=
  if off = 0x00 then vfWrite s f v
  else if off = 0x08 then w1c s (vfSts f) v (2 ^ 62)
  else if off = 0x10 || (0x40 ≤ off && off < 0x80) then keepBits s (vfReg f off) v 63 0
  else s

/-- REGISTER_WRITE: function `f` writes `v` to the 64-bit register at offset `off` of its BAR0 (R6). In recovery no register is there
(R398); at an offset that is no multiple of 8 there is none (log 91). -/
def execRegisterWrite (f off v : Nat) (s : State) : Ans :=
  if s.sec.recovery || off % 8 != 0 || f > 64 then .next s
  else if f = 0 then .next (pfWrite s off (v % 2 ^ 64)) else .next (vfBar s f off (v % 2 ^ 64))

end

/-! ## Reads -/

/-- DRL_STS (R436). -/
def drlSts (s : State) : Word :=
  let tenths := fun (x : Int) => toPat 16 (x / 10)
  BitVec.ofNat 64 (bits (barRd s 0x00050010).toNat 63 63 * 2 ^ 63 + slotsHeld s % 2 ^ 24 * 2 ^ 32 + tenths s.drl.aup * 2 ^ 16 + tenths s.drl.adn)

/-- A register of a core's debug block, DBG_DATA apart. -/
def dbgBlockRd (s : State) (n o : Nat) : Word :=
  let p := (coreAt s n).pmc
  let ns := fun (x : Nat) => BitVec.ofNat 64 (min (x / 19000000) (2 ^ 64 - 1))
  if o = 0x08 then dbgSts s n
  else if o = 0x38 then 0
  else if o = 0x100 then p.ctl
  else if 0x108 ≤ o && o < 0x128 then spGet 0 p.sel ((o - 0x108) / 8)
  else if 0x140 ≤ o && o < 0x170 then BitVec.ofNat 64 (spGet 0 p.fix ((o - 0x140) / 8))
  else if 0x200 ≤ o && o < 0x300 then BitVec.ofNat 64 (spGet 0 p.cnt ((o - 0x200) / 8))
  else if 0x300 ≤ o && o < 0x400 then ns p.en
  else if 0x400 ≤ o && o < 0x500 then ns (spGet 0 p.run ((o - 0x400) / 64))
  else dbgRd s n o

/-- What a read of a register of the PF returns; write-only ones, reserved offsets and those that are no multiple of 8 (log 91) return
zero. -/
def regRead (s : State) (off : Nat) : Word :=
  if off % 8 != 0 then 0
  else if 0x00100000 ≤ off && off < 0x001C0000 then dbgBlockRd s ((off - 0x00100000) / 0x1000) (off % 0x1000)
  else if 0x00031000 ≤ off && off < 0x00031480 then trunkCfg s ((off - 0x00031000) / 8)
  else if 0x00032000 ≤ off && off < 0x00034400 then BitVec.ofNat 64 (spGet 0 s.hub.cnt ((off - 0x00032000) / 8))
  else if 0x00036000 ≤ off && off < 0x00036050 then BitVec.ofNat 64 (spGet 0 s.hub.cnt (2000 + (off - 0x00036000) / 8))
  else if off = 0x00050010 then drlSts s
  else barRd s off

/-- What a read of a register of a VF's BAR0 returns (R404): VF_CMD and VF_ENTRY are write-only. -/
def vfRead (s : State) (f off : Nat) : Word := if off = 0x08 || off = 0x10 then barRd s (vfReg f off) else 0

/-- What function `f` reads at an offset of its BAR0; in recovery no register is there (R398). -/
def barRead (s : State) (f off : Nat) : Word := if s.sec.recovery || f > 64 then 0 else if f = 0 then regRead s off else vfRead s f off

end Sys2Proof.Machine
end

