-- ==== Sys2Proof/Machine/Dispatch.lean ====
section
/-! DEFINITION. Machine/Dispatch: what each step of the part means: one arm for every row of the opcode table. -/

namespace Sys2Proof.Machine

open Host in /-- The meaning of a step: a slot operation on the core that issues it, or an event. (Fetch decodes: see Decode.) -/ noncomputable
def exec (i : Instr) (s : State) : Host.Outcome State Fault Refusal :=
  match i with
  | .cNop p => Sys2Proof.Machine.execCNop p s
  | .pbr p b r => Sys2Proof.Machine.execPbr p b r s
  | .pbrS p b a => Sys2Proof.Machine.execPbrS p b a s
  | .br p b q => Sys2Proof.Machine.execBr p b q s
  | .brN p b q => Sys2Proof.Machine.execBrN p b q s
  | .call p b => Sys2Proof.Machine.execCall p b s
  | .ret p => Sys2Proof.Machine.execRet p s
  | .loop p i_ => Sys2Proof.Machine.execLoop p i_ s
  | .loopSwp p i_ => Sys2Proof.Machine.execLoopSwp p i_ s
  | .lbrk p i_ => Sys2Proof.Machine.execLbrk p i_ s
  | .ctwait p c a => Sys2Proof.Machine.execCtwait p c a s
  | .ctwaitT p c a => Sys2Proof.Machine.execCtwaitT p c a s
  | .ctwaitG p a => Sys2Proof.Machine.execCtwaitG p a s
  | .ctwaitGt p a => Sys2Proof.Machine.execCtwaitGt p a s
  | .tkwait p x y z => Sys2Proof.Machine.execTkwait p x y z s
  | .sstep p => Sys2Proof.Machine.execSstep p s
  | .yield p => Sys2Proof.Machine.execYield p s
  | .halt p => Sys2Proof.Machine.execHalt p s
  | .brk p n => Sys2Proof.Machine.execBrk p n s
  | .trap p n => Sys2Proof.Machine.execTrap p n s
  | .tret p => Sys2Proof.Machine.execTret p s
  | .sysrd p d r => Sys2Proof.Machine.execSysrd p d r s
  | .syswr p a r => Sys2Proof.Machine.execSyswr p a r s
  | .wheel p n => Sys2Proof.Machine.execWheel p n s
  | .pwrHint p n => Sys2Proof.Machine.execPwrHint p n s
  | .sNop p => Sys2Proof.Machine.execSNop p s
  | .add p d a b => Sys2Proof.Machine.execAdd p d a b s
  | .sub p d a b => Sys2Proof.Machine.execSub p d a b s
  | .mul p d a b => Sys2Proof.Machine.execMul p d a b s
  | .mulh p d a b => Sys2Proof.Machine.execMulh p d a b s
  | .mulhu p d a b => Sys2Proof.Machine.execMulhu p d a b s
  | .div p d a b => Sys2Proof.Machine.execDiv p d a b s
  | .divu p d a b => Sys2Proof.Machine.execDivu p d a b s
  | .rem p d a b => Sys2Proof.Machine.execRem p d a b s
  | .remu p d a b => Sys2Proof.Machine.execRemu p d a b s
  | .and p d a b => Sys2Proof.Machine.execAnd p d a b s
  | .or p d a b => Sys2Proof.Machine.execOr p d a b s
  | .xor p d a b => Sys2Proof.Machine.execXor p d a b s
  | .andn p d a b => Sys2Proof.Machine.execAndn p d a b s
  | .sll p d a b => Sys2Proof.Machine.execSll p d a b s
  | .srl p d a b => Sys2Proof.Machine.execSrl p d a b s
  | .sra p d a b => Sys2Proof.Machine.execSra p d a b s
  | .slli p d a n => Sys2Proof.Machine.execSlli p d a n s
  | .srli p d a n => Sys2Proof.Machine.execSrli p d a n s
  | .srai p d a n => Sys2Proof.Machine.execSrai p d a n s
  | .min p d a b => Sys2Proof.Machine.execMin p d a b s
  | .max p d a b => Sys2Proof.Machine.execMax p d a b s
  | .minu p d a b => Sys2Proof.Machine.execMinu p d a b s
  | .maxu p d a b => Sys2Proof.Machine.execMaxu p d a b s
  | .popc p d a => Sys2Proof.Machine.execPopc p d a s
  | .clz p d a => Sys2Proof.Machine.execClz p d a s
  | .cmpEq p k a b => Sys2Proof.Machine.execCmpEq p k a b s
  | .cmpLt p k a b => Sys2Proof.Machine.execCmpLt p k a b s
  | .cmpLtu p k a b => Sys2Proof.Machine.execCmpLtu p k a b s
  | .cmpLe p k a b => Sys2Proof.Machine.execCmpLe p k a b s
  | .cmpLeu p k a b => Sys2Proof.Machine.execCmpLeu p k a b s
  | .plog p d a b t => Sys2Proof.Machine.execPlog p d a b t s
  | .sel p k d a b => Sys2Proof.Machine.execSel p k d a b s
  | .addi p d i_ => Sys2Proof.Machine.execAddi p d i_ s
  | .li p d i_ => Sys2Proof.Machine.execLi p d i_ s
  | .lic p d i_ => Sys2Proof.Machine.execLic p d i_ s
  | .kconst p d i_ => Sys2Proof.Machine.execKconst p d i_ s
  | .hmk p d i_ => Sys2Proof.Machine.execHmk p d i_ s
  | .hsz p d i_ => Sys2Proof.Machine.execHsz p d i_ s
  | .hrow p d i_ => Sys2Proof.Machine.execHrow p d i_ s
  | .mfpr p d => Sys2Proof.Machine.execMfpr p d s
  | .mtpr p a => Sys2Proof.Machine.execMtpr p a s
  | .mflc p d n => Sys2Proof.Machine.execMflc p d n s
  | .mfb p d n => Sys2Proof.Machine.execMfb p d n s
  | .mtb p n a => Sys2Proof.Machine.execMtb p n a s
  | .stsetF p t s_ a => Sys2Proof.Machine.execStsetF p t s_ a s
  | .stsetZ p t => Sys2Proof.Machine.execStsetZ p t s
  | .stsetCp p t m => Sys2Proof.Machine.execStsetCp p t m s
  | .mtmm p n a => Sys2Proof.Machine.execMtmm p n a s
  | .mfmm p d n => Sys2Proof.Machine.execMfmm p d n s
  | .fadd p d a b => Sys2Proof.Machine.execFadd p d a b s
  | .fsub p d a b => Sys2Proof.Machine.execFsub p d a b s
  | .fmul p d a b => Sys2Proof.Machine.execFmul p d a b s
  | .fdiv p d a b => Sys2Proof.Machine.execFdiv p d a b s
  | .fsqrt p d a => Sys2Proof.Machine.execFsqrt p d a s
  | .fmin p d a b => Sys2Proof.Machine.execFmin p d a b s
  | .fmax p d a b => Sys2Proof.Machine.execFmax p d a b s
  | .fcmpEq p k a b => Sys2Proof.Machine.execFcmpEq p k a b s
  | .fcmpLt p k a b => Sys2Proof.Machine.execFcmpLt p k a b s
  | .fcmpLe p k a b => Sys2Proof.Machine.execFcmpLe p k a b s
  | .fcmpUn p k a b => Sys2Proof.Machine.execFcmpUn p k a b s
  | .fcvtD2l p d a => Sys2Proof.Machine.execFcvtD2l p d a s
  | .fcvtL2d p d a => Sys2Proof.Machine.execFcvtL2d p d a s
  | .fcvtD2s p d a => Sys2Proof.Machine.execFcvtD2s p d a s
  | .fcvtS2d p d a => Sys2Proof.Machine.execFcvtS2d p d a s
  | .fabs p d a => Sys2Proof.Machine.execFabs p d a s
  | .fneg p d a => Sys2Proof.Machine.execFneg p d a s
  | .fsGcd p d a b => Sys2Proof.Machine.execFsGcd p d a b s
  | .fsMk p d a b => Sys2Proof.Machine.execFsMk p d a b s
  | .fsMed p d a b => Sys2Proof.Machine.execFsMed p d a b s
  | .fsNear p d a b => Sys2Proof.Machine.execFsNear p d a b s
  | .fsNum p d a => Sys2Proof.Machine.execFsNum p d a s
  | .fsDen p d a => Sys2Proof.Machine.execFsDen p d a s
  | .fsClass p d a => Sys2Proof.Machine.execFsClass p d a s
  | .fsCanon p d a => Sys2Proof.Machine.execFsCanon p d a s
  | .fsCvtF32 p d a => Sys2Proof.Machine.execFsCvtF32 p d a s
  | .fsCvtE8 p d a => Sys2Proof.Machine.execFsCvtE8 p d a s
  | .fsPack32 p d a => Sys2Proof.Machine.execFsPack32 p d a s
  | .fsUnpk32 p d a => Sys2Proof.Machine.execFsUnpk32 p d a s
  | .rationalResult c => Sys2Proof.Machine.execRationalResult c s
  | .lNop p => Sys2Proof.Machine.execLNop p s
  | .vld32 p v t => Sys2Proof.Machine.execVld32 p v t s
  | .vld16 p v t => Sys2Proof.Machine.execVld16 p v t s
  | .qld p q t => Sys2Proof.Machine.execQld p q t s
  | .ldsB p d a v k => Sys2Proof.Machine.execLdsB p d a v k s
  | .ldsH p d a v k => Sys2Proof.Machine.execLdsH p d a v k s
  | .ldsW p d a v k => Sys2Proof.Machine.execLdsW p d a v k s
  | .ldsD p d a v k => Sys2Proof.Machine.execLdsD p d a v k s
  | .ofill p s_ t v k => Sys2Proof.Machine.execOfill p s_ t v k s
  | .halloc p h d a => Sys2Proof.Machine.execHalloc p h d a s
  | .hfree p h => Sys2Proof.Machine.execHfree p h s
  | .wNop p => Sys2Proof.Machine.execWNop p s
  | .vst32 p v t => Sys2Proof.Machine.execVst32 p v t s
  | .vst16 p v t => Sys2Proof.Machine.execVst16 p v t s
  | .qst p q t => Sys2Proof.Machine.execQst p q t s
  | .stsB p d a v k => Sys2Proof.Machine.execStsB p d a v k s
  | .stsH p d a v k => Sys2Proof.Machine.execStsH p d a v k s
  | .stsW p d a v k => Sys2Proof.Machine.execStsW p d a v k s
  | .stsD p d a v k => Sys2Proof.Machine.execStsD p d a v k s
  | .oclaim p s_ => Sys2Proof.Machine.execOclaim p s_ s
  | .orel p s_ => Sys2Proof.Machine.execOrel p s_ s
  | .fillComplete c => Sys2Proof.Machine.execFillComplete c s
  | .gNop p => Sys2Proof.Machine.execGNop p s
  | .ldB p d a v t w u => Sys2Proof.Machine.execLdB p d a v t w u s
  | .ldH p d a v t w u => Sys2Proof.Machine.execLdH p d a v t w u s
  | .ldW p d a v t w u => Sys2Proof.Machine.execLdW p d a v t w u s
  | .ldD p d a v t w u => Sys2Proof.Machine.execLdD p d a v t w u s
  | .stB p d a v t w u => Sys2Proof.Machine.execStB p d a v t w u s
  | .stH p d a v t w u => Sys2Proof.Machine.execStH p d a v t w u s
  | .stW p d a v t w u => Sys2Proof.Machine.execStW p d a v t w u s
  | .stD p d a v t w u => Sys2Proof.Machine.execStD p d a v t w u s
  | .ldAcqW p d a v t w u => Sys2Proof.Machine.execLdAcqW p d a v t w u s
  | .ldAcqD p d a v t w u => Sys2Proof.Machine.execLdAcqD p d a v t w u s
  | .stRelW p d a v t w u => Sys2Proof.Machine.execStRelW p d a v t w u s
  | .stRelD p d a v t w u => Sys2Proof.Machine.execStRelD p d a v t w u s
  | .ldV p d a b => Sys2Proof.Machine.execLdV p d a b s
  | .stV p d a b => Sys2Proof.Machine.execStV p d a b s
  | .amoAdd p d a b => Sys2Proof.Machine.execAmoAdd p d a b s
  | .amoMax p d a b => Sys2Proof.Machine.execAmoMax p d a b s
  | .amoMaxu p d a b => Sys2Proof.Machine.execAmoMaxu p d a b s
  | .amoMin p d a b => Sys2Proof.Machine.execAmoMin p d a b s
  | .amoMinu p d a b => Sys2Proof.Machine.execAmoMinu p d a b s
  | .amoAnd p d a b => Sys2Proof.Machine.execAmoAnd p d a b s
  | .amoOr p d a b => Sys2Proof.Machine.execAmoOr p d a b s
  | .amoXor p d a b => Sys2Proof.Machine.execAmoXor p d a b s
  | .amoSwap p d a b => Sys2Proof.Machine.execAmoSwap p d a b s
  | .amoCas p d a b => Sys2Proof.Machine.execAmoCas p d a b s
  | .amoScAdd p d a b => Sys2Proof.Machine.execAmoScAdd p d a b s
  | .amoScSwap p d a b => Sys2Proof.Machine.execAmoScSwap p d a b s
  | .amoScCas p d a b => Sys2Proof.Machine.execAmoScCas p d a b s
  | .amoScMax p d a b => Sys2Proof.Machine.execAmoScMax p d a b s
  | .amoScMin p d a b => Sys2Proof.Machine.execAmoScMin p d a b s
  | .amoScPerform c i_ => Sys2Proof.Machine.execAmoScPerform c i_ s
  | .fenceCore p => Sys2Proof.Machine.execFenceCore p s
  | .fenceQuad p => Sys2Proof.Machine.execFenceQuad p s
  | .fenceDie p => Sys2Proof.Machine.execFenceDie p s
  | .fencePackage p => Sys2Proof.Machine.execFencePackage p s
  | .fenceFabric p => Sys2Proof.Machine.execFenceFabric p s
  | .pf p a => Sys2Proof.Machine.execPf p a s
  | .wprobe p d a => Sys2Proof.Machine.execWprobe p d a s
  | .gLoadReturn c i_ => Sys2Proof.Machine.execGLoadReturn c i_ s
  | .xNop p => Sys2Proof.Machine.execXNop p s
  | .mwld p l s_ m => Sys2Proof.Machine.execMwld p l s_ m s
  | .mtrans p l s_ m => Sys2Proof.Machine.execMtrans p l s_ m s
  | .mma p l t s_ m => Sys2Proof.Machine.execMma p l t s_ m s
  | .mmaAcc p l t s_ m => Sys2Proof.Machine.execMmaAcc p l t s_ m s
  | .mmaTri p l t s_ m => Sys2Proof.Machine.execMmaTri p l t s_ m s
  | .mmaTriAcc p l t s_ m => Sys2Proof.Machine.execMmaTriAcc p l t s_ m s
  | .mmaP p l s_ m => Sys2Proof.Machine.execMmaP p l s_ m s
  | .mzero p l t => Sys2Proof.Machine.execMzero p l t s
  | .mdrain p l t m => Sys2Proof.Machine.execMdrain p l t m s
  | .mdrainSp p l m => Sys2Proof.Machine.execMdrainSp p l m s
  | .mdrainFab p l m => Sys2Proof.Machine.execMdrainFab p l m s
  | .xOpLaunch c => Sys2Proof.Machine.execXOpLaunch c s
  | .xOpFinish c => Sys2Proof.Machine.execXOpFinish c s
  | .drainRowPlaced c i_ => Sys2Proof.Machine.execDrainRowPlaced c i_ s
  | .vNop p => Sys2Proof.Machine.execVNop p s
  | .vaddF p w t d a b => Sys2Proof.Machine.execVaddF p w t d a b s
  | .vsubF p w t d a b => Sys2Proof.Machine.execVsubF p w t d a b s
  | .vmulF p w t d a b => Sys2Proof.Machine.execVmulF p w t d a b s
  | .vfma p w t d a b => Sys2Proof.Machine.execVfma p w t d a b s
  | .vminF p w t d a b => Sys2Proof.Machine.execVminF p w t d a b s
  | .vmaxF p w t d a b => Sys2Proof.Machine.execVmaxF p w t d a b s
  | .vabs p w t d a => Sys2Proof.Machine.execVabs p w t d a s
  | .vneg p w t d a => Sys2Proof.Machine.execVneg p w t d a s
  | .vcmpEqF p w t d a b => Sys2Proof.Machine.execVcmpEqF p w t d a b s
  | .vcmpLtF p w t d a b => Sys2Proof.Machine.execVcmpLtF p w t d a b s
  | .vcmpLeF p w t d a b => Sys2Proof.Machine.execVcmpLeF p w t d a b s
  | .vrsumF p w t d a => Sys2Proof.Machine.execVrsumF p w t d a s
  | .vrmax p w t d a => Sys2Proof.Machine.execVrmax p w t d a s
  | .vrmin p w t d a => Sys2Proof.Machine.execVrmin p w t d a s
  | .vexp2 p w t d a => Sys2Proof.Machine.execVexp2 p w t d a s
  | .vlog2 p w t d a => Sys2Proof.Machine.execVlog2 p w t d a s
  | .vrcp p w t d a => Sys2Proof.Machine.execVrcp p w t d a s
  | .vrsq p w t d a => Sys2Proof.Machine.execVrsq p w t d a s
  | .vtanh p w t d a => Sys2Proof.Machine.execVtanh p w t d a s
  | .vsilu p w t d a => Sys2Proof.Machine.execVsilu p w t d a s
  | .vaddI p w t d a b => Sys2Proof.Machine.execVaddI p w t d a b s
  | .vsubI p w t d a b => Sys2Proof.Machine.execVsubI p w t d a b s
  | .vmulI p w t d a b => Sys2Proof.Machine.execVmulI p w t d a b s
  | .vminI p w t d a b => Sys2Proof.Machine.execVminI p w t d a b s
  | .vmaxI p w t d a b => Sys2Proof.Machine.execVmaxI p w t d a b s
  | .vand p w d a b => Sys2Proof.Machine.execVand p w d a b s
  | .vor p w d a b => Sys2Proof.Machine.execVor p w d a b s
  | .vxor p w d a b => Sys2Proof.Machine.execVxor p w d a b s
  | .vshl p w d a b => Sys2Proof.Machine.execVshl p w d a b s
  | .vshr p w d a b => Sys2Proof.Machine.execVshr p w d a b s
  | .vsra p w d a b => Sys2Proof.Machine.execVsra p w d a b s
  | .vcmpEqI p w d a b => Sys2Proof.Machine.execVcmpEqI p w d a b s
  | .vcmpLtI p w d a b => Sys2Proof.Machine.execVcmpLtI p w d a b s
  | .vrsumI p w t d a => Sys2Proof.Machine.execVrsumI p w t d a s
  | .vsel p w d a b => Sys2Proof.Machine.execVsel p w d a b s
  | .vmov p w d a => Sys2Proof.Machine.execVmov p w d a s
  | .vbcast p w d a n => Sys2Proof.Machine.execVbcast p w d a n s
  | .vperm p w d a b => Sys2Proof.Machine.execVperm p w d a b s
  | .vrot p w d a n => Sys2Proof.Machine.execVrot p w d a n s
  | .vrev p w d a => Sys2Proof.Machine.execVrev p w d a s
  | .vcvtN p t d a h r => Sys2Proof.Machine.execVcvtN p t d a h r s
  | .vcvtW p t d a h => Sys2Proof.Machine.execVcvtW p t d a h s
  | .vcvtFi p w t d a r => Sys2Proof.Machine.execVcvtFi p w t d a r s
  | .vcvtIf p w t d a r => Sys2Proof.Machine.execVcvtIf p w t d a r s
  | .vcvtNi p d a h => Sys2Proof.Machine.execVcvtNi p d a h s
  | .vcvtWi p d a h => Sys2Proof.Machine.execVcvtWi p d a h s
  | .resultLand c => Sys2Proof.Machine.execResultLand c s
  | .pNop p => Sys2Proof.Machine.execPNop p s
  | .pkMxint8Mm14 p q k r => Sys2Proof.Machine.execPkMxint8Mm14 p q k r s
  | .pkMxint8Mm15 p q k r => Sys2Proof.Machine.execPkMxint8Mm15 p q k r s
  | .pkMxint6Mm14 p q k r => Sys2Proof.Machine.execPkMxint6Mm14 p q k r s
  | .pkMxint6Mm15 p q k r => Sys2Proof.Machine.execPkMxint6Mm15 p q k r s
  | .pkMxint4Mm14 p q k r => Sys2Proof.Machine.execPkMxint4Mm14 p q k r s
  | .pkMxint4Mm15 p q k r => Sys2Proof.Machine.execPkMxint4Mm15 p q k r s
  | .pkE4m3Mm14 p q k r => Sys2Proof.Machine.execPkE4m3Mm14 p q k r s
  | .pkE4m3Mm15 p q k r => Sys2Proof.Machine.execPkE4m3Mm15 p q k r s
  | .pkE5m2Mm14 p q k r => Sys2Proof.Machine.execPkE5m2Mm14 p q k r s
  | .pkE5m2Mm15 p q k r => Sys2Proof.Machine.execPkE5m2Mm15 p q k r s
  | .pkFp6Mm14 p q k r => Sys2Proof.Machine.execPkFp6Mm14 p q k r s
  | .pkFp6Mm15 p q k r => Sys2Proof.Machine.execPkFp6Mm15 p q k r s
  | .pkE2m1Mm14 p q k r => Sys2Proof.Machine.execPkE2m1Mm14 p q k r s
  | .pkE2m1Mm15 p q k r => Sys2Proof.Machine.execPkE2m1Mm15 p q k r s
  | .uNop p => Sys2Proof.Machine.execUNop p s
  | .unpkMxint8Mm14 p q k r => Sys2Proof.Machine.execUnpkMxint8Mm14 p q k r s
  | .unpkMxint8Mm15 p q k r => Sys2Proof.Machine.execUnpkMxint8Mm15 p q k r s
  | .unpkMxint6Mm14 p q k r => Sys2Proof.Machine.execUnpkMxint6Mm14 p q k r s
  | .unpkMxint6Mm15 p q k r => Sys2Proof.Machine.execUnpkMxint6Mm15 p q k r s
  | .unpkMxint4Mm14 p q k r => Sys2Proof.Machine.execUnpkMxint4Mm14 p q k r s
  | .unpkMxint4Mm15 p q k r => Sys2Proof.Machine.execUnpkMxint4Mm15 p q k r s
  | .unpkE4m3Mm14 p q k r => Sys2Proof.Machine.execUnpkE4m3Mm14 p q k r s
  | .unpkE4m3Mm15 p q k r => Sys2Proof.Machine.execUnpkE4m3Mm15 p q k r s
  | .unpkE5m2Mm14 p q k r => Sys2Proof.Machine.execUnpkE5m2Mm14 p q k r s
  | .unpkE5m2Mm15 p q k r => Sys2Proof.Machine.execUnpkE5m2Mm15 p q k r s
  | .unpkFp6Mm14 p q k r => Sys2Proof.Machine.execUnpkFp6Mm14 p q k r s
  | .unpkFp6Mm15 p q k r => Sys2Proof.Machine.execUnpkFp6Mm15 p q k r s
  | .unpkE2m1Mm14 p q k r => Sys2Proof.Machine.execUnpkE2m1Mm14 p q k r s
  | .unpkE2m1Mm15 p q k r => Sys2Proof.Machine.execUnpkE2m1Mm15 p q k r s
  | .aNop p => Sys2Proof.Machine.execANop p s
  | .cpy p r n a b c x => Sys2Proof.Machine.execCpy p r n a b c x s
  | .gat p r n a b c x => Sys2Proof.Machine.execGat p r n a b c x s
  | .sct p r n a b c x => Sys2Proof.Machine.execSct p r n a b c x s
  | .mcastQ p r n a b c x => Sys2Proof.Machine.execMcastQ p r n a b c x s
  | .rst p r n a b c x => Sys2Proof.Machine.execRst p r n a b c x s
  | .rld p r n a b c x => Sys2Proof.Machine.execRld p r n a b c x s
  | .rred p r n a b c x => Sys2Proof.Machine.execRred p r n a b c x s
  | .rflush p r n a b c => Sys2Proof.Machine.execRflush p r n a b c s
  | .coll p r n a b c x => Sys2Proof.Machine.execColl p r n a b c x s
  | .disp p r n a b c x => Sys2Proof.Machine.execDisp p r n a b c x s
  | .ccpy p r n a b c x => Sys2Proof.Machine.execCcpy p r n a b c x s
  | .task p r n a b c x => Sys2Proof.Machine.execTask p r n a b c x s
  | .ctadd p r n a b y x => Sys2Proof.Machine.execCtadd p r n a b y x s
  | .ctraise p r n a b y x => Sys2Proof.Machine.execCtraise p r n a b y x s
  | .ctpoll p r n a d y x => Sys2Proof.Machine.execCtpoll p r n a d y x s
  | .frecRd p r n a b c x => Sys2Proof.Machine.execFrecRd p r n a b c x s
  | .frecWr p r n a b c x => Sys2Proof.Machine.execFrecWr p r n a b c x s
  | .engineCommandStart c i_ h e => Sys2Proof.Machine.execEngineCommandStart c i_ h e s
  | .engineCommandComplete c i_ k => Sys2Proof.Machine.execEngineCommandComplete c i_ k s
  | .collTransfer c i_ => Sys2Proof.Machine.execCollTransfer c i_ s
  | .dispClaim c i_ => Sys2Proof.Machine.execDispClaim c i_ s
  | .rredRetry c i_ => Sys2Proof.Machine.execRredRetry c i_ s
  | .rredTimeout c i_ => Sys2Proof.Machine.execRredTimeout c i_ s
  | .placementAck c i_ => Sys2Proof.Machine.execPlacementAck c i_ s
  | .deferredTrap c => Sys2Proof.Machine.execDeferredTrap c s
  | .combiningEntryAgeFlush c i_ => Sys2Proof.Machine.execCombiningEntryAgeFlush c i_ s
  | .counterWaitSatisfied c => Sys2Proof.Machine.execCounterWaitSatisfied c s
  | .counterWaitTimeout c => Sys2Proof.Machine.execCounterWaitTimeout c s
  | .monitorPoll c => Sys2Proof.Machine.execMonitorPoll c s
  | .versionSealWake c => Sys2Proof.Machine.execVersionSealWake c s
  | .missingVersionTimeout c => Sys2Proof.Machine.execMissingVersionTimeout c s
  | .versionCapacityWake c => Sys2Proof.Machine.execVersionCapacityWake c s
  | .versionCapacityTimeout c => Sys2Proof.Machine.execVersionCapacityTimeout c s
  | .bundleFetch c => Sys2Proof.Machine.execBundleFetch c s
  | .tileTaskRetire c => Sys2Proof.Machine.execTileTaskRetire c s
  | .doorbellWrite f q v => Sys2Proof.Machine.execDoorbellWrite f q v s
  | .recordRead q h => Sys2Proof.Machine.execRecordRead q h s
  | .queueSlotRequest q => Sys2Proof.Machine.execQueueSlotRequest q s
  | .dependencesMet q => Sys2Proof.Machine.execDependencesMet q s
  | .gangPlacement q pick => Sys2Proof.Machine.execGangPlacement q pick s
  | .quantumExpiry q => Sys2Proof.Machine.execQuantumExpiry q s
  | .preemptForcedStop c => Sys2Proof.Machine.execPreemptForcedStop c s
  | .contextSave g => Sys2Proof.Machine.execContextSave g s
  | .contextRestore g ok pick => Sys2Proof.Machine.execContextRestore g ok pick s
  | .ctxCreate c => Sys2Proof.Machine.execCtxCreate c s
  | .ctxDestroy c => Sys2Proof.Machine.execCtxDestroy c s
  | .qBind q => Sys2Proof.Machine.execQBind q s
  | .qTeardownDrain q => Sys2Proof.Machine.execQTeardownDrain q s
  | .qTeardownKill q => Sys2Proof.Machine.execQTeardownKill q s
  | .qTeardownFreeze q => Sys2Proof.Machine.execQTeardownFreeze q s
  | .qRestore q => Sys2Proof.Machine.execQRestore q s
  | .preempt g => Sys2Proof.Machine.execPreempt g s
  | .resume g => Sys2Proof.Machine.execResume g s
  | .derailleurEvaluation => Sys2Proof.Machine.execDerailleurEvaluation s
  | .fillerStopTimeout c => Sys2Proof.Machine.execFillerStopTimeout c s
  | .drlCtlWrite v => Sys2Proof.Machine.execDrlCtlWrite v s
  | .telemetryRecord => Sys2Proof.Machine.execTelemetryRecord s
  | .traceSample c => Sys2Proof.Machine.execTraceSample c s
  | .pmcRotation c => Sys2Proof.Machine.execPmcRotation c s
  | .pmcCtlWrite c v => Sys2Proof.Machine.execPmcCtlWrite c v s
  | .invAsid a => Sys2Proof.Machine.execInvAsid a s
  | .invPage a => Sys2Proof.Machine.execInvPage a s
  | .invWindow a n => Sys2Proof.Machine.execInvWindow a n s
  | .invKey k => Sys2Proof.Machine.execInvKey k s
  | .winMake a n => Sys2Proof.Machine.execWinMake a n s
  | .regionSet n => Sys2Proof.Machine.execRegionSet n s
  | .regionClear n => Sys2Proof.Machine.execRegionClear n s
  | .parkResume a => Sys2Proof.Machine.execParkResume a s
  | .parkDrop a => Sys2Proof.Machine.execParkDrop a s
  | .translationWalk i_ => Sys2Proof.Machine.execTranslationWalk i_ s
  | .routeWr d => Sys2Proof.Machine.execRouteWr d s
  | .routeHoldExpiry d => Sys2Proof.Machine.execRouteHoldExpiry d s
  | .grpSet g => Sys2Proof.Machine.execGrpSet g s
  | .grpClear g => Sys2Proof.Machine.execGrpClear g s
  | .trunkTrain n => Sys2Proof.Machine.execTrunkTrain n s
  | .trunkCfgWrite n v => Sys2Proof.Machine.execTrunkCfgWrite n v s
  | .startFlit n w bad => Sys2Proof.Machine.execStartFlit n w bad s
  | .contFlit n w bad => Sys2Proof.Machine.execContFlit n w bad s
  | .idleFlit n w bad => Sys2Proof.Machine.execIdleFlit n w bad s
  | .replayReq n w bad => Sys2Proof.Machine.execReplayReq n w bad s
  | .trainFlit n w bad => Sys2Proof.Machine.execTrainFlit n w bad s
  | .replayReqRepeat n => Sys2Proof.Machine.execReplayReqRepeat n s
  | .laneFail n k => Sys2Proof.Machine.execLaneFail n k s
  | .trainingDone n ok => Sys2Proof.Machine.execTrainingDone n ok s
  | .probationExpiry n => Sys2Proof.Machine.execProbationExpiry n s
  | .wr i_ => Sys2Proof.Machine.execWr i_ s
  | .rd i_ => Sys2Proof.Machine.execRd i_ s
  | .amo i_ => Sys2Proof.Machine.execAmo i_ s
  | .ctr i_ => Sys2Proof.Machine.execCtr i_ s
  | .ver i_ => Sys2Proof.Machine.execVer i_ s
  | .red i_ => Sys2Proof.Machine.execRed i_ s
  | .rereq i_ => Sys2Proof.Machine.execRereq i_ s
  | .ackpl i_ => Sys2Proof.Machine.execAckpl i_ s
  | .data i_ => Sys2Proof.Machine.execData i_ s
  | .result i_ => Sys2Proof.Machine.execResult i_ s
  | .partialRelease i_ => Sys2Proof.Machine.execPartialRelease i_ s
  | .nack i_ => Sys2Proof.Machine.execNack i_ s
  | .mgmt i_ => Sys2Proof.Machine.execMgmt i_ s
  | .ptmoExpiry i_ => Sys2Proof.Machine.execPtmoExpiry i_ s
  | .ptmoHalfRereq i_ => Sys2Proof.Machine.execPtmoHalfRereq i_ s
  | .combiningUncorrectable i_ => Sys2Proof.Machine.execCombiningUncorrectable i_ s
  | .packageReset fw => Sys2Proof.Machine.execPackageReset fw s
  | .recoveryImage k img => Sys2Proof.Machine.execRecoveryImage k img s
  | .getVersion f b => Sys2Proof.Machine.execGetVersion f b s
  | .getCapabilities f b => Sys2Proof.Machine.execGetCapabilities f b s
  | .negotiateAlgorithms f b => Sys2Proof.Machine.execNegotiateAlgorithms f b s
  | .getDigests f b => Sys2Proof.Machine.execGetDigests f b s
  | .getCertificate f b => Sys2Proof.Machine.execGetCertificate f b s
  | .challenge f b => Sys2Proof.Machine.execChallenge f b s
  | .getMeasurements f b => Sys2Proof.Machine.execGetMeasurements f b s
  | .keyExchange f b => Sys2Proof.Machine.execKeyExchange f b s
  | .finish f b => Sys2Proof.Machine.execFinish f b s
  | .heartbeat f b => Sys2Proof.Machine.execHeartbeat f b s
  | .keyUpdate f b => Sys2Proof.Machine.execKeyUpdate f b s
  | .endSession f b => Sys2Proof.Machine.execEndSession f b s
  | .keyProg f b => Sys2Proof.Machine.execKeyProg f b s
  | .keyErase f b => Sys2Proof.Machine.execKeyErase f b s
  | .unsupportedRequest f b => Sys2Proof.Machine.execUnsupportedRequest f b s
  | .ideKm f b => Sys2Proof.Machine.execIdeKm f b s
  | .ideIntegrityFailure f => Sys2Proof.Machine.execIdeIntegrityFailure f s
  | .getDeviceInterfaceState f => Sys2Proof.Machine.execGetDeviceInterfaceState f s
  | .lockInterfaceRequest f => Sys2Proof.Machine.execLockInterfaceRequest f s
  | .getDeviceInterfaceReport f => Sys2Proof.Machine.execGetDeviceInterfaceReport f s
  | .startInterfaceRequest f => Sys2Proof.Machine.execStartInterfaceRequest f s
  | .stopInterfaceRequest f => Sys2Proof.Machine.execStopInterfaceRequest f s
  | .vfQBind f a n => Sys2Proof.Machine.execVfQBind f a n s
  | .vfQTeardownDrain f a n => Sys2Proof.Machine.execVfQTeardownDrain f a n s
  | .vfQTeardownKill f a n => Sys2Proof.Machine.execVfQTeardownKill f a n s
  | .vfQTeardownFreeze f a n => Sys2Proof.Machine.execVfQTeardownFreeze f a n s
  | .vfQRestore f a n => Sys2Proof.Machine.execVfQRestore f a n s
  | .vfPreempt f a n => Sys2Proof.Machine.execVfPreempt f a n s
  | .vfResume f a n => Sys2Proof.Machine.execVfResume f a n s
  | .vfInvAsid f a n => Sys2Proof.Machine.execVfInvAsid f a n s
  | .vfInvPage f a n => Sys2Proof.Machine.execVfInvPage f a n s
  | .vfInvWindow f a n => Sys2Proof.Machine.execVfInvWindow f a n s
  | .vfInvKey f a n => Sys2Proof.Machine.execVfInvKey f a n s
  | .vfWinMake f a n => Sys2Proof.Machine.execVfWinMake f a n s
  | .vfRegionSet f a n => Sys2Proof.Machine.execVfRegionSet f a n s
  | .vfRegionClear f a n => Sys2Proof.Machine.execVfRegionClear f a n s
  | .vfParkResume f a n => Sys2Proof.Machine.execVfParkResume f a n s
  | .vfParkDrop f a n => Sys2Proof.Machine.execVfParkDrop f a n s
  | .entryWr f a sel n => Sys2Proof.Machine.execEntryWr f a sel n s
  | .dbgSessionWrite n v => Sys2Proof.Machine.execDbgSessionWrite n v s
  | .dbgStop n => Sys2Proof.Machine.execDbgStop n s
  | .dbgResume n => Sys2Proof.Machine.execDbgResume n s
  | .dbgStep n => Sys2Proof.Machine.execDbgStep n s
  | .dbgDataRead n => Sys2Proof.Machine.execDbgDataRead n s
  | .dbgDataWrite n v => Sys2Proof.Machine.execDbgDataWrite n v s
  | .replayParting c => Sys2Proof.Machine.execReplayParting c s
  | .ppsEdge => Sys2Proof.Machine.execPpsEdge s
  | .todMessage b => Sys2Proof.Machine.execTodMessage b s
  | .todByteGap => Sys2Proof.Machine.execTodByteGap s
  | .todDeadline => Sys2Proof.Machine.execTodDeadline s
  | .timeLock t p => Sys2Proof.Machine.execTimeLock t p s
  | .timeSourceLoss => Sys2Proof.Machine.execTimeSourceLoss s
  | .registerWrite f off v => Sys2Proof.Machine.execRegisterWrite f off v s

end Sys2Proof.Machine
end

