-- ==== Sys2Proof/Machine/Issue.lean ====
section
/-! DEFINITION. Machine/Issue: what a step is made of: an event or operation and what follows at once from it, the slots of a bundle run
one after another, the events taken by default, the clock (log 2, 3). Fetch decodes: see Decode. -/

namespace Sys2Proof.Machine

noncomputable section

/-! ## A bundle's slots -/

/-- Runs the slots that fetch has put up, C first; every one reads the core as it stood before the bundle (R110). -/
def runSlots : Nat → State → Ans
  | 0, s => .next s
  | k + 1, s =>
    match s.issue with
    | none => .next s
    | some b => match b.todo with
      | [] => .next s
      | (n, i) :: l => match exec i { s with issue := some { b with todo := l, slot := n } } with
        | .next t => runSlots k t
        | r => r

/-- Operations a bundle has still to run. -/
def slotsLeft (s : State) : Nat := match s.issue with | some b => b.todo.length | none => 0

/-- Runs what a fetched bundle holds, then commits it. -/
def runBundle (s : State) : Ans :=
  match s.issue with
  | none => .next s
  | some _ => match runSlots (slotsLeft s) s with
    | .next t => .next (commitBundle t)
    | r => r

/-! ## What follows at once -/

/-- Buffered stores that an event has marked leave their cores (R118). -/
def sendDue (s : State) : State :=
  s.cores.foldl (fun s (n, c) => if c.f.comb.any CombEntry.due then flushComb s n fun e => e.due else s) s

/-- Everything that follows at once; versions that a floor has passed are freed whatever raised it (R123). -/
def settle (s : State) : State := bufSettle (invSettle (hubRun (schedSettle (sendDue (reclaimAll s)))))

/-- HBM ends at 512 GiB (R12): what a table or register of the driver points beyond it is not stored (log 95). -/
def clip (s : State) : State := { s with mem := s.mem.filter fun (a, _) => a < hbmSize }

/-- What follows a next state. -/
def close (r : Ans) : Ans :=
  match r with
  | .next s => .next (clip (settle s))
  | r => r

/-- One event or operation, the bundle it begins, and what follows. -/
def run (i : Instr) (s : State) : Ans :=
  close (match exec i s with
    | .next t => runBundle t
    | r => r)

/-! ## Events taken by default (log 3) -/

/-- The event of a packet that has arrived. -/
def packetEvent (i : Nat) (p : Packet) : Instr :=
  match p.op with
  | 1 => .wr i
  | 2 => .rd i
  | 3 => .amo i
  | 4 => .ctr i
  | 5 => .ver i
  | 6 => .red i
  | 7 => .rereq i
  | 0x20 => .ackpl i
  | 0x21 => .data i
  | 0x22 => .result i
  | 0x23 => .partialRelease i
  | 0x24 => .nack i
  | _ => .mgmt i

/-- Events of a core's queues and engines. A `ccpy` starts by default only where it reads no host memory. -/
def coreEvents (n : Nat) (c : Core) : List Instr :=
  ((upTo c.f.gq.length).flatMap fun i => [.gLoadReturn n i, .placementAck n i]) ++
  ((upTo c.f.unacked.length).map fun i => .placementAck n (c.f.gq.length + i)) ++
  ((upTo c.f.drainq.length).map fun i => .drainRowPlaced n i) ++
  ((upTo c.f.comb.length).map fun i => .combiningEntryAgeFlush n i) ++
  (c.f.cmds.zipIdx.flatMap fun (x, i) =>
    if !x.started then (if x.op = 0x0B then [] else [.engineCommandStart n i 0 0])
    else if x.op = 9 then [.collTransfer n i, .engineCommandComplete n i 0]
    else if x.op = 0x0A then [.dispClaim n i, .engineCommandComplete n i 0]
    else if x.op = 7 then [.engineCommandComplete n i 0, .rredRetry n i, .rredTimeout n i]
    else [.engineCommandComplete n i 0]) ++
  (if haltDone c then [.tileTaskRetire n] else []) ++
  (if c.q.stopReq = 1 then [.preemptForcedStop n] else if c.q.stopReq = 4 then [.fillerStopTimeout n] else []) ++
  (if c.sample < 1024 then [] else [.traceSample n]) ++
  (if c.pmc.ctl.getLsbD 63 then [.pmcRotation n] else [])

/-- Events of the hub and its trunks; a training succeeds by default. -/
def hubEvents (s : State) : List Instr :=
  (s.hub.rx.zipIdx.map fun (p, i) => packetEvent i p) ++
  ((upTo s.hub.reds.length).flatMap fun i => [.ptmoExpiry i, .ptmoHalfRereq i]) ++
  (s.hub.holds.map fun (d, _) => .routeHoldExpiry d) ++
  (s.hub.trunks.flatMap fun (n, _) => [.replayReqRepeat n, .trainingDone n 1, .probationExpiry n])

/-- Events of the scheduler. A record of a ring in host memory is read only where the agenda says what it holds. -/
def schedEvents (s : State) : List Instr :=
  (s.qs.flatMap fun (q, x) =>
    [.queueSlotRequest q] ++ (if qHost s q then [] else [.recordRead q 0]) ++ (if x.head.isSome then [.dependencesMet q, .gangPlacement q []] else []) ++
    (if x.turn.isSome then [.quantumExpiry q] else [])) ++
  (s.gangs.flatMap fun (g, _) => [.contextSave g, .contextRestore g 1 []])

/-- Events of the clock, telemetry and replay. -/
def timeEvents (s : State) : List Instr :=
  (if evalDue s then [.derailleurEvaluation] else []) ++ (if tlmDue s then [.telemetryRecord] else []) ++
  (if s.time.edge.isSome then [.todByteGap, .todDeadline] else []) ++
  (s.rpl.waiting.map fun (a, _) => .replayParting a)

/-- Everything that might happen by itself, each time from another place on. -/
def ownEvents (s : State) : List Instr :=
  let l := timeEvents s ++ hubEvents s ++ ((upTo s.walks.length).map fun i => .translationWalk i) ++ (s.cores.flatMap fun (n, c) => coreEvents n c) ++ schedEvents s
  let k := s.now % (l.length + 1)
  l.drop k ++ l.take k

/-- The state after the first of some events that changes it. -/
def firstChange (s : State) : List Instr → State
  | [] => s
  | i :: l => match exec i s with
    | .next t => if t = s then firstChange s l else t
    | _ => firstChange s l

/-! ## The clock -/

/-- One cycle of the 1.9 GHz clock, in units of 1/19,000,000 ns, at the clock's rate (R183, R437). -/
def cycleDev (s : State) : Nat := (10 * (1000000 + s.ppm)).toNat

/-- What is due at a DEVTIME comes before anything else: the governor's evaluation, then the telemetry record (R427, R438, log 117). -/
def timeDue (s : State) : State :=
  { s with agenda := (if evalDue s then [.derailleurEvaluation] else []) ++ (if tlmDue s then [.telemetryRecord] else []) ++ s.agenda }

/-- The next cycle of the package clock begins: times of the performance counters, the quads' ports, flits that wait for
credit, arbiters that wait on replay. -/
def clockEdge (s : State) : State :=
  let d := cycleDev s
  timeDue <| rplWatch <| creditTick (portTick { s with now := s.now + 1, dev := s.dev + d, turn := 0, cores := s.cores.map fun (n, c) => (n, pmcTime c d) })

/-- What happens where the agenda says nothing: the next core has its cycle; after the last one, one event, and the clock moves on. -/
def defaultStep (s : State) : Ans :=
  if s.turn < 192 then run (.bundleFetch s.turn) { s with turn := s.turn + 1 } else close (.next (clockEdge (firstChange s (ownEvents s))))

/-! ## A program of one bundle -/

/-- A bundle that holds one word in the first slot of a class. -/
def bundleOf (k : SlotClass) (w : Nat) : BitVec 384 :=
  match slotTable.find? fun x => x.2.1 == k with
  | some (_, _, lo, _) => BitVec.ofNat 384 (w * 2 ^ lo)
  | none => 0

/-- Loop levels and constants such that any operation may name them: `loop.swp` needs levels of two stages. -/
def levelsFor (i : Option Instr) : List Level :=
  let n := match i with | some (.loopSwp _ _) => 2 | _ => 1
  List.replicate 8 ⟨0, 1, false, n, 1, 1⟩

/-- Core 0 ready to fetch a program of one bundle, with nothing in flight that could hold it. -/
def loadedCore (c : Core) (b : BitVec 384) (i : Option Instr) : Core :=
  { c with
    f := .reset, halted := false, bind := none
    r := { c.r with tok := 0, loops := [] }
    m := { c.m with hheld := [] }
    q := { Seqr.reset with running := true, act := c.q.act, seq := c.q.seq }
    prog := { c.prog with dict := [b], code := [0], consts := List.replicate 256 0, levels := levelsFor i } }

end

end Sys2Proof.Machine
end

