-- ==== Sys2Proof/Machine/Step.lean ====
section
/-! DEFINITION. Machine/Step: one step of the machine. -/

namespace Sys2Proof.Machine

/-- One step: what the agenda names next, or what happens by default (log 2, 3). -/
noncomputable def step (s : State) : Host.Outcome State Fault Refusal :=
  match s.agenda with
  | i :: l => run i { s with agenda := l }
  | [] => defaultStep s

/-- The instruction of a word as the one slot of a one-bundle program of core 0, which the next step fetches and issues (log 11). -/
noncomputable def State.withFetchWord (s : State) (nbits w : Nat) : State :=
  let k := decodeFirst (tableClasses nbits) w
  let b := match k with
    | some (cls, _) => bundleOf cls w
    | none => match tableClasses nbits with | cls :: _ => bundleOf cls w | [] => 0
  { s with agenda := [], turn := 0, cur := 0, issue := none, cores := spSet s.cores 0 (loadedCore (coreAt s 0) b (k.map Prod.snd)) }

end Sys2Proof.Machine
end

