-- ==== Sys2Proof/Laws/PerInstr.lean ====
section
/-! SUPPORT. Laws/PerInstr: what holds of every instruction as syntax, one lemma per constructor. -/

namespace Sys2Proof.Laws.RoundTrip

open Sys2Proof

/-- Decoding the word of a well-formed slot operation, in the map of its slot class, gives the operation back (R145). -/
def Statement (i : Instr) : Prop := ∀ k, i.slotClass = some k → i.wf = true → decodeSlot k (encode i) = .ok i

theorem of_c {v op : Nat} {i : Instr} (h : v < 2 ^ 24) (ho : fld v 19 15 = op) (hd : decCOp op v = .ok i) : decodeSlot .c v = .ok i := by
  subst ho; exact (if_neg (Nat.not_le.mpr h)).trans hd

theorem of_s {v op : Nat} {i : Instr} (h : v < 2 ^ 28) (ho : fld v 23 18 = op) (hd : decSOp op v = .ok i) : decodeSlot .s v = .ok i := by
  subst ho; exact (if_neg (Nat.not_le.mpr h)).trans hd

theorem of_l {v op : Nat} {i : Instr} (h : v < 2 ^ 28) (ho : fld v 23 19 = op) (hd : decLOp op v = .ok i) : decodeSlot .l v = .ok i := by
  subst ho; exact (if_neg (Nat.not_le.mpr h)).trans hd

theorem of_w {v op : Nat} {i : Instr} (h : v < 2 ^ 28) (ho : fld v 23 19 = op) (hd : decWOp op v = .ok i) : decodeSlot .w v = .ok i := by
  subst ho; exact (if_neg (Nat.not_le.mpr h)).trans hd

theorem of_g {v op : Nat} {i : Instr} (h : v < 2 ^ 32) (ho : fld v 27 22 = op) (hd : decGOp op v = .ok i) : decodeSlot .g v = .ok i := by
  subst ho; exact (if_neg (Nat.not_le.mpr h)).trans hd

theorem of_x {v op : Nat} {i : Instr} (h : v < 2 ^ 32) (ho : fld v 27 23 = op) (hd : decXOp op v = .ok i) : decodeSlot .x v = .ok i := by
  subst ho; exact (if_neg (Nat.not_le.mpr h)).trans hd

theorem of_v {v op : Nat} {i : Instr} (h : v < 2 ^ 48) (ho : fld v 43 37 = op) (hd : decVOp op v = .ok i) : decodeSlot .v v = .ok i := by
  subst ho; exact (if_neg (Nat.not_le.mpr h)).trans hd

theorem of_p {v op : Nat} {i : Instr} (h : v < 2 ^ 24) (ho : fld v 19 16 = op) (hd : decPOp op v = .ok i) : decodeSlot .p v = .ok i := by
  subst ho; exact (if_neg (Nat.not_le.mpr h)).trans hd

theorem of_u {v op : Nat} {i : Instr} (h : v < 2 ^ 24) (ho : fld v 19 16 = op) (hd : decUOp op v = .ok i) : decodeSlot .u v = .ok i := by
  subst ho; exact (if_neg (Nat.not_le.mpr h)).trans hd

theorem of_a {v op : Nat} {i : Instr} (h : v < 2 ^ 32) (ho : fld v 27 22 = op) (hd : decAOp op v = .ok i) : decodeSlot .a v = .ok i := by
  subst ho; exact (if_neg (Nat.not_le.mpr h)).trans hd

theorem vopOk_lt {v : Nat} (h : vopOk v = true) : v < 4096 := by
  unfold vopOk at h; simp at h; exact h.1

theorem sysReadable_lt {r : Nat} (h : sysReadable r = true) : r < 512 := by
  unfold sysReadable at h; simp at h; omega

theorem sysWritable_lt {r : Nat} (h : sysWritable r = true) : r < 512 := by
  unfold sysWritable at h; simp at h; omega

theorem decForm_ok {z : Bool} {i : Instr} (hz : z = true) (h : i.wf = true) : decForm z i = .ok i := by
  subst hz; unfold decForm; rw [if_neg (by decide), if_pos h]

theorem cNop (p : Nat) : Statement (.cNop p) := by
  intro k h hw
  cases h
  have hb : p < 16 := of_decide_eq_true hw
  obtain ⟨v, hv⟩ : ∃ v, v = p * 0x100000 + 0x0 := ⟨_, rfl⟩
  rw [show encode (.cNop p) = v from hv.symm]
  refine of_c (op := 0) (by omega) (by unfold fld; omega) ?_
  have e0 : fld v 23 20 = p := by unfold fld; omega
  have e1 : fld v 14 0 = 0 := by unfold fld; omega
  show decForm (fld v 14 0 == 0) (.cNop (fld v 23 20)) = _
  rw [e0, e1]
  exact decForm_ok rfl hw

theorem pbr (p b r : Nat) : Statement (.pbr p b r) := by
  intro k h hw
  cases h
  have hb : p < 16 ∧ b < 8 ∧ r < 4096 := of_decide_eq_true hw
  obtain ⟨h0, h1, h2⟩ := hb
  obtain ⟨v, hv⟩ : ∃ v, v = p * 0x100000 + b * 0x1000 + r + 0x8000 := ⟨_, rfl⟩
  rw [show encode (.pbr p b r) = v from hv.symm]
  refine of_c (op := 1) (by omega) (by unfold fld; omega) ?_
  have e0 : fld v 23 20 = p := by unfold fld; omega
  have e1 : fld v 14 12 = b := by unfold fld; omega
  have e2 : fld v 11 0 = r := by unfold fld; omega
  show decForm (true) (.pbr (fld v 23 20) (fld v 14 12) (fld v 11 0)) = _
  rw [e0, e1, e2]
  exact decForm_ok rfl hw

theorem pbrS (p b a : Nat) : Statement (.pbrS p b a) := by
  intro k h hw
  cases h
  have hb : p < 16 ∧ b < 8 ∧ a < 64 := of_decide_eq_true hw
  obtain ⟨h0, h1, h2⟩ := hb
  obtain ⟨v, hv⟩ : ∃ v, v = p * 0x100000 + b * 0x1000 + a * 0x40 + 0x10000 := ⟨_, rfl⟩
  rw [show encode (.pbrS p b a) = v from hv.symm]
  refine of_c (op := 2) (by omega) (by unfold fld; omega) ?_
  have e0 : fld v 23 20 = p := by unfold fld; omega
  have e1 : fld v 14 12 = b := by unfold fld; omega
  have e2 : fld v 11 6 = a := by unfold fld; omega
  have e3 : fld v 5 0 = 0 := by unfold fld; omega
  show decForm (fld v 5 0 == 0) (.pbrS (fld v 23 20) (fld v 14 12) (fld v 11 6)) = _
  rw [e0, e1, e2, e3]
  exact decForm_ok rfl hw

theorem br (p b q : Nat) : Statement (.br p b q) := by
  intro k h hw
  cases h
  have hb : p < 16 ∧ b < 8 ∧ q < 16 := of_decide_eq_true hw
  obtain ⟨h0, h1, h2⟩ := hb
  obtain ⟨v, hv⟩ : ∃ v, v = p * 0x100000 + b * 0x1000 + q * 0x100 + 0x18000 := ⟨_, rfl⟩
  rw [show encode (.br p b q) = v from hv.symm]
  refine of_c (op := 3) (by omega) (by unfold fld; omega) ?_
  have e0 : fld v 23 20 = p := by unfold fld; omega
  have e1 : fld v 14 12 = b := by unfold fld; omega
  have e2 : fld v 11 8 = q := by unfold fld; omega
  have e3 : fld v 7 0 = 0 := by unfold fld; omega
  show decForm (fld v 7 0 == 0) (.br (fld v 23 20) (fld v 14 12) (fld v 11 8)) = _
  rw [e0, e1, e2, e3]
  exact decForm_ok rfl hw

theorem brN (p b q : Nat) : Statement (.brN p b q) := by
  intro k h hw
  cases h
  have hb : p < 16 ∧ b < 8 ∧ q < 16 := of_decide_eq_true hw
  obtain ⟨h0, h1, h2⟩ := hb
  obtain ⟨v, hv⟩ : ∃ v, v = p * 0x100000 + b * 0x1000 + q * 0x100 + 0x20000 := ⟨_, rfl⟩
  rw [show encode (.brN p b q) = v from hv.symm]
  refine of_c (op := 4) (by omega) (by unfold fld; omega) ?_
  have e0 : fld v 23 20 = p := by unfold fld; omega
  have e1 : fld v 14 12 = b := by unfold fld; omega
  have e2 : fld v 11 8 = q := by unfold fld; omega
  have e3 : fld v 7 0 = 0 := by unfold fld; omega
  show decForm (fld v 7 0 == 0) (.brN (fld v 23 20) (fld v 14 12) (fld v 11 8)) = _
  rw [e0, e1, e2, e3]
  exact decForm_ok rfl hw

theorem call (p b : Nat) : Statement (.call p b) := by
  intro k h hw
  cases h
  have hb : p < 16 ∧ b < 8 := of_decide_eq_true hw
  obtain ⟨h0, h1⟩ := hb
  obtain ⟨v, hv⟩ : ∃ v, v = p * 0x100000 + b * 0x1000 + 0x28000 := ⟨_, rfl⟩
  rw [show encode (.call p b) = v from hv.symm]
  refine of_c (op := 5) (by omega) (by unfold fld; omega) ?_
  have e0 : fld v 23 20 = p := by unfold fld; omega
  have e1 : fld v 14 12 = b := by unfold fld; omega
  have e2 : fld v 11 0 = 0 := by unfold fld; omega
  show decForm (fld v 11 0 == 0) (.call (fld v 23 20) (fld v 14 12)) = _
  rw [e0, e1, e2]
  exact decForm_ok rfl hw

theorem ret (p : Nat) : Statement (.ret p) := by
  intro k h hw
  cases h
  have hb : p < 16 := of_decide_eq_true hw
  obtain ⟨v, hv⟩ : ∃ v, v = p * 0x100000 + 0x30000 := ⟨_, rfl⟩
  rw [show encode (.ret p) = v from hv.symm]
  refine of_c (op := 6) (by omega) (by unfold fld; omega) ?_
  have e0 : fld v 23 20 = p := by unfold fld; omega
  have e1 : fld v 14 0 = 0 := by unfold fld; omega
  show decForm (fld v 14 0 == 0) (.ret (fld v 23 20)) = _
  rw [e0, e1]
  exact decForm_ok rfl hw

theorem loop (p i : Nat) : Statement (.loop p i) := by
  intro k h hw
  cases h
  have hb : p < 16 ∧ i < 8 := of_decide_eq_true hw
  obtain ⟨h0, h1⟩ := hb
  obtain ⟨v, hv⟩ : ∃ v, v = p * 0x100000 + i * 0x1000 + 0x38000 := ⟨_, rfl⟩
  rw [show encode (.loop p i) = v from hv.symm]
  refine of_c (op := 7) (by omega) (by unfold fld; omega) ?_
  have e0 : fld v 23 20 = p := by unfold fld; omega
  have e1 : fld v 14 12 = i := by unfold fld; omega
  have e2 : fld v 11 0 = 0 := by unfold fld; omega
  show decForm (fld v 11 0 == 0) (.loop (fld v 23 20) (fld v 14 12)) = _
  rw [e0, e1, e2]
  exact decForm_ok rfl hw

theorem loopSwp (p i : Nat) : Statement (.loopSwp p i) := by
  intro k h hw
  cases h
  have hb : p < 16 ∧ i < 8 := of_decide_eq_true hw
  obtain ⟨h0, h1⟩ := hb
  obtain ⟨v, hv⟩ : ∃ v, v = p * 0x100000 + i * 0x1000 + 0x40000 := ⟨_, rfl⟩
  rw [show encode (.loopSwp p i) = v from hv.symm]
  refine of_c (op := 8) (by omega) (by unfold fld; omega) ?_
  have e0 : fld v 23 20 = p := by unfold fld; omega
  have e1 : fld v 14 12 = i := by unfold fld; omega
  have e2 : fld v 11 0 = 0 := by unfold fld; omega
  show decForm (fld v 11 0 == 0) (.loopSwp (fld v 23 20) (fld v 14 12)) = _
  rw [e0, e1, e2]
  exact decForm_ok rfl hw

theorem lbrk (p i : Nat) : Statement (.lbrk p i) := by
  intro k h hw
  cases h
  have hb : p < 16 ∧ i < 8 := of_decide_eq_true hw
  obtain ⟨h0, h1⟩ := hb
  obtain ⟨v, hv⟩ : ∃ v, v = p * 0x100000 + i * 0x1000 + 0x48000 := ⟨_, rfl⟩
  rw [show encode (.lbrk p i) = v from hv.symm]
  refine of_c (op := 9) (by omega) (by unfold fld; omega) ?_
  have e0 : fld v 23 20 = p := by unfold fld; omega
  have e1 : fld v 14 12 = i := by unfold fld; omega
  have e2 : fld v 11 0 = 0 := by unfold fld; omega
  show decForm (fld v 11 0 == 0) (.lbrk (fld v 23 20) (fld v 14 12)) = _
  rw [e0, e1, e2]
  exact decForm_ok rfl hw

theorem ctwait (p c a : Nat) : Statement (.ctwait p c a) := by
  intro k h hw
  cases h
  have hb : p < 16 ∧ c < 512 ∧ a ≤ 62 := of_decide_eq_true hw
  obtain ⟨h0, h1, h2⟩ := hb
  obtain ⟨v, hv⟩ : ∃ v, v = p * 0x100000 + c * 0x40 + a + 0x50000 := ⟨_, rfl⟩
  rw [show encode (.ctwait p c a) = v from hv.symm]
  refine of_c (op := 10) (by omega) (by unfold fld; omega) ?_
  have e0 : fld v 23 20 = p := by unfold fld; omega
  have e1 : fld v 14 6 = c := by unfold fld; omega
  have e2 : fld v 5 0 = a := by unfold fld; omega
  show decForm (true) (.ctwait (fld v 23 20) (fld v 14 6) (fld v 5 0)) = _
  rw [e0, e1, e2]
  exact decForm_ok rfl hw

theorem ctwaitT (p c a : Nat) : Statement (.ctwaitT p c a) := by
  intro k h hw
  cases h
  have hb : p < 16 ∧ c < 512 ∧ a ≤ 62 := of_decide_eq_true hw
  obtain ⟨h0, h1, h2⟩ := hb
  obtain ⟨v, hv⟩ : ∃ v, v = p * 0x100000 + c * 0x40 + a + 0x58000 := ⟨_, rfl⟩
  rw [show encode (.ctwaitT p c a) = v from hv.symm]
  refine of_c (op := 11) (by omega) (by unfold fld; omega) ?_
  have e0 : fld v 23 20 = p := by unfold fld; omega
  have e1 : fld v 14 6 = c := by unfold fld; omega
  have e2 : fld v 5 0 = a := by unfold fld; omega
  show decForm (true) (.ctwaitT (fld v 23 20) (fld v 14 6) (fld v 5 0)) = _
  rw [e0, e1, e2]
  exact decForm_ok rfl hw

theorem ctwaitG (p a : Nat) : Statement (.ctwaitG p a) := by
  intro k h hw
  cases h
  have hb : p < 16 ∧ a ≤ 61 := of_decide_eq_true hw
  obtain ⟨h0, h1⟩ := hb
  obtain ⟨v, hv⟩ : ∃ v, v = p * 0x100000 + a + 0x60000 := ⟨_, rfl⟩
  rw [show encode (.ctwaitG p a) = v from hv.symm]
  refine of_c (op := 12) (by omega) (by unfold fld; omega) ?_
  have e0 : fld v 23 20 = p := by unfold fld; omega
  have e1 : fld v 5 0 = a := by unfold fld; omega
  have e2 : fld v 14 6 = 0 := by unfold fld; omega
  show decForm (fld v 14 6 == 0) (.ctwaitG (fld v 23 20) (fld v 5 0)) = _
  rw [e0, e1, e2]
  exact decForm_ok rfl hw

theorem ctwaitGt (p a : Nat) : Statement (.ctwaitGt p a) := by
  intro k h hw
  cases h
  have hb : p < 16 ∧ a ≤ 61 := of_decide_eq_true hw
  obtain ⟨h0, h1⟩ := hb
  obtain ⟨v, hv⟩ : ∃ v, v = p * 0x100000 + a + 0x68000 := ⟨_, rfl⟩
  rw [show encode (.ctwaitGt p a) = v from hv.symm]
  refine of_c (op := 13) (by omega) (by unfold fld; omega) ?_
  have e0 : fld v 23 20 = p := by unfold fld; omega
  have e1 : fld v 5 0 = a := by unfold fld; omega
  have e2 : fld v 14 6 = 0 := by unfold fld; omega
  show decForm (fld v 14 6 == 0) (.ctwaitGt (fld v 23 20) (fld v 5 0)) = _
  rw [e0, e1, e2]
  exact decForm_ok rfl hw

theorem tkwait (p x y z : Nat) : Statement (.tkwait p x y z) := by
  intro k h hw
  cases h
  have hb : p < 16 ∧ x < 32 ∧ y < 32 ∧ z < 32 ∧ 16 ≤ x ∧ (16 ≤ y ∨ (y = 0 ∧ z = 0)) ∧ (16 ≤ z ∨ z = 0) := of_decide_eq_true hw
  obtain ⟨h0, h1, h2, h3, h4, h5, h6⟩ := hb
  obtain ⟨v, hv⟩ : ∃ v, v = p * 0x100000 + x * 0x400 + y * 0x20 + z + 0x70000 := ⟨_, rfl⟩
  rw [show encode (.tkwait p x y z) = v from hv.symm]
  refine of_c (op := 14) (by omega) (by unfold fld; omega) ?_
  have e0 : fld v 23 20 = p := by unfold fld; omega
  have e1 : fld v 14 10 = x := by unfold fld; omega
  have e2 : fld v 9 5 = y := by unfold fld; omega
  have e3 : fld v 4 0 = z := by unfold fld; omega
  show decForm (true) (.tkwait (fld v 23 20) (fld v 14 10) (fld v 9 5) (fld v 4 0)) = _
  rw [e0, e1, e2, e3]
  exact decForm_ok rfl hw

theorem sstep (p : Nat) : Statement (.sstep p) := by
  intro k h hw
  cases h
  have hb : p < 16 := of_decide_eq_true hw
  obtain ⟨v, hv⟩ : ∃ v, v = p * 0x100000 + 0x78000 := ⟨_, rfl⟩
  rw [show encode (.sstep p) = v from hv.symm]
  refine of_c (op := 15) (by omega) (by unfold fld; omega) ?_
  have e0 : fld v 23 20 = p := by unfold fld; omega
  have e1 : fld v 14 0 = 0 := by unfold fld; omega
  show decForm (fld v 14 0 == 0) (.sstep (fld v 23 20)) = _
  rw [e0, e1]
  exact decForm_ok rfl hw

theorem yield (p : Nat) : Statement (.yield p) := by
  intro k h hw
  cases h
  have hb : p < 16 := of_decide_eq_true hw
  obtain ⟨v, hv⟩ : ∃ v, v = p * 0x100000 + 0x80000 := ⟨_, rfl⟩
  rw [show encode (.yield p) = v from hv.symm]
  refine of_c (op := 16) (by omega) (by unfold fld; omega) ?_
  have e0 : fld v 23 20 = p := by unfold fld; omega
  have e1 : fld v 14 0 = 0 := by unfold fld; omega
  show decForm (fld v 14 0 == 0) (.yield (fld v 23 20)) = _
  rw [e0, e1]
  exact decForm_ok rfl hw

theorem halt (p : Nat) : Statement (.halt p) := by
  intro k h hw
  cases h
  have hb : p < 16 := of_decide_eq_true hw
  obtain ⟨v, hv⟩ : ∃ v, v = p * 0x100000 + 0x88000 := ⟨_, rfl⟩
  rw [show encode (.halt p) = v from hv.symm]
  refine of_c (op := 17) (by omega) (by unfold fld; omega) ?_
  have e0 : fld v 23 20 = p := by unfold fld; omega
  have e1 : fld v 14 0 = 0 := by unfold fld; omega
  show decForm (fld v 14 0 == 0) (.halt (fld v 23 20)) = _
  rw [e0, e1]
  exact decForm_ok rfl hw

theorem brk (p n : Nat) : Statement (.brk p n) := by
  intro k h hw
  cases h
  have hb : p < 16 ∧ n < 256 := of_decide_eq_true hw
  obtain ⟨h0, h1⟩ := hb
  obtain ⟨v, hv⟩ : ∃ v, v = p * 0x100000 + n + 0x90000 := ⟨_, rfl⟩
  rw [show encode (.brk p n) = v from hv.symm]
  refine of_c (op := 18) (by omega) (by unfold fld; omega) ?_
  have e0 : fld v 23 20 = p := by unfold fld; omega
  have e1 : fld v 7 0 = n := by unfold fld; omega
  have e2 : fld v 14 8 = 0 := by unfold fld; omega
  show decForm (fld v 14 8 == 0) (.brk (fld v 23 20) (fld v 7 0)) = _
  rw [e0, e1, e2]
  exact decForm_ok rfl hw

theorem trap (p n : Nat) : Statement (.trap p n) := by
  intro k h hw
  cases h
  have hb : p < 16 ∧ n < 256 := of_decide_eq_true hw
  obtain ⟨h0, h1⟩ := hb
  obtain ⟨v, hv⟩ : ∃ v, v = p * 0x100000 + n + 0x98000 := ⟨_, rfl⟩
  rw [show encode (.trap p n) = v from hv.symm]
  refine of_c (op := 19) (by omega) (by unfold fld; omega) ?_
  have e0 : fld v 23 20 = p := by unfold fld; omega
  have e1 : fld v 7 0 = n := by unfold fld; omega
  have e2 : fld v 14 8 = 0 := by unfold fld; omega
  show decForm (fld v 14 8 == 0) (.trap (fld v 23 20) (fld v 7 0)) = _
  rw [e0, e1, e2]
  exact decForm_ok rfl hw

theorem tret (p : Nat) : Statement (.tret p) := by
  intro k h hw
  cases h
  have hb : p < 16 := of_decide_eq_true hw
  obtain ⟨v, hv⟩ : ∃ v, v = p * 0x100000 + 0xA0000 := ⟨_, rfl⟩
  rw [show encode (.tret p) = v from hv.symm]
  refine of_c (op := 20) (by omega) (by unfold fld; omega) ?_
  have e0 : fld v 23 20 = p := by unfold fld; omega
  have e1 : fld v 14 0 = 0 := by unfold fld; omega
  show decForm (fld v 14 0 == 0) (.tret (fld v 23 20)) = _
  rw [e0, e1]
  exact decForm_ok rfl hw

theorem sysrd (p d r : Nat) : Statement (.sysrd p d r) := by
  intro k h hw
  cases h
  have hb : p < 16 ∧ d < 64 ∧ sysReadable r = true := of_decide_eq_true hw
  obtain ⟨h0, h1, h2⟩ := hb
  have gh2 := sysReadable_lt h2
  obtain ⟨v, hv⟩ : ∃ v, v = p * 0x100000 + d * 0x200 + r + 0xA8000 := ⟨_, rfl⟩
  rw [show encode (.sysrd p d r) = v from hv.symm]
  refine of_c (op := 21) (by omega) (by unfold fld; omega) ?_
  have e0 : fld v 23 20 = p := by unfold fld; omega
  have e1 : fld v 14 9 = d := by unfold fld; omega
  have e2 : fld v 8 0 = r := by unfold fld; omega
  show decForm (true) (.sysrd (fld v 23 20) (fld v 14 9) (fld v 8 0)) = _
  rw [e0, e1, e2]
  exact decForm_ok rfl hw

theorem syswr (p a r : Nat) : Statement (.syswr p a r) := by
  intro k h hw
  cases h
  have hb : p < 16 ∧ a < 64 ∧ sysWritable r = true := of_decide_eq_true hw
  obtain ⟨h0, h1, h2⟩ := hb
  have gh2 := sysWritable_lt h2
  obtain ⟨v, hv⟩ : ∃ v, v = p * 0x100000 + a * 0x200 + r + 0xB0000 := ⟨_, rfl⟩
  rw [show encode (.syswr p a r) = v from hv.symm]
  refine of_c (op := 22) (by omega) (by unfold fld; omega) ?_
  have e0 : fld v 23 20 = p := by unfold fld; omega
  have e1 : fld v 14 9 = a := by unfold fld; omega
  have e2 : fld v 8 0 = r := by unfold fld; omega
  show decForm (true) (.syswr (fld v 23 20) (fld v 14 9) (fld v 8 0)) = _
  rw [e0, e1, e2]
  exact decForm_ok rfl hw

theorem wheel (p n : Nat) : Statement (.wheel p n) := by
  intro k h hw
  cases h
  have hb : p < 16 ∧ n < 256 := of_decide_eq_true hw
  obtain ⟨h0, h1⟩ := hb
  obtain ⟨v, hv⟩ : ∃ v, v = p * 0x100000 + n + 0xB8000 := ⟨_, rfl⟩
  rw [show encode (.wheel p n) = v from hv.symm]
  refine of_c (op := 23) (by omega) (by unfold fld; omega) ?_
  have e0 : fld v 23 20 = p := by unfold fld; omega
  have e1 : fld v 7 0 = n := by unfold fld; omega
  have e2 : fld v 14 8 = 0 := by unfold fld; omega
  show decForm (fld v 14 8 == 0) (.wheel (fld v 23 20) (fld v 7 0)) = _
  rw [e0, e1, e2]
  exact decForm_ok rfl hw

theorem pwrHint (p n : Nat) : Statement (.pwrHint p n) := by
  intro k h hw
  cases h
  have hb : p < 16 ∧ n < 16 := of_decide_eq_true hw
  obtain ⟨h0, h1⟩ := hb
  obtain ⟨v, hv⟩ : ∃ v, v = p * 0x100000 + n + 0xC0000 := ⟨_, rfl⟩
  rw [show encode (.pwrHint p n) = v from hv.symm]
  refine of_c (op := 24) (by omega) (by unfold fld; omega) ?_
  have e0 : fld v 23 20 = p := by unfold fld; omega
  have e1 : fld v 3 0 = n := by unfold fld; omega
  have e2 : fld v 14 4 = 0 := by unfold fld; omega
  show decForm (fld v 14 4 == 0) (.pwrHint (fld v 23 20) (fld v 3 0)) = _
  rw [e0, e1, e2]
  exact decForm_ok rfl hw

theorem sNop (p : Nat) : Statement (.sNop p) := by
  intro k h hw
  cases h
  have hb : p < 16 := of_decide_eq_true hw
  obtain ⟨v, hv⟩ : ∃ v, v = p * 0x1000000 + 0x0 := ⟨_, rfl⟩
  rw [show encode (.sNop p) = v from hv.symm]
  refine of_s (op := 0) (by omega) (by unfold fld; omega) ?_
  have e0 : fld v 27 24 = p := by unfold fld; omega
  have e1 : fld v 17 0 = 0 := by unfold fld; omega
  show decForm (fld v 17 0 == 0) (.sNop (fld v 27 24)) = _
  rw [e0, e1]
  exact decForm_ok rfl hw

theorem add (p d a b : Nat) : Statement (.add p d a b) := by
  intro k h hw
  cases h
  have hb : p < 16 ∧ d < 64 ∧ a < 64 ∧ b < 64 := of_decide_eq_true hw
  obtain ⟨h0, h1, h2, h3⟩ := hb
  obtain ⟨v, hv⟩ : ∃ v, v = p * 0x1000000 + d * 0x1000 + a * 0x40 + b + 0x40000 := ⟨_, rfl⟩
  rw [show encode (.add p d a b) = v from hv.symm]
  refine of_s (op := 1) (by omega) (by unfold fld; omega) ?_
  have e0 : fld v 27 24 = p := by unfold fld; omega
  have e1 : fld v 17 12 = d := by unfold fld; omega
  have e2 : fld v 11 6 = a := by unfold fld; omega
  have e3 : fld v 5 0 = b := by unfold fld; omega
  show decForm (true) (.add (fld v 27 24) (fld v 17 12) (fld v 11 6) (fld v 5 0)) = _
  rw [e0, e1, e2, e3]
  exact decForm_ok rfl hw

theorem sub (p d a b : Nat) : Statement (.sub p d a b) := by
  intro k h hw
  cases h
  have hb : p < 16 ∧ d < 64 ∧ a < 64 ∧ b < 64 := of_decide_eq_true hw
  obtain ⟨h0, h1, h2, h3⟩ := hb
  obtain ⟨v, hv⟩ : ∃ v, v = p * 0x1000000 + d * 0x1000 + a * 0x40 + b + 0x80000 := ⟨_, rfl⟩
  rw [show encode (.sub p d a b) = v from hv.symm]
  refine of_s (op := 2) (by omega) (by unfold fld; omega) ?_
  have e0 : fld v 27 24 = p := by unfold fld; omega
  have e1 : fld v 17 12 = d := by unfold fld; omega
  have e2 : fld v 11 6 = a := by unfold fld; omega
  have e3 : fld v 5 0 = b := by unfold fld; omega
  show decForm (true) (.sub (fld v 27 24) (fld v 17 12) (fld v 11 6) (fld v 5 0)) = _
  rw [e0, e1, e2, e3]
  exact decForm_ok rfl hw

theorem mul (p d a b : Nat) : Statement (.mul p d a b) := by
  intro k h hw
  cases h
  have hb : p < 16 ∧ d < 64 ∧ a < 64 ∧ b < 64 := of_decide_eq_true hw
  obtain ⟨h0, h1, h2, h3⟩ := hb
  obtain ⟨v, hv⟩ : ∃ v, v = p * 0x1000000 + d * 0x1000 + a * 0x40 + b + 0xC0000 := ⟨_, rfl⟩
  rw [show encode (.mul p d a b) = v from hv.symm]
  refine of_s (op := 3) (by omega) (by unfold fld; omega) ?_
  have e0 : fld v 27 24 = p := by unfold fld; omega
  have e1 : fld v 17 12 = d := by unfold fld; omega
  have e2 : fld v 11 6 = a := by unfold fld; omega
  have e3 : fld v 5 0 = b := by unfold fld; omega
  show decForm (true) (.mul (fld v 27 24) (fld v 17 12) (fld v 11 6) (fld v 5 0)) = _
  rw [e0, e1, e2, e3]
  exact decForm_ok rfl hw

theorem mulh (p d a b : Nat) : Statement (.mulh p d a b) := by
  intro k h hw
  cases h
  have hb : p < 16 ∧ d < 64 ∧ a < 64 ∧ b < 64 := of_decide_eq_true hw
  obtain ⟨h0, h1, h2, h3⟩ := hb
  obtain ⟨v, hv⟩ : ∃ v, v = p * 0x1000000 + d * 0x1000 + a * 0x40 + b + 0x100000 := ⟨_, rfl⟩
  rw [show encode (.mulh p d a b) = v from hv.symm]
  refine of_s (op := 4) (by omega) (by unfold fld; omega) ?_
  have e0 : fld v 27 24 = p := by unfold fld; omega
  have e1 : fld v 17 12 = d := by unfold fld; omega
  have e2 : fld v 11 6 = a := by unfold fld; omega
  have e3 : fld v 5 0 = b := by unfold fld; omega
  show decForm (true) (.mulh (fld v 27 24) (fld v 17 12) (fld v 11 6) (fld v 5 0)) = _
  rw [e0, e1, e2, e3]
  exact decForm_ok rfl hw

theorem mulhu (p d a b : Nat) : Statement (.mulhu p d a b) := by
  intro k h hw
  cases h
  have hb : p < 16 ∧ d < 64 ∧ a < 64 ∧ b < 64 := of_decide_eq_true hw
  obtain ⟨h0, h1, h2, h3⟩ := hb
  obtain ⟨v, hv⟩ : ∃ v, v = p * 0x1000000 + d * 0x1000 + a * 0x40 + b + 0x140000 := ⟨_, rfl⟩
  rw [show encode (.mulhu p d a b) = v from hv.symm]
  refine of_s (op := 5) (by omega) (by unfold fld; omega) ?_
  have e0 : fld v 27 24 = p := by unfold fld; omega
  have e1 : fld v 17 12 = d := by unfold fld; omega
  have e2 : fld v 11 6 = a := by unfold fld; omega
  have e3 : fld v 5 0 = b := by unfold fld; omega
  show decForm (true) (.mulhu (fld v 27 24) (fld v 17 12) (fld v 11 6) (fld v 5 0)) = _
  rw [e0, e1, e2, e3]
  exact decForm_ok rfl hw

theorem div (p d a b : Nat) : Statement (.div p d a b) := by
  intro k h hw
  cases h
  have hb : p < 16 ∧ d < 64 ∧ a < 64 ∧ b < 64 := of_decide_eq_true hw
  obtain ⟨h0, h1, h2, h3⟩ := hb
  obtain ⟨v, hv⟩ : ∃ v, v = p * 0x1000000 + d * 0x1000 + a * 0x40 + b + 0x180000 := ⟨_, rfl⟩
  rw [show encode (.div p d a b) = v from hv.symm]
  refine of_s (op := 6) (by omega) (by unfold fld; omega) ?_
  have e0 : fld v 27 24 = p := by unfold fld; omega
  have e1 : fld v 17 12 = d := by unfold fld; omega
  have e2 : fld v 11 6 = a := by unfold fld; omega
  have e3 : fld v 5 0 = b := by unfold fld; omega
  show decForm (true) (.div (fld v 27 24) (fld v 17 12) (fld v 11 6) (fld v 5 0)) = _
  rw [e0, e1, e2, e3]
  exact decForm_ok rfl hw

theorem divu (p d a b : Nat) : Statement (.divu p d a b) := by
  intro k h hw
  cases h
  have hb : p < 16 ∧ d < 64 ∧ a < 64 ∧ b < 64 := of_decide_eq_true hw
  obtain ⟨h0, h1, h2, h3⟩ := hb
  obtain ⟨v, hv⟩ : ∃ v, v = p * 0x1000000 + d * 0x1000 + a * 0x40 + b + 0x1C0000 := ⟨_, rfl⟩
  rw [show encode (.divu p d a b) = v from hv.symm]
  refine of_s (op := 7) (by omega) (by unfold fld; omega) ?_
  have e0 : fld v 27 24 = p := by unfold fld; omega
  have e1 : fld v 17 12 = d := by unfold fld; omega
  have e2 : fld v 11 6 = a := by unfold fld; omega
  have e3 : fld v 5 0 = b := by unfold fld; omega
  show decForm (true) (.divu (fld v 27 24) (fld v 17 12) (fld v 11 6) (fld v 5 0)) = _
  rw [e0, e1, e2, e3]
  exact decForm_ok rfl hw

theorem rem (p d a b : Nat) : Statement (.rem p d a b) := by
  intro k h hw
  cases h
  have hb : p < 16 ∧ d < 64 ∧ a < 64 ∧ b < 64 := of_decide_eq_true hw
  obtain ⟨h0, h1, h2, h3⟩ := hb
  obtain ⟨v, hv⟩ : ∃ v, v = p * 0x1000000 + d * 0x1000 + a * 0x40 + b + 0x200000 := ⟨_, rfl⟩
  rw [show encode (.rem p d a b) = v from hv.symm]
  refine of_s (op := 8) (by omega) (by unfold fld; omega) ?_
  have e0 : fld v 27 24 = p := by unfold fld; omega
  have e1 : fld v 17 12 = d := by unfold fld; omega
  have e2 : fld v 11 6 = a := by unfold fld; omega
  have e3 : fld v 5 0 = b := by unfold fld; omega
  show decForm (true) (.rem (fld v 27 24) (fld v 17 12) (fld v 11 6) (fld v 5 0)) = _
  rw [e0, e1, e2, e3]
  exact decForm_ok rfl hw

theorem remu (p d a b : Nat) : Statement (.remu p d a b) := by
  intro k h hw
  cases h
  have hb : p < 16 ∧ d < 64 ∧ a < 64 ∧ b < 64 := of_decide_eq_true hw
  obtain ⟨h0, h1, h2, h3⟩ := hb
  obtain ⟨v, hv⟩ : ∃ v, v = p * 0x1000000 + d * 0x1000 + a * 0x40 + b + 0x240000 := ⟨_, rfl⟩
  rw [show encode (.remu p d a b) = v from hv.symm]
  refine of_s (op := 9) (by omega) (by unfold fld; omega) ?_
  have e0 : fld v 27 24 = p := by unfold fld; omega
  have e1 : fld v 17 12 = d := by unfold fld; omega
  have e2 : fld v 11 6 = a := by unfold fld; omega
  have e3 : fld v 5 0 = b := by unfold fld; omega
  show decForm (true) (.remu (fld v 27 24) (fld v 17 12) (fld v 11 6) (fld v 5 0)) = _
  rw [e0, e1, e2, e3]
  exact decForm_ok rfl hw

theorem and (p d a b : Nat) : Statement (.and p d a b) := by
  intro k h hw
  cases h
  have hb : p < 16 ∧ d < 64 ∧ a < 64 ∧ b < 64 := of_decide_eq_true hw
  obtain ⟨h0, h1, h2, h3⟩ := hb
  obtain ⟨v, hv⟩ : ∃ v, v = p * 0x1000000 + d * 0x1000 + a * 0x40 + b + 0x280000 := ⟨_, rfl⟩
  rw [show encode (.and p d a b) = v from hv.symm]
  refine of_s (op := 10) (by omega) (by unfold fld; omega) ?_
  have e0 : fld v 27 24 = p := by unfold fld; omega
  have e1 : fld v 17 12 = d := by unfold fld; omega
  have e2 : fld v 11 6 = a := by unfold fld; omega
  have e3 : fld v 5 0 = b := by unfold fld; omega
  show decForm (true) (.and (fld v 27 24) (fld v 17 12) (fld v 11 6) (fld v 5 0)) = _
  rw [e0, e1, e2, e3]
  exact decForm_ok rfl hw

theorem or (p d a b : Nat) : Statement (.or p d a b) := by
  intro k h hw
  cases h
  have hb : p < 16 ∧ d < 64 ∧ a < 64 ∧ b < 64 := of_decide_eq_true hw
  obtain ⟨h0, h1, h2, h3⟩ := hb
  obtain ⟨v, hv⟩ : ∃ v, v = p * 0x1000000 + d * 0x1000 + a * 0x40 + b + 0x2C0000 := ⟨_, rfl⟩
  rw [show encode (.or p d a b) = v from hv.symm]
  refine of_s (op := 11) (by omega) (by unfold fld; omega) ?_
  have e0 : fld v 27 24 = p := by unfold fld; omega
  have e1 : fld v 17 12 = d := by unfold fld; omega
  have e2 : fld v 11 6 = a := by unfold fld; omega
  have e3 : fld v 5 0 = b := by unfold fld; omega
  show decForm (true) (.or (fld v 27 24) (fld v 17 12) (fld v 11 6) (fld v 5 0)) = _
  rw [e0, e1, e2, e3]
  exact decForm_ok rfl hw

theorem xor (p d a b : Nat) : Statement (.xor p d a b) := by
  intro k h hw
  cases h
  have hb : p < 16 ∧ d < 64 ∧ a < 64 ∧ b < 64 := of_decide_eq_true hw
  obtain ⟨h0, h1, h2, h3⟩ := hb
  obtain ⟨v, hv⟩ : ∃ v, v = p * 0x1000000 + d * 0x1000 + a * 0x40 + b + 0x300000 := ⟨_, rfl⟩
  rw [show encode (.xor p d a b) = v from hv.symm]
  refine of_s (op := 12) (by omega) (by unfold fld; omega) ?_
  have e0 : fld v 27 24 = p := by unfold fld; omega
  have e1 : fld v 17 12 = d := by unfold fld; omega
  have e2 : fld v 11 6 = a := by unfold fld; omega
  have e3 : fld v 5 0 = b := by unfold fld; omega
  show decForm (true) (.xor (fld v 27 24) (fld v 17 12) (fld v 11 6) (fld v 5 0)) = _
  rw [e0, e1, e2, e3]
  exact decForm_ok rfl hw

theorem andn (p d a b : Nat) : Statement (.andn p d a b) := by
  intro k h hw
  cases h
  have hb : p < 16 ∧ d < 64 ∧ a < 64 ∧ b < 64 := of_decide_eq_true hw
  obtain ⟨h0, h1, h2, h3⟩ := hb
  obtain ⟨v, hv⟩ : ∃ v, v = p * 0x1000000 + d * 0x1000 + a * 0x40 + b + 0x340000 := ⟨_, rfl⟩
  rw [show encode (.andn p d a b) = v from hv.symm]
  refine of_s (op := 13) (by omega) (by unfold fld; omega) ?_
  have e0 : fld v 27 24 = p := by unfold fld; omega
  have e1 : fld v 17 12 = d := by unfold fld; omega
  have e2 : fld v 11 6 = a := by unfold fld; omega
  have e3 : fld v 5 0 = b := by unfold fld; omega
  show decForm (true) (.andn (fld v 27 24) (fld v 17 12) (fld v 11 6) (fld v 5 0)) = _
  rw [e0, e1, e2, e3]
  exact decForm_ok rfl hw

theorem sll (p d a b : Nat) : Statement (.sll p d a b) := by
  intro k h hw
  cases h
  have hb : p < 16 ∧ d < 64 ∧ a < 64 ∧ b < 64 := of_decide_eq_true hw
  obtain ⟨h0, h1, h2, h3⟩ := hb
  obtain ⟨v, hv⟩ : ∃ v, v = p * 0x1000000 + d * 0x1000 + a * 0x40 + b + 0x380000 := ⟨_, rfl⟩
  rw [show encode (.sll p d a b) = v from hv.symm]
  refine of_s (op := 14) (by omega) (by unfold fld; omega) ?_
  have e0 : fld v 27 24 = p := by unfold fld; omega
  have e1 : fld v 17 12 = d := by unfold fld; omega
  have e2 : fld v 11 6 = a := by unfold fld; omega
  have e3 : fld v 5 0 = b := by unfold fld; omega
  show decForm (true) (.sll (fld v 27 24) (fld v 17 12) (fld v 11 6) (fld v 5 0)) = _
  rw [e0, e1, e2, e3]
  exact decForm_ok rfl hw

theorem srl (p d a b : Nat) : Statement (.srl p d a b) := by
  intro k h hw
  cases h
  have hb : p < 16 ∧ d < 64 ∧ a < 64 ∧ b < 64 := of_decide_eq_true hw
  obtain ⟨h0, h1, h2, h3⟩ := hb
  obtain ⟨v, hv⟩ : ∃ v, v = p * 0x1000000 + d * 0x1000 + a * 0x40 + b + 0x3C0000 := ⟨_, rfl⟩
  rw [show encode (.srl p d a b) = v from hv.symm]
  refine of_s (op := 15) (by omega) (by unfold fld; omega) ?_
  have e0 : fld v 27 24 = p := by unfold fld; omega
  have e1 : fld v 17 12 = d := by unfold fld; omega
  have e2 : fld v 11 6 = a := by unfold fld; omega
  have e3 : fld v 5 0 = b := by unfold fld; omega
  show decForm (true) (.srl (fld v 27 24) (fld v 17 12) (fld v 11 6) (fld v 5 0)) = _
  rw [e0, e1, e2, e3]
  exact decForm_ok rfl hw

theorem sra (p d a b : Nat) : Statement (.sra p d a b) := by
  intro k h hw
  cases h
  have hb : p < 16 ∧ d < 64 ∧ a < 64 ∧ b < 64 := of_decide_eq_true hw
  obtain ⟨h0, h1, h2, h3⟩ := hb
  obtain ⟨v, hv⟩ : ∃ v, v = p * 0x1000000 + d * 0x1000 + a * 0x40 + b + 0x400000 := ⟨_, rfl⟩
  rw [show encode (.sra p d a b) = v from hv.symm]
  refine of_s (op := 16) (by omega) (by unfold fld; omega) ?_
  have e0 : fld v 27 24 = p := by unfold fld; omega
  have e1 : fld v 17 12 = d := by unfold fld; omega
  have e2 : fld v 11 6 = a := by unfold fld; omega
  have e3 : fld v 5 0 = b := by unfold fld; omega
  show decForm (true) (.sra (fld v 27 24) (fld v 17 12) (fld v 11 6) (fld v 5 0)) = _
  rw [e0, e1, e2, e3]
  exact decForm_ok rfl hw

theorem slli (p d a n : Nat) : Statement (.slli p d a n) := by
  intro k h hw
  cases h
  have hb : p < 16 ∧ d < 64 ∧ a < 64 ∧ n < 64 := of_decide_eq_true hw
  obtain ⟨h0, h1, h2, h3⟩ := hb
  obtain ⟨v, hv⟩ : ∃ v, v = p * 0x1000000 + d * 0x1000 + a * 0x40 + n + 0x440000 := ⟨_, rfl⟩
  rw [show encode (.slli p d a n) = v from hv.symm]
  refine of_s (op := 17) (by omega) (by unfold fld; omega) ?_
  have e0 : fld v 27 24 = p := by unfold fld; omega
  have e1 : fld v 17 12 = d := by unfold fld; omega
  have e2 : fld v 11 6 = a := by unfold fld; omega
  have e3 : fld v 5 0 = n := by unfold fld; omega
  show decForm (true) (.slli (fld v 27 24) (fld v 17 12) (fld v 11 6) (fld v 5 0)) = _
  rw [e0, e1, e2, e3]
  exact decForm_ok rfl hw

theorem srli (p d a n : Nat) : Statement (.srli p d a n) := by
  intro k h hw
  cases h
  have hb : p < 16 ∧ d < 64 ∧ a < 64 ∧ n < 64 := of_decide_eq_true hw
  obtain ⟨h0, h1, h2, h3⟩ := hb
  obtain ⟨v, hv⟩ : ∃ v, v = p * 0x1000000 + d * 0x1000 + a * 0x40 + n + 0x480000 := ⟨_, rfl⟩
  rw [show encode (.srli p d a n) = v from hv.symm]
  refine of_s (op := 18) (by omega) (by unfold fld; omega) ?_
  have e0 : fld v 27 24 = p := by unfold fld; omega
  have e1 : fld v 17 12 = d := by unfold fld; omega
  have e2 : fld v 11 6 = a := by unfold fld; omega
  have e3 : fld v 5 0 = n := by unfold fld; omega
  show decForm (true) (.srli (fld v 27 24) (fld v 17 12) (fld v 11 6) (fld v 5 0)) = _
  rw [e0, e1, e2, e3]
  exact decForm_ok rfl hw

theorem srai (p d a n : Nat) : Statement (.srai p d a n) := by
  intro k h hw
  cases h
  have hb : p < 16 ∧ d < 64 ∧ a < 64 ∧ n < 64 := of_decide_eq_true hw
  obtain ⟨h0, h1, h2, h3⟩ := hb
  obtain ⟨v, hv⟩ : ∃ v, v = p * 0x1000000 + d * 0x1000 + a * 0x40 + n + 0x4C0000 := ⟨_, rfl⟩
  rw [show encode (.srai p d a n) = v from hv.symm]
  refine of_s (op := 19) (by omega) (by unfold fld; omega) ?_
  have e0 : fld v 27 24 = p := by unfold fld; omega
  have e1 : fld v 17 12 = d := by unfold fld; omega
  have e2 : fld v 11 6 = a := by unfold fld; omega
  have e3 : fld v 5 0 = n := by unfold fld; omega
  show decForm (true) (.srai (fld v 27 24) (fld v 17 12) (fld v 11 6) (fld v 5 0)) = _
  rw [e0, e1, e2, e3]
  exact decForm_ok rfl hw

theorem min (p d a b : Nat) : Statement (.min p d a b) := by
  intro k h hw
  cases h
  have hb : p < 16 ∧ d < 64 ∧ a < 64 ∧ b < 64 := of_decide_eq_true hw
  obtain ⟨h0, h1, h2, h3⟩ := hb
  obtain ⟨v, hv⟩ : ∃ v, v = p * 0x1000000 + d * 0x1000 + a * 0x40 + b + 0x500000 := ⟨_, rfl⟩
  rw [show encode (.min p d a b) = v from hv.symm]
  refine of_s (op := 20) (by omega) (by unfold fld; omega) ?_
  have e0 : fld v 27 24 = p := by unfold fld; omega
  have e1 : fld v 17 12 = d := by unfold fld; omega
  have e2 : fld v 11 6 = a := by unfold fld; omega
  have e3 : fld v 5 0 = b := by unfold fld; omega
  show decForm (true) (.min (fld v 27 24) (fld v 17 12) (fld v 11 6) (fld v 5 0)) = _
  rw [e0, e1, e2, e3]
  exact decForm_ok rfl hw

theorem max (p d a b : Nat) : Statement (.max p d a b) := by
  intro k h hw
  cases h
  have hb : p < 16 ∧ d < 64 ∧ a < 64 ∧ b < 64 := of_decide_eq_true hw
  obtain ⟨h0, h1, h2, h3⟩ := hb
  obtain ⟨v, hv⟩ : ∃ v, v = p * 0x1000000 + d * 0x1000 + a * 0x40 + b + 0x540000 := ⟨_, rfl⟩
  rw [show encode (.max p d a b) = v from hv.symm]
  refine of_s (op := 21) (by omega) (by unfold fld; omega) ?_
  have e0 : fld v 27 24 = p := by unfold fld; omega
  have e1 : fld v 17 12 = d := by unfold fld; omega
  have e2 : fld v 11 6 = a := by unfold fld; omega
  have e3 : fld v 5 0 = b := by unfold fld; omega
  show decForm (true) (.max (fld v 27 24) (fld v 17 12) (fld v 11 6) (fld v 5 0)) = _
  rw [e0, e1, e2, e3]
  exact decForm_ok rfl hw

theorem minu (p d a b : Nat) : Statement (.minu p d a b) := by
  intro k h hw
  cases h
  have hb : p < 16 ∧ d < 64 ∧ a < 64 ∧ b < 64 := of_decide_eq_true hw
  obtain ⟨h0, h1, h2, h3⟩ := hb
  obtain ⟨v, hv⟩ : ∃ v, v = p * 0x1000000 + d * 0x1000 + a * 0x40 + b + 0x580000 := ⟨_, rfl⟩
  rw [show encode (.minu p d a b) = v from hv.symm]
  refine of_s (op := 22) (by omega) (by unfold fld; omega) ?_
  have e0 : fld v 27 24 = p := by unfold fld; omega
  have e1 : fld v 17 12 = d := by unfold fld; omega
  have e2 : fld v 11 6 = a := by unfold fld; omega
  have e3 : fld v 5 0 = b := by unfold fld; omega
  show decForm (true) (.minu (fld v 27 24) (fld v 17 12) (fld v 11 6) (fld v 5 0)) = _
  rw [e0, e1, e2, e3]
  exact decForm_ok rfl hw

theorem maxu (p d a b : Nat) : Statement (.maxu p d a b) := by
  intro k h hw
  cases h
  have hb : p < 16 ∧ d < 64 ∧ a < 64 ∧ b < 64 := of_decide_eq_true hw
  obtain ⟨h0, h1, h2, h3⟩ := hb
  obtain ⟨v, hv⟩ : ∃ v, v = p * 0x1000000 + d * 0x1000 + a * 0x40 + b + 0x5C0000 := ⟨_, rfl⟩
  rw [show encode (.maxu p d a b) = v from hv.symm]
  refine of_s (op := 23) (by omega) (by unfold fld; omega) ?_
  have e0 : fld v 27 24 = p := by unfold fld; omega
  have e1 : fld v 17 12 = d := by unfold fld; omega
  have e2 : fld v 11 6 = a := by unfold fld; omega
  have e3 : fld v 5 0 = b := by unfold fld; omega
  show decForm (true) (.maxu (fld v 27 24) (fld v 17 12) (fld v 11 6) (fld v 5 0)) = _
  rw [e0, e1, e2, e3]
  exact decForm_ok rfl hw

theorem popc (p d a : Nat) : Statement (.popc p d a) := by
  intro k h hw
  cases h
  have hb : p < 16 ∧ d < 64 ∧ a < 64 := of_decide_eq_true hw
  obtain ⟨h0, h1, h2⟩ := hb
  obtain ⟨v, hv⟩ : ∃ v, v = p * 0x1000000 + d * 0x1000 + a * 0x40 + 0x600000 := ⟨_, rfl⟩
  rw [show encode (.popc p d a) = v from hv.symm]
  refine of_s (op := 24) (by omega) (by unfold fld; omega) ?_
  have e0 : fld v 27 24 = p := by unfold fld; omega
  have e1 : fld v 17 12 = d := by unfold fld; omega
  have e2 : fld v 11 6 = a := by unfold fld; omega
  have e3 : fld v 5 0 = 0 := by unfold fld; omega
  show decForm (fld v 5 0 == 0) (.popc (fld v 27 24) (fld v 17 12) (fld v 11 6)) = _
  rw [e0, e1, e2, e3]
  exact decForm_ok rfl hw

theorem clz (p d a : Nat) : Statement (.clz p d a) := by
  intro k h hw
  cases h
  have hb : p < 16 ∧ d < 64 ∧ a < 64 := of_decide_eq_true hw
  obtain ⟨h0, h1, h2⟩ := hb
  obtain ⟨v, hv⟩ : ∃ v, v = p * 0x1000000 + d * 0x1000 + a * 0x40 + 0x640000 := ⟨_, rfl⟩
  rw [show encode (.clz p d a) = v from hv.symm]
  refine of_s (op := 25) (by omega) (by unfold fld; omega) ?_
  have e0 : fld v 27 24 = p := by unfold fld; omega
  have e1 : fld v 17 12 = d := by unfold fld; omega
  have e2 : fld v 11 6 = a := by unfold fld; omega
  have e3 : fld v 5 0 = 0 := by unfold fld; omega
  show decForm (fld v 5 0 == 0) (.clz (fld v 27 24) (fld v 17 12) (fld v 11 6)) = _
  rw [e0, e1, e2, e3]
  exact decForm_ok rfl hw

theorem cmpEq (p k0 a b : Nat) : Statement (.cmpEq p k0 a b) := by
  intro k h hw
  cases h
  have hb : p < 16 ∧ k0 < 8 ∧ a < 64 ∧ b < 64 := of_decide_eq_true hw
  obtain ⟨h0, h1, h2, h3⟩ := hb
  obtain ⟨v, hv⟩ : ∃ v, v = p * 0x1000000 + k0 * 0x8000 + a * 0x40 + b + 0x680000 := ⟨_, rfl⟩
  rw [show encode (.cmpEq p k0 a b) = v from hv.symm]
  refine of_s (op := 26) (by omega) (by unfold fld; omega) ?_
  have e0 : fld v 27 24 = p := by unfold fld; omega
  have e1 : fld v 17 15 = k0 := by unfold fld; omega
  have e2 : fld v 11 6 = a := by unfold fld; omega
  have e3 : fld v 5 0 = b := by unfold fld; omega
  have e4 : fld v 14 12 = 0 := by unfold fld; omega
  show (if fld v 14 12 == 0 then decForm (true) (.cmpEq (fld v 27 24) (fld v 17 15) (fld v 11 6) (fld v 5 0)) else if fld v 14 12 == 1 then decForm (true) (.cmpLt (fld v 27 24) (fld v 17 15) (fld v 11 6) (fld v 5 0)) else if fld v 14 12 == 2 then decForm (true) (.cmpLtu (fld v 27 24) (fld v 17 15) (fld v 11 6) (fld v 5 0)) else if fld v 14 12 == 3 then decForm (true) (.cmpLe (fld v 27 24) (fld v 17 15) (fld v 11 6) (fld v 5 0)) else if fld v 14 12 == 4 then decForm (true) (.cmpLeu (fld v 27 24) (fld v 17 15) (fld v 11 6) (fld v 5 0)) else .err .reservedOpcode) = _
  rw [e0, e1, e2, e3, e4]
  exact decForm_ok rfl hw

theorem cmpLt (p k0 a b : Nat) : Statement (.cmpLt p k0 a b) := by
  intro k h hw
  cases h
  have hb : p < 16 ∧ k0 < 8 ∧ a < 64 ∧ b < 64 := of_decide_eq_true hw
  obtain ⟨h0, h1, h2, h3⟩ := hb
  obtain ⟨v, hv⟩ : ∃ v, v = p * 0x1000000 + k0 * 0x8000 + a * 0x40 + b + 0x681000 := ⟨_, rfl⟩
  rw [show encode (.cmpLt p k0 a b) = v from hv.symm]
  refine of_s (op := 26) (by omega) (by unfold fld; omega) ?_
  have e0 : fld v 27 24 = p := by unfold fld; omega
  have e1 : fld v 17 15 = k0 := by unfold fld; omega
  have e2 : fld v 11 6 = a := by unfold fld; omega
  have e3 : fld v 5 0 = b := by unfold fld; omega
  have e4 : fld v 14 12 = 1 := by unfold fld; omega
  show (if fld v 14 12 == 0 then decForm (true) (.cmpEq (fld v 27 24) (fld v 17 15) (fld v 11 6) (fld v 5 0)) else if fld v 14 12 == 1 then decForm (true) (.cmpLt (fld v 27 24) (fld v 17 15) (fld v 11 6) (fld v 5 0)) else if fld v 14 12 == 2 then decForm (true) (.cmpLtu (fld v 27 24) (fld v 17 15) (fld v 11 6) (fld v 5 0)) else if fld v 14 12 == 3 then decForm (true) (.cmpLe (fld v 27 24) (fld v 17 15) (fld v 11 6) (fld v 5 0)) else if fld v 14 12 == 4 then decForm (true) (.cmpLeu (fld v 27 24) (fld v 17 15) (fld v 11 6) (fld v 5 0)) else .err .reservedOpcode) = _
  rw [e0, e1, e2, e3, e4]
  exact decForm_ok rfl hw

theorem cmpLtu (p k0 a b : Nat) : Statement (.cmpLtu p k0 a b) := by
  intro k h hw
  cases h
  have hb : p < 16 ∧ k0 < 8 ∧ a < 64 ∧ b < 64 := of_decide_eq_true hw
  obtain ⟨h0, h1, h2, h3⟩ := hb
  obtain ⟨v, hv⟩ : ∃ v, v = p * 0x1000000 + k0 * 0x8000 + a * 0x40 + b + 0x682000 := ⟨_, rfl⟩
  rw [show encode (.cmpLtu p k0 a b) = v from hv.symm]
  refine of_s (op := 26) (by omega) (by unfold fld; omega) ?_
  have e0 : fld v 27 24 = p := by unfold fld; omega
  have e1 : fld v 17 15 = k0 := by unfold fld; omega
  have e2 : fld v 11 6 = a := by unfold fld; omega
  have e3 : fld v 5 0 = b := by unfold fld; omega
  have e4 : fld v 14 12 = 2 := by unfold fld; omega
  show (if fld v 14 12 == 0 then decForm (true) (.cmpEq (fld v 27 24) (fld v 17 15) (fld v 11 6) (fld v 5 0)) else if fld v 14 12 == 1 then decForm (true) (.cmpLt (fld v 27 24) (fld v 17 15) (fld v 11 6) (fld v 5 0)) else if fld v 14 12 == 2 then decForm (true) (.cmpLtu (fld v 27 24) (fld v 17 15) (fld v 11 6) (fld v 5 0)) else if fld v 14 12 == 3 then decForm (true) (.cmpLe (fld v 27 24) (fld v 17 15) (fld v 11 6) (fld v 5 0)) else if fld v 14 12 == 4 then decForm (true) (.cmpLeu (fld v 27 24) (fld v 17 15) (fld v 11 6) (fld v 5 0)) else .err .reservedOpcode) = _
  rw [e0, e1, e2, e3, e4]
  exact decForm_ok rfl hw

theorem cmpLe (p k0 a b : Nat) : Statement (.cmpLe p k0 a b) := by
  intro k h hw
  cases h
  have hb : p < 16 ∧ k0 < 8 ∧ a < 64 ∧ b < 64 := of_decide_eq_true hw
  obtain ⟨h0, h1, h2, h3⟩ := hb
  obtain ⟨v, hv⟩ : ∃ v, v = p * 0x1000000 + k0 * 0x8000 + a * 0x40 + b + 0x683000 := ⟨_, rfl⟩
  rw [show encode (.cmpLe p k0 a b) = v from hv.symm]
  refine of_s (op := 26) (by omega) (by unfold fld; omega) ?_
  have e0 : fld v 27 24 = p := by unfold fld; omega
  have e1 : fld v 17 15 = k0 := by unfold fld; omega
  have e2 : fld v 11 6 = a := by unfold fld; omega
  have e3 : fld v 5 0 = b := by unfold fld; omega
  have e4 : fld v 14 12 = 3 := by unfold fld; omega
  show (if fld v 14 12 == 0 then decForm (true) (.cmpEq (fld v 27 24) (fld v 17 15) (fld v 11 6) (fld v 5 0)) else if fld v 14 12 == 1 then decForm (true) (.cmpLt (fld v 27 24) (fld v 17 15) (fld v 11 6) (fld v 5 0)) else if fld v 14 12 == 2 then decForm (true) (.cmpLtu (fld v 27 24) (fld v 17 15) (fld v 11 6) (fld v 5 0)) else if fld v 14 12 == 3 then decForm (true) (.cmpLe (fld v 27 24) (fld v 17 15) (fld v 11 6) (fld v 5 0)) else if fld v 14 12 == 4 then decForm (true) (.cmpLeu (fld v 27 24) (fld v 17 15) (fld v 11 6) (fld v 5 0)) else .err .reservedOpcode) = _
  rw [e0, e1, e2, e3, e4]
  exact decForm_ok rfl hw

theorem cmpLeu (p k0 a b : Nat) : Statement (.cmpLeu p k0 a b) := by
  intro k h hw
  cases h
  have hb : p < 16 ∧ k0 < 8 ∧ a < 64 ∧ b < 64 := of_decide_eq_true hw
  obtain ⟨h0, h1, h2, h3⟩ := hb
  obtain ⟨v, hv⟩ : ∃ v, v = p * 0x1000000 + k0 * 0x8000 + a * 0x40 + b + 0x684000 := ⟨_, rfl⟩
  rw [show encode (.cmpLeu p k0 a b) = v from hv.symm]
  refine of_s (op := 26) (by omega) (by unfold fld; omega) ?_
  have e0 : fld v 27 24 = p := by unfold fld; omega
  have e1 : fld v 17 15 = k0 := by unfold fld; omega
  have e2 : fld v 11 6 = a := by unfold fld; omega
  have e3 : fld v 5 0 = b := by unfold fld; omega
  have e4 : fld v 14 12 = 4 := by unfold fld; omega
  show (if fld v 14 12 == 0 then decForm (true) (.cmpEq (fld v 27 24) (fld v 17 15) (fld v 11 6) (fld v 5 0)) else if fld v 14 12 == 1 then decForm (true) (.cmpLt (fld v 27 24) (fld v 17 15) (fld v 11 6) (fld v 5 0)) else if fld v 14 12 == 2 then decForm (true) (.cmpLtu (fld v 27 24) (fld v 17 15) (fld v 11 6) (fld v 5 0)) else if fld v 14 12 == 3 then decForm (true) (.cmpLe (fld v 27 24) (fld v 17 15) (fld v 11 6) (fld v 5 0)) else if fld v 14 12 == 4 then decForm (true) (.cmpLeu (fld v 27 24) (fld v 17 15) (fld v 11 6) (fld v 5 0)) else .err .reservedOpcode) = _
  rw [e0, e1, e2, e3, e4]
  exact decForm_ok rfl hw

theorem plog (p d a b t : Nat) : Statement (.plog p d a b t) := by
  intro k h hw
  cases h
  have hb : p < 16 ∧ d < 16 ∧ a < 16 ∧ b < 16 ∧ t < 16 ∧ 1 ≤ d := of_decide_eq_true hw
  obtain ⟨h0, h1, h2, h3, h4, h5⟩ := hb
  obtain ⟨v, hv⟩ : ∃ v, v = p * 0x1000000 + d * 0x4000 + a * 0x400 + b * 0x40 + t * 0x4 + 0x6C0000 := ⟨_, rfl⟩
  rw [show encode (.plog p d a b t) = v from hv.symm]
  refine of_s (op := 27) (by omega) (by unfold fld; omega) ?_
  have e0 : fld v 27 24 = p := by unfold fld; omega
  have e1 : fld v 17 14 = d := by unfold fld; omega
  have e2 : fld v 13 10 = a := by unfold fld; omega
  have e3 : fld v 9 6 = b := by unfold fld; omega
  have e4 : fld v 5 2 = t := by unfold fld; omega
  have e5 : fld v 1 0 = 0 := by unfold fld; omega
  show decForm (fld v 1 0 == 0) (.plog (fld v 27 24) (fld v 17 14) (fld v 13 10) (fld v 9 6) (fld v 5 2)) = _
  rw [e0, e1, e2, e3, e4, e5]
  exact decForm_ok rfl hw

theorem sel (p k0 d a b : Nat) : Statement (.sel p k0 d a b) := by
  intro k h hw
  cases h
  have hb : p < 16 ∧ k0 < 16 ∧ d < 32 ∧ a < 32 ∧ b < 32 := of_decide_eq_true hw
  obtain ⟨h0, h1, h2, h3, h4⟩ := hb
  obtain ⟨v, hv⟩ : ∃ v, v = p * 0x1000000 + k0 * 0x8000 + d * 0x400 + a * 0x20 + b + 0x700000 := ⟨_, rfl⟩
  rw [show encode (.sel p k0 d a b) = v from hv.symm]
  have hc : k0 < 8 ∨ ¬ k0 < 8 := by omega
  rcases hc with hc | hc
  · refine of_s (op := 28) (by omega) (by unfold fld; omega) ?_
    have e0 : fld v 27 24 = p := by unfold fld; omega
    have e1 : fld v 18 15 = k0 := by unfold fld; omega
    have e2 : fld v 14 10 = d := by unfold fld; omega
    have e3 : fld v 9 5 = a := by unfold fld; omega
    have e4 : fld v 4 0 = b := by unfold fld; omega
    show decForm (true) (.sel (fld v 27 24) (fld v 18 15) (fld v 14 10) (fld v 9 5) (fld v 4 0)) = _
    rw [e0, e1, e2, e3, e4]
    exact decForm_ok rfl hw
  · refine of_s (op := 29) (by omega) (by unfold fld; omega) ?_
    have e0 : fld v 27 24 = p := by unfold fld; omega
    have e1 : fld v 18 15 = k0 := by unfold fld; omega
    have e2 : fld v 14 10 = d := by unfold fld; omega
    have e3 : fld v 9 5 = a := by unfold fld; omega
    have e4 : fld v 4 0 = b := by unfold fld; omega
    show decForm (true) (.sel (fld v 27 24) (fld v 18 15) (fld v 14 10) (fld v 9 5) (fld v 4 0)) = _
    rw [e0, e1, e2, e3, e4]
    exact decForm_ok rfl hw

theorem addi (p d i : Nat) : Statement (.addi p d i) := by
  intro k h hw
  cases h
  have hb : p < 16 ∧ d < 64 ∧ i < 4096 := of_decide_eq_true hw
  obtain ⟨h0, h1, h2⟩ := hb
  obtain ⟨v, hv⟩ : ∃ v, v = p * 0x1000000 + d * 0x1000 + i + 0x780000 := ⟨_, rfl⟩
  rw [show encode (.addi p d i) = v from hv.symm]
  refine of_s (op := 30) (by omega) (by unfold fld; omega) ?_
  have e0 : fld v 27 24 = p := by unfold fld; omega
  have e1 : fld v 17 12 = d := by unfold fld; omega
  have e2 : fld v 11 0 = i := by unfold fld; omega
  show decForm (true) (.addi (fld v 27 24) (fld v 17 12) (fld v 11 0)) = _
  rw [e0, e1, e2]
  exact decForm_ok rfl hw

theorem li (p d i : Nat) : Statement (.li p d i) := by
  intro k h hw
  cases h
  have hb : p < 16 ∧ d < 64 ∧ i < 4096 := of_decide_eq_true hw
  obtain ⟨h0, h1, h2⟩ := hb
  obtain ⟨v, hv⟩ : ∃ v, v = p * 0x1000000 + d * 0x1000 + i + 0x7C0000 := ⟨_, rfl⟩
  rw [show encode (.li p d i) = v from hv.symm]
  refine of_s (op := 31) (by omega) (by unfold fld; omega) ?_
  have e0 : fld v 27 24 = p := by unfold fld; omega
  have e1 : fld v 17 12 = d := by unfold fld; omega
  have e2 : fld v 11 0 = i := by unfold fld; omega
  show decForm (true) (.li (fld v 27 24) (fld v 17 12) (fld v 11 0)) = _
  rw [e0, e1, e2]
  exact decForm_ok rfl hw

theorem lic (p d i : Nat) : Statement (.lic p d i) := by
  intro k h hw
  cases h
  have hb : p < 16 ∧ d < 64 ∧ i < 4096 := of_decide_eq_true hw
  obtain ⟨h0, h1, h2⟩ := hb
  obtain ⟨v, hv⟩ : ∃ v, v = p * 0x1000000 + d * 0x1000 + i + 0x800000 := ⟨_, rfl⟩
  rw [show encode (.lic p d i) = v from hv.symm]
  refine of_s (op := 32) (by omega) (by unfold fld; omega) ?_
  have e0 : fld v 27 24 = p := by unfold fld; omega
  have e1 : fld v 17 12 = d := by unfold fld; omega
  have e2 : fld v 11 0 = i := by unfold fld; omega
  show decForm (true) (.lic (fld v 27 24) (fld v 17 12) (fld v 11 0)) = _
  rw [e0, e1, e2]
  exact decForm_ok rfl hw

theorem kconst (p d i : Nat) : Statement (.kconst p d i) := by
  intro k h hw
  cases h
  have hb : p < 16 ∧ d < 64 ∧ i < 256 := of_decide_eq_true hw
  obtain ⟨h0, h1, h2⟩ := hb
  obtain ⟨v, hv⟩ : ∃ v, v = p * 0x1000000 + d * 0x1000 + i + 0x840000 := ⟨_, rfl⟩
  rw [show encode (.kconst p d i) = v from hv.symm]
  refine of_s (op := 33) (by omega) (by unfold fld; omega) ?_
  have e0 : fld v 27 24 = p := by unfold fld; omega
  have e1 : fld v 17 12 = d := by unfold fld; omega
  have e2 : fld v 7 0 = i := by unfold fld; omega
  have e3 : fld v 11 8 = 0 := by unfold fld; omega
  show decForm (fld v 11 8 == 0) (.kconst (fld v 27 24) (fld v 17 12) (fld v 7 0)) = _
  rw [e0, e1, e2, e3]
  exact decForm_ok rfl hw

theorem hmk (p d i : Nat) : Statement (.hmk p d i) := by
  intro k h hw
  cases h
  have hb : p < 16 ∧ d < 64 ∧ i < 256 := of_decide_eq_true hw
  obtain ⟨h0, h1, h2⟩ := hb
  obtain ⟨v, hv⟩ : ∃ v, v = p * 0x1000000 + d * 0x1000 + i + 0x880000 := ⟨_, rfl⟩
  rw [show encode (.hmk p d i) = v from hv.symm]
  refine of_s (op := 34) (by omega) (by unfold fld; omega) ?_
  have e0 : fld v 27 24 = p := by unfold fld; omega
  have e1 : fld v 17 12 = d := by unfold fld; omega
  have e2 : fld v 7 0 = i := by unfold fld; omega
  have e3 : fld v 11 8 = 0 := by unfold fld; omega
  show decForm (fld v 11 8 == 0) (.hmk (fld v 27 24) (fld v 17 12) (fld v 7 0)) = _
  rw [e0, e1, e2, e3]
  exact decForm_ok rfl hw

theorem hsz (p d i : Nat) : Statement (.hsz p d i) := by
  intro k h hw
  cases h
  have hb : p < 16 ∧ d < 64 ∧ i < 256 := of_decide_eq_true hw
  obtain ⟨h0, h1, h2⟩ := hb
  obtain ⟨v, hv⟩ : ∃ v, v = p * 0x1000000 + d * 0x1000 + i + 0x8C0000 := ⟨_, rfl⟩
  rw [show encode (.hsz p d i) = v from hv.symm]
  refine of_s (op := 35) (by omega) (by unfold fld; omega) ?_
  have e0 : fld v 27 24 = p := by unfold fld; omega
  have e1 : fld v 17 12 = d := by unfold fld; omega
  have e2 : fld v 7 0 = i := by unfold fld; omega
  have e3 : fld v 11 8 = 0 := by unfold fld; omega
  show decForm (fld v 11 8 == 0) (.hsz (fld v 27 24) (fld v 17 12) (fld v 7 0)) = _
  rw [e0, e1, e2, e3]
  exact decForm_ok rfl hw

theorem hrow (p d i : Nat) : Statement (.hrow p d i) := by
  intro k h hw
  cases h
  have hb : p < 16 ∧ d < 64 ∧ i < 256 := of_decide_eq_true hw
  obtain ⟨h0, h1, h2⟩ := hb
  obtain ⟨v, hv⟩ : ∃ v, v = p * 0x1000000 + d * 0x1000 + i + 0x900000 := ⟨_, rfl⟩
  rw [show encode (.hrow p d i) = v from hv.symm]
  refine of_s (op := 36) (by omega) (by unfold fld; omega) ?_
  have e0 : fld v 27 24 = p := by unfold fld; omega
  have e1 : fld v 17 12 = d := by unfold fld; omega
  have e2 : fld v 7 0 = i := by unfold fld; omega
  have e3 : fld v 11 8 = 0 := by unfold fld; omega
  show decForm (fld v 11 8 == 0) (.hrow (fld v 27 24) (fld v 17 12) (fld v 7 0)) = _
  rw [e0, e1, e2, e3]
  exact decForm_ok rfl hw

theorem mfpr (p d : Nat) : Statement (.mfpr p d) := by
  intro k h hw
  cases h
  have hb : p < 16 ∧ d < 64 := of_decide_eq_true hw
  obtain ⟨h0, h1⟩ := hb
  obtain ⟨v, hv⟩ : ∃ v, v = p * 0x1000000 + d * 0x1000 + 0x940000 := ⟨_, rfl⟩
  rw [show encode (.mfpr p d) = v from hv.symm]
  refine of_s (op := 37) (by omega) (by unfold fld; omega) ?_
  have e0 : fld v 27 24 = p := by unfold fld; omega
  have e1 : fld v 17 12 = d := by unfold fld; omega
  have e2 : fld v 11 0 = 0 := by unfold fld; omega
  show decForm (fld v 11 0 == 0) (.mfpr (fld v 27 24) (fld v 17 12)) = _
  rw [e0, e1, e2]
  exact decForm_ok rfl hw

theorem mtpr (p a : Nat) : Statement (.mtpr p a) := by
  intro k h hw
  cases h
  have hb : p < 16 ∧ a < 64 := of_decide_eq_true hw
  obtain ⟨h0, h1⟩ := hb
  obtain ⟨v, hv⟩ : ∃ v, v = p * 0x1000000 + a * 0x40 + 0x980000 := ⟨_, rfl⟩
  rw [show encode (.mtpr p a) = v from hv.symm]
  refine of_s (op := 38) (by omega) (by unfold fld; omega) ?_
  have e0 : fld v 27 24 = p := by unfold fld; omega
  have e1 : fld v 11 6 = a := by unfold fld; omega
  have e2 : fld v 17 12 = 0 := by unfold fld; omega
  have e3 : fld v 5 0 = 0 := by unfold fld; omega
  show decForm (fld v 17 12 == 0 && fld v 5 0 == 0) (.mtpr (fld v 27 24) (fld v 11 6)) = _
  rw [e0, e1, e2, e3]
  exact decForm_ok rfl hw

theorem mflc (p d n : Nat) : Statement (.mflc p d n) := by
  intro k h hw
  cases h
  have hb : p < 16 ∧ d < 64 ∧ n < 8 := of_decide_eq_true hw
  obtain ⟨h0, h1, h2⟩ := hb
  obtain ⟨v, hv⟩ : ∃ v, v = p * 0x1000000 + d * 0x1000 + n + 0x9C0000 := ⟨_, rfl⟩
  rw [show encode (.mflc p d n) = v from hv.symm]
  refine of_s (op := 39) (by omega) (by unfold fld; omega) ?_
  have e0 : fld v 27 24 = p := by unfold fld; omega
  have e1 : fld v 17 12 = d := by unfold fld; omega
  have e2 : fld v 2 0 = n := by unfold fld; omega
  have e3 : fld v 11 3 = 0 := by unfold fld; omega
  show decForm (fld v 11 3 == 0) (.mflc (fld v 27 24) (fld v 17 12) (fld v 2 0)) = _
  rw [e0, e1, e2, e3]
  exact decForm_ok rfl hw

theorem mfb (p d n : Nat) : Statement (.mfb p d n) := by
  intro k h hw
  cases h
  have hb : p < 16 ∧ d < 64 ∧ n < 8 := of_decide_eq_true hw
  obtain ⟨h0, h1, h2⟩ := hb
  obtain ⟨v, hv⟩ : ∃ v, v = p * 0x1000000 + d * 0x1000 + n + 0xA00000 := ⟨_, rfl⟩
  rw [show encode (.mfb p d n) = v from hv.symm]
  refine of_s (op := 40) (by omega) (by unfold fld; omega) ?_
  have e0 : fld v 27 24 = p := by unfold fld; omega
  have e1 : fld v 17 12 = d := by unfold fld; omega
  have e2 : fld v 2 0 = n := by unfold fld; omega
  have e3 : fld v 11 3 = 0 := by unfold fld; omega
  show decForm (fld v 11 3 == 0) (.mfb (fld v 27 24) (fld v 17 12) (fld v 2 0)) = _
  rw [e0, e1, e2, e3]
  exact decForm_ok rfl hw

theorem mtb (p n a : Nat) : Statement (.mtb p n a) := by
  intro k h hw
  cases h
  have hb : p < 16 ∧ n < 8 ∧ a < 64 := of_decide_eq_true hw
  obtain ⟨h0, h1, h2⟩ := hb
  obtain ⟨v, hv⟩ : ∃ v, v = p * 0x1000000 + n + a * 0x40 + 0xA40000 := ⟨_, rfl⟩
  rw [show encode (.mtb p n a) = v from hv.symm]
  refine of_s (op := 41) (by omega) (by unfold fld; omega) ?_
  have e0 : fld v 27 24 = p := by unfold fld; omega
  have e1 : fld v 2 0 = n := by unfold fld; omega
  have e2 : fld v 11 6 = a := by unfold fld; omega
  have e3 : fld v 17 12 = 0 := by unfold fld; omega
  have e4 : fld v 5 3 = 0 := by unfold fld; omega
  show decForm (fld v 17 12 == 0 && fld v 5 3 == 0) (.mtb (fld v 27 24) (fld v 2 0) (fld v 11 6)) = _
  rw [e0, e1, e2, e3, e4]
  exact decForm_ok rfl hw

theorem stsetF (p t s a : Nat) : Statement (.stsetF p t s a) := by
  intro k h hw
  cases h
  have hb : p < 16 ∧ t < 16 ∧ s < 16 ∧ a < 64 := of_decide_eq_true hw
  obtain ⟨h0, h1, h2, h3⟩ := hb
  obtain ⟨v, hv⟩ : ∃ v, v = p * 0x1000000 + t * 0x4000 + s * 0x400 + a * 0x10 + 0xA80000 := ⟨_, rfl⟩
  rw [show encode (.stsetF p t s a) = v from hv.symm]
  refine of_s (op := 42) (by omega) (by unfold fld; omega) ?_
  have e0 : fld v 27 24 = p := by unfold fld; omega
  have e1 : fld v 17 14 = t := by unfold fld; omega
  have e2 : fld v 13 10 = s := by unfold fld; omega
  have e3 : fld v 9 4 = a := by unfold fld; omega
  have e4 : fld v 3 0 = 0 := by unfold fld; omega
  show decForm (fld v 3 0 == 0) (.stsetF (fld v 27 24) (fld v 17 14) (fld v 13 10) (fld v 9 4)) = _
  rw [e0, e1, e2, e3, e4]
  exact decForm_ok rfl hw

theorem stsetZ (p t : Nat) : Statement (.stsetZ p t) := by
  intro k h hw
  cases h
  have hb : p < 16 ∧ t < 16 := of_decide_eq_true hw
  obtain ⟨h0, h1⟩ := hb
  obtain ⟨v, hv⟩ : ∃ v, v = p * 0x1000000 + t * 0x4000 + 0xAC0000 := ⟨_, rfl⟩
  rw [show encode (.stsetZ p t) = v from hv.symm]
  refine of_s (op := 43) (by omega) (by unfold fld; omega) ?_
  have e0 : fld v 27 24 = p := by unfold fld; omega
  have e1 : fld v 17 14 = t := by unfold fld; omega
  have e2 : fld v 13 0 = 0 := by unfold fld; omega
  show decForm (fld v 13 0 == 0) (.stsetZ (fld v 27 24) (fld v 17 14)) = _
  rw [e0, e1, e2]
  exact decForm_ok rfl hw

theorem stsetCp (p t m : Nat) : Statement (.stsetCp p t m) := by
  intro k h hw
  cases h
  have hb : p < 16 ∧ t < 16 ∧ m < 16 := of_decide_eq_true hw
  obtain ⟨h0, h1, h2⟩ := hb
  obtain ⟨v, hv⟩ : ∃ v, v = p * 0x1000000 + t * 0x4000 + m * 0x400 + 0xB00000 := ⟨_, rfl⟩
  rw [show encode (.stsetCp p t m) = v from hv.symm]
  refine of_s (op := 44) (by omega) (by unfold fld; omega) ?_
  have e0 : fld v 27 24 = p := by unfold fld; omega
  have e1 : fld v 17 14 = t := by unfold fld; omega
  have e2 : fld v 13 10 = m := by unfold fld; omega
  have e3 : fld v 9 0 = 0 := by unfold fld; omega
  show decForm (fld v 9 0 == 0) (.stsetCp (fld v 27 24) (fld v 17 14) (fld v 13 10)) = _
  rw [e0, e1, e2, e3]
  exact decForm_ok rfl hw

theorem mtmm (p n a : Nat) : Statement (.mtmm p n a) := by
  intro k h hw
  cases h
  have hb : p < 16 ∧ n < 16 ∧ a < 64 := of_decide_eq_true hw
  obtain ⟨h0, h1, h2⟩ := hb
  obtain ⟨v, hv⟩ : ∃ v, v = p * 0x1000000 + n + a * 0x40 + 0xB40000 := ⟨_, rfl⟩
  rw [show encode (.mtmm p n a) = v from hv.symm]
  refine of_s (op := 45) (by omega) (by unfold fld; omega) ?_
  have e0 : fld v 27 24 = p := by unfold fld; omega
  have e1 : fld v 3 0 = n := by unfold fld; omega
  have e2 : fld v 11 6 = a := by unfold fld; omega
  have e3 : fld v 17 12 = 0 := by unfold fld; omega
  have e4 : fld v 5 4 = 0 := by unfold fld; omega
  show decForm (fld v 17 12 == 0 && fld v 5 4 == 0) (.mtmm (fld v 27 24) (fld v 3 0) (fld v 11 6)) = _
  rw [e0, e1, e2, e3, e4]
  exact decForm_ok rfl hw

theorem mfmm (p d n : Nat) : Statement (.mfmm p d n) := by
  intro k h hw
  cases h
  have hb : p < 16 ∧ d < 64 ∧ n < 16 := of_decide_eq_true hw
  obtain ⟨h0, h1, h2⟩ := hb
  obtain ⟨v, hv⟩ : ∃ v, v = p * 0x1000000 + d * 0x1000 + n + 0xB80000 := ⟨_, rfl⟩
  rw [show encode (.mfmm p d n) = v from hv.symm]
  refine of_s (op := 46) (by omega) (by unfold fld; omega) ?_
  have e0 : fld v 27 24 = p := by unfold fld; omega
  have e1 : fld v 17 12 = d := by unfold fld; omega
  have e2 : fld v 3 0 = n := by unfold fld; omega
  have e3 : fld v 11 4 = 0 := by unfold fld; omega
  show decForm (fld v 11 4 == 0) (.mfmm (fld v 27 24) (fld v 17 12) (fld v 3 0)) = _
  rw [e0, e1, e2, e3]
  exact decForm_ok rfl hw

theorem fadd (p d a b : Nat) : Statement (.fadd p d a b) := by
  intro k h hw
  cases h
  have hb : p < 16 ∧ d < 64 ∧ a < 64 ∧ b < 64 := of_decide_eq_true hw
  obtain ⟨h0, h1, h2, h3⟩ := hb
  obtain ⟨v, hv⟩ : ∃ v, v = p * 0x1000000 + d * 0x1000 + a * 0x40 + b + 0xC00000 := ⟨_, rfl⟩
  rw [show encode (.fadd p d a b) = v from hv.symm]
  refine of_s (op := 48) (by omega) (by unfold fld; omega) ?_
  have e0 : fld v 27 24 = p := by unfold fld; omega
  have e1 : fld v 17 12 = d := by unfold fld; omega
  have e2 : fld v 11 6 = a := by unfold fld; omega
  have e3 : fld v 5 0 = b := by unfold fld; omega
  show decForm (true) (.fadd (fld v 27 24) (fld v 17 12) (fld v 11 6) (fld v 5 0)) = _
  rw [e0, e1, e2, e3]
  exact decForm_ok rfl hw

theorem fsub (p d a b : Nat) : Statement (.fsub p d a b) := by
  intro k h hw
  cases h
  have hb : p < 16 ∧ d < 64 ∧ a < 64 ∧ b < 64 := of_decide_eq_true hw
  obtain ⟨h0, h1, h2, h3⟩ := hb
  obtain ⟨v, hv⟩ : ∃ v, v = p * 0x1000000 + d * 0x1000 + a * 0x40 + b + 0xC40000 := ⟨_, rfl⟩
  rw [show encode (.fsub p d a b) = v from hv.symm]
  refine of_s (op := 49) (by omega) (by unfold fld; omega) ?_
  have e0 : fld v 27 24 = p := by unfold fld; omega
  have e1 : fld v 17 12 = d := by unfold fld; omega
  have e2 : fld v 11 6 = a := by unfold fld; omega
  have e3 : fld v 5 0 = b := by unfold fld; omega
  show decForm (true) (.fsub (fld v 27 24) (fld v 17 12) (fld v 11 6) (fld v 5 0)) = _
  rw [e0, e1, e2, e3]
  exact decForm_ok rfl hw

theorem fmul (p d a b : Nat) : Statement (.fmul p d a b) := by
  intro k h hw
  cases h
  have hb : p < 16 ∧ d < 64 ∧ a < 64 ∧ b < 64 := of_decide_eq_true hw
  obtain ⟨h0, h1, h2, h3⟩ := hb
  obtain ⟨v, hv⟩ : ∃ v, v = p * 0x1000000 + d * 0x1000 + a * 0x40 + b + 0xC80000 := ⟨_, rfl⟩
  rw [show encode (.fmul p d a b) = v from hv.symm]
  refine of_s (op := 50) (by omega) (by unfold fld; omega) ?_
  have e0 : fld v 27 24 = p := by unfold fld; omega
  have e1 : fld v 17 12 = d := by unfold fld; omega
  have e2 : fld v 11 6 = a := by unfold fld; omega
  have e3 : fld v 5 0 = b := by unfold fld; omega
  show decForm (true) (.fmul (fld v 27 24) (fld v 17 12) (fld v 11 6) (fld v 5 0)) = _
  rw [e0, e1, e2, e3]
  exact decForm_ok rfl hw

theorem fdiv (p d a b : Nat) : Statement (.fdiv p d a b) := by
  intro k h hw
  cases h
  have hb : p < 16 ∧ d < 64 ∧ a < 64 ∧ b < 64 := of_decide_eq_true hw
  obtain ⟨h0, h1, h2, h3⟩ := hb
  obtain ⟨v, hv⟩ : ∃ v, v = p * 0x1000000 + d * 0x1000 + a * 0x40 + b + 0xCC0000 := ⟨_, rfl⟩
  rw [show encode (.fdiv p d a b) = v from hv.symm]
  refine of_s (op := 51) (by omega) (by unfold fld; omega) ?_
  have e0 : fld v 27 24 = p := by unfold fld; omega
  have e1 : fld v 17 12 = d := by unfold fld; omega
  have e2 : fld v 11 6 = a := by unfold fld; omega
  have e3 : fld v 5 0 = b := by unfold fld; omega
  show decForm (true) (.fdiv (fld v 27 24) (fld v 17 12) (fld v 11 6) (fld v 5 0)) = _
  rw [e0, e1, e2, e3]
  exact decForm_ok rfl hw

theorem fsqrt (p d a : Nat) : Statement (.fsqrt p d a) := by
  intro k h hw
  cases h
  have hb : p < 16 ∧ d < 64 ∧ a < 64 := of_decide_eq_true hw
  obtain ⟨h0, h1, h2⟩ := hb
  obtain ⟨v, hv⟩ : ∃ v, v = p * 0x1000000 + d * 0x1000 + a * 0x40 + 0xD00000 := ⟨_, rfl⟩
  rw [show encode (.fsqrt p d a) = v from hv.symm]
  refine of_s (op := 52) (by omega) (by unfold fld; omega) ?_
  have e0 : fld v 27 24 = p := by unfold fld; omega
  have e1 : fld v 17 12 = d := by unfold fld; omega
  have e2 : fld v 11 6 = a := by unfold fld; omega
  have e3 : fld v 5 0 = 0 := by unfold fld; omega
  show decForm (fld v 5 0 == 0) (.fsqrt (fld v 27 24) (fld v 17 12) (fld v 11 6)) = _
  rw [e0, e1, e2, e3]
  exact decForm_ok rfl hw

theorem fmin (p d a b : Nat) : Statement (.fmin p d a b) := by
  intro k h hw
  cases h
  have hb : p < 16 ∧ d < 64 ∧ a < 64 ∧ b < 64 := of_decide_eq_true hw
  obtain ⟨h0, h1, h2, h3⟩ := hb
  obtain ⟨v, hv⟩ : ∃ v, v = p * 0x1000000 + d * 0x1000 + a * 0x40 + b + 0xD40000 := ⟨_, rfl⟩
  rw [show encode (.fmin p d a b) = v from hv.symm]
  refine of_s (op := 53) (by omega) (by unfold fld; omega) ?_
  have e0 : fld v 27 24 = p := by unfold fld; omega
  have e1 : fld v 17 12 = d := by unfold fld; omega
  have e2 : fld v 11 6 = a := by unfold fld; omega
  have e3 : fld v 5 0 = b := by unfold fld; omega
  show decForm (true) (.fmin (fld v 27 24) (fld v 17 12) (fld v 11 6) (fld v 5 0)) = _
  rw [e0, e1, e2, e3]
  exact decForm_ok rfl hw

theorem fmax (p d a b : Nat) : Statement (.fmax p d a b) := by
  intro k h hw
  cases h
  have hb : p < 16 ∧ d < 64 ∧ a < 64 ∧ b < 64 := of_decide_eq_true hw
  obtain ⟨h0, h1, h2, h3⟩ := hb
  obtain ⟨v, hv⟩ : ∃ v, v = p * 0x1000000 + d * 0x1000 + a * 0x40 + b + 0xD80000 := ⟨_, rfl⟩
  rw [show encode (.fmax p d a b) = v from hv.symm]
  refine of_s (op := 54) (by omega) (by unfold fld; omega) ?_
  have e0 : fld v 27 24 = p := by unfold fld; omega
  have e1 : fld v 17 12 = d := by unfold fld; omega
  have e2 : fld v 11 6 = a := by unfold fld; omega
  have e3 : fld v 5 0 = b := by unfold fld; omega
  show decForm (true) (.fmax (fld v 27 24) (fld v 17 12) (fld v 11 6) (fld v 5 0)) = _
  rw [e0, e1, e2, e3]
  exact decForm_ok rfl hw

theorem fcmpEq (p k0 a b : Nat) : Statement (.fcmpEq p k0 a b) := by
  intro k h hw
  cases h
  have hb : p < 16 ∧ k0 < 8 ∧ a < 64 ∧ b < 64 := of_decide_eq_true hw
  obtain ⟨h0, h1, h2, h3⟩ := hb
  obtain ⟨v, hv⟩ : ∃ v, v = p * 0x1000000 + k0 * 0x8000 + a * 0x40 + b + 0xDC0000 := ⟨_, rfl⟩
  rw [show encode (.fcmpEq p k0 a b) = v from hv.symm]
  refine of_s (op := 55) (by omega) (by unfold fld; omega) ?_
  have e0 : fld v 27 24 = p := by unfold fld; omega
  have e1 : fld v 17 15 = k0 := by unfold fld; omega
  have e2 : fld v 11 6 = a := by unfold fld; omega
  have e3 : fld v 5 0 = b := by unfold fld; omega
  have e4 : fld v 14 12 = 0 := by unfold fld; omega
  show (if fld v 14 12 == 0 then decForm (true) (.fcmpEq (fld v 27 24) (fld v 17 15) (fld v 11 6) (fld v 5 0)) else if fld v 14 12 == 1 then decForm (true) (.fcmpLt (fld v 27 24) (fld v 17 15) (fld v 11 6) (fld v 5 0)) else if fld v 14 12 == 2 then decForm (true) (.fcmpLe (fld v 27 24) (fld v 17 15) (fld v 11 6) (fld v 5 0)) else if fld v 14 12 == 3 then decForm (true) (.fcmpUn (fld v 27 24) (fld v 17 15) (fld v 11 6) (fld v 5 0)) else .err .reservedOpcode) = _
  rw [e0, e1, e2, e3, e4]
  exact decForm_ok rfl hw

theorem fcmpLt (p k0 a b : Nat) : Statement (.fcmpLt p k0 a b) := by
  intro k h hw
  cases h
  have hb : p < 16 ∧ k0 < 8 ∧ a < 64 ∧ b < 64 := of_decide_eq_true hw
  obtain ⟨h0, h1, h2, h3⟩ := hb
  obtain ⟨v, hv⟩ : ∃ v, v = p * 0x1000000 + k0 * 0x8000 + a * 0x40 + b + 0xDC1000 := ⟨_, rfl⟩
  rw [show encode (.fcmpLt p k0 a b) = v from hv.symm]
  refine of_s (op := 55) (by omega) (by unfold fld; omega) ?_
  have e0 : fld v 27 24 = p := by unfold fld; omega
  have e1 : fld v 17 15 = k0 := by unfold fld; omega
  have e2 : fld v 11 6 = a := by unfold fld; omega
  have e3 : fld v 5 0 = b := by unfold fld; omega
  have e4 : fld v 14 12 = 1 := by unfold fld; omega
  show (if fld v 14 12 == 0 then decForm (true) (.fcmpEq (fld v 27 24) (fld v 17 15) (fld v 11 6) (fld v 5 0)) else if fld v 14 12 == 1 then decForm (true) (.fcmpLt (fld v 27 24) (fld v 17 15) (fld v 11 6) (fld v 5 0)) else if fld v 14 12 == 2 then decForm (true) (.fcmpLe (fld v 27 24) (fld v 17 15) (fld v 11 6) (fld v 5 0)) else if fld v 14 12 == 3 then decForm (true) (.fcmpUn (fld v 27 24) (fld v 17 15) (fld v 11 6) (fld v 5 0)) else .err .reservedOpcode) = _
  rw [e0, e1, e2, e3, e4]
  exact decForm_ok rfl hw

theorem fcmpLe (p k0 a b : Nat) : Statement (.fcmpLe p k0 a b) := by
  intro k h hw
  cases h
  have hb : p < 16 ∧ k0 < 8 ∧ a < 64 ∧ b < 64 := of_decide_eq_true hw
  obtain ⟨h0, h1, h2, h3⟩ := hb
  obtain ⟨v, hv⟩ : ∃ v, v = p * 0x1000000 + k0 * 0x8000 + a * 0x40 + b + 0xDC2000 := ⟨_, rfl⟩
  rw [show encode (.fcmpLe p k0 a b) = v from hv.symm]
  refine of_s (op := 55) (by omega) (by unfold fld; omega) ?_
  have e0 : fld v 27 24 = p := by unfold fld; omega
  have e1 : fld v 17 15 = k0 := by unfold fld; omega
  have e2 : fld v 11 6 = a := by unfold fld; omega
  have e3 : fld v 5 0 = b := by unfold fld; omega
  have e4 : fld v 14 12 = 2 := by unfold fld; omega
  show (if fld v 14 12 == 0 then decForm (true) (.fcmpEq (fld v 27 24) (fld v 17 15) (fld v 11 6) (fld v 5 0)) else if fld v 14 12 == 1 then decForm (true) (.fcmpLt (fld v 27 24) (fld v 17 15) (fld v 11 6) (fld v 5 0)) else if fld v 14 12 == 2 then decForm (true) (.fcmpLe (fld v 27 24) (fld v 17 15) (fld v 11 6) (fld v 5 0)) else if fld v 14 12 == 3 then decForm (true) (.fcmpUn (fld v 27 24) (fld v 17 15) (fld v 11 6) (fld v 5 0)) else .err .reservedOpcode) = _
  rw [e0, e1, e2, e3, e4]
  exact decForm_ok rfl hw

theorem fcmpUn (p k0 a b : Nat) : Statement (.fcmpUn p k0 a b) := by
  intro k h hw
  cases h
  have hb : p < 16 ∧ k0 < 8 ∧ a < 64 ∧ b < 64 := of_decide_eq_true hw
  obtain ⟨h0, h1, h2, h3⟩ := hb
  obtain ⟨v, hv⟩ : ∃ v, v = p * 0x1000000 + k0 * 0x8000 + a * 0x40 + b + 0xDC3000 := ⟨_, rfl⟩
  rw [show encode (.fcmpUn p k0 a b) = v from hv.symm]
  refine of_s (op := 55) (by omega) (by unfold fld; omega) ?_
  have e0 : fld v 27 24 = p := by unfold fld; omega
  have e1 : fld v 17 15 = k0 := by unfold fld; omega
  have e2 : fld v 11 6 = a := by unfold fld; omega
  have e3 : fld v 5 0 = b := by unfold fld; omega
  have e4 : fld v 14 12 = 3 := by unfold fld; omega
  show (if fld v 14 12 == 0 then decForm (true) (.fcmpEq (fld v 27 24) (fld v 17 15) (fld v 11 6) (fld v 5 0)) else if fld v 14 12 == 1 then decForm (true) (.fcmpLt (fld v 27 24) (fld v 17 15) (fld v 11 6) (fld v 5 0)) else if fld v 14 12 == 2 then decForm (true) (.fcmpLe (fld v 27 24) (fld v 17 15) (fld v 11 6) (fld v 5 0)) else if fld v 14 12 == 3 then decForm (true) (.fcmpUn (fld v 27 24) (fld v 17 15) (fld v 11 6) (fld v 5 0)) else .err .reservedOpcode) = _
  rw [e0, e1, e2, e3, e4]
  exact decForm_ok rfl hw

theorem fcvtD2l (p d a : Nat) : Statement (.fcvtD2l p d a) := by
  intro k h hw
  cases h
  have hb : p < 16 ∧ d < 64 ∧ a < 64 := of_decide_eq_true hw
  obtain ⟨h0, h1, h2⟩ := hb
  obtain ⟨v, hv⟩ : ∃ v, v = p * 0x1000000 + d * 0x1000 + a * 0x40 + 0xE00000 := ⟨_, rfl⟩
  rw [show encode (.fcvtD2l p d a) = v from hv.symm]
  refine of_s (op := 56) (by omega) (by unfold fld; omega) ?_
  have e0 : fld v 27 24 = p := by unfold fld; omega
  have e1 : fld v 17 12 = d := by unfold fld; omega
  have e2 : fld v 11 6 = a := by unfold fld; omega
  have e3 : fld v 5 0 = 0 := by unfold fld; omega
  show (if fld v 5 0 == 0 then decForm (true) (.fcvtD2l (fld v 27 24) (fld v 17 12) (fld v 11 6)) else if fld v 5 0 == 1 then decForm (true) (.fcvtL2d (fld v 27 24) (fld v 17 12) (fld v 11 6)) else if fld v 5 0 == 2 then decForm (true) (.fcvtD2s (fld v 27 24) (fld v 17 12) (fld v 11 6)) else if fld v 5 0 == 3 then decForm (true) (.fcvtS2d (fld v 27 24) (fld v 17 12) (fld v 11 6)) else .err .reservedOpcode) = _
  rw [e0, e1, e2, e3]
  exact decForm_ok rfl hw

theorem fcvtL2d (p d a : Nat) : Statement (.fcvtL2d p d a) := by
  intro k h hw
  cases h
  have hb : p < 16 ∧ d < 64 ∧ a < 64 := of_decide_eq_true hw
  obtain ⟨h0, h1, h2⟩ := hb
  obtain ⟨v, hv⟩ : ∃ v, v = p * 0x1000000 + d * 0x1000 + a * 0x40 + 0xE00001 := ⟨_, rfl⟩
  rw [show encode (.fcvtL2d p d a) = v from hv.symm]
  refine of_s (op := 56) (by omega) (by unfold fld; omega) ?_
  have e0 : fld v 27 24 = p := by unfold fld; omega
  have e1 : fld v 17 12 = d := by unfold fld; omega
  have e2 : fld v 11 6 = a := by unfold fld; omega
  have e3 : fld v 5 0 = 1 := by unfold fld; omega
  show (if fld v 5 0 == 0 then decForm (true) (.fcvtD2l (fld v 27 24) (fld v 17 12) (fld v 11 6)) else if fld v 5 0 == 1 then decForm (true) (.fcvtL2d (fld v 27 24) (fld v 17 12) (fld v 11 6)) else if fld v 5 0 == 2 then decForm (true) (.fcvtD2s (fld v 27 24) (fld v 17 12) (fld v 11 6)) else if fld v 5 0 == 3 then decForm (true) (.fcvtS2d (fld v 27 24) (fld v 17 12) (fld v 11 6)) else .err .reservedOpcode) = _
  rw [e0, e1, e2, e3]
  exact decForm_ok rfl hw

theorem fcvtD2s (p d a : Nat) : Statement (.fcvtD2s p d a) := by
  intro k h hw
  cases h
  have hb : p < 16 ∧ d < 64 ∧ a < 64 := of_decide_eq_true hw
  obtain ⟨h0, h1, h2⟩ := hb
  obtain ⟨v, hv⟩ : ∃ v, v = p * 0x1000000 + d * 0x1000 + a * 0x40 + 0xE00002 := ⟨_, rfl⟩
  rw [show encode (.fcvtD2s p d a) = v from hv.symm]
  refine of_s (op := 56) (by omega) (by unfold fld; omega) ?_
  have e0 : fld v 27 24 = p := by unfold fld; omega
  have e1 : fld v 17 12 = d := by unfold fld; omega
  have e2 : fld v 11 6 = a := by unfold fld; omega
  have e3 : fld v 5 0 = 2 := by unfold fld; omega
  show (if fld v 5 0 == 0 then decForm (true) (.fcvtD2l (fld v 27 24) (fld v 17 12) (fld v 11 6)) else if fld v 5 0 == 1 then decForm (true) (.fcvtL2d (fld v 27 24) (fld v 17 12) (fld v 11 6)) else if fld v 5 0 == 2 then decForm (true) (.fcvtD2s (fld v 27 24) (fld v 17 12) (fld v 11 6)) else if fld v 5 0 == 3 then decForm (true) (.fcvtS2d (fld v 27 24) (fld v 17 12) (fld v 11 6)) else .err .reservedOpcode) = _
  rw [e0, e1, e2, e3]
  exact decForm_ok rfl hw

theorem fcvtS2d (p d a : Nat) : Statement (.fcvtS2d p d a) := by
  intro k h hw
  cases h
  have hb : p < 16 ∧ d < 64 ∧ a < 64 := of_decide_eq_true hw
  obtain ⟨h0, h1, h2⟩ := hb
  obtain ⟨v, hv⟩ : ∃ v, v = p * 0x1000000 + d * 0x1000 + a * 0x40 + 0xE00003 := ⟨_, rfl⟩
  rw [show encode (.fcvtS2d p d a) = v from hv.symm]
  refine of_s (op := 56) (by omega) (by unfold fld; omega) ?_
  have e0 : fld v 27 24 = p := by unfold fld; omega
  have e1 : fld v 17 12 = d := by unfold fld; omega
  have e2 : fld v 11 6 = a := by unfold fld; omega
  have e3 : fld v 5 0 = 3 := by unfold fld; omega
  show (if fld v 5 0 == 0 then decForm (true) (.fcvtD2l (fld v 27 24) (fld v 17 12) (fld v 11 6)) else if fld v 5 0 == 1 then decForm (true) (.fcvtL2d (fld v 27 24) (fld v 17 12) (fld v 11 6)) else if fld v 5 0 == 2 then decForm (true) (.fcvtD2s (fld v 27 24) (fld v 17 12) (fld v 11 6)) else if fld v 5 0 == 3 then decForm (true) (.fcvtS2d (fld v 27 24) (fld v 17 12) (fld v 11 6)) else .err .reservedOpcode) = _
  rw [e0, e1, e2, e3]
  exact decForm_ok rfl hw

theorem fabs (p d a : Nat) : Statement (.fabs p d a) := by
  intro k h hw
  cases h
  have hb : p < 16 ∧ d < 64 ∧ a < 64 := of_decide_eq_true hw
  obtain ⟨h0, h1, h2⟩ := hb
  obtain ⟨v, hv⟩ : ∃ v, v = p * 0x1000000 + d * 0x1000 + a * 0x40 + 0xE40000 := ⟨_, rfl⟩
  rw [show encode (.fabs p d a) = v from hv.symm]
  refine of_s (op := 57) (by omega) (by unfold fld; omega) ?_
  have e0 : fld v 27 24 = p := by unfold fld; omega
  have e1 : fld v 17 12 = d := by unfold fld; omega
  have e2 : fld v 11 6 = a := by unfold fld; omega
  have e3 : fld v 5 0 = 0 := by unfold fld; omega
  show decForm (fld v 5 0 == 0) (.fabs (fld v 27 24) (fld v 17 12) (fld v 11 6)) = _
  rw [e0, e1, e2, e3]
  exact decForm_ok rfl hw

theorem fneg (p d a : Nat) : Statement (.fneg p d a) := by
  intro k h hw
  cases h
  have hb : p < 16 ∧ d < 64 ∧ a < 64 := of_decide_eq_true hw
  obtain ⟨h0, h1, h2⟩ := hb
  obtain ⟨v, hv⟩ : ∃ v, v = p * 0x1000000 + d * 0x1000 + a * 0x40 + 0xE80000 := ⟨_, rfl⟩
  rw [show encode (.fneg p d a) = v from hv.symm]
  refine of_s (op := 58) (by omega) (by unfold fld; omega) ?_
  have e0 : fld v 27 24 = p := by unfold fld; omega
  have e1 : fld v 17 12 = d := by unfold fld; omega
  have e2 : fld v 11 6 = a := by unfold fld; omega
  have e3 : fld v 5 0 = 0 := by unfold fld; omega
  show decForm (fld v 5 0 == 0) (.fneg (fld v 27 24) (fld v 17 12) (fld v 11 6)) = _
  rw [e0, e1, e2, e3]
  exact decForm_ok rfl hw

theorem fsGcd (p d a b : Nat) : Statement (.fsGcd p d a b) := by
  intro k h hw
  cases h
  have hb : p < 16 ∧ d < 64 ∧ a < 64 ∧ b < 64 := of_decide_eq_true hw
  obtain ⟨h0, h1, h2, h3⟩ := hb
  obtain ⟨v, hv⟩ : ∃ v, v = p * 0x1000000 + d * 0x1000 + a * 0x40 + b + 0xEC0000 := ⟨_, rfl⟩
  rw [show encode (.fsGcd p d a b) = v from hv.symm]
  refine of_s (op := 59) (by omega) (by unfold fld; omega) ?_
  have e0 : fld v 27 24 = p := by unfold fld; omega
  have e1 : fld v 17 12 = d := by unfold fld; omega
  have e2 : fld v 11 6 = a := by unfold fld; omega
  have e3 : fld v 5 0 = b := by unfold fld; omega
  show decForm (true) (.fsGcd (fld v 27 24) (fld v 17 12) (fld v 11 6) (fld v 5 0)) = _
  rw [e0, e1, e2, e3]
  exact decForm_ok rfl hw

theorem fsMk (p d a b : Nat) : Statement (.fsMk p d a b) := by
  intro k h hw
  cases h
  have hb : p < 16 ∧ d < 64 ∧ a < 64 ∧ b < 64 := of_decide_eq_true hw
  obtain ⟨h0, h1, h2, h3⟩ := hb
  obtain ⟨v, hv⟩ : ∃ v, v = p * 0x1000000 + d * 0x1000 + a * 0x40 + b + 0xF00000 := ⟨_, rfl⟩
  rw [show encode (.fsMk p d a b) = v from hv.symm]
  refine of_s (op := 60) (by omega) (by unfold fld; omega) ?_
  have e0 : fld v 27 24 = p := by unfold fld; omega
  have e1 : fld v 17 12 = d := by unfold fld; omega
  have e2 : fld v 11 6 = a := by unfold fld; omega
  have e3 : fld v 5 0 = b := by unfold fld; omega
  show decForm (true) (.fsMk (fld v 27 24) (fld v 17 12) (fld v 11 6) (fld v 5 0)) = _
  rw [e0, e1, e2, e3]
  exact decForm_ok rfl hw

theorem fsMed (p d a b : Nat) : Statement (.fsMed p d a b) := by
  intro k h hw
  cases h
  have hb : p < 16 ∧ d < 64 ∧ a < 64 ∧ b < 64 := of_decide_eq_true hw
  obtain ⟨h0, h1, h2, h3⟩ := hb
  obtain ⟨v, hv⟩ : ∃ v, v = p * 0x1000000 + d * 0x1000 + a * 0x40 + b + 0xF40000 := ⟨_, rfl⟩
  rw [show encode (.fsMed p d a b) = v from hv.symm]
  refine of_s (op := 61) (by omega) (by unfold fld; omega) ?_
  have e0 : fld v 27 24 = p := by unfold fld; omega
  have e1 : fld v 17 12 = d := by unfold fld; omega
  have e2 : fld v 11 6 = a := by unfold fld; omega
  have e3 : fld v 5 0 = b := by unfold fld; omega
  show decForm (true) (.fsMed (fld v 27 24) (fld v 17 12) (fld v 11 6) (fld v 5 0)) = _
  rw [e0, e1, e2, e3]
  exact decForm_ok rfl hw

theorem fsNear (p d a b : Nat) : Statement (.fsNear p d a b) := by
  intro k h hw
  cases h
  have hb : p < 16 ∧ d < 64 ∧ a < 64 ∧ b < 64 := of_decide_eq_true hw
  obtain ⟨h0, h1, h2, h3⟩ := hb
  obtain ⟨v, hv⟩ : ∃ v, v = p * 0x1000000 + d * 0x1000 + a * 0x40 + b + 0xF80000 := ⟨_, rfl⟩
  rw [show encode (.fsNear p d a b) = v from hv.symm]
  refine of_s (op := 62) (by omega) (by unfold fld; omega) ?_
  have e0 : fld v 27 24 = p := by unfold fld; omega
  have e1 : fld v 17 12 = d := by unfold fld; omega
  have e2 : fld v 11 6 = a := by unfold fld; omega
  have e3 : fld v 5 0 = b := by unfold fld; omega
  show decForm (true) (.fsNear (fld v 27 24) (fld v 17 12) (fld v 11 6) (fld v 5 0)) = _
  rw [e0, e1, e2, e3]
  exact decForm_ok rfl hw

theorem fsNum (p d a : Nat) : Statement (.fsNum p d a) := by
  intro k h hw
  cases h
  have hb : p < 16 ∧ d < 64 ∧ a < 64 := of_decide_eq_true hw
  obtain ⟨h0, h1, h2⟩ := hb
  obtain ⟨v, hv⟩ : ∃ v, v = p * 0x1000000 + d * 0x1000 + a * 0x40 + 0xFC0000 := ⟨_, rfl⟩
  rw [show encode (.fsNum p d a) = v from hv.symm]
  refine of_s (op := 63) (by omega) (by unfold fld; omega) ?_
  have e0 : fld v 27 24 = p := by unfold fld; omega
  have e1 : fld v 17 12 = d := by unfold fld; omega
  have e2 : fld v 11 6 = a := by unfold fld; omega
  have e3 : fld v 5 0 = 0 := by unfold fld; omega
  show (if fld v 5 0 == 0 then decForm (true) (.fsNum (fld v 27 24) (fld v 17 12) (fld v 11 6)) else if fld v 5 0 == 1 then decForm (true) (.fsDen (fld v 27 24) (fld v 17 12) (fld v 11 6)) else if fld v 5 0 == 2 then decForm (true) (.fsClass (fld v 27 24) (fld v 17 12) (fld v 11 6)) else if fld v 5 0 == 3 then decForm (true) (.fsCanon (fld v 27 24) (fld v 17 12) (fld v 11 6)) else if fld v 5 0 == 4 then decForm (true) (.fsCvtF32 (fld v 27 24) (fld v 17 12) (fld v 11 6)) else if fld v 5 0 == 5 then decForm (true) (.fsCvtE8 (fld v 27 24) (fld v 17 12) (fld v 11 6)) else if fld v 5 0 == 6 then decForm (true) (.fsPack32 (fld v 27 24) (fld v 17 12) (fld v 11 6)) else if fld v 5 0 == 7 then decForm (true) (.fsUnpk32 (fld v 27 24) (fld v 17 12) (fld v 11 6)) else .err .reservedOpcode) = _
  rw [e0, e1, e2, e3]
  exact decForm_ok rfl hw

theorem fsDen (p d a : Nat) : Statement (.fsDen p d a) := by
  intro k h hw
  cases h
  have hb : p < 16 ∧ d < 64 ∧ a < 64 := of_decide_eq_true hw
  obtain ⟨h0, h1, h2⟩ := hb
  obtain ⟨v, hv⟩ : ∃ v, v = p * 0x1000000 + d * 0x1000 + a * 0x40 + 0xFC0001 := ⟨_, rfl⟩
  rw [show encode (.fsDen p d a) = v from hv.symm]
  refine of_s (op := 63) (by omega) (by unfold fld; omega) ?_
  have e0 : fld v 27 24 = p := by unfold fld; omega
  have e1 : fld v 17 12 = d := by unfold fld; omega
  have e2 : fld v 11 6 = a := by unfold fld; omega
  have e3 : fld v 5 0 = 1 := by unfold fld; omega
  show (if fld v 5 0 == 0 then decForm (true) (.fsNum (fld v 27 24) (fld v 17 12) (fld v 11 6)) else if fld v 5 0 == 1 then decForm (true) (.fsDen (fld v 27 24) (fld v 17 12) (fld v 11 6)) else if fld v 5 0 == 2 then decForm (true) (.fsClass (fld v 27 24) (fld v 17 12) (fld v 11 6)) else if fld v 5 0 == 3 then decForm (true) (.fsCanon (fld v 27 24) (fld v 17 12) (fld v 11 6)) else if fld v 5 0 == 4 then decForm (true) (.fsCvtF32 (fld v 27 24) (fld v 17 12) (fld v 11 6)) else if fld v 5 0 == 5 then decForm (true) (.fsCvtE8 (fld v 27 24) (fld v 17 12) (fld v 11 6)) else if fld v 5 0 == 6 then decForm (true) (.fsPack32 (fld v 27 24) (fld v 17 12) (fld v 11 6)) else if fld v 5 0 == 7 then decForm (true) (.fsUnpk32 (fld v 27 24) (fld v 17 12) (fld v 11 6)) else .err .reservedOpcode) = _
  rw [e0, e1, e2, e3]
  exact decForm_ok rfl hw

theorem fsClass (p d a : Nat) : Statement (.fsClass p d a) := by
  intro k h hw
  cases h
  have hb : p < 16 ∧ d < 64 ∧ a < 64 := of_decide_eq_true hw
  obtain ⟨h0, h1, h2⟩ := hb
  obtain ⟨v, hv⟩ : ∃ v, v = p * 0x1000000 + d * 0x1000 + a * 0x40 + 0xFC0002 := ⟨_, rfl⟩
  rw [show encode (.fsClass p d a) = v from hv.symm]
  refine of_s (op := 63) (by omega) (by unfold fld; omega) ?_
  have e0 : fld v 27 24 = p := by unfold fld; omega
  have e1 : fld v 17 12 = d := by unfold fld; omega
  have e2 : fld v 11 6 = a := by unfold fld; omega
  have e3 : fld v 5 0 = 2 := by unfold fld; omega
  show (if fld v 5 0 == 0 then decForm (true) (.fsNum (fld v 27 24) (fld v 17 12) (fld v 11 6)) else if fld v 5 0 == 1 then decForm (true) (.fsDen (fld v 27 24) (fld v 17 12) (fld v 11 6)) else if fld v 5 0 == 2 then decForm (true) (.fsClass (fld v 27 24) (fld v 17 12) (fld v 11 6)) else if fld v 5 0 == 3 then decForm (true) (.fsCanon (fld v 27 24) (fld v 17 12) (fld v 11 6)) else if fld v 5 0 == 4 then decForm (true) (.fsCvtF32 (fld v 27 24) (fld v 17 12) (fld v 11 6)) else if fld v 5 0 == 5 then decForm (true) (.fsCvtE8 (fld v 27 24) (fld v 17 12) (fld v 11 6)) else if fld v 5 0 == 6 then decForm (true) (.fsPack32 (fld v 27 24) (fld v 17 12) (fld v 11 6)) else if fld v 5 0 == 7 then decForm (true) (.fsUnpk32 (fld v 27 24) (fld v 17 12) (fld v 11 6)) else .err .reservedOpcode) = _
  rw [e0, e1, e2, e3]
  exact decForm_ok rfl hw

theorem fsCanon (p d a : Nat) : Statement (.fsCanon p d a) := by
  intro k h hw
  cases h
  have hb : p < 16 ∧ d < 64 ∧ a < 64 := of_decide_eq_true hw
  obtain ⟨h0, h1, h2⟩ := hb
  obtain ⟨v, hv⟩ : ∃ v, v = p * 0x1000000 + d * 0x1000 + a * 0x40 + 0xFC0003 := ⟨_, rfl⟩
  rw [show encode (.fsCanon p d a) = v from hv.symm]
  refine of_s (op := 63) (by omega) (by unfold fld; omega) ?_
  have e0 : fld v 27 24 = p := by unfold fld; omega
  have e1 : fld v 17 12 = d := by unfold fld; omega
  have e2 : fld v 11 6 = a := by unfold fld; omega
  have e3 : fld v 5 0 = 3 := by unfold fld; omega
  show (if fld v 5 0 == 0 then decForm (true) (.fsNum (fld v 27 24) (fld v 17 12) (fld v 11 6)) else if fld v 5 0 == 1 then decForm (true) (.fsDen (fld v 27 24) (fld v 17 12) (fld v 11 6)) else if fld v 5 0 == 2 then decForm (true) (.fsClass (fld v 27 24) (fld v 17 12) (fld v 11 6)) else if fld v 5 0 == 3 then decForm (true) (.fsCanon (fld v 27 24) (fld v 17 12) (fld v 11 6)) else if fld v 5 0 == 4 then decForm (true) (.fsCvtF32 (fld v 27 24) (fld v 17 12) (fld v 11 6)) else if fld v 5 0 == 5 then decForm (true) (.fsCvtE8 (fld v 27 24) (fld v 17 12) (fld v 11 6)) else if fld v 5 0 == 6 then decForm (true) (.fsPack32 (fld v 27 24) (fld v 17 12) (fld v 11 6)) else if fld v 5 0 == 7 then decForm (true) (.fsUnpk32 (fld v 27 24) (fld v 17 12) (fld v 11 6)) else .err .reservedOpcode) = _
  rw [e0, e1, e2, e3]
  exact decForm_ok rfl hw

theorem fsCvtF32 (p d a : Nat) : Statement (.fsCvtF32 p d a) := by
  intro k h hw
  cases h
  have hb : p < 16 ∧ d < 64 ∧ a < 64 := of_decide_eq_true hw
  obtain ⟨h0, h1, h2⟩ := hb
  obtain ⟨v, hv⟩ : ∃ v, v = p * 0x1000000 + d * 0x1000 + a * 0x40 + 0xFC0004 := ⟨_, rfl⟩
  rw [show encode (.fsCvtF32 p d a) = v from hv.symm]
  refine of_s (op := 63) (by omega) (by unfold fld; omega) ?_
  have e0 : fld v 27 24 = p := by unfold fld; omega
  have e1 : fld v 17 12 = d := by unfold fld; omega
  have e2 : fld v 11 6 = a := by unfold fld; omega
  have e3 : fld v 5 0 = 4 := by unfold fld; omega
  show (if fld v 5 0 == 0 then decForm (true) (.fsNum (fld v 27 24) (fld v 17 12) (fld v 11 6)) else if fld v 5 0 == 1 then decForm (true) (.fsDen (fld v 27 24) (fld v 17 12) (fld v 11 6)) else if fld v 5 0 == 2 then decForm (true) (.fsClass (fld v 27 24) (fld v 17 12) (fld v 11 6)) else if fld v 5 0 == 3 then decForm (true) (.fsCanon (fld v 27 24) (fld v 17 12) (fld v 11 6)) else if fld v 5 0 == 4 then decForm (true) (.fsCvtF32 (fld v 27 24) (fld v 17 12) (fld v 11 6)) else if fld v 5 0 == 5 then decForm (true) (.fsCvtE8 (fld v 27 24) (fld v 17 12) (fld v 11 6)) else if fld v 5 0 == 6 then decForm (true) (.fsPack32 (fld v 27 24) (fld v 17 12) (fld v 11 6)) else if fld v 5 0 == 7 then decForm (true) (.fsUnpk32 (fld v 27 24) (fld v 17 12) (fld v 11 6)) else .err .reservedOpcode) = _
  rw [e0, e1, e2, e3]
  exact decForm_ok rfl hw

theorem fsCvtE8 (p d a : Nat) : Statement (.fsCvtE8 p d a) := by
  intro k h hw
  cases h
  have hb : p < 16 ∧ d < 64 ∧ a < 64 := of_decide_eq_true hw
  obtain ⟨h0, h1, h2⟩ := hb
  obtain ⟨v, hv⟩ : ∃ v, v = p * 0x1000000 + d * 0x1000 + a * 0x40 + 0xFC0005 := ⟨_, rfl⟩
  rw [show encode (.fsCvtE8 p d a) = v from hv.symm]
  refine of_s (op := 63) (by omega) (by unfold fld; omega) ?_
  have e0 : fld v 27 24 = p := by unfold fld; omega
  have e1 : fld v 17 12 = d := by unfold fld; omega
  have e2 : fld v 11 6 = a := by unfold fld; omega
  have e3 : fld v 5 0 = 5 := by unfold fld; omega
  show (if fld v 5 0 == 0 then decForm (true) (.fsNum (fld v 27 24) (fld v 17 12) (fld v 11 6)) else if fld v 5 0 == 1 then decForm (true) (.fsDen (fld v 27 24) (fld v 17 12) (fld v 11 6)) else if fld v 5 0 == 2 then decForm (true) (.fsClass (fld v 27 24) (fld v 17 12) (fld v 11 6)) else if fld v 5 0 == 3 then decForm (true) (.fsCanon (fld v 27 24) (fld v 17 12) (fld v 11 6)) else if fld v 5 0 == 4 then decForm (true) (.fsCvtF32 (fld v 27 24) (fld v 17 12) (fld v 11 6)) else if fld v 5 0 == 5 then decForm (true) (.fsCvtE8 (fld v 27 24) (fld v 17 12) (fld v 11 6)) else if fld v 5 0 == 6 then decForm (true) (.fsPack32 (fld v 27 24) (fld v 17 12) (fld v 11 6)) else if fld v 5 0 == 7 then decForm (true) (.fsUnpk32 (fld v 27 24) (fld v 17 12) (fld v 11 6)) else .err .reservedOpcode) = _
  rw [e0, e1, e2, e3]
  exact decForm_ok rfl hw

theorem fsPack32 (p d a : Nat) : Statement (.fsPack32 p d a) := by
  intro k h hw
  cases h
  have hb : p < 16 ∧ d < 64 ∧ a < 64 := of_decide_eq_true hw
  obtain ⟨h0, h1, h2⟩ := hb
  obtain ⟨v, hv⟩ : ∃ v, v = p * 0x1000000 + d * 0x1000 + a * 0x40 + 0xFC0006 := ⟨_, rfl⟩
  rw [show encode (.fsPack32 p d a) = v from hv.symm]
  refine of_s (op := 63) (by omega) (by unfold fld; omega) ?_
  have e0 : fld v 27 24 = p := by unfold fld; omega
  have e1 : fld v 17 12 = d := by unfold fld; omega
  have e2 : fld v 11 6 = a := by unfold fld; omega
  have e3 : fld v 5 0 = 6 := by unfold fld; omega
  show (if fld v 5 0 == 0 then decForm (true) (.fsNum (fld v 27 24) (fld v 17 12) (fld v 11 6)) else if fld v 5 0 == 1 then decForm (true) (.fsDen (fld v 27 24) (fld v 17 12) (fld v 11 6)) else if fld v 5 0 == 2 then decForm (true) (.fsClass (fld v 27 24) (fld v 17 12) (fld v 11 6)) else if fld v 5 0 == 3 then decForm (true) (.fsCanon (fld v 27 24) (fld v 17 12) (fld v 11 6)) else if fld v 5 0 == 4 then decForm (true) (.fsCvtF32 (fld v 27 24) (fld v 17 12) (fld v 11 6)) else if fld v 5 0 == 5 then decForm (true) (.fsCvtE8 (fld v 27 24) (fld v 17 12) (fld v 11 6)) else if fld v 5 0 == 6 then decForm (true) (.fsPack32 (fld v 27 24) (fld v 17 12) (fld v 11 6)) else if fld v 5 0 == 7 then decForm (true) (.fsUnpk32 (fld v 27 24) (fld v 17 12) (fld v 11 6)) else .err .reservedOpcode) = _
  rw [e0, e1, e2, e3]
  exact decForm_ok rfl hw

theorem fsUnpk32 (p d a : Nat) : Statement (.fsUnpk32 p d a) := by
  intro k h hw
  cases h
  have hb : p < 16 ∧ d < 64 ∧ a < 64 := of_decide_eq_true hw
  obtain ⟨h0, h1, h2⟩ := hb
  obtain ⟨v, hv⟩ : ∃ v, v = p * 0x1000000 + d * 0x1000 + a * 0x40 + 0xFC0007 := ⟨_, rfl⟩
  rw [show encode (.fsUnpk32 p d a) = v from hv.symm]
  refine of_s (op := 63) (by omega) (by unfold fld; omega) ?_
  have e0 : fld v 27 24 = p := by unfold fld; omega
  have e1 : fld v 17 12 = d := by unfold fld; omega
  have e2 : fld v 11 6 = a := by unfold fld; omega
  have e3 : fld v 5 0 = 7 := by unfold fld; omega
  show (if fld v 5 0 == 0 then decForm (true) (.fsNum (fld v 27 24) (fld v 17 12) (fld v 11 6)) else if fld v 5 0 == 1 then decForm (true) (.fsDen (fld v 27 24) (fld v 17 12) (fld v 11 6)) else if fld v 5 0 == 2 then decForm (true) (.fsClass (fld v 27 24) (fld v 17 12) (fld v 11 6)) else if fld v 5 0 == 3 then decForm (true) (.fsCanon (fld v 27 24) (fld v 17 12) (fld v 11 6)) else if fld v 5 0 == 4 then decForm (true) (.fsCvtF32 (fld v 27 24) (fld v 17 12) (fld v 11 6)) else if fld v 5 0 == 5 then decForm (true) (.fsCvtE8 (fld v 27 24) (fld v 17 12) (fld v 11 6)) else if fld v 5 0 == 6 then decForm (true) (.fsPack32 (fld v 27 24) (fld v 17 12) (fld v 11 6)) else if fld v 5 0 == 7 then decForm (true) (.fsUnpk32 (fld v 27 24) (fld v 17 12) (fld v 11 6)) else .err .reservedOpcode) = _
  rw [e0, e1, e2, e3]
  exact decForm_ok rfl hw

theorem rationalResult (c : Nat) : Statement (.rationalResult c) := fun _ h _ => nomatch h

theorem lNop (p : Nat) : Statement (.lNop p) := by
  intro k h hw
  cases h
  have hb : p < 16 := of_decide_eq_true hw
  obtain ⟨v, hv⟩ : ∃ v, v = p * 0x1000000 + 0x0 := ⟨_, rfl⟩
  rw [show encode (.lNop p) = v from hv.symm]
  refine of_l (op := 0) (by omega) (by unfold fld; omega) ?_
  have e0 : fld v 27 24 = p := by unfold fld; omega
  have e1 : fld v 18 0 = 0 := by unfold fld; omega
  show decForm (fld v 18 0 == 0) (.lNop (fld v 27 24)) = _
  rw [e0, e1]
  exact decForm_ok rfl hw

theorem vld32 (p v0 t : Nat) : Statement (.vld32 p v0 t) := by
  intro k h hw
  cases h
  have hb : p < 16 ∧ t < 16 ∧ vopOk v0 = true := of_decide_eq_true hw
  obtain ⟨h0, h1, h2⟩ := hb
  have gh2 := vopOk_lt h2
  obtain ⟨v, hv⟩ : ∃ v, v = p * 0x1000000 + v0 * 0x80 + t * 0x8 + 0x80000 := ⟨_, rfl⟩
  rw [show encode (.vld32 p v0 t) = v from hv.symm]
  refine of_l (op := 1) (by omega) (by unfold fld; omega) ?_
  have e0 : fld v 27 24 = p := by unfold fld; omega
  have e1 : fld v 18 7 = v0 := by unfold fld; omega
  have e2 : fld v 6 3 = t := by unfold fld; omega
  have e3 : fld v 2 0 = 0 := by unfold fld; omega
  show decForm (fld v 2 0 == 0) (.vld32 (fld v 27 24) (fld v 18 7) (fld v 6 3)) = _
  rw [e0, e1, e2, e3]
  exact decForm_ok rfl hw

theorem vld16 (p v0 t : Nat) : Statement (.vld16 p v0 t) := by
  intro k h hw
  cases h
  have hb : p < 16 ∧ t < 16 ∧ vopOk v0 = true := of_decide_eq_true hw
  obtain ⟨h0, h1, h2⟩ := hb
  have gh2 := vopOk_lt h2
  obtain ⟨v, hv⟩ : ∃ v, v = p * 0x1000000 + v0 * 0x80 + t * 0x8 + 0x100000 := ⟨_, rfl⟩
  rw [show encode (.vld16 p v0 t) = v from hv.symm]
  refine of_l (op := 2) (by omega) (by unfold fld; omega) ?_
  have e0 : fld v 27 24 = p := by unfold fld; omega
  have e1 : fld v 18 7 = v0 := by unfold fld; omega
  have e2 : fld v 6 3 = t := by unfold fld; omega
  have e3 : fld v 2 0 = 0 := by unfold fld; omega
  show decForm (fld v 2 0 == 0) (.vld16 (fld v 27 24) (fld v 18 7) (fld v 6 3)) = _
  rw [e0, e1, e2, e3]
  exact decForm_ok rfl hw

theorem qld (p q t : Nat) : Statement (.qld p q t) := by
  intro k h hw
  cases h
  have hb : p < 16 ∧ q < 16 ∧ t < 16 := of_decide_eq_true hw
  obtain ⟨h0, h1, h2⟩ := hb
  obtain ⟨v, hv⟩ : ∃ v, v = p * 0x1000000 + q * 0x8000 + t * 0x800 + 0x180000 := ⟨_, rfl⟩
  rw [show encode (.qld p q t) = v from hv.symm]
  refine of_l (op := 3) (by omega) (by unfold fld; omega) ?_
  have e0 : fld v 27 24 = p := by unfold fld; omega
  have e1 : fld v 18 15 = q := by unfold fld; omega
  have e2 : fld v 14 11 = t := by unfold fld; omega
  have e3 : fld v 10 0 = 0 := by unfold fld; omega
  show decForm (fld v 10 0 == 0) (.qld (fld v 27 24) (fld v 18 15) (fld v 14 11)) = _
  rw [e0, e1, e2, e3]
  exact decForm_ok rfl hw

theorem ldsB (p d a v0 k0 : Nat) : Statement (.ldsB p d a v0 k0) := by
  intro k h hw
  cases h
  have hb : p < 16 ∧ d < 64 ∧ a < 64 ∧ v0 < 2 ∧ k0 < 16 ∧ (v0 = 1 ∨ k0 = 0) := of_decide_eq_true hw
  obtain ⟨h0, h1, h2, h3, h4, h5⟩ := hb
  obtain ⟨v, hv⟩ : ∃ v, v = p * 0x1000000 + d * 0x2000 + a * 0x80 + v0 * 0x40 + k0 * 0x4 + 0x200000 := ⟨_, rfl⟩
  rw [show encode (.ldsB p d a v0 k0) = v from hv.symm]
  refine of_l (op := 4) (by omega) (by unfold fld; omega) ?_
  have e0 : fld v 27 24 = p := by unfold fld; omega
  have e1 : fld v 18 13 = d := by unfold fld; omega
  have e2 : fld v 12 7 = a := by unfold fld; omega
  have e3 : fld v 6 6 = v0 := by unfold fld; omega
  have e4 : fld v 5 2 = k0 := by unfold fld; omega
  have e5 : fld v 1 0 = 0 := by unfold fld; omega
  show decForm (fld v 1 0 == 0) (.ldsB (fld v 27 24) (fld v 18 13) (fld v 12 7) (fld v 6 6) (fld v 5 2)) = _
  rw [e0, e1, e2, e3, e4, e5]
  exact decForm_ok rfl hw

theorem ldsH (p d a v0 k0 : Nat) : Statement (.ldsH p d a v0 k0) := by
  intro k h hw
  cases h
  have hb : p < 16 ∧ d < 64 ∧ a < 64 ∧ v0 < 2 ∧ k0 < 16 ∧ (v0 = 1 ∨ k0 = 0) := of_decide_eq_true hw
  obtain ⟨h0, h1, h2, h3, h4, h5⟩ := hb
  obtain ⟨v, hv⟩ : ∃ v, v = p * 0x1000000 + d * 0x2000 + a * 0x80 + v0 * 0x40 + k0 * 0x4 + 0x280000 := ⟨_, rfl⟩
  rw [show encode (.ldsH p d a v0 k0) = v from hv.symm]
  refine of_l (op := 5) (by omega) (by unfold fld; omega) ?_
  have e0 : fld v 27 24 = p := by unfold fld; omega
  have e1 : fld v 18 13 = d := by unfold fld; omega
  have e2 : fld v 12 7 = a := by unfold fld; omega
  have e3 : fld v 6 6 = v0 := by unfold fld; omega
  have e4 : fld v 5 2 = k0 := by unfold fld; omega
  have e5 : fld v 1 0 = 0 := by unfold fld; omega
  show decForm (fld v 1 0 == 0) (.ldsH (fld v 27 24) (fld v 18 13) (fld v 12 7) (fld v 6 6) (fld v 5 2)) = _
  rw [e0, e1, e2, e3, e4, e5]
  exact decForm_ok rfl hw

theorem ldsW (p d a v0 k0 : Nat) : Statement (.ldsW p d a v0 k0) := by
  intro k h hw
  cases h
  have hb : p < 16 ∧ d < 64 ∧ a < 64 ∧ v0 < 2 ∧ k0 < 16 ∧ (v0 = 1 ∨ k0 = 0) := of_decide_eq_true hw
  obtain ⟨h0, h1, h2, h3, h4, h5⟩ := hb
  obtain ⟨v, hv⟩ : ∃ v, v = p * 0x1000000 + d * 0x2000 + a * 0x80 + v0 * 0x40 + k0 * 0x4 + 0x300000 := ⟨_, rfl⟩
  rw [show encode (.ldsW p d a v0 k0) = v from hv.symm]
  refine of_l (op := 6) (by omega) (by unfold fld; omega) ?_
  have e0 : fld v 27 24 = p := by unfold fld; omega
  have e1 : fld v 18 13 = d := by unfold fld; omega
  have e2 : fld v 12 7 = a := by unfold fld; omega
  have e3 : fld v 6 6 = v0 := by unfold fld; omega
  have e4 : fld v 5 2 = k0 := by unfold fld; omega
  have e5 : fld v 1 0 = 0 := by unfold fld; omega
  show decForm (fld v 1 0 == 0) (.ldsW (fld v 27 24) (fld v 18 13) (fld v 12 7) (fld v 6 6) (fld v 5 2)) = _
  rw [e0, e1, e2, e3, e4, e5]
  exact decForm_ok rfl hw

theorem ldsD (p d a v0 k0 : Nat) : Statement (.ldsD p d a v0 k0) := by
  intro k h hw
  cases h
  have hb : p < 16 ∧ d < 64 ∧ a < 64 ∧ v0 < 2 ∧ k0 < 16 ∧ (v0 = 1 ∨ k0 = 0) := of_decide_eq_true hw
  obtain ⟨h0, h1, h2, h3, h4, h5⟩ := hb
  obtain ⟨v, hv⟩ : ∃ v, v = p * 0x1000000 + d * 0x2000 + a * 0x80 + v0 * 0x40 + k0 * 0x4 + 0x380000 := ⟨_, rfl⟩
  rw [show encode (.ldsD p d a v0 k0) = v from hv.symm]
  refine of_l (op := 7) (by omega) (by unfold fld; omega) ?_
  have e0 : fld v 27 24 = p := by unfold fld; omega
  have e1 : fld v 18 13 = d := by unfold fld; omega
  have e2 : fld v 12 7 = a := by unfold fld; omega
  have e3 : fld v 6 6 = v0 := by unfold fld; omega
  have e4 : fld v 5 2 = k0 := by unfold fld; omega
  have e5 : fld v 1 0 = 0 := by unfold fld; omega
  show decForm (fld v 1 0 == 0) (.ldsD (fld v 27 24) (fld v 18 13) (fld v 12 7) (fld v 6 6) (fld v 5 2)) = _
  rw [e0, e1, e2, e3, e4, e5]
  exact decForm_ok rfl hw

theorem ofill (p s t v0 k0 : Nat) : Statement (.ofill p s t v0 k0) := by
  intro k h hw
  cases h
  have hb : p < 16 ∧ s < 16 ∧ t < 16 ∧ v0 < 2 ∧ k0 < 16 ∧ (v0 = 1 ∨ k0 = 0) := of_decide_eq_true hw
  obtain ⟨h0, h1, h2, h3, h4, h5⟩ := hb
  obtain ⟨v, hv⟩ : ∃ v, v = p * 0x1000000 + s * 0x8000 + t * 0x800 + v0 * 0x400 + k0 * 0x40 + 0x400000 := ⟨_, rfl⟩
  rw [show encode (.ofill p s t v0 k0) = v from hv.symm]
  refine of_l (op := 8) (by omega) (by unfold fld; omega) ?_
  have e0 : fld v 27 24 = p := by unfold fld; omega
  have e1 : fld v 18 15 = s := by unfold fld; omega
  have e2 : fld v 14 11 = t := by unfold fld; omega
  have e3 : fld v 10 10 = v0 := by unfold fld; omega
  have e4 : fld v 9 6 = k0 := by unfold fld; omega
  have e5 : fld v 5 0 = 0 := by unfold fld; omega
  show decForm (fld v 5 0 == 0) (.ofill (fld v 27 24) (fld v 18 15) (fld v 14 11) (fld v 10 10) (fld v 9 6)) = _
  rw [e0, e1, e2, e3, e4, e5]
  exact decForm_ok rfl hw

theorem halloc (p h d a : Nat) : Statement (.halloc p h d a) := by
  intro k h hw
  cases h
  have hb : p < 16 ∧ h < 256 ∧ d < 16 ∧ a < 64 ∧ 1 ≤ d := of_decide_eq_true hw
  obtain ⟨h0, h1, h2, h3, h4⟩ := hb
  obtain ⟨v, hv⟩ : ∃ v, v = p * 0x1000000 + h * 0x800 + d * 0x80 + a * 0x2 + 0x480000 := ⟨_, rfl⟩
  rw [show encode (.halloc p h d a) = v from hv.symm]
  refine of_l (op := 9) (by omega) (by unfold fld; omega) ?_
  have e0 : fld v 27 24 = p := by unfold fld; omega
  have e1 : fld v 18 11 = h := by unfold fld; omega
  have e2 : fld v 10 7 = d := by unfold fld; omega
  have e3 : fld v 6 1 = a := by unfold fld; omega
  have e4 : fld v 0 0 = 0 := by unfold fld; omega
  show decForm (fld v 0 0 == 0) (.halloc (fld v 27 24) (fld v 18 11) (fld v 10 7) (fld v 6 1)) = _
  rw [e0, e1, e2, e3, e4]
  exact decForm_ok rfl hw

theorem hfree (p h : Nat) : Statement (.hfree p h) := by
  intro k h hw
  cases h
  have hb : p < 16 ∧ h < 256 := of_decide_eq_true hw
  obtain ⟨h0, h1⟩ := hb
  obtain ⟨v, hv⟩ : ∃ v, v = p * 0x1000000 + h * 0x800 + 0x500000 := ⟨_, rfl⟩
  rw [show encode (.hfree p h) = v from hv.symm]
  refine of_l (op := 10) (by omega) (by unfold fld; omega) ?_
  have e0 : fld v 27 24 = p := by unfold fld; omega
  have e1 : fld v 18 11 = h := by unfold fld; omega
  have e2 : fld v 10 0 = 0 := by unfold fld; omega
  show decForm (fld v 10 0 == 0) (.hfree (fld v 27 24) (fld v 18 11)) = _
  rw [e0, e1, e2]
  exact decForm_ok rfl hw

theorem wNop (p : Nat) : Statement (.wNop p) := by
  intro k h hw
  cases h
  have hb : p < 16 := of_decide_eq_true hw
  obtain ⟨v, hv⟩ : ∃ v, v = p * 0x1000000 + 0x0 := ⟨_, rfl⟩
  rw [show encode (.wNop p) = v from hv.symm]
  refine of_w (op := 0) (by omega) (by unfold fld; omega) ?_
  have e0 : fld v 27 24 = p := by unfold fld; omega
  have e1 : fld v 18 0 = 0 := by unfold fld; omega
  show decForm (fld v 18 0 == 0) (.wNop (fld v 27 24)) = _
  rw [e0, e1]
  exact decForm_ok rfl hw

theorem vst32 (p v0 t : Nat) : Statement (.vst32 p v0 t) := by
  intro k h hw
  cases h
  have hb : p < 16 ∧ t < 16 ∧ vopOk v0 = true := of_decide_eq_true hw
  obtain ⟨h0, h1, h2⟩ := hb
  have gh2 := vopOk_lt h2
  obtain ⟨v, hv⟩ : ∃ v, v = p * 0x1000000 + v0 * 0x80 + t * 0x8 + 0x80000 := ⟨_, rfl⟩
  rw [show encode (.vst32 p v0 t) = v from hv.symm]
  refine of_w (op := 1) (by omega) (by unfold fld; omega) ?_
  have e0 : fld v 27 24 = p := by unfold fld; omega
  have e1 : fld v 18 7 = v0 := by unfold fld; omega
  have e2 : fld v 6 3 = t := by unfold fld; omega
  have e3 : fld v 2 0 = 0 := by unfold fld; omega
  show decForm (fld v 2 0 == 0) (.vst32 (fld v 27 24) (fld v 18 7) (fld v 6 3)) = _
  rw [e0, e1, e2, e3]
  exact decForm_ok rfl hw

theorem vst16 (p v0 t : Nat) : Statement (.vst16 p v0 t) := by
  intro k h hw
  cases h
  have hb : p < 16 ∧ t < 16 ∧ vopOk v0 = true := of_decide_eq_true hw
  obtain ⟨h0, h1, h2⟩ := hb
  have gh2 := vopOk_lt h2
  obtain ⟨v, hv⟩ : ∃ v, v = p * 0x1000000 + v0 * 0x80 + t * 0x8 + 0x100000 := ⟨_, rfl⟩
  rw [show encode (.vst16 p v0 t) = v from hv.symm]
  refine of_w (op := 2) (by omega) (by unfold fld; omega) ?_
  have e0 : fld v 27 24 = p := by unfold fld; omega
  have e1 : fld v 18 7 = v0 := by unfold fld; omega
  have e2 : fld v 6 3 = t := by unfold fld; omega
  have e3 : fld v 2 0 = 0 := by unfold fld; omega
  show decForm (fld v 2 0 == 0) (.vst16 (fld v 27 24) (fld v 18 7) (fld v 6 3)) = _
  rw [e0, e1, e2, e3]
  exact decForm_ok rfl hw

theorem qst (p q t : Nat) : Statement (.qst p q t) := by
  intro k h hw
  cases h
  have hb : p < 16 ∧ q < 16 ∧ t < 16 := of_decide_eq_true hw
  obtain ⟨h0, h1, h2⟩ := hb
  obtain ⟨v, hv⟩ : ∃ v, v = p * 0x1000000 + q * 0x8000 + t * 0x800 + 0x180000 := ⟨_, rfl⟩
  rw [show encode (.qst p q t) = v from hv.symm]
  refine of_w (op := 3) (by omega) (by unfold fld; omega) ?_
  have e0 : fld v 27 24 = p := by unfold fld; omega
  have e1 : fld v 18 15 = q := by unfold fld; omega
  have e2 : fld v 14 11 = t := by unfold fld; omega
  have e3 : fld v 10 0 = 0 := by unfold fld; omega
  show decForm (fld v 10 0 == 0) (.qst (fld v 27 24) (fld v 18 15) (fld v 14 11)) = _
  rw [e0, e1, e2, e3]
  exact decForm_ok rfl hw

theorem stsB (p d a v0 k0 : Nat) : Statement (.stsB p d a v0 k0) := by
  intro k h hw
  cases h
  have hb : p < 16 ∧ d < 64 ∧ a < 64 ∧ v0 < 2 ∧ k0 < 16 ∧ (v0 = 1 ∨ k0 = 0) := of_decide_eq_true hw
  obtain ⟨h0, h1, h2, h3, h4, h5⟩ := hb
  obtain ⟨v, hv⟩ : ∃ v, v = p * 0x1000000 + d * 0x2000 + a * 0x80 + v0 * 0x40 + k0 * 0x4 + 0x200000 := ⟨_, rfl⟩
  rw [show encode (.stsB p d a v0 k0) = v from hv.symm]
  refine of_w (op := 4) (by omega) (by unfold fld; omega) ?_
  have e0 : fld v 27 24 = p := by unfold fld; omega
  have e1 : fld v 18 13 = d := by unfold fld; omega
  have e2 : fld v 12 7 = a := by unfold fld; omega
  have e3 : fld v 6 6 = v0 := by unfold fld; omega
  have e4 : fld v 5 2 = k0 := by unfold fld; omega
  have e5 : fld v 1 0 = 0 := by unfold fld; omega
  show decForm (fld v 1 0 == 0) (.stsB (fld v 27 24) (fld v 18 13) (fld v 12 7) (fld v 6 6) (fld v 5 2)) = _
  rw [e0, e1, e2, e3, e4, e5]
  exact decForm_ok rfl hw

theorem stsH (p d a v0 k0 : Nat) : Statement (.stsH p d a v0 k0) := by
  intro k h hw
  cases h
  have hb : p < 16 ∧ d < 64 ∧ a < 64 ∧ v0 < 2 ∧ k0 < 16 ∧ (v0 = 1 ∨ k0 = 0) := of_decide_eq_true hw
  obtain ⟨h0, h1, h2, h3, h4, h5⟩ := hb
  obtain ⟨v, hv⟩ : ∃ v, v = p * 0x1000000 + d * 0x2000 + a * 0x80 + v0 * 0x40 + k0 * 0x4 + 0x280000 := ⟨_, rfl⟩
  rw [show encode (.stsH p d a v0 k0) = v from hv.symm]
  refine of_w (op := 5) (by omega) (by unfold fld; omega) ?_
  have e0 : fld v 27 24 = p := by unfold fld; omega
  have e1 : fld v 18 13 = d := by unfold fld; omega
  have e2 : fld v 12 7 = a := by unfold fld; omega
  have e3 : fld v 6 6 = v0 := by unfold fld; omega
  have e4 : fld v 5 2 = k0 := by unfold fld; omega
  have e5 : fld v 1 0 = 0 := by unfold fld; omega
  show decForm (fld v 1 0 == 0) (.stsH (fld v 27 24) (fld v 18 13) (fld v 12 7) (fld v 6 6) (fld v 5 2)) = _
  rw [e0, e1, e2, e3, e4, e5]
  exact decForm_ok rfl hw

theorem stsW (p d a v0 k0 : Nat) : Statement (.stsW p d a v0 k0) := by
  intro k h hw
  cases h
  have hb : p < 16 ∧ d < 64 ∧ a < 64 ∧ v0 < 2 ∧ k0 < 16 ∧ (v0 = 1 ∨ k0 = 0) := of_decide_eq_true hw
  obtain ⟨h0, h1, h2, h3, h4, h5⟩ := hb
  obtain ⟨v, hv⟩ : ∃ v, v = p * 0x1000000 + d * 0x2000 + a * 0x80 + v0 * 0x40 + k0 * 0x4 + 0x300000 := ⟨_, rfl⟩
  rw [show encode (.stsW p d a v0 k0) = v from hv.symm]
  refine of_w (op := 6) (by omega) (by unfold fld; omega) ?_
  have e0 : fld v 27 24 = p := by unfold fld; omega
  have e1 : fld v 18 13 = d := by unfold fld; omega
  have e2 : fld v 12 7 = a := by unfold fld; omega
  have e3 : fld v 6 6 = v0 := by unfold fld; omega
  have e4 : fld v 5 2 = k0 := by unfold fld; omega
  have e5 : fld v 1 0 = 0 := by unfold fld; omega
  show decForm (fld v 1 0 == 0) (.stsW (fld v 27 24) (fld v 18 13) (fld v 12 7) (fld v 6 6) (fld v 5 2)) = _
  rw [e0, e1, e2, e3, e4, e5]
  exact decForm_ok rfl hw

theorem stsD (p d a v0 k0 : Nat) : Statement (.stsD p d a v0 k0) := by
  intro k h hw
  cases h
  have hb : p < 16 ∧ d < 64 ∧ a < 64 ∧ v0 < 2 ∧ k0 < 16 ∧ (v0 = 1 ∨ k0 = 0) := of_decide_eq_true hw
  obtain ⟨h0, h1, h2, h3, h4, h5⟩ := hb
  obtain ⟨v, hv⟩ : ∃ v, v = p * 0x1000000 + d * 0x2000 + a * 0x80 + v0 * 0x40 + k0 * 0x4 + 0x380000 := ⟨_, rfl⟩
  rw [show encode (.stsD p d a v0 k0) = v from hv.symm]
  refine of_w (op := 7) (by omega) (by unfold fld; omega) ?_
  have e0 : fld v 27 24 = p := by unfold fld; omega
  have e1 : fld v 18 13 = d := by unfold fld; omega
  have e2 : fld v 12 7 = a := by unfold fld; omega
  have e3 : fld v 6 6 = v0 := by unfold fld; omega
  have e4 : fld v 5 2 = k0 := by unfold fld; omega
  have e5 : fld v 1 0 = 0 := by unfold fld; omega
  show decForm (fld v 1 0 == 0) (.stsD (fld v 27 24) (fld v 18 13) (fld v 12 7) (fld v 6 6) (fld v 5 2)) = _
  rw [e0, e1, e2, e3, e4, e5]
  exact decForm_ok rfl hw

theorem oclaim (p s : Nat) : Statement (.oclaim p s) := by
  intro k h hw
  cases h
  have hb : p < 16 ∧ s < 16 := of_decide_eq_true hw
  obtain ⟨h0, h1⟩ := hb
  obtain ⟨v, hv⟩ : ∃ v, v = p * 0x1000000 + s * 0x8000 + 0x400000 := ⟨_, rfl⟩
  rw [show encode (.oclaim p s) = v from hv.symm]
  refine of_w (op := 8) (by omega) (by unfold fld; omega) ?_
  have e0 : fld v 27 24 = p := by unfold fld; omega
  have e1 : fld v 18 15 = s := by unfold fld; omega
  have e2 : fld v 14 0 = 0 := by unfold fld; omega
  show decForm (fld v 14 0 == 0) (.oclaim (fld v 27 24) (fld v 18 15)) = _
  rw [e0, e1, e2]
  exact decForm_ok rfl hw

theorem orel (p s : Nat) : Statement (.orel p s) := by
  intro k h hw
  cases h
  have hb : p < 16 ∧ s < 16 := of_decide_eq_true hw
  obtain ⟨h0, h1⟩ := hb
  obtain ⟨v, hv⟩ : ∃ v, v = p * 0x1000000 + s * 0x8000 + 0x480000 := ⟨_, rfl⟩
  rw [show encode (.orel p s) = v from hv.symm]
  refine of_w (op := 9) (by omega) (by unfold fld; omega) ?_
  have e0 : fld v 27 24 = p := by unfold fld; omega
  have e1 : fld v 18 15 = s := by unfold fld; omega
  have e2 : fld v 14 0 = 0 := by unfold fld; omega
  show decForm (fld v 14 0 == 0) (.orel (fld v 27 24) (fld v 18 15)) = _
  rw [e0, e1, e2]
  exact decForm_ok rfl hw

theorem fillComplete (c : Nat) : Statement (.fillComplete c) := fun _ h _ => nomatch h

theorem gNop (p : Nat) : Statement (.gNop p) := by
  intro k h hw
  cases h
  have hb : p < 16 := of_decide_eq_true hw
  obtain ⟨v, hv⟩ : ∃ v, v = p * 0x10000000 + 0x0 := ⟨_, rfl⟩
  rw [show encode (.gNop p) = v from hv.symm]
  refine of_g (op := 0) (by omega) (by unfold fld; omega) ?_
  have e0 : fld v 31 28 = p := by unfold fld; omega
  have e1 : fld v 21 0 = 0 := by unfold fld; omega
  show decForm (fld v 21 0 == 0) (.gNop (fld v 31 28)) = _
  rw [e0, e1]
  exact decForm_ok rfl hw

theorem ldB (p d a v0 t w u : Nat) : Statement (.ldB p d a v0 t w u) := by
  intro k h hw
  cases h
  have hb : p < 16 ∧ d < 64 ∧ a < 64 ∧ v0 < 2 ∧ t < 16 ∧ w < 2 ∧ u < 16 ∧ (v0 = 1 ∨ (t = 0 ∧ w = 0)) ∧ (w = 1 ∨ u = 0) := of_decide_eq_true hw
  obtain ⟨h0, h1, h2, h3, h4, h5, h6, h7, h8⟩ := hb
  obtain ⟨v, hv⟩ : ∃ v, v = p * 0x10000000 + d * 0x10000 + a * 0x400 + v0 * 0x200 + t * 0x20 + w * 0x10 + u + 0x400000 := ⟨_, rfl⟩
  rw [show encode (.ldB p d a v0 t w u) = v from hv.symm]
  refine of_g (op := 1) (by omega) (by unfold fld; omega) ?_
  have e0 : fld v 31 28 = p := by unfold fld; omega
  have e1 : fld v 21 16 = d := by unfold fld; omega
  have e2 : fld v 15 10 = a := by unfold fld; omega
  have e3 : fld v 9 9 = v0 := by unfold fld; omega
  have e4 : fld v 8 5 = t := by unfold fld; omega
  have e5 : fld v 4 4 = w := by unfold fld; omega
  have e6 : fld v 3 0 = u := by unfold fld; omega
  show decForm (true) (.ldB (fld v 31 28) (fld v 21 16) (fld v 15 10) (fld v 9 9) (fld v 8 5) (fld v 4 4) (fld v 3 0)) = _
  rw [e0, e1, e2, e3, e4, e5, e6]
  exact decForm_ok rfl hw

theorem ldH (p d a v0 t w u : Nat) : Statement (.ldH p d a v0 t w u) := by
  intro k h hw
  cases h
  have hb : p < 16 ∧ d < 64 ∧ a < 64 ∧ v0 < 2 ∧ t < 16 ∧ w < 2 ∧ u < 16 ∧ (v0 = 1 ∨ (t = 0 ∧ w = 0)) ∧ (w = 1 ∨ u = 0) := of_decide_eq_true hw
  obtain ⟨h0, h1, h2, h3, h4, h5, h6, h7, h8⟩ := hb
  obtain ⟨v, hv⟩ : ∃ v, v = p * 0x10000000 + d * 0x10000 + a * 0x400 + v0 * 0x200 + t * 0x20 + w * 0x10 + u + 0x800000 := ⟨_, rfl⟩
  rw [show encode (.ldH p d a v0 t w u) = v from hv.symm]
  refine of_g (op := 2) (by omega) (by unfold fld; omega) ?_
  have e0 : fld v 31 28 = p := by unfold fld; omega
  have e1 : fld v 21 16 = d := by unfold fld; omega
  have e2 : fld v 15 10 = a := by unfold fld; omega
  have e3 : fld v 9 9 = v0 := by unfold fld; omega
  have e4 : fld v 8 5 = t := by unfold fld; omega
  have e5 : fld v 4 4 = w := by unfold fld; omega
  have e6 : fld v 3 0 = u := by unfold fld; omega
  show decForm (true) (.ldH (fld v 31 28) (fld v 21 16) (fld v 15 10) (fld v 9 9) (fld v 8 5) (fld v 4 4) (fld v 3 0)) = _
  rw [e0, e1, e2, e3, e4, e5, e6]
  exact decForm_ok rfl hw

theorem ldW (p d a v0 t w u : Nat) : Statement (.ldW p d a v0 t w u) := by
  intro k h hw
  cases h
  have hb : p < 16 ∧ d < 64 ∧ a < 64 ∧ v0 < 2 ∧ t < 16 ∧ w < 2 ∧ u < 16 ∧ (v0 = 1 ∨ (t = 0 ∧ w = 0)) ∧ (w = 1 ∨ u = 0) := of_decide_eq_true hw
  obtain ⟨h0, h1, h2, h3, h4, h5, h6, h7, h8⟩ := hb
  obtain ⟨v, hv⟩ : ∃ v, v = p * 0x10000000 + d * 0x10000 + a * 0x400 + v0 * 0x200 + t * 0x20 + w * 0x10 + u + 0xC00000 := ⟨_, rfl⟩
  rw [show encode (.ldW p d a v0 t w u) = v from hv.symm]
  refine of_g (op := 3) (by omega) (by unfold fld; omega) ?_
  have e0 : fld v 31 28 = p := by unfold fld; omega
  have e1 : fld v 21 16 = d := by unfold fld; omega
  have e2 : fld v 15 10 = a := by unfold fld; omega
  have e3 : fld v 9 9 = v0 := by unfold fld; omega
  have e4 : fld v 8 5 = t := by unfold fld; omega
  have e5 : fld v 4 4 = w := by unfold fld; omega
  have e6 : fld v 3 0 = u := by unfold fld; omega
  show decForm (true) (.ldW (fld v 31 28) (fld v 21 16) (fld v 15 10) (fld v 9 9) (fld v 8 5) (fld v 4 4) (fld v 3 0)) = _
  rw [e0, e1, e2, e3, e4, e5, e6]
  exact decForm_ok rfl hw

theorem ldD (p d a v0 t w u : Nat) : Statement (.ldD p d a v0 t w u) := by
  intro k h hw
  cases h
  have hb : p < 16 ∧ d < 64 ∧ a < 64 ∧ v0 < 2 ∧ t < 16 ∧ w < 2 ∧ u < 16 ∧ (v0 = 1 ∨ (t = 0 ∧ w = 0)) ∧ (w = 1 ∨ u = 0) := of_decide_eq_true hw
  obtain ⟨h0, h1, h2, h3, h4, h5, h6, h7, h8⟩ := hb
  obtain ⟨v, hv⟩ : ∃ v, v = p * 0x10000000 + d * 0x10000 + a * 0x400 + v0 * 0x200 + t * 0x20 + w * 0x10 + u + 0x1000000 := ⟨_, rfl⟩
  rw [show encode (.ldD p d a v0 t w u) = v from hv.symm]
  refine of_g (op := 4) (by omega) (by unfold fld; omega) ?_
  have e0 : fld v 31 28 = p := by unfold fld; omega
  have e1 : fld v 21 16 = d := by unfold fld; omega
  have e2 : fld v 15 10 = a := by unfold fld; omega
  have e3 : fld v 9 9 = v0 := by unfold fld; omega
  have e4 : fld v 8 5 = t := by unfold fld; omega
  have e5 : fld v 4 4 = w := by unfold fld; omega
  have e6 : fld v 3 0 = u := by unfold fld; omega
  show decForm (true) (.ldD (fld v 31 28) (fld v 21 16) (fld v 15 10) (fld v 9 9) (fld v 8 5) (fld v 4 4) (fld v 3 0)) = _
  rw [e0, e1, e2, e3, e4, e5, e6]
  exact decForm_ok rfl hw

theorem stB (p d a v0 t w u : Nat) : Statement (.stB p d a v0 t w u) := by
  intro k h hw
  cases h
  have hb : p < 16 ∧ d < 64 ∧ a < 64 ∧ v0 < 2 ∧ t < 16 ∧ w < 2 ∧ u < 16 ∧ (v0 = 1 ∨ (t = 0 ∧ w = 0)) ∧ (w = 1 ∨ u = 0) := of_decide_eq_true hw
  obtain ⟨h0, h1, h2, h3, h4, h5, h6, h7, h8⟩ := hb
  obtain ⟨v, hv⟩ : ∃ v, v = p * 0x10000000 + d * 0x10000 + a * 0x400 + v0 * 0x200 + t * 0x20 + w * 0x10 + u + 0x1400000 := ⟨_, rfl⟩
  rw [show encode (.stB p d a v0 t w u) = v from hv.symm]
  refine of_g (op := 5) (by omega) (by unfold fld; omega) ?_
  have e0 : fld v 31 28 = p := by unfold fld; omega
  have e1 : fld v 21 16 = d := by unfold fld; omega
  have e2 : fld v 15 10 = a := by unfold fld; omega
  have e3 : fld v 9 9 = v0 := by unfold fld; omega
  have e4 : fld v 8 5 = t := by unfold fld; omega
  have e5 : fld v 4 4 = w := by unfold fld; omega
  have e6 : fld v 3 0 = u := by unfold fld; omega
  show decForm (true) (.stB (fld v 31 28) (fld v 21 16) (fld v 15 10) (fld v 9 9) (fld v 8 5) (fld v 4 4) (fld v 3 0)) = _
  rw [e0, e1, e2, e3, e4, e5, e6]
  exact decForm_ok rfl hw

theorem stH (p d a v0 t w u : Nat) : Statement (.stH p d a v0 t w u) := by
  intro k h hw
  cases h
  have hb : p < 16 ∧ d < 64 ∧ a < 64 ∧ v0 < 2 ∧ t < 16 ∧ w < 2 ∧ u < 16 ∧ (v0 = 1 ∨ (t = 0 ∧ w = 0)) ∧ (w = 1 ∨ u = 0) := of_decide_eq_true hw
  obtain ⟨h0, h1, h2, h3, h4, h5, h6, h7, h8⟩ := hb
  obtain ⟨v, hv⟩ : ∃ v, v = p * 0x10000000 + d * 0x10000 + a * 0x400 + v0 * 0x200 + t * 0x20 + w * 0x10 + u + 0x1800000 := ⟨_, rfl⟩
  rw [show encode (.stH p d a v0 t w u) = v from hv.symm]
  refine of_g (op := 6) (by omega) (by unfold fld; omega) ?_
  have e0 : fld v 31 28 = p := by unfold fld; omega
  have e1 : fld v 21 16 = d := by unfold fld; omega
  have e2 : fld v 15 10 = a := by unfold fld; omega
  have e3 : fld v 9 9 = v0 := by unfold fld; omega
  have e4 : fld v 8 5 = t := by unfold fld; omega
  have e5 : fld v 4 4 = w := by unfold fld; omega
  have e6 : fld v 3 0 = u := by unfold fld; omega
  show decForm (true) (.stH (fld v 31 28) (fld v 21 16) (fld v 15 10) (fld v 9 9) (fld v 8 5) (fld v 4 4) (fld v 3 0)) = _
  rw [e0, e1, e2, e3, e4, e5, e6]
  exact decForm_ok rfl hw

theorem stW (p d a v0 t w u : Nat) : Statement (.stW p d a v0 t w u) := by
  intro k h hw
  cases h
  have hb : p < 16 ∧ d < 64 ∧ a < 64 ∧ v0 < 2 ∧ t < 16 ∧ w < 2 ∧ u < 16 ∧ (v0 = 1 ∨ (t = 0 ∧ w = 0)) ∧ (w = 1 ∨ u = 0) := of_decide_eq_true hw
  obtain ⟨h0, h1, h2, h3, h4, h5, h6, h7, h8⟩ := hb
  obtain ⟨v, hv⟩ : ∃ v, v = p * 0x10000000 + d * 0x10000 + a * 0x400 + v0 * 0x200 + t * 0x20 + w * 0x10 + u + 0x1C00000 := ⟨_, rfl⟩
  rw [show encode (.stW p d a v0 t w u) = v from hv.symm]
  refine of_g (op := 7) (by omega) (by unfold fld; omega) ?_
  have e0 : fld v 31 28 = p := by unfold fld; omega
  have e1 : fld v 21 16 = d := by unfold fld; omega
  have e2 : fld v 15 10 = a := by unfold fld; omega
  have e3 : fld v 9 9 = v0 := by unfold fld; omega
  have e4 : fld v 8 5 = t := by unfold fld; omega
  have e5 : fld v 4 4 = w := by unfold fld; omega
  have e6 : fld v 3 0 = u := by unfold fld; omega
  show decForm (true) (.stW (fld v 31 28) (fld v 21 16) (fld v 15 10) (fld v 9 9) (fld v 8 5) (fld v 4 4) (fld v 3 0)) = _
  rw [e0, e1, e2, e3, e4, e5, e6]
  exact decForm_ok rfl hw

theorem stD (p d a v0 t w u : Nat) : Statement (.stD p d a v0 t w u) := by
  intro k h hw
  cases h
  have hb : p < 16 ∧ d < 64 ∧ a < 64 ∧ v0 < 2 ∧ t < 16 ∧ w < 2 ∧ u < 16 ∧ (v0 = 1 ∨ (t = 0 ∧ w = 0)) ∧ (w = 1 ∨ u = 0) := of_decide_eq_true hw
  obtain ⟨h0, h1, h2, h3, h4, h5, h6, h7, h8⟩ := hb
  obtain ⟨v, hv⟩ : ∃ v, v = p * 0x10000000 + d * 0x10000 + a * 0x400 + v0 * 0x200 + t * 0x20 + w * 0x10 + u + 0x2000000 := ⟨_, rfl⟩
  rw [show encode (.stD p d a v0 t w u) = v from hv.symm]
  refine of_g (op := 8) (by omega) (by unfold fld; omega) ?_
  have e0 : fld v 31 28 = p := by unfold fld; omega
  have e1 : fld v 21 16 = d := by unfold fld; omega
  have e2 : fld v 15 10 = a := by unfold fld; omega
  have e3 : fld v 9 9 = v0 := by unfold fld; omega
  have e4 : fld v 8 5 = t := by unfold fld; omega
  have e5 : fld v 4 4 = w := by unfold fld; omega
  have e6 : fld v 3 0 = u := by unfold fld; omega
  show decForm (true) (.stD (fld v 31 28) (fld v 21 16) (fld v 15 10) (fld v 9 9) (fld v 8 5) (fld v 4 4) (fld v 3 0)) = _
  rw [e0, e1, e2, e3, e4, e5, e6]
  exact decForm_ok rfl hw

theorem ldAcqW (p d a v0 t w u : Nat) : Statement (.ldAcqW p d a v0 t w u) := by
  intro k h hw
  cases h
  have hb : p < 16 ∧ d < 64 ∧ a < 64 ∧ v0 < 2 ∧ t < 16 ∧ w < 2 ∧ u < 16 ∧ (v0 = 1 ∨ (t = 0 ∧ w = 0)) ∧ (w = 1 ∨ u = 0) := of_decide_eq_true hw
  obtain ⟨h0, h1, h2, h3, h4, h5, h6, h7, h8⟩ := hb
  obtain ⟨v, hv⟩ : ∃ v, v = p * 0x10000000 + d * 0x10000 + a * 0x400 + v0 * 0x200 + t * 0x20 + w * 0x10 + u + 0x2400000 := ⟨_, rfl⟩
  rw [show encode (.ldAcqW p d a v0 t w u) = v from hv.symm]
  refine of_g (op := 9) (by omega) (by unfold fld; omega) ?_
  have e0 : fld v 31 28 = p := by unfold fld; omega
  have e1 : fld v 21 16 = d := by unfold fld; omega
  have e2 : fld v 15 10 = a := by unfold fld; omega
  have e3 : fld v 9 9 = v0 := by unfold fld; omega
  have e4 : fld v 8 5 = t := by unfold fld; omega
  have e5 : fld v 4 4 = w := by unfold fld; omega
  have e6 : fld v 3 0 = u := by unfold fld; omega
  show decForm (true) (.ldAcqW (fld v 31 28) (fld v 21 16) (fld v 15 10) (fld v 9 9) (fld v 8 5) (fld v 4 4) (fld v 3 0)) = _
  rw [e0, e1, e2, e3, e4, e5, e6]
  exact decForm_ok rfl hw

theorem ldAcqD (p d a v0 t w u : Nat) : Statement (.ldAcqD p d a v0 t w u) := by
  intro k h hw
  cases h
  have hb : p < 16 ∧ d < 64 ∧ a < 64 ∧ v0 < 2 ∧ t < 16 ∧ w < 2 ∧ u < 16 ∧ (v0 = 1 ∨ (t = 0 ∧ w = 0)) ∧ (w = 1 ∨ u = 0) := of_decide_eq_true hw
  obtain ⟨h0, h1, h2, h3, h4, h5, h6, h7, h8⟩ := hb
  obtain ⟨v, hv⟩ : ∃ v, v = p * 0x10000000 + d * 0x10000 + a * 0x400 + v0 * 0x200 + t * 0x20 + w * 0x10 + u + 0x2800000 := ⟨_, rfl⟩
  rw [show encode (.ldAcqD p d a v0 t w u) = v from hv.symm]
  refine of_g (op := 10) (by omega) (by unfold fld; omega) ?_
  have e0 : fld v 31 28 = p := by unfold fld; omega
  have e1 : fld v 21 16 = d := by unfold fld; omega
  have e2 : fld v 15 10 = a := by unfold fld; omega
  have e3 : fld v 9 9 = v0 := by unfold fld; omega
  have e4 : fld v 8 5 = t := by unfold fld; omega
  have e5 : fld v 4 4 = w := by unfold fld; omega
  have e6 : fld v 3 0 = u := by unfold fld; omega
  show decForm (true) (.ldAcqD (fld v 31 28) (fld v 21 16) (fld v 15 10) (fld v 9 9) (fld v 8 5) (fld v 4 4) (fld v 3 0)) = _
  rw [e0, e1, e2, e3, e4, e5, e6]
  exact decForm_ok rfl hw

theorem stRelW (p d a v0 t w u : Nat) : Statement (.stRelW p d a v0 t w u) := by
  intro k h hw
  cases h
  have hb : p < 16 ∧ d < 64 ∧ a < 64 ∧ v0 < 2 ∧ t < 16 ∧ w < 2 ∧ u < 16 ∧ (v0 = 1 ∨ (t = 0 ∧ w = 0)) ∧ (w = 1 ∨ u = 0) := of_decide_eq_true hw
  obtain ⟨h0, h1, h2, h3, h4, h5, h6, h7, h8⟩ := hb
  obtain ⟨v, hv⟩ : ∃ v, v = p * 0x10000000 + d * 0x10000 + a * 0x400 + v0 * 0x200 + t * 0x20 + w * 0x10 + u + 0x2C00000 := ⟨_, rfl⟩
  rw [show encode (.stRelW p d a v0 t w u) = v from hv.symm]
  refine of_g (op := 11) (by omega) (by unfold fld; omega) ?_
  have e0 : fld v 31 28 = p := by unfold fld; omega
  have e1 : fld v 21 16 = d := by unfold fld; omega
  have e2 : fld v 15 10 = a := by unfold fld; omega
  have e3 : fld v 9 9 = v0 := by unfold fld; omega
  have e4 : fld v 8 5 = t := by unfold fld; omega
  have e5 : fld v 4 4 = w := by unfold fld; omega
  have e6 : fld v 3 0 = u := by unfold fld; omega
  show decForm (true) (.stRelW (fld v 31 28) (fld v 21 16) (fld v 15 10) (fld v 9 9) (fld v 8 5) (fld v 4 4) (fld v 3 0)) = _
  rw [e0, e1, e2, e3, e4, e5, e6]
  exact decForm_ok rfl hw

theorem stRelD (p d a v0 t w u : Nat) : Statement (.stRelD p d a v0 t w u) := by
  intro k h hw
  cases h
  have hb : p < 16 ∧ d < 64 ∧ a < 64 ∧ v0 < 2 ∧ t < 16 ∧ w < 2 ∧ u < 16 ∧ (v0 = 1 ∨ (t = 0 ∧ w = 0)) ∧ (w = 1 ∨ u = 0) := of_decide_eq_true hw
  obtain ⟨h0, h1, h2, h3, h4, h5, h6, h7, h8⟩ := hb
  obtain ⟨v, hv⟩ : ∃ v, v = p * 0x10000000 + d * 0x10000 + a * 0x400 + v0 * 0x200 + t * 0x20 + w * 0x10 + u + 0x3000000 := ⟨_, rfl⟩
  rw [show encode (.stRelD p d a v0 t w u) = v from hv.symm]
  refine of_g (op := 12) (by omega) (by unfold fld; omega) ?_
  have e0 : fld v 31 28 = p := by unfold fld; omega
  have e1 : fld v 21 16 = d := by unfold fld; omega
  have e2 : fld v 15 10 = a := by unfold fld; omega
  have e3 : fld v 9 9 = v0 := by unfold fld; omega
  have e4 : fld v 8 5 = t := by unfold fld; omega
  have e5 : fld v 4 4 = w := by unfold fld; omega
  have e6 : fld v 3 0 = u := by unfold fld; omega
  show decForm (true) (.stRelD (fld v 31 28) (fld v 21 16) (fld v 15 10) (fld v 9 9) (fld v 8 5) (fld v 4 4) (fld v 3 0)) = _
  rw [e0, e1, e2, e3, e4, e5, e6]
  exact decForm_ok rfl hw

theorem ldV (p d a b : Nat) : Statement (.ldV p d a b) := by
  intro k h hw
  cases h
  have hb : p < 16 ∧ d < 64 ∧ a < 64 ∧ b < 64 := of_decide_eq_true hw
  obtain ⟨h0, h1, h2, h3⟩ := hb
  obtain ⟨v, hv⟩ : ∃ v, v = p * 0x10000000 + d * 0x10000 + a * 0x400 + b * 0x10 + 0x3400000 := ⟨_, rfl⟩
  rw [show encode (.ldV p d a b) = v from hv.symm]
  refine of_g (op := 13) (by omega) (by unfold fld; omega) ?_
  have e0 : fld v 31 28 = p := by unfold fld; omega
  have e1 : fld v 21 16 = d := by unfold fld; omega
  have e2 : fld v 15 10 = a := by unfold fld; omega
  have e3 : fld v 9 4 = b := by unfold fld; omega
  have e4 : fld v 3 0 = 0 := by unfold fld; omega
  show decForm (fld v 3 0 == 0) (.ldV (fld v 31 28) (fld v 21 16) (fld v 15 10) (fld v 9 4)) = _
  rw [e0, e1, e2, e3, e4]
  exact decForm_ok rfl hw

theorem stV (p d a b : Nat) : Statement (.stV p d a b) := by
  intro k h hw
  cases h
  have hb : p < 16 ∧ d < 64 ∧ a < 64 ∧ b < 64 := of_decide_eq_true hw
  obtain ⟨h0, h1, h2, h3⟩ := hb
  obtain ⟨v, hv⟩ : ∃ v, v = p * 0x10000000 + d * 0x10000 + a * 0x400 + b * 0x10 + 0x3800000 := ⟨_, rfl⟩
  rw [show encode (.stV p d a b) = v from hv.symm]
  refine of_g (op := 14) (by omega) (by unfold fld; omega) ?_
  have e0 : fld v 31 28 = p := by unfold fld; omega
  have e1 : fld v 21 16 = d := by unfold fld; omega
  have e2 : fld v 15 10 = a := by unfold fld; omega
  have e3 : fld v 9 4 = b := by unfold fld; omega
  have e4 : fld v 3 0 = 0 := by unfold fld; omega
  show decForm (fld v 3 0 == 0) (.stV (fld v 31 28) (fld v 21 16) (fld v 15 10) (fld v 9 4)) = _
  rw [e0, e1, e2, e3, e4]
  exact decForm_ok rfl hw

theorem amoAdd (p d a b : Nat) : Statement (.amoAdd p d a b) := by
  intro k h hw
  cases h
  have hb : p < 16 ∧ d < 64 ∧ a < 64 ∧ b < 64 := of_decide_eq_true hw
  obtain ⟨h0, h1, h2, h3⟩ := hb
  obtain ⟨v, hv⟩ : ∃ v, v = p * 0x10000000 + d * 0x10000 + a * 0x400 + b * 0x10 + 0x3C00000 := ⟨_, rfl⟩
  rw [show encode (.amoAdd p d a b) = v from hv.symm]
  refine of_g (op := 15) (by omega) (by unfold fld; omega) ?_
  have e0 : fld v 31 28 = p := by unfold fld; omega
  have e1 : fld v 21 16 = d := by unfold fld; omega
  have e2 : fld v 15 10 = a := by unfold fld; omega
  have e3 : fld v 9 4 = b := by unfold fld; omega
  have e4 : fld v 3 0 = 0 := by unfold fld; omega
  show decForm (fld v 3 0 == 0) (.amoAdd (fld v 31 28) (fld v 21 16) (fld v 15 10) (fld v 9 4)) = _
  rw [e0, e1, e2, e3, e4]
  exact decForm_ok rfl hw

theorem amoMax (p d a b : Nat) : Statement (.amoMax p d a b) := by
  intro k h hw
  cases h
  have hb : p < 16 ∧ d < 64 ∧ a < 64 ∧ b < 64 := of_decide_eq_true hw
  obtain ⟨h0, h1, h2, h3⟩ := hb
  obtain ⟨v, hv⟩ : ∃ v, v = p * 0x10000000 + d * 0x10000 + a * 0x400 + b * 0x10 + 0x4000000 := ⟨_, rfl⟩
  rw [show encode (.amoMax p d a b) = v from hv.symm]
  refine of_g (op := 16) (by omega) (by unfold fld; omega) ?_
  have e0 : fld v 31 28 = p := by unfold fld; omega
  have e1 : fld v 21 16 = d := by unfold fld; omega
  have e2 : fld v 15 10 = a := by unfold fld; omega
  have e3 : fld v 9 4 = b := by unfold fld; omega
  have e4 : fld v 3 0 = 0 := by unfold fld; omega
  show decForm (fld v 3 0 == 0) (.amoMax (fld v 31 28) (fld v 21 16) (fld v 15 10) (fld v 9 4)) = _
  rw [e0, e1, e2, e3, e4]
  exact decForm_ok rfl hw

theorem amoMaxu (p d a b : Nat) : Statement (.amoMaxu p d a b) := by
  intro k h hw
  cases h
  have hb : p < 16 ∧ d < 64 ∧ a < 64 ∧ b < 64 := of_decide_eq_true hw
  obtain ⟨h0, h1, h2, h3⟩ := hb
  obtain ⟨v, hv⟩ : ∃ v, v = p * 0x10000000 + d * 0x10000 + a * 0x400 + b * 0x10 + 0x4400000 := ⟨_, rfl⟩
  rw [show encode (.amoMaxu p d a b) = v from hv.symm]
  refine of_g (op := 17) (by omega) (by unfold fld; omega) ?_
  have e0 : fld v 31 28 = p := by unfold fld; omega
  have e1 : fld v 21 16 = d := by unfold fld; omega
  have e2 : fld v 15 10 = a := by unfold fld; omega
  have e3 : fld v 9 4 = b := by unfold fld; omega
  have e4 : fld v 3 0 = 0 := by unfold fld; omega
  show decForm (fld v 3 0 == 0) (.amoMaxu (fld v 31 28) (fld v 21 16) (fld v 15 10) (fld v 9 4)) = _
  rw [e0, e1, e2, e3, e4]
  exact decForm_ok rfl hw

theorem amoMin (p d a b : Nat) : Statement (.amoMin p d a b) := by
  intro k h hw
  cases h
  have hb : p < 16 ∧ d < 64 ∧ a < 64 ∧ b < 64 := of_decide_eq_true hw
  obtain ⟨h0, h1, h2, h3⟩ := hb
  obtain ⟨v, hv⟩ : ∃ v, v = p * 0x10000000 + d * 0x10000 + a * 0x400 + b * 0x10 + 0x4800000 := ⟨_, rfl⟩
  rw [show encode (.amoMin p d a b) = v from hv.symm]
  refine of_g (op := 18) (by omega) (by unfold fld; omega) ?_
  have e0 : fld v 31 28 = p := by unfold fld; omega
  have e1 : fld v 21 16 = d := by unfold fld; omega
  have e2 : fld v 15 10 = a := by unfold fld; omega
  have e3 : fld v 9 4 = b := by unfold fld; omega
  have e4 : fld v 3 0 = 0 := by unfold fld; omega
  show decForm (fld v 3 0 == 0) (.amoMin (fld v 31 28) (fld v 21 16) (fld v 15 10) (fld v 9 4)) = _
  rw [e0, e1, e2, e3, e4]
  exact decForm_ok rfl hw

theorem amoMinu (p d a b : Nat) : Statement (.amoMinu p d a b) := by
  intro k h hw
  cases h
  have hb : p < 16 ∧ d < 64 ∧ a < 64 ∧ b < 64 := of_decide_eq_true hw
  obtain ⟨h0, h1, h2, h3⟩ := hb
  obtain ⟨v, hv⟩ : ∃ v, v = p * 0x10000000 + d * 0x10000 + a * 0x400 + b * 0x10 + 0x4C00000 := ⟨_, rfl⟩
  rw [show encode (.amoMinu p d a b) = v from hv.symm]
  refine of_g (op := 19) (by omega) (by unfold fld; omega) ?_
  have e0 : fld v 31 28 = p := by unfold fld; omega
  have e1 : fld v 21 16 = d := by unfold fld; omega
  have e2 : fld v 15 10 = a := by unfold fld; omega
  have e3 : fld v 9 4 = b := by unfold fld; omega
  have e4 : fld v 3 0 = 0 := by unfold fld; omega
  show decForm (fld v 3 0 == 0) (.amoMinu (fld v 31 28) (fld v 21 16) (fld v 15 10) (fld v 9 4)) = _
  rw [e0, e1, e2, e3, e4]
  exact decForm_ok rfl hw

theorem amoAnd (p d a b : Nat) : Statement (.amoAnd p d a b) := by
  intro k h hw
  cases h
  have hb : p < 16 ∧ d < 64 ∧ a < 64 ∧ b < 64 := of_decide_eq_true hw
  obtain ⟨h0, h1, h2, h3⟩ := hb
  obtain ⟨v, hv⟩ : ∃ v, v = p * 0x10000000 + d * 0x10000 + a * 0x400 + b * 0x10 + 0x5000000 := ⟨_, rfl⟩
  rw [show encode (.amoAnd p d a b) = v from hv.symm]
  refine of_g (op := 20) (by omega) (by unfold fld; omega) ?_
  have e0 : fld v 31 28 = p := by unfold fld; omega
  have e1 : fld v 21 16 = d := by unfold fld; omega
  have e2 : fld v 15 10 = a := by unfold fld; omega
  have e3 : fld v 9 4 = b := by unfold fld; omega
  have e4 : fld v 3 0 = 0 := by unfold fld; omega
  show decForm (fld v 3 0 == 0) (.amoAnd (fld v 31 28) (fld v 21 16) (fld v 15 10) (fld v 9 4)) = _
  rw [e0, e1, e2, e3, e4]
  exact decForm_ok rfl hw

theorem amoOr (p d a b : Nat) : Statement (.amoOr p d a b) := by
  intro k h hw
  cases h
  have hb : p < 16 ∧ d < 64 ∧ a < 64 ∧ b < 64 := of_decide_eq_true hw
  obtain ⟨h0, h1, h2, h3⟩ := hb
  obtain ⟨v, hv⟩ : ∃ v, v = p * 0x10000000 + d * 0x10000 + a * 0x400 + b * 0x10 + 0x5400000 := ⟨_, rfl⟩
  rw [show encode (.amoOr p d a b) = v from hv.symm]
  refine of_g (op := 21) (by omega) (by unfold fld; omega) ?_
  have e0 : fld v 31 28 = p := by unfold fld; omega
  have e1 : fld v 21 16 = d := by unfold fld; omega
  have e2 : fld v 15 10 = a := by unfold fld; omega
  have e3 : fld v 9 4 = b := by unfold fld; omega
  have e4 : fld v 3 0 = 0 := by unfold fld; omega
  show decForm (fld v 3 0 == 0) (.amoOr (fld v 31 28) (fld v 21 16) (fld v 15 10) (fld v 9 4)) = _
  rw [e0, e1, e2, e3, e4]
  exact decForm_ok rfl hw

theorem amoXor (p d a b : Nat) : Statement (.amoXor p d a b) := by
  intro k h hw
  cases h
  have hb : p < 16 ∧ d < 64 ∧ a < 64 ∧ b < 64 := of_decide_eq_true hw
  obtain ⟨h0, h1, h2, h3⟩ := hb
  obtain ⟨v, hv⟩ : ∃ v, v = p * 0x10000000 + d * 0x10000 + a * 0x400 + b * 0x10 + 0x5800000 := ⟨_, rfl⟩
  rw [show encode (.amoXor p d a b) = v from hv.symm]
  refine of_g (op := 22) (by omega) (by unfold fld; omega) ?_
  have e0 : fld v 31 28 = p := by unfold fld; omega
  have e1 : fld v 21 16 = d := by unfold fld; omega
  have e2 : fld v 15 10 = a := by unfold fld; omega
  have e3 : fld v 9 4 = b := by unfold fld; omega
  have e4 : fld v 3 0 = 0 := by unfold fld; omega
  show decForm (fld v 3 0 == 0) (.amoXor (fld v 31 28) (fld v 21 16) (fld v 15 10) (fld v 9 4)) = _
  rw [e0, e1, e2, e3, e4]
  exact decForm_ok rfl hw

theorem amoSwap (p d a b : Nat) : Statement (.amoSwap p d a b) := by
  intro k h hw
  cases h
  have hb : p < 16 ∧ d < 64 ∧ a < 64 ∧ b < 64 := of_decide_eq_true hw
  obtain ⟨h0, h1, h2, h3⟩ := hb
  obtain ⟨v, hv⟩ : ∃ v, v = p * 0x10000000 + d * 0x10000 + a * 0x400 + b * 0x10 + 0x5C00000 := ⟨_, rfl⟩
  rw [show encode (.amoSwap p d a b) = v from hv.symm]
  refine of_g (op := 23) (by omega) (by unfold fld; omega) ?_
  have e0 : fld v 31 28 = p := by unfold fld; omega
  have e1 : fld v 21 16 = d := by unfold fld; omega
  have e2 : fld v 15 10 = a := by unfold fld; omega
  have e3 : fld v 9 4 = b := by unfold fld; omega
  have e4 : fld v 3 0 = 0 := by unfold fld; omega
  show decForm (fld v 3 0 == 0) (.amoSwap (fld v 31 28) (fld v 21 16) (fld v 15 10) (fld v 9 4)) = _
  rw [e0, e1, e2, e3, e4]
  exact decForm_ok rfl hw

theorem amoCas (p d a b : Nat) : Statement (.amoCas p d a b) := by
  intro k h hw
  cases h
  have hb : p < 16 ∧ d < 64 ∧ a < 64 ∧ b < 64 := of_decide_eq_true hw
  obtain ⟨h0, h1, h2, h3⟩ := hb
  obtain ⟨v, hv⟩ : ∃ v, v = p * 0x10000000 + d * 0x10000 + a * 0x400 + b * 0x10 + 0x6000000 := ⟨_, rfl⟩
  rw [show encode (.amoCas p d a b) = v from hv.symm]
  refine of_g (op := 24) (by omega) (by unfold fld; omega) ?_
  have e0 : fld v 31 28 = p := by unfold fld; omega
  have e1 : fld v 21 16 = d := by unfold fld; omega
  have e2 : fld v 15 10 = a := by unfold fld; omega
  have e3 : fld v 9 4 = b := by unfold fld; omega
  have e4 : fld v 3 0 = 0 := by unfold fld; omega
  show decForm (fld v 3 0 == 0) (.amoCas (fld v 31 28) (fld v 21 16) (fld v 15 10) (fld v 9 4)) = _
  rw [e0, e1, e2, e3, e4]
  exact decForm_ok rfl hw

theorem amoScAdd (p d a b : Nat) : Statement (.amoScAdd p d a b) := by
  intro k h hw
  cases h
  have hb : p < 16 ∧ d < 64 ∧ a < 64 ∧ b < 64 := of_decide_eq_true hw
  obtain ⟨h0, h1, h2, h3⟩ := hb
  obtain ⟨v, hv⟩ : ∃ v, v = p * 0x10000000 + d * 0x10000 + a * 0x400 + b * 0x10 + 0x6400000 := ⟨_, rfl⟩
  rw [show encode (.amoScAdd p d a b) = v from hv.symm]
  refine of_g (op := 25) (by omega) (by unfold fld; omega) ?_
  have e0 : fld v 31 28 = p := by unfold fld; omega
  have e1 : fld v 21 16 = d := by unfold fld; omega
  have e2 : fld v 15 10 = a := by unfold fld; omega
  have e3 : fld v 9 4 = b := by unfold fld; omega
  have e4 : fld v 3 0 = 0 := by unfold fld; omega
  show (if fld v 3 0 == 0 then decForm (true) (.amoScAdd (fld v 31 28) (fld v 21 16) (fld v 15 10) (fld v 9 4)) else if fld v 3 0 == 1 then decForm (true) (.amoScSwap (fld v 31 28) (fld v 21 16) (fld v 15 10) (fld v 9 4)) else if fld v 3 0 == 2 then decForm (true) (.amoScCas (fld v 31 28) (fld v 21 16) (fld v 15 10) (fld v 9 4)) else if fld v 3 0 == 3 then decForm (true) (.amoScMax (fld v 31 28) (fld v 21 16) (fld v 15 10) (fld v 9 4)) else if fld v 3 0 == 4 then decForm (true) (.amoScMin (fld v 31 28) (fld v 21 16) (fld v 15 10) (fld v 9 4)) else .err .reservedOpcode) = _
  rw [e0, e1, e2, e3, e4]
  exact decForm_ok rfl hw

theorem amoScSwap (p d a b : Nat) : Statement (.amoScSwap p d a b) := by
  intro k h hw
  cases h
  have hb : p < 16 ∧ d < 64 ∧ a < 64 ∧ b < 64 := of_decide_eq_true hw
  obtain ⟨h0, h1, h2, h3⟩ := hb
  obtain ⟨v, hv⟩ : ∃ v, v = p * 0x10000000 + d * 0x10000 + a * 0x400 + b * 0x10 + 0x6400001 := ⟨_, rfl⟩
  rw [show encode (.amoScSwap p d a b) = v from hv.symm]
  refine of_g (op := 25) (by omega) (by unfold fld; omega) ?_
  have e0 : fld v 31 28 = p := by unfold fld; omega
  have e1 : fld v 21 16 = d := by unfold fld; omega
  have e2 : fld v 15 10 = a := by unfold fld; omega
  have e3 : fld v 9 4 = b := by unfold fld; omega
  have e4 : fld v 3 0 = 1 := by unfold fld; omega
  show (if fld v 3 0 == 0 then decForm (true) (.amoScAdd (fld v 31 28) (fld v 21 16) (fld v 15 10) (fld v 9 4)) else if fld v 3 0 == 1 then decForm (true) (.amoScSwap (fld v 31 28) (fld v 21 16) (fld v 15 10) (fld v 9 4)) else if fld v 3 0 == 2 then decForm (true) (.amoScCas (fld v 31 28) (fld v 21 16) (fld v 15 10) (fld v 9 4)) else if fld v 3 0 == 3 then decForm (true) (.amoScMax (fld v 31 28) (fld v 21 16) (fld v 15 10) (fld v 9 4)) else if fld v 3 0 == 4 then decForm (true) (.amoScMin (fld v 31 28) (fld v 21 16) (fld v 15 10) (fld v 9 4)) else .err .reservedOpcode) = _
  rw [e0, e1, e2, e3, e4]
  exact decForm_ok rfl hw

theorem amoScCas (p d a b : Nat) : Statement (.amoScCas p d a b) := by
  intro k h hw
  cases h
  have hb : p < 16 ∧ d < 64 ∧ a < 64 ∧ b < 64 := of_decide_eq_true hw
  obtain ⟨h0, h1, h2, h3⟩ := hb
  obtain ⟨v, hv⟩ : ∃ v, v = p * 0x10000000 + d * 0x10000 + a * 0x400 + b * 0x10 + 0x6400002 := ⟨_, rfl⟩
  rw [show encode (.amoScCas p d a b) = v from hv.symm]
  refine of_g (op := 25) (by omega) (by unfold fld; omega) ?_
  have e0 : fld v 31 28 = p := by unfold fld; omega
  have e1 : fld v 21 16 = d := by unfold fld; omega
  have e2 : fld v 15 10 = a := by unfold fld; omega
  have e3 : fld v 9 4 = b := by unfold fld; omega
  have e4 : fld v 3 0 = 2 := by unfold fld; omega
  show (if fld v 3 0 == 0 then decForm (true) (.amoScAdd (fld v 31 28) (fld v 21 16) (fld v 15 10) (fld v 9 4)) else if fld v 3 0 == 1 then decForm (true) (.amoScSwap (fld v 31 28) (fld v 21 16) (fld v 15 10) (fld v 9 4)) else if fld v 3 0 == 2 then decForm (true) (.amoScCas (fld v 31 28) (fld v 21 16) (fld v 15 10) (fld v 9 4)) else if fld v 3 0 == 3 then decForm (true) (.amoScMax (fld v 31 28) (fld v 21 16) (fld v 15 10) (fld v 9 4)) else if fld v 3 0 == 4 then decForm (true) (.amoScMin (fld v 31 28) (fld v 21 16) (fld v 15 10) (fld v 9 4)) else .err .reservedOpcode) = _
  rw [e0, e1, e2, e3, e4]
  exact decForm_ok rfl hw

theorem amoScMax (p d a b : Nat) : Statement (.amoScMax p d a b) := by
  intro k h hw
  cases h
  have hb : p < 16 ∧ d < 64 ∧ a < 64 ∧ b < 64 := of_decide_eq_true hw
  obtain ⟨h0, h1, h2, h3⟩ := hb
  obtain ⟨v, hv⟩ : ∃ v, v = p * 0x10000000 + d * 0x10000 + a * 0x400 + b * 0x10 + 0x6400003 := ⟨_, rfl⟩
  rw [show encode (.amoScMax p d a b) = v from hv.symm]
  refine of_g (op := 25) (by omega) (by unfold fld; omega) ?_
  have e0 : fld v 31 28 = p := by unfold fld; omega
  have e1 : fld v 21 16 = d := by unfold fld; omega
  have e2 : fld v 15 10 = a := by unfold fld; omega
  have e3 : fld v 9 4 = b := by unfold fld; omega
  have e4 : fld v 3 0 = 3 := by unfold fld; omega
  show (if fld v 3 0 == 0 then decForm (true) (.amoScAdd (fld v 31 28) (fld v 21 16) (fld v 15 10) (fld v 9 4)) else if fld v 3 0 == 1 then decForm (true) (.amoScSwap (fld v 31 28) (fld v 21 16) (fld v 15 10) (fld v 9 4)) else if fld v 3 0 == 2 then decForm (true) (.amoScCas (fld v 31 28) (fld v 21 16) (fld v 15 10) (fld v 9 4)) else if fld v 3 0 == 3 then decForm (true) (.amoScMax (fld v 31 28) (fld v 21 16) (fld v 15 10) (fld v 9 4)) else if fld v 3 0 == 4 then decForm (true) (.amoScMin (fld v 31 28) (fld v 21 16) (fld v 15 10) (fld v 9 4)) else .err .reservedOpcode) = _
  rw [e0, e1, e2, e3, e4]
  exact decForm_ok rfl hw

theorem amoScMin (p d a b : Nat) : Statement (.amoScMin p d a b) := by
  intro k h hw
  cases h
  have hb : p < 16 ∧ d < 64 ∧ a < 64 ∧ b < 64 := of_decide_eq_true hw
  obtain ⟨h0, h1, h2, h3⟩ := hb
  obtain ⟨v, hv⟩ : ∃ v, v = p * 0x10000000 + d * 0x10000 + a * 0x400 + b * 0x10 + 0x6400004 := ⟨_, rfl⟩
  rw [show encode (.amoScMin p d a b) = v from hv.symm]
  refine of_g (op := 25) (by omega) (by unfold fld; omega) ?_
  have e0 : fld v 31 28 = p := by unfold fld; omega
  have e1 : fld v 21 16 = d := by unfold fld; omega
  have e2 : fld v 15 10 = a := by unfold fld; omega
  have e3 : fld v 9 4 = b := by unfold fld; omega
  have e4 : fld v 3 0 = 4 := by unfold fld; omega
  show (if fld v 3 0 == 0 then decForm (true) (.amoScAdd (fld v 31 28) (fld v 21 16) (fld v 15 10) (fld v 9 4)) else if fld v 3 0 == 1 then decForm (true) (.amoScSwap (fld v 31 28) (fld v 21 16) (fld v 15 10) (fld v 9 4)) else if fld v 3 0 == 2 then decForm (true) (.amoScCas (fld v 31 28) (fld v 21 16) (fld v 15 10) (fld v 9 4)) else if fld v 3 0 == 3 then decForm (true) (.amoScMax (fld v 31 28) (fld v 21 16) (fld v 15 10) (fld v 9 4)) else if fld v 3 0 == 4 then decForm (true) (.amoScMin (fld v 31 28) (fld v 21 16) (fld v 15 10) (fld v 9 4)) else .err .reservedOpcode) = _
  rw [e0, e1, e2, e3, e4]
  exact decForm_ok rfl hw

theorem amoScPerform (c : Nat) (i : Nat) : Statement (.amoScPerform c i) := fun _ h _ => nomatch h

theorem fenceCore (p : Nat) : Statement (.fenceCore p) := by
  intro k h hw
  cases h
  have hb : p < 16 := of_decide_eq_true hw
  obtain ⟨v, hv⟩ : ∃ v, v = p * 0x10000000 + 0x6800000 := ⟨_, rfl⟩
  rw [show encode (.fenceCore p) = v from hv.symm]
  refine of_g (op := 26) (by omega) (by unfold fld; omega) ?_
  have e0 : fld v 31 28 = p := by unfold fld; omega
  have e1 : fld v 21 0 = 0 := by unfold fld; omega
  show (if fld v 21 0 == 0 then decForm (true) (.fenceCore (fld v 31 28)) else if fld v 21 0 == 1 then decForm (true) (.fenceQuad (fld v 31 28)) else if fld v 21 0 == 2 then decForm (true) (.fenceDie (fld v 31 28)) else if fld v 21 0 == 3 then decForm (true) (.fencePackage (fld v 31 28)) else if fld v 21 0 == 4 then decForm (true) (.fenceFabric (fld v 31 28)) else .err .reservedOpcode) = _
  rw [e0, e1]
  exact decForm_ok rfl hw

theorem fenceQuad (p : Nat) : Statement (.fenceQuad p) := by
  intro k h hw
  cases h
  have hb : p < 16 := of_decide_eq_true hw
  obtain ⟨v, hv⟩ : ∃ v, v = p * 0x10000000 + 0x6800001 := ⟨_, rfl⟩
  rw [show encode (.fenceQuad p) = v from hv.symm]
  refine of_g (op := 26) (by omega) (by unfold fld; omega) ?_
  have e0 : fld v 31 28 = p := by unfold fld; omega
  have e1 : fld v 21 0 = 1 := by unfold fld; omega
  show (if fld v 21 0 == 0 then decForm (true) (.fenceCore (fld v 31 28)) else if fld v 21 0 == 1 then decForm (true) (.fenceQuad (fld v 31 28)) else if fld v 21 0 == 2 then decForm (true) (.fenceDie (fld v 31 28)) else if fld v 21 0 == 3 then decForm (true) (.fencePackage (fld v 31 28)) else if fld v 21 0 == 4 then decForm (true) (.fenceFabric (fld v 31 28)) else .err .reservedOpcode) = _
  rw [e0, e1]
  exact decForm_ok rfl hw

theorem fenceDie (p : Nat) : Statement (.fenceDie p) := by
  intro k h hw
  cases h
  have hb : p < 16 := of_decide_eq_true hw
  obtain ⟨v, hv⟩ : ∃ v, v = p * 0x10000000 + 0x6800002 := ⟨_, rfl⟩
  rw [show encode (.fenceDie p) = v from hv.symm]
  refine of_g (op := 26) (by omega) (by unfold fld; omega) ?_
  have e0 : fld v 31 28 = p := by unfold fld; omega
  have e1 : fld v 21 0 = 2 := by unfold fld; omega
  show (if fld v 21 0 == 0 then decForm (true) (.fenceCore (fld v 31 28)) else if fld v 21 0 == 1 then decForm (true) (.fenceQuad (fld v 31 28)) else if fld v 21 0 == 2 then decForm (true) (.fenceDie (fld v 31 28)) else if fld v 21 0 == 3 then decForm (true) (.fencePackage (fld v 31 28)) else if fld v 21 0 == 4 then decForm (true) (.fenceFabric (fld v 31 28)) else .err .reservedOpcode) = _
  rw [e0, e1]
  exact decForm_ok rfl hw

theorem fencePackage (p : Nat) : Statement (.fencePackage p) := by
  intro k h hw
  cases h
  have hb : p < 16 := of_decide_eq_true hw
  obtain ⟨v, hv⟩ : ∃ v, v = p * 0x10000000 + 0x6800003 := ⟨_, rfl⟩
  rw [show encode (.fencePackage p) = v from hv.symm]
  refine of_g (op := 26) (by omega) (by unfold fld; omega) ?_
  have e0 : fld v 31 28 = p := by unfold fld; omega
  have e1 : fld v 21 0 = 3 := by unfold fld; omega
  show (if fld v 21 0 == 0 then decForm (true) (.fenceCore (fld v 31 28)) else if fld v 21 0 == 1 then decForm (true) (.fenceQuad (fld v 31 28)) else if fld v 21 0 == 2 then decForm (true) (.fenceDie (fld v 31 28)) else if fld v 21 0 == 3 then decForm (true) (.fencePackage (fld v 31 28)) else if fld v 21 0 == 4 then decForm (true) (.fenceFabric (fld v 31 28)) else .err .reservedOpcode) = _
  rw [e0, e1]
  exact decForm_ok rfl hw

theorem fenceFabric (p : Nat) : Statement (.fenceFabric p) := by
  intro k h hw
  cases h
  have hb : p < 16 := of_decide_eq_true hw
  obtain ⟨v, hv⟩ : ∃ v, v = p * 0x10000000 + 0x6800004 := ⟨_, rfl⟩
  rw [show encode (.fenceFabric p) = v from hv.symm]
  refine of_g (op := 26) (by omega) (by unfold fld; omega) ?_
  have e0 : fld v 31 28 = p := by unfold fld; omega
  have e1 : fld v 21 0 = 4 := by unfold fld; omega
  show (if fld v 21 0 == 0 then decForm (true) (.fenceCore (fld v 31 28)) else if fld v 21 0 == 1 then decForm (true) (.fenceQuad (fld v 31 28)) else if fld v 21 0 == 2 then decForm (true) (.fenceDie (fld v 31 28)) else if fld v 21 0 == 3 then decForm (true) (.fencePackage (fld v 31 28)) else if fld v 21 0 == 4 then decForm (true) (.fenceFabric (fld v 31 28)) else .err .reservedOpcode) = _
  rw [e0, e1]
  exact decForm_ok rfl hw

theorem pf (p a : Nat) : Statement (.pf p a) := by
  intro k h hw
  cases h
  have hb : p < 16 ∧ a < 64 := of_decide_eq_true hw
  obtain ⟨h0, h1⟩ := hb
  obtain ⟨v, hv⟩ : ∃ v, v = p * 0x10000000 + a * 0x400 + 0x6C00000 := ⟨_, rfl⟩
  rw [show encode (.pf p a) = v from hv.symm]
  refine of_g (op := 27) (by omega) (by unfold fld; omega) ?_
  have e0 : fld v 31 28 = p := by unfold fld; omega
  have e1 : fld v 15 10 = a := by unfold fld; omega
  have e2 : fld v 9 0 = 0 := by unfold fld; omega
  have e3 : fld v 21 16 = 0 := by unfold fld; omega
  show decForm (fld v 9 0 == 0 && fld v 21 16 == 0) (.pf (fld v 31 28) (fld v 15 10)) = _
  rw [e0, e1, e2, e3]
  exact decForm_ok rfl hw

theorem wprobe (p d a : Nat) : Statement (.wprobe p d a) := by
  intro k h hw
  cases h
  have hb : p < 16 ∧ d < 64 ∧ a < 64 := of_decide_eq_true hw
  obtain ⟨h0, h1, h2⟩ := hb
  obtain ⟨v, hv⟩ : ∃ v, v = p * 0x10000000 + d * 0x10000 + a * 0x400 + 0x7000000 := ⟨_, rfl⟩
  rw [show encode (.wprobe p d a) = v from hv.symm]
  refine of_g (op := 28) (by omega) (by unfold fld; omega) ?_
  have e0 : fld v 31 28 = p := by unfold fld; omega
  have e1 : fld v 21 16 = d := by unfold fld; omega
  have e2 : fld v 15 10 = a := by unfold fld; omega
  have e3 : fld v 9 0 = 0 := by unfold fld; omega
  show decForm (fld v 9 0 == 0) (.wprobe (fld v 31 28) (fld v 21 16) (fld v 15 10)) = _
  rw [e0, e1, e2, e3]
  exact decForm_ok rfl hw

theorem gLoadReturn (c : Nat) (i : Nat) : Statement (.gLoadReturn c i) := fun _ h _ => nomatch h

theorem xNop (p : Nat) : Statement (.xNop p) := by
  intro k h hw
  cases h
  have hb : p < 16 := of_decide_eq_true hw
  obtain ⟨v, hv⟩ : ∃ v, v = p * 0x10000000 + 0x0 := ⟨_, rfl⟩
  rw [show encode (.xNop p) = v from hv.symm]
  refine of_x (op := 0) (by omega) (by unfold fld; omega) ?_
  have e0 : fld v 31 28 = p := by unfold fld; omega
  have e1 : fld v 22 0 = 0 := by unfold fld; omega
  show decForm (fld v 22 0 == 0) (.xNop (fld v 31 28)) = _
  rw [e0, e1]
  exact decForm_ok rfl hw

theorem mwld (p l s m : Nat) : Statement (.mwld p l s m) := by
  intro k h hw
  cases h
  have hb : p < 16 ∧ l < 16 ∧ s < 16 ∧ m < 16 := of_decide_eq_true hw
  obtain ⟨h0, h1, h2, h3⟩ := hb
  obtain ⟨v, hv⟩ : ∃ v, v = p * 0x10000000 + l * 0x80000 + s * 0x8000 + m * 0x800 + 0x800000 := ⟨_, rfl⟩
  rw [show encode (.mwld p l s m) = v from hv.symm]
  refine of_x (op := 1) (by omega) (by unfold fld; omega) ?_
  have e0 : fld v 31 28 = p := by unfold fld; omega
  have e1 : fld v 22 19 = l := by unfold fld; omega
  have e2 : fld v 18 15 = s := by unfold fld; omega
  have e3 : fld v 14 11 = m := by unfold fld; omega
  have e4 : fld v 10 0 = 0 := by unfold fld; omega
  show decForm (fld v 10 0 == 0) (.mwld (fld v 31 28) (fld v 22 19) (fld v 18 15) (fld v 14 11)) = _
  rw [e0, e1, e2, e3, e4]
  exact decForm_ok rfl hw

theorem mtrans (p l s m : Nat) : Statement (.mtrans p l s m) := by
  intro k h hw
  cases h
  have hb : p < 16 ∧ l < 16 ∧ s < 16 ∧ m < 16 := of_decide_eq_true hw
  obtain ⟨h0, h1, h2, h3⟩ := hb
  obtain ⟨v, hv⟩ : ∃ v, v = p * 0x10000000 + l * 0x80000 + s * 0x8000 + m * 0x800 + 0x1000000 := ⟨_, rfl⟩
  rw [show encode (.mtrans p l s m) = v from hv.symm]
  refine of_x (op := 2) (by omega) (by unfold fld; omega) ?_
  have e0 : fld v 31 28 = p := by unfold fld; omega
  have e1 : fld v 22 19 = l := by unfold fld; omega
  have e2 : fld v 18 15 = s := by unfold fld; omega
  have e3 : fld v 14 11 = m := by unfold fld; omega
  have e4 : fld v 10 0 = 0 := by unfold fld; omega
  show decForm (fld v 10 0 == 0) (.mtrans (fld v 31 28) (fld v 22 19) (fld v 18 15) (fld v 14 11)) = _
  rw [e0, e1, e2, e3, e4]
  exact decForm_ok rfl hw

theorem mma (p l t s m : Nat) : Statement (.mma p l t s m) := by
  intro k h hw
  cases h
  have hb : p < 16 ∧ l < 16 ∧ s < 16 ∧ m < 16 ∧ t < 5 := of_decide_eq_true hw
  obtain ⟨h0, h1, h2, h3, h4⟩ := hb
  obtain ⟨v, hv⟩ : ∃ v, v = p * 0x10000000 + l * 0x80000 + t * 0x10000 + s * 0x1000 + m * 0x100 + 0x1800000 := ⟨_, rfl⟩
  rw [show encode (.mma p l t s m) = v from hv.symm]
  refine of_x (op := 3) (by omega) (by unfold fld; omega) ?_
  have e0 : fld v 31 28 = p := by unfold fld; omega
  have e1 : fld v 22 19 = l := by unfold fld; omega
  have e2 : fld v 18 16 = t := by unfold fld; omega
  have e3 : fld v 15 12 = s := by unfold fld; omega
  have e4 : fld v 11 8 = m := by unfold fld; omega
  have e5 : fld v 7 0 = 0 := by unfold fld; omega
  show decForm (fld v 7 0 == 0) (.mma (fld v 31 28) (fld v 22 19) (fld v 18 16) (fld v 15 12) (fld v 11 8)) = _
  rw [e0, e1, e2, e3, e4, e5]
  exact decForm_ok rfl hw

theorem mmaAcc (p l t s m : Nat) : Statement (.mmaAcc p l t s m) := by
  intro k h hw
  cases h
  have hb : p < 16 ∧ l < 16 ∧ s < 16 ∧ m < 16 ∧ t < 5 := of_decide_eq_true hw
  obtain ⟨h0, h1, h2, h3, h4⟩ := hb
  obtain ⟨v, hv⟩ : ∃ v, v = p * 0x10000000 + l * 0x80000 + t * 0x10000 + s * 0x1000 + m * 0x100 + 0x2000000 := ⟨_, rfl⟩
  rw [show encode (.mmaAcc p l t s m) = v from hv.symm]
  refine of_x (op := 4) (by omega) (by unfold fld; omega) ?_
  have e0 : fld v 31 28 = p := by unfold fld; omega
  have e1 : fld v 22 19 = l := by unfold fld; omega
  have e2 : fld v 18 16 = t := by unfold fld; omega
  have e3 : fld v 15 12 = s := by unfold fld; omega
  have e4 : fld v 11 8 = m := by unfold fld; omega
  have e5 : fld v 7 0 = 0 := by unfold fld; omega
  show decForm (fld v 7 0 == 0) (.mmaAcc (fld v 31 28) (fld v 22 19) (fld v 18 16) (fld v 15 12) (fld v 11 8)) = _
  rw [e0, e1, e2, e3, e4, e5]
  exact decForm_ok rfl hw

theorem mmaTri (p l t s m : Nat) : Statement (.mmaTri p l t s m) := by
  intro k h hw
  cases h
  have hb : p < 16 ∧ l < 16 ∧ s < 16 ∧ m < 16 ∧ t < 5 := of_decide_eq_true hw
  obtain ⟨h0, h1, h2, h3, h4⟩ := hb
  obtain ⟨v, hv⟩ : ∃ v, v = p * 0x10000000 + l * 0x80000 + t * 0x10000 + s * 0x1000 + m * 0x100 + 0x2800000 := ⟨_, rfl⟩
  rw [show encode (.mmaTri p l t s m) = v from hv.symm]
  refine of_x (op := 5) (by omega) (by unfold fld; omega) ?_
  have e0 : fld v 31 28 = p := by unfold fld; omega
  have e1 : fld v 22 19 = l := by unfold fld; omega
  have e2 : fld v 18 16 = t := by unfold fld; omega
  have e3 : fld v 15 12 = s := by unfold fld; omega
  have e4 : fld v 11 8 = m := by unfold fld; omega
  have e5 : fld v 7 0 = 0 := by unfold fld; omega
  show decForm (fld v 7 0 == 0) (.mmaTri (fld v 31 28) (fld v 22 19) (fld v 18 16) (fld v 15 12) (fld v 11 8)) = _
  rw [e0, e1, e2, e3, e4, e5]
  exact decForm_ok rfl hw

theorem mmaTriAcc (p l t s m : Nat) : Statement (.mmaTriAcc p l t s m) := by
  intro k h hw
  cases h
  have hb : p < 16 ∧ l < 16 ∧ s < 16 ∧ m < 16 ∧ t < 5 := of_decide_eq_true hw
  obtain ⟨h0, h1, h2, h3, h4⟩ := hb
  obtain ⟨v, hv⟩ : ∃ v, v = p * 0x10000000 + l * 0x80000 + t * 0x10000 + s * 0x1000 + m * 0x100 + 0x3000000 := ⟨_, rfl⟩
  rw [show encode (.mmaTriAcc p l t s m) = v from hv.symm]
  refine of_x (op := 6) (by omega) (by unfold fld; omega) ?_
  have e0 : fld v 31 28 = p := by unfold fld; omega
  have e1 : fld v 22 19 = l := by unfold fld; omega
  have e2 : fld v 18 16 = t := by unfold fld; omega
  have e3 : fld v 15 12 = s := by unfold fld; omega
  have e4 : fld v 11 8 = m := by unfold fld; omega
  have e5 : fld v 7 0 = 0 := by unfold fld; omega
  show decForm (fld v 7 0 == 0) (.mmaTriAcc (fld v 31 28) (fld v 22 19) (fld v 18 16) (fld v 15 12) (fld v 11 8)) = _
  rw [e0, e1, e2, e3, e4, e5]
  exact decForm_ok rfl hw

theorem mmaP (p l s m : Nat) : Statement (.mmaP p l s m) := by
  intro k h hw
  cases h
  have hb : p < 16 ∧ l < 16 ∧ s < 16 ∧ m < 16 := of_decide_eq_true hw
  obtain ⟨h0, h1, h2, h3⟩ := hb
  obtain ⟨v, hv⟩ : ∃ v, v = p * 0x10000000 + l * 0x80000 + s * 0x1000 + m * 0x100 + 0x3800000 := ⟨_, rfl⟩
  rw [show encode (.mmaP p l s m) = v from hv.symm]
  refine of_x (op := 7) (by omega) (by unfold fld; omega) ?_
  have e0 : fld v 31 28 = p := by unfold fld; omega
  have e1 : fld v 22 19 = l := by unfold fld; omega
  have e2 : fld v 15 12 = s := by unfold fld; omega
  have e3 : fld v 11 8 = m := by unfold fld; omega
  have e4 : fld v 7 0 = 0 := by unfold fld; omega
  have e5 : fld v 18 16 = 0 := by unfold fld; omega
  show decForm (fld v 7 0 == 0 && fld v 18 16 == 0) (.mmaP (fld v 31 28) (fld v 22 19) (fld v 15 12) (fld v 11 8)) = _
  rw [e0, e1, e2, e3, e4, e5]
  exact decForm_ok rfl hw

theorem mzero (p l t : Nat) : Statement (.mzero p l t) := by
  intro k h hw
  cases h
  have hb : p < 16 ∧ l < 16 ∧ t < 5 := of_decide_eq_true hw
  obtain ⟨h0, h1, h2⟩ := hb
  obtain ⟨v, hv⟩ : ∃ v, v = p * 0x10000000 + l * 0x80000 + t * 0x10000 + 0x4000000 := ⟨_, rfl⟩
  rw [show encode (.mzero p l t) = v from hv.symm]
  refine of_x (op := 8) (by omega) (by unfold fld; omega) ?_
  have e0 : fld v 31 28 = p := by unfold fld; omega
  have e1 : fld v 22 19 = l := by unfold fld; omega
  have e2 : fld v 18 16 = t := by unfold fld; omega
  have e3 : fld v 15 0 = 0 := by unfold fld; omega
  show decForm (fld v 15 0 == 0) (.mzero (fld v 31 28) (fld v 22 19) (fld v 18 16)) = _
  rw [e0, e1, e2, e3]
  exact decForm_ok rfl hw

theorem mdrain (p l t m : Nat) : Statement (.mdrain p l t m) := by
  intro k h hw
  cases h
  have hb : p < 16 ∧ l < 16 ∧ m < 16 ∧ t < 5 := of_decide_eq_true hw
  obtain ⟨h0, h1, h2, h3⟩ := hb
  obtain ⟨v, hv⟩ : ∃ v, v = p * 0x10000000 + l * 0x80000 + t * 0x10000 + m * 0x100 + 0x4800000 := ⟨_, rfl⟩
  rw [show encode (.mdrain p l t m) = v from hv.symm]
  refine of_x (op := 9) (by omega) (by unfold fld; omega) ?_
  have e0 : fld v 31 28 = p := by unfold fld; omega
  have e1 : fld v 22 19 = l := by unfold fld; omega
  have e2 : fld v 18 16 = t := by unfold fld; omega
  have e3 : fld v 11 8 = m := by unfold fld; omega
  have e4 : fld v 7 0 = 0 := by unfold fld; omega
  have e5 : fld v 15 12 = 0 := by unfold fld; omega
  show decForm (fld v 7 0 == 0 && fld v 15 12 == 0) (.mdrain (fld v 31 28) (fld v 22 19) (fld v 18 16) (fld v 11 8)) = _
  rw [e0, e1, e2, e3, e4, e5]
  exact decForm_ok rfl hw

theorem mdrainSp (p l m : Nat) : Statement (.mdrainSp p l m) := by
  intro k h hw
  cases h
  have hb : p < 16 ∧ l < 16 ∧ m < 16 := of_decide_eq_true hw
  obtain ⟨h0, h1, h2⟩ := hb
  obtain ⟨v, hv⟩ : ∃ v, v = p * 0x10000000 + l * 0x80000 + m * 0x100 + 0x5000000 := ⟨_, rfl⟩
  rw [show encode (.mdrainSp p l m) = v from hv.symm]
  refine of_x (op := 10) (by omega) (by unfold fld; omega) ?_
  have e0 : fld v 31 28 = p := by unfold fld; omega
  have e1 : fld v 22 19 = l := by unfold fld; omega
  have e2 : fld v 11 8 = m := by unfold fld; omega
  have e3 : fld v 7 0 = 0 := by unfold fld; omega
  have e4 : fld v 18 12 = 0 := by unfold fld; omega
  show decForm (fld v 7 0 == 0 && fld v 18 12 == 0) (.mdrainSp (fld v 31 28) (fld v 22 19) (fld v 11 8)) = _
  rw [e0, e1, e2, e3, e4]
  exact decForm_ok rfl hw

theorem mdrainFab (p l m : Nat) : Statement (.mdrainFab p l m) := by
  intro k h hw
  cases h
  have hb : p < 16 ∧ l < 16 ∧ m < 16 := of_decide_eq_true hw
  obtain ⟨h0, h1, h2⟩ := hb
  obtain ⟨v, hv⟩ : ∃ v, v = p * 0x10000000 + l * 0x80000 + m * 0x100 + 0x5800000 := ⟨_, rfl⟩
  rw [show encode (.mdrainFab p l m) = v from hv.symm]
  refine of_x (op := 11) (by omega) (by unfold fld; omega) ?_
  have e0 : fld v 31 28 = p := by unfold fld; omega
  have e1 : fld v 22 19 = l := by unfold fld; omega
  have e2 : fld v 11 8 = m := by unfold fld; omega
  have e3 : fld v 7 0 = 0 := by unfold fld; omega
  have e4 : fld v 18 12 = 0 := by unfold fld; omega
  show decForm (fld v 7 0 == 0 && fld v 18 12 == 0) (.mdrainFab (fld v 31 28) (fld v 22 19) (fld v 11 8)) = _
  rw [e0, e1, e2, e3, e4]
  exact decForm_ok rfl hw

theorem xOpLaunch (c : Nat) : Statement (.xOpLaunch c) := fun _ h _ => nomatch h

theorem xOpFinish (c : Nat) : Statement (.xOpFinish c) := fun _ h _ => nomatch h

theorem drainRowPlaced (c : Nat) (i : Nat) : Statement (.drainRowPlaced c i) := fun _ h _ => nomatch h

theorem vNop (p : Nat) : Statement (.vNop p) := by
  intro k h hw
  cases h
  have hb : p < 16 := of_decide_eq_true hw
  obtain ⟨v, hv⟩ : ∃ v, v = p * 0x100000000000 + 0x0 := ⟨_, rfl⟩
  rw [show encode (.vNop p) = v from hv.symm]
  refine of_v (op := 0) (by omega) (by unfold fld; omega) ?_
  have e0 : fld v 47 44 = p := by unfold fld; omega
  have e1 : fld v 36 0 = 0 := by unfold fld; omega
  show decForm (fld v 36 0 == 0) (.vNop (fld v 47 44)) = _
  rw [e0, e1]
  exact decForm_ok rfl hw

theorem vaddF (p w t d a b : Nat) : Statement (.vaddF p w t d a b) := by
  intro k h hw
  cases h
  have hb : p < 16 ∧ w < 2 ∧ t < 2 ∧ vopOk d = true ∧ vopOk a = true ∧ vopOk b = true ∧ (w = 1 ∨ t = 0) := of_decide_eq_true hw
  obtain ⟨h0, h1, h2, h3, h4, h5, h6⟩ := hb
  have gh3 := vopOk_lt h3
  have gh4 := vopOk_lt h4
  have gh5 := vopOk_lt h5
  obtain ⟨v, hv⟩ : ∃ v, v = p * 0x100000000000 + w * 0x2000000000 + t + d * 0x2000000 + a * 0x2000 + b * 0x2 + 0x4000000000 := ⟨_, rfl⟩
  rw [show encode (.vaddF p w t d a b) = v from hv.symm]
  have hc : w = 0 ∨ w = 1 := by omega
  rcases hc with hc | hc
  · refine of_v (op := 2) (by omega) (by unfold fld; omega) ?_
    have e0 : fld v 47 44 = p := by unfold fld; omega
    have e1 : fld v 37 37 = w := by unfold fld; omega
    have e2 : fld v 0 0 = t := by unfold fld; omega
    have e3 : fld v 36 25 = d := by unfold fld; omega
    have e4 : fld v 24 13 = a := by unfold fld; omega
    have e5 : fld v 12 1 = b := by unfold fld; omega
    show decForm (true) (.vaddF (fld v 47 44) (fld v 37 37) (fld v 0 0) (fld v 36 25) (fld v 24 13) (fld v 12 1)) = _
    rw [e0, e1, e2, e3, e4, e5]
    exact decForm_ok rfl hw
  · refine of_v (op := 3) (by omega) (by unfold fld; omega) ?_
    have e0 : fld v 47 44 = p := by unfold fld; omega
    have e1 : fld v 37 37 = w := by unfold fld; omega
    have e2 : fld v 0 0 = t := by unfold fld; omega
    have e3 : fld v 36 25 = d := by unfold fld; omega
    have e4 : fld v 24 13 = a := by unfold fld; omega
    have e5 : fld v 12 1 = b := by unfold fld; omega
    show decForm (true) (.vaddF (fld v 47 44) (fld v 37 37) (fld v 0 0) (fld v 36 25) (fld v 24 13) (fld v 12 1)) = _
    rw [e0, e1, e2, e3, e4, e5]
    exact decForm_ok rfl hw

theorem vsubF (p w t d a b : Nat) : Statement (.vsubF p w t d a b) := by
  intro k h hw
  cases h
  have hb : p < 16 ∧ w < 2 ∧ t < 2 ∧ vopOk d = true ∧ vopOk a = true ∧ vopOk b = true ∧ (w = 1 ∨ t = 0) := of_decide_eq_true hw
  obtain ⟨h0, h1, h2, h3, h4, h5, h6⟩ := hb
  have gh3 := vopOk_lt h3
  have gh4 := vopOk_lt h4
  have gh5 := vopOk_lt h5
  obtain ⟨v, hv⟩ : ∃ v, v = p * 0x100000000000 + w * 0x2000000000 + t + d * 0x2000000 + a * 0x2000 + b * 0x2 + 0x8000000000 := ⟨_, rfl⟩
  rw [show encode (.vsubF p w t d a b) = v from hv.symm]
  have hc : w = 0 ∨ w = 1 := by omega
  rcases hc with hc | hc
  · refine of_v (op := 4) (by omega) (by unfold fld; omega) ?_
    have e0 : fld v 47 44 = p := by unfold fld; omega
    have e1 : fld v 37 37 = w := by unfold fld; omega
    have e2 : fld v 0 0 = t := by unfold fld; omega
    have e3 : fld v 36 25 = d := by unfold fld; omega
    have e4 : fld v 24 13 = a := by unfold fld; omega
    have e5 : fld v 12 1 = b := by unfold fld; omega
    show decForm (true) (.vsubF (fld v 47 44) (fld v 37 37) (fld v 0 0) (fld v 36 25) (fld v 24 13) (fld v 12 1)) = _
    rw [e0, e1, e2, e3, e4, e5]
    exact decForm_ok rfl hw
  · refine of_v (op := 5) (by omega) (by unfold fld; omega) ?_
    have e0 : fld v 47 44 = p := by unfold fld; omega
    have e1 : fld v 37 37 = w := by unfold fld; omega
    have e2 : fld v 0 0 = t := by unfold fld; omega
    have e3 : fld v 36 25 = d := by unfold fld; omega
    have e4 : fld v 24 13 = a := by unfold fld; omega
    have e5 : fld v 12 1 = b := by unfold fld; omega
    show decForm (true) (.vsubF (fld v 47 44) (fld v 37 37) (fld v 0 0) (fld v 36 25) (fld v 24 13) (fld v 12 1)) = _
    rw [e0, e1, e2, e3, e4, e5]
    exact decForm_ok rfl hw

theorem vmulF (p w t d a b : Nat) : Statement (.vmulF p w t d a b) := by
  intro k h hw
  cases h
  have hb : p < 16 ∧ w < 2 ∧ t < 2 ∧ vopOk d = true ∧ vopOk a = true ∧ vopOk b = true ∧ (w = 1 ∨ t = 0) := of_decide_eq_true hw
  obtain ⟨h0, h1, h2, h3, h4, h5, h6⟩ := hb
  have gh3 := vopOk_lt h3
  have gh4 := vopOk_lt h4
  have gh5 := vopOk_lt h5
  obtain ⟨v, hv⟩ : ∃ v, v = p * 0x100000000000 + w * 0x2000000000 + t + d * 0x2000000 + a * 0x2000 + b * 0x2 + 0xC000000000 := ⟨_, rfl⟩
  rw [show encode (.vmulF p w t d a b) = v from hv.symm]
  have hc : w = 0 ∨ w = 1 := by omega
  rcases hc with hc | hc
  · refine of_v (op := 6) (by omega) (by unfold fld; omega) ?_
    have e0 : fld v 47 44 = p := by unfold fld; omega
    have e1 : fld v 37 37 = w := by unfold fld; omega
    have e2 : fld v 0 0 = t := by unfold fld; omega
    have e3 : fld v 36 25 = d := by unfold fld; omega
    have e4 : fld v 24 13 = a := by unfold fld; omega
    have e5 : fld v 12 1 = b := by unfold fld; omega
    show decForm (true) (.vmulF (fld v 47 44) (fld v 37 37) (fld v 0 0) (fld v 36 25) (fld v 24 13) (fld v 12 1)) = _
    rw [e0, e1, e2, e3, e4, e5]
    exact decForm_ok rfl hw
  · refine of_v (op := 7) (by omega) (by unfold fld; omega) ?_
    have e0 : fld v 47 44 = p := by unfold fld; omega
    have e1 : fld v 37 37 = w := by unfold fld; omega
    have e2 : fld v 0 0 = t := by unfold fld; omega
    have e3 : fld v 36 25 = d := by unfold fld; omega
    have e4 : fld v 24 13 = a := by unfold fld; omega
    have e5 : fld v 12 1 = b := by unfold fld; omega
    show decForm (true) (.vmulF (fld v 47 44) (fld v 37 37) (fld v 0 0) (fld v 36 25) (fld v 24 13) (fld v 12 1)) = _
    rw [e0, e1, e2, e3, e4, e5]
    exact decForm_ok rfl hw

theorem vfma (p w t d a b : Nat) : Statement (.vfma p w t d a b) := by
  intro k h hw
  cases h
  have hb : p < 16 ∧ w < 2 ∧ t < 2 ∧ vopOk d = true ∧ vopOk a = true ∧ vopOk b = true ∧ (w = 1 ∨ t = 0) := of_decide_eq_true hw
  obtain ⟨h0, h1, h2, h3, h4, h5, h6⟩ := hb
  have gh3 := vopOk_lt h3
  have gh4 := vopOk_lt h4
  have gh5 := vopOk_lt h5
  obtain ⟨v, hv⟩ : ∃ v, v = p * 0x100000000000 + w * 0x2000000000 + t + d * 0x2000000 + a * 0x2000 + b * 0x2 + 0x10000000000 := ⟨_, rfl⟩
  rw [show encode (.vfma p w t d a b) = v from hv.symm]
  have hc : w = 0 ∨ w = 1 := by omega
  rcases hc with hc | hc
  · refine of_v (op := 8) (by omega) (by unfold fld; omega) ?_
    have e0 : fld v 47 44 = p := by unfold fld; omega
    have e1 : fld v 37 37 = w := by unfold fld; omega
    have e2 : fld v 0 0 = t := by unfold fld; omega
    have e3 : fld v 36 25 = d := by unfold fld; omega
    have e4 : fld v 24 13 = a := by unfold fld; omega
    have e5 : fld v 12 1 = b := by unfold fld; omega
    show decForm (true) (.vfma (fld v 47 44) (fld v 37 37) (fld v 0 0) (fld v 36 25) (fld v 24 13) (fld v 12 1)) = _
    rw [e0, e1, e2, e3, e4, e5]
    exact decForm_ok rfl hw
  · refine of_v (op := 9) (by omega) (by unfold fld; omega) ?_
    have e0 : fld v 47 44 = p := by unfold fld; omega
    have e1 : fld v 37 37 = w := by unfold fld; omega
    have e2 : fld v 0 0 = t := by unfold fld; omega
    have e3 : fld v 36 25 = d := by unfold fld; omega
    have e4 : fld v 24 13 = a := by unfold fld; omega
    have e5 : fld v 12 1 = b := by unfold fld; omega
    show decForm (true) (.vfma (fld v 47 44) (fld v 37 37) (fld v 0 0) (fld v 36 25) (fld v 24 13) (fld v 12 1)) = _
    rw [e0, e1, e2, e3, e4, e5]
    exact decForm_ok rfl hw

theorem vminF (p w t d a b : Nat) : Statement (.vminF p w t d a b) := by
  intro k h hw
  cases h
  have hb : p < 16 ∧ w < 2 ∧ t < 2 ∧ vopOk d = true ∧ vopOk a = true ∧ vopOk b = true ∧ (w = 1 ∨ t = 0) := of_decide_eq_true hw
  obtain ⟨h0, h1, h2, h3, h4, h5, h6⟩ := hb
  have gh3 := vopOk_lt h3
  have gh4 := vopOk_lt h4
  have gh5 := vopOk_lt h5
  obtain ⟨v, hv⟩ : ∃ v, v = p * 0x100000000000 + w * 0x2000000000 + t + d * 0x2000000 + a * 0x2000 + b * 0x2 + 0x14000000000 := ⟨_, rfl⟩
  rw [show encode (.vminF p w t d a b) = v from hv.symm]
  have hc : w = 0 ∨ w = 1 := by omega
  rcases hc with hc | hc
  · refine of_v (op := 10) (by omega) (by unfold fld; omega) ?_
    have e0 : fld v 47 44 = p := by unfold fld; omega
    have e1 : fld v 37 37 = w := by unfold fld; omega
    have e2 : fld v 0 0 = t := by unfold fld; omega
    have e3 : fld v 36 25 = d := by unfold fld; omega
    have e4 : fld v 24 13 = a := by unfold fld; omega
    have e5 : fld v 12 1 = b := by unfold fld; omega
    show decForm (true) (.vminF (fld v 47 44) (fld v 37 37) (fld v 0 0) (fld v 36 25) (fld v 24 13) (fld v 12 1)) = _
    rw [e0, e1, e2, e3, e4, e5]
    exact decForm_ok rfl hw
  · refine of_v (op := 11) (by omega) (by unfold fld; omega) ?_
    have e0 : fld v 47 44 = p := by unfold fld; omega
    have e1 : fld v 37 37 = w := by unfold fld; omega
    have e2 : fld v 0 0 = t := by unfold fld; omega
    have e3 : fld v 36 25 = d := by unfold fld; omega
    have e4 : fld v 24 13 = a := by unfold fld; omega
    have e5 : fld v 12 1 = b := by unfold fld; omega
    show decForm (true) (.vminF (fld v 47 44) (fld v 37 37) (fld v 0 0) (fld v 36 25) (fld v 24 13) (fld v 12 1)) = _
    rw [e0, e1, e2, e3, e4, e5]
    exact decForm_ok rfl hw

theorem vmaxF (p w t d a b : Nat) : Statement (.vmaxF p w t d a b) := by
  intro k h hw
  cases h
  have hb : p < 16 ∧ w < 2 ∧ t < 2 ∧ vopOk d = true ∧ vopOk a = true ∧ vopOk b = true ∧ (w = 1 ∨ t = 0) := of_decide_eq_true hw
  obtain ⟨h0, h1, h2, h3, h4, h5, h6⟩ := hb
  have gh3 := vopOk_lt h3
  have gh4 := vopOk_lt h4
  have gh5 := vopOk_lt h5
  obtain ⟨v, hv⟩ : ∃ v, v = p * 0x100000000000 + w * 0x2000000000 + t + d * 0x2000000 + a * 0x2000 + b * 0x2 + 0x18000000000 := ⟨_, rfl⟩
  rw [show encode (.vmaxF p w t d a b) = v from hv.symm]
  have hc : w = 0 ∨ w = 1 := by omega
  rcases hc with hc | hc
  · refine of_v (op := 12) (by omega) (by unfold fld; omega) ?_
    have e0 : fld v 47 44 = p := by unfold fld; omega
    have e1 : fld v 37 37 = w := by unfold fld; omega
    have e2 : fld v 0 0 = t := by unfold fld; omega
    have e3 : fld v 36 25 = d := by unfold fld; omega
    have e4 : fld v 24 13 = a := by unfold fld; omega
    have e5 : fld v 12 1 = b := by unfold fld; omega
    show decForm (true) (.vmaxF (fld v 47 44) (fld v 37 37) (fld v 0 0) (fld v 36 25) (fld v 24 13) (fld v 12 1)) = _
    rw [e0, e1, e2, e3, e4, e5]
    exact decForm_ok rfl hw
  · refine of_v (op := 13) (by omega) (by unfold fld; omega) ?_
    have e0 : fld v 47 44 = p := by unfold fld; omega
    have e1 : fld v 37 37 = w := by unfold fld; omega
    have e2 : fld v 0 0 = t := by unfold fld; omega
    have e3 : fld v 36 25 = d := by unfold fld; omega
    have e4 : fld v 24 13 = a := by unfold fld; omega
    have e5 : fld v 12 1 = b := by unfold fld; omega
    show decForm (true) (.vmaxF (fld v 47 44) (fld v 37 37) (fld v 0 0) (fld v 36 25) (fld v 24 13) (fld v 12 1)) = _
    rw [e0, e1, e2, e3, e4, e5]
    exact decForm_ok rfl hw

theorem vabs (p w t d a : Nat) : Statement (.vabs p w t d a) := by
  intro k h hw
  cases h
  have hb : p < 16 ∧ w < 2 ∧ t < 2 ∧ vopOk d = true ∧ vopOk a = true ∧ (w = 1 ∨ t = 0) := of_decide_eq_true hw
  obtain ⟨h0, h1, h2, h3, h4, h5⟩ := hb
  have gh3 := vopOk_lt h3
  have gh4 := vopOk_lt h4
  obtain ⟨v, hv⟩ : ∃ v, v = p * 0x100000000000 + w * 0x2000000000 + t + d * 0x2000000 + a * 0x2000 + 0x1C000000000 := ⟨_, rfl⟩
  rw [show encode (.vabs p w t d a) = v from hv.symm]
  have hc : w = 0 ∨ w = 1 := by omega
  rcases hc with hc | hc
  · refine of_v (op := 14) (by omega) (by unfold fld; omega) ?_
    have e0 : fld v 47 44 = p := by unfold fld; omega
    have e1 : fld v 37 37 = w := by unfold fld; omega
    have e2 : fld v 0 0 = t := by unfold fld; omega
    have e3 : fld v 36 25 = d := by unfold fld; omega
    have e4 : fld v 24 13 = a := by unfold fld; omega
    have e5 : fld v 12 1 = 0 := by unfold fld; omega
    show decForm (fld v 12 1 == 0) (.vabs (fld v 47 44) (fld v 37 37) (fld v 0 0) (fld v 36 25) (fld v 24 13)) = _
    rw [e0, e1, e2, e3, e4, e5]
    exact decForm_ok rfl hw
  · refine of_v (op := 15) (by omega) (by unfold fld; omega) ?_
    have e0 : fld v 47 44 = p := by unfold fld; omega
    have e1 : fld v 37 37 = w := by unfold fld; omega
    have e2 : fld v 0 0 = t := by unfold fld; omega
    have e3 : fld v 36 25 = d := by unfold fld; omega
    have e4 : fld v 24 13 = a := by unfold fld; omega
    have e5 : fld v 12 1 = 0 := by unfold fld; omega
    show decForm (fld v 12 1 == 0) (.vabs (fld v 47 44) (fld v 37 37) (fld v 0 0) (fld v 36 25) (fld v 24 13)) = _
    rw [e0, e1, e2, e3, e4, e5]
    exact decForm_ok rfl hw

theorem vneg (p w t d a : Nat) : Statement (.vneg p w t d a) := by
  intro k h hw
  cases h
  have hb : p < 16 ∧ w < 2 ∧ t < 2 ∧ vopOk d = true ∧ vopOk a = true ∧ (w = 1 ∨ t = 0) := of_decide_eq_true hw
  obtain ⟨h0, h1, h2, h3, h4, h5⟩ := hb
  have gh3 := vopOk_lt h3
  have gh4 := vopOk_lt h4
  obtain ⟨v, hv⟩ : ∃ v, v = p * 0x100000000000 + w * 0x2000000000 + t + d * 0x2000000 + a * 0x2000 + 0x20000000000 := ⟨_, rfl⟩
  rw [show encode (.vneg p w t d a) = v from hv.symm]
  have hc : w = 0 ∨ w = 1 := by omega
  rcases hc with hc | hc
  · refine of_v (op := 16) (by omega) (by unfold fld; omega) ?_
    have e0 : fld v 47 44 = p := by unfold fld; omega
    have e1 : fld v 37 37 = w := by unfold fld; omega
    have e2 : fld v 0 0 = t := by unfold fld; omega
    have e3 : fld v 36 25 = d := by unfold fld; omega
    have e4 : fld v 24 13 = a := by unfold fld; omega
    have e5 : fld v 12 1 = 0 := by unfold fld; omega
    show decForm (fld v 12 1 == 0) (.vneg (fld v 47 44) (fld v 37 37) (fld v 0 0) (fld v 36 25) (fld v 24 13)) = _
    rw [e0, e1, e2, e3, e4, e5]
    exact decForm_ok rfl hw
  · refine of_v (op := 17) (by omega) (by unfold fld; omega) ?_
    have e0 : fld v 47 44 = p := by unfold fld; omega
    have e1 : fld v 37 37 = w := by unfold fld; omega
    have e2 : fld v 0 0 = t := by unfold fld; omega
    have e3 : fld v 36 25 = d := by unfold fld; omega
    have e4 : fld v 24 13 = a := by unfold fld; omega
    have e5 : fld v 12 1 = 0 := by unfold fld; omega
    show decForm (fld v 12 1 == 0) (.vneg (fld v 47 44) (fld v 37 37) (fld v 0 0) (fld v 36 25) (fld v 24 13)) = _
    rw [e0, e1, e2, e3, e4, e5]
    exact decForm_ok rfl hw

theorem vcmpEqF (p w t d a b : Nat) : Statement (.vcmpEqF p w t d a b) := by
  intro k h hw
  cases h
  have hb : p < 16 ∧ w < 2 ∧ t < 2 ∧ vopOk d = true ∧ vopOk a = true ∧ vopOk b = true ∧ (w = 1 ∨ t = 0) := of_decide_eq_true hw
  obtain ⟨h0, h1, h2, h3, h4, h5, h6⟩ := hb
  have gh3 := vopOk_lt h3
  have gh4 := vopOk_lt h4
  have gh5 := vopOk_lt h5
  obtain ⟨v, hv⟩ : ∃ v, v = p * 0x100000000000 + w * 0x2000000000 + t + d * 0x2000000 + a * 0x2000 + b * 0x2 + 0x24000000000 := ⟨_, rfl⟩
  rw [show encode (.vcmpEqF p w t d a b) = v from hv.symm]
  have hc : w = 0 ∨ w = 1 := by omega
  rcases hc with hc | hc
  · refine of_v (op := 18) (by omega) (by unfold fld; omega) ?_
    have e0 : fld v 47 44 = p := by unfold fld; omega
    have e1 : fld v 37 37 = w := by unfold fld; omega
    have e2 : fld v 0 0 = t := by unfold fld; omega
    have e3 : fld v 36 25 = d := by unfold fld; omega
    have e4 : fld v 24 13 = a := by unfold fld; omega
    have e5 : fld v 12 1 = b := by unfold fld; omega
    show decForm (true) (.vcmpEqF (fld v 47 44) (fld v 37 37) (fld v 0 0) (fld v 36 25) (fld v 24 13) (fld v 12 1)) = _
    rw [e0, e1, e2, e3, e4, e5]
    exact decForm_ok rfl hw
  · refine of_v (op := 19) (by omega) (by unfold fld; omega) ?_
    have e0 : fld v 47 44 = p := by unfold fld; omega
    have e1 : fld v 37 37 = w := by unfold fld; omega
    have e2 : fld v 0 0 = t := by unfold fld; omega
    have e3 : fld v 36 25 = d := by unfold fld; omega
    have e4 : fld v 24 13 = a := by unfold fld; omega
    have e5 : fld v 12 1 = b := by unfold fld; omega
    show decForm (true) (.vcmpEqF (fld v 47 44) (fld v 37 37) (fld v 0 0) (fld v 36 25) (fld v 24 13) (fld v 12 1)) = _
    rw [e0, e1, e2, e3, e4, e5]
    exact decForm_ok rfl hw

theorem vcmpLtF (p w t d a b : Nat) : Statement (.vcmpLtF p w t d a b) := by
  intro k h hw
  cases h
  have hb : p < 16 ∧ w < 2 ∧ t < 2 ∧ vopOk d = true ∧ vopOk a = true ∧ vopOk b = true ∧ (w = 1 ∨ t = 0) := of_decide_eq_true hw
  obtain ⟨h0, h1, h2, h3, h4, h5, h6⟩ := hb
  have gh3 := vopOk_lt h3
  have gh4 := vopOk_lt h4
  have gh5 := vopOk_lt h5
  obtain ⟨v, hv⟩ : ∃ v, v = p * 0x100000000000 + w * 0x2000000000 + t + d * 0x2000000 + a * 0x2000 + b * 0x2 + 0x28000000000 := ⟨_, rfl⟩
  rw [show encode (.vcmpLtF p w t d a b) = v from hv.symm]
  have hc : w = 0 ∨ w = 1 := by omega
  rcases hc with hc | hc
  · refine of_v (op := 20) (by omega) (by unfold fld; omega) ?_
    have e0 : fld v 47 44 = p := by unfold fld; omega
    have e1 : fld v 37 37 = w := by unfold fld; omega
    have e2 : fld v 0 0 = t := by unfold fld; omega
    have e3 : fld v 36 25 = d := by unfold fld; omega
    have e4 : fld v 24 13 = a := by unfold fld; omega
    have e5 : fld v 12 1 = b := by unfold fld; omega
    show decForm (true) (.vcmpLtF (fld v 47 44) (fld v 37 37) (fld v 0 0) (fld v 36 25) (fld v 24 13) (fld v 12 1)) = _
    rw [e0, e1, e2, e3, e4, e5]
    exact decForm_ok rfl hw
  · refine of_v (op := 21) (by omega) (by unfold fld; omega) ?_
    have e0 : fld v 47 44 = p := by unfold fld; omega
    have e1 : fld v 37 37 = w := by unfold fld; omega
    have e2 : fld v 0 0 = t := by unfold fld; omega
    have e3 : fld v 36 25 = d := by unfold fld; omega
    have e4 : fld v 24 13 = a := by unfold fld; omega
    have e5 : fld v 12 1 = b := by unfold fld; omega
    show decForm (true) (.vcmpLtF (fld v 47 44) (fld v 37 37) (fld v 0 0) (fld v 36 25) (fld v 24 13) (fld v 12 1)) = _
    rw [e0, e1, e2, e3, e4, e5]
    exact decForm_ok rfl hw

theorem vcmpLeF (p w t d a b : Nat) : Statement (.vcmpLeF p w t d a b) := by
  intro k h hw
  cases h
  have hb : p < 16 ∧ w < 2 ∧ t < 2 ∧ vopOk d = true ∧ vopOk a = true ∧ vopOk b = true ∧ (w = 1 ∨ t = 0) := of_decide_eq_true hw
  obtain ⟨h0, h1, h2, h3, h4, h5, h6⟩ := hb
  have gh3 := vopOk_lt h3
  have gh4 := vopOk_lt h4
  have gh5 := vopOk_lt h5
  obtain ⟨v, hv⟩ : ∃ v, v = p * 0x100000000000 + w * 0x2000000000 + t + d * 0x2000000 + a * 0x2000 + b * 0x2 + 0x2C000000000 := ⟨_, rfl⟩
  rw [show encode (.vcmpLeF p w t d a b) = v from hv.symm]
  have hc : w = 0 ∨ w = 1 := by omega
  rcases hc with hc | hc
  · refine of_v (op := 22) (by omega) (by unfold fld; omega) ?_
    have e0 : fld v 47 44 = p := by unfold fld; omega
    have e1 : fld v 37 37 = w := by unfold fld; omega
    have e2 : fld v 0 0 = t := by unfold fld; omega
    have e3 : fld v 36 25 = d := by unfold fld; omega
    have e4 : fld v 24 13 = a := by unfold fld; omega
    have e5 : fld v 12 1 = b := by unfold fld; omega
    show decForm (true) (.vcmpLeF (fld v 47 44) (fld v 37 37) (fld v 0 0) (fld v 36 25) (fld v 24 13) (fld v 12 1)) = _
    rw [e0, e1, e2, e3, e4, e5]
    exact decForm_ok rfl hw
  · refine of_v (op := 23) (by omega) (by unfold fld; omega) ?_
    have e0 : fld v 47 44 = p := by unfold fld; omega
    have e1 : fld v 37 37 = w := by unfold fld; omega
    have e2 : fld v 0 0 = t := by unfold fld; omega
    have e3 : fld v 36 25 = d := by unfold fld; omega
    have e4 : fld v 24 13 = a := by unfold fld; omega
    have e5 : fld v 12 1 = b := by unfold fld; omega
    show decForm (true) (.vcmpLeF (fld v 47 44) (fld v 37 37) (fld v 0 0) (fld v 36 25) (fld v 24 13) (fld v 12 1)) = _
    rw [e0, e1, e2, e3, e4, e5]
    exact decForm_ok rfl hw

theorem vrsumF (p w t d a : Nat) : Statement (.vrsumF p w t d a) := by
  intro k h hw
  cases h
  have hb : p < 16 ∧ w < 2 ∧ t < 2 ∧ vopOk d = true ∧ vopOk a = true ∧ (w = 1 ∨ t = 0) := of_decide_eq_true hw
  obtain ⟨h0, h1, h2, h3, h4, h5⟩ := hb
  have gh3 := vopOk_lt h3
  have gh4 := vopOk_lt h4
  obtain ⟨v, hv⟩ : ∃ v, v = p * 0x100000000000 + w * 0x2000000000 + t + d * 0x2000000 + a * 0x2000 + 0x30000000000 := ⟨_, rfl⟩
  rw [show encode (.vrsumF p w t d a) = v from hv.symm]
  have hc : w = 0 ∨ w = 1 := by omega
  rcases hc with hc | hc
  · refine of_v (op := 24) (by omega) (by unfold fld; omega) ?_
    have e0 : fld v 47 44 = p := by unfold fld; omega
    have e1 : fld v 37 37 = w := by unfold fld; omega
    have e2 : fld v 0 0 = t := by unfold fld; omega
    have e3 : fld v 36 25 = d := by unfold fld; omega
    have e4 : fld v 24 13 = a := by unfold fld; omega
    have e5 : fld v 12 1 = 0 := by unfold fld; omega
    show decForm (fld v 12 1 == 0) (.vrsumF (fld v 47 44) (fld v 37 37) (fld v 0 0) (fld v 36 25) (fld v 24 13)) = _
    rw [e0, e1, e2, e3, e4, e5]
    exact decForm_ok rfl hw
  · refine of_v (op := 25) (by omega) (by unfold fld; omega) ?_
    have e0 : fld v 47 44 = p := by unfold fld; omega
    have e1 : fld v 37 37 = w := by unfold fld; omega
    have e2 : fld v 0 0 = t := by unfold fld; omega
    have e3 : fld v 36 25 = d := by unfold fld; omega
    have e4 : fld v 24 13 = a := by unfold fld; omega
    have e5 : fld v 12 1 = 0 := by unfold fld; omega
    show decForm (fld v 12 1 == 0) (.vrsumF (fld v 47 44) (fld v 37 37) (fld v 0 0) (fld v 36 25) (fld v 24 13)) = _
    rw [e0, e1, e2, e3, e4, e5]
    exact decForm_ok rfl hw

theorem vrmax (p w t d a : Nat) : Statement (.vrmax p w t d a) := by
  intro k h hw
  cases h
  have hb : p < 16 ∧ w < 2 ∧ t < 2 ∧ vopOk d = true ∧ vopOk a = true ∧ (w = 1 ∨ t = 0) := of_decide_eq_true hw
  obtain ⟨h0, h1, h2, h3, h4, h5⟩ := hb
  have gh3 := vopOk_lt h3
  have gh4 := vopOk_lt h4
  obtain ⟨v, hv⟩ : ∃ v, v = p * 0x100000000000 + w * 0x2000000000 + t + d * 0x2000000 + a * 0x2000 + 0x34000000000 := ⟨_, rfl⟩
  rw [show encode (.vrmax p w t d a) = v from hv.symm]
  have hc : w = 0 ∨ w = 1 := by omega
  rcases hc with hc | hc
  · refine of_v (op := 26) (by omega) (by unfold fld; omega) ?_
    have e0 : fld v 47 44 = p := by unfold fld; omega
    have e1 : fld v 37 37 = w := by unfold fld; omega
    have e2 : fld v 0 0 = t := by unfold fld; omega
    have e3 : fld v 36 25 = d := by unfold fld; omega
    have e4 : fld v 24 13 = a := by unfold fld; omega
    have e5 : fld v 12 1 = 0 := by unfold fld; omega
    show decForm (fld v 12 1 == 0) (.vrmax (fld v 47 44) (fld v 37 37) (fld v 0 0) (fld v 36 25) (fld v 24 13)) = _
    rw [e0, e1, e2, e3, e4, e5]
    exact decForm_ok rfl hw
  · refine of_v (op := 27) (by omega) (by unfold fld; omega) ?_
    have e0 : fld v 47 44 = p := by unfold fld; omega
    have e1 : fld v 37 37 = w := by unfold fld; omega
    have e2 : fld v 0 0 = t := by unfold fld; omega
    have e3 : fld v 36 25 = d := by unfold fld; omega
    have e4 : fld v 24 13 = a := by unfold fld; omega
    have e5 : fld v 12 1 = 0 := by unfold fld; omega
    show decForm (fld v 12 1 == 0) (.vrmax (fld v 47 44) (fld v 37 37) (fld v 0 0) (fld v 36 25) (fld v 24 13)) = _
    rw [e0, e1, e2, e3, e4, e5]
    exact decForm_ok rfl hw

theorem vrmin (p w t d a : Nat) : Statement (.vrmin p w t d a) := by
  intro k h hw
  cases h
  have hb : p < 16 ∧ w < 2 ∧ t < 2 ∧ vopOk d = true ∧ vopOk a = true ∧ (w = 1 ∨ t = 0) := of_decide_eq_true hw
  obtain ⟨h0, h1, h2, h3, h4, h5⟩ := hb
  have gh3 := vopOk_lt h3
  have gh4 := vopOk_lt h4
  obtain ⟨v, hv⟩ : ∃ v, v = p * 0x100000000000 + w * 0x2000000000 + t + d * 0x2000000 + a * 0x2000 + 0x38000000000 := ⟨_, rfl⟩
  rw [show encode (.vrmin p w t d a) = v from hv.symm]
  have hc : w = 0 ∨ w = 1 := by omega
  rcases hc with hc | hc
  · refine of_v (op := 28) (by omega) (by unfold fld; omega) ?_
    have e0 : fld v 47 44 = p := by unfold fld; omega
    have e1 : fld v 37 37 = w := by unfold fld; omega
    have e2 : fld v 0 0 = t := by unfold fld; omega
    have e3 : fld v 36 25 = d := by unfold fld; omega
    have e4 : fld v 24 13 = a := by unfold fld; omega
    have e5 : fld v 12 1 = 0 := by unfold fld; omega
    show decForm (fld v 12 1 == 0) (.vrmin (fld v 47 44) (fld v 37 37) (fld v 0 0) (fld v 36 25) (fld v 24 13)) = _
    rw [e0, e1, e2, e3, e4, e5]
    exact decForm_ok rfl hw
  · refine of_v (op := 29) (by omega) (by unfold fld; omega) ?_
    have e0 : fld v 47 44 = p := by unfold fld; omega
    have e1 : fld v 37 37 = w := by unfold fld; omega
    have e2 : fld v 0 0 = t := by unfold fld; omega
    have e3 : fld v 36 25 = d := by unfold fld; omega
    have e4 : fld v 24 13 = a := by unfold fld; omega
    have e5 : fld v 12 1 = 0 := by unfold fld; omega
    show decForm (fld v 12 1 == 0) (.vrmin (fld v 47 44) (fld v 37 37) (fld v 0 0) (fld v 36 25) (fld v 24 13)) = _
    rw [e0, e1, e2, e3, e4, e5]
    exact decForm_ok rfl hw

theorem vexp2 (p w t d a : Nat) : Statement (.vexp2 p w t d a) := by
  intro k h hw
  cases h
  have hb : p < 16 ∧ w < 2 ∧ t < 2 ∧ vopOk d = true ∧ vopOk a = true ∧ (w = 1 ∨ t = 0) := of_decide_eq_true hw
  obtain ⟨h0, h1, h2, h3, h4, h5⟩ := hb
  have gh3 := vopOk_lt h3
  have gh4 := vopOk_lt h4
  obtain ⟨v, hv⟩ : ∃ v, v = p * 0x100000000000 + w * 0x2000000000 + t + d * 0x2000000 + a * 0x2000 + 0x3C000000000 := ⟨_, rfl⟩
  rw [show encode (.vexp2 p w t d a) = v from hv.symm]
  have hc : w = 0 ∨ w = 1 := by omega
  rcases hc with hc | hc
  · refine of_v (op := 30) (by omega) (by unfold fld; omega) ?_
    have e0 : fld v 47 44 = p := by unfold fld; omega
    have e1 : fld v 37 37 = w := by unfold fld; omega
    have e2 : fld v 0 0 = t := by unfold fld; omega
    have e3 : fld v 36 25 = d := by unfold fld; omega
    have e4 : fld v 24 13 = a := by unfold fld; omega
    have e5 : fld v 12 1 = 0 := by unfold fld; omega
    show decForm (fld v 12 1 == 0) (.vexp2 (fld v 47 44) (fld v 37 37) (fld v 0 0) (fld v 36 25) (fld v 24 13)) = _
    rw [e0, e1, e2, e3, e4, e5]
    exact decForm_ok rfl hw
  · refine of_v (op := 31) (by omega) (by unfold fld; omega) ?_
    have e0 : fld v 47 44 = p := by unfold fld; omega
    have e1 : fld v 37 37 = w := by unfold fld; omega
    have e2 : fld v 0 0 = t := by unfold fld; omega
    have e3 : fld v 36 25 = d := by unfold fld; omega
    have e4 : fld v 24 13 = a := by unfold fld; omega
    have e5 : fld v 12 1 = 0 := by unfold fld; omega
    show decForm (fld v 12 1 == 0) (.vexp2 (fld v 47 44) (fld v 37 37) (fld v 0 0) (fld v 36 25) (fld v 24 13)) = _
    rw [e0, e1, e2, e3, e4, e5]
    exact decForm_ok rfl hw

theorem vlog2 (p w t d a : Nat) : Statement (.vlog2 p w t d a) := by
  intro k h hw
  cases h
  have hb : p < 16 ∧ w < 2 ∧ t < 2 ∧ vopOk d = true ∧ vopOk a = true ∧ (w = 1 ∨ t = 0) := of_decide_eq_true hw
  obtain ⟨h0, h1, h2, h3, h4, h5⟩ := hb
  have gh3 := vopOk_lt h3
  have gh4 := vopOk_lt h4
  obtain ⟨v, hv⟩ : ∃ v, v = p * 0x100000000000 + w * 0x2000000000 + t + d * 0x2000000 + a * 0x2000 + 0x40000000000 := ⟨_, rfl⟩
  rw [show encode (.vlog2 p w t d a) = v from hv.symm]
  have hc : w = 0 ∨ w = 1 := by omega
  rcases hc with hc | hc
  · refine of_v (op := 32) (by omega) (by unfold fld; omega) ?_
    have e0 : fld v 47 44 = p := by unfold fld; omega
    have e1 : fld v 37 37 = w := by unfold fld; omega
    have e2 : fld v 0 0 = t := by unfold fld; omega
    have e3 : fld v 36 25 = d := by unfold fld; omega
    have e4 : fld v 24 13 = a := by unfold fld; omega
    have e5 : fld v 12 1 = 0 := by unfold fld; omega
    show decForm (fld v 12 1 == 0) (.vlog2 (fld v 47 44) (fld v 37 37) (fld v 0 0) (fld v 36 25) (fld v 24 13)) = _
    rw [e0, e1, e2, e3, e4, e5]
    exact decForm_ok rfl hw
  · refine of_v (op := 33) (by omega) (by unfold fld; omega) ?_
    have e0 : fld v 47 44 = p := by unfold fld; omega
    have e1 : fld v 37 37 = w := by unfold fld; omega
    have e2 : fld v 0 0 = t := by unfold fld; omega
    have e3 : fld v 36 25 = d := by unfold fld; omega
    have e4 : fld v 24 13 = a := by unfold fld; omega
    have e5 : fld v 12 1 = 0 := by unfold fld; omega
    show decForm (fld v 12 1 == 0) (.vlog2 (fld v 47 44) (fld v 37 37) (fld v 0 0) (fld v 36 25) (fld v 24 13)) = _
    rw [e0, e1, e2, e3, e4, e5]
    exact decForm_ok rfl hw

theorem vrcp (p w t d a : Nat) : Statement (.vrcp p w t d a) := by
  intro k h hw
  cases h
  have hb : p < 16 ∧ w < 2 ∧ t < 2 ∧ vopOk d = true ∧ vopOk a = true ∧ (w = 1 ∨ t = 0) := of_decide_eq_true hw
  obtain ⟨h0, h1, h2, h3, h4, h5⟩ := hb
  have gh3 := vopOk_lt h3
  have gh4 := vopOk_lt h4
  obtain ⟨v, hv⟩ : ∃ v, v = p * 0x100000000000 + w * 0x2000000000 + t + d * 0x2000000 + a * 0x2000 + 0x44000000000 := ⟨_, rfl⟩
  rw [show encode (.vrcp p w t d a) = v from hv.symm]
  have hc : w = 0 ∨ w = 1 := by omega
  rcases hc with hc | hc
  · refine of_v (op := 34) (by omega) (by unfold fld; omega) ?_
    have e0 : fld v 47 44 = p := by unfold fld; omega
    have e1 : fld v 37 37 = w := by unfold fld; omega
    have e2 : fld v 0 0 = t := by unfold fld; omega
    have e3 : fld v 36 25 = d := by unfold fld; omega
    have e4 : fld v 24 13 = a := by unfold fld; omega
    have e5 : fld v 12 1 = 0 := by unfold fld; omega
    show decForm (fld v 12 1 == 0) (.vrcp (fld v 47 44) (fld v 37 37) (fld v 0 0) (fld v 36 25) (fld v 24 13)) = _
    rw [e0, e1, e2, e3, e4, e5]
    exact decForm_ok rfl hw
  · refine of_v (op := 35) (by omega) (by unfold fld; omega) ?_
    have e0 : fld v 47 44 = p := by unfold fld; omega
    have e1 : fld v 37 37 = w := by unfold fld; omega
    have e2 : fld v 0 0 = t := by unfold fld; omega
    have e3 : fld v 36 25 = d := by unfold fld; omega
    have e4 : fld v 24 13 = a := by unfold fld; omega
    have e5 : fld v 12 1 = 0 := by unfold fld; omega
    show decForm (fld v 12 1 == 0) (.vrcp (fld v 47 44) (fld v 37 37) (fld v 0 0) (fld v 36 25) (fld v 24 13)) = _
    rw [e0, e1, e2, e3, e4, e5]
    exact decForm_ok rfl hw

theorem vrsq (p w t d a : Nat) : Statement (.vrsq p w t d a) := by
  intro k h hw
  cases h
  have hb : p < 16 ∧ w < 2 ∧ t < 2 ∧ vopOk d = true ∧ vopOk a = true ∧ (w = 1 ∨ t = 0) := of_decide_eq_true hw
  obtain ⟨h0, h1, h2, h3, h4, h5⟩ := hb
  have gh3 := vopOk_lt h3
  have gh4 := vopOk_lt h4
  obtain ⟨v, hv⟩ : ∃ v, v = p * 0x100000000000 + w * 0x2000000000 + t + d * 0x2000000 + a * 0x2000 + 0x48000000000 := ⟨_, rfl⟩
  rw [show encode (.vrsq p w t d a) = v from hv.symm]
  have hc : w = 0 ∨ w = 1 := by omega
  rcases hc with hc | hc
  · refine of_v (op := 36) (by omega) (by unfold fld; omega) ?_
    have e0 : fld v 47 44 = p := by unfold fld; omega
    have e1 : fld v 37 37 = w := by unfold fld; omega
    have e2 : fld v 0 0 = t := by unfold fld; omega
    have e3 : fld v 36 25 = d := by unfold fld; omega
    have e4 : fld v 24 13 = a := by unfold fld; omega
    have e5 : fld v 12 1 = 0 := by unfold fld; omega
    show decForm (fld v 12 1 == 0) (.vrsq (fld v 47 44) (fld v 37 37) (fld v 0 0) (fld v 36 25) (fld v 24 13)) = _
    rw [e0, e1, e2, e3, e4, e5]
    exact decForm_ok rfl hw
  · refine of_v (op := 37) (by omega) (by unfold fld; omega) ?_
    have e0 : fld v 47 44 = p := by unfold fld; omega
    have e1 : fld v 37 37 = w := by unfold fld; omega
    have e2 : fld v 0 0 = t := by unfold fld; omega
    have e3 : fld v 36 25 = d := by unfold fld; omega
    have e4 : fld v 24 13 = a := by unfold fld; omega
    have e5 : fld v 12 1 = 0 := by unfold fld; omega
    show decForm (fld v 12 1 == 0) (.vrsq (fld v 47 44) (fld v 37 37) (fld v 0 0) (fld v 36 25) (fld v 24 13)) = _
    rw [e0, e1, e2, e3, e4, e5]
    exact decForm_ok rfl hw

theorem vtanh (p w t d a : Nat) : Statement (.vtanh p w t d a) := by
  intro k h hw
  cases h
  have hb : p < 16 ∧ w < 2 ∧ t < 2 ∧ vopOk d = true ∧ vopOk a = true ∧ (w = 1 ∨ t = 0) := of_decide_eq_true hw
  obtain ⟨h0, h1, h2, h3, h4, h5⟩ := hb
  have gh3 := vopOk_lt h3
  have gh4 := vopOk_lt h4
  obtain ⟨v, hv⟩ : ∃ v, v = p * 0x100000000000 + w * 0x2000000000 + t + d * 0x2000000 + a * 0x2000 + 0x4C000000000 := ⟨_, rfl⟩
  rw [show encode (.vtanh p w t d a) = v from hv.symm]
  have hc : w = 0 ∨ w = 1 := by omega
  rcases hc with hc | hc
  · refine of_v (op := 38) (by omega) (by unfold fld; omega) ?_
    have e0 : fld v 47 44 = p := by unfold fld; omega
    have e1 : fld v 37 37 = w := by unfold fld; omega
    have e2 : fld v 0 0 = t := by unfold fld; omega
    have e3 : fld v 36 25 = d := by unfold fld; omega
    have e4 : fld v 24 13 = a := by unfold fld; omega
    have e5 : fld v 12 1 = 0 := by unfold fld; omega
    show decForm (fld v 12 1 == 0) (.vtanh (fld v 47 44) (fld v 37 37) (fld v 0 0) (fld v 36 25) (fld v 24 13)) = _
    rw [e0, e1, e2, e3, e4, e5]
    exact decForm_ok rfl hw
  · refine of_v (op := 39) (by omega) (by unfold fld; omega) ?_
    have e0 : fld v 47 44 = p := by unfold fld; omega
    have e1 : fld v 37 37 = w := by unfold fld; omega
    have e2 : fld v 0 0 = t := by unfold fld; omega
    have e3 : fld v 36 25 = d := by unfold fld; omega
    have e4 : fld v 24 13 = a := by unfold fld; omega
    have e5 : fld v 12 1 = 0 := by unfold fld; omega
    show decForm (fld v 12 1 == 0) (.vtanh (fld v 47 44) (fld v 37 37) (fld v 0 0) (fld v 36 25) (fld v 24 13)) = _
    rw [e0, e1, e2, e3, e4, e5]
    exact decForm_ok rfl hw

theorem vsilu (p w t d a : Nat) : Statement (.vsilu p w t d a) := by
  intro k h hw
  cases h
  have hb : p < 16 ∧ w < 2 ∧ t < 2 ∧ vopOk d = true ∧ vopOk a = true ∧ (w = 1 ∨ t = 0) := of_decide_eq_true hw
  obtain ⟨h0, h1, h2, h3, h4, h5⟩ := hb
  have gh3 := vopOk_lt h3
  have gh4 := vopOk_lt h4
  obtain ⟨v, hv⟩ : ∃ v, v = p * 0x100000000000 + w * 0x2000000000 + t + d * 0x2000000 + a * 0x2000 + 0x50000000000 := ⟨_, rfl⟩
  rw [show encode (.vsilu p w t d a) = v from hv.symm]
  have hc : w = 0 ∨ w = 1 := by omega
  rcases hc with hc | hc
  · refine of_v (op := 40) (by omega) (by unfold fld; omega) ?_
    have e0 : fld v 47 44 = p := by unfold fld; omega
    have e1 : fld v 37 37 = w := by unfold fld; omega
    have e2 : fld v 0 0 = t := by unfold fld; omega
    have e3 : fld v 36 25 = d := by unfold fld; omega
    have e4 : fld v 24 13 = a := by unfold fld; omega
    have e5 : fld v 12 1 = 0 := by unfold fld; omega
    show decForm (fld v 12 1 == 0) (.vsilu (fld v 47 44) (fld v 37 37) (fld v 0 0) (fld v 36 25) (fld v 24 13)) = _
    rw [e0, e1, e2, e3, e4, e5]
    exact decForm_ok rfl hw
  · refine of_v (op := 41) (by omega) (by unfold fld; omega) ?_
    have e0 : fld v 47 44 = p := by unfold fld; omega
    have e1 : fld v 37 37 = w := by unfold fld; omega
    have e2 : fld v 0 0 = t := by unfold fld; omega
    have e3 : fld v 36 25 = d := by unfold fld; omega
    have e4 : fld v 24 13 = a := by unfold fld; omega
    have e5 : fld v 12 1 = 0 := by unfold fld; omega
    show decForm (fld v 12 1 == 0) (.vsilu (fld v 47 44) (fld v 37 37) (fld v 0 0) (fld v 36 25) (fld v 24 13)) = _
    rw [e0, e1, e2, e3, e4, e5]
    exact decForm_ok rfl hw

theorem vaddI (p w t d a b : Nat) : Statement (.vaddI p w t d a b) := by
  intro k h hw
  cases h
  have hb : p < 16 ∧ w < 2 ∧ t < 2 ∧ vopOk d = true ∧ vopOk a = true ∧ vopOk b = true := of_decide_eq_true hw
  obtain ⟨h0, h1, h2, h3, h4, h5⟩ := hb
  have gh3 := vopOk_lt h3
  have gh4 := vopOk_lt h4
  have gh5 := vopOk_lt h5
  obtain ⟨v, hv⟩ : ∃ v, v = p * 0x100000000000 + w * 0x2000000000 + t + d * 0x2000000 + a * 0x2000 + b * 0x2 + 0x54000000000 := ⟨_, rfl⟩
  rw [show encode (.vaddI p w t d a b) = v from hv.symm]
  have hc : w = 0 ∨ w = 1 := by omega
  rcases hc with hc | hc
  · refine of_v (op := 42) (by omega) (by unfold fld; omega) ?_
    have e0 : fld v 47 44 = p := by unfold fld; omega
    have e1 : fld v 37 37 = w := by unfold fld; omega
    have e2 : fld v 0 0 = t := by unfold fld; omega
    have e3 : fld v 36 25 = d := by unfold fld; omega
    have e4 : fld v 24 13 = a := by unfold fld; omega
    have e5 : fld v 12 1 = b := by unfold fld; omega
    show decForm (true) (.vaddI (fld v 47 44) (fld v 37 37) (fld v 0 0) (fld v 36 25) (fld v 24 13) (fld v 12 1)) = _
    rw [e0, e1, e2, e3, e4, e5]
    exact decForm_ok rfl hw
  · refine of_v (op := 43) (by omega) (by unfold fld; omega) ?_
    have e0 : fld v 47 44 = p := by unfold fld; omega
    have e1 : fld v 37 37 = w := by unfold fld; omega
    have e2 : fld v 0 0 = t := by unfold fld; omega
    have e3 : fld v 36 25 = d := by unfold fld; omega
    have e4 : fld v 24 13 = a := by unfold fld; omega
    have e5 : fld v 12 1 = b := by unfold fld; omega
    show decForm (true) (.vaddI (fld v 47 44) (fld v 37 37) (fld v 0 0) (fld v 36 25) (fld v 24 13) (fld v 12 1)) = _
    rw [e0, e1, e2, e3, e4, e5]
    exact decForm_ok rfl hw

theorem vsubI (p w t d a b : Nat) : Statement (.vsubI p w t d a b) := by
  intro k h hw
  cases h
  have hb : p < 16 ∧ w < 2 ∧ t < 2 ∧ vopOk d = true ∧ vopOk a = true ∧ vopOk b = true := of_decide_eq_true hw
  obtain ⟨h0, h1, h2, h3, h4, h5⟩ := hb
  have gh3 := vopOk_lt h3
  have gh4 := vopOk_lt h4
  have gh5 := vopOk_lt h5
  obtain ⟨v, hv⟩ : ∃ v, v = p * 0x100000000000 + w * 0x2000000000 + t + d * 0x2000000 + a * 0x2000 + b * 0x2 + 0x58000000000 := ⟨_, rfl⟩
  rw [show encode (.vsubI p w t d a b) = v from hv.symm]
  have hc : w = 0 ∨ w = 1 := by omega
  rcases hc with hc | hc
  · refine of_v (op := 44) (by omega) (by unfold fld; omega) ?_
    have e0 : fld v 47 44 = p := by unfold fld; omega
    have e1 : fld v 37 37 = w := by unfold fld; omega
    have e2 : fld v 0 0 = t := by unfold fld; omega
    have e3 : fld v 36 25 = d := by unfold fld; omega
    have e4 : fld v 24 13 = a := by unfold fld; omega
    have e5 : fld v 12 1 = b := by unfold fld; omega
    show decForm (true) (.vsubI (fld v 47 44) (fld v 37 37) (fld v 0 0) (fld v 36 25) (fld v 24 13) (fld v 12 1)) = _
    rw [e0, e1, e2, e3, e4, e5]
    exact decForm_ok rfl hw
  · refine of_v (op := 45) (by omega) (by unfold fld; omega) ?_
    have e0 : fld v 47 44 = p := by unfold fld; omega
    have e1 : fld v 37 37 = w := by unfold fld; omega
    have e2 : fld v 0 0 = t := by unfold fld; omega
    have e3 : fld v 36 25 = d := by unfold fld; omega
    have e4 : fld v 24 13 = a := by unfold fld; omega
    have e5 : fld v 12 1 = b := by unfold fld; omega
    show decForm (true) (.vsubI (fld v 47 44) (fld v 37 37) (fld v 0 0) (fld v 36 25) (fld v 24 13) (fld v 12 1)) = _
    rw [e0, e1, e2, e3, e4, e5]
    exact decForm_ok rfl hw

theorem vmulI (p w t d a b : Nat) : Statement (.vmulI p w t d a b) := by
  intro k h hw
  cases h
  have hb : p < 16 ∧ w < 2 ∧ t < 2 ∧ vopOk d = true ∧ vopOk a = true ∧ vopOk b = true := of_decide_eq_true hw
  obtain ⟨h0, h1, h2, h3, h4, h5⟩ := hb
  have gh3 := vopOk_lt h3
  have gh4 := vopOk_lt h4
  have gh5 := vopOk_lt h5
  obtain ⟨v, hv⟩ : ∃ v, v = p * 0x100000000000 + w * 0x2000000000 + t + d * 0x2000000 + a * 0x2000 + b * 0x2 + 0x5C000000000 := ⟨_, rfl⟩
  rw [show encode (.vmulI p w t d a b) = v from hv.symm]
  have hc : w = 0 ∨ w = 1 := by omega
  rcases hc with hc | hc
  · refine of_v (op := 46) (by omega) (by unfold fld; omega) ?_
    have e0 : fld v 47 44 = p := by unfold fld; omega
    have e1 : fld v 37 37 = w := by unfold fld; omega
    have e2 : fld v 0 0 = t := by unfold fld; omega
    have e3 : fld v 36 25 = d := by unfold fld; omega
    have e4 : fld v 24 13 = a := by unfold fld; omega
    have e5 : fld v 12 1 = b := by unfold fld; omega
    show decForm (true) (.vmulI (fld v 47 44) (fld v 37 37) (fld v 0 0) (fld v 36 25) (fld v 24 13) (fld v 12 1)) = _
    rw [e0, e1, e2, e3, e4, e5]
    exact decForm_ok rfl hw
  · refine of_v (op := 47) (by omega) (by unfold fld; omega) ?_
    have e0 : fld v 47 44 = p := by unfold fld; omega
    have e1 : fld v 37 37 = w := by unfold fld; omega
    have e2 : fld v 0 0 = t := by unfold fld; omega
    have e3 : fld v 36 25 = d := by unfold fld; omega
    have e4 : fld v 24 13 = a := by unfold fld; omega
    have e5 : fld v 12 1 = b := by unfold fld; omega
    show decForm (true) (.vmulI (fld v 47 44) (fld v 37 37) (fld v 0 0) (fld v 36 25) (fld v 24 13) (fld v 12 1)) = _
    rw [e0, e1, e2, e3, e4, e5]
    exact decForm_ok rfl hw

theorem vminI (p w t d a b : Nat) : Statement (.vminI p w t d a b) := by
  intro k h hw
  cases h
  have hb : p < 16 ∧ w < 2 ∧ t < 2 ∧ vopOk d = true ∧ vopOk a = true ∧ vopOk b = true := of_decide_eq_true hw
  obtain ⟨h0, h1, h2, h3, h4, h5⟩ := hb
  have gh3 := vopOk_lt h3
  have gh4 := vopOk_lt h4
  have gh5 := vopOk_lt h5
  obtain ⟨v, hv⟩ : ∃ v, v = p * 0x100000000000 + w * 0x2000000000 + t + d * 0x2000000 + a * 0x2000 + b * 0x2 + 0x60000000000 := ⟨_, rfl⟩
  rw [show encode (.vminI p w t d a b) = v from hv.symm]
  have hc : w = 0 ∨ w = 1 := by omega
  rcases hc with hc | hc
  · refine of_v (op := 48) (by omega) (by unfold fld; omega) ?_
    have e0 : fld v 47 44 = p := by unfold fld; omega
    have e1 : fld v 37 37 = w := by unfold fld; omega
    have e2 : fld v 0 0 = t := by unfold fld; omega
    have e3 : fld v 36 25 = d := by unfold fld; omega
    have e4 : fld v 24 13 = a := by unfold fld; omega
    have e5 : fld v 12 1 = b := by unfold fld; omega
    show decForm (true) (.vminI (fld v 47 44) (fld v 37 37) (fld v 0 0) (fld v 36 25) (fld v 24 13) (fld v 12 1)) = _
    rw [e0, e1, e2, e3, e4, e5]
    exact decForm_ok rfl hw
  · refine of_v (op := 49) (by omega) (by unfold fld; omega) ?_
    have e0 : fld v 47 44 = p := by unfold fld; omega
    have e1 : fld v 37 37 = w := by unfold fld; omega
    have e2 : fld v 0 0 = t := by unfold fld; omega
    have e3 : fld v 36 25 = d := by unfold fld; omega
    have e4 : fld v 24 13 = a := by unfold fld; omega
    have e5 : fld v 12 1 = b := by unfold fld; omega
    show decForm (true) (.vminI (fld v 47 44) (fld v 37 37) (fld v 0 0) (fld v 36 25) (fld v 24 13) (fld v 12 1)) = _
    rw [e0, e1, e2, e3, e4, e5]
    exact decForm_ok rfl hw

theorem vmaxI (p w t d a b : Nat) : Statement (.vmaxI p w t d a b) := by
  intro k h hw
  cases h
  have hb : p < 16 ∧ w < 2 ∧ t < 2 ∧ vopOk d = true ∧ vopOk a = true ∧ vopOk b = true := of_decide_eq_true hw
  obtain ⟨h0, h1, h2, h3, h4, h5⟩ := hb
  have gh3 := vopOk_lt h3
  have gh4 := vopOk_lt h4
  have gh5 := vopOk_lt h5
  obtain ⟨v, hv⟩ : ∃ v, v = p * 0x100000000000 + w * 0x2000000000 + t + d * 0x2000000 + a * 0x2000 + b * 0x2 + 0x64000000000 := ⟨_, rfl⟩
  rw [show encode (.vmaxI p w t d a b) = v from hv.symm]
  have hc : w = 0 ∨ w = 1 := by omega
  rcases hc with hc | hc
  · refine of_v (op := 50) (by omega) (by unfold fld; omega) ?_
    have e0 : fld v 47 44 = p := by unfold fld; omega
    have e1 : fld v 37 37 = w := by unfold fld; omega
    have e2 : fld v 0 0 = t := by unfold fld; omega
    have e3 : fld v 36 25 = d := by unfold fld; omega
    have e4 : fld v 24 13 = a := by unfold fld; omega
    have e5 : fld v 12 1 = b := by unfold fld; omega
    show decForm (true) (.vmaxI (fld v 47 44) (fld v 37 37) (fld v 0 0) (fld v 36 25) (fld v 24 13) (fld v 12 1)) = _
    rw [e0, e1, e2, e3, e4, e5]
    exact decForm_ok rfl hw
  · refine of_v (op := 51) (by omega) (by unfold fld; omega) ?_
    have e0 : fld v 47 44 = p := by unfold fld; omega
    have e1 : fld v 37 37 = w := by unfold fld; omega
    have e2 : fld v 0 0 = t := by unfold fld; omega
    have e3 : fld v 36 25 = d := by unfold fld; omega
    have e4 : fld v 24 13 = a := by unfold fld; omega
    have e5 : fld v 12 1 = b := by unfold fld; omega
    show decForm (true) (.vmaxI (fld v 47 44) (fld v 37 37) (fld v 0 0) (fld v 36 25) (fld v 24 13) (fld v 12 1)) = _
    rw [e0, e1, e2, e3, e4, e5]
    exact decForm_ok rfl hw

theorem vand (p w d a b : Nat) : Statement (.vand p w d a b) := by
  intro k h hw
  cases h
  have hb : p < 16 ∧ w < 2 ∧ vopOk d = true ∧ vopOk a = true ∧ vopOk b = true := of_decide_eq_true hw
  obtain ⟨h0, h1, h2, h3, h4⟩ := hb
  have gh2 := vopOk_lt h2
  have gh3 := vopOk_lt h3
  have gh4 := vopOk_lt h4
  obtain ⟨v, hv⟩ : ∃ v, v = p * 0x100000000000 + w * 0x2000000000 + d * 0x2000000 + a * 0x2000 + b * 0x2 + 0x68000000000 := ⟨_, rfl⟩
  rw [show encode (.vand p w d a b) = v from hv.symm]
  have hc : w = 0 ∨ w = 1 := by omega
  rcases hc with hc | hc
  · refine of_v (op := 52) (by omega) (by unfold fld; omega) ?_
    have e0 : fld v 47 44 = p := by unfold fld; omega
    have e1 : fld v 37 37 = w := by unfold fld; omega
    have e2 : fld v 36 25 = d := by unfold fld; omega
    have e3 : fld v 24 13 = a := by unfold fld; omega
    have e4 : fld v 12 1 = b := by unfold fld; omega
    have e5 : fld v 0 0 = 0 := by unfold fld; omega
    show decForm (fld v 0 0 == 0) (.vand (fld v 47 44) (fld v 37 37) (fld v 36 25) (fld v 24 13) (fld v 12 1)) = _
    rw [e0, e1, e2, e3, e4, e5]
    exact decForm_ok rfl hw
  · refine of_v (op := 53) (by omega) (by unfold fld; omega) ?_
    have e0 : fld v 47 44 = p := by unfold fld; omega
    have e1 : fld v 37 37 = w := by unfold fld; omega
    have e2 : fld v 36 25 = d := by unfold fld; omega
    have e3 : fld v 24 13 = a := by unfold fld; omega
    have e4 : fld v 12 1 = b := by unfold fld; omega
    have e5 : fld v 0 0 = 0 := by unfold fld; omega
    show decForm (fld v 0 0 == 0) (.vand (fld v 47 44) (fld v 37 37) (fld v 36 25) (fld v 24 13) (fld v 12 1)) = _
    rw [e0, e1, e2, e3, e4, e5]
    exact decForm_ok rfl hw

theorem vor (p w d a b : Nat) : Statement (.vor p w d a b) := by
  intro k h hw
  cases h
  have hb : p < 16 ∧ w < 2 ∧ vopOk d = true ∧ vopOk a = true ∧ vopOk b = true := of_decide_eq_true hw
  obtain ⟨h0, h1, h2, h3, h4⟩ := hb
  have gh2 := vopOk_lt h2
  have gh3 := vopOk_lt h3
  have gh4 := vopOk_lt h4
  obtain ⟨v, hv⟩ : ∃ v, v = p * 0x100000000000 + w * 0x2000000000 + d * 0x2000000 + a * 0x2000 + b * 0x2 + 0x6C000000000 := ⟨_, rfl⟩
  rw [show encode (.vor p w d a b) = v from hv.symm]
  have hc : w = 0 ∨ w = 1 := by omega
  rcases hc with hc | hc
  · refine of_v (op := 54) (by omega) (by unfold fld; omega) ?_
    have e0 : fld v 47 44 = p := by unfold fld; omega
    have e1 : fld v 37 37 = w := by unfold fld; omega
    have e2 : fld v 36 25 = d := by unfold fld; omega
    have e3 : fld v 24 13 = a := by unfold fld; omega
    have e4 : fld v 12 1 = b := by unfold fld; omega
    have e5 : fld v 0 0 = 0 := by unfold fld; omega
    show decForm (fld v 0 0 == 0) (.vor (fld v 47 44) (fld v 37 37) (fld v 36 25) (fld v 24 13) (fld v 12 1)) = _
    rw [e0, e1, e2, e3, e4, e5]
    exact decForm_ok rfl hw
  · refine of_v (op := 55) (by omega) (by unfold fld; omega) ?_
    have e0 : fld v 47 44 = p := by unfold fld; omega
    have e1 : fld v 37 37 = w := by unfold fld; omega
    have e2 : fld v 36 25 = d := by unfold fld; omega
    have e3 : fld v 24 13 = a := by unfold fld; omega
    have e4 : fld v 12 1 = b := by unfold fld; omega
    have e5 : fld v 0 0 = 0 := by unfold fld; omega
    show decForm (fld v 0 0 == 0) (.vor (fld v 47 44) (fld v 37 37) (fld v 36 25) (fld v 24 13) (fld v 12 1)) = _
    rw [e0, e1, e2, e3, e4, e5]
    exact decForm_ok rfl hw

theorem vxor (p w d a b : Nat) : Statement (.vxor p w d a b) := by
  intro k h hw
  cases h
  have hb : p < 16 ∧ w < 2 ∧ vopOk d = true ∧ vopOk a = true ∧ vopOk b = true := of_decide_eq_true hw
  obtain ⟨h0, h1, h2, h3, h4⟩ := hb
  have gh2 := vopOk_lt h2
  have gh3 := vopOk_lt h3
  have gh4 := vopOk_lt h4
  obtain ⟨v, hv⟩ : ∃ v, v = p * 0x100000000000 + w * 0x2000000000 + d * 0x2000000 + a * 0x2000 + b * 0x2 + 0x70000000000 := ⟨_, rfl⟩
  rw [show encode (.vxor p w d a b) = v from hv.symm]
  have hc : w = 0 ∨ w = 1 := by omega
  rcases hc with hc | hc
  · refine of_v (op := 56) (by omega) (by unfold fld; omega) ?_
    have e0 : fld v 47 44 = p := by unfold fld; omega
    have e1 : fld v 37 37 = w := by unfold fld; omega
    have e2 : fld v 36 25 = d := by unfold fld; omega
    have e3 : fld v 24 13 = a := by unfold fld; omega
    have e4 : fld v 12 1 = b := by unfold fld; omega
    have e5 : fld v 0 0 = 0 := by unfold fld; omega
    show decForm (fld v 0 0 == 0) (.vxor (fld v 47 44) (fld v 37 37) (fld v 36 25) (fld v 24 13) (fld v 12 1)) = _
    rw [e0, e1, e2, e3, e4, e5]
    exact decForm_ok rfl hw
  · refine of_v (op := 57) (by omega) (by unfold fld; omega) ?_
    have e0 : fld v 47 44 = p := by unfold fld; omega
    have e1 : fld v 37 37 = w := by unfold fld; omega
    have e2 : fld v 36 25 = d := by unfold fld; omega
    have e3 : fld v 24 13 = a := by unfold fld; omega
    have e4 : fld v 12 1 = b := by unfold fld; omega
    have e5 : fld v 0 0 = 0 := by unfold fld; omega
    show decForm (fld v 0 0 == 0) (.vxor (fld v 47 44) (fld v 37 37) (fld v 36 25) (fld v 24 13) (fld v 12 1)) = _
    rw [e0, e1, e2, e3, e4, e5]
    exact decForm_ok rfl hw

theorem vshl (p w d a b : Nat) : Statement (.vshl p w d a b) := by
  intro k h hw
  cases h
  have hb : p < 16 ∧ w < 2 ∧ vopOk d = true ∧ vopOk a = true ∧ vopOk b = true := of_decide_eq_true hw
  obtain ⟨h0, h1, h2, h3, h4⟩ := hb
  have gh2 := vopOk_lt h2
  have gh3 := vopOk_lt h3
  have gh4 := vopOk_lt h4
  obtain ⟨v, hv⟩ : ∃ v, v = p * 0x100000000000 + w * 0x2000000000 + d * 0x2000000 + a * 0x2000 + b * 0x2 + 0x74000000000 := ⟨_, rfl⟩
  rw [show encode (.vshl p w d a b) = v from hv.symm]
  have hc : w = 0 ∨ w = 1 := by omega
  rcases hc with hc | hc
  · refine of_v (op := 58) (by omega) (by unfold fld; omega) ?_
    have e0 : fld v 47 44 = p := by unfold fld; omega
    have e1 : fld v 37 37 = w := by unfold fld; omega
    have e2 : fld v 36 25 = d := by unfold fld; omega
    have e3 : fld v 24 13 = a := by unfold fld; omega
    have e4 : fld v 12 1 = b := by unfold fld; omega
    have e5 : fld v 0 0 = 0 := by unfold fld; omega
    show decForm (fld v 0 0 == 0) (.vshl (fld v 47 44) (fld v 37 37) (fld v 36 25) (fld v 24 13) (fld v 12 1)) = _
    rw [e0, e1, e2, e3, e4, e5]
    exact decForm_ok rfl hw
  · refine of_v (op := 59) (by omega) (by unfold fld; omega) ?_
    have e0 : fld v 47 44 = p := by unfold fld; omega
    have e1 : fld v 37 37 = w := by unfold fld; omega
    have e2 : fld v 36 25 = d := by unfold fld; omega
    have e3 : fld v 24 13 = a := by unfold fld; omega
    have e4 : fld v 12 1 = b := by unfold fld; omega
    have e5 : fld v 0 0 = 0 := by unfold fld; omega
    show decForm (fld v 0 0 == 0) (.vshl (fld v 47 44) (fld v 37 37) (fld v 36 25) (fld v 24 13) (fld v 12 1)) = _
    rw [e0, e1, e2, e3, e4, e5]
    exact decForm_ok rfl hw

theorem vshr (p w d a b : Nat) : Statement (.vshr p w d a b) := by
  intro k h hw
  cases h
  have hb : p < 16 ∧ w < 2 ∧ vopOk d = true ∧ vopOk a = true ∧ vopOk b = true := of_decide_eq_true hw
  obtain ⟨h0, h1, h2, h3, h4⟩ := hb
  have gh2 := vopOk_lt h2
  have gh3 := vopOk_lt h3
  have gh4 := vopOk_lt h4
  obtain ⟨v, hv⟩ : ∃ v, v = p * 0x100000000000 + w * 0x2000000000 + d * 0x2000000 + a * 0x2000 + b * 0x2 + 0x78000000000 := ⟨_, rfl⟩
  rw [show encode (.vshr p w d a b) = v from hv.symm]
  have hc : w = 0 ∨ w = 1 := by omega
  rcases hc with hc | hc
  · refine of_v (op := 60) (by omega) (by unfold fld; omega) ?_
    have e0 : fld v 47 44 = p := by unfold fld; omega
    have e1 : fld v 37 37 = w := by unfold fld; omega
    have e2 : fld v 36 25 = d := by unfold fld; omega
    have e3 : fld v 24 13 = a := by unfold fld; omega
    have e4 : fld v 12 1 = b := by unfold fld; omega
    have e5 : fld v 0 0 = 0 := by unfold fld; omega
    show decForm (fld v 0 0 == 0) (.vshr (fld v 47 44) (fld v 37 37) (fld v 36 25) (fld v 24 13) (fld v 12 1)) = _
    rw [e0, e1, e2, e3, e4, e5]
    exact decForm_ok rfl hw
  · refine of_v (op := 61) (by omega) (by unfold fld; omega) ?_
    have e0 : fld v 47 44 = p := by unfold fld; omega
    have e1 : fld v 37 37 = w := by unfold fld; omega
    have e2 : fld v 36 25 = d := by unfold fld; omega
    have e3 : fld v 24 13 = a := by unfold fld; omega
    have e4 : fld v 12 1 = b := by unfold fld; omega
    have e5 : fld v 0 0 = 0 := by unfold fld; omega
    show decForm (fld v 0 0 == 0) (.vshr (fld v 47 44) (fld v 37 37) (fld v 36 25) (fld v 24 13) (fld v 12 1)) = _
    rw [e0, e1, e2, e3, e4, e5]
    exact decForm_ok rfl hw

theorem vsra (p w d a b : Nat) : Statement (.vsra p w d a b) := by
  intro k h hw
  cases h
  have hb : p < 16 ∧ w < 2 ∧ vopOk d = true ∧ vopOk a = true ∧ vopOk b = true := of_decide_eq_true hw
  obtain ⟨h0, h1, h2, h3, h4⟩ := hb
  have gh2 := vopOk_lt h2
  have gh3 := vopOk_lt h3
  have gh4 := vopOk_lt h4
  obtain ⟨v, hv⟩ : ∃ v, v = p * 0x100000000000 + w * 0x2000000000 + d * 0x2000000 + a * 0x2000 + b * 0x2 + 0x7C000000000 := ⟨_, rfl⟩
  rw [show encode (.vsra p w d a b) = v from hv.symm]
  have hc : w = 0 ∨ w = 1 := by omega
  rcases hc with hc | hc
  · refine of_v (op := 62) (by omega) (by unfold fld; omega) ?_
    have e0 : fld v 47 44 = p := by unfold fld; omega
    have e1 : fld v 37 37 = w := by unfold fld; omega
    have e2 : fld v 36 25 = d := by unfold fld; omega
    have e3 : fld v 24 13 = a := by unfold fld; omega
    have e4 : fld v 12 1 = b := by unfold fld; omega
    have e5 : fld v 0 0 = 0 := by unfold fld; omega
    show decForm (fld v 0 0 == 0) (.vsra (fld v 47 44) (fld v 37 37) (fld v 36 25) (fld v 24 13) (fld v 12 1)) = _
    rw [e0, e1, e2, e3, e4, e5]
    exact decForm_ok rfl hw
  · refine of_v (op := 63) (by omega) (by unfold fld; omega) ?_
    have e0 : fld v 47 44 = p := by unfold fld; omega
    have e1 : fld v 37 37 = w := by unfold fld; omega
    have e2 : fld v 36 25 = d := by unfold fld; omega
    have e3 : fld v 24 13 = a := by unfold fld; omega
    have e4 : fld v 12 1 = b := by unfold fld; omega
    have e5 : fld v 0 0 = 0 := by unfold fld; omega
    show decForm (fld v 0 0 == 0) (.vsra (fld v 47 44) (fld v 37 37) (fld v 36 25) (fld v 24 13) (fld v 12 1)) = _
    rw [e0, e1, e2, e3, e4, e5]
    exact decForm_ok rfl hw

theorem vcmpEqI (p w d a b : Nat) : Statement (.vcmpEqI p w d a b) := by
  intro k h hw
  cases h
  have hb : p < 16 ∧ w < 2 ∧ vopOk d = true ∧ vopOk a = true ∧ vopOk b = true := of_decide_eq_true hw
  obtain ⟨h0, h1, h2, h3, h4⟩ := hb
  have gh2 := vopOk_lt h2
  have gh3 := vopOk_lt h3
  have gh4 := vopOk_lt h4
  obtain ⟨v, hv⟩ : ∃ v, v = p * 0x100000000000 + w * 0x2000000000 + d * 0x2000000 + a * 0x2000 + b * 0x2 + 0x80000000000 := ⟨_, rfl⟩
  rw [show encode (.vcmpEqI p w d a b) = v from hv.symm]
  have hc : w = 0 ∨ w = 1 := by omega
  rcases hc with hc | hc
  · refine of_v (op := 64) (by omega) (by unfold fld; omega) ?_
    have e0 : fld v 47 44 = p := by unfold fld; omega
    have e1 : fld v 37 37 = w := by unfold fld; omega
    have e2 : fld v 36 25 = d := by unfold fld; omega
    have e3 : fld v 24 13 = a := by unfold fld; omega
    have e4 : fld v 12 1 = b := by unfold fld; omega
    have e5 : fld v 0 0 = 0 := by unfold fld; omega
    show decForm (fld v 0 0 == 0) (.vcmpEqI (fld v 47 44) (fld v 37 37) (fld v 36 25) (fld v 24 13) (fld v 12 1)) = _
    rw [e0, e1, e2, e3, e4, e5]
    exact decForm_ok rfl hw
  · refine of_v (op := 65) (by omega) (by unfold fld; omega) ?_
    have e0 : fld v 47 44 = p := by unfold fld; omega
    have e1 : fld v 37 37 = w := by unfold fld; omega
    have e2 : fld v 36 25 = d := by unfold fld; omega
    have e3 : fld v 24 13 = a := by unfold fld; omega
    have e4 : fld v 12 1 = b := by unfold fld; omega
    have e5 : fld v 0 0 = 0 := by unfold fld; omega
    show decForm (fld v 0 0 == 0) (.vcmpEqI (fld v 47 44) (fld v 37 37) (fld v 36 25) (fld v 24 13) (fld v 12 1)) = _
    rw [e0, e1, e2, e3, e4, e5]
    exact decForm_ok rfl hw

theorem vcmpLtI (p w d a b : Nat) : Statement (.vcmpLtI p w d a b) := by
  intro k h hw
  cases h
  have hb : p < 16 ∧ w < 2 ∧ vopOk d = true ∧ vopOk a = true ∧ vopOk b = true := of_decide_eq_true hw
  obtain ⟨h0, h1, h2, h3, h4⟩ := hb
  have gh2 := vopOk_lt h2
  have gh3 := vopOk_lt h3
  have gh4 := vopOk_lt h4
  obtain ⟨v, hv⟩ : ∃ v, v = p * 0x100000000000 + w * 0x2000000000 + d * 0x2000000 + a * 0x2000 + b * 0x2 + 0x84000000000 := ⟨_, rfl⟩
  rw [show encode (.vcmpLtI p w d a b) = v from hv.symm]
  have hc : w = 0 ∨ w = 1 := by omega
  rcases hc with hc | hc
  · refine of_v (op := 66) (by omega) (by unfold fld; omega) ?_
    have e0 : fld v 47 44 = p := by unfold fld; omega
    have e1 : fld v 37 37 = w := by unfold fld; omega
    have e2 : fld v 36 25 = d := by unfold fld; omega
    have e3 : fld v 24 13 = a := by unfold fld; omega
    have e4 : fld v 12 1 = b := by unfold fld; omega
    have e5 : fld v 0 0 = 0 := by unfold fld; omega
    show decForm (fld v 0 0 == 0) (.vcmpLtI (fld v 47 44) (fld v 37 37) (fld v 36 25) (fld v 24 13) (fld v 12 1)) = _
    rw [e0, e1, e2, e3, e4, e5]
    exact decForm_ok rfl hw
  · refine of_v (op := 67) (by omega) (by unfold fld; omega) ?_
    have e0 : fld v 47 44 = p := by unfold fld; omega
    have e1 : fld v 37 37 = w := by unfold fld; omega
    have e2 : fld v 36 25 = d := by unfold fld; omega
    have e3 : fld v 24 13 = a := by unfold fld; omega
    have e4 : fld v 12 1 = b := by unfold fld; omega
    have e5 : fld v 0 0 = 0 := by unfold fld; omega
    show decForm (fld v 0 0 == 0) (.vcmpLtI (fld v 47 44) (fld v 37 37) (fld v 36 25) (fld v 24 13) (fld v 12 1)) = _
    rw [e0, e1, e2, e3, e4, e5]
    exact decForm_ok rfl hw

theorem vrsumI (p w t d a : Nat) : Statement (.vrsumI p w t d a) := by
  intro k h hw
  cases h
  have hb : p < 16 ∧ w < 2 ∧ t < 2 ∧ vopOk d = true ∧ vopOk a = true := of_decide_eq_true hw
  obtain ⟨h0, h1, h2, h3, h4⟩ := hb
  have gh3 := vopOk_lt h3
  have gh4 := vopOk_lt h4
  obtain ⟨v, hv⟩ : ∃ v, v = p * 0x100000000000 + w * 0x2000000000 + t + d * 0x2000000 + a * 0x2000 + 0x88000000000 := ⟨_, rfl⟩
  rw [show encode (.vrsumI p w t d a) = v from hv.symm]
  have hc : w = 0 ∨ w = 1 := by omega
  rcases hc with hc | hc
  · refine of_v (op := 68) (by omega) (by unfold fld; omega) ?_
    have e0 : fld v 47 44 = p := by unfold fld; omega
    have e1 : fld v 37 37 = w := by unfold fld; omega
    have e2 : fld v 0 0 = t := by unfold fld; omega
    have e3 : fld v 36 25 = d := by unfold fld; omega
    have e4 : fld v 24 13 = a := by unfold fld; omega
    have e5 : fld v 12 1 = 0 := by unfold fld; omega
    show decForm (fld v 12 1 == 0) (.vrsumI (fld v 47 44) (fld v 37 37) (fld v 0 0) (fld v 36 25) (fld v 24 13)) = _
    rw [e0, e1, e2, e3, e4, e5]
    exact decForm_ok rfl hw
  · refine of_v (op := 69) (by omega) (by unfold fld; omega) ?_
    have e0 : fld v 47 44 = p := by unfold fld; omega
    have e1 : fld v 37 37 = w := by unfold fld; omega
    have e2 : fld v 0 0 = t := by unfold fld; omega
    have e3 : fld v 36 25 = d := by unfold fld; omega
    have e4 : fld v 24 13 = a := by unfold fld; omega
    have e5 : fld v 12 1 = 0 := by unfold fld; omega
    show decForm (fld v 12 1 == 0) (.vrsumI (fld v 47 44) (fld v 37 37) (fld v 0 0) (fld v 36 25) (fld v 24 13)) = _
    rw [e0, e1, e2, e3, e4, e5]
    exact decForm_ok rfl hw

theorem vsel (p w d a b : Nat) : Statement (.vsel p w d a b) := by
  intro k h hw
  cases h
  have hb : p < 16 ∧ w < 2 ∧ vopOk d = true ∧ vopOk a = true ∧ vopOk b = true := of_decide_eq_true hw
  obtain ⟨h0, h1, h2, h3, h4⟩ := hb
  have gh2 := vopOk_lt h2
  have gh3 := vopOk_lt h3
  have gh4 := vopOk_lt h4
  obtain ⟨v, hv⟩ : ∃ v, v = p * 0x100000000000 + w * 0x2000000000 + d * 0x2000000 + a * 0x2000 + b * 0x2 + 0x8C000000000 := ⟨_, rfl⟩
  rw [show encode (.vsel p w d a b) = v from hv.symm]
  have hc : w = 0 ∨ w = 1 := by omega
  rcases hc with hc | hc
  · refine of_v (op := 70) (by omega) (by unfold fld; omega) ?_
    have e0 : fld v 47 44 = p := by unfold fld; omega
    have e1 : fld v 37 37 = w := by unfold fld; omega
    have e2 : fld v 36 25 = d := by unfold fld; omega
    have e3 : fld v 24 13 = a := by unfold fld; omega
    have e4 : fld v 12 1 = b := by unfold fld; omega
    have e5 : fld v 0 0 = 0 := by unfold fld; omega
    show decForm (fld v 0 0 == 0) (.vsel (fld v 47 44) (fld v 37 37) (fld v 36 25) (fld v 24 13) (fld v 12 1)) = _
    rw [e0, e1, e2, e3, e4, e5]
    exact decForm_ok rfl hw
  · refine of_v (op := 71) (by omega) (by unfold fld; omega) ?_
    have e0 : fld v 47 44 = p := by unfold fld; omega
    have e1 : fld v 37 37 = w := by unfold fld; omega
    have e2 : fld v 36 25 = d := by unfold fld; omega
    have e3 : fld v 24 13 = a := by unfold fld; omega
    have e4 : fld v 12 1 = b := by unfold fld; omega
    have e5 : fld v 0 0 = 0 := by unfold fld; omega
    show decForm (fld v 0 0 == 0) (.vsel (fld v 47 44) (fld v 37 37) (fld v 36 25) (fld v 24 13) (fld v 12 1)) = _
    rw [e0, e1, e2, e3, e4, e5]
    exact decForm_ok rfl hw

theorem vmov (p w d a : Nat) : Statement (.vmov p w d a) := by
  intro k h hw
  cases h
  have hb : p < 16 ∧ w < 2 ∧ vopOk d = true ∧ vopOk a = true := of_decide_eq_true hw
  obtain ⟨h0, h1, h2, h3⟩ := hb
  have gh2 := vopOk_lt h2
  have gh3 := vopOk_lt h3
  obtain ⟨v, hv⟩ : ∃ v, v = p * 0x100000000000 + w * 0x2000000000 + d * 0x2000000 + a * 0x2000 + 0x90000000000 := ⟨_, rfl⟩
  rw [show encode (.vmov p w d a) = v from hv.symm]
  have hc : w = 0 ∨ w = 1 := by omega
  rcases hc with hc | hc
  · refine of_v (op := 72) (by omega) (by unfold fld; omega) ?_
    have e0 : fld v 47 44 = p := by unfold fld; omega
    have e1 : fld v 37 37 = w := by unfold fld; omega
    have e2 : fld v 36 25 = d := by unfold fld; omega
    have e3 : fld v 24 13 = a := by unfold fld; omega
    have e4 : fld v 12 0 = 0 := by unfold fld; omega
    show decForm (fld v 12 0 == 0) (.vmov (fld v 47 44) (fld v 37 37) (fld v 36 25) (fld v 24 13)) = _
    rw [e0, e1, e2, e3, e4]
    exact decForm_ok rfl hw
  · refine of_v (op := 73) (by omega) (by unfold fld; omega) ?_
    have e0 : fld v 47 44 = p := by unfold fld; omega
    have e1 : fld v 37 37 = w := by unfold fld; omega
    have e2 : fld v 36 25 = d := by unfold fld; omega
    have e3 : fld v 24 13 = a := by unfold fld; omega
    have e4 : fld v 12 0 = 0 := by unfold fld; omega
    show decForm (fld v 12 0 == 0) (.vmov (fld v 47 44) (fld v 37 37) (fld v 36 25) (fld v 24 13)) = _
    rw [e0, e1, e2, e3, e4]
    exact decForm_ok rfl hw

theorem vbcast (p w d a n : Nat) : Statement (.vbcast p w d a n) := by
  intro k h hw
  cases h
  have hb : p < 16 ∧ w < 2 ∧ n < 256 ∧ vopOk d = true ∧ vopOk a = true ∧ (w = 1 ∨ n < 128) := of_decide_eq_true hw
  obtain ⟨h0, h1, h2, h3, h4, h5⟩ := hb
  have gh3 := vopOk_lt h3
  have gh4 := vopOk_lt h4
  obtain ⟨v, hv⟩ : ∃ v, v = p * 0x100000000000 + w * 0x2000000000 + d * 0x2000000 + a * 0x2000 + n * 0x2 + 0x94000000000 := ⟨_, rfl⟩
  rw [show encode (.vbcast p w d a n) = v from hv.symm]
  have hc : w = 0 ∨ w = 1 := by omega
  rcases hc with hc | hc
  · refine of_v (op := 74) (by omega) (by unfold fld; omega) ?_
    have e0 : fld v 47 44 = p := by unfold fld; omega
    have e1 : fld v 37 37 = w := by unfold fld; omega
    have e2 : fld v 36 25 = d := by unfold fld; omega
    have e3 : fld v 24 13 = a := by unfold fld; omega
    have e4 : fld v 8 1 = n := by unfold fld; omega
    have e5 : fld v 12 9 = 0 := by unfold fld; omega
    have e6 : fld v 0 0 = 0 := by unfold fld; omega
    show decForm (fld v 12 9 == 0 && fld v 0 0 == 0) (.vbcast (fld v 47 44) (fld v 37 37) (fld v 36 25) (fld v 24 13) (fld v 8 1)) = _
    rw [e0, e1, e2, e3, e4, e5, e6]
    exact decForm_ok rfl hw
  · refine of_v (op := 75) (by omega) (by unfold fld; omega) ?_
    have e0 : fld v 47 44 = p := by unfold fld; omega
    have e1 : fld v 37 37 = w := by unfold fld; omega
    have e2 : fld v 36 25 = d := by unfold fld; omega
    have e3 : fld v 24 13 = a := by unfold fld; omega
    have e4 : fld v 8 1 = n := by unfold fld; omega
    have e5 : fld v 12 9 = 0 := by unfold fld; omega
    have e6 : fld v 0 0 = 0 := by unfold fld; omega
    show decForm (fld v 12 9 == 0 && fld v 0 0 == 0) (.vbcast (fld v 47 44) (fld v 37 37) (fld v 36 25) (fld v 24 13) (fld v 8 1)) = _
    rw [e0, e1, e2, e3, e4, e5, e6]
    exact decForm_ok rfl hw

theorem vperm (p w d a b : Nat) : Statement (.vperm p w d a b) := by
  intro k h hw
  cases h
  have hb : p < 16 ∧ w < 2 ∧ vopOk d = true ∧ vopOk a = true ∧ vopOk b = true := of_decide_eq_true hw
  obtain ⟨h0, h1, h2, h3, h4⟩ := hb
  have gh2 := vopOk_lt h2
  have gh3 := vopOk_lt h3
  have gh4 := vopOk_lt h4
  obtain ⟨v, hv⟩ : ∃ v, v = p * 0x100000000000 + w * 0x2000000000 + d * 0x2000000 + a * 0x2000 + b * 0x2 + 0x98000000000 := ⟨_, rfl⟩
  rw [show encode (.vperm p w d a b) = v from hv.symm]
  have hc : w = 0 ∨ w = 1 := by omega
  rcases hc with hc | hc
  · refine of_v (op := 76) (by omega) (by unfold fld; omega) ?_
    have e0 : fld v 47 44 = p := by unfold fld; omega
    have e1 : fld v 37 37 = w := by unfold fld; omega
    have e2 : fld v 36 25 = d := by unfold fld; omega
    have e3 : fld v 24 13 = a := by unfold fld; omega
    have e4 : fld v 12 1 = b := by unfold fld; omega
    have e5 : fld v 0 0 = 0 := by unfold fld; omega
    show decForm (fld v 0 0 == 0) (.vperm (fld v 47 44) (fld v 37 37) (fld v 36 25) (fld v 24 13) (fld v 12 1)) = _
    rw [e0, e1, e2, e3, e4, e5]
    exact decForm_ok rfl hw
  · refine of_v (op := 77) (by omega) (by unfold fld; omega) ?_
    have e0 : fld v 47 44 = p := by unfold fld; omega
    have e1 : fld v 37 37 = w := by unfold fld; omega
    have e2 : fld v 36 25 = d := by unfold fld; omega
    have e3 : fld v 24 13 = a := by unfold fld; omega
    have e4 : fld v 12 1 = b := by unfold fld; omega
    have e5 : fld v 0 0 = 0 := by unfold fld; omega
    show decForm (fld v 0 0 == 0) (.vperm (fld v 47 44) (fld v 37 37) (fld v 36 25) (fld v 24 13) (fld v 12 1)) = _
    rw [e0, e1, e2, e3, e4, e5]
    exact decForm_ok rfl hw

theorem vrot (p w d a n : Nat) : Statement (.vrot p w d a n) := by
  intro k h hw
  cases h
  have hb : p < 16 ∧ w < 2 ∧ n < 256 ∧ vopOk d = true ∧ vopOk a = true ∧ (w = 1 ∨ n < 128) := of_decide_eq_true hw
  obtain ⟨h0, h1, h2, h3, h4, h5⟩ := hb
  have gh3 := vopOk_lt h3
  have gh4 := vopOk_lt h4
  obtain ⟨v, hv⟩ : ∃ v, v = p * 0x100000000000 + w * 0x2000000000 + d * 0x2000000 + a * 0x2000 + n * 0x2 + 0x9C000000000 := ⟨_, rfl⟩
  rw [show encode (.vrot p w d a n) = v from hv.symm]
  have hc : w = 0 ∨ w = 1 := by omega
  rcases hc with hc | hc
  · refine of_v (op := 78) (by omega) (by unfold fld; omega) ?_
    have e0 : fld v 47 44 = p := by unfold fld; omega
    have e1 : fld v 37 37 = w := by unfold fld; omega
    have e2 : fld v 36 25 = d := by unfold fld; omega
    have e3 : fld v 24 13 = a := by unfold fld; omega
    have e4 : fld v 8 1 = n := by unfold fld; omega
    have e5 : fld v 12 9 = 0 := by unfold fld; omega
    have e6 : fld v 0 0 = 0 := by unfold fld; omega
    show decForm (fld v 12 9 == 0 && fld v 0 0 == 0) (.vrot (fld v 47 44) (fld v 37 37) (fld v 36 25) (fld v 24 13) (fld v 8 1)) = _
    rw [e0, e1, e2, e3, e4, e5, e6]
    exact decForm_ok rfl hw
  · refine of_v (op := 79) (by omega) (by unfold fld; omega) ?_
    have e0 : fld v 47 44 = p := by unfold fld; omega
    have e1 : fld v 37 37 = w := by unfold fld; omega
    have e2 : fld v 36 25 = d := by unfold fld; omega
    have e3 : fld v 24 13 = a := by unfold fld; omega
    have e4 : fld v 8 1 = n := by unfold fld; omega
    have e5 : fld v 12 9 = 0 := by unfold fld; omega
    have e6 : fld v 0 0 = 0 := by unfold fld; omega
    show decForm (fld v 12 9 == 0 && fld v 0 0 == 0) (.vrot (fld v 47 44) (fld v 37 37) (fld v 36 25) (fld v 24 13) (fld v 8 1)) = _
    rw [e0, e1, e2, e3, e4, e5, e6]
    exact decForm_ok rfl hw

theorem vrev (p w d a : Nat) : Statement (.vrev p w d a) := by
  intro k h hw
  cases h
  have hb : p < 16 ∧ w < 2 ∧ vopOk d = true ∧ vopOk a = true := of_decide_eq_true hw
  obtain ⟨h0, h1, h2, h3⟩ := hb
  have gh2 := vopOk_lt h2
  have gh3 := vopOk_lt h3
  obtain ⟨v, hv⟩ : ∃ v, v = p * 0x100000000000 + w * 0x2000000000 + d * 0x2000000 + a * 0x2000 + 0xA0000000000 := ⟨_, rfl⟩
  rw [show encode (.vrev p w d a) = v from hv.symm]
  have hc : w = 0 ∨ w = 1 := by omega
  rcases hc with hc | hc
  · refine of_v (op := 80) (by omega) (by unfold fld; omega) ?_
    have e0 : fld v 47 44 = p := by unfold fld; omega
    have e1 : fld v 37 37 = w := by unfold fld; omega
    have e2 : fld v 36 25 = d := by unfold fld; omega
    have e3 : fld v 24 13 = a := by unfold fld; omega
    have e4 : fld v 12 0 = 0 := by unfold fld; omega
    show decForm (fld v 12 0 == 0) (.vrev (fld v 47 44) (fld v 37 37) (fld v 36 25) (fld v 24 13)) = _
    rw [e0, e1, e2, e3, e4]
    exact decForm_ok rfl hw
  · refine of_v (op := 81) (by omega) (by unfold fld; omega) ?_
    have e0 : fld v 47 44 = p := by unfold fld; omega
    have e1 : fld v 37 37 = w := by unfold fld; omega
    have e2 : fld v 36 25 = d := by unfold fld; omega
    have e3 : fld v 24 13 = a := by unfold fld; omega
    have e4 : fld v 12 0 = 0 := by unfold fld; omega
    show decForm (fld v 12 0 == 0) (.vrev (fld v 47 44) (fld v 37 37) (fld v 36 25) (fld v 24 13)) = _
    rw [e0, e1, e2, e3, e4]
    exact decForm_ok rfl hw

theorem vcvtN (p t d a h r : Nat) : Statement (.vcvtN p t d a h r) := by
  intro k h hw
  cases h
  have hb : p < 16 ∧ t < 2 ∧ h < 2 ∧ vopOk d = true ∧ vopOk a = true ∧ r < 6 := of_decide_eq_true hw
  obtain ⟨h0, h1, h2, h3, h4, h5⟩ := hb
  have gh3 := vopOk_lt h3
  have gh4 := vopOk_lt h4
  obtain ⟨v, hv⟩ : ∃ v, v = p * 0x100000000000 + t + d * 0x2000000 + a * 0x2000 + h * 0x10 + r * 0x2 + 0xA4000000000 := ⟨_, rfl⟩
  rw [show encode (.vcvtN p t d a h r) = v from hv.symm]
  refine of_v (op := 82) (by omega) (by unfold fld; omega) ?_
  have e0 : fld v 47 44 = p := by unfold fld; omega
  have e1 : fld v 0 0 = t := by unfold fld; omega
  have e2 : fld v 36 25 = d := by unfold fld; omega
  have e3 : fld v 24 13 = a := by unfold fld; omega
  have e4 : fld v 4 4 = h := by unfold fld; omega
  have e5 : fld v 3 1 = r := by unfold fld; omega
  have e6 : fld v 12 5 = 0 := by unfold fld; omega
  show decForm (fld v 12 5 == 0) (.vcvtN (fld v 47 44) (fld v 0 0) (fld v 36 25) (fld v 24 13) (fld v 4 4) (fld v 3 1)) = _
  rw [e0, e1, e2, e3, e4, e5, e6]
  exact decForm_ok rfl hw

theorem vcvtW (p t d a h : Nat) : Statement (.vcvtW p t d a h) := by
  intro k h hw
  cases h
  have hb : p < 16 ∧ t < 2 ∧ h < 2 ∧ vopOk d = true ∧ vopOk a = true := of_decide_eq_true hw
  obtain ⟨h0, h1, h2, h3, h4⟩ := hb
  have gh3 := vopOk_lt h3
  have gh4 := vopOk_lt h4
  obtain ⟨v, hv⟩ : ∃ v, v = p * 0x100000000000 + t + d * 0x2000000 + a * 0x2000 + h * 0x10 + 0xA6000000000 := ⟨_, rfl⟩
  rw [show encode (.vcvtW p t d a h) = v from hv.symm]
  refine of_v (op := 83) (by omega) (by unfold fld; omega) ?_
  have e0 : fld v 47 44 = p := by unfold fld; omega
  have e1 : fld v 0 0 = t := by unfold fld; omega
  have e2 : fld v 36 25 = d := by unfold fld; omega
  have e3 : fld v 24 13 = a := by unfold fld; omega
  have e4 : fld v 4 4 = h := by unfold fld; omega
  have e5 : fld v 12 5 = 0 := by unfold fld; omega
  have e6 : fld v 3 1 = 0 := by unfold fld; omega
  show decForm (fld v 12 5 == 0 && fld v 3 1 == 0) (.vcvtW (fld v 47 44) (fld v 0 0) (fld v 36 25) (fld v 24 13) (fld v 4 4)) = _
  rw [e0, e1, e2, e3, e4, e5, e6]
  exact decForm_ok rfl hw

theorem vcvtFi (p w t d a r : Nat) : Statement (.vcvtFi p w t d a r) := by
  intro k h hw
  cases h
  have hb : p < 16 ∧ w < 2 ∧ t < 2 ∧ vopOk d = true ∧ vopOk a = true ∧ (w = 1 ∨ t = 0) ∧ r < 6 := of_decide_eq_true hw
  obtain ⟨h0, h1, h2, h3, h4, h5, h6⟩ := hb
  have gh3 := vopOk_lt h3
  have gh4 := vopOk_lt h4
  obtain ⟨v, hv⟩ : ∃ v, v = p * 0x100000000000 + w * 0x2000000000 + t + d * 0x2000000 + a * 0x2000 + r * 0x2 + 0xA8000000000 := ⟨_, rfl⟩
  rw [show encode (.vcvtFi p w t d a r) = v from hv.symm]
  have hc : w = 0 ∨ w = 1 := by omega
  rcases hc with hc | hc
  · refine of_v (op := 84) (by omega) (by unfold fld; omega) ?_
    have e0 : fld v 47 44 = p := by unfold fld; omega
    have e1 : fld v 37 37 = w := by unfold fld; omega
    have e2 : fld v 0 0 = t := by unfold fld; omega
    have e3 : fld v 36 25 = d := by unfold fld; omega
    have e4 : fld v 24 13 = a := by unfold fld; omega
    have e5 : fld v 3 1 = r := by unfold fld; omega
    have e6 : fld v 12 4 = 0 := by unfold fld; omega
    show decForm (fld v 12 4 == 0) (.vcvtFi (fld v 47 44) (fld v 37 37) (fld v 0 0) (fld v 36 25) (fld v 24 13) (fld v 3 1)) = _
    rw [e0, e1, e2, e3, e4, e5, e6]
    exact decForm_ok rfl hw
  · refine of_v (op := 85) (by omega) (by unfold fld; omega) ?_
    have e0 : fld v 47 44 = p := by unfold fld; omega
    have e1 : fld v 37 37 = w := by unfold fld; omega
    have e2 : fld v 0 0 = t := by unfold fld; omega
    have e3 : fld v 36 25 = d := by unfold fld; omega
    have e4 : fld v 24 13 = a := by unfold fld; omega
    have e5 : fld v 3 1 = r := by unfold fld; omega
    have e6 : fld v 12 4 = 0 := by unfold fld; omega
    show decForm (fld v 12 4 == 0) (.vcvtFi (fld v 47 44) (fld v 37 37) (fld v 0 0) (fld v 36 25) (fld v 24 13) (fld v 3 1)) = _
    rw [e0, e1, e2, e3, e4, e5, e6]
    exact decForm_ok rfl hw

theorem vcvtIf (p w t d a r : Nat) : Statement (.vcvtIf p w t d a r) := by
  intro k h hw
  cases h
  have hb : p < 16 ∧ w < 2 ∧ t < 2 ∧ vopOk d = true ∧ vopOk a = true ∧ (w = 1 ∨ t = 0) ∧ r < 6 := of_decide_eq_true hw
  obtain ⟨h0, h1, h2, h3, h4, h5, h6⟩ := hb
  have gh3 := vopOk_lt h3
  have gh4 := vopOk_lt h4
  obtain ⟨v, hv⟩ : ∃ v, v = p * 0x100000000000 + w * 0x2000000000 + t + d * 0x2000000 + a * 0x2000 + r * 0x2 + 0xAC000000000 := ⟨_, rfl⟩
  rw [show encode (.vcvtIf p w t d a r) = v from hv.symm]
  have hc : w = 0 ∨ w = 1 := by omega
  rcases hc with hc | hc
  · refine of_v (op := 86) (by omega) (by unfold fld; omega) ?_
    have e0 : fld v 47 44 = p := by unfold fld; omega
    have e1 : fld v 37 37 = w := by unfold fld; omega
    have e2 : fld v 0 0 = t := by unfold fld; omega
    have e3 : fld v 36 25 = d := by unfold fld; omega
    have e4 : fld v 24 13 = a := by unfold fld; omega
    have e5 : fld v 3 1 = r := by unfold fld; omega
    have e6 : fld v 12 4 = 0 := by unfold fld; omega
    show decForm (fld v 12 4 == 0) (.vcvtIf (fld v 47 44) (fld v 37 37) (fld v 0 0) (fld v 36 25) (fld v 24 13) (fld v 3 1)) = _
    rw [e0, e1, e2, e3, e4, e5, e6]
    exact decForm_ok rfl hw
  · refine of_v (op := 87) (by omega) (by unfold fld; omega) ?_
    have e0 : fld v 47 44 = p := by unfold fld; omega
    have e1 : fld v 37 37 = w := by unfold fld; omega
    have e2 : fld v 0 0 = t := by unfold fld; omega
    have e3 : fld v 36 25 = d := by unfold fld; omega
    have e4 : fld v 24 13 = a := by unfold fld; omega
    have e5 : fld v 3 1 = r := by unfold fld; omega
    have e6 : fld v 12 4 = 0 := by unfold fld; omega
    show decForm (fld v 12 4 == 0) (.vcvtIf (fld v 47 44) (fld v 37 37) (fld v 0 0) (fld v 36 25) (fld v 24 13) (fld v 3 1)) = _
    rw [e0, e1, e2, e3, e4, e5, e6]
    exact decForm_ok rfl hw

theorem vcvtNi (p d a h : Nat) : Statement (.vcvtNi p d a h) := by
  intro k h hw
  cases h
  have hb : p < 16 ∧ h < 2 ∧ vopOk d = true ∧ vopOk a = true := of_decide_eq_true hw
  obtain ⟨h0, h1, h2, h3⟩ := hb
  have gh2 := vopOk_lt h2
  have gh3 := vopOk_lt h3
  obtain ⟨v, hv⟩ : ∃ v, v = p * 0x100000000000 + d * 0x2000000 + a * 0x2000 + h * 0x10 + 0xB0000000000 := ⟨_, rfl⟩
  rw [show encode (.vcvtNi p d a h) = v from hv.symm]
  refine of_v (op := 88) (by omega) (by unfold fld; omega) ?_
  have e0 : fld v 47 44 = p := by unfold fld; omega
  have e1 : fld v 36 25 = d := by unfold fld; omega
  have e2 : fld v 24 13 = a := by unfold fld; omega
  have e3 : fld v 4 4 = h := by unfold fld; omega
  have e4 : fld v 12 5 = 0 := by unfold fld; omega
  have e5 : fld v 3 0 = 0 := by unfold fld; omega
  show decForm (fld v 12 5 == 0 && fld v 3 0 == 0) (.vcvtNi (fld v 47 44) (fld v 36 25) (fld v 24 13) (fld v 4 4)) = _
  rw [e0, e1, e2, e3, e4, e5]
  exact decForm_ok rfl hw

theorem vcvtWi (p d a h : Nat) : Statement (.vcvtWi p d a h) := by
  intro k h hw
  cases h
  have hb : p < 16 ∧ h < 2 ∧ vopOk d = true ∧ vopOk a = true := of_decide_eq_true hw
  obtain ⟨h0, h1, h2, h3⟩ := hb
  have gh2 := vopOk_lt h2
  have gh3 := vopOk_lt h3
  obtain ⟨v, hv⟩ : ∃ v, v = p * 0x100000000000 + d * 0x2000000 + a * 0x2000 + h * 0x10 + 0xB2000000000 := ⟨_, rfl⟩
  rw [show encode (.vcvtWi p d a h) = v from hv.symm]
  refine of_v (op := 89) (by omega) (by unfold fld; omega) ?_
  have e0 : fld v 47 44 = p := by unfold fld; omega
  have e1 : fld v 36 25 = d := by unfold fld; omega
  have e2 : fld v 24 13 = a := by unfold fld; omega
  have e3 : fld v 4 4 = h := by unfold fld; omega
  have e4 : fld v 12 5 = 0 := by unfold fld; omega
  have e5 : fld v 3 0 = 0 := by unfold fld; omega
  show decForm (fld v 12 5 == 0 && fld v 3 0 == 0) (.vcvtWi (fld v 47 44) (fld v 36 25) (fld v 24 13) (fld v 4 4)) = _
  rw [e0, e1, e2, e3, e4, e5]
  exact decForm_ok rfl hw

theorem resultLand (c : Nat) : Statement (.resultLand c) := fun _ h _ => nomatch h

theorem pNop (p : Nat) : Statement (.pNop p) := by
  intro k h hw
  cases h
  have hb : p < 16 := of_decide_eq_true hw
  obtain ⟨v, hv⟩ : ∃ v, v = p * 0x100000 + 0x0 := ⟨_, rfl⟩
  rw [show encode (.pNop p) = v from hv.symm]
  refine of_p (op := 0) (by omega) (by unfold fld; omega) ?_
  have e0 : fld v 23 20 = p := by unfold fld; omega
  have e1 : fld v 15 0 = 0 := by unfold fld; omega
  show decForm (fld v 15 0 == 0) (.pNop (fld v 23 20)) = _
  rw [e0, e1]
  exact decForm_ok rfl hw

theorem pkMxint8Mm14 (p q k0 r : Nat) : Statement (.pkMxint8Mm14 p q k0 r) := by
  intro k h hw
  cases h
  have hb : p < 16 ∧ q < 16 ∧ r < 640 ∧ k0 < 2 := of_decide_eq_true hw
  obtain ⟨h0, h1, h2, h3⟩ := hb
  obtain ⟨v, hv⟩ : ∃ v, v = p * 0x100000 + q * 0x1000 + k0 * 0x400 + r + 0x10000 := ⟨_, rfl⟩
  rw [show encode (.pkMxint8Mm14 p q k0 r) = v from hv.symm]
  refine of_p (op := 1) (by omega) (by unfold fld; omega) ?_
  have e0 : fld v 23 20 = p := by unfold fld; omega
  have e1 : fld v 15 12 = q := by unfold fld; omega
  have e2 : fld v 11 10 = k0 := by unfold fld; omega
  have e3 : fld v 9 0 = r := by unfold fld; omega
  show decForm (true) (.pkMxint8Mm14 (fld v 23 20) (fld v 15 12) (fld v 11 10) (fld v 9 0)) = _
  rw [e0, e1, e2, e3]
  exact decForm_ok rfl hw

theorem pkMxint8Mm15 (p q k0 r : Nat) : Statement (.pkMxint8Mm15 p q k0 r) := by
  intro k h hw
  cases h
  have hb : p < 16 ∧ q < 16 ∧ r < 640 ∧ k0 < 2 := of_decide_eq_true hw
  obtain ⟨h0, h1, h2, h3⟩ := hb
  obtain ⟨v, hv⟩ : ∃ v, v = p * 0x100000 + q * 0x1000 + k0 * 0x400 + r + 0x20000 := ⟨_, rfl⟩
  rw [show encode (.pkMxint8Mm15 p q k0 r) = v from hv.symm]
  refine of_p (op := 2) (by omega) (by unfold fld; omega) ?_
  have e0 : fld v 23 20 = p := by unfold fld; omega
  have e1 : fld v 15 12 = q := by unfold fld; omega
  have e2 : fld v 11 10 = k0 := by unfold fld; omega
  have e3 : fld v 9 0 = r := by unfold fld; omega
  show decForm (true) (.pkMxint8Mm15 (fld v 23 20) (fld v 15 12) (fld v 11 10) (fld v 9 0)) = _
  rw [e0, e1, e2, e3]
  exact decForm_ok rfl hw

theorem pkMxint6Mm14 (p q k0 r : Nat) : Statement (.pkMxint6Mm14 p q k0 r) := by
  intro k h hw
  cases h
  have hb : p < 16 ∧ q < 16 ∧ r < 640 ∧ k0 < 2 := of_decide_eq_true hw
  obtain ⟨h0, h1, h2, h3⟩ := hb
  obtain ⟨v, hv⟩ : ∃ v, v = p * 0x100000 + q * 0x1000 + k0 * 0x400 + r + 0x30000 := ⟨_, rfl⟩
  rw [show encode (.pkMxint6Mm14 p q k0 r) = v from hv.symm]
  refine of_p (op := 3) (by omega) (by unfold fld; omega) ?_
  have e0 : fld v 23 20 = p := by unfold fld; omega
  have e1 : fld v 15 12 = q := by unfold fld; omega
  have e2 : fld v 11 10 = k0 := by unfold fld; omega
  have e3 : fld v 9 0 = r := by unfold fld; omega
  show decForm (true) (.pkMxint6Mm14 (fld v 23 20) (fld v 15 12) (fld v 11 10) (fld v 9 0)) = _
  rw [e0, e1, e2, e3]
  exact decForm_ok rfl hw

theorem pkMxint6Mm15 (p q k0 r : Nat) : Statement (.pkMxint6Mm15 p q k0 r) := by
  intro k h hw
  cases h
  have hb : p < 16 ∧ q < 16 ∧ r < 640 ∧ k0 < 2 := of_decide_eq_true hw
  obtain ⟨h0, h1, h2, h3⟩ := hb
  obtain ⟨v, hv⟩ : ∃ v, v = p * 0x100000 + q * 0x1000 + k0 * 0x400 + r + 0x40000 := ⟨_, rfl⟩
  rw [show encode (.pkMxint6Mm15 p q k0 r) = v from hv.symm]
  refine of_p (op := 4) (by omega) (by unfold fld; omega) ?_
  have e0 : fld v 23 20 = p := by unfold fld; omega
  have e1 : fld v 15 12 = q := by unfold fld; omega
  have e2 : fld v 11 10 = k0 := by unfold fld; omega
  have e3 : fld v 9 0 = r := by unfold fld; omega
  show decForm (true) (.pkMxint6Mm15 (fld v 23 20) (fld v 15 12) (fld v 11 10) (fld v 9 0)) = _
  rw [e0, e1, e2, e3]
  exact decForm_ok rfl hw

theorem pkMxint4Mm14 (p q k0 r : Nat) : Statement (.pkMxint4Mm14 p q k0 r) := by
  intro k h hw
  cases h
  have hb : p < 16 ∧ q < 16 ∧ k0 < 4 ∧ r < 640 := of_decide_eq_true hw
  obtain ⟨h0, h1, h2, h3⟩ := hb
  obtain ⟨v, hv⟩ : ∃ v, v = p * 0x100000 + q * 0x1000 + k0 * 0x400 + r + 0x50000 := ⟨_, rfl⟩
  rw [show encode (.pkMxint4Mm14 p q k0 r) = v from hv.symm]
  refine of_p (op := 5) (by omega) (by unfold fld; omega) ?_
  have e0 : fld v 23 20 = p := by unfold fld; omega
  have e1 : fld v 15 12 = q := by unfold fld; omega
  have e2 : fld v 11 10 = k0 := by unfold fld; omega
  have e3 : fld v 9 0 = r := by unfold fld; omega
  show decForm (true) (.pkMxint4Mm14 (fld v 23 20) (fld v 15 12) (fld v 11 10) (fld v 9 0)) = _
  rw [e0, e1, e2, e3]
  exact decForm_ok rfl hw

theorem pkMxint4Mm15 (p q k0 r : Nat) : Statement (.pkMxint4Mm15 p q k0 r) := by
  intro k h hw
  cases h
  have hb : p < 16 ∧ q < 16 ∧ k0 < 4 ∧ r < 640 := of_decide_eq_true hw
  obtain ⟨h0, h1, h2, h3⟩ := hb
  obtain ⟨v, hv⟩ : ∃ v, v = p * 0x100000 + q * 0x1000 + k0 * 0x400 + r + 0x60000 := ⟨_, rfl⟩
  rw [show encode (.pkMxint4Mm15 p q k0 r) = v from hv.symm]
  refine of_p (op := 6) (by omega) (by unfold fld; omega) ?_
  have e0 : fld v 23 20 = p := by unfold fld; omega
  have e1 : fld v 15 12 = q := by unfold fld; omega
  have e2 : fld v 11 10 = k0 := by unfold fld; omega
  have e3 : fld v 9 0 = r := by unfold fld; omega
  show decForm (true) (.pkMxint4Mm15 (fld v 23 20) (fld v 15 12) (fld v 11 10) (fld v 9 0)) = _
  rw [e0, e1, e2, e3]
  exact decForm_ok rfl hw

theorem pkE4m3Mm14 (p q k0 r : Nat) : Statement (.pkE4m3Mm14 p q k0 r) := by
  intro k h hw
  cases h
  have hb : p < 16 ∧ q < 16 ∧ r < 640 ∧ k0 < 2 := of_decide_eq_true hw
  obtain ⟨h0, h1, h2, h3⟩ := hb
  obtain ⟨v, hv⟩ : ∃ v, v = p * 0x100000 + q * 0x1000 + k0 * 0x400 + r + 0x70000 := ⟨_, rfl⟩
  rw [show encode (.pkE4m3Mm14 p q k0 r) = v from hv.symm]
  refine of_p (op := 7) (by omega) (by unfold fld; omega) ?_
  have e0 : fld v 23 20 = p := by unfold fld; omega
  have e1 : fld v 15 12 = q := by unfold fld; omega
  have e2 : fld v 11 10 = k0 := by unfold fld; omega
  have e3 : fld v 9 0 = r := by unfold fld; omega
  show decForm (true) (.pkE4m3Mm14 (fld v 23 20) (fld v 15 12) (fld v 11 10) (fld v 9 0)) = _
  rw [e0, e1, e2, e3]
  exact decForm_ok rfl hw

theorem pkE4m3Mm15 (p q k0 r : Nat) : Statement (.pkE4m3Mm15 p q k0 r) := by
  intro k h hw
  cases h
  have hb : p < 16 ∧ q < 16 ∧ r < 640 ∧ k0 < 2 := of_decide_eq_true hw
  obtain ⟨h0, h1, h2, h3⟩ := hb
  obtain ⟨v, hv⟩ : ∃ v, v = p * 0x100000 + q * 0x1000 + k0 * 0x400 + r + 0x80000 := ⟨_, rfl⟩
  rw [show encode (.pkE4m3Mm15 p q k0 r) = v from hv.symm]
  refine of_p (op := 8) (by omega) (by unfold fld; omega) ?_
  have e0 : fld v 23 20 = p := by unfold fld; omega
  have e1 : fld v 15 12 = q := by unfold fld; omega
  have e2 : fld v 11 10 = k0 := by unfold fld; omega
  have e3 : fld v 9 0 = r := by unfold fld; omega
  show decForm (true) (.pkE4m3Mm15 (fld v 23 20) (fld v 15 12) (fld v 11 10) (fld v 9 0)) = _
  rw [e0, e1, e2, e3]
  exact decForm_ok rfl hw

theorem pkE5m2Mm14 (p q k0 r : Nat) : Statement (.pkE5m2Mm14 p q k0 r) := by
  intro k h hw
  cases h
  have hb : p < 16 ∧ q < 16 ∧ r < 640 ∧ k0 < 2 := of_decide_eq_true hw
  obtain ⟨h0, h1, h2, h3⟩ := hb
  obtain ⟨v, hv⟩ : ∃ v, v = p * 0x100000 + q * 0x1000 + k0 * 0x400 + r + 0x90000 := ⟨_, rfl⟩
  rw [show encode (.pkE5m2Mm14 p q k0 r) = v from hv.symm]
  refine of_p (op := 9) (by omega) (by unfold fld; omega) ?_
  have e0 : fld v 23 20 = p := by unfold fld; omega
  have e1 : fld v 15 12 = q := by unfold fld; omega
  have e2 : fld v 11 10 = k0 := by unfold fld; omega
  have e3 : fld v 9 0 = r := by unfold fld; omega
  show decForm (true) (.pkE5m2Mm14 (fld v 23 20) (fld v 15 12) (fld v 11 10) (fld v 9 0)) = _
  rw [e0, e1, e2, e3]
  exact decForm_ok rfl hw

theorem pkE5m2Mm15 (p q k0 r : Nat) : Statement (.pkE5m2Mm15 p q k0 r) := by
  intro k h hw
  cases h
  have hb : p < 16 ∧ q < 16 ∧ r < 640 ∧ k0 < 2 := of_decide_eq_true hw
  obtain ⟨h0, h1, h2, h3⟩ := hb
  obtain ⟨v, hv⟩ : ∃ v, v = p * 0x100000 + q * 0x1000 + k0 * 0x400 + r + 0xA0000 := ⟨_, rfl⟩
  rw [show encode (.pkE5m2Mm15 p q k0 r) = v from hv.symm]
  refine of_p (op := 10) (by omega) (by unfold fld; omega) ?_
  have e0 : fld v 23 20 = p := by unfold fld; omega
  have e1 : fld v 15 12 = q := by unfold fld; omega
  have e2 : fld v 11 10 = k0 := by unfold fld; omega
  have e3 : fld v 9 0 = r := by unfold fld; omega
  show decForm (true) (.pkE5m2Mm15 (fld v 23 20) (fld v 15 12) (fld v 11 10) (fld v 9 0)) = _
  rw [e0, e1, e2, e3]
  exact decForm_ok rfl hw

theorem pkFp6Mm14 (p q k0 r : Nat) : Statement (.pkFp6Mm14 p q k0 r) := by
  intro k h hw
  cases h
  have hb : p < 16 ∧ q < 16 ∧ r < 640 ∧ k0 < 2 := of_decide_eq_true hw
  obtain ⟨h0, h1, h2, h3⟩ := hb
  obtain ⟨v, hv⟩ : ∃ v, v = p * 0x100000 + q * 0x1000 + k0 * 0x400 + r + 0xB0000 := ⟨_, rfl⟩
  rw [show encode (.pkFp6Mm14 p q k0 r) = v from hv.symm]
  refine of_p (op := 11) (by omega) (by unfold fld; omega) ?_
  have e0 : fld v 23 20 = p := by unfold fld; omega
  have e1 : fld v 15 12 = q := by unfold fld; omega
  have e2 : fld v 11 10 = k0 := by unfold fld; omega
  have e3 : fld v 9 0 = r := by unfold fld; omega
  show decForm (true) (.pkFp6Mm14 (fld v 23 20) (fld v 15 12) (fld v 11 10) (fld v 9 0)) = _
  rw [e0, e1, e2, e3]
  exact decForm_ok rfl hw

theorem pkFp6Mm15 (p q k0 r : Nat) : Statement (.pkFp6Mm15 p q k0 r) := by
  intro k h hw
  cases h
  have hb : p < 16 ∧ q < 16 ∧ r < 640 ∧ k0 < 2 := of_decide_eq_true hw
  obtain ⟨h0, h1, h2, h3⟩ := hb
  obtain ⟨v, hv⟩ : ∃ v, v = p * 0x100000 + q * 0x1000 + k0 * 0x400 + r + 0xC0000 := ⟨_, rfl⟩
  rw [show encode (.pkFp6Mm15 p q k0 r) = v from hv.symm]
  refine of_p (op := 12) (by omega) (by unfold fld; omega) ?_
  have e0 : fld v 23 20 = p := by unfold fld; omega
  have e1 : fld v 15 12 = q := by unfold fld; omega
  have e2 : fld v 11 10 = k0 := by unfold fld; omega
  have e3 : fld v 9 0 = r := by unfold fld; omega
  show decForm (true) (.pkFp6Mm15 (fld v 23 20) (fld v 15 12) (fld v 11 10) (fld v 9 0)) = _
  rw [e0, e1, e2, e3]
  exact decForm_ok rfl hw

theorem pkE2m1Mm14 (p q k0 r : Nat) : Statement (.pkE2m1Mm14 p q k0 r) := by
  intro k h hw
  cases h
  have hb : p < 16 ∧ q < 16 ∧ k0 < 4 ∧ r < 640 := of_decide_eq_true hw
  obtain ⟨h0, h1, h2, h3⟩ := hb
  obtain ⟨v, hv⟩ : ∃ v, v = p * 0x100000 + q * 0x1000 + k0 * 0x400 + r + 0xD0000 := ⟨_, rfl⟩
  rw [show encode (.pkE2m1Mm14 p q k0 r) = v from hv.symm]
  refine of_p (op := 13) (by omega) (by unfold fld; omega) ?_
  have e0 : fld v 23 20 = p := by unfold fld; omega
  have e1 : fld v 15 12 = q := by unfold fld; omega
  have e2 : fld v 11 10 = k0 := by unfold fld; omega
  have e3 : fld v 9 0 = r := by unfold fld; omega
  show decForm (true) (.pkE2m1Mm14 (fld v 23 20) (fld v 15 12) (fld v 11 10) (fld v 9 0)) = _
  rw [e0, e1, e2, e3]
  exact decForm_ok rfl hw

theorem pkE2m1Mm15 (p q k0 r : Nat) : Statement (.pkE2m1Mm15 p q k0 r) := by
  intro k h hw
  cases h
  have hb : p < 16 ∧ q < 16 ∧ k0 < 4 ∧ r < 640 := of_decide_eq_true hw
  obtain ⟨h0, h1, h2, h3⟩ := hb
  obtain ⟨v, hv⟩ : ∃ v, v = p * 0x100000 + q * 0x1000 + k0 * 0x400 + r + 0xE0000 := ⟨_, rfl⟩
  rw [show encode (.pkE2m1Mm15 p q k0 r) = v from hv.symm]
  refine of_p (op := 14) (by omega) (by unfold fld; omega) ?_
  have e0 : fld v 23 20 = p := by unfold fld; omega
  have e1 : fld v 15 12 = q := by unfold fld; omega
  have e2 : fld v 11 10 = k0 := by unfold fld; omega
  have e3 : fld v 9 0 = r := by unfold fld; omega
  show decForm (true) (.pkE2m1Mm15 (fld v 23 20) (fld v 15 12) (fld v 11 10) (fld v 9 0)) = _
  rw [e0, e1, e2, e3]
  exact decForm_ok rfl hw

theorem uNop (p : Nat) : Statement (.uNop p) := by
  intro k h hw
  cases h
  have hb : p < 16 := of_decide_eq_true hw
  obtain ⟨v, hv⟩ : ∃ v, v = p * 0x100000 + 0x0 := ⟨_, rfl⟩
  rw [show encode (.uNop p) = v from hv.symm]
  refine of_u (op := 0) (by omega) (by unfold fld; omega) ?_
  have e0 : fld v 23 20 = p := by unfold fld; omega
  have e1 : fld v 15 0 = 0 := by unfold fld; omega
  show decForm (fld v 15 0 == 0) (.uNop (fld v 23 20)) = _
  rw [e0, e1]
  exact decForm_ok rfl hw

theorem unpkMxint8Mm14 (p q k0 r : Nat) : Statement (.unpkMxint8Mm14 p q k0 r) := by
  intro k h hw
  cases h
  have hb : p < 16 ∧ q < 16 ∧ r < 640 ∧ k0 < 2 := of_decide_eq_true hw
  obtain ⟨h0, h1, h2, h3⟩ := hb
  obtain ⟨v, hv⟩ : ∃ v, v = p * 0x100000 + q * 0x1000 + k0 * 0x400 + r + 0x10000 := ⟨_, rfl⟩
  rw [show encode (.unpkMxint8Mm14 p q k0 r) = v from hv.symm]
  refine of_u (op := 1) (by omega) (by unfold fld; omega) ?_
  have e0 : fld v 23 20 = p := by unfold fld; omega
  have e1 : fld v 15 12 = q := by unfold fld; omega
  have e2 : fld v 11 10 = k0 := by unfold fld; omega
  have e3 : fld v 9 0 = r := by unfold fld; omega
  show decForm (true) (.unpkMxint8Mm14 (fld v 23 20) (fld v 15 12) (fld v 11 10) (fld v 9 0)) = _
  rw [e0, e1, e2, e3]
  exact decForm_ok rfl hw

theorem unpkMxint8Mm15 (p q k0 r : Nat) : Statement (.unpkMxint8Mm15 p q k0 r) := by
  intro k h hw
  cases h
  have hb : p < 16 ∧ q < 16 ∧ r < 640 ∧ k0 < 2 := of_decide_eq_true hw
  obtain ⟨h0, h1, h2, h3⟩ := hb
  obtain ⟨v, hv⟩ : ∃ v, v = p * 0x100000 + q * 0x1000 + k0 * 0x400 + r + 0x20000 := ⟨_, rfl⟩
  rw [show encode (.unpkMxint8Mm15 p q k0 r) = v from hv.symm]
  refine of_u (op := 2) (by omega) (by unfold fld; omega) ?_
  have e0 : fld v 23 20 = p := by unfold fld; omega
  have e1 : fld v 15 12 = q := by unfold fld; omega
  have e2 : fld v 11 10 = k0 := by unfold fld; omega
  have e3 : fld v 9 0 = r := by unfold fld; omega
  show decForm (true) (.unpkMxint8Mm15 (fld v 23 20) (fld v 15 12) (fld v 11 10) (fld v 9 0)) = _
  rw [e0, e1, e2, e3]
  exact decForm_ok rfl hw

theorem unpkMxint6Mm14 (p q k0 r : Nat) : Statement (.unpkMxint6Mm14 p q k0 r) := by
  intro k h hw
  cases h
  have hb : p < 16 ∧ q < 16 ∧ r < 640 ∧ k0 < 2 := of_decide_eq_true hw
  obtain ⟨h0, h1, h2, h3⟩ := hb
  obtain ⟨v, hv⟩ : ∃ v, v = p * 0x100000 + q * 0x1000 + k0 * 0x400 + r + 0x30000 := ⟨_, rfl⟩
  rw [show encode (.unpkMxint6Mm14 p q k0 r) = v from hv.symm]
  refine of_u (op := 3) (by omega) (by unfold fld; omega) ?_
  have e0 : fld v 23 20 = p := by unfold fld; omega
  have e1 : fld v 15 12 = q := by unfold fld; omega
  have e2 : fld v 11 10 = k0 := by unfold fld; omega
  have e3 : fld v 9 0 = r := by unfold fld; omega
  show decForm (true) (.unpkMxint6Mm14 (fld v 23 20) (fld v 15 12) (fld v 11 10) (fld v 9 0)) = _
  rw [e0, e1, e2, e3]
  exact decForm_ok rfl hw

theorem unpkMxint6Mm15 (p q k0 r : Nat) : Statement (.unpkMxint6Mm15 p q k0 r) := by
  intro k h hw
  cases h
  have hb : p < 16 ∧ q < 16 ∧ r < 640 ∧ k0 < 2 := of_decide_eq_true hw
  obtain ⟨h0, h1, h2, h3⟩ := hb
  obtain ⟨v, hv⟩ : ∃ v, v = p * 0x100000 + q * 0x1000 + k0 * 0x400 + r + 0x40000 := ⟨_, rfl⟩
  rw [show encode (.unpkMxint6Mm15 p q k0 r) = v from hv.symm]
  refine of_u (op := 4) (by omega) (by unfold fld; omega) ?_
  have e0 : fld v 23 20 = p := by unfold fld; omega
  have e1 : fld v 15 12 = q := by unfold fld; omega
  have e2 : fld v 11 10 = k0 := by unfold fld; omega
  have e3 : fld v 9 0 = r := by unfold fld; omega
  show decForm (true) (.unpkMxint6Mm15 (fld v 23 20) (fld v 15 12) (fld v 11 10) (fld v 9 0)) = _
  rw [e0, e1, e2, e3]
  exact decForm_ok rfl hw

theorem unpkMxint4Mm14 (p q k0 r : Nat) : Statement (.unpkMxint4Mm14 p q k0 r) := by
  intro k h hw
  cases h
  have hb : p < 16 ∧ q < 16 ∧ k0 < 4 ∧ r < 640 := of_decide_eq_true hw
  obtain ⟨h0, h1, h2, h3⟩ := hb
  obtain ⟨v, hv⟩ : ∃ v, v = p * 0x100000 + q * 0x1000 + k0 * 0x400 + r + 0x50000 := ⟨_, rfl⟩
  rw [show encode (.unpkMxint4Mm14 p q k0 r) = v from hv.symm]
  refine of_u (op := 5) (by omega) (by unfold fld; omega) ?_
  have e0 : fld v 23 20 = p := by unfold fld; omega
  have e1 : fld v 15 12 = q := by unfold fld; omega
  have e2 : fld v 11 10 = k0 := by unfold fld; omega
  have e3 : fld v 9 0 = r := by unfold fld; omega
  show decForm (true) (.unpkMxint4Mm14 (fld v 23 20) (fld v 15 12) (fld v 11 10) (fld v 9 0)) = _
  rw [e0, e1, e2, e3]
  exact decForm_ok rfl hw

theorem unpkMxint4Mm15 (p q k0 r : Nat) : Statement (.unpkMxint4Mm15 p q k0 r) := by
  intro k h hw
  cases h
  have hb : p < 16 ∧ q < 16 ∧ k0 < 4 ∧ r < 640 := of_decide_eq_true hw
  obtain ⟨h0, h1, h2, h3⟩ := hb
  obtain ⟨v, hv⟩ : ∃ v, v = p * 0x100000 + q * 0x1000 + k0 * 0x400 + r + 0x60000 := ⟨_, rfl⟩
  rw [show encode (.unpkMxint4Mm15 p q k0 r) = v from hv.symm]
  refine of_u (op := 6) (by omega) (by unfold fld; omega) ?_
  have e0 : fld v 23 20 = p := by unfold fld; omega
  have e1 : fld v 15 12 = q := by unfold fld; omega
  have e2 : fld v 11 10 = k0 := by unfold fld; omega
  have e3 : fld v 9 0 = r := by unfold fld; omega
  show decForm (true) (.unpkMxint4Mm15 (fld v 23 20) (fld v 15 12) (fld v 11 10) (fld v 9 0)) = _
  rw [e0, e1, e2, e3]
  exact decForm_ok rfl hw

theorem unpkE4m3Mm14 (p q k0 r : Nat) : Statement (.unpkE4m3Mm14 p q k0 r) := by
  intro k h hw
  cases h
  have hb : p < 16 ∧ q < 16 ∧ r < 640 ∧ k0 < 2 := of_decide_eq_true hw
  obtain ⟨h0, h1, h2, h3⟩ := hb
  obtain ⟨v, hv⟩ : ∃ v, v = p * 0x100000 + q * 0x1000 + k0 * 0x400 + r + 0x70000 := ⟨_, rfl⟩
  rw [show encode (.unpkE4m3Mm14 p q k0 r) = v from hv.symm]
  refine of_u (op := 7) (by omega) (by unfold fld; omega) ?_
  have e0 : fld v 23 20 = p := by unfold fld; omega
  have e1 : fld v 15 12 = q := by unfold fld; omega
  have e2 : fld v 11 10 = k0 := by unfold fld; omega
  have e3 : fld v 9 0 = r := by unfold fld; omega
  show decForm (true) (.unpkE4m3Mm14 (fld v 23 20) (fld v 15 12) (fld v 11 10) (fld v 9 0)) = _
  rw [e0, e1, e2, e3]
  exact decForm_ok rfl hw

theorem unpkE4m3Mm15 (p q k0 r : Nat) : Statement (.unpkE4m3Mm15 p q k0 r) := by
  intro k h hw
  cases h
  have hb : p < 16 ∧ q < 16 ∧ r < 640 ∧ k0 < 2 := of_decide_eq_true hw
  obtain ⟨h0, h1, h2, h3⟩ := hb
  obtain ⟨v, hv⟩ : ∃ v, v = p * 0x100000 + q * 0x1000 + k0 * 0x400 + r + 0x80000 := ⟨_, rfl⟩
  rw [show encode (.unpkE4m3Mm15 p q k0 r) = v from hv.symm]
  refine of_u (op := 8) (by omega) (by unfold fld; omega) ?_
  have e0 : fld v 23 20 = p := by unfold fld; omega
  have e1 : fld v 15 12 = q := by unfold fld; omega
  have e2 : fld v 11 10 = k0 := by unfold fld; omega
  have e3 : fld v 9 0 = r := by unfold fld; omega
  show decForm (true) (.unpkE4m3Mm15 (fld v 23 20) (fld v 15 12) (fld v 11 10) (fld v 9 0)) = _
  rw [e0, e1, e2, e3]
  exact decForm_ok rfl hw

theorem unpkE5m2Mm14 (p q k0 r : Nat) : Statement (.unpkE5m2Mm14 p q k0 r) := by
  intro k h hw
  cases h
  have hb : p < 16 ∧ q < 16 ∧ r < 640 ∧ k0 < 2 := of_decide_eq_true hw
  obtain ⟨h0, h1, h2, h3⟩ := hb
  obtain ⟨v, hv⟩ : ∃ v, v = p * 0x100000 + q * 0x1000 + k0 * 0x400 + r + 0x90000 := ⟨_, rfl⟩
  rw [show encode (.unpkE5m2Mm14 p q k0 r) = v from hv.symm]
  refine of_u (op := 9) (by omega) (by unfold fld; omega) ?_
  have e0 : fld v 23 20 = p := by unfold fld; omega
  have e1 : fld v 15 12 = q := by unfold fld; omega
  have e2 : fld v 11 10 = k0 := by unfold fld; omega
  have e3 : fld v 9 0 = r := by unfold fld; omega
  show decForm (true) (.unpkE5m2Mm14 (fld v 23 20) (fld v 15 12) (fld v 11 10) (fld v 9 0)) = _
  rw [e0, e1, e2, e3]
  exact decForm_ok rfl hw

theorem unpkE5m2Mm15 (p q k0 r : Nat) : Statement (.unpkE5m2Mm15 p q k0 r) := by
  intro k h hw
  cases h
  have hb : p < 16 ∧ q < 16 ∧ r < 640 ∧ k0 < 2 := of_decide_eq_true hw
  obtain ⟨h0, h1, h2, h3⟩ := hb
  obtain ⟨v, hv⟩ : ∃ v, v = p * 0x100000 + q * 0x1000 + k0 * 0x400 + r + 0xA0000 := ⟨_, rfl⟩
  rw [show encode (.unpkE5m2Mm15 p q k0 r) = v from hv.symm]
  refine of_u (op := 10) (by omega) (by unfold fld; omega) ?_
  have e0 : fld v 23 20 = p := by unfold fld; omega
  have e1 : fld v 15 12 = q := by unfold fld; omega
  have e2 : fld v 11 10 = k0 := by unfold fld; omega
  have e3 : fld v 9 0 = r := by unfold fld; omega
  show decForm (true) (.unpkE5m2Mm15 (fld v 23 20) (fld v 15 12) (fld v 11 10) (fld v 9 0)) = _
  rw [e0, e1, e2, e3]
  exact decForm_ok rfl hw

theorem unpkFp6Mm14 (p q k0 r : Nat) : Statement (.unpkFp6Mm14 p q k0 r) := by
  intro k h hw
  cases h
  have hb : p < 16 ∧ q < 16 ∧ r < 640 ∧ k0 < 2 := of_decide_eq_true hw
  obtain ⟨h0, h1, h2, h3⟩ := hb
  obtain ⟨v, hv⟩ : ∃ v, v = p * 0x100000 + q * 0x1000 + k0 * 0x400 + r + 0xB0000 := ⟨_, rfl⟩
  rw [show encode (.unpkFp6Mm14 p q k0 r) = v from hv.symm]
  refine of_u (op := 11) (by omega) (by unfold fld; omega) ?_
  have e0 : fld v 23 20 = p := by unfold fld; omega
  have e1 : fld v 15 12 = q := by unfold fld; omega
  have e2 : fld v 11 10 = k0 := by unfold fld; omega
  have e3 : fld v 9 0 = r := by unfold fld; omega
  show decForm (true) (.unpkFp6Mm14 (fld v 23 20) (fld v 15 12) (fld v 11 10) (fld v 9 0)) = _
  rw [e0, e1, e2, e3]
  exact decForm_ok rfl hw

theorem unpkFp6Mm15 (p q k0 r : Nat) : Statement (.unpkFp6Mm15 p q k0 r) := by
  intro k h hw
  cases h
  have hb : p < 16 ∧ q < 16 ∧ r < 640 ∧ k0 < 2 := of_decide_eq_true hw
  obtain ⟨h0, h1, h2, h3⟩ := hb
  obtain ⟨v, hv⟩ : ∃ v, v = p * 0x100000 + q * 0x1000 + k0 * 0x400 + r + 0xC0000 := ⟨_, rfl⟩
  rw [show encode (.unpkFp6Mm15 p q k0 r) = v from hv.symm]
  refine of_u (op := 12) (by omega) (by unfold fld; omega) ?_
  have e0 : fld v 23 20 = p := by unfold fld; omega
  have e1 : fld v 15 12 = q := by unfold fld; omega
  have e2 : fld v 11 10 = k0 := by unfold fld; omega
  have e3 : fld v 9 0 = r := by unfold fld; omega
  show decForm (true) (.unpkFp6Mm15 (fld v 23 20) (fld v 15 12) (fld v 11 10) (fld v 9 0)) = _
  rw [e0, e1, e2, e3]
  exact decForm_ok rfl hw

theorem unpkE2m1Mm14 (p q k0 r : Nat) : Statement (.unpkE2m1Mm14 p q k0 r) := by
  intro k h hw
  cases h
  have hb : p < 16 ∧ q < 16 ∧ k0 < 4 ∧ r < 640 := of_decide_eq_true hw
  obtain ⟨h0, h1, h2, h3⟩ := hb
  obtain ⟨v, hv⟩ : ∃ v, v = p * 0x100000 + q * 0x1000 + k0 * 0x400 + r + 0xD0000 := ⟨_, rfl⟩
  rw [show encode (.unpkE2m1Mm14 p q k0 r) = v from hv.symm]
  refine of_u (op := 13) (by omega) (by unfold fld; omega) ?_
  have e0 : fld v 23 20 = p := by unfold fld; omega
  have e1 : fld v 15 12 = q := by unfold fld; omega
  have e2 : fld v 11 10 = k0 := by unfold fld; omega
  have e3 : fld v 9 0 = r := by unfold fld; omega
  show decForm (true) (.unpkE2m1Mm14 (fld v 23 20) (fld v 15 12) (fld v 11 10) (fld v 9 0)) = _
  rw [e0, e1, e2, e3]
  exact decForm_ok rfl hw

theorem unpkE2m1Mm15 (p q k0 r : Nat) : Statement (.unpkE2m1Mm15 p q k0 r) := by
  intro k h hw
  cases h
  have hb : p < 16 ∧ q < 16 ∧ k0 < 4 ∧ r < 640 := of_decide_eq_true hw
  obtain ⟨h0, h1, h2, h3⟩ := hb
  obtain ⟨v, hv⟩ : ∃ v, v = p * 0x100000 + q * 0x1000 + k0 * 0x400 + r + 0xE0000 := ⟨_, rfl⟩
  rw [show encode (.unpkE2m1Mm15 p q k0 r) = v from hv.symm]
  refine of_u (op := 14) (by omega) (by unfold fld; omega) ?_
  have e0 : fld v 23 20 = p := by unfold fld; omega
  have e1 : fld v 15 12 = q := by unfold fld; omega
  have e2 : fld v 11 10 = k0 := by unfold fld; omega
  have e3 : fld v 9 0 = r := by unfold fld; omega
  show decForm (true) (.unpkE2m1Mm15 (fld v 23 20) (fld v 15 12) (fld v 11 10) (fld v 9 0)) = _
  rw [e0, e1, e2, e3]
  exact decForm_ok rfl hw

theorem aNop (p : Nat) : Statement (.aNop p) := by
  intro k h hw
  cases h
  have hb : p < 16 := of_decide_eq_true hw
  obtain ⟨v, hv⟩ : ∃ v, v = p * 0x10000000 + 0x0 := ⟨_, rfl⟩
  rw [show encode (.aNop p) = v from hv.symm]
  refine of_a (op := 0) (by omega) (by unfold fld; omega) ?_
  have e0 : fld v 31 28 = p := by unfold fld; omega
  have e1 : fld v 21 0 = 0 := by unfold fld; omega
  show decForm (fld v 21 0 == 0) (.aNop (fld v 31 28)) = _
  rw [e0, e1]
  exact decForm_ok rfl hw

theorem cpy (p r n a b c x : Nat) : Statement (.cpy p r n a b c x) := by
  intro k h hw
  cases h
  have hb : p < 16 ∧ r < 16 ∧ n < 4 ∧ a < 16 ∧ b < 16 ∧ c < 16 ∧ x < 16 ∧ tokList3 n a b c r = true := of_decide_eq_true hw
  obtain ⟨h0, h1, h2, h3, h4, h5, h6, h7⟩ := hb
  obtain ⟨v, hv⟩ : ∃ v, v = p * 0x10000000 + r * 0x40000 + n * 0x10000 + a * 0x1000 + b * 0x100 + c * 0x10 + x + 0x400000 := ⟨_, rfl⟩
  rw [show encode (.cpy p r n a b c x) = v from hv.symm]
  refine of_a (op := 1) (by omega) (by unfold fld; omega) ?_
  have e0 : fld v 31 28 = p := by unfold fld; omega
  have e1 : fld v 21 18 = r := by unfold fld; omega
  have e2 : fld v 17 16 = n := by unfold fld; omega
  have e3 : fld v 15 12 = a := by unfold fld; omega
  have e4 : fld v 11 8 = b := by unfold fld; omega
  have e5 : fld v 7 4 = c := by unfold fld; omega
  have e6 : fld v 3 0 = x := by unfold fld; omega
  show decForm (true) (.cpy (fld v 31 28) (fld v 21 18) (fld v 17 16) (fld v 15 12) (fld v 11 8) (fld v 7 4) (fld v 3 0)) = _
  rw [e0, e1, e2, e3, e4, e5, e6]
  exact decForm_ok rfl hw

theorem gat (p r n a b c x : Nat) : Statement (.gat p r n a b c x) := by
  intro k h hw
  cases h
  have hb : p < 16 ∧ r < 16 ∧ n < 4 ∧ a < 16 ∧ b < 16 ∧ c < 16 ∧ x < 16 ∧ tokList3 n a b c r = true := of_decide_eq_true hw
  obtain ⟨h0, h1, h2, h3, h4, h5, h6, h7⟩ := hb
  obtain ⟨v, hv⟩ : ∃ v, v = p * 0x10000000 + r * 0x40000 + n * 0x10000 + a * 0x1000 + b * 0x100 + c * 0x10 + x + 0x800000 := ⟨_, rfl⟩
  rw [show encode (.gat p r n a b c x) = v from hv.symm]
  refine of_a (op := 2) (by omega) (by unfold fld; omega) ?_
  have e0 : fld v 31 28 = p := by unfold fld; omega
  have e1 : fld v 21 18 = r := by unfold fld; omega
  have e2 : fld v 17 16 = n := by unfold fld; omega
  have e3 : fld v 15 12 = a := by unfold fld; omega
  have e4 : fld v 11 8 = b := by unfold fld; omega
  have e5 : fld v 7 4 = c := by unfold fld; omega
  have e6 : fld v 3 0 = x := by unfold fld; omega
  show decForm (true) (.gat (fld v 31 28) (fld v 21 18) (fld v 17 16) (fld v 15 12) (fld v 11 8) (fld v 7 4) (fld v 3 0)) = _
  rw [e0, e1, e2, e3, e4, e5, e6]
  exact decForm_ok rfl hw

theorem sct (p r n a b c x : Nat) : Statement (.sct p r n a b c x) := by
  intro k h hw
  cases h
  have hb : p < 16 ∧ r < 16 ∧ n < 4 ∧ a < 16 ∧ b < 16 ∧ c < 16 ∧ x < 16 ∧ tokList3 n a b c r = true := of_decide_eq_true hw
  obtain ⟨h0, h1, h2, h3, h4, h5, h6, h7⟩ := hb
  obtain ⟨v, hv⟩ : ∃ v, v = p * 0x10000000 + r * 0x40000 + n * 0x10000 + a * 0x1000 + b * 0x100 + c * 0x10 + x + 0xC00000 := ⟨_, rfl⟩
  rw [show encode (.sct p r n a b c x) = v from hv.symm]
  refine of_a (op := 3) (by omega) (by unfold fld; omega) ?_
  have e0 : fld v 31 28 = p := by unfold fld; omega
  have e1 : fld v 21 18 = r := by unfold fld; omega
  have e2 : fld v 17 16 = n := by unfold fld; omega
  have e3 : fld v 15 12 = a := by unfold fld; omega
  have e4 : fld v 11 8 = b := by unfold fld; omega
  have e5 : fld v 7 4 = c := by unfold fld; omega
  have e6 : fld v 3 0 = x := by unfold fld; omega
  show decForm (true) (.sct (fld v 31 28) (fld v 21 18) (fld v 17 16) (fld v 15 12) (fld v 11 8) (fld v 7 4) (fld v 3 0)) = _
  rw [e0, e1, e2, e3, e4, e5, e6]
  exact decForm_ok rfl hw

theorem mcastQ (p r n a b c x : Nat) : Statement (.mcastQ p r n a b c x) := by
  intro k h hw
  cases h
  have hb : p < 16 ∧ r < 16 ∧ n < 4 ∧ a < 16 ∧ b < 16 ∧ c < 16 ∧ x < 16 ∧ tokList3 n a b c r = true := of_decide_eq_true hw
  obtain ⟨h0, h1, h2, h3, h4, h5, h6, h7⟩ := hb
  obtain ⟨v, hv⟩ : ∃ v, v = p * 0x10000000 + r * 0x40000 + n * 0x10000 + a * 0x1000 + b * 0x100 + c * 0x10 + x + 0x1000000 := ⟨_, rfl⟩
  rw [show encode (.mcastQ p r n a b c x) = v from hv.symm]
  refine of_a (op := 4) (by omega) (by unfold fld; omega) ?_
  have e0 : fld v 31 28 = p := by unfold fld; omega
  have e1 : fld v 21 18 = r := by unfold fld; omega
  have e2 : fld v 17 16 = n := by unfold fld; omega
  have e3 : fld v 15 12 = a := by unfold fld; omega
  have e4 : fld v 11 8 = b := by unfold fld; omega
  have e5 : fld v 7 4 = c := by unfold fld; omega
  have e6 : fld v 3 0 = x := by unfold fld; omega
  show decForm (true) (.mcastQ (fld v 31 28) (fld v 21 18) (fld v 17 16) (fld v 15 12) (fld v 11 8) (fld v 7 4) (fld v 3 0)) = _
  rw [e0, e1, e2, e3, e4, e5, e6]
  exact decForm_ok rfl hw

theorem rst (p r n a b c x : Nat) : Statement (.rst p r n a b c x) := by
  intro k h hw
  cases h
  have hb : p < 16 ∧ r < 16 ∧ n < 4 ∧ a < 16 ∧ b < 16 ∧ c < 16 ∧ x < 16 ∧ tokList3 n a b c r = true := of_decide_eq_true hw
  obtain ⟨h0, h1, h2, h3, h4, h5, h6, h7⟩ := hb
  obtain ⟨v, hv⟩ : ∃ v, v = p * 0x10000000 + r * 0x40000 + n * 0x10000 + a * 0x1000 + b * 0x100 + c * 0x10 + x + 0x1400000 := ⟨_, rfl⟩
  rw [show encode (.rst p r n a b c x) = v from hv.symm]
  refine of_a (op := 5) (by omega) (by unfold fld; omega) ?_
  have e0 : fld v 31 28 = p := by unfold fld; omega
  have e1 : fld v 21 18 = r := by unfold fld; omega
  have e2 : fld v 17 16 = n := by unfold fld; omega
  have e3 : fld v 15 12 = a := by unfold fld; omega
  have e4 : fld v 11 8 = b := by unfold fld; omega
  have e5 : fld v 7 4 = c := by unfold fld; omega
  have e6 : fld v 3 0 = x := by unfold fld; omega
  show decForm (true) (.rst (fld v 31 28) (fld v 21 18) (fld v 17 16) (fld v 15 12) (fld v 11 8) (fld v 7 4) (fld v 3 0)) = _
  rw [e0, e1, e2, e3, e4, e5, e6]
  exact decForm_ok rfl hw

theorem rld (p r n a b c x : Nat) : Statement (.rld p r n a b c x) := by
  intro k h hw
  cases h
  have hb : p < 16 ∧ r < 16 ∧ n < 4 ∧ a < 16 ∧ b < 16 ∧ c < 16 ∧ x < 16 ∧ tokList3 n a b c r = true := of_decide_eq_true hw
  obtain ⟨h0, h1, h2, h3, h4, h5, h6, h7⟩ := hb
  obtain ⟨v, hv⟩ : ∃ v, v = p * 0x10000000 + r * 0x40000 + n * 0x10000 + a * 0x1000 + b * 0x100 + c * 0x10 + x + 0x1800000 := ⟨_, rfl⟩
  rw [show encode (.rld p r n a b c x) = v from hv.symm]
  refine of_a (op := 6) (by omega) (by unfold fld; omega) ?_
  have e0 : fld v 31 28 = p := by unfold fld; omega
  have e1 : fld v 21 18 = r := by unfold fld; omega
  have e2 : fld v 17 16 = n := by unfold fld; omega
  have e3 : fld v 15 12 = a := by unfold fld; omega
  have e4 : fld v 11 8 = b := by unfold fld; omega
  have e5 : fld v 7 4 = c := by unfold fld; omega
  have e6 : fld v 3 0 = x := by unfold fld; omega
  show decForm (true) (.rld (fld v 31 28) (fld v 21 18) (fld v 17 16) (fld v 15 12) (fld v 11 8) (fld v 7 4) (fld v 3 0)) = _
  rw [e0, e1, e2, e3, e4, e5, e6]
  exact decForm_ok rfl hw

theorem rred (p r n a b c x : Nat) : Statement (.rred p r n a b c x) := by
  intro k h hw
  cases h
  have hb : p < 16 ∧ r < 16 ∧ n < 4 ∧ a < 16 ∧ b < 16 ∧ c < 16 ∧ x < 16 ∧ tokList3 n a b c r = true := of_decide_eq_true hw
  obtain ⟨h0, h1, h2, h3, h4, h5, h6, h7⟩ := hb
  obtain ⟨v, hv⟩ : ∃ v, v = p * 0x10000000 + r * 0x40000 + n * 0x10000 + a * 0x1000 + b * 0x100 + c * 0x10 + x + 0x1C00000 := ⟨_, rfl⟩
  rw [show encode (.rred p r n a b c x) = v from hv.symm]
  refine of_a (op := 7) (by omega) (by unfold fld; omega) ?_
  have e0 : fld v 31 28 = p := by unfold fld; omega
  have e1 : fld v 21 18 = r := by unfold fld; omega
  have e2 : fld v 17 16 = n := by unfold fld; omega
  have e3 : fld v 15 12 = a := by unfold fld; omega
  have e4 : fld v 11 8 = b := by unfold fld; omega
  have e5 : fld v 7 4 = c := by unfold fld; omega
  have e6 : fld v 3 0 = x := by unfold fld; omega
  show decForm (true) (.rred (fld v 31 28) (fld v 21 18) (fld v 17 16) (fld v 15 12) (fld v 11 8) (fld v 7 4) (fld v 3 0)) = _
  rw [e0, e1, e2, e3, e4, e5, e6]
  exact decForm_ok rfl hw

theorem rflush (p r n a b c : Nat) : Statement (.rflush p r n a b c) := by
  intro k h hw
  cases h
  have hb : p < 16 ∧ r < 16 ∧ n < 4 ∧ a < 16 ∧ b < 16 ∧ c < 16 ∧ tokList3 n a b c r = true := of_decide_eq_true hw
  obtain ⟨h0, h1, h2, h3, h4, h5, h6⟩ := hb
  obtain ⟨v, hv⟩ : ∃ v, v = p * 0x10000000 + r * 0x40000 + n * 0x10000 + a * 0x1000 + b * 0x100 + c * 0x10 + 0x2000000 := ⟨_, rfl⟩
  rw [show encode (.rflush p r n a b c) = v from hv.symm]
  refine of_a (op := 8) (by omega) (by unfold fld; omega) ?_
  have e0 : fld v 31 28 = p := by unfold fld; omega
  have e1 : fld v 21 18 = r := by unfold fld; omega
  have e2 : fld v 17 16 = n := by unfold fld; omega
  have e3 : fld v 15 12 = a := by unfold fld; omega
  have e4 : fld v 11 8 = b := by unfold fld; omega
  have e5 : fld v 7 4 = c := by unfold fld; omega
  have e6 : fld v 3 0 = 0 := by unfold fld; omega
  show decForm (fld v 3 0 == 0) (.rflush (fld v 31 28) (fld v 21 18) (fld v 17 16) (fld v 15 12) (fld v 11 8) (fld v 7 4)) = _
  rw [e0, e1, e2, e3, e4, e5, e6]
  exact decForm_ok rfl hw

theorem coll (p r n a b c x : Nat) : Statement (.coll p r n a b c x) := by
  intro k h hw
  cases h
  have hb : p < 16 ∧ r < 16 ∧ n < 4 ∧ a < 16 ∧ b < 16 ∧ c < 16 ∧ x < 16 ∧ tokList3 n a b c r = true := of_decide_eq_true hw
  obtain ⟨h0, h1, h2, h3, h4, h5, h6, h7⟩ := hb
  obtain ⟨v, hv⟩ : ∃ v, v = p * 0x10000000 + r * 0x40000 + n * 0x10000 + a * 0x1000 + b * 0x100 + c * 0x10 + x + 0x2400000 := ⟨_, rfl⟩
  rw [show encode (.coll p r n a b c x) = v from hv.symm]
  refine of_a (op := 9) (by omega) (by unfold fld; omega) ?_
  have e0 : fld v 31 28 = p := by unfold fld; omega
  have e1 : fld v 21 18 = r := by unfold fld; omega
  have e2 : fld v 17 16 = n := by unfold fld; omega
  have e3 : fld v 15 12 = a := by unfold fld; omega
  have e4 : fld v 11 8 = b := by unfold fld; omega
  have e5 : fld v 7 4 = c := by unfold fld; omega
  have e6 : fld v 3 0 = x := by unfold fld; omega
  show decForm (true) (.coll (fld v 31 28) (fld v 21 18) (fld v 17 16) (fld v 15 12) (fld v 11 8) (fld v 7 4) (fld v 3 0)) = _
  rw [e0, e1, e2, e3, e4, e5, e6]
  exact decForm_ok rfl hw

theorem disp (p r n a b c x : Nat) : Statement (.disp p r n a b c x) := by
  intro k h hw
  cases h
  have hb : p < 16 ∧ r < 16 ∧ n < 4 ∧ a < 16 ∧ b < 16 ∧ c < 16 ∧ x < 16 ∧ tokList3 n a b c r = true := of_decide_eq_true hw
  obtain ⟨h0, h1, h2, h3, h4, h5, h6, h7⟩ := hb
  obtain ⟨v, hv⟩ : ∃ v, v = p * 0x10000000 + r * 0x40000 + n * 0x10000 + a * 0x1000 + b * 0x100 + c * 0x10 + x + 0x2800000 := ⟨_, rfl⟩
  rw [show encode (.disp p r n a b c x) = v from hv.symm]
  refine of_a (op := 10) (by omega) (by unfold fld; omega) ?_
  have e0 : fld v 31 28 = p := by unfold fld; omega
  have e1 : fld v 21 18 = r := by unfold fld; omega
  have e2 : fld v 17 16 = n := by unfold fld; omega
  have e3 : fld v 15 12 = a := by unfold fld; omega
  have e4 : fld v 11 8 = b := by unfold fld; omega
  have e5 : fld v 7 4 = c := by unfold fld; omega
  have e6 : fld v 3 0 = x := by unfold fld; omega
  show decForm (true) (.disp (fld v 31 28) (fld v 21 18) (fld v 17 16) (fld v 15 12) (fld v 11 8) (fld v 7 4) (fld v 3 0)) = _
  rw [e0, e1, e2, e3, e4, e5, e6]
  exact decForm_ok rfl hw

theorem ccpy (p r n a b c x : Nat) : Statement (.ccpy p r n a b c x) := by
  intro k h hw
  cases h
  have hb : p < 16 ∧ r < 16 ∧ n < 4 ∧ a < 16 ∧ b < 16 ∧ c < 16 ∧ x < 16 ∧ tokList3 n a b c r = true := of_decide_eq_true hw
  obtain ⟨h0, h1, h2, h3, h4, h5, h6, h7⟩ := hb
  obtain ⟨v, hv⟩ : ∃ v, v = p * 0x10000000 + r * 0x40000 + n * 0x10000 + a * 0x1000 + b * 0x100 + c * 0x10 + x + 0x2C00000 := ⟨_, rfl⟩
  rw [show encode (.ccpy p r n a b c x) = v from hv.symm]
  refine of_a (op := 11) (by omega) (by unfold fld; omega) ?_
  have e0 : fld v 31 28 = p := by unfold fld; omega
  have e1 : fld v 21 18 = r := by unfold fld; omega
  have e2 : fld v 17 16 = n := by unfold fld; omega
  have e3 : fld v 15 12 = a := by unfold fld; omega
  have e4 : fld v 11 8 = b := by unfold fld; omega
  have e5 : fld v 7 4 = c := by unfold fld; omega
  have e6 : fld v 3 0 = x := by unfold fld; omega
  show decForm (true) (.ccpy (fld v 31 28) (fld v 21 18) (fld v 17 16) (fld v 15 12) (fld v 11 8) (fld v 7 4) (fld v 3 0)) = _
  rw [e0, e1, e2, e3, e4, e5, e6]
  exact decForm_ok rfl hw

theorem task (p r n a b c x : Nat) : Statement (.task p r n a b c x) := by
  intro k h hw
  cases h
  have hb : p < 16 ∧ r < 16 ∧ n < 4 ∧ a < 16 ∧ b < 16 ∧ c < 16 ∧ x < 16 ∧ tokList3 n a b c r = true := of_decide_eq_true hw
  obtain ⟨h0, h1, h2, h3, h4, h5, h6, h7⟩ := hb
  obtain ⟨v, hv⟩ : ∃ v, v = p * 0x10000000 + r * 0x40000 + n * 0x10000 + a * 0x1000 + b * 0x100 + c * 0x10 + x + 0x3000000 := ⟨_, rfl⟩
  rw [show encode (.task p r n a b c x) = v from hv.symm]
  refine of_a (op := 12) (by omega) (by unfold fld; omega) ?_
  have e0 : fld v 31 28 = p := by unfold fld; omega
  have e1 : fld v 21 18 = r := by unfold fld; omega
  have e2 : fld v 17 16 = n := by unfold fld; omega
  have e3 : fld v 15 12 = a := by unfold fld; omega
  have e4 : fld v 11 8 = b := by unfold fld; omega
  have e5 : fld v 7 4 = c := by unfold fld; omega
  have e6 : fld v 3 0 = x := by unfold fld; omega
  show decForm (true) (.task (fld v 31 28) (fld v 21 18) (fld v 17 16) (fld v 15 12) (fld v 11 8) (fld v 7 4) (fld v 3 0)) = _
  rw [e0, e1, e2, e3, e4, e5, e6]
  exact decForm_ok rfl hw

theorem ctadd (p r n a b y x : Nat) : Statement (.ctadd p r n a b y x) := by
  intro k h hw
  cases h
  have hb : p < 16 ∧ r < 16 ∧ n < 4 ∧ a < 16 ∧ b < 16 ∧ y < 16 ∧ x < 16 ∧ n ≤ 2 ∧ tokList2 n a b r = true := of_decide_eq_true hw
  obtain ⟨h0, h1, h2, h3, h4, h5, h6, h7, h8⟩ := hb
  obtain ⟨v, hv⟩ : ∃ v, v = p * 0x10000000 + r * 0x40000 + n * 0x10000 + a * 0x1000 + b * 0x100 + y * 0x10 + x + 0x3400000 := ⟨_, rfl⟩
  rw [show encode (.ctadd p r n a b y x) = v from hv.symm]
  refine of_a (op := 13) (by omega) (by unfold fld; omega) ?_
  have e0 : fld v 31 28 = p := by unfold fld; omega
  have e1 : fld v 21 18 = r := by unfold fld; omega
  have e2 : fld v 17 16 = n := by unfold fld; omega
  have e3 : fld v 15 12 = a := by unfold fld; omega
  have e4 : fld v 11 8 = b := by unfold fld; omega
  have e5 : fld v 7 4 = y := by unfold fld; omega
  have e6 : fld v 3 0 = x := by unfold fld; omega
  show decForm (true) (.ctadd (fld v 31 28) (fld v 21 18) (fld v 17 16) (fld v 15 12) (fld v 11 8) (fld v 7 4) (fld v 3 0)) = _
  rw [e0, e1, e2, e3, e4, e5, e6]
  exact decForm_ok rfl hw

theorem ctraise (p r n a b y x : Nat) : Statement (.ctraise p r n a b y x) := by
  intro k h hw
  cases h
  have hb : p < 16 ∧ r < 16 ∧ n < 4 ∧ a < 16 ∧ b < 16 ∧ y < 16 ∧ x < 16 ∧ n ≤ 2 ∧ tokList2 n a b r = true := of_decide_eq_true hw
  obtain ⟨h0, h1, h2, h3, h4, h5, h6, h7, h8⟩ := hb
  obtain ⟨v, hv⟩ : ∃ v, v = p * 0x10000000 + r * 0x40000 + n * 0x10000 + a * 0x1000 + b * 0x100 + y * 0x10 + x + 0x3800000 := ⟨_, rfl⟩
  rw [show encode (.ctraise p r n a b y x) = v from hv.symm]
  refine of_a (op := 14) (by omega) (by unfold fld; omega) ?_
  have e0 : fld v 31 28 = p := by unfold fld; omega
  have e1 : fld v 21 18 = r := by unfold fld; omega
  have e2 : fld v 17 16 = n := by unfold fld; omega
  have e3 : fld v 15 12 = a := by unfold fld; omega
  have e4 : fld v 11 8 = b := by unfold fld; omega
  have e5 : fld v 7 4 = y := by unfold fld; omega
  have e6 : fld v 3 0 = x := by unfold fld; omega
  show decForm (true) (.ctraise (fld v 31 28) (fld v 21 18) (fld v 17 16) (fld v 15 12) (fld v 11 8) (fld v 7 4) (fld v 3 0)) = _
  rw [e0, e1, e2, e3, e4, e5, e6]
  exact decForm_ok rfl hw

theorem ctpoll (p r n a d y x : Nat) : Statement (.ctpoll p r n a d y x) := by
  intro k h hw
  cases h
  have hb : p < 16 ∧ r < 16 ∧ n < 4 ∧ a < 16 ∧ d < 16 ∧ y < 16 ∧ x < 16 ∧ n ≤ 1 ∧ tokList1 n a r = true ∧ 1 ≤ d := of_decide_eq_true hw
  obtain ⟨h0, h1, h2, h3, h4, h5, h6, h7, h8, h9⟩ := hb
  obtain ⟨v, hv⟩ : ∃ v, v = p * 0x10000000 + r * 0x40000 + n * 0x10000 + a * 0x1000 + d * 0x100 + y * 0x10 + x + 0x3C00000 := ⟨_, rfl⟩
  rw [show encode (.ctpoll p r n a d y x) = v from hv.symm]
  refine of_a (op := 15) (by omega) (by unfold fld; omega) ?_
  have e0 : fld v 31 28 = p := by unfold fld; omega
  have e1 : fld v 21 18 = r := by unfold fld; omega
  have e2 : fld v 17 16 = n := by unfold fld; omega
  have e3 : fld v 15 12 = a := by unfold fld; omega
  have e4 : fld v 11 8 = d := by unfold fld; omega
  have e5 : fld v 7 4 = y := by unfold fld; omega
  have e6 : fld v 3 0 = x := by unfold fld; omega
  show decForm (true) (.ctpoll (fld v 31 28) (fld v 21 18) (fld v 17 16) (fld v 15 12) (fld v 11 8) (fld v 7 4) (fld v 3 0)) = _
  rw [e0, e1, e2, e3, e4, e5, e6]
  exact decForm_ok rfl hw

theorem frecRd (p r n a b c x : Nat) : Statement (.frecRd p r n a b c x) := by
  intro k h hw
  cases h
  have hb : p < 16 ∧ r < 16 ∧ n < 4 ∧ a < 16 ∧ b < 16 ∧ c < 16 ∧ x < 16 ∧ tokList3 n a b c r = true := of_decide_eq_true hw
  obtain ⟨h0, h1, h2, h3, h4, h5, h6, h7⟩ := hb
  obtain ⟨v, hv⟩ : ∃ v, v = p * 0x10000000 + r * 0x40000 + n * 0x10000 + a * 0x1000 + b * 0x100 + c * 0x10 + x + 0x4000000 := ⟨_, rfl⟩
  rw [show encode (.frecRd p r n a b c x) = v from hv.symm]
  refine of_a (op := 16) (by omega) (by unfold fld; omega) ?_
  have e0 : fld v 31 28 = p := by unfold fld; omega
  have e1 : fld v 21 18 = r := by unfold fld; omega
  have e2 : fld v 17 16 = n := by unfold fld; omega
  have e3 : fld v 15 12 = a := by unfold fld; omega
  have e4 : fld v 11 8 = b := by unfold fld; omega
  have e5 : fld v 7 4 = c := by unfold fld; omega
  have e6 : fld v 3 0 = x := by unfold fld; omega
  show decForm (true) (.frecRd (fld v 31 28) (fld v 21 18) (fld v 17 16) (fld v 15 12) (fld v 11 8) (fld v 7 4) (fld v 3 0)) = _
  rw [e0, e1, e2, e3, e4, e5, e6]
  exact decForm_ok rfl hw

theorem frecWr (p r n a b c x : Nat) : Statement (.frecWr p r n a b c x) := by
  intro k h hw
  cases h
  have hb : p < 16 ∧ r < 16 ∧ n < 4 ∧ a < 16 ∧ b < 16 ∧ c < 16 ∧ x < 16 ∧ tokList3 n a b c r = true := of_decide_eq_true hw
  obtain ⟨h0, h1, h2, h3, h4, h5, h6, h7⟩ := hb
  obtain ⟨v, hv⟩ : ∃ v, v = p * 0x10000000 + r * 0x40000 + n * 0x10000 + a * 0x1000 + b * 0x100 + c * 0x10 + x + 0x4400000 := ⟨_, rfl⟩
  rw [show encode (.frecWr p r n a b c x) = v from hv.symm]
  refine of_a (op := 17) (by omega) (by unfold fld; omega) ?_
  have e0 : fld v 31 28 = p := by unfold fld; omega
  have e1 : fld v 21 18 = r := by unfold fld; omega
  have e2 : fld v 17 16 = n := by unfold fld; omega
  have e3 : fld v 15 12 = a := by unfold fld; omega
  have e4 : fld v 11 8 = b := by unfold fld; omega
  have e5 : fld v 7 4 = c := by unfold fld; omega
  have e6 : fld v 3 0 = x := by unfold fld; omega
  show decForm (true) (.frecWr (fld v 31 28) (fld v 21 18) (fld v 17 16) (fld v 15 12) (fld v 11 8) (fld v 7 4) (fld v 3 0)) = _
  rw [e0, e1, e2, e3, e4, e5, e6]
  exact decForm_ok rfl hw

theorem engineCommandStart (c : Nat) (i : Nat) (h : Nat) (e : Nat) : Statement (.engineCommandStart c i h e) := fun _ h _ => nomatch h

theorem engineCommandComplete (c : Nat) (i : Nat) (k : Nat) : Statement (.engineCommandComplete c i k) := fun _ h _ => nomatch h

theorem collTransfer (c : Nat) (i : Nat) : Statement (.collTransfer c i) := fun _ h _ => nomatch h

theorem dispClaim (c : Nat) (i : Nat) : Statement (.dispClaim c i) := fun _ h _ => nomatch h

theorem rredRetry (c : Nat) (i : Nat) : Statement (.rredRetry c i) := fun _ h _ => nomatch h

theorem rredTimeout (c : Nat) (i : Nat) : Statement (.rredTimeout c i) := fun _ h _ => nomatch h

theorem placementAck (c : Nat) (i : Nat) : Statement (.placementAck c i) := fun _ h _ => nomatch h

theorem deferredTrap (c : Nat) : Statement (.deferredTrap c) := fun _ h _ => nomatch h

theorem combiningEntryAgeFlush (c : Nat) (i : Nat) : Statement (.combiningEntryAgeFlush c i) := fun _ h _ => nomatch h

theorem counterWaitSatisfied (c : Nat) : Statement (.counterWaitSatisfied c) := fun _ h _ => nomatch h

theorem counterWaitTimeout (c : Nat) : Statement (.counterWaitTimeout c) := fun _ h _ => nomatch h

theorem monitorPoll (c : Nat) : Statement (.monitorPoll c) := fun _ h _ => nomatch h

theorem versionSealWake (c : Nat) : Statement (.versionSealWake c) := fun _ h _ => nomatch h

theorem missingVersionTimeout (c : Nat) : Statement (.missingVersionTimeout c) := fun _ h _ => nomatch h

theorem versionCapacityWake (c : Nat) : Statement (.versionCapacityWake c) := fun _ h _ => nomatch h

theorem versionCapacityTimeout (c : Nat) : Statement (.versionCapacityTimeout c) := fun _ h _ => nomatch h

theorem bundleFetch (c : Nat) : Statement (.bundleFetch c) := fun _ h _ => nomatch h

theorem tileTaskRetire (c : Nat) : Statement (.tileTaskRetire c) := fun _ h _ => nomatch h

theorem doorbellWrite (f : Nat) (q : Nat) (v : Nat) : Statement (.doorbellWrite f q v) := fun _ h _ => nomatch h

theorem recordRead (q : Nat) (h : Nat) : Statement (.recordRead q h) := fun _ h _ => nomatch h

theorem queueSlotRequest (q : Nat) : Statement (.queueSlotRequest q) := fun _ h _ => nomatch h

theorem dependencesMet (q : Nat) : Statement (.dependencesMet q) := fun _ h _ => nomatch h

theorem gangPlacement (q : Nat) (pick : List Nat) : Statement (.gangPlacement q pick) := fun _ h _ => nomatch h

theorem quantumExpiry (q : Nat) : Statement (.quantumExpiry q) := fun _ h _ => nomatch h

theorem preemptForcedStop (c : Nat) : Statement (.preemptForcedStop c) := fun _ h _ => nomatch h

theorem contextSave (g : Nat) : Statement (.contextSave g) := fun _ h _ => nomatch h

theorem contextRestore (g : Nat) (ok : Nat) (pick : List Nat) : Statement (.contextRestore g ok pick) := fun _ h _ => nomatch h

theorem ctxCreate (c : Nat) : Statement (.ctxCreate c) := fun _ h _ => nomatch h

theorem ctxDestroy (c : Nat) : Statement (.ctxDestroy c) := fun _ h _ => nomatch h

theorem qBind (q : Nat) : Statement (.qBind q) := fun _ h _ => nomatch h

theorem qTeardownDrain (q : Nat) : Statement (.qTeardownDrain q) := fun _ h _ => nomatch h

theorem qTeardownKill (q : Nat) : Statement (.qTeardownKill q) := fun _ h _ => nomatch h

theorem qTeardownFreeze (q : Nat) : Statement (.qTeardownFreeze q) := fun _ h _ => nomatch h

theorem qRestore (q : Nat) : Statement (.qRestore q) := fun _ h _ => nomatch h

theorem preempt (g : Nat) : Statement (.preempt g) := fun _ h _ => nomatch h

theorem resume (g : Nat) : Statement (.resume g) := fun _ h _ => nomatch h

theorem derailleurEvaluation : Statement (.derailleurEvaluation) := fun _ h _ => nomatch h

theorem fillerStopTimeout (c : Nat) : Statement (.fillerStopTimeout c) := fun _ h _ => nomatch h

theorem drlCtlWrite (v : Nat) : Statement (.drlCtlWrite v) := fun _ h _ => nomatch h

theorem telemetryRecord : Statement (.telemetryRecord) := fun _ h _ => nomatch h

theorem traceSample (c : Nat) : Statement (.traceSample c) := fun _ h _ => nomatch h

theorem pmcRotation (c : Nat) : Statement (.pmcRotation c) := fun _ h _ => nomatch h

theorem pmcCtlWrite (c : Nat) (v : Nat) : Statement (.pmcCtlWrite c v) := fun _ h _ => nomatch h

theorem invAsid (a : Nat) : Statement (.invAsid a) := fun _ h _ => nomatch h

theorem invPage (a : Nat) : Statement (.invPage a) := fun _ h _ => nomatch h

theorem invWindow (a : Nat) (n : Nat) : Statement (.invWindow a n) := fun _ h _ => nomatch h

theorem invKey (k : Nat) : Statement (.invKey k) := fun _ h _ => nomatch h

theorem winMake (a : Nat) (n : Nat) : Statement (.winMake a n) := fun _ h _ => nomatch h

theorem regionSet (n : Nat) : Statement (.regionSet n) := fun _ h _ => nomatch h

theorem regionClear (n : Nat) : Statement (.regionClear n) := fun _ h _ => nomatch h

theorem parkResume (a : Nat) : Statement (.parkResume a) := fun _ h _ => nomatch h

theorem parkDrop (a : Nat) : Statement (.parkDrop a) := fun _ h _ => nomatch h

theorem translationWalk (i : Nat) : Statement (.translationWalk i) := fun _ h _ => nomatch h

theorem routeWr (d : Nat) : Statement (.routeWr d) := fun _ h _ => nomatch h

theorem routeHoldExpiry (d : Nat) : Statement (.routeHoldExpiry d) := fun _ h _ => nomatch h

theorem grpSet (g : Nat) : Statement (.grpSet g) := fun _ h _ => nomatch h

theorem grpClear (g : Nat) : Statement (.grpClear g) := fun _ h _ => nomatch h

theorem trunkTrain (n : Nat) : Statement (.trunkTrain n) := fun _ h _ => nomatch h

theorem trunkCfgWrite (n : Nat) (v : Nat) : Statement (.trunkCfgWrite n v) := fun _ h _ => nomatch h

theorem startFlit (n : Nat) (w : Nat) (bad : Nat) : Statement (.startFlit n w bad) := fun _ h _ => nomatch h

theorem contFlit (n : Nat) (w : Nat) (bad : Nat) : Statement (.contFlit n w bad) := fun _ h _ => nomatch h

theorem idleFlit (n : Nat) (w : Nat) (bad : Nat) : Statement (.idleFlit n w bad) := fun _ h _ => nomatch h

theorem replayReq (n : Nat) (w : Nat) (bad : Nat) : Statement (.replayReq n w bad) := fun _ h _ => nomatch h

theorem trainFlit (n : Nat) (w : Nat) (bad : Nat) : Statement (.trainFlit n w bad) := fun _ h _ => nomatch h

theorem replayReqRepeat (n : Nat) : Statement (.replayReqRepeat n) := fun _ h _ => nomatch h

theorem laneFail (n : Nat) (k : Nat) : Statement (.laneFail n k) := fun _ h _ => nomatch h

theorem trainingDone (n : Nat) (ok : Nat) : Statement (.trainingDone n ok) := fun _ h _ => nomatch h

theorem probationExpiry (n : Nat) : Statement (.probationExpiry n) := fun _ h _ => nomatch h

theorem wr (i : Nat) : Statement (.wr i) := fun _ h _ => nomatch h

theorem rd (i : Nat) : Statement (.rd i) := fun _ h _ => nomatch h

theorem amo (i : Nat) : Statement (.amo i) := fun _ h _ => nomatch h

theorem ctr (i : Nat) : Statement (.ctr i) := fun _ h _ => nomatch h

theorem ver (i : Nat) : Statement (.ver i) := fun _ h _ => nomatch h

theorem red (i : Nat) : Statement (.red i) := fun _ h _ => nomatch h

theorem rereq (i : Nat) : Statement (.rereq i) := fun _ h _ => nomatch h

theorem ackpl (i : Nat) : Statement (.ackpl i) := fun _ h _ => nomatch h

theorem data (i : Nat) : Statement (.data i) := fun _ h _ => nomatch h

theorem result (i : Nat) : Statement (.result i) := fun _ h _ => nomatch h

theorem partialRelease (i : Nat) : Statement (.partialRelease i) := fun _ h _ => nomatch h

theorem nack (i : Nat) : Statement (.nack i) := fun _ h _ => nomatch h

theorem mgmt (i : Nat) : Statement (.mgmt i) := fun _ h _ => nomatch h

theorem ptmoExpiry (i : Nat) : Statement (.ptmoExpiry i) := fun _ h _ => nomatch h

theorem ptmoHalfRereq (i : Nat) : Statement (.ptmoHalfRereq i) := fun _ h _ => nomatch h

theorem combiningUncorrectable (i : Nat) : Statement (.combiningUncorrectable i) := fun _ h _ => nomatch h

theorem packageReset (fw : List (List Nat)) : Statement (.packageReset fw) := fun _ h _ => nomatch h

theorem recoveryImage (k : Nat) (img : List (List Nat)) : Statement (.recoveryImage k img) := fun _ h _ => nomatch h

theorem getVersion (f : Nat) (b : List Nat) : Statement (.getVersion f b) := fun _ h _ => nomatch h

theorem getCapabilities (f : Nat) (b : List Nat) : Statement (.getCapabilities f b) := fun _ h _ => nomatch h

theorem negotiateAlgorithms (f : Nat) (b : List Nat) : Statement (.negotiateAlgorithms f b) := fun _ h _ => nomatch h

theorem getDigests (f : Nat) (b : List Nat) : Statement (.getDigests f b) := fun _ h _ => nomatch h

theorem getCertificate (f : Nat) (b : List Nat) : Statement (.getCertificate f b) := fun _ h _ => nomatch h

theorem challenge (f : Nat) (b : List Nat) : Statement (.challenge f b) := fun _ h _ => nomatch h

theorem getMeasurements (f : Nat) (b : List Nat) : Statement (.getMeasurements f b) := fun _ h _ => nomatch h

theorem keyExchange (f : Nat) (b : List Nat) : Statement (.keyExchange f b) := fun _ h _ => nomatch h

theorem finish (f : Nat) (b : List Nat) : Statement (.finish f b) := fun _ h _ => nomatch h

theorem heartbeat (f : Nat) (b : List Nat) : Statement (.heartbeat f b) := fun _ h _ => nomatch h

theorem keyUpdate (f : Nat) (b : List Nat) : Statement (.keyUpdate f b) := fun _ h _ => nomatch h

theorem endSession (f : Nat) (b : List Nat) : Statement (.endSession f b) := fun _ h _ => nomatch h

theorem keyProg (f : Nat) (b : List Nat) : Statement (.keyProg f b) := fun _ h _ => nomatch h

theorem keyErase (f : Nat) (b : List Nat) : Statement (.keyErase f b) := fun _ h _ => nomatch h

theorem unsupportedRequest (f : Nat) (b : List Nat) : Statement (.unsupportedRequest f b) := fun _ h _ => nomatch h

theorem ideKm (f : Nat) (b : List Nat) : Statement (.ideKm f b) := fun _ h _ => nomatch h

theorem ideIntegrityFailure (f : Nat) : Statement (.ideIntegrityFailure f) := fun _ h _ => nomatch h

theorem getDeviceInterfaceState (f : Nat) : Statement (.getDeviceInterfaceState f) := fun _ h _ => nomatch h

theorem lockInterfaceRequest (f : Nat) : Statement (.lockInterfaceRequest f) := fun _ h _ => nomatch h

theorem getDeviceInterfaceReport (f : Nat) : Statement (.getDeviceInterfaceReport f) := fun _ h _ => nomatch h

theorem startInterfaceRequest (f : Nat) : Statement (.startInterfaceRequest f) := fun _ h _ => nomatch h

theorem stopInterfaceRequest (f : Nat) : Statement (.stopInterfaceRequest f) := fun _ h _ => nomatch h

theorem vfQBind (f : Nat) (a : Nat) (n : Nat) : Statement (.vfQBind f a n) := fun _ h _ => nomatch h

theorem vfQTeardownDrain (f : Nat) (a : Nat) (n : Nat) : Statement (.vfQTeardownDrain f a n) := fun _ h _ => nomatch h

theorem vfQTeardownKill (f : Nat) (a : Nat) (n : Nat) : Statement (.vfQTeardownKill f a n) := fun _ h _ => nomatch h

theorem vfQTeardownFreeze (f : Nat) (a : Nat) (n : Nat) : Statement (.vfQTeardownFreeze f a n) := fun _ h _ => nomatch h

theorem vfQRestore (f : Nat) (a : Nat) (n : Nat) : Statement (.vfQRestore f a n) := fun _ h _ => nomatch h

theorem vfPreempt (f : Nat) (a : Nat) (n : Nat) : Statement (.vfPreempt f a n) := fun _ h _ => nomatch h

theorem vfResume (f : Nat) (a : Nat) (n : Nat) : Statement (.vfResume f a n) := fun _ h _ => nomatch h

theorem vfInvAsid (f : Nat) (a : Nat) (n : Nat) : Statement (.vfInvAsid f a n) := fun _ h _ => nomatch h

theorem vfInvPage (f : Nat) (a : Nat) (n : Nat) : Statement (.vfInvPage f a n) := fun _ h _ => nomatch h

theorem vfInvWindow (f : Nat) (a : Nat) (n : Nat) : Statement (.vfInvWindow f a n) := fun _ h _ => nomatch h

theorem vfInvKey (f : Nat) (a : Nat) (n : Nat) : Statement (.vfInvKey f a n) := fun _ h _ => nomatch h

theorem vfWinMake (f : Nat) (a : Nat) (n : Nat) : Statement (.vfWinMake f a n) := fun _ h _ => nomatch h

theorem vfRegionSet (f : Nat) (a : Nat) (n : Nat) : Statement (.vfRegionSet f a n) := fun _ h _ => nomatch h

theorem vfRegionClear (f : Nat) (a : Nat) (n : Nat) : Statement (.vfRegionClear f a n) := fun _ h _ => nomatch h

theorem vfParkResume (f : Nat) (a : Nat) (n : Nat) : Statement (.vfParkResume f a n) := fun _ h _ => nomatch h

theorem vfParkDrop (f : Nat) (a : Nat) (n : Nat) : Statement (.vfParkDrop f a n) := fun _ h _ => nomatch h

theorem entryWr (f : Nat) (a : Nat) (sel : Nat) (n : Nat) : Statement (.entryWr f a sel n) := fun _ h _ => nomatch h

theorem dbgSessionWrite (n : Nat) (v : Nat) : Statement (.dbgSessionWrite n v) := fun _ h _ => nomatch h

theorem dbgStop (n : Nat) : Statement (.dbgStop n) := fun _ h _ => nomatch h

theorem dbgResume (n : Nat) : Statement (.dbgResume n) := fun _ h _ => nomatch h

theorem dbgStep (n : Nat) : Statement (.dbgStep n) := fun _ h _ => nomatch h

theorem dbgDataRead (n : Nat) : Statement (.dbgDataRead n) := fun _ h _ => nomatch h

theorem dbgDataWrite (n : Nat) (v : Nat) : Statement (.dbgDataWrite n v) := fun _ h _ => nomatch h

theorem replayParting (c : Nat) : Statement (.replayParting c) := fun _ h _ => nomatch h

theorem ppsEdge : Statement (.ppsEdge) := fun _ h _ => nomatch h

theorem todMessage (b : List Nat) : Statement (.todMessage b) := fun _ h _ => nomatch h

theorem todByteGap : Statement (.todByteGap) := fun _ h _ => nomatch h

theorem todDeadline : Statement (.todDeadline) := fun _ h _ => nomatch h

theorem timeLock (t : Nat) (p : Int) : Statement (.timeLock t p) := fun _ h _ => nomatch h

theorem timeSourceLoss : Statement (.timeSourceLoss) := fun _ h _ => nomatch h

theorem registerWrite (f : Nat) (off : Nat) (v : Nat) : Statement (.registerWrite f off v) := fun _ h _ => nomatch h

end Sys2Proof.Laws.RoundTrip
end

