-- ==== Sys2Proof/Safety.lean ====
section
/-! DEFINITION. Safety: what counts as a safe run, and the shapes of a step that the statements speak of: which part of the package a step
may change, and how. -/

namespace Sys2Proof.Machine

/-- A run of `n` steps that neither faults nor is refused. -/
inductive Runs : Nat → State → State → Prop where
  | done (s : State) : Runs 0 s s
  | more {n : Nat} {s t u : State} : step s = .next t → Runs n t u → Runs (n + 1) s u

/-- Nothing outside core `c` differs: memory, device registers, hub, scheduler and every other core are the same. -/
def OnlyCore (s t : State) (c : Nat) : Prop := { t with cores := s.cores } = s ∧ ∀ n, n ≠ c → coreAt t n = coreAt s n

/-- Nothing outside core `c` and the bundle being issued differs. -/
def OnlyBundle (s t : State) (c : Nat) : Prop :=
  { t with cores := s.cores, issue := s.issue } = s ∧ ∀ n, n ≠ c → coreAt t n = coreAt s n

/-- Scalar register `d` of the core in question takes `v` (s0 stays zero, R184); every other scalar register and everything else of
the core and the package is unchanged, but that a pending result for the same register which lands no later is overtaken (R301). -/
def ScalarStep (s t : State) (d : Nat) (v : Word) : Prop :=
  let k := live s
  let k' := coreAt t (hereNo s)
  OnlyCore s t (hereNo s) ∧ sreg k' d = (if d = 0 then 0 else v) ∧ (∀ n, n ≠ d → sreg k' n = sreg k n) ∧
  k' = { k with r := { k.r with s := k'.r.s },
                f := { k.f with wb := k.f.wb.filter fun e => !(e.dest.sameReg (.sreg d v) && e.land ≤ k.q.act) } }

/-- The predicates that `w` names take its values (p0 stays true, R41); every other predicate and everything else is unchanged, but the
cycle in which a written predicate became final (R311) and overtaken results (R301). -/
def PredStep (s t : State) (w : Nat → Option Bool) : Prop :=
  let k := live s
  let k' := coreAt t (hereNo s)
  OnlyCore s t (hereNo s) ∧ (∀ n, n < 16 → preg k' n = if n = 0 then true else (w n).getD (preg k n)) ∧
  (∀ e, e ∈ k'.f.wb → e ∈ k.f.wb) ∧
  k' = { k with r := { k.r with p := k'.r.p }, f := { k.f with wb := k'.f.wb }, q := { k.q with pfinal := k'.q.pfinal } }

/-- Results set out to land `lat` active cycles on (R299), in order; nothing else changes. -/
def LateStep (s t : State) (lat : Nat) (l : List WbDest) : Prop :=
  let k := live s
  OnlyCore s t (hereNo s) ∧
  coreAt t (hereNo s) = { k with f := { k.f with wb := k.f.wb ++ l.map fun d => ⟨k.q.act + lat - 1, k.q.seq, d⟩ } }

/-- A precise fault of the bundle being issued is on record, and nothing else happens (R447). -/
def recorded (s : State) (b : Issue) (cause detail : Nat) (addr : Word) : State :=
  { s with issue := some { b with faults := b.faults ++ [⟨b.slot, cause, detail, addr⟩] } }

end Sys2Proof.Machine
end

