-- ==== Sys2Proof/Certificates/Slice0/Obligations.lean ====
section
/-! DEFINITION. Obligations: what is claimed of the model, each from the rules of the spec that its docstring names. -/

open Sys2Proof Sys2Proof.Machine

noncomputable section

/-- Every slot operation, of every class, that issues while its guard predicate is false leaves the whole state as it is: no
register, no memory, no fault, no access. (derived: spec/02_tile_tasks_and_supersteps.md R41) -/
def Obligations.GuardOffChangesNothing : Prop :=
  ∀ (s : State) (i : Instr), i.slotClass.isSome = true → guardOf s (foot i).guard = false → exec i s = .next s

/-- Under a true guard each latency-1 integer, logic, shift, select, immediate, handle and move form completes: its destination
holds the value of the tables of R185, R189, R190 and R191 computed from the registers as they stood before the bundle, a write
to s0 is discarded, and every other scalar register, predicate, flag, special register and byte of memory is unchanged. Under a
true guard each multiply and divide completes: for a destination other than s0 its result is set out to land 3 active cycles on
for a multiply and 12 or 20 for a divide by the classes of R302, with the value of R185 and R186 (division by zero gives -1 or
2^64 - 1 and the dividend; the most negative number over -1 gives itself and 0); for s0 nothing changes at all. (derived:
spec/09_control_and_scalar_instructions.md R184, spec/09_control_and_scalar_instructions.md R185,
spec/09_control_and_scalar_instructions.md R189, spec/09_control_and_scalar_instructions.md R190,
spec/09_control_and_scalar_instructions.md R191, spec/17_scheduling_contract.md R302, spec/09_control_and_scalar_instructions.md
R186) -/
def Obligations.IntegerResults : Prop :=
  (
  ∀ (s : State) (p d a b n k : Nat), guardOf s p = true →
    let x := sreg (here s) a
    let y := sreg (here s) b
    ∀ e ∈ [(Instr.add p d a b, x + y), (.sub p d a b, x - y), (.and p d a b, x &&& y), (.or p d a b, x ||| y),
      (.xor p d a b, x ^^^ y), (.andn p d a b, x &&& ~~~y), (.sll p d a b, x <<< (y.toNat % 64)),
      (.srl p d a b, x >>> (y.toNat % 64)), (.sra p d a b, x.sshiftRight (y.toNat % 64)), (.slli p d a n, x <<< n),
      (.srli p d a n, x >>> n), (.srai p d a n, x.sshiftRight n), (.min p d a b, if x.toInt ≤ y.toInt then x else y),
      (.max p d a b, if x.toInt ≤ y.toInt then y else x), (.minu p d a b, if x.toNat ≤ y.toNat then x else y),
      (.maxu p d a b, if x.toNat ≤ y.toNat then y else x),
      (.popc p d a, BitVec.ofNat 64 ((List.range 64).filter fun i => x.getLsbD i).length),
      (.clz p d a, BitVec.ofNat 64 (if x = 0 then 64 else 63 - x.toNat.log2)),
      (.sel p k d a b, if preg (here s) k then x else y),
      (.addi p d n, sreg (here s) d + BitVec.ofInt 64 (sextN 12 n)), (.li p d n, BitVec.ofInt 64 (sextN 12 n)),
      (.lic p d n, BitVec.ofNat 64 n), (.kconst p d n, (here s).prog.consts.getD n 0), (.hmk p d n, BitVec.ofNat 64 (n * 2 ^ 56)),
      (.hsz p d n, if (handle (here s) n).valid then BitVec.ofNat 64 ((handle (here s) n).rows * (handle (here s) n).rowb) else 0),
      (.hrow p d n, if (handle (here s) n).valid then BitVec.ofNat 64 (handle (here s) n).rowb else 0),
      (.mfpr p d, ((here s).r.p ||| 1#16).setWidth 64), (.mflc p d n, BitVec.ofNat 64 (spGet 0 (here s).r.lc n)),
      (.mfb p d n, (bReg (here s) n).setWidth 64), (.mfmm p d n, mmReg (here s) n),
      (.sysrd p d n, sysRead s (hereNo s) (here s) n)],
    ∃ t, exec e.1 s = .next t ∧ ScalarStep s t d e.2) ∧
  (
  ∀ (s : State) (p d a b : Nat), guardOf s p = true →
    let x := sreg (here s) a
    let y := sreg (here s) b
    let corner := x = BitVec.ofNat 64 (2 ^ 63) ∧ y = BitVec.ofInt 64 (-1)
    let small := fun (w : Word) => -(2 ^ 31) ≤ w.toInt ∧ w.toInt < 2 ^ 31
    let latS := if y = 0 ∨ corner ∨ (small x ∧ small y) then 12 else 20
    let latU := if y = 0 ∨ (x.toNat < 2 ^ 32 ∧ y.toNat < 2 ^ 32) then 12 else 20
    ∀ e ∈ [(Instr.mul p d a b, 3, x * y), (.mulh p d a b, 3, BitVec.ofInt 64 (x.toInt * y.toInt / 2 ^ 64)),
      (.mulhu p d a b, 3, BitVec.ofNat 64 (x.toNat * y.toNat / 2 ^ 64)),
      (.div p d a b, latS, if y = 0 then BitVec.ofInt 64 (-1) else if corner then x else BitVec.ofInt 64 (x.toInt.tdiv y.toInt)),
      (.divu p d a b, latU, if y = 0 then BitVec.ofNat 64 (2 ^ 64 - 1) else BitVec.ofNat 64 (x.toNat / y.toNat)),
      (.rem p d a b, latS, if y = 0 then x else if corner then 0 else BitVec.ofInt 64 (x.toInt - y.toInt * x.toInt.tdiv y.toInt)),
      (.remu p d a b, latU, if y = 0 then x else BitVec.ofNat 64 (x.toNat % y.toNat))],
    ∃ t, exec e.1 s = .next t ∧ if d = 0 then t = s else LateStep s t e.2.1 [.sreg d e.2.2])

/-- For each listed register number the value that a read of the control registers gives is the field layout of R180 to R183 over
the core and its task: SCR and CHECK_CTL as they stand; CORE_STATUS with ASID of the running task (0 with none), the stepping
code B1, die, quad, core and package-wide number of the core and zero in every reserved bit; PWR_CLASS; DEVTIME the whole
nanoseconds of device time, which the model counts in 1/19,000,000 ns (log 8); and HTAB0 to HTAB255 the handle table entries. As
its bundle issues under a true guard, syswr writes SCR without its reserved bits, or faults ILLEGAL_SLOT for a reserved FRND
code and leaves SCR as it is; it writes the CHK bit alone of CHECK_CTL, all of RNGS with 0 taken as 1, and the loss counters. A
sticky bit written 1 is set: the reading of log 73. (derived: spec/09_control_and_scalar_instructions.md R179,
spec/09_control_and_scalar_instructions.md R180, spec/09_control_and_scalar_instructions.md R181,
spec/09_control_and_scalar_instructions.md R182, spec/25_derailleur_and_telemetry.md R437,
spec/09_control_and_scalar_instructions.md R183) -/
def Obligations.ControlRegisters : Prop :=
  (
  ∀ (s : State) (c : Nat) (k : Core), sysRead s c k 0 = k.r.scr ∧
    (c < 192 → (∀ b, k.bind = some b → b.asid < 2 ^ 14) →
      let v := (sysRead s c k 1).toNat
      bits v 63 46 = 0 ∧ bits v 45 32 = (match k.bind with | some b => b.asid | none => 0) ∧ bits v 31 24 = 0xB1 ∧ bits v 23 18 = 0 ∧
      bits v 17 16 = c / 48 ∧ bits v 15 12 = c % 48 / 4 ∧ bits v 11 10 = c % 4 ∧ bits v 9 8 = 0 ∧ bits v 7 0 = c) ∧
    sysRead s c k 2 = k.r.check ∧
    sysRead s c k 3 = (match k.bind with
      | some b => BitVec.ofNat 64 (b.pclass + (if b.pinned then 8 else 0) + (if b.filler then 16 else 0)) | none => 0) ∧
    sysRead s c k 4 = BitVec.ofNat 64 (s.dev / 19000000) ∧ sysRead s c k 5 = k.r.rngs ∧ sysRead s c k 6 = k.r.alnLoss ∧
    sysRead s c k 7 = k.r.cvtLoss ∧ sysRead s c k 8 = BitVec.ofNat 64 k.r.pbc ∧
    sysRead s c k 9 = BitVec.ofNat 64 (k.r.depth % 65536) ∧ sysRead s c k 10 = k.r.ssn ∧
    (∀ h, h < 256 → sysRead s c k (0x100 + h) = spGet 0 k.m.htab h)) ∧
  (
  ∀ (s : State) (bu : Issue) (p a : Nat), s.issue = some bu → guardOf s p = true →
    let v := sreg (here s) a
    let set := fun (f : Regs → Regs) => wr s fun k => { k with r := f k.r }
    let frnd := v.toNat / 512 % 8
    exec (.syswr p a 0) s = .next (if frnd = 4 ∨ 6 ≤ frnd then recorded s bu 0x01 0 0 else set fun r => { r with scr := v &&& 0xFE7F#64 }) ∧
    exec (.syswr p a 2) s = .next (set fun r => { r with check := v &&& 1#64 }) ∧
    exec (.syswr p a 5) s = .next (wr { s with issue := some { bu with rngWr := true } } fun k =>
      { k with r := { k.r with rngs := if v = 0 then 1 else v } }) ∧
    exec (.syswr p a 6) s = .next (set fun r => { r with alnLoss := v }) ∧
    exec (.syswr p a 7) s = .next (set fun r => { r with cvtLoss := v }))

/-- Under a true guard a compare writes its condition to p(2k) and the negation to p(2k + 1), with k = 0 only p1, and plog writes
the bit of its truth table that two predicates select; p0 stays true, no other predicate and nothing else changes. (stated:
R187, R188) -/
def Obligations.PredicateResults : Prop :=
  ∀ (s : State) (p k d a b i j tt : Nat), guardOf s p = true → k < 8 → 1 ≤ d → d < 16 →
    let x := sreg (here s) a
    let y := sreg (here s) b
    (∀ e ∈ [(Instr.cmpEq p k a b, decide (x = y)), (.cmpLt p k a b, x.slt y), (.cmpLtu p k a b, x.ult y),
        (.cmpLe p k a b, x.sle y), (.cmpLeu p k a b, x.ule y)],
      ∃ t, exec e.1 s = .next t ∧ PredStep s t fun n => if n = 2 * k then some e.2 else if n = 2 * k + 1 then some (!e.2) else none) ∧
    ∃ t, exec (.plog p d i j tt) s = .next t ∧ PredStep s t fun n =>
      if n = d then some (tt.testBit (2 * (preg (here s) i).toNat + (preg (here s) j).toNat)) else none

/-- Under a true guard, as its bundle issues: mtpr writes p15 to p1 from its register; mtb writes a branch target, or faults
INDEX_RANGE when any of bits 63:24 is set; mtmm writes a mode register; stset.z zeroes a stream register and stset.cp copies
one; stset.f writes one field from the low bits of its source (selector 0 the handle from bits 7:0 and the target from bit 8; an
index field it writes brought to at most its count, no other field), or faults ILLEGAL_SLOT on a reserved format or rounding
code. Of the core nothing else changes; the bundle notes a stream that was set. (derived:
spec/09_control_and_scalar_instructions.md R163, spec/09_control_and_scalar_instructions.md R191,
spec/09_control_and_scalar_instructions.md R192, spec/03_named_spaces_handles_and_tiles.md R62,
spec/03_named_spaces_handles_and_tiles.md R64) -/
def Obligations.WritesOfOtherRegisters : Prop :=
  ∀ (s : State) (bu : Issue) (p n m a f : Nat), s.issue = some bu → guardOf s p = true →
    let v := sreg (here s) a
    let st := stReg (here s) n
    let noted := fun (x : BitVec 256) => wr { s with issue := some { bu with stWr := n :: bu.stWr } } fun k =>
      { k with r := { k.r with st := spSet k.r.st n x } }
    (∃ t, exec (.mtpr p a) s = .next t ∧ PredStep s t fun k => some (v.getLsbD k)) ∧
    exec (.mtb p n a) s = .next (if v.toNat < 2 ^ 24 then wr s fun k =>
      { k with r := { k.r with b := spSet k.r.b n (v.setWidth 24), bprep := spDel k.r.bprep n } } else recorded s bu 0x02 0 0) ∧
    exec (.mtmm p n a) s = .next (wr s fun k => { k with r := { k.r with mm := spSet k.r.mm n v } }) ∧
    exec (.stsetZ p n) s = .next (noted 0) ∧ exec (.stsetCp p n m) s = .next (noted (stReg (here s) m)) ∧
    exec (.stsetF p n 0 a) s = .next (noted (setBits (setBits st 248 8 ((v &&& 0xFF#64).setWidth 256)) 247 1 (BitVec.ofNat 256 (v.toNat / 256 % 2)))) ∧
    ∀ lo w, (f, lo, w) ∈ [(1, 242, 5), (2, 240, 2), (3, 237, 3), (4, 212, 22), (5, 196, 16), (6, 173, 23), (7, 157, 16), (8, 134, 23),
        (9, 118, 16), (10, 95, 23), (11, 73, 22), (12, 56, 17), (13, 32, 16), (14, 16, 16), (15, 0, 16)] →
      let x := setBits st lo w (v.setWidth 256)
      exec (.stsetF p n f a) s = .next (
        if f = 1 ∧ 0x14 < v.toNat % 32 then recorded s bu 0x01 0 0 else if f = 3 ∧ rmode (v.toNat % 8) = none then recorded s bu 0x01 0 0
        else if f < 13 then noted x
        else noted (setBits x lo 16 (BitVec.ofNat 256 (if f = 13 then (stream x).i0 % ((stream x).cnt0 + 1)
          else if f = 14 then (stream x).i1 % ((stream x).cnt1 + 1) else (stream x).i2 % ((stream x).cnt2 + 1)))))

/-- Under a true guard and SCR.RM = 0 each FP64 form completes: its result is set out to land at the latency of R302 (nothing for
s0), the scalar floating datapath is taken for that long, and the sticky bits it raises are ORed into SCR as it stands; a sum,
difference, product, quotient or root is the exact one rounded once under SCR.FRND. Under a true guard and SCR.RM = 0 an FP64
compare sets out its condition for p(2k) and the negation for p(2k + 1), 2 active cycles on; eq, lt and le are false when an
operand is NaN and un is true exactly then; no sticky bit is set. (derived: spec/09_control_and_scalar_instructions.md R180,
spec/09_control_and_scalar_instructions.md R193, spec/09_control_and_scalar_instructions.md R194,
spec/09_control_and_scalar_instructions.md R195, spec/17_scheduling_contract.md R302) -/
def Obligations.Fp64Forms : Prop :=
  (
  ∀ (s : State) (p d a b : Nat), guardOf s p = true → scrRM (here s).r.scr = false →
    let x := sreg (here s) a
    let y := sreg (here s) b
    let scr := (here s).r.scr
    let rm := frndMode scr
    let fx := fpRead fp64 x.toNat
    let fy := fpRead fp64 y.toNat
    let round := fun (r : FpRes) => (BitVec.ofNat 64 (fpWrite fp64 rm 0 r).pat, fpSticky r (fpWrite fp64 rm 0 r))
    ∀ e ∈ [(Instr.fadd p d a b, 4, round (fpAdd rm fx fy)), (.fsub p d a b, 4, round (fpAdd rm fx (fpNegV fy))),
      (.fmul p d a b, 4, round (fpMul fx fy)), (.fdiv p d a b, 20, round (fpDiv fx fy)), (.fsqrt p d a, 24, round (fpSqrt fx)),
      (.fmin p d a b, 2, (BitVec.ofNat 64 (fpMinMax fp64 false x.toNat y.toNat), 0)),
      (.fmax p d a b, 2, (BitVec.ofNat 64 (fpMinMax fp64 true x.toNat y.toNat), 0)),
      (.fabs p d a, 2, (x &&& 0x7FFFFFFFFFFFFFFF#64, 0)), (.fneg p d a, 2, (x ^^^ 0x8000000000000000#64, 0)),
      (.fcvtD2l p d a, 4, fd2l scr x 0), (.fcvtL2d p d a, 4, fl2d scr x 0), (.fcvtD2s p d a, 4, fd2s scr x 0),
      (.fcvtS2d p d a, 4, fs2d scr x 0)],
    exec e.1 s = .next (wr s fun k => { k with
      r := { k.r with scr := k.r.scr ||| e.2.2.2 }
      f := { k.f with fpBusy := k.q.act + e.2.1,
                      wb := if d = 0 then k.f.wb else k.f.wb ++ [⟨k.q.act + e.2.1 - 1, k.q.seq, .sreg d e.2.2.1⟩] } })) ∧
  (
  ∀ (s : State) (p k a b : Nat), guardOf s p = true → scrRM (here s).r.scr = false →
    let x := fpRead fp64 (sreg (here s) a).toNat
    let y := fpRead fp64 (sreg (here s) b).toNat
    let nan := x.isNan || y.isNan
    ∀ e ∈ [(Instr.fcmpEq p k a b, !nan && !fpLt false x y && !fpLt false y x), (.fcmpLt p k a b, !nan && fpLt false x y),
      (.fcmpLe p k a b, !nan && !fpLt false y x), (.fcmpUn p k a b, nan)],
    exec e.1 s = .next (wr s fun c => { c with f := { c.f with
      fpBusy := c.q.act + 2
      wb := c.f.wb ++ [⟨c.q.act + 1, c.q.seq, .pred (2 * k) e.2⟩, ⟨c.q.act + 1, c.q.seq, .pred (2 * k + 1) (!e.2)⟩] } }))

/-- Under a true guard every rational-only form (gcd, mk, med, near, num, den, class, canon, the conversions), and with SCR.RM = 1
every form of opcodes 0x30 to 0x3A, puts one rational operation in flight with its opcode, function, destination, operands, SCR
and slot word, to land after the latency of R303. Only an fs.mk by 0, or an fdiv that meets a zero divisor, under ZDT sets ZD
and traps FS_ZERO_DENOMINATOR instead. With a rational operation in flight in a core, RATIONAL_RESULT changes nothing before its
landing cycle is over, and then ends it: its value goes to its scalar register (discarded for s0), or for a compare that no loop
operation overrides to its predicate pair, its sticky bits are ORed into SCR, and operations that wait to start again go on
waiting. The values of fs.gcd, fs.mk, fs.num, fs.den, fs.class, fs.canon, fneg and of fs.med on finite fractions are those of
R202, R204 and R205. (derived: spec/10_rational_instructions.md R196, spec/10_rational_instructions.md R200,
spec/10_rational_instructions.md R201, spec/10_rational_instructions.md R202, spec/10_rational_instructions.md R203,
spec/10_rational_instructions.md R204, spec/10_rational_instructions.md R205, spec/17_scheduling_contract.md R303,
spec/10_rational_instructions.md R198) -/
def Obligations.RationalOperations : Prop :=
  (
  ∀ (s : State) (bu : Issue) (p d a b : Nat), s.issue = some bu → guardOf s p = true →
    let x := sreg (here s) a
    let y := sreg (here s) b
    let scr := (here s).r.scr
    let flight := fun (op fn : Nat) (v w : Word) (b : Nat) =>
      let r : RatOp := ⟨op, fn, d, v, w, scr, 0, false, 0, ratWord p op fn d a b⟩
      let n := ratLatency r
      wr s fun k => { k with f := { k.f with rat := some { r with land := k.q.act + n - 1, lat := n }, fpBusy := k.q.act + n } }
    let zero := recorded (wr s fun k => { k with r := { k.r with scr := k.r.scr ||| 0x40 } }) bu 0x17 0 0
    let byZero := (ratEval ⟨0x33, 0, d, x, y, scr, 0, false, 0, 0⟩).zd
    exec (.fsGcd p d a b) s = .next (flight 0x3B 0 x y b) ∧
    exec (.fsMed p d a b) s = .next (flight 0x3D 0 x y b) ∧
    exec (.fsNear p d a b) s = .next (flight 0x3E 0 x y b) ∧
    (y ≠ 0 ∨ scrZDT scr = false → exec (.fsMk p d a b) s = .next (flight 0x3C 0 x y b)) ∧
    (y = 0 → scrZDT scr = true → exec (.fsMk p d a b) s = .next zero) ∧
    (∀ e ∈ [(Instr.fsNum p d a, 0), (.fsDen p d a, 1), (.fsClass p d a, 2), (.fsCanon p d a, 3), (.fsCvtF32 p d a, 4),
      (.fsCvtE8 p d a, 5), (.fsPack32 p d a, 6), (.fsUnpk32 p d a, 7)], exec e.1 s = .next (flight 0x3F e.2 x 0 0)) ∧
    (scrRM scr = true →
      (∀ e ∈ [(Instr.fadd p d a b, 0x30, 0), (.fsub p d a b, 0x31, 0), (.fmul p d a b, 0x32, 0),
        (.fmin p d a b, 0x35, 0), (.fmax p d a b, 0x36, 0), (.fcmpEq p d a b, 0x37, 0), (.fcmpLt p d a b, 0x37, 1),
        (.fcmpLe p d a b, 0x37, 2), (.fcmpUn p d a b, 0x37, 3)], exec e.1 s = .next (flight e.2.1 e.2.2 x y b)) ∧
      (byZero = false ∨ scrZDT scr = false → exec (.fdiv p d a b) s = .next (flight 0x33 0 x y b)) ∧
      (byZero = true → scrZDT scr = true → exec (.fdiv p d a b) s = .next zero) ∧
      (∀ e ∈ [(Instr.fsqrt p d a, 0x34, 0), (.fcvtD2l p d a, 0x38, 0), (.fcvtL2d p d a, 0x38, 1), (.fcvtD2s p d a, 0x38, 2),
        (.fcvtS2d p d a, 0x38, 3), (.fabs p d a, 0x39, 0), (.fneg p d a, 0x3A, 0)], exec e.1 s = .next (flight e.2.1 e.2.2 x 0 0)))) ∧
  (
  ∀ (s : State) (c : Nat) (r : RatOp), (coreAt s c).f.rat = some r →
    ((coreAt s c).q.act ≤ r.land → exec (.rationalResult c) s = .next (modCore s c id)) ∧
    (r.land < (coreAt s c).q.act → ∃ t, exec (.rationalResult c) s = .next t ∧ OnlyCore s t c ∧
      (coreAt t c).f = { (coreAt s c).f with rat := none } ∧
      (coreAt t c).r.scr = (coreAt s c).r.scr ||| (ratEval r).sticky ∧ (coreAt t c).m = (coreAt s c).m ∧
      (r.op ≠ 0x37 → (coreAt t c).r.p = (coreAt s c).r.p ∧ ∀ n, sreg (coreAt t c) n =
        if n = r.d ∧ n ≠ 0 then (ratEval r).v else sreg (coreAt s c) n) ∧
      (r.op = 0x37 → (∀ n, sreg (coreAt t c) n = sreg (coreAt s c) n) ∧ ∀ n, n < 16 → r.d < 8 → preg (coreAt t c) n =
        if n = 0 then true else if r.void = true then preg (coreAt s c) n else if n = 2 * r.d then (ratEval r).cond
        else if n = 2 * r.d + 1 then !(ratEval r).cond else preg (coreAt s c) n)) ∧
    (r.op = 0x3B → (ratEval r).v = BitVec.ofNat 64 (Nat.gcd r.a.toNat r.b.toNat) ∧ (ratEval r).sticky = 0) ∧
    (r.op = 0x3C → r.b ≠ 0 →
      (ratEval r).v = fsPat (fsRound 57 (fsMode (scrRMODE r.scr)) r.a.msb ⟨r.a.toInt.natAbs, r.b.toNat, false⟩).v) ∧
    (r.op = 0x3D → ∀ m n j k g h, (fsRead r.a).1 = .fin g m j → (fsRead r.b).1 = .fin h n k → j ≠ 0 →
      let top : Int := (if g then -(m : Int) else m) + (if h then -(n : Int) else n)
      (ratEval r).v = fsPat (fsRound 57 (fsMode (scrRMODE r.scr)) (decide (top < 0)) ⟨top.natAbs, j + k, false⟩).v) ∧
    (r.op = 0x3A → (ratEval r).v = fsPat (fsNeg (fsRead r.a).1)) ∧
    (r.op = 0x3F → (r.fn = 0 → (ratEval r).v = match (fsRead r.a).1 with
        | .nar => 0 | .inf n => if n then BitVec.ofInt 64 (-1) else 1 | .fin n x _ => BitVec.ofInt 64 (if n then -(x : Int) else x)) ∧
      (r.fn = 1 → (ratEval r).v = match (fsRead r.a).1 with | .fin _ _ k => BitVec.ofNat 64 k | _ => 0) ∧
      (r.fn = 2 → (ratEval r).v = fsClassBits r.a) ∧ (r.fn = 3 → (ratEval r).v = fsPat (fsRead r.a).1)))

/-- As its bundle issues under a true guard: pbr writes bundle address + sext(rel) to a branch target, pbr.s its register or faults
INDEX_RANGE; br redirects when its predicate is true and br.n when it is false, and otherwise nothing changes; call redirects to
its target and has the return address pushed, or faults where h255 cannot take the spilled entry; ret at depth 0 faults
RSTACK_EMPTY, else it pops the newest entry and redirects there, an entry spilled to h255 coming back into the held ones. A
taken transfer leaves the loop levels alone, a call does not. (derived: spec/09_control_and_scalar_instructions.md R163,
spec/09_control_and_scalar_instructions.md R164, spec/09_control_and_scalar_instructions.md R165,
spec/09_control_and_scalar_instructions.md R166, spec/09_control_and_scalar_instructions.md R167) -/
def Obligations.BranchesAndCalls : Prop :=
  ∀ (s : State) (bu : Issue) (p b q a r : Nat), s.issue = some bu → guardOf s p = true →
    let c := here s
    let v := sreg c a
    let put := fun (x : BitVec 24) => wr s fun k => { k with r := { k.r with b := spSet k.r.b b x, bprep := [(b, k.q.act)] } }
    let go := fun (t : State) (target bubble : Nat) => { t with issue := some { bu with redirect := some (target, bubble), noLoop := true } }
    let d := c.r.depth
    let spill := fun (o : Nat) => handleFault (handle c 255) (o : Int) 4
    exec (.pbr p b r) s = .next (put (BitVec.ofInt 24 ((bu.pc : Int) + sextN 12 r))) ∧
    exec (.pbrS p b a) s = .next (if v.toNat < 2 ^ 24 then put (v.setWidth 24) else recorded s bu 0x02 0 0) ∧
    exec (.br p b q) s = .next (if preg c q = true then go s (bReg c b).toNat (bubbleOf c b) else s) ∧
    exec (.brN p b q) s = .next (if preg c q = true then s else go s (bReg c b).toNat (bubbleOf c b)) ∧
    (d < 16 ∨ spill (4 * (d - 16)) = none → exec (.call p b) s = .next { s with issue := some { bu with
      redirect := some ((bReg c b).toNat, bubbleOf c b), calls := some (bReg c b).toNat } }) ∧
    (∀ f, 16 ≤ d → spill (4 * (d - 16)) = some f → exec (.call p b) s = .next (recorded s bu f 0 0)) ∧
    (d = 0 → exec (.ret p) s = .next (recorded s bu 0x0A 0 0)) ∧
    (1 ≤ d → d ≤ 16 → exec (.ret p) s = .next (go (wr s fun k => { k with r := { k.r with rstack := k.r.rstack.drop 1, depth := d - 1 } })
      ((c.r.rstack.headD 0).toNat) 2)) ∧
    (16 < d → spill (4 * (d - 17)) = none → exec (.ret p) s = .next (go (wr s fun k => { k with r := { k.r with
      rstack := k.r.rstack.drop 1 ++ [BitVec.ofNat 24 (leNat (spadRead c (handle c 255) (4 * (d - 17)) 4))], depth := d - 1 } })
      ((c.r.rstack.headD 0).toNat) 4)) ∧
    (∀ f, 16 < d → spill (4 * (d - 17)) = some f → exec (.ret p) s = .next (recorded s bu f 0 0))

/-- As its bundle issues under a true guard, loop and loop.swp end the level where it is active with every level started after it,
and then: at bound 0 send fetch past the body end, else zero the level counter, make the level innermost, take the stage
predicates of pass 0 in a level of several stages, and send fetch to the body start. lbrk of an active level ends it and those
started after it, leaves its counter, clears p8 to p15 when an ended level used stages, and sends fetch past the body end; of a
level not active it changes nothing. Of the registers nothing else changes. (derived: spec/09_control_and_scalar_instructions.md
R168, spec/09_control_and_scalar_instructions.md R169, spec/02_tile_tasks_and_supersteps.md R39) -/
def Obligations.LoopOperations : Prop :=
  ∀ (s : State) (bu : Issue) (p i : Nat), s.issue = some bu → guardOf s p = true →
    let c := here s
    let lv := levelOf c i
    let on := c.r.loops.contains i
    let kept := if on = true then (c.r.loops.dropWhile (· != i)).drop 1 else c.r.loops
    let staged := on = true ∧ ∃ j, (j = i ∨ j ∈ c.r.loops.takeWhile (· != i)) ∧ 1 < (levelOf c j).stages
    let past := lv.bend + wordsAt c lv.bend
    (∀ op ∈ [Instr.loop p i, Instr.loopSwp p i], ∃ t j, exec op s = .next t ∧ t.issue = some j ∧ j.noLoop = true ∧
      j.redirect.map Prod.fst = some (if lv.bound = 0 then past else lv.bstart) ∧
      (coreAt t bu.core).r = { (coreAt s bu.core).r with
        loops := if lv.bound = 0 then kept else i :: kept
        lc := if lv.bound = 0 then (coreAt s bu.core).r.lc else spSet (coreAt s bu.core).r.lc i 0 } ∧
      (0 < lv.bound → 1 < lv.stages → j.stageSet = some 1) ∧ (staged → ¬(0 < lv.bound ∧ 1 < lv.stages) → j.stageSet = some 0) ∧
      (¬staged → ¬(0 < lv.bound ∧ 1 < lv.stages) → j.stageSet = bu.stageSet)) ∧
    (on = false → exec (.lbrk p i) s = .next s) ∧
    (on = true → ∃ t j, exec (.lbrk p i) s = .next t ∧ t.issue = some j ∧ j.noLoop = true ∧ j.redirect.map Prod.fst = some past ∧
      (coreAt t bu.core).r = { (coreAt s bu.core).r with loops := kept } ∧ (staged → j.stageSet = some 0) ∧ (¬staged → j.stageSet = bu.stageSet))

/-- As its bundle issues under a true guard, a counter wait on a counter of this package looks at it once (a read of HBM that ECC
corrects or cannot correct is counted; under STRICT the latter traps UNCORRECTABLE). Not poisoned and with the threshold
reached, the wait is over and nothing else changes; poisoned, it writes false to its guard predicate, or in the trapping forms
traps POISONED_WAIT; not reached with no time-out, false goes to the guard predicate; else the line is held with the place of
the counter, threshold, time-out, guard, and an entry of the monitor table if there is one. The forms through an address fault
at their own bundle with the cause and DETAIL of R171, and on a counter of another package hold the line for the poll. For a
core held in a counter wait: COUNTER_WAIT_SATISFIED, where the wait has an entry of the monitor table, releases the line once
the value is reached, and on poison releases it with false in the guard predicate for a wait that does not trap.
COUNTER_WAIT_TIMEOUT does nothing before the time-out in device time has passed; then a counter of this package is looked at
first, and a wait not satisfied ends with false. MONITOR_POLL of a wait without an entry sends the next read, or looks, when its
time has come; unsatisfied, it doubles the interval up to 4,000 ns and tries for an entry. (derived:
spec/09_control_and_scalar_instructions.md R170, spec/09_control_and_scalar_instructions.md R171,
spec/06_counters_versions_and_order.md R108, spec/06_counters_versions_and_order.md R109) -/
def Obligations.CounterWaits : Prop :=
  (
  ∀ (s : State) (bu : Issue) (p ct a : Nat), s.issue = some bu → guardOf s p = true →
    let r := fun n => sreg (here s) (a + n)
    let held := fun (u : State) (own : Bool) (va : Word) (w : WaitPlace) (thr tmo : Word) (trap : Bool) => modCore u bu.core fun c => { c with q := { c.q with
      hold := .counter own (if own then ct else 0) a va w (thr.toNat % 2 ^ 63) tmo.toNat u.dev p trap (regs u bu.core w) (u.dev + nsDev 64) 64 } }
    let waits := fun (i : Instr) (own : Bool) (k : CtrAt) (va thr tmo : Word) (trap : Bool) =>
      let x := ctrRead s k
      let u := ctrSeen s (asidOf (here s)) k
      let strict := ctrStrict s (asidOf (here s)) k = true
      (strict → exec i s = .next (recorded (ctrUe s k) bu 0x1C 0 va)) ∧
      (¬strict → x.getLsbD 63 = false → thr.toNat % 2 ^ 63 ≤ x.toNat → exec i s = .next u) ∧
      (¬strict → x.getLsbD 63 = true → trap = true → exec i s = .next (recorded u bu 0x11 0 0)) ∧
      (¬strict → x.getLsbD 63 = true → trap = false → exec i s = .next (putP u p false)) ∧
      (¬strict → x.getLsbD 63 = false → x.toNat < thr.toNat % 2 ^ 63 → tmo = 0 → exec i s = .next (putP u p false)) ∧
      (¬strict → x.getLsbD 63 = false → x.toNat < thr.toNat % 2 ^ 63 → tmo ≠ 0 → exec i s = .next (held u own va (.near k) thr tmo trap))
    waits (.ctwait p ct a) true (.file bu.core ct) 0 (r 0) (r 1) false ∧
    waits (.ctwaitT p ct a) true (.file bu.core ct) 0 (r 0) (r 1) true ∧
    ∀ e ∈ [(Instr.ctwaitG p a, false), (.ctwaitGt p a, true)],
      (∀ k, waitAt s bu.core (r 0).toNat = .at_ (.near k) → waits e.1 false k (r 0) (r 1) (r 2) e.2) ∧
      (∀ w va o, waitAt s bu.core (r 0).toNat = .at_ (.far w va o) →
        exec e.1 s = .next (held s false (r 0) (.far w va o) (r 1) (r 2) e.2)) ∧
      (∀ f d, waitAt s bu.core (r 0).toNat = .fault f d → f ≠ 0x0B → exec e.1 s = .next (recorded s bu f d (r 0))) ∧
      (∀ d, waitAt s bu.core (r 0).toNat = .fault 0x0B d →
        exec e.1 s = .next (recorded (postPage s (asidOf (here s)) (r 0).toNat d) bu 0x0B d (r 0)))) ∧
  (
  ∀ (s : State) (c ct a v tmo t0 g poll ivl : Nat) (own tr reg : Bool) (va : Word) (at_ : WaitPlace),
    (coreAt s c).q.hold = .counter own ct a va at_ v tmo t0 g tr reg poll ivl →
    let free := fun (k : Core) => { k with q := { k.q with hold := .none } }
    let i := min 4000 (2 * ivl)
    let later := fun (t : State) => modCore t c fun k => { k with q := { k.q with
      hold := .counter own ct a va at_ v tmo t0 g tr (regs t c at_) (t.dev + nsDev i) i } }
    let no := fun (t : State) => modCore t c fun k => setP (free k) g false
    let sees := fun (e : Instr) (k : CtrAt) (t : State → State) =>
      let x := ctrRead s k
      let u := ctrSeen s (asidOf (coreAt s c)) k
      let strict := ctrStrict s (asidOf (coreAt s c)) k = true
      (strict → exec e s = .next (heldFault (modCore (ctrUe s k) c free) c 11 0x1C 0 va)) ∧
      (¬strict → x.getLsbD 63 = false → v ≤ x.toNat → exec e s = .next (modCore u c free)) ∧
      (¬strict → x.getLsbD 63 = true → tr = false → exec e s = .next (no u)) ∧
      (¬strict → x.getLsbD 63 = true → tr = true → exec e s = .next (heldFault (modCore u c free) c 11 0x11 0 0)) ∧
      (¬strict → x.getLsbD 63 = false → x.toNat < v → exec e s = .next (t u))
    (∀ k, at_ = .near k → reg = true → sees (.counterWaitSatisfied c) k id) ∧
    (s.dev < t0 + nsDev tmo → exec (.counterWaitTimeout c) s = .next s) ∧
    (t0 + nsDev tmo ≤ s.dev →
      (∀ k, at_ = .near k → sees (.counterWaitTimeout c) k no) ∧
      (∀ w a o, at_ = .far w a o → tmo = 0 → exec (.counterWaitTimeout c) s = .next s) ∧
      (∀ w a o, at_ = .far w a o → tmo ≠ 0 → exec (.counterWaitTimeout c) s = .next (no s))) ∧
    (reg = false → s.dev < poll → exec (.monitorPoll c) s = .next s) ∧
    (reg = false → poll ≤ s.dev →
      (∀ k, at_ = .near k → sees (.monitorPoll c) k later) ∧
      (∀ w a o, at_ = .far w a o → exec (.monitorPoll c) s = .next (later (pollSend s c w a o)))))

/-- As its bundle issues under a true guard: the empty operations of every slot and tkwait change nothing (tkwait holds its bundle
before it issues); wheel has the next bundle wait for position (core - n) mod 256 of the core it is then on; pwr.hint records
its hint; yield marks every member of the gang; sstep and halt hold the line, at stage 1 and for retirement, and halt sets the
loop rule of a body end aside; brk asks every member for a debug stop when a debug session is open for the task with its brk bit
armed, and else changes nothing; trap follows the commit of its bundle; tret outside a handler faults, inside it holds the line.
(derived: spec/09_control_and_scalar_instructions.md R172, spec/09_control_and_scalar_instructions.md R173,
spec/09_control_and_scalar_instructions.md R174, spec/09_control_and_scalar_instructions.md R175,
spec/09_control_and_scalar_instructions.md R176, spec/09_control_and_scalar_instructions.md R177,
spec/09_control_and_scalar_instructions.md R178, spec/14_counter_engine_and_fabric_instructions.md R287,
spec/08_bundle_format_and_opcode_map.md R140) -/
def Obligations.SequencerOperations : Prop :=
  ∀ (s : State) (bu : Issue) (p n x y z : Nat), s.issue = some bu → guardOf s p = true → n < 256 →
    let hold := fun (h : Hold) => wr s fun k => { k with q := { k.q with hold := h } }
    (∀ i ∈ [Instr.cNop p, .sNop p, .lNop p, .wNop p, .gNop p, .xNop p, .vNop p, .pNop p, .uNop p, .aNop p, .tkwait p x y z],
      exec i s = .next s) ∧
    exec (.wheel p n) s = .next (wr s fun k => { k with q := { k.q with wheel := some n } }) ∧
    exec (.pwrHint p n) s = .next (wr s fun k => { k with q := { k.q with hint := n } }) ∧
    (∃ t, exec (.yield p) s = .next t ∧ { t with cores := s.cores } = s ∧ ∀ c, coreAt t c =
      if c ∈ membersOf s bu.core then { coreAt s c with q := { (coreAt s c).q with yielded := true } } else coreAt s c) ∧
    exec (.sstep p) s = .next (hold (.sstep 1)) ∧
    exec (.halt p) s = .next { hold .halt with issue := some { bu with noLoop := true } } ∧
    (dbgOn s bu.core = true → (dbgRd s bu.core 0).getLsbD 62 = true → exec (.brk p n) s = .next (askStop s (membersOf s bu.core) 2 (some n))) ∧
    (dbgOn s bu.core = false ∨ (dbgRd s bu.core 0).getLsbD 62 = false → exec (.brk p n) s = .next s) ∧
    exec (.trap p n) s = .next { s with issue := some { bu with trapAfter := some n } } ∧
    ((here s).q.inHandler = true → exec (.tret p) s = .next (hold .tret)) ∧
    ((here s).q.inHandler = false → exec (.tret p) s = .next (recorded s bu 0x1B 0 0)) ∧
    (∀ (t : State) (c m f dx words : Nat) (b : BitVec 384) (ops : List SlotOp), (coreAt t c).f.deferred = [] → (coreAt t c).q.landed = false →
      (coreAt t c).q.newPass = none → (coreAt t c).q.ready ≤ (coreAt t c).q.act → bundleAt (coreAt t c) (coreAt t c).q.pc = some (b, dx, words) →
      checkBundle (coreAt t c) b = .inr ops → dx ≠ 0xFFFF → (coreAt t c).q.wheel = some m → (c + 256 - m) % 256 ≠ t.now % 256 →
      nextBundle (f + 1) t c = .ends (stillCycle t c 0x08))

/-- With faulting slots the highest one is trapped, its record naming the bundle and the mask of the slots that completed (all but
the faulting and the held ones, and X where it has not launched); what its C slot chose is kept for the reissue. Without, its
choice is kept, p8 to p15 are as its loop operation sets them, and the bundle ends at once unless something holds the line. At
its end, with no body end in play, fetch goes to the redirect, else behind the bundle, no sooner than the stall count and the
bubbles (three more to a literal) allow; a call has that next address pushed, the oldest of 16 entries spilled to h255, the
depth raised. At the body end of the innermost level that ends there, a further pass goes to the body start with the counter
raised; else the level ends, its counter kept, p8 to p15 false if it used stages. A pass of a pipelined level begins with p(8 +
k) true exactly for 0 <= j - k < B. A trap operation traps after all this, at the next bundle. A bundle issued again after a
fault puts up only the slots not completed, with what its C slot chose if that has completed. When a moment of debug or trace is
on is not said here. (derived: spec/02_tile_tasks_and_supersteps.md R38, spec/02_tile_tasks_and_supersteps.md R39,
spec/09_control_and_scalar_instructions.md R163, spec/09_control_and_scalar_instructions.md R166,
spec/09_control_and_scalar_instructions.md R167, spec/09_control_and_scalar_instructions.md R169,
spec/09_control_and_scalar_instructions.md R176, spec/08_bundle_format_and_opcode_map.md R447, spec/17_scheduling_contract.md
R312) -/
def Obligations.BundleCommit : Prop :=
  (∀ (s : State) (b : Issue), s.issue = some b →
    let l := launchNow { s with issue := none } b
    let all := b.faults ++ l.2
    let k := coreAt l.1 b.core
    let gone := k.f.xops.any fun x => !x.launched && x.seq == b.before.q.seq
    (all ≠ [] → ∃ f v mask, f ∈ all ∧ (∀ g ∈ all, g.slot ≤ f.slot) ∧
      commitBundle s = takeTrap (issueActive v b) b.core ⟨f.cause, f.detail, f.slot, f.addr, b.pc, b.dx, mask, 0⟩ false none ∧
      (∀ n, n < 12 → (mask.getLsbD n = true ↔ n ∉ all.map SlotFault.slot ∧ n ∉ heldSlots k.q ∧ ¬(n = 5 ∧ gone = true))) ∧
      OnlyCore l.1 v b.core ∧ (coreAt v b.core).q.skipMask = mask ∧ (coreAt v b.core).q.hold = .none ∧ (coreAt v b.core).q.holdG = .none ∧
      (coreAt v b.core).q.holdO = .none ∧ (coreAt v b.core).q.carry = some (b.carry k.q.act gone false)) ∧
    (all = [] → ∃ v, commitBundle s = settleCommit (issueActive v b) b.core ∧
      (coreAt v b.core).q.carry = some (b.carry (coreAt v b.core).q.act false true) ∧
      ∀ w, b.stageSet = some w → ∀ j, j < 8 → preg (coreAt v b.core) (8 + j) = w.getLsbD j)) ∧
  (∀ (b : Issue) (act : Nat) (g h : Bool), b.carry act g h = (⟨b.pc, b.redirect, b.calls, b.noLoop,
    b.stageSet, b.trapAfter, g, b.words, b.ib, b.stall, act, b.before.q.seq, h⟩ : Carry)) ∧
  (∀ (s : State) (n : Nat), ((coreAt s n).q.free = true → ∀ k, (coreAt s n).q.carry = some k → k.held = true → settleCommit s n = finishCommit s n) ∧
    ((coreAt s n).q.free = false → settleCommit s n = s)) ∧
  (∀ (s : State) (n : Nat) (k : Carry), (coreAt s n).q.carry = some k → k.trapAfter = none → k.stageSet = none → dbgOn s n = false →
      (dbgRd s n 0x48).getLsbD 63 = false →
    let c := coreAt s n
    let t := finishCommit s n
    let u := coreAt t n
    let lit := fun (a m : Nat) => if c.prog.code[a]? = some 0xFFFF then m + 3 else m
    let goes := fun (pc bubble : Nat) => OnlyCore s t n ∧ u.q.pc = pc ∧ u.q.ready = k.at_ + max (k.stall + 1) (1 + bubble) ∧ u.q.carry = none ∧
      u.q.skipMask = 0 ∧ u.q.landed = k.ib ∧ u.f = c.f ∧ u.ct = c.ct
    let nx := k.pc + k.words
    (k.noLoop = true ∨ (∀ l ∈ c.r.loops, (levelOf c l).bend ≠ k.pc) →
      (k.redirect = none → goes nx 0) ∧ (∀ a m, k.redirect = some (a, m) → goes a (lit a m)) ∧
      (k.calls = none → u.r = c.r ∧ u.m = c.m) ∧
      (k.calls ≠ none → u.r = { c.r with rstack := (BitVec.ofNat 24 nx :: c.r.rstack).take 16, depth := c.r.depth + 1 } ∧
        (c.r.depth < 16 → u.m = c.m) ∧
        (∀ e, 16 ≤ c.r.depth → c.r.rstack.getLast? = some e →
          u.m = (spadWrite c (handle c 255) (4 * (c.r.depth - 16)) (toBytes e.toNat 4)).m))) ∧
    (∀ l, k.noLoop = false → k.redirect = none → k.calls = none → (c.r.loops.find? fun l => (levelOf c l).bend == k.pc) = some l →
      let lv := levelOf c l
      let j := spGet 0 c.r.lc l
      (j + 1 < lv.bound + lv.stages - 1 → goes lv.bstart (lit lv.bstart 0) ∧ u.r = { c.r with lc := spSet c.r.lc l (j + 1) } ∧
        u.q.newPass = if 1 < lv.stages then some l else c.q.newPass) ∧
      (lv.bound + lv.stages - 1 ≤ j + 1 → (∀ m ∈ c.r.loops, m ≠ l → (levelOf c m).bend ≠ k.pc) → goes nx 0 ∧
        u.r = { c.r with loops := c.r.loops.filter (· != l), p := if 1 < lv.stages then c.r.p &&& 0x00FF#16 else c.r.p }))) ∧
  (∀ (c : Core) (l : Nat), c.q.newPass = some l → ∀ i, i < 16 → preg (beginPass c) i =
    if i < 8 then preg c i else decide (i - 8 ≤ spGet 0 c.r.lc l ∧ spGet 0 c.r.lc l - (i - 8) < (levelOf c l).bound)) ∧
  (∀ (s : State) (n d : Nat) (k : Carry), (coreAt s n).q.carry = some k → k.trapAfter = some d →
    let u := finishCommit (modCore s n fun c => { c with q := { c.q with carry := some { k with trapAfter := none } } }) n
    let pc := (coreAt u n).q.pc
    finishCommit s n = takeTrap u n ⟨0x1A, d, 11, 0, pc, dxAt (coreAt u n) pc, 0, 0⟩ false none) ∧
  (∀ (s : State) (n dx words : Nat) (c0 : Core) (b : BitVec 384) (ops : List SlotOp),
    let c := beginPass (coreAt s n)
    let put := fun (drop : Nat → Bool) => [11, 10, 9, 4, 3, 2, 8, 7, 6, 5, 1, 0].filterMap fun i => if drop i then none else ops.find? fun o => o.1 == i
    ∃ j, (beginIssue s n c0 b dx words ops).issue = some j ∧ j.core = n ∧ j.mask = c.q.skipMask ∧ j.pc = c.q.pc ∧
      (c.q.carry = none → j.todo = put fun i => c.q.skipMask.getLsbD i) ∧
      (∀ k, c.q.carry = some k → k.pc = c.q.pc → c.q.skipMask ≠ 0 →
        j.todo = put (fun i => c.q.skipMask.getLsbD i || (i == 5 && k.xgone)) ∧
        (c.q.skipMask.getLsbD 11 = true → j.redirect = k.redirect ∧ j.calls = k.calls ∧ j.noLoop = k.noLoop ∧ j.stageSet = k.stageSet ∧
          j.trapAfter = k.trapAfter)))

/-- A core held in sstep with nothing else held for, no access parked: stage 1 flushes the combining buffer and ends once its lock-
stepped work, its commands, its queue, its buffer and its drain rows are done; stage 2 ends with PBC at 0; stage 3 adds 1 to
counter 511 of the first core of the gang (without a gang its own), poisoning it first where a member retired after fewer
supersteps; stage 4 traps POISONED_WAIT where that counter is poisoned, ends once it holds the size of the gang times the number
of the superstep, SSN one higher, and else goes on waiting. A fence flushes the buffered stores of its scope and ends, with no
access parked, once the queue is empty, no store of its scope is out and no fill has rows to read. tret with no other hold
returns once no frec.wr is under way, and waits while one is. A tkwait alone in its bundle lets it issue exactly when none of
its tokens is pending. A held cycle in which the hold ends leaves the line free. (derived: spec/02_tile_tasks_and_supersteps.md
R29, spec/02_tile_tasks_and_supersteps.md R31, spec/02_tile_tasks_and_supersteps.md R33, spec/06_counters_versions_and_order.md
R115, spec/09_control_and_scalar_instructions.md R172, spec/09_control_and_scalar_instructions.md R173,
spec/14_counter_engine_and_fabric_instructions.md R287) -/
def Obligations.HoldsEnd : Prop :=
  (∀ (s : State) (c : Nat),
    let k := coreAt s c
    let hold := fun (t : State) (h : Hold) => modCore t c fun k => { k with q := { k.q with hold := h } }
    let free := k.q.holdG = .none ∧ k.q.holdO = .none
    let b := (barrierOf s c).1
    let late := (barrierOf s c).2.2
    let sum := addOrPoison (if late = true then ctrPoison (ctGet (coreAt s b) 511) else ctGet (coreAt s b) 511) 1
    let x := ctGet (coreAt s b) 511
    (free → parkedG k = none → k.q.running = true →
      let t := flushComb s c fun _ => true
      (coreAt t c).q = k.q ∧ (drained1 (coreAt t c) = true → lookSstep s c 1 = hold t (.sstep 2)) ∧ (drained1 (coreAt t c) = false → lookSstep s c 1 = t)) ∧
    (¬free → lookSstep s c 1 = s) ∧
    (drained1 k = true ↔ k.f.xops = [] ∧ k.f.wb = [] ∧ k.f.ratHead = none ∧ k.f.fill = none ∧ k.f.gq = [] ∧ k.f.drainq = [] ∧ k.f.comb = [] ∧ k.r.tok = 0) ∧
    (k.r.pbc = 0 → lookSstep s c 2 = hold s (.sstep 3)) ∧ (k.r.pbc ≠ 0 → lookSstep s c 2 = s) ∧
    (∃ t, lookSstep s c 3 = t ∧ { t with cores := s.cores } = s ∧ (coreAt t c).q = { k.q with hold := .sstep 4, waitT := s.dev } ∧
      (coreAt t c).r = k.r ∧ (∀ n, ctGet (coreAt t b) n = if n = 511 then sum.1 else ctGet (coreAt s b) n) ∧ ∀ n, n ≠ b → n ≠ c → coreAt t n = coreAt s n) ∧
    (x.getLsbD 63 = true → lookSstep s c 4 = heldFault (hold s .none) c 11 0x11 0 0) ∧
    (x.getLsbD 63 = false → (barrierOf s c).2.1 * (k.r.ssn.toNat + 1) ≤ x.toNat → lookSstep s c 4 = modCore s c fun k => { k with
      q := { k.q with hold := .none }, r := { k.r with ssn := k.r.ssn + 1 } }) ∧
    (x.getLsbD 63 = false → x.toNat < (barrierOf s c).2.1 * (k.r.ssn.toNat + 1) → lookSstep s c 4 = s) ∧
    (k.bind = none → b = c ∧ (barrierOf s c).2.1 = 1 ∧ late = false) ∧
    (∀ y g, k.bind = some y → gangAt s y.gang = some g → b = g.cores.headD c ∧ (barrierOf s c).2.1 = y.size ∧ (late = true ↔
      ∃ m, m ∈ membersOf s c ∧ m ≠ c ∧ (coreAt s m).q.retired = true ∧ (coreAt s m).r.ssn.toNat < k.r.ssn.toNat + 1)) ∧
    (∀ n, k.q.running = true → free → k.q.hold = .sstep n →
      let t := lookSstep (modCore s c id) c n
      trappedSince k t c = false → (coreAt t c).q.free = true → holdCycle s c = t)) ∧
  (∀ (s : State) (c f : Nat), (coreAt s c).q.holdG = .fence f → parkedG (coreAt s c) = none →
    let t := flushComb s c fun e => f == 4 || combLocal s e
    let k := coreAt t c
    let ends := k.f.gq = [] ∧ storesOut t c (f == 4) = false ∧ (∀ y, k.f.fill = some y → y.reads = false) ∧ ∀ o r, k.q.holdO ≠ .opslot (some o) r
    (ends → lookG s c = modCore t c fun k => { k with q := { k.q with holdG := .none } }) ∧ (¬ends → lookG s c = t)) ∧
  (∀ (s : State) (c : Nat), (coreAt s c).q.hold = .tret → (coreAt s c).q.holdG = .none → (coreAt s c).q.holdO = .none →
    ((∀ x ∈ (coreAt s c).f.cmds, x.op ≠ 0x11) → lookC s c = modCore s c trapReturn) ∧
    ((∃ x, x ∈ (coreAt s c).f.cmds ∧ x.op = 0x11) → needPending (coreAt s c) = none → lookC s c = s)) ∧
  (∀ (s : State) (n dx words x y z : Nat) (b : BitVec 384), (coreAt s n).q.skipMask = 0 → (coreAt s n).q.xwait = none → parkedG (coreAt s n) = none →
      (coreAt s n).r.check = 0 →
    let i := Instr.tkwait 0 x y z
    ((∀ t ∈ (foot i).tk, (coreAt s n).r.tok.getLsbD t = false) → preIssue s n (coreAt s n) b dx words [(11, i)] = .go s b dx words [(11, i)]) ∧
    ((∃ t, t ∈ (foot i).tk ∧ (coreAt s n).r.tok.getLsbD t = true) →
      ∃ u, preIssue s n (coreAt s n) b dx words [(11, i)] = .ends u))

/-- As its bundle issues under a true guard: vld.32 and vld.16 read the bytes at the stream position and set out the lanes, 3 active
cycles on, qld the packed elements and the scale companion; vst and qst write the bytes of the lanes or elements (and scales) at
the stream position; each then steps its stream once, unless the bundle sets that stream. A reserved or disallowed format, a bad
target, an invalid handle or a place outside it puts the fault of R207 or R209 on record and changes nothing. A vst.32 to a bf16
or fp16 stream with the stochastic rounding code draws one random word, which advances RNGS, and rounds lane i by the bits that
R84 gives it; a vst.16 with that code draws nothing, since it rounds nothing. (derived:
spec/11_memory_and_stream_instructions.md R207, spec/11_memory_and_stream_instructions.md R209,
spec/03_named_spaces_handles_and_tiles.md R55, spec/03_named_spaces_handles_and_tiles.md R63,
spec/03_named_spaces_handles_and_tiles.md R64, spec/05_arithmetic_rules.md R84) -/
def Obligations.StreamAccesses : Prop :=
  (
  ∀ (s : State) (bu : Issue) (p v q t : Nat), s.issue = some bu → guardOf s p = true →
    let c := here s
    let x := stReg c t
    let st := stream x
    let h := handle c st.hnd
    let stepped := fun (u : State) => if t ∈ bu.stWr then u else wr u fun k => { k with r := { k.r with st := spSet k.r.st t (stStep x) } }
    let late := fun (l : List WbDest) => wr s fun k => { k with f := { k.f with wb := k.f.wb ++ l.map fun d => ⟨k.q.act + 2, k.q.seq, d⟩ } }
    (∀ e ∈ [(Instr.vld32 p v t, false), (.vld16 p v t, true)],
      (∀ f, vecFault c st e.2 = some f → exec e.1 s = .next (recorded s bu f 0 0)) ∧
      (∀ n eb total, vecFault c st e.2 = none → vecShape e.2 st.fmt = some (n, eb, total) →
        exec e.1 s = .next (stepped (late [.vop v (vecLoad e.2 st.fmt eb (spadRead c h (stAddr st).toNat total))])))) ∧
    (∀ e ∈ [(Instr.vst32 p v t, false), (.vst16 p v t, true)],
      (∀ f, vecFault c st e.2 = some f → exec e.1 s = .next (recorded s bu f 0 0)) ∧
      (∀ n eb total, vecFault c st e.2 = none → vecShape e.2 st.fmt = some (n, eb, total) → stMode st ≠ .sr →
        exec e.1 s = .next (stepped (wr s fun k =>
          spadWrite k h (stAddr st).toNat (vecStore e.2 st.fmt eb total (stMode st) 0 (readView c v)))))) ∧
    (∀ f, qFault c st = some f → exec (.qld p q t) s = .next (recorded s bu f 0 0) ∧ exec (.qst p q t) s = .next (recorded s bu f 0 0)) ∧
    (∀ w e total, qFault c st = none → qShape st.fmt = some (w, e, total) →
      exec (.qld p q t) s = .next (stepped (late [.qbits q 0 4096 (BitVec.ofNat 4096 (leNat (spadRead c h (stAddr st).toNat total))),
        .qcomp q 0 256 (BitVec.ofNat 256 (leNat (spadRead c h (stScale st e).toNat (qScales st e) ++
          List.replicate (32 - qScales st e) 0x7F)))])) ∧
      exec (.qst p q t) s = .next (stepped (wr s fun k =>
        let k' := spadWrite k h (stAddr st).toNat (toBytes (qReg c q).toNat total)
        if qScales st e = 0 then k' else spadWrite k' h (stScale st e).toNat (toBytes (qComp c q).toNat (qScales st e)))))) ∧
  (
  ∀ (s : State) (bu : Issue) (p v t : Nat), s.issue = some bu → guardOf s p = true →
    let c := here s
    let x := stReg c t
    let st := stream x
    let d := drawRng s
    let stepped := fun (u : State) => if t ∈ bu.stWr then u else wr u fun k => { k with r := { k.r with st := spSet k.r.st t (stStep x) } }
    let put := fun (u : State) (b : List Byte) => wr u fun k => spadWrite k (handle c st.hnd) (stAddr st).toNat b
    stMode st = .sr → (∀ n eb total, vecFault c st false = none → vecShape false st.fmt = some (n, eb, total) → st.fmt = 2 ∨ st.fmt = 3 →
      exec (.vst32 p v t) s = .next (stepped (put d.2 (vecStore false st.fmt eb total .sr d.1 (readView c v))))) ∧
    (∀ n eb total, vecFault c st true = none → vecShape true st.fmt = some (n, eb, total) →
      exec (.vst16 p v t) s = .next (stepped (put s (vecStore true st.fmt eb total .sr 0 (readView c v))))))

/-- As its bundle issues under a true guard, lds sets out the 1, 2, 4 or 8 little-endian bytes at its handle-offset word, zero-
extended, 3 active cycles on (nothing for s0), and sts writes as many low bytes of its register there and nothing else; a word
with any of bits 55:32 set faults HANDLE_RANGE, and an invalid handle, a shadow or held one, or bytes outside it fault as R55
states, changing nothing. Writing bytes through a handle leaves every register, counter, operand slot, accumulator row, handle
table entry and whatever is in flight in the core as it was, and every scratchpad line that the handle does not place its bytes
in. (derived: spec/11_memory_and_stream_instructions.md R210, spec/03_named_spaces_handles_and_tiles.md R55,
spec/08_bundle_format_and_opcode_map.md R152, spec/03_named_spaces_handles_and_tiles.md R51) -/
def Obligations.ScratchpadAccesses : Prop :=
  (
  ∀ (s : State) (bu : Issue) (p d a v k : Nat), s.issue = some bu → guardOf s p = true →
    let c := here s
    let w := (sreg c a).toNat
    let o := w % 2 ^ 32
    let h := handle c (w / 2 ^ 56)
    let bad := fun (n : Nat) => if w / 2 ^ 32 % 2 ^ 24 ≠ 0 then some 0x07 else if h.valid = false then some 0x05
      else if h.shadow = true ∨ h.held = true then some 0x06 else if h.size < o + n then some 0x07 else none
    (∀ e ∈ [(Instr.ldsB p d a v k, 1), (.ldsH p d a v k, 2), (.ldsW p d a v k, 4), (.ldsD p d a v k, 8)],
      (∀ f, bad e.2 = some f → exec e.1 s = .next (recorded s bu f 0 0)) ∧
      (bad e.2 = none → exec e.1 s = .next (if d = 0 then s else wr s fun k => { k with f := { k.f with
        wb := k.f.wb ++ [⟨k.q.act + 2, k.q.seq, .sreg d (BitVec.ofNat 64 (leNat (spadRead c h o e.2)))⟩] } }))) ∧
    (∀ e ∈ [(Instr.stsB p d a v k, 1), (.stsH p d a v k, 2), (.stsW p d a v k, 4), (.stsD p d a v k, 8)],
      (∀ f, bad e.2 = some f → exec e.1 s = .next (recorded s bu f 0 0)) ∧
      (bad e.2 = none → exec e.1 s = .next (wr s fun k => spadWrite k h o (toBytes (sreg c d).toNat e.2))))) ∧
  (
  ∀ (c : Core) (h : HEnt) (o : Nat) (b : List Byte),
    let c' := spadWrite c h o b
    c' = { c with m := { c.m with spad := c'.m.spad } } ∧
    ∀ l, (∀ i, i < b.length → h.place ((o + i) / 512) ≠ l) → spFind c'.m.spad l = spFind c.m.spad l)

/-- As its bundle issues under a true guard: halloc of h255 or of a valid handle faults HANDLE_STATE, of a faulty shape
ILLEGAL_SLOT, without room writes false to its predicate and allocates nothing, and with room installs the entry placed first-
fit and writes true; hfree of h255 or an invalid handle faults, else VALID falls; oclaim takes a FREE slot and orel frees one
that is not, and the other case faults; ofill of a good stream makes the slot FILLING with the block size of the stream and
advances the stream 128 steps; FILL_COMPLETE makes the slot FULL once the fill has written its last row and its time is over,
and changes nothing before. (derived: spec/11_memory_and_stream_instructions.md R211, spec/11_memory_and_stream_instructions.md
R212, spec/11_memory_and_stream_instructions.md R213, spec/11_memory_and_stream_instructions.md R214,
spec/11_memory_and_stream_instructions.md R215, spec/11_memory_and_stream_instructions.md R216,
spec/03_named_spaces_handles_and_tiles.md R52, spec/03_named_spaces_handles_and_tiles.md R58) -/
def Obligations.HandlesAndOperandSlots : Prop :=
  ∀ (s : State) (bu : Issue) (p h d a n os v k : Nat), s.issue = some bu → guardOf s p = true →
    let c := here s
    let sh := shapeOf (sreg c a)
    let taken := h = 255 ∨ (handle c h).valid = true
    let x := stReg c n
    let slot := slotOf c os
    let waits := bu.xslot = some os
    (taken → exec (.halloc p h d a) s = .next (recorded s bu 0x06 0 0)) ∧
    (¬taken → sh.2.2 = true → exec (.halloc p h d a) s = .next (recorded s bu 0x01 0 0)) ∧
    (¬taken → sh.2.2 = false → placeHandle s bu.core c sh.1 sh.2.1 = none → exec (.halloc p h d a) s = .next (putP s d false)) ∧
    (∀ e, ¬taken → sh.2.2 = false → placeHandle s bu.core c sh.1 sh.2.1 = some e →
      exec (.halloc p h d a) s = .next (putP (installHandle s bu.core h (hword c h) e) d true) ∧
      hword (coreAt (installHandle s bu.core h (hword c h) e) bu.core) h = hentWord { e with gen := (bits (hword c h).toNat 3 0 + 1) % 16 }) ∧
    (h = 255 ∨ (handle c h).valid = false → exec (.hfree p h) s = .next (recorded s bu 0x06 0 0)) ∧
    (h ≠ 255 → (handle c h).valid = true → exec (.hfree p h) s = .next (wr s fun k => { k with m := { k.m with
      htab := spSet k.m.htab h (hword k h &&& 0x7FFFFFFFFFFFFFFF#64), hheld := spDel k.m.hheld h } })) ∧
    exec (.oclaim p os) s = .next (if slot.st = .free
      then wr { s with fresh := s.fresh + 1 } fun k => setSlot k os ⟨.claimed, 0, 128, [], s.fresh + 1⟩ else recorded s bu 0x09 0 0) ∧
    (slot.st = .free → exec (.orel p os) s = .next (recorded s bu 0x09 0 0)) ∧
    (slot.st ≠ .free → ¬waits → exec (.orel p os) s = .next (wr s fun k => setSlot k os { slotOf k os with st := .free })) ∧
    (slot.st ≠ .free → waits → exec (.orel p os) s = .next (wr s (deferSlot none (some os)))) ∧
    (∀ f, fillFault c x os = some f → exec (.ofill p os n v k) s = .next (recorded s bu f 0 0)) ∧
    (fillFault c x os = none → exec (.ofill p os n v k) s = .next (
      let u := if waits then wr s (deferSlot (some (os, n, x)) none) else wr s fun k => startFill k os n x
      if n ∈ bu.stWr then u else wr u fun k => { k with r := { k.r with st := spSet k.r.st n (stSteps 128 x) } })) ∧
    (∀ (cn : Nat) (f : Fill), (coreAt s cn).f.fill = some f →
      (f.fullAt = some 0 → exec (.fillComplete cn) s = .next (modCore s cn fun k =>
        { setSlot k f.os { slotOf k f.os with st := .full } with f := { k.f with fill := none } })) ∧
      (f.fullAt ≠ some 0 → exec (.fillComplete cn) s = .next (modCore s cn id)))

/-- As its bundle issues under a true guard, every load, store, ld.acq, st.rel, atomic and amo.sc whose address is of a kind it may
not touch, or for an atomic not 8-byte aligned, faults KIND_STRADDLE or KIND_ACCESS at its own bundle with the address and
changes nothing else; otherwise it joins the end of the queue with its operands as they stood, one entry for each part of a
split access (one entry for the whole where a part does not translate yet), and a store adds to PBC the bytes that go through no
window. An atomic of the wheel (amo.sc) that a window of this package leads to a wrong kind, or any window to another package,
faults KIND_ACCESS too. An access of one part with a cached translation adds one entry that is ready; without one its walk
starts. (derived: spec/11_memory_and_stream_instructions.md R218, spec/11_memory_and_stream_instructions.md R219,
spec/11_memory_and_stream_instructions.md R221, spec/11_memory_and_stream_instructions.md R222,
spec/06_counters_versions_and_order.md R107, spec/06_counters_versions_and_order.md R114) -/
def Obligations.GlobalAccessIssue : Prop :=
  ∀ (s : State) (bu : Issue) (p d a b v t w u : Nat), s.issue = some bu → guardOf s p = true →
    let c := here s
    let va := sreg c a
    let asid := asidOf c
    (∀ e ∈ [(Instr.ldB p d a v t w u, GKind.load, 1, 1), (.ldH p d a v t w u, .load, 2, 2), (.ldW p d a v t w u, .load, 4, 3),
        (.ldD p d a v t w u, .load, 8, 4), (.stB p d a v t w u, .store, 1, 5), (.stH p d a v t w u, .store, 2, 6),
        (.stW p d a v t w u, .store, 4, 7), (.stD p d a v t w u, .store, 8, 8), (.ldAcqW p d a v t w u, .loadAcq, 4, 9),
        (.ldAcqD p d a v t w u, .loadAcq, 8, 10), (.stRelW p d a v t w u, .storeRel, 4, 11), (.stRelD p d a v t w u, .storeRel, 8, 12)],
      let st := !e.2.1.writesReg
      let parts := gParts s bu.core asid va.toNat e.2.2.1
      let units := gUnits va.toNat e.2.2.1 parts
      let g : GOp := ⟨c.q.seq, gmWord e.2.2.2 p d a v t w u, e.2.1, 0, e.2.2.1, va, 0, if st then sreg c d else 0, 0, 0, if st then 0 else d, s.dev, 0, 0, .ready⟩
      (∀ f, kindFault (parts.map fun x => x.2.2.2) = some f → exec e.1 s = .next (recorded s bu f 0 va)) ∧
      (kindFault (parts.map fun x => x.2.2.2) = none → exec e.1 s = .next (gEnqueue (if st then addPbc s bu.core
        (((units.filter fun x => match x.2.2.2 with | .win .. => false | _ => true).map fun x => x.2.2.1).sum) else s) g units))) ∧
    (∀ e ∈ [(Instr.amoAdd p d a b, GKind.amo, 0, 15, 0), (.amoMax p d a b, .amo, 1, 16, 0), (.amoMaxu p d a b, .amo, 2, 17, 0),
        (.amoMin p d a b, .amo, 3, 18, 0), (.amoMinu p d a b, .amo, 4, 19, 0), (.amoAnd p d a b, .amo, 5, 20, 0), (.amoOr p d a b, .amo, 6, 21, 0),
        (.amoXor p d a b, .amo, 7, 22, 0), (.amoSwap p d a b, .amo, 8, 23, 0), (.amoCas p d a b, .amo, 9, 24, 0),
        (.amoScAdd p d a b, .amoSc, 0, 25, 0), (.amoScSwap p d a b, .amoSc, 1, 25, 1), (.amoScCas p d a b, .amoSc, 2, 25, 2),
        (.amoScMax p d a b, .amoSc, 3, 25, 3), (.amoScMin p d a b, .amoSc, 4, 25, 4)],
      let r := xlat s bu.core asid va.toNat
      let g : GOp := ⟨c.q.seq, gaWord e.2.2.2.1 p d a b e.2.2.2.2, e.2.1, e.2.2.1, 8, va, 0, sreg c b, sreg c d, 0, d, s.dev, 0, 0, .ready⟩
      let away := fun (w : List Nat) => winPkg w ≠ pkgNo s ∨ ∃ f, kindFault [scTarget s bu.core g] = some f
      (va.toNat % 8 ≠ 0 → exec e.1 s = .next (recorded s bu 0x0D 0 va)) ∧
      (∀ f, va.toNat % 8 = 0 → kindFault [r] = some f → exec e.1 s = .next (recorded s bu f 0 va)) ∧
      (va.toNat % 8 = 0 → kindFault [r] = none →
        (e.2.1 = .amo ∨ ∀ n w o sp, r = .win n w o sp → ¬away w) →
        exec e.1 s = .next (gEnqueue s g [(va.toNat, 0, 8, r)])) ∧
      (∀ n w o sp, va.toNat % 8 = 0 → kindFault [r] = none → e.2.1 = .amoSc → r = .win n w o sp → away w →
        exec e.1 s = .next (recorded s bu 0x0D 0 va))) ∧
    (∀ (g : GOp) (r : XRes), g.va = va → g.kind ≠ .amoSc →
      let entry := fun (x : GStat) => wr s fun k => { k with f := { k.f with gq := k.f.gq ++
        [{ g.part va.toNat 0 g.size x with cnt := match r with | .win .. => 0 | _ => if g.kind.writesReg = true then 0 else g.size }] } }
      gEnqueue s g [(va.toNat, 0, g.size, r)] = if 2 ^ 56 ≤ va.toNat then entry (.parked 0x0B 0x01)
        else if (cached s bu.core asid va.toNat).isSome = true then entry .ready
        else startWalk (entry .walk) bu.core asid va.toNat (some g.seq))

/-- As its bundle issues under a true guard: a versioned access that may not reach its address faults as R220 states; on its own
package it is performed at once where the version rules let it (ld.v writes the value it finds), faults where they forbid it, or
joins the queue and holds the line where it must wait or an earlier access of the queue goes first; through a window it joins
the queue, is sent to its home and holds the line; a fence holds the line at its scope and flushes the buffered stores it
covers; pf takes a translation that its core or its die has cached into the caches of both, starts a walk on a miss and counts a
bad address; wprobe joins the queue. One packet for an access that reaches its home through two windows is the choice of log 81.
(derived: spec/11_memory_and_stream_instructions.md R220, spec/11_memory_and_stream_instructions.md R223,
spec/11_memory_and_stream_instructions.md R224, spec/11_memory_and_stream_instructions.md R225,
spec/06_counters_versions_and_order.md R121, spec/06_counters_versions_and_order.md R122) -/
def Obligations.VersionedFencesProbesIssue : Prop :=
  ∀ (s : State) (bu : Issue) (p d a b : Nat), s.issue = some bu → guardOf s p = true →
    let c := here s
    let va := sreg c a
    let asid := asidOf c
    let ver := (sreg c b).toNat % 2 ^ 32
    let op := fun (st : Bool) => (⟨c.q.seq, gaWord (if st then 14 else 13) p d a b 0, if st then .stv else .ldv, 0, 8, va, 0,
      if st then sreg c d else 0, 0, ver, if st then 0 else d, s.dev, 0, 0, .ready⟩ : GOp)
    let queue := fun (st : Bool) (t : State) => modCore t bu.core fun k => { k with
      f := { k.f with gq := k.f.gq ++ [op st] }, q := { k.q with holdG := .ver c.q.seq s.dev } }
    (∀ e ∈ [(Instr.ldV p d a b, false), (.stV p d a b, true)],
      let reach := verReach s bu.core asid va.toNat 8 (if e.2 then rW else rR)
      let late := (coreAt s bu.core).f.gq.any fun x => gAfter s bu.core x (op e.2)
      let try_ := fun ps => verTry s e.2 ps ver (if e.2 then sreg c d else 0)
      (∀ f r, reach = .fault f r → exec e.1 s = .next (recorded (walkNote s asid va.toNat (if f = 0x0B then r else 0)) bu f r va)) ∧
      (late = true → (∀ f r, reach ≠ .fault f r) → exec e.1 s = .next (queue e.2 s)) ∧
      (∀ ps x t, late = false → reach = .here ps → try_ ps = .done x t →
        exec e.1 s = .next (if e.2 then verPort t bu.core ps else modCore (verPort t bu.core ps) bu.core fun k => setS k d x)) ∧
      (∀ ps f, late = false → reach = .here ps → try_ ps = .fault f → exec e.1 s = .next (recorded s bu f 0 va)) ∧
      (∀ ps l, late = false → reach = .here ps → try_ ps = .wait l → exec e.1 s = .next (queue e.2 s)) ∧
      (∀ w o, late = false → reach = .window w o none → exec e.1 s = .next (
        gSend (flushLine (queue e.2 s) bu.core (op e.2)) bu.core (coreAt s bu.core).f.gq.length (op e.2) w o 0x05 (if e.2 then 1 else 0) 16
          (toBytes ver 8 ++ toBytes (if e.2 then sreg c d else 0).toNat 8))) ∧
      (∀ w o m w2 o2, late = false → reach = .window w o (some (m, w2, o2)) → exec e.1 s = .next (
        verSend (queue e.2 s) bu.core (coreAt s bu.core).f.gq.length (op e.2) w o (some (m, w2, o2))))) ∧
    (∀ e ∈ [(Instr.fenceCore p, 0), (.fenceQuad p, 1), (.fenceDie p, 2), (.fencePackage p, 3), (.fenceFabric p, 4)],
      let held := modCore s bu.core fun k => { k with q := { k.q with holdG := .fence e.2 } }
      exec e.1 s = .next (flushComb held bu.core fun x => e.2 == 4 || combLocal held x)) ∧
    (2 ^ 56 ≤ va.toNat → exec (.pf p a) s = .next (wr s fun k => countEv k 0x0F 1)) ∧
    (va.toNat < 2 ^ 56 → cached s bu.core asid va.toNat = none → exec (.pf p a) s = .next (startWalk s bu.core asid va.toNat none)) ∧
    (∀ x, va.toNat < 2 ^ 56 → cached s bu.core asid va.toNat = some x →
      (∀ f, entRes x va.toNat = .fail f → exec (.pf p a) s = .next (wr s fun k => countEv k 0x0F 1)) ∧
      ((∀ f, entRes x va.toNat ≠ .fail f) → exec (.pf p a) s = .next (fillCaches s bu.core x))) ∧
    exec (.wprobe p d a) s = .next (wr s fun k => { k with f := { k.f with gq := k.f.gq ++
      [⟨c.q.seq, p * 2 ^ 28 + 0x1C * 2 ^ 22 + d * 2 ^ 16 + a * 2 ^ 10, .probe, 0, 0, va, 0, 0, 0, 0, d, s.dev, 0, 0, .ready⟩] } })

/-- For an entry of the queue of a core, of one part, on local memory of an ordinary kind with the right it needs and no line that
ECC touches: where nothing before it in the queue holds it, no buffered store leaves before it and the order rules let it go, a
load puts the little-endian bytes in its register, a store places its bytes and leaves PBC lower by the bytes it counted there,
an atomic writes the function of the old value and puts the old value in its register, an amo.sc the same in a wheel cycle of
its core. Where something before it holds it, or the order rules do, nothing changes; where buffered stores leave before it,
they leave first. PLACEMENT_ACK of an acknowledged write that has left the core takes its bytes off PBC. (derived:
spec/11_memory_and_stream_instructions.md R218, spec/11_memory_and_stream_instructions.md R221,
spec/11_memory_and_stream_instructions.md R222, spec/06_counters_versions_and_order.md R107,
spec/06_counters_versions_and_order.md R111, spec/06_counters_versions_and_order.md R113, spec/06_counters_versions_and_order.md
R116, spec/06_counters_versions_and_order.md R118) -/
def Obligations.QueuedAccessesPerformed : Prop :=
  (∀ (s : State) (c i : Nat) (g : GOp), (coreAt s c).f.gq[i]? = some g →
    let asid := asidOf (coreAt s c)
    let leave := (coreAt s c).f.comb.any (leavesFor s c g)
    let may := leave = false ∧ gMay s c i = true
    let gone := fun (t : State) => modCore t c fun k => { k with f := { k.f with gq := k.f.gq.eraseIdx i } }
    let old := fun (t : State) (pa : Nat) => BitVec.ofNat 64 (leNat (memBytes t.mem pa 8))
    let put := fun (t : State) (pa : Nat) (b : List Byte) => { t with mem := memPutBytes t.mem pa b }
    let amo := fun (t : State) (fn pa : Nat) => modCore (gone (if fn = 9 ∧ old t pa ≠ g.cmp then t
      else put t pa (toBytes (amoFn fn (old t pa) g.data g.cmp).toNat 8))) c fun k => setS k g.dst (old t pa)
    let answers := fun (e : Instr) => (g.hub = 1 → exec e s = .next s) ∧ (g.hub ≠ 1 →
      (gClear s c i = false → exec e s = .next s) ∧ (leave = false → gMay s c i = false → exec e s = .next s) ∧
      (gClear s c i = true → leave = true →
        let u := flushComb s c (leavesFor s c g)
        (gMay u c i = true → exec e s = .next (gPerform u c i)) ∧ (gMay u c i = false → exec e s = .next u)))
    let value := g.kind = .load ∨ g.kind = .loadAcq ∨ g.kind = .amo
    let store := g.kind = .store ∨ g.kind = .storeRel
    (g.st = .ready → (value → answers (.gLoadReturn c i)) ∧ (store → answers (.placementAck c i))) ∧
    (∀ a w, g.st = .wheel a (some w) → w ≤ s.now → wheelOwned s c = true → answers (.amoScPerform c i)) ∧
    (∀ a w, g.st = .wheel a (some w) → (s.now < w ∨ wheelOwned s c = false) → exec (.amoScPerform c i) s = .next s) ∧
    (∀ pa k rt n by' x t, may → g.hub ≠ 1 → xlatFill s c asid g.lo = (.loc pa k rt n by' x, t) → asidOf (coreAt t c) = asid → k ≠ kVERSIONED → k ≠ kCOUNTER →
      hasRight rt g.kind.right = true → badSpan t pa g.size = false → softSpan t pa g.size = false → g.st = .ready → 0 < g.size → g.size ≤ n →
      pa + g.size ≤ hbmSize →
      let away := g.hub ≠ 2 ∧ (farStack t c pa = true ∨ farStack t c (pa + g.size - 1) = true)
      (away → value → exec (.gLoadReturn c i) s = .next (gHub t c i g)) ∧ (away → store → exec (.placementAck c i) s = .next (gHub t c i g)) ∧ (¬away →
      (g.kind = .load ∨ g.kind = .loadAcq → exec (.gLoadReturn c i) s = .next (gLoaded t c i g (leNat (memBytes t.mem pa g.size)))) ∧
      (store → exec (.placementAck c i) s = .next (modCore (gone (put t pa (toBytes g.data.toNat g.size))) c fun k =>
        { k with r := { k.r with pbc := k.r.pbc - g.cnt } })) ∧
      (g.kind = .amo → g.size = 8 → exec (.gLoadReturn c i) s = .next (amo t g.fn pa)))) ∧
    (∀ (t : State) v, (∀ h ∈ (coreAt (gone t) c).f.gq, ¬(h.seq = g.seq ∧ h.dst = g.dst)) → g.data = 0 → g.off = 0 →
      gLoaded t c i g v = modCore (gone t) c fun k => setS k g.dst (BitVec.ofNat 64 v)) ∧
    (∀ a w pa k rt n by' x, may → g.hub ≠ 1 → g.st = .wheel a (some w) → w ≤ s.now → wheelOwned s c = true → g.kind = .amoSc → g.size = 8 →
      scTarget s c g = .loc pa k rt n by' x → k ≠ kVERSIONED → k ≠ kCOUNTER → hasRight rt rA = true → badSpan s pa 8 = false → softSpan s pa 8 = false →
      exec (.amoScPerform c i) s = .next (amo s (scFn g.fn) pa))) ∧
  (∀ (s : State) (c j : Nat) (u : Unacked), (coreAt s c).f.unacked[j]? = some u → exec (.placementAck c ((coreAt s c).f.gq.length + j)) s = .next (if u.acked = true
      then modCore s c fun k => { k with f := { k.f with unacked := k.f.unacked.eraseIdx j }, r := { k.r with pbc := k.r.pbc - u.bytes } } else s))

/-- TRANSLATION_WALK of one of the first 64 walks of its die: a mapping that is found makes every access that waited for it ready
and puts it into the caches of the cores that asked for it and of their die; one that is not found parks them with the reason,
and is not cached; a later walk waits for a walker. COMBINING_ENTRY_AGE_FLUSH sends an entry unwritten for 4,096 cycles and
leaves a younger one. VERSION_SEAL_WAKE and VERSION_CAPACITY_WAKE perform a waiting access that nothing before it in the queue
holds when its version rules let it, releasing the line, and leave it waiting when not; the two time-outs raise MISSING_VERSION
and VERSION_CAPACITY at its bundle once the TIMEOUT of a region that it waits for has passed, and change nothing before.
(derived: spec/20_translation_and_faults.md R359, spec/20_translation_and_faults.md R360, spec/06_counters_versions_and_order.md
R118, spec/06_counters_versions_and_order.md R121, spec/06_counters_versions_and_order.md R122,
spec/11_memory_and_stream_instructions.md R220) -/
def Obligations.WalksFlushesAndVersionWaits : Prop :=
  ∀ (s : State) (c i : Nat),
    (∀ w, s.walks[i]? = some w → 64 ≤ ((s.walks.take i).filter fun x => x.die == w.die).length → exec (.translationWalk i) s = .next s) ∧
    (∀ w, s.walks[i]? = some w → ((s.walks.take i).filter fun x => x.die == w.die).length < 64 →
      (∀ x ∈ w.who, walkServes s w w.die w.asid x.2.2 = true) →
      let answered := fun (st : GStat) (n : Nat) (g : GOp) => if (n, g.seq, g.lo) ∈ w.who ∧ g.st = .walk then { g with st := st } else g
      (∀ e, tableLook s w.asid w.va = .hit e → ∃ t, exec (.translationWalk i) s = .next t ∧ t.walks = s.walks.eraseIdx i ∧ t.mem = s.mem ∧
        (∀ n, n ∈ w.who.map Prod.fst ++ w.pf → e ∈ spGet [] t.dieTlb (dieOf n) ∧ e ∈ (if e.cls = 2 then (coreAt t n).tlbP else (coreAt t n).tlbR)) ∧
        ∀ n, (coreAt t n).f.gq = (coreAt s n).f.gq.map (answered .ready n)) ∧
      (∀ r, tableLook s w.asid w.va = .bad r → ∃ t, exec (.translationWalk i) s = .next t ∧ t.walks = s.walks.eraseIdx i ∧ ∀ n,
        (coreAt t n).tlbR = (coreAt s n).tlbR ∧ (coreAt t n).tlbP = (coreAt s n).tlbP ∧
        (coreAt t n).f.gq = (coreAt s n).f.gq.map (answered (.parked 0x0B r) n))) ∧
    (∀ e, (coreAt s c).f.comb[i]? = some e → e.last + 4096 ≤ s.now → exec (.combiningEntryAgeFlush c i) s = .next (flushComb s c fun x => x.ord == e.ord)) ∧
    (∀ e, (coreAt s c).f.comb[i]? = some e → s.now < e.last + 4096 → exec (.combiningEntryAgeFlush c i) s = .next s) ∧
    (∀ j g, verWaiting s c = some (j, g) → g.sent = false → gClear s c j = true →
      let gone := fun (t : State) => freeG (gRemove t c j) c
      let past := fun (r : Nat) => g.t0 + nsDev (bits (regionWord s r) 231 200 * 1000) ≤ s.dev
      ∀ ps, verReach s c (asidOf (coreAt s c)) g.lo 8 g.kind.right = .here ps →
      (g.kind = .ldv →
        (∀ x t, verTry s false ps g.ver g.data = .done x t →
          exec (.versionSealWake c) s = .next (modCore (gone (verPort t c ps)) c fun k => setS k g.dst x)) ∧
        (∀ f, verTry s false ps g.ver g.data = .fault f → exec (.versionSealWake c) s = .next (heldFault (gone s) c 6 f 0 g.va)) ∧
        (∀ l, verTry s false ps g.ver g.data = .wait l → exec (.versionSealWake c) s = .next s ∧
          ((∃ r, r ∈ l ∧ past r) → exec (.missingVersionTimeout c) s = .next (heldFault (gone s) c 6 0x12 0 g.va)) ∧
          ((∀ r, r ∈ l → ¬past r) → exec (.missingVersionTimeout c) s = .next s))) ∧
      (g.kind = .stv →
        (∀ x t, verTry s true ps g.ver g.data = .done x t → exec (.versionCapacityWake c) s = .next (gone (verPort t c ps))) ∧
        (∀ f, verTry s true ps g.ver g.data = .fault f → exec (.versionCapacityWake c) s = .next (heldFault (gone s) c 6 f 0 g.va)) ∧
        (∀ l, verTry s true ps g.ver g.data = .wait l → exec (.versionCapacityWake c) s = .next s ∧
          ((∃ r, r ∈ l ∧ past r) → exec (.versionCapacityTimeout c) s = .next (heldFault (gone s) c 6 0x16 0 g.va)) ∧
          ((∀ r, r ∈ l → ¬past r) → exec (.versionCapacityTimeout c) s = .next s))))

/-- G_LOAD_RETURN of a wprobe puts into its register: the reason code where the address does not translate (0x04 without the read
right), else OK, KIND, TARGET, RIGHTS, BYRANGE and the bytes to the end of what it matches, saturated; the kind behind a window
of another package, which R225 does not state, is free (log 77). An ordinary access of one part whose order lets it go and that
translates to a window: parks KIND_ACCESS at a COUNTER window, KEY_CHECK at a HANDLE window where it returns a value, KEY_CHECK
without its right; else a load is sent as an RD packet under a new tag with the bytes that the combining buffer holds for it, an
atomic as an AMO packet with operand and compare value after the entries of its line have left, and a store enters the combining
buffer: a new entry of its line holds its bytes. A request through an HBM window goes to its package under its key, at the
region offset plus the offset within the window. (derived: spec/11_memory_and_stream_instructions.md R218,
spec/11_memory_and_stream_instructions.md R221, spec/11_memory_and_stream_instructions.md R225,
spec/06_counters_versions_and_order.md R118, spec/20_translation_and_faults.md R363, spec/21_oceth_link_and_the_hub.md R379) -/
def Obligations.ProbesAndWindowAccesses : Prop :=
  (∀ (s : State) (c i : Nat) (g : GOp), (coreAt s c).f.gq[i]? = some g → g.kind = .probe → g.st = .ready → g.hub ≠ 1 →
    exec (.gLoadReturn c i) s = .next (modCore (modCore s c fun k => { k with f := { k.f with gq := k.f.gq.eraseIdx i } }) c fun k =>
      setS k g.dst (probeWord s c g.lo))) ∧
  (∀ (s : State) (c va : Nat),
    let v := (probeWord s c va).toNat
    let r := (xlat s c (asidOf (coreAt s c)) va).bounded 8
    (∀ f, r = .fail f → f < 256 → v = f) ∧
    (∀ pa k rt n y x, r = .loc pa k rt n y x → hasRight rt rR = false → v = 0x04) ∧
    (∀ e pa k rt n y x, xlook s c (asidOf (coreAt s c)) va = .hit e → r = .loc pa k rt n y x → hasRight rt rR = true → k < 8 → rt < 16 →
      bit v 63 = true ∧ bits v 62 60 = k ∧ bits v 59 58 = 0 ∧ bits v 57 54 = rt ∧ bit v 53 = y ∧ bits v 52 48 = 0 ∧
      bits v 47 0 = min (entEnd e - va) (2 ^ 48 - 1)) ∧
    (∀ e n w o sp, xlook s c (asidOf (coreAt s c)) va = .hit e → r = .win n w o sp → winTgt w < 3 → winKind s w o < 8 →
      bit v 63 = true ∧ bits v 59 58 = winTgt w + 1 ∧ bits v 57 54 = winRights w ∧ bits v 53 48 = 0 ∧
      bits v 47 0 = min (entEnd e - va) (2 ^ 48 - 1) ∧
      (winTgt w = 0 → 0 < winKind s w o → bits v 62 60 = winKind s w o))) ∧
  (∀ (s t : State) (c i n o sp : Nat) (w : List Nat) (g : GOp), (coreAt s c).f.gq[i]? = some g → g.st = .ready → g.hub ≠ 1 →
      (coreAt s c).f.comb.any (leavesFor s c g) = false → gMay s c i = true → 0 < g.size → g.lo % 128 + g.size ≤ 128 → g.size ≤ sp →
      xlatFill s c (asidOf (coreAt s c)) g.lo = (.win n w o sp, t) →
    let value := g.kind = .load ∨ g.kind = .loadAcq ∨ g.kind = .amo
    let store := g.kind = .store ∨ g.kind = .storeRel
    let parks := fun (cause : Nat) => modCore t c fun k => { k with f := { k.f with gq := setAt k.f.gq i { g with st := .parked cause 0 } } }
    let stops := fun (cause : Nat) => (value → exec (.gLoadReturn c i) s = .next (parks cause)) ∧ (store → exec (.placementAck c i) s = .next (parks cause))
    let right := hasRight (winRights w) g.kind.right
    let sends := fun (u : State) (h : GOp) (op aux len : Nat) (b : List Byte) =>
      let l := newTag u ⟨0, c, g.seq, 0, none⟩
      coreSends (modCore l.2 c fun k => { k with f := { k.f with gq := setAt k.f.gq i { h with st := .sent l.1 } } }) c
        [winRequest l.2 w g.lo o op aux len l.1 b]
    let line := g.lo / 128
    (winTgt w = 2 → stops 0x0D) ∧ (winTgt w = 1 → value → stops 0x0C) ∧ (winTgt w ≠ 2 → right = false → stops 0x0C) ∧
    (winTgt w = 0 → right = true → (g.kind = .load ∨ g.kind = .loadAcq) →
      let b := combOver (coreAt t c) g
      exec (.gLoadReturn c i) s = .next (sends t { g with ver := b.1, cmp := BitVec.ofNat 64 b.2 } 0x02 (g.size - 1) g.size [])) ∧
    (winTgt w = 0 → right = true → g.kind = .amo → exec (.gLoadReturn c i) s = .next
      (sends (flushComb t c fun e => line ≤ e.line && e.line ≤ (g.hi - 1) / 128) g 0x03 g.fn 16 (toBytes g.data.toNat 8 ++ toBytes g.cmp.toNat 8))) ∧
    (winTgt w ≠ 2 → right = true → store → ∃ u, exec (.placementAck c i) s = .next u ∧
      u = gStored (combStore t c n w g.lo (toBytes g.data.toNat g.size) none) c i g ∧
      ((∀ e ∈ (coreAt t c).f.comb, e.line ≠ line) → (coreAt t c).f.comb.length < 64 →
        ∃ e, (coreAt u c).f.comb = (coreAt t c).f.comb ++ [e] ∧ e.line = line ∧ e.win = n ∧ e.w = w ∧ e.land = none ∧ e.last = t.now ∧
          (∀ j, j < 128 → (e.mask.getLsbD j = true ↔ g.lo % 128 ≤ j ∧ j < g.lo % 128 + g.size)) ∧
          ∀ j, j < g.size → some (e.data.extractLsb' (8 * (g.lo % 128 + j)) 8) = (toBytes g.data.toNat g.size)[j]?))) ∧
  (∀ (s : State) (va o op aux len tag : Nat) (w : List Nat) (b : List Byte), winTgt w = 0 →
    let p := winRequest s w va o op aux len tag b
    p.dpkg = winPkg w ∧ p.spkg = pkgNo s ∧ p.rsp = false ∧ p.op = op ∧ p.len = len ∧ p.key = winKey w ∧ p.addr = (winRoff w + o) % 2 ^ 56 ∧
      p.tag = tag ∧ p.aux = aux ∧ p.data = b ∧ p.lane = laneOf va)

/-- As its bundle issues under a true guard each floating vector form completes: lane i of the result is the exact sum, difference,
product or fused a x b + d of its lanes rounded once to nearest-even, the lesser or greater lane, the lane with its sign bit
cleared or inverted, a mask of ones where a compare holds (false with a NaN), or the special function of R251; a reduction puts
one value in every lane. The row is set out at the latency of R305 and the unit is taken for two active cycles; nothing else
changes. (derived: spec/13_vector_pack_and_unpack_instructions.md R246, spec/13_vector_pack_and_unpack_instructions.md R248,
spec/13_vector_pack_and_unpack_instructions.md R249, spec/13_vector_pack_and_unpack_instructions.md R250,
spec/13_vector_pack_and_unpack_instructions.md R251, spec/17_scheduling_contract.md R305, spec/17_scheduling_contract.md R307) -/
def Obligations.VectorFloatForms : Prop :=
  ∀ (s : State) (bu : Issue) (p w t d a b : Nat), s.issue = some bu → guardOf s p = true →
    let f := if w = 1 then (if t = 1 then fp16 else bf16) else fp32
    let W := if w = 1 then 16 else 32
    let n := if w = 1 then 256 else 128
    let lanes := viewLanes (here s) (w == 1)
    let out := fun (lat : Nat) (l : List Nat) => wr s fun k => { k with f := { k.f with
      wb := k.f.wb ++ [⟨k.q.act + lat - 1, k.q.seq, .vop d (packLanes W l)⟩], busy := spSet k.f.busy bu.slot (k.q.act + 2) } }
    let rd := fpRead f
    let rn := fun (r : FpRes) => (fpWrite f .ne 0 r).pat
    let mask := fun (c : Bool) => if c then 2 ^ W - 1 else 0
    let eq := fun x y => !(rd x).isNan && !(rd y).isNan && !fpLt false (rd x) (rd y) && !fpLt false (rd y) (rd x)
    let lt := fun x y => fpLt false (rd x) (rd y)
    (∀ e ∈ [(Instr.vaddF p w t d a b, fun x y => rn (fpAdd .ne (rd x) (rd y))), (.vsubF p w t d a b, fun x y => rn (fpAdd .ne (rd x) (fpNegV (rd y)))),
        (.vmulF p w t d a b, fun x y => rn (fpMul (rd x) (rd y))), (.vminF p w t d a b, fpMinMax f false), (.vmaxF p w t d a b, fpMinMax f true),
        (.vcmpEqF p w t d a b, fun x y => mask (eq x y)), (.vcmpLtF p w t d a b, fun x y => mask (lt x y)),
        (.vcmpLeF p w t d a b, fun x y => mask (lt x y || eq x y))],
      exec e.1 s = .next (out 4 (List.zipWith e.2 (lanes a) (lanes b)))) ∧
    exec (.vfma p w t d a b) s = .next (out 5 (List.zipWith (fun g z => g z)
      (List.zipWith (fun z x y => rn (fpFma .ne (rd x) (rd y) (rd z))) (lanes d) (lanes a)) (lanes b))) ∧
    (∀ e ∈ [(Instr.vabs p w t d a, 4, fun x => x % 2 ^ (W - 1)), (.vneg p w t d a, 4, fun x => (x + 2 ^ (W - 1)) % 2 ^ W),
        (.vexp2 p w t d a, 10, spExp2 f), (.vlog2 p w t d a, 10, spLog2 f), (.vrcp p w t d a, 10, spRcp f), (.vrsq p w t d a, 10, spRsq f),
        (.vtanh p w t d a, 10, spTanh f), (.vsilu p w t d a, 10, spSilu f)],
      exec e.1 s = .next (out e.2.1 ((lanes a).map e.2.2))) ∧
    (∀ e ∈ [(Instr.vrsumF p w t d a, redSum f (lanes a)), (.vrmax p w t d a, redExt true f (lanes a)), (.vrmin p w t d a, redExt false f (lanes a))],
      exec e.1 s = .next (out 8 (List.replicate n e.2)))

/-- As its bundle issues under a true guard each integer and logic form completes, 3 active cycles on (a sum over the lanes 8):
sums, differences, products, minima and maxima of signed lanes wrapped or saturated as the form says, bitwise logic, shifts that
give 0 or the sign for counts of the lane width or more, compare masks, select by a mask lane, copies, broadcast of one lane,
permutation by lane indexes, rotation and reversal. (derived: spec/13_vector_pack_and_unpack_instructions.md R246,
spec/13_vector_pack_and_unpack_instructions.md R250, spec/13_vector_pack_and_unpack_instructions.md R252,
spec/13_vector_pack_and_unpack_instructions.md R253, spec/13_vector_pack_and_unpack_instructions.md R254,
spec/17_scheduling_contract.md R305) -/
def Obligations.VectorIntegerForms : Prop :=
  ∀ (s : State) (bu : Issue) (p w t d a b i : Nat), s.issue = some bu → guardOf s p = true →
    let W := if w = 1 then 16 else 32
    let n := if w = 1 then 256 else 128
    let lanes := viewLanes (here s) (w == 1)
    let out := fun (lat : Nat) (l : List Nat) => wr s fun k => { k with f := { k.f with
      wb := k.f.wb ++ [⟨k.q.act + lat - 1, k.q.seq, .vop d (packLanes W l)⟩], busy := spSet k.f.busy bu.slot (k.q.act + 2) } }
    let sg := sextN W
    let fit := fun (r : Int) => toPat W (if t = 1 then satI r (-(2 ^ (W - 1))) (2 ^ (W - 1) - 1) else r)
    let mask := fun (c : Bool) => if c then 2 ^ W - 1 else 0
    (∀ e ∈ [(Instr.vaddI p w t d a b, fun x y => fit (sg x + sg y)), (.vsubI p w t d a b, fun x y => fit (sg x - sg y)),
        (.vmulI p w t d a b, fun x y => fit (sg x * sg y)), (.vminI p w t d a b, fun x y => fit (if sg x < sg y then sg x else sg y)),
        (.vmaxI p w t d a b, fun x y => fit (if sg x < sg y then sg y else sg x)),
        (.vand p w d a b, fun x y => x &&& y), (.vor p w d a b, fun x y => x ||| y), (.vxor p w d a b, fun x y => x ^^^ y),
        (.vshl p w d a b, fun x y => if W ≤ y then 0 else x * 2 ^ y % 2 ^ W), (.vshr p w d a b, fun x y => if W ≤ y then 0 else x / 2 ^ y),
        (.vsra p w d a b, fun x y => toPat W (sg x / 2 ^ (if W ≤ y then W - 1 else y))),
        (.vcmpEqI p w d a b, fun x y => mask (x == y)), (.vcmpLtI p w d a b, fun x y => mask (decide (sg x < sg y)))],
      exec e.1 s = .next (out 3 (List.zipWith e.2 (lanes a) (lanes b)))) ∧
    exec (.vsel p w d a b) s = .next (out 3 (List.zipWith (fun g z => g z)
      (List.zipWith (fun z x y => if z = 0 then y else x) (lanes d) (lanes a)) (lanes b))) ∧
    exec (.vmov p w d a) s = .next (out 3 (lanes a)) ∧
    (∀ e ∈ [(Instr.vbcast p w d a i, fun (_ : Nat) => i), (.vrot p w d a i, fun k => (k + i) % n), (.vrev p w d a, fun k => n - 1 - k)],
      exec e.1 s = .next (out 3 ((List.range n).map fun k => (lanes a).getD (e.2 k) 0))) ∧
    exec (.vperm p w d a b) s = .next (out 3 ((lanes b).map fun k => (lanes a).getD (k % n) 0)) ∧
    exec (.vrsumI p w t d a) s = .next (out 8 (List.replicate n (fit (((lanes a).map sg).foldl (· + ·) 0))))

/-- As its bundle issues under a true guard each conversion completes 4 active cycles on: to a half of each 32-bit lane of d with
the other half kept, from a half exactly, floating to integer with NaN as 0 and saturation, integer to floating, saturating to
and sign-extending from 16 bits; with the stochastic code one draw from RNGS serves the lanes, NaN and infinite lanes of vcvt.fi
count in CVT_LOSS. RESULT_LAND writes every result that is due, in landing order, and leaves the others on their way. (derived:
spec/13_vector_pack_and_unpack_instructions.md R255, spec/05_arithmetic_rules.md R84, spec/05_arithmetic_rules.md R87,
spec/17_scheduling_contract.md R299, spec/17_scheduling_contract.md R308) -/
def Obligations.VectorConversions : Prop :=
  (∀ (s : State) (bu : Issue) (p w t d a h r : Nat), s.issue = some bu → guardOf s p = true →
    let f := if w = 1 then (if t = 1 then fp16 else bf16) else fp32
    let f16 := if t = 1 then fp16 else bf16
    let W := if w = 1 then 16 else 32
    let mode := (rmode r).getD .ne
    let g := if mode = .sr then drawRng s else (0, s)
    let l32 := viewLanes (here s) false
    let lw := viewLanes (here s) (w == 1)
    let out := fun (u : State) (x : BitVec 4096) => wr u fun k => { k with f := { k.f with
      wb := k.f.wb ++ [⟨k.q.act + 3, k.q.seq, .vop d x⟩], busy := spSet k.f.busy bu.slot (k.q.act + 2) } }
    let half := fun (x : Nat) => if h = 1 then x / 65536 % 65536 else x % 65536
    let keep := fun (v : List Nat) => packLanes 32 (List.zipWith (fun x y => if h = 1 then x % 65536 + y * 65536 else x / 65536 * 65536 + y) (l32 d) v)
    let toI := fun (x i : Nat) => laneToInt f w mode (rngR16 g.1 i) x
    exec (.vcvtN p t d a h r) s = .next (out g.2 (keep ((l32 a).zipIdx.map fun e => (fpConvert fp32 f16 mode (rngR16 g.1 e.2) e.1).1))) ∧
    exec (.vcvtW p t d a h) s = .next (out s (packLanes 32 ((l32 a).map fun x => (fpConvert f16 fp32 .ne 0 (half x)).1))) ∧
    exec (.vcvtNi p d a h) s = .next (out s (keep ((l32 a).map fun x => toPat 16 (satI (sextN 32 x) (-32768) 32767)))) ∧
    exec (.vcvtWi p d a h) s = .next (out s (packLanes 32 ((l32 a).map fun x => toPat 32 (sextN 16 (half x))))) ∧
    exec (.vcvtIf p w t d a r) s = .next (out g.2 (packLanes W ((lw a).zipIdx.map fun e =>
      (fpWrite f mode (rngR16 g.1 e.2) (.fin (decide (sextN W e.1 < 0)) (sextN W e.1).natAbs 0 false)).pat))) ∧
    exec (.vcvtFi p w t d a r) s = .next (out (wr g.2 fun k => addCvt k (((lw a).zipIdx.map fun e => toI e.1 e.2).filter Prod.snd).length)
      (packLanes W ((lw a).zipIdx.map fun e => (toI e.1 e.2).1)))) ∧
  (∀ (s : State) (c : Nat), exec (.resultLand c) s = .next (modCore s c fun k =>
    (landOrder (k.f.wb.filter fun e => e.land ≤ k.q.act)).foldl (fun k e => landOne k e.dest)
      { k with f := { k.f with wb := k.f.wb.filter fun e => k.q.act < e.land } }))

/-- As its bundle issues under a true guard each pack faults ILLEGAL_SLOT at a mode register value that R260 names, changing
nothing, and else sets out the 256 rounded elements at its part of the packed register and the scale byte of each block in the
companion (the upper quarter of the register cleared for 6-bit elements), and counts what saturated or was no number in
CVT_LOSS; each unpack likewise sets out 256 lanes in one row, or in two of 32 bits with the second a cycle later. The unit is
taken for one active cycle, or two in the wide form. (derived: spec/13_vector_pack_and_unpack_instructions.md R256,
spec/13_vector_pack_and_unpack_instructions.md R257, spec/13_vector_pack_and_unpack_instructions.md R258,
spec/13_vector_pack_and_unpack_instructions.md R259, spec/13_vector_pack_and_unpack_instructions.md R260) -/
def Obligations.PackedConversions : Prop :=
  ∀ (s : State) (bu : Issue) (p q part row : Nat), s.issue = some bu → guardOf s p = true →
    let c := here s
    (∀ e ∈ [(Instr.pkMxint8Mm14 p q part row, 0, 14), (.pkMxint8Mm15 p q part row, 0, 15), (.pkMxint6Mm14 p q part row, 1, 14),
        (.pkMxint6Mm15 p q part row, 1, 15), (.pkMxint4Mm14 p q part row, 2, 14), (.pkMxint4Mm15 p q part row, 2, 15),
        (.pkE4m3Mm14 p q part row, 3, 14), (.pkE4m3Mm15 p q part row, 3, 15), (.pkE5m2Mm14 p q part row, 4, 14),
        (.pkE5m2Mm15 p q part row, 4, 15), (.pkFp6Mm14 p q part row, 5, 14), (.pkFp6Mm15 p q part row, 5, 15),
        (.pkE2m1Mm14 p q part row, 6, 14), (.pkE2m1Mm15 p q part row, 6, 15)],
      let m := pkMode (mmReg c e.2.2)
      let f := pkFmt e.2.1 m
      let mode := (rmode m.rnd).getD .ne
      let g := if mode = .sr then drawRng s else (0, s)
      let v := (pkLanes c m row).map (fpRead (pkLane m))
      let cb := 256 * part / pkBlk m
      let scales := (chunksOf (pkBlk m) 16 v).zipIdx.map fun x => pkScale f m ((qComp c q).extractLsb' (8 * (cb + x.2)) 8).toNat x.1
      let el := v.zipIdx.map fun x => pkElem f mode (scales.getD (x.2 / pkBlk m) 0) (rngR16 g.1 x.2) x.1
      let lat := if m.lw = true then 3 else 2
      (pkBad m row true = true → exec e.1 s = .next (recorded s bu 0x01 0 0)) ∧
      (pkBad m row true = false → exec e.1 s = .next (wr g.2 fun k =>
        let k := addCvt k (el.filter Prod.snd).length
        let late := fun (d : WbDest) => (⟨k.q.act + lat - 1, k.q.seq, d⟩ : WbEntry)
        { k with f := { k.f with
          wb := k.f.wb ++ [late (.qbits q (256 * part * f.bits) (256 * f.bits) (packLanes f.bits (el.map Prod.fst)))] ++
            (if f.bits = 6 then [late (.qbits q 3072 1024 0)] else []) ++
            [late (.qcomp q (8 * cb) (8 * scales.length) (BitVec.ofNat 256 (scales.foldr (fun z acc => acc * 256 + z) 0)))]
          busy := spSet k.f.busy bu.slot (k.q.act + if m.lw = true then 2 else 1) } }))) ∧
    (∀ e ∈ [(Instr.unpkMxint8Mm14 p q part row, 0, 14), (.unpkMxint8Mm15 p q part row, 0, 15), (.unpkMxint6Mm14 p q part row, 1, 14),
        (.unpkMxint6Mm15 p q part row, 1, 15), (.unpkMxint4Mm14 p q part row, 2, 14), (.unpkMxint4Mm15 p q part row, 2, 15),
        (.unpkE4m3Mm14 p q part row, 3, 14), (.unpkE4m3Mm15 p q part row, 3, 15), (.unpkE5m2Mm14 p q part row, 4, 14),
        (.unpkE5m2Mm15 p q part row, 4, 15), (.unpkFp6Mm14 p q part row, 5, 14), (.unpkFp6Mm15 p q part row, 5, 15),
        (.unpkE2m1Mm14 p q part row, 6, 14), (.unpkE2m1Mm15 p q part row, 6, 15)],
      let m := pkMode (mmReg c e.2.2)
      let f := pkFmt e.2.1 m
      let mode := if rmode m.rnd = some .sr then .ne else (rmode m.rnd).getD .ne
      let l := (List.range 256).map fun i => unpkLane f (pkLane m) mode
        ((qComp c q).extractLsb' (8 * ((256 * part + i) / pkBlk m)) 8).toNat ((qReg c q).toNat / 2 ^ (f.bits * (256 * part + i)) % 2 ^ f.bits)
      (pkBad m row false = true → exec e.1 s = .next (recorded s bu 0x01 0 0)) ∧
      (pkBad m row false = false → exec e.1 s = .next (wr s fun k => { k with f := { k.f with
        wb := k.f.wb ++ if m.lw = true
          then [⟨k.q.act + 1, k.q.seq, .vop row (packLanes 32 (l.take 128))⟩, ⟨k.q.act + 2, k.q.seq, .vop (row + 1) (packLanes 32 (l.drop 128))⟩]
          else [⟨k.q.act + 1, k.q.seq, .vop row (packLanes 16 l)⟩]
        busy := spSet k.f.busy bu.slot (k.q.act + if m.lw = true then 2 else 1) } })))

/-- As its bundle issues under a true guard each matrix operation joins the end of the list in flight with its order of issue, tile,
operand slot, mode register and start delay, not yet launched; nothing else changes, and nothing is checked before its launch.
(derived: spec/12_matrix_instructions.md R231, spec/02_tile_tasks_and_supersteps.md R32, spec/08_bundle_format_and_opcode_map.md
R156) -/
def Obligations.MatrixOperationsIssue : Prop :=
  ∀ (s : State) (p l t o m : Nat), guardOf s p = true →
    ∀ e ∈ [(Instr.mwld p l o m, 1, 0, o, m, xwWord p l 1 o m), (.mtrans p l o m, 2, 0, o, m, xwWord p l 2 o m),
        (.mma p l t o m, 3, t, o, m, xWord p l 3 t o m), (.mmaAcc p l t o m, 4, t, o, m, xWord p l 4 t o m),
        (.mmaTri p l t o m, 5, t, o, m, xWord p l 5 t o m), (.mmaTriAcc p l t o m, 6, t, o, m, xWord p l 6 t o m),
        (.mmaP p l o m, 7, 0, o, m, xWord p l 7 0 o m), (.mzero p l t, 8, t, 0, 0, xWord p l 8 t 0 0),
        (.mdrain p l t m, 9, t, 0, m, xWord p l 9 t 0 m), (.mdrainSp p l m, 10, 0, 0, m, xWord p l 10 0 0 m),
        (.mdrainFab p l m, 11, 0, 0, m, xWord p l 11 0 0 m)],
    exec e.1 s = .next (wr s fun k => { k with f := { k.f with xops := k.f.xops ++ [{
      seq := k.q.seq, word := e.2.2.2.2.2, op := e.2.1, t := e.2.2.1, os := e.2.2.2.1, mm := e.2.2.2.2.1, delay := l, launched := false,
      age := 0, mode := 0, plane := 0, wts := ⟨false, 0, 128, []⟩, ablk := 128, str := 0, entered := 0, fly := [], done := 0,
      placed := 0, slip := 0, win := [] }] } })

/-- For the oldest matrix operation of a core whose delay has run out, with the line low: an operation that reads an operand slot
under a good mode value faults SLOT_NOT_CLAIMED on a FREE slot and SLOT_STATE on a CLAIMED one, is held on a FILLING one, and
faults ILLEGAL_SLOT where the formats differ; mzero always launches; what passes launches with its mode value read, and what
faults traps at the core. With the line held nothing launches. With one step left and alone in flight, a cycle has mzero zero
its last four rows, mwld place its last column with the plane loaded, and mma write its last row as the product, each then
leaving flight; X_OP_FINISH takes out of flight the operations whose last row is done and no other. DRAIN_ROW_PLACED of an
acknowledged row takes it out of the queue and off PBC, and counts it for its own drain alone, in flight or set aside. (derived:
spec/12_matrix_instructions.md R231, spec/12_matrix_instructions.md R232, spec/12_matrix_instructions.md R233,
spec/12_matrix_instructions.md R235, spec/12_matrix_instructions.md R238, spec/12_matrix_instructions.md R243,
spec/12_matrix_instructions.md R245, spec/06_counters_versions_and_order.md R107) -/
def Obligations.MatrixLaunchAndFinish : Prop :=
  (∀ (s : State) (c : Nat) (x : XOp) (l : List XOp), dueX (coreAt s c) = x :: l →
    let k := coreAt s c
    (lineLow k = false → exec (.xOpLaunch c) s = .next s) ∧
    (lineLow k = true → xCheck s k x = .ok → exec (.xOpLaunch c) s = .next (modCore s c (xLaunch k (xWords s k x) [] x)) ∧
      ∃ y, y ∈ (xLaunch k (xWords s k x) [] x k).f.xops ∧ y.seq = x.seq ∧ y.launched = true ∧ y.mode = mmReg k x.mm) ∧
    (lineLow k = true → xCheck s k x = .hold → exec (.xOpLaunch c) s = .next s) ∧
    (∀ f, lineLow k = true → k.q.between = true → xCheck s k x = .fault f → exec (.xOpLaunch c) s = .next (takeTrap
      (modCore (modCore s c fun k' => putX k' { x with mode := mmReg k x.mm }) c undoHold) c ⟨f, 0, 5, 0, k.q.pc, dxAt k k.q.pc, 0, 0⟩ false none))) ∧
  (∀ (s : State) (c : Nat), dueX (coreAt s c) = [] → exec (.xOpLaunch c) s = .next s) ∧
  (∀ (s : State) (k : Core) (x : XOp), (x.op = 8 → xCheck s k x = .ok) ∧
    (1 ≤ x.op → x.op ≤ 7 → (cview (mmReg k x.mm)).fmt ≤ 3 → (cview (mmReg k x.mm)).mask ≠ 3 → (cview (mmReg k x.mm)).kblk ≠ 0 →
      ((slotOf k x.os).st = .free → xCheck s k x = .fault 0x08) ∧ ((slotOf k x.os).st = .claimed → xCheck s k x = .fault 0x09) ∧
      ((slotOf k x.os).st = .filling → xCheck s k x = .hold) ∧
      ((slotOf k x.os).st = .full → (slotOf k x.os).fmt ≠ (cview (mmReg k x.mm)).fmt → xCheck s k x = .fault 0x01))) ∧
  (∀ (k : Core) (x : XOp), k.f.xops = [x] → x.launched = true →
    let t := xRetire (xAdvance (fun _ => true) [] k)
    (x.op = 8 → x.done = 31 → t.f.xops = [] ∧ ∀ r,
      accRow t r = if 128 * x.t + 124 ≤ r ∧ r < 128 * x.t + 128 then 0 else accRow k r) ∧
    (x.op = 1 → x.done = 127 → t.f.xops = [] ∧ planeAt t x.plane = { planeAt k x.plane with
        cols := spSet (planeAt k x.plane).cols 127 ((slotOf k x.os).row x.os 127), loaded := true }) ∧
    (∀ f, x.op = 3 → x.done = 127 → x.entered = 128 → x.fly = [f] → mmaDue x 0 = true → t.f.xops = [] ∧ ∀ r, accRow t r =
        if r = 128 * x.t + f.i then productRow (cview x.mode) false false x.ablk x.wts f.i f.a f.old else accRow k r)) ∧
  (∀ (s : State) (c : Nat), exec (.xOpFinish c) s = .next (modCore s c fun k => { k with f := { k.f with
    xops := k.f.xops.filter fun x => !(x.launched && (if x.op = 8 then 32 else 128) ≤ x.done && (x.op != 10 || x.done + x.slip ≤ x.age)) } })) ∧
  (∀ (s : State) (c i : Nat) (r : DrainRow), (coreAt s c).f.drainq[i]? = some r →
    let placed := fun (l : List XOp) => l.map fun x => if x.seq = r.op ∧ x.op = 11 then { x with placed := x.placed + 1 } else x
    (r.acked = true → exec (.drainRowPlaced c i) s = .next (modCore s c fun k => { k with
      f := { k.f with drainq := k.f.drainq.eraseIdx i, xops := placed k.f.xops }
      q := { k.q with aside := k.q.aside.map fun a => { a with xops := placed a.xops } }
      r := { k.r with pbc := k.r.pbc - r.bytes.length } })) ∧
    (r.acked = false → exec (.drainRowPlaced c i) s = .next s))

/-- For an operation alone in flight, in a cycle in which it advances and its next row is due: mma and its forms write one row of
their tile, of the products of the row of A that entered with the columns of their plane, masked right of the diagonal in the
triangular forms, and added to the row in the accumulating forms, which read it in the cycle before; mma.p writes one row of the
drain buffer, and with its first row says whether its words are INT32; mtrans keeps the slot rows it reads, and with the last
makes the columns of its plane; mdrain writes one converted row of its tile, mdrain.sp one row at its place in the handle or one
aligned row of the operand slot, FULL with the last; mdrain.fab puts one row with its offset in its window into the drain queue,
and waits while 8 rows are there. Nothing else of the register files and of the scratchpad changes. An INT32 word of a product
is the sum of products, wrapped or saturated. (derived: spec/12_matrix_instructions.md R234, spec/12_matrix_instructions.md
R235, spec/12_matrix_instructions.md R236, spec/12_matrix_instructions.md R237, spec/12_matrix_instructions.md R239,
spec/12_matrix_instructions.md R240, spec/12_matrix_instructions.md R241, spec/12_matrix_instructions.md R242,
spec/12_matrix_instructions.md R243, spec/05_arithmetic_rules.md R89, spec/05_arithmetic_rules.md R90,
spec/05_arithmetic_rules.md R93) -/
def Obligations.MatrixRows : Prop :=
  (∀ (k : Core) (x : XOp), k.f.xops = [x] → x.launched = true →
    let t := xAdvance (fun _ => true) [] k
    let v := cview x.mode
    let d := dview x.mode
    let conv := fun (f rnd : Nat) => (lanes32 (drainRow k x.done)).map fun w => (drainConv k.m.drainInt f d.scale ((rmode rnd).getD .ne) w).1
    (∀ f l, x.fly = f :: l →
      (∀ e ∈ [(3, false, false), (4, false, true), (5, true, false), (6, true, true)], x.op = e.1 →
        (mmaDue x 0 = true → t.r = k.r ∧ t.m = { k.m with acc := t.m.acc } ∧ ∀ r, accRow t r =
          if r = 128 * x.t + f.i then productRow v e.2.1 e.2.2 x.ablk x.wts f.i f.a f.old else accRow k r) ∧
        (mmaDue x 0 = false → t.r = k.r ∧ t.m = k.m) ∧
        (e.2.2 = true → mmaDue x 0 = false → mmaDue x 1 = true →
          ∃ y, t.f.xops = [y] ∧ y.done = x.done ∧ y.fly.head? = some { f with old := accRow k (128 * x.t + f.i) })) ∧
      (x.op = 7 → mmaDue x 0 = true → t.r = k.r ∧ t.m = { k.m with drain := t.m.drain, drainInt := if x.done = 0 then v.out else k.m.drainInt } ∧
        ∀ r, drainRow t r = if r = f.i then productRow v v.ptri v.pacc x.ablk x.wts f.i f.a (drainRow k f.i) else drainRow k r)) ∧
    (x.op = 2 →
      let row := (slotOf k x.os).row x.os x.done
      (x.done < 127 → t.m = k.m ∧ t.r = k.r ∧ ∃ y, t.f.xops = [y] ∧ y.done = x.done + 1 ∧ y.fly.map XRow.a = x.fly.map XRow.a ++ [row]) ∧
      (x.done = 127 →
        let made := transposed (x.fly.map XRow.a ++ [row]) x.ablk v.fmt (blkSize v.kblk)
        (∀ j, j < 128 → (planeAt t x.plane).col j = made.1.getD j ⟨0, 0, 0⟩) ∧ (planeAt t x.plane).loaded = true ∧
        (planeAt t x.plane).fmt = (planeAt k x.plane).fmt ∧ (planeAt t x.plane).blk = (planeAt k x.plane).blk ∧
        (∀ n, n ≠ x.plane → planeAt t n = planeAt k n) ∧ t.m = { k.m with planes := t.m.planes } ∧
        t.r = { k.r with alnLoss := satAdd64 k.r.alnLoss made.2 })) ∧
    (x.op = 9 → x.done < 128 → x.done + x.slip ≤ x.age → t.m = { k.m with acc := t.m.acc } ∧ t.r = { k.r with cvtLoss := t.r.cvtLoss } ∧ ∀ r,
      accRow t r = if r = 128 * x.t + x.done then packLanes 32 (conv (if k.m.drainInt then 0x0F else 0x01) d.rnd) else accRow k r) ∧
    (x.op = 10 → x.done < 128 → x.done + x.slip ≤ x.age →
      let st := stream x.str
      let w := (fmtBits st.fmt).getD 8
      let n := st.hnd % 16
      (st.tgt = false → t.r = { k.r with cvtLoss := t.r.cvtLoss } ∧ t.m =
        (spadWrite k (handle k st.hnd) (stAddr (stream (stSteps x.done x.str))).toNat (packElems w (conv st.fmt st.rnd) (16 * w))).m) ∧
      (st.tgt = true →
        let made := alignRow 0 (blkSize st.blk) 254 ((lanes32 (drainRow k x.done)).map (drainVal d.scale))
        slotOf t n = { slotOf k n with rows := spSet (slotOf k n).rows x.done made.1, st := if x.done = 127 then .full else (slotOf k n).st } ∧
        (∀ m, m ≠ n → slotOf t m = slotOf k m) ∧ t.m = { k.m with slots := t.m.slots } ∧ t.r = { k.r with alnLoss := satAdd64 k.r.alnLoss made.2 })) ∧
    (x.op = 11 → x.done < 128 → x.done + x.slip ≤ x.age →
      let f := dfmtCode d.dfmt
      let w := (fmtBits f).getD 8
      let b := packElems w (conv f d.rnd) (16 * w)
      (unsentRows k < 8 → t.m = k.m ∧ t.r = { k.r with cvtLoss := t.r.cvtLoss } ∧ t.f.drainq = k.f.drainq ++
        [⟨x.seq, x.win, d.doff * 64 + x.done * (if d.rstr = 0 then 128 * (fmtBits f).getD 8 / 8 else d.rstr * 64), b, d.lct,
          (24 + b.length + 235) / 236 + 1, false, 0, false⟩]) ∧
      (8 ≤ unsentRows k → t = k))) ∧
  (∀ (v : CView) (tri acc : Bool) (ablk i j : Nat) (p : Plane) (a : MxRow) (old : BitVec 4096), j < 128 →
    let w := (productRow v tri acc ablk p i a old).extractLsb' (32 * j) 32
    let o := old.extractLsb' (32 * j) 32
    let masked := tri = true ∧ (i : Int) + v.diag < (j : Int)
    (masked → w = if v.mask = 0 then 0xFF800000#32 else if v.mask = 1 then 0 else BitVec.ofNat 32 v.mimm) ∧
    (¬masked → v.out = true →
      let r := (if acc then o.toInt else 0) + ((List.range (mxPerRow v.fmt)).map fun n => a.elem v.fmt n * (p.col j).elem v.fmt n).sum
      (v.sat = false → w = BitVec.ofInt 32 r) ∧ (v.sat = true → w = BitVec.ofInt 32 (max (-2147483648) (min 2147483647 r)))) ∧
    (¬masked → v.out = false → w = BitVec.ofNat 32 (dotFp (if acc then some o.toNat else none) (contributions v.fmt ablk p.blk a (p.col j)))))

/-- As its bundle issues under a true guard, an operation with a record faults HANDLE_RANGE for reserved bits, an offset not on 8
bytes or a record beyond its handle, HANDLE_FREE for a free handle and HANDLE_STATE for one not in the scratchpad; else, like
rflush, it joins the list of its core, not yet started, with the tokens it consumes, and its token becomes pending. Counter
commands fault as their check says (a word for ct511 COUNTER_RESERVED, an operand with bit 63 COUNTER_OVERFLOW), else they join
with name and operand. (derived: spec/14_counter_engine_and_fabric_instructions.md R262,
spec/14_counter_engine_and_fabric_instructions.md R267, spec/14_counter_engine_and_fabric_instructions.md R268,
spec/14_counter_engine_and_fabric_instructions.md R269, spec/14_counter_engine_and_fabric_instructions.md R279,
spec/02_tile_tasks_and_supersteps.md R35) -/
def Obligations.EngineCommandsIssue : Prop :=
  ∀ (s : State) (bu : Issue) (p r n a b c d x y : Nat), s.issue = some bu → guardOf s p = true →
    let w := sreg (here s) (48 + x)
    let v := sreg (here s) (48 + y)
    let push := fun (op : Nat) (cons : List Nat) (recw u v : Word) (pd : Nat) => wr { s with fresh := s.fresh + 1 } fun k => { k with
      r := { k.r with tok := k.r.tok ||| (1#16 <<< r) }
      f := { k.f with cmds := k.f.cmds ++ [(⟨s.fresh, (here s).q.seq, op, r, cons, recw, (handle (here s) (bits recw.toNat 63 56)).gen, u, v, pd,
        false, [], [], 0, 0, 0, [], none, [], s.dev, [], false, 0, 0⟩ : Cmd)] } }
    let e := handle (here s) (bits w.toNat 63 56)
    let off := bits w.toNat 31 0
    let size := fun op => recSize s bu.core op w
    (∀ o ∈ [(Instr.cpy p r n a b c x, 0x01), (.gat p r n a b c x, 0x02), (.sct p r n a b c x, 0x03), (.mcastQ p r n a b c x, 0x04),
        (.rst p r n a b c x, 0x05), (.rld p r n a b c x, 0x06), (.rred p r n a b c x, 0x07), (.coll p r n a b c x, 0x09),
        (.disp p r n a b c x, 0x0A), (.ccpy p r n a b c x, 0x0B), (.task p r n a b c x, 0x0C), (.frecRd p r n a b c x, 0x10),
        (.frecWr p r n a b c x, 0x11)],
      (bits w.toNat 55 32 ≠ 0 ∨ off % 8 ≠ 0 → exec o.1 s = .next (recorded s bu 0x07 0 0)) ∧
      (bits w.toNat 55 32 = 0 → off % 8 = 0 →
        (e.valid = false → exec o.1 s = .next (recorded s bu 0x05 0 0)) ∧
        (e.valid = true → (e.shadow = true ∨ e.held = true) → exec o.1 s = .next (recorded s bu 0x06 0 0)) ∧
        (e.valid = true → e.shadow = false → e.held = false →
          (e.size < off + 64 ∨ e.size < off + size o.2 → exec o.1 s = .next (recorded s bu 0x07 0 0)) ∧
          (off + 64 ≤ e.size → off + size o.2 ≤ e.size → exec o.1 s = .next (push o.2 ([a, b, c].take n) w 0 0 0))))) ∧
    exec (.rflush p r n a b c) s = .next (push 0x08 ([a, b, c].take n) 0 0 0 0) ∧
    (∀ o ∈ [(Instr.ctadd p r n a b y x, 0x0D, [a, b].take n, 0), (.ctraise p r n a b y x, 0x0E, [a, b].take n, 0),
        (.ctpoll p r n a d y x, 0x0F, [a].take n, d)],
      (∀ f g h, ctrFault s bu.core o.2.1 w v = some (f, g, h) → exec o.1 s =
        .next (recorded (walkNote s (asidOf (here s)) h.toNat (if f = 0x0B then g else 0)) bu f g h)) ∧
      (ctrFault s bu.core o.2.1 w v = none → exec o.1 s = .next (push o.2.1 o.2.2.1 0 w v o.2.2.2)) ∧
      (nameBad w.toNat = false → bits w.toNat 63 62 = 0 → o.2.1 ≠ 0x0F → bits w.toNat 8 0 = 511 →
        ctrFault s bu.core o.2.1 w v = some (0x10, 0, 0)) ∧
      (nameBad w.toNat = false → bits w.toNat 63 62 = 0 → o.2.1 ≠ 0x0F → bits w.toNat 8 0 ≠ 511 → v.getLsbD 63 = true →
        ctrFault s bu.core o.2.1 w v = some (0x0F, 0, 0)))

/-- A command with a token it consumes still pending, or started, or of a core that is stopped or halted, does not start, nor a ccpy
while its crypto engine serves another command or it is the turn of another core. One that may start, with no log recorded or
replayed and no earlier access of its core queued (for a release no earlier fill that reads): rflush flushes the combining
buffer; a counter add or raise flushes the entries its scope covers and awaits those writes of its core that its scope covers,
of the slots and of the commands whose tokens it consumes; ctpoll just starts; a command whose record is gone gives up its
token; else the record is read once, the GENs of its handles are taken, and the command starts as its opcode says, keeps the
status code of a failed check (03 where its walk met an uncorrectable line, which is counted), or parks at a page and asks the
driver for it. (derived: spec/14_counter_engine_and_fabric_instructions.md R261,
spec/14_counter_engine_and_fabric_instructions.md R262, spec/14_counter_engine_and_fabric_instructions.md R263,
spec/14_counter_engine_and_fabric_instructions.md R266, spec/14_counter_engine_and_fabric_instructions.md R268,
spec/14_counter_engine_and_fabric_instructions.md R279, spec/02_tile_tasks_and_supersteps.md R35,
spec/23_security_and_confidential_copy.md R407) -/
def Obligations.EngineCommandStarts : Prop :=
  ∀ (s : State) (c i h e : Nat) (x : Cmd), cmdAt s c i = some x →
    let k := coreAt s c
    let asid := asidOf k
    let fab := relFabric s c x
    let some' := flushComb s c fun e => fab || combLocal s e
    (x.started = true ∨ k.q.stopped = true ∨ k.halted = true ∨ (∃ t, t ∈ x.cons ∧ k.r.tok.getLsbD t = true) → exec (.engineCommandStart c i h e) s = .next s) ∧
    (x.op = 0x0B → cryptoTurn s c x = false → exec (.engineCommandStart c i h e) s = .next s) ∧
    (x.started = false → k.q.stopped = false → k.halted = false → x.parked = none → (∀ t ∈ x.cons, k.r.tok.getLsbD t = false) →
      (∀ g ∈ k.f.gq, x.seq ≤ g.seq) → rplMode s = 0 → x.op ≠ 0x0B →
      (x.op = 0x08 → exec (.engineCommandStart c i h e) s = .next (modCmd (flushComb s c fun _ => true) c x.id fun y => { y with started := true, prog := [0] })) ∧
      (x.op = 0x0D ∨ x.op = 0x0E → fillBefore k x.seq = false → exec (.engineCommandStart c i h e) s = .next (modCmd some' c x.id fun y => { y with
        started := true, prog := ((coreAt some' c).f.unacked.filter fun u => (fab || !u.fabric) &&
          match u.eng with | none => true | some t => x.cons.contains t).map Unacked.tag })) ∧
      (x.op = 0x0F → exec (.engineCommandStart c i h e) s = .next (modCmd s c x.id fun y => { y with started := true })) ∧
      (x.op ∉ [0x08, 0x0D, 0x0E, 0x0F] → recHere s c x = none →
        exec (.engineCommandStart c i h e) s = .next (tokenDone (modCore s c fun k => countEv k 0x10 1) c x)) ∧
      (∀ en, x.op ∉ [0x08, 0x0D, 0x0E, 0x0F] → recHere s c x = some en → x.recb = [] → x.gens = [] →
        let y0 := { x with started := true, recb := hRead s c en (bits x.recw.toNat 31 0) (recSize s c x.op x.recw) }
        let y := { y0 with gens := gensNow s c y0 }
        (∀ z t, startRec s c asid y h (e != 0) = .ok (z, t) → exec (.engineCommandStart c i h e) s = .next (modCmd t c x.id fun _ => z)) ∧
        (∀ f, startRec s c asid y h (e != 0) = .stop (.bad f) → f ≠ 9 →
          exec (.engineCommandStart c i h e) s = .next (modCmd s c x.id fun _ => { y with code := f })) ∧
        (∀ a, startRec s c asid y h (e != 0) = .stop (.walk a) →
          exec (.engineCommandStart c i h e) s = .next (walkNote (modCmd s c x.id fun _ => { y with code := 3 }) asid a 8)) ∧
        (∀ a, startRec s c asid y h (e != 0) = .stop (.park a) → exec (.engineCommandStart c i h e) s =
          .next (engPark (modCmd s c x.id fun _ => { y with started := false }) c x.id asid a)) ∧
        (∀ a, xlat s c asid a = .fail 3 → ∃ t, engPark s c x.id asid a = post t (driverOf s asid) 1 [asid, a] ∧
          t = modCmd s c x.id fun z => { z with parked := some (asid, a) })))

/-- For a cpy record with both endpoints handles, equal formats, no rounding and counters absent, over handles of the core that are
valid, as they stood when the command took their GENs, free of engine holds and long enough, the start succeeds: the pieces to
place are the bytes of the source at the start, in order, at rising places of the destination, none crossing a 512-byte line;
together they are the source bytes, unchanged. Sources are read at the start, destinations checked when placed: the reading of
log 34. (derived: spec/14_counter_engine_and_fabric_instructions.md R264, spec/14_counter_engine_and_fabric_instructions.md
R271, spec/14_counter_engine_and_fabric_instructions.md R272) -/
def Obligations.CopyBetweenHandles : Prop :=
  ∀ (s : State) (c asid h : Nat) (b : Bool) (x : Cmd), x.op = 1 → x.w 1 = 2 ^ 58 → x.len < 2 ^ 40 → x.aux = 0 → x.land = 2 ^ 63 →
    x.done = 2 ^ 63 → bits x.src 55 32 = 0 → bits x.dst 55 32 = 0 →
    let ok := fun w => (handle (coreAt s c) (bits w 63 56)).valid = true ∧ (handle (coreAt s c) (bits w 63 56)).held = false ∧
      bits w 31 0 + x.len ≤ (handle (coreAt s c) (bits w 63 56)).size ∧ spGet 0 (coreAt s c).m.hheld (bits w 63 56) ≠ 3
    ok x.src → ok x.dst → (∀ g ∈ x.gens, g.1 = c → g.2.2 = (handle (coreAt s c) g.2.1).gen) →
    let bytes := hRead s c (handle (coreAt s c) (bits x.src 63 56)) (bits x.src 31 0) x.len
    ∃ z t, startRec s c asid x h b = .ok (z, t) ∧ z = { x with pieces := z.pieces } ∧ z.pieces.flatMap Piece.data = bytes ∧
      (∀ q ∈ z.pieces, q.core = c ∧ q.isVa = false ∧ q.h = bits x.dst 63 56 ∧ q.at_ % 512 + q.data.length ≤ 512 ∧ q.tag = none) ∧
      (∀ n q, z.pieces[n]? = some q → q.at_ = bits x.dst 31 0 + ((z.pieces.take n).flatMap Piece.data).length)

/-- A piece for a handle of its own core asks for the banks of its lines and retries where it loses them; granted, it writes its
bytes, then adds their number to a landing counter in the file (overflow gives code 0A) and to the count. A cpy, gat, sct, rst,
rld, rred or frec.rd with no piece left and no reply awaited writes STATUS, code in bits 63:56 and count below, in its record,
and then its token is done and the command gone (DONE absent). An rflush, once no rst before it is left, flushes the combining
buffer and takes note of the writes unacknowledged, and gives up its token when they and the drain rows issued before it are
placed; a counter command on its own file when applied: an overflow is a deferred trap, ctpoll writes its predicate. That rflush
awaits every write unacknowledged at its start is the reading of log 45. (derived:
spec/14_counter_engine_and_fabric_instructions.md R264, spec/14_counter_engine_and_fabric_instructions.md R265,
spec/14_counter_engine_and_fabric_instructions.md R268, spec/14_counter_engine_and_fabric_instructions.md R269,
spec/14_counter_engine_and_fabric_instructions.md R279, spec/06_counters_versions_and_order.md R106) -/
def Obligations.EngineCommandsComplete : Prop :=
  ∀ (s : State) (c i n : Nat) (x : Cmd), cmdAt s c i = some x → x.started = true → x.parked = none →
    let k := coreAt s c
    let e := handle k (bits x.recw.toNat 63 56)
    let done := fun (t : State) => modCore t c fun k => { k with
      r := { k.r with tok := k.r.tok &&& ~~~(1#16 <<< x.tok) }, f := { k.f with cmds := k.f.cmds.filter fun y => y.id != x.id } }
    let trapLater := fun (t : State) => modCore t c fun k => { k with f := { k.f with deferred := k.f.deferred ++ [(0x0F, x.tok)] } }
    let idle := x.pieces = [] ∧ x.waits = []
    let reg := bits x.x.toNat 8 0
    (∀ q, x.pieces = [q] → q.tag = none → q.isVa = false → q.core = c → q.hub ≠ 1 → rplMode s = 0 → (x.op = 0x07 → x.drop ≠ 0) →
      let banks := bankTry s c x.requester (pieceLines s q)
      (banks.1 = false → exec (.engineCommandComplete c i n) s = .next banks.2) ∧ (banks.1 = true →
      x.op ∉ [0x04, 0x0B, 0x10] → x.code ≠ 6 →
      let g := handle k q.h
      let s1 := modCmd banks.2 c x.id fun y => { y with pieces := y.pieces.eraseIdx 0 }
      let s2 := modCore (hWrite s1 c g q.at_ q.data) c id
      let add := addOrPoison (ctrRead s2 (.file c (bits x.land 8 0))) q.data.length
      g.valid = true → g.gen = q.gen → g.held = false → q.at_ + q.data.length ≤ g.size → spGet 0 k.m.hheld q.h ≠ 3 →
      (bits x.land 63 62 = 2 → exec (.engineCommandComplete c i n) s =
        .next (modCmd s2 c x.id fun y => { y with count := y.count + q.data.length })) ∧
      (bits x.land 63 62 = 0 → exec (.engineCommandComplete c i n) s = .next (modCmd (ctrWrite s2 add.1 (.file c (bits x.land 8 0))) c x.id fun y =>
        { y with code := if add.2 = true then 0x0A else y.code, count := y.count + q.data.length })))) ∧
    (idle → x.op ∈ [0x01, 0x02, 0x03, 0x05, 0x06, 0x07, 0x10] → bits x.done 63 62 = 2 → e.valid = true → e.gen = x.recGen →
      (x.op = 0x02 ∨ x.op = 0x03 → (x.code ≠ 0 ∧ x.code ≠ 0x0A) ∨ bits x.len 63 40 ≤ x.prog.getD 0 0) →
      exec (.engineCommandComplete c i n) s =
        .next (done (hWrite s c e (bits x.recw.toNat 31 0) (toBytes (x.code * 2 ^ 56 + x.count % 2 ^ 48) 8)))) ∧
    (idle → x.op = 0x08 → x.prog.getD 0 0 = 0 →
      let t := flushComb s c fun _ => true
      ((∃ y, y ∈ k.f.cmds ∧ y.op = 5 ∧ y.seq < x.seq) → exec (.engineCommandComplete c i n) s = .next s) ∧
      ((∀ y ∈ k.f.cmds, y.op = 5 → x.seq ≤ y.seq) → exec (.engineCommandComplete c i n) s = .next (modCmd t c x.id fun y => { y with
        prog := 1 :: ((coreAt t c).f.unacked.filter fun u => match u.eng with | none => true | some t => x.cons.contains t).map Unacked.tag }))) ∧
    (idle → x.op = 0x08 → x.prog.getD 0 0 = 1 →
      ((∀ r ∈ k.f.drainq, x.seq ≤ r.op) → (∀ o ∈ k.f.xops, o.op = 11 → x.seq ≤ o.seq) → (∀ u ∈ k.f.unacked, u.tag ∈ x.prog.drop 1 → u.acked = true) →
        exec (.engineCommandComplete c i n) s = .next (done s)) ∧
      ((∃ u, u ∈ k.f.unacked ∧ u.tag ∈ x.prog.drop 1 ∧ u.acked = false) → exec (.engineCommandComplete c i n) s = .next s)) ∧
    (idle → bits x.x.toNat 63 62 = 0 → rplMode s = 0 →
      (x.op = 0x0F → exec (.engineCommandComplete c i n) s =
        .next (done (modCore s c fun k' => setP k' x.pd (ctrReached (ctGet k reg) (x.y.toNat % 2 ^ 63))))) ∧
      ((∀ u ∈ k.f.unacked, u.tag ∈ x.prog → u.acked = true ∨ u.lost = true) →
        (x.op = 0x0D → exec (.engineCommandComplete c i n) s = .next (done (if (ctrAdd (ctGet k reg) x.y.toNat).2 = true then trapLater s
          else ctrWrite s (ctrAdd (ctGet k reg) x.y.toNat).1 (.file c reg)))) ∧
        (x.op = 0x0E → exec (.engineCommandComplete c i n) s = .next (done (if (ctrRaise (ctGet k reg) x.y.toNat).2 = true then trapLater s
          else ctrWrite s (ctrRaise (ctGet k reg) x.y.toNat).1 (.file c reg))))))

/-- A coll in direct mode sends transfer k: source, destination and peer offset are sums of iteration number times stride, the peer
plus the biases modulo NPEER indexes the peer table, and the bytes go to that window line by line; with its transfers all made
nothing changes, and in channel mode with CRED short of k + 1 - DEPTH it waits for the counter, sending nothing. A disp whose
claim returned a value below the capacity sends header and row at offset + value times the slot size through the window of the
expert, counts the row under its rank and goes on to the next token; a value at or above the capacity sends nothing and the next
rank is tried. An rred whose back-off is over sends its contribution again under the same tag with the next back-off doubled, at
most 64, or ends with the status of a failed check of its source; one whose local time has passed with no reply keeps code 0C
and awaits nothing; before those times neither event changes anything. A running core that waits for nothing, between bundles,
takes the first of its deferred traps with DETAIL its token, ASYNC set, at its next bundle; a core held takes none. (derived:
spec/14_counter_engine_and_fabric_instructions.md R280, spec/14_counter_engine_and_fabric_instructions.md R281,
spec/14_counter_engine_and_fabric_instructions.md R282, spec/14_counter_engine_and_fabric_instructions.md R283,
spec/14_counter_engine_and_fabric_instructions.md R265, spec/14_counter_engine_and_fabric_instructions.md R277,
spec/21_oceth_link_and_the_hub.md R386) -/
def Obligations.WalkerDispatchAndTimers : Prop :=
  (
  ∀ (s : State) (c i : Nat) (x : Cmd), cmdAt s c i = some x → x.started = true → x.parked = none → x.code = 0 → x.prog ≠ [] →
    (coreAt s c).q.stopped = false → (coreAt s c).halted = false →
    let asid := asidOf (coreAt s c)
    let good := fun w span => winLive w = true ∧ winTgt w = 1 ∧ winKey w ≠ 0 ∧ hasRight (winRights w) rW = true ∧ (winSize w = 0 ∨ span ≤ winSize w)
    let landing := if bits x.land 63 62 = 0 then some (BitVec.ofNat 64 x.land) else none
    let send := fun (t : State) w (dst : Nat) (b : List Byte) => sendLines t c x.tok w dst landing ((cutLines 128 (b.length + 1) (winBase w + dst) b).map
      fun e => (e.1 - (winBase w + dst), e.2, e.2.length))
    let n := x.prog.getD 0 0
    (x.op = 0x09 →
      let it := (collIter n (collBounds x)).zipIdx
      let sum := fun (off w : Nat) => (it.map fun e => sextN (8 * w) (leNat (slice (collLevel x e.2) off w)) * (e.1 : Int)).sum
      let peer := ((sum 24 2 + ((upTo (bits x.arg 31 29)).map fun l => sextN 16 (leNat (slice (collLevel x l) 26 2))).sum) % (bits x.len 63 48 : Int)).toNat
      let chunk := leNat (slice (collLevel x (bits x.arg 31 29 - 1)) 0 4)
      let dst := (x.dst : Int) + sum 16 8
      (collTotal x ≤ n → exec (.collTransfer c i) s = .next s) ∧
      (n < collTotal x → bit x.arg 28 = true → collDepth x < n + 1 →
        ctrReached (ctGet (coreAt s c) (bits x.arg 21 13)) (n + 1 - collDepth x) = false → exec (.collTransfer c i) s = .next (engWait s c x)) ∧
      (∀ pe b t u, n < collTotal x → bit x.arg 28 = false → endRead s x c asid 0 x.aux (2 * peer) 2 = .ok (pe, t) → leNat pe < 4096 → 0 ≤ dst →
        good (winWords t asid (leNat pe)) (dst.toNat + chunk) →
        endRead t x c asid x.sk ((((x.src : Int) + sum 8 8) % 2 ^ 64).toNat) 0 chunk = .ok (b, u) → b.length = chunk →
        exec (.collTransfer c i) s = .next (modCmd (send u (winWords t asid (leNat pe)) dst.toNat b) c x.id fun y =>
          { y with
            prog := [n + 1], count := y.count + 1, reg := false, poll := 0, ivl := 0 }))) ∧
    (x.op = 0x0A →
      let shape := x.w 4
      let r := x.prog.getD 1 0
      let v := x.prog.getD 3 0
      let rowb := bits shape 63 44
      let fuel := (bits shape 43 24 + 1) * (bits shape 7 4 + 1)
      (bits shape 43 24 ≤ n ∨ x.prog.getD 2 0 = 1 → exec (.dispClaim c i) s = .next s) ∧
      (n < bits shape 43 24 → x.prog.getD 2 0 = 0 → exec (.dispClaim c i) s = .next (dispNext fuel s c x)) ∧
      (∀ ch t wn cap off cl, n < bits shape 43 24 → x.prog.getD 2 0 = 2 →
        endRead s x c asid 0 (x.w 3) (8 * (n * bits shape 7 4 + r)) 8 = .ok (ch, t) →
        dispExpert s c asid x (bits (leNat ch) 63 48) = .ok (wn, cap, off, cl) →
        (cap ≤ v → exec (.dispClaim c i) s = .next (dispNext fuel s c { x with prog := (x.prog.set 2 0).set 1 (r + 1) })) ∧
        (∀ row u, v < cap → good (winWords s asid wn) (off + v * (16 + rowb) + 16 + rowb) →
          endRead s x c asid x.sk (x.w 2) (n * rowb) rowb = .ok (row, u) → row.length = rowb →
          exec (.dispClaim c i) s = .next (dispNext fuel (send u (winWords s asid wn) (off + v * (16 + rowb))
              (toBytes (x.w 9 + n) 4 ++ toBytes (bits (leNat ch) 63 48) 2 ++ toBytes r 1 ++ toBytes 0 1 ++ toBytes (leNat ch) 4 ++ toBytes (pkgNo u) 2 ++
                toBytes c 2 ++ row)) c
            { x with prog := (((x.prog.set 2 0).set 0 (n + 1)).set 1 0).set (5 + r) (x.prog.getD (5 + r) 0 + 1), count := x.count + 1 }))))) ∧
  (
  (∀ (s : State) (c i : Nat) (x : Cmd), cmdAt s c i = some x → x.op = 0x07 → x.started = true → x.parked = none → x.drop = 0 →
    let back := x.prog.getD 2 0
    let u := modCmd s c x.id fun y => { y with prog := (y.prog.set 2 0).set 3 (min 64 (2 * y.prog.getD 3 1)) }
    (∀ b t, back ≠ 0 → back ≤ s.dev → endTake u x c (asidOf (coreAt u c)) x.sk x.src 0 (4 * bits x.len 13 0) rRED = .ok (b, t) →
      exec (.rredRetry c i) s = .next (redSend t c x b (x.prog.getD 0 0))) ∧
    (∀ f, back ≠ 0 → back ≤ s.dev → endTake u x c (asidOf (coreAt u c)) x.sk x.src 0 (4 * bits x.len 13 0) rRED = .stop (.bad f) →
      exec (.rredRetry c i) s = .next (modCmd (modCmd (pbcDone u c x.pieces) c x.id fun y => { y with code := f }) c x.id fun y =>
        { y with drop := 1, waits := [], pieces := [] })) ∧
    (back = 0 ∨ s.dev < back → exec (.rredRetry c i) s = .next s) ∧
    (x.prog ≠ [] → x.prog.getD 1 0 ≤ s.dev → exec (.rredTimeout c i) s = .next (modCmd (pbcDone s c x.pieces) c x.id fun y =>
      { y with code := 0x0C, drop := 1, waits := [], pieces := [] })) ∧
    (s.dev < x.prog.getD 1 0 → exec (.rredTimeout c i) s = .next s)) ∧
  (∀ (s : State) (c f d : Nat) (l : List (Nat × Nat)), (coreAt s c).f.deferred = (f, d) :: l →
    let k := coreAt s c
    (k.q.running = true → k.q.between = true → s.issue = none → exec (.deferredTrap c) s = .next (takeTrap
      (modCore s c fun k => { k with f := { k.f with deferred := l } }) c ⟨f, d, 0, 0, k.q.pc, dxAt k k.q.pc, k.q.skipMask, 1⟩ false none)) ∧
    (k.q.running = false ∨ k.q.between = false ∨ s.issue ≠ none → exec (.deferredTrap c) s = .next s)))

/-- Bytes for a destination are cut into pieces at its lines, in order, at rising places, together the bytes. A gat or sct with rows
left and nothing under way reads the index of its next row and sets out that row, from index times ARG to row number times ROWB,
for sct the other way round; a failed check keeps its status. mcast.q sets out the bytes for every core of its MASK whose handle
is good and marks the others as dropped. rst, where its destination is a window it may write that holds all bytes, puts them
into the combining buffer. rld flushes the buffered lines of its source and, of memory of this package, sets out the bytes, and
through a window asks for the line and awaits it. ccpy checks slot, ASID, handle and counter in that order, holds the handle
and, once ciphertext and tag are read, sets out the plaintext of AES-256-GCM under IV = SALT and C where the tag is right, and
else keeps TAG_FAIL with the handle to be zeroed; at its end the handle is released as CONF, or zeroed and kept. Sources are
read at the start (log 34). (derived: spec/14_counter_engine_and_fabric_instructions.md R264,
spec/14_counter_engine_and_fabric_instructions.md R272, spec/14_counter_engine_and_fabric_instructions.md R273,
spec/14_counter_engine_and_fabric_instructions.md R274, spec/14_counter_engine_and_fabric_instructions.md R275,
spec/14_counter_engine_and_fabric_instructions.md R276, spec/14_counter_engine_and_fabric_instructions.md R284,
spec/23_security_and_confidential_copy.md R407, spec/23_security_and_confidential_copy.md R408) -/
def Obligations.EnginePieces : Prop :=
  (∀ (s : State) (c w off : Nat) (b : List Byte) (tag : Option Nat), ∀ e ∈ [(0, 512, bits w 31 0 + off), (1, 128, w + off)],
    let l := piecesOf s c e.1 w off b tag
    l.flatMap Piece.data = b ∧ (∀ q ∈ l, q.core = c ∧ q.isVa = (e.1 == 1) ∧ q.tag = tag ∧ q.at_ % e.2.1 + q.data.length ≤ e.2.1 ∧
      (e.1 = 0 → q.h = bits w 63 56 ∧ q.gen = (handle (coreAt s c) (bits w 63 56)).gen)) ∧
    (∀ n q, l[n]? = some q → q.at_ = e.2.2 + ((l.take n).flatMap Piece.data).length)) ∧
  (∀ (s : State) (c i n : Nat) (x : Cmd), cmdAt s c i = some x → x.started = true → x.parked = none → x.op = 2 ∨ x.op = 3 → x.pieces = [] → x.waits = [] →
      x.code = 0 ∨ x.code = 0x0A → x.prog.getD 0 0 < bits x.len 63 40 →
    let asid := asidOf (coreAt s c)
    let j := x.prog.getD 0 0
    let rowb := bits x.len 39 20
    let idx := endRead s x c asid 0 x.aux (4 * j) 4
    (∀ f, idx = .stop (.bad f) → exec (.engineCommandComplete c i n) s = .next (modCmd s c x.id fun y => { y with code := f })) ∧
    (∀ k t, idx = .ok (k, t) → ∀ e ∈ [(2, leNat k * x.arg, j * rowb), (3, j * rowb, leNat k * x.arg)], x.op = e.1 →
      ∀ b u, endRead t x c asid x.sk x.src e.2.1 rowb = .ok (b, u) → endCheck u x c asid x.dk x.dst e.2.2 rowb = .ok () →
        let l := piecesOf u c x.dk x.dst e.2.2 b none
        exec (.engineCommandComplete c i n) s = .next (modCmd (pbcPieces u c l) c x.id fun _ => { x with pieces := l, prog := [j + 1] }))) ∧
  (∀ (s : State) (c asid h n : Nat) (e : Bool) (x : Cmd), x.drop = 0 → x.done = 2 ^ 63 → n < 2 ^ 40 → x.len = n →
    let ctl := fun (op sk dk mask : Nat) => x.op = op ∧ x.w 1 = op * 2 ^ 58 + sk * 2 ^ 57 + dk * 2 ^ 56 + mask * 2 ^ 39
    (∀ mask b t, ctl 4 0 0 mask → 0 < mask → mask < 16 → x.land < 511 → x.aux = 0 → endRead s x c asid 0 x.src 0 n = .ok (b, t) →
      let at_ := fun (i : Nat) => engWord s x (c / 4 * 4 + i) asid x.dst 0 n
      (∀ i, i < 4 → bit mask i = true → at_ i ≠ .stop (.bad 4)) →
      ∃ z u, startRec s c asid x h e = .ok (z, u) ∧ z.count = n ∧
        (∀ i, i < 4 → (bit z.drop i = true ↔ bit mask i = true ∧ ∀ en, at_ i ≠ .ok en)) ∧
        ∀ i, i < 4 → z.pieces.filter (fun q => q.core == c / 4 * 4 + i) =
          if bit mask i = true ∧ bit z.drop i = false then piecesOf s (c / 4 * 4 + i) 0 x.dst 0 b none else []) ∧
    (∀ sk w wn o sp b t, sk < 2 → ctl 5 sk 1 0 → x.land = 2 ^ 63 → x.aux = 0 → xlat s c asid x.dst = .win wn w o sp → winTgt w ≠ 2 →
      hasRight (winRights w) rW = true → n ≤ sp → endRead s x c asid sk x.src 0 n = .ok (b, t) →
      startRec s c asid x h e = .ok ({ x with count := n }, combStore t c wn w x.dst b none)) ∧
    (∀ dk r, dk < 2 → ctl 6 1 dk 0 → x.land = 2 ^ 63 → x.aux = 0 → xsplit s c asid (n + 1) x.src 0 n = [(x.src, 0, n, r)] →
      endCheck s x c asid dk x.dst 0 n = .ok () →
      let t := flushComb s c fun y => n != 0 && x.src / 128 ≤ y.line && y.line ≤ (x.src + n - 1) / 128
      (∀ pa kd rt sp y z b u, r = .loc pa kd rt sp y z → kd ≠ kVERSIONED → kd ≠ kCOUNTER → hasRight rt rR = true →
        engRead t c asid x.src [(pa, n)] = .ok (b, u) →
        let l := piecesOf u c dk x.dst 0 b none
        startRec s c asid x h e = .ok ({ x with pieces := x.pieces ++ l }, pbcPieces u c l)) ∧
      (∀ wn w o sp, r = .win wn w o sp → winTgt w = 0 → hasRight (winRights w) rR = true → n ≤ sp → 0 < n → x.src % 128 + n ≤ 128 →
        let l := newTag t ⟨2, c, x.id, n, none⟩
        startRec s c asid x h e = .ok ({ x with pieces := x.pieces ++ piecesOf l.2 c dk x.dst 0 (List.replicate n 0) (some l.1) },
          coreSend l.2 c (winRequest l.2 w x.src o 0x02 (n - 1) n l.1 [])))) ∧
    (∀ ix, ix < 1024 → ctl 0x0B 1 0 0 → x.land = 2 ^ 63 → x.w 8 = ix * 2 ^ 48 → 1 ≤ n →
      n ≤ (handle (coreAt s c) (bits x.dst 63 56)).size →
      let no := dieOf c * 1024 + ix
      let hn := bits x.dst 63 56
      (spFind s.sec.slots no = none → startRec s c asid x h e = .stop (.bad 0x01)) ∧
      (∀ k, spFind s.sec.slots no = some k →
        (k.valid = false → startRec s c asid x h e = .stop (.bad 0x01)) ∧
        (k.valid = true → k.asid ≠ asid → startRec s c asid x h e = .stop (.bad 0x04)) ∧
        (∀ f, k.valid = true → k.asid = asid → engWord s x c asid x.dst 0 n = .stop f → startRec s c asid x h e = .stop f) ∧
        (∀ en, k.valid = true → k.asid = asid → engWord s x c asid x.dst 0 n = .ok en → x.aux ≤ k.lastCtr → startRec s c asid x h e = .stop (.bad 0x09)) ∧
        (∀ en b t, k.valid = true → k.asid = asid → engWord s x c asid x.dst 0 n = .ok en → k.lastCtr < x.aux →
          endRead (setHeld s c hn 1) x c asid 1 x.src 0 (n + 16) = .ok (b, t) →
          let ct := (b.take n).map BitVec.toNat
          let iv := beBytes k.salt.toNat 4 ++ beBytes x.aux 8
          let keys := aesKeys (beBytes k.key.toNat 32)
          (gcmTag keys iv ct ≠ (b.drop n).map BitVec.toNat → startRec s c asid x h e = .ok ({ x with code := 0x08, prog := [no, x.aux, 1] }, t)) ∧
          (gcmTag keys iv ct = (b.drop n).map BitVec.toNat → startRec s c asid x h e = .ok ({ x with
            prog := [no, x.aux, 0]
            pieces := [⟨c, false, hn, (handle (coreAt s c) hn).gen, bits x.dst 31 0, (gcmText keys iv ct).map (BitVec.ofNat 8), none, 0⟩] }, t)))))) ∧
  (∀ (s : State) (c i n : Nat) (x : Cmd), cmdAt s c i = some x → x.started = true → x.parked = none → x.op = 0x0B → x.pieces = [] → x.waits = [] →
    let hn := bits x.dst 63 56
    let e := handle (coreAt s c) hn
    spGet 0 (coreAt s c).m.hheld hn = 1 →
    (x.code = 0 → x.prog.getD 2 0 ≠ 1 → exec (.engineCommandComplete c i n) s = .next (finishCmd (setHeld s c hn 3) c x)) ∧
    (x.code ≠ 0 → x.prog.getD 2 0 = 1 → e.valid = true → exec (.engineCommandComplete c i n) s =
      .next (finishCmd (setHeld (hWrite s c e 0 (List.replicate e.size 0)) c hn 2) c { x with count := 0 })))

/-- A command of the PF, outside recovery mode, with none being carried out (one written while another is carried out is dropped and
sets LOST and QUEUE of HLTH_SUM): one that names a locked address space, CTX_DESTROY and KILL apart, moves its TDI to ERROR and
has RESULT 2 (logs 13, 33); CTX_CREATE refuses bad operands with RESULT 1 and a context in use with 2, else makes the context
valid and empty with its counters and loss counts zero; CTX_DESTROY and Q_BIND likewise, a queue becoming ACTIVE with nothing
read; Q_TEARDOWN DRAIN and FREEZE are refused out of their states, DRAIN ends the head record and what the ring holds with
status 6, FREEZE asks every running gang to stop, KILL reaches every gang; Q_RESTORE makes a FROZEN queue ACTIVE; PREEMPT asks a
placed gang to stop; RESUME lets a saved one be placed again, or completes it where its last members retire. RESULT goes to the
status register, with the event of the completion, which Q_TEARDOWN and PREEMPT accepted have later (log 35). Where the counters
of a context stand and what the commands do in states that no rule names are the readings of logs 24 and 51. (derived:
spec/19_queues_scheduler_and_contexts.md R330, spec/19_queues_scheduler_and_contexts.md R332,
spec/19_queues_scheduler_and_contexts.md R334, spec/19_queues_scheduler_and_contexts.md R349,
spec/23_security_and_confidential_copy.md R403) -/
def Obligations.SchedulerCommands : Prop :=
  ∀ (s : State) (n : Nat), s.sec.recovery = false →
    let set := fun (t : State) (r : Nat) => barWr t 0x00010020 ((barRd t 0x00010020 &&& ~~~(0xFF#64 <<< 48)) ||| (BitVec.ofNat 64 r <<< 48))
    let done := fun (op asid r : Nat) (t : State) => post (set t r) (ownerOf t asid) 3 [0x00010020, op, n, r]
    let taken := fun (t : State) => barWr t 0x00010020 (barRd t 0x00010020 &&& ~~~(0xFF#64 <<< 48))
    let tornBy := fun (t : State) => taken (modQ t n fun x => { x with tsts := 0x00010020 })
    let locked := fun asid => s.sec.locked.contains asid = true
    let part := ctxPart s n
    let inUse := (∃ g, g ∈ s.gangs ∧ g.2.ctx = n) ∨ ∃ q, q ∈ s.qs ∧ q.2.bound = true ∧ qAsid s q.1 = ctxAsid s n ∧ qPart s q.1 = part ∧ qState s q.1 ≠ 3
    let bound := (qsOf s n).bound = true
    (∀ e ∈ [(Instr.ctxCreate n, 1, 0), (.ctxDestroy n, 2, 0), (.qBind n, 3, 0), (.qTeardownDrain n, 4, 0), (.qTeardownKill n, 4, 1),
        (.qTeardownFreeze n, 4, 2), (.qRestore n, 5, 0), (.preempt n, 6, 0), (.resume n, 7, 0)],
      ∀ x, s.sched = some x → x ≠ (e.2.1, e.2.2, n) → exec e.1 s = .next (setHealth (barWr s 0x00010020 (barRd s 0x00010020 ||| (1#64 <<< 62))) 0)) ∧
    (s.sched = none →
    (locked (ctxAsid s n) → exec (.ctxCreate n) s = .next (done 1 (ctxAsid s n) 2 (tdiError s (ownerOf s (ctxAsid s n))))) ∧
    (locked (qAsid s n) → ∀ e ∈ [(Instr.qBind n, 3), (.qTeardownDrain n, 4), (.qTeardownFreeze n, 4), (.qRestore n, 5)],
      exec e.1 s = .next (done e.2 (qAsid s n) 2 (tdiError s (ownerOf s (qAsid s n))))) ∧
    (¬locked (ctxAsid s n) →
      (4096 ≤ n ∨ partValid s part = false ∨ asidLive s (ctxAsid s n) = false ∨ ctxSave s n % 2 ^ 22 ≠ 0 →
        exec (.ctxCreate n) s = .next (done 1 (ctxAsid s n) 1 s)) ∧
      (n < 4096 → partValid s part = true → asidLive s (ctxAsid s n) = true → ctxSave s n % 2 ^ 22 = 0 →
        (ctxValid s n = true → exec (.ctxCreate n) s = .next (done 1 (ctxAsid s n) 2 s)) ∧
        (ctxValid s n = false → exec (.ctxCreate n) s = .next (done 1 (ctxAsid s n) 0
          (ctxSetState { s with mem := memClear s.mem (ctxWide s n) (4096 * (partCores s part).length)
                                loss := s.loss.filter fun e => e.1 / 192 != n
                                ranOn := s.ranOn.filter fun k => k / 192 != n } n true 0))))) ∧
    (4096 ≤ n → exec (.ctxDestroy n) s = .next (done 2 (ctxAsid s n) 1 s)) ∧
    (n < 4096 → ctxValid s n = false ∨ inUse → exec (.ctxDestroy n) s = .next (done 2 (ctxAsid s n) 2 s)) ∧
    (n < 4096 → ctxValid s n = true → ¬inUse → exec (.ctxDestroy n) s = .next (done 2 (ctxAsid s n) 0 (ctxSetState s n false 0))) ∧
    (¬locked (qAsid s n) →
      let bad := qValid s n = false ∨ qRlog s n < 4 ∨ 20 < qRlog s n ∨ partValid s (qPart s n) = false ∨ asidLive s (qAsid s n) = false ∨
          ctxOf s (qAsid s n) (qPart s n) = none
      (bad → exec (.qBind n) s = .next (done 3 (qAsid s n) 1 s)) ∧
      (¬bad → bound → qState s n ≠ 3 → exec (.qBind n) s = .next (done 3 (qAsid s n) 2 s)) ∧
      (¬bad → ¬bound ∨ qState s n = 3 → exec (.qBind n) s =
        .next (done 3 (qAsid s n) 0 (qSetState (modQ s n fun _ => { QState.reset with bound := true }) n 0)))) ∧
    (¬bound → exec (.qTeardownKill n) s = .next (done 4 (qAsid s n) 1 s)) ∧
    (bound → qState s n = 3 → exec (.qTeardownKill n) s = .next (done 4 (qAsid s n) 2 s)) ∧
    (¬locked (qAsid s n) → ∀ e ∈ [(Instr.qTeardownDrain n, 0), (.qTeardownFreeze n, 2)],
      (¬bound → exec e.1 s = .next (done 4 (qAsid s n) 1 s)) ∧
      (bound → qState s n = 3 ∨ (e.2 = 0 ∧ qState s n = 1) ∨ (e.2 = 2 ∧ qState s n ≠ 0) → exec e.1 s = .next (done 4 (qAsid s n) 2 s))) ∧
    (bound → qState s n = 0 →
      let ended := endHead (modQ (qSetState s n 1) n fun x => { x with teardown := some 0 }) n 6 0
      let killed := endHead (modQ (qSetState s n 1) n fun x => { x with teardown := some 1 }) n 6 0
      let held := modQ (dropReq (modQ (qSetState s n 2) n fun x => { x with teardown := some 2 }) n) n fun x =>
        { x with head := x.head.map fun r => { r with asked := false, granted := false } }
      let cut := fun (t : State) => if qHost t n = true then t else discardRing (qTail t n - qTake t n) t n
      (¬locked (qAsid s n) → exec (.qTeardownDrain n) s = .next (tornBy (cut ended))) ∧
      exec (.qTeardownKill n) s = .next (tornBy ((gangsOf (cut killed) n).foldl (fun t g => killGang t g.1 g.2) (cut killed))) ∧
      (¬locked (qAsid s n) → exec (.qTeardownFreeze n) s = .next (tornBy ((gangsOf held n).foldl (fun t g =>
        if g.2.state = 0 then modGang (askStop t g.2.cores 1 none) g.1 fun g => { g with state := 1 } else t) held)))) ∧
    (¬locked (qAsid s n) →
      (¬bound → exec (.qRestore n) s = .next (done 5 (qAsid s n) 1 s)) ∧
      (bound → qState s n ≠ 2 ∨ (qsOf s n).teardown ≠ none → exec (.qRestore n) s = .next (done 5 (qAsid s n) 2 s)) ∧
      (bound → qState s n = 2 → (qsOf s n).teardown = none → exec (.qRestore n) s = .next (done 5 (qAsid s n) 0 (qSetState s n 0)))) ∧
    (∀ g, spFind s.gangs n = some g →
      (locked g.asid → exec (.preempt n) s = .next (done 6 g.asid 2 (tdiError s (ownerOf s g.asid))) ∧
        exec (.resume n) s = .next (done 7 g.asid 2 (tdiError s (ownerOf s g.asid)))) ∧
      (¬locked g.asid →
        let kept := retireHeld g.saved
        (2 ≤ g.state → exec (.preempt n) s = .next (done 6 g.asid 2 s)) ∧
        (g.state < 2 → exec (.preempt n) s = .next (taken (modGang (modGang (askStop s g.cores 1 none) n fun g =>
          { g with state := 1, trap := true }) n fun g => { g with psts := 0x00010020 }))) ∧
        (g.state ≠ 3 → exec (.resume n) s = .next (done 7 g.asid 2 s)) ∧
        (g.state = 3 → kept = [] ∨ (∃ k ∈ kept, k.q.retired = false) → exec (.resume n) s =
          .next (done 7 g.asid 0 { s with gangs := spSet s.gangs n { g with state := 2, trap := false, resume := true, saved := kept } })) ∧
        (g.state = 3 → kept ≠ [] → (∀ k ∈ kept, k.q.retired = true) → exec (.resume n) s =
          .next (done 7 g.asid 0 (dropGang (finishRec s g.queue g.idx 0 0 g.bytes) n))))) ∧
    (spFind s.gangs n = none → exec (.preempt n) s = .next (done 6 0 1 s) ∧ exec (.resume n) s = .next (done 7 0 1 s)))

/-- Outside recovery mode a doorbell write of the owning function raises TAIL of a bound ACTIVE queue not fed by tasks, from TAIL to
HEAD plus the ring, and any other value is counted as dropped. An active queue without a slot gets one while fewer than 64 are
held, and else takes the slot of the queue that R341 names, if any. RECORD_READ, once firmware serves queues, advances TAKE and
either refuses the record with status 3 and its reason, discards it with 6 in a queue that drains, or makes it the head record.
Dependences poisoned end the record with 4, refused ones with 3 reason 4; all met, its image and shape are checked, a gang of no
members is complete at once, and else the record is ready. (derived: spec/19_queues_scheduler_and_contexts.md R328,
spec/19_queues_scheduler_and_contexts.md R335, spec/19_queues_scheduler_and_contexts.md R337,
spec/19_queues_scheduler_and_contexts.md R341, spec/19_queues_scheduler_and_contexts.md R344,
spec/19_queues_scheduler_and_contexts.md R349, spec/25_derailleur_and_telemetry.md R437) -/
def Obligations.DoorbellsSlotsAndRecords : Prop :=
  ∀ (s : State) (f q v h : Nat),
    let x := qsOf s q
    let t := qTake s q
    let b := if qHost s q = true then toBytes h 64 else ringRead s q t
    let taken := modTime (qSet s q 4 (t + 1)) fun t => { t with served := true }
    let fits := x.bound = true ∧ qDevfed s q = false ∧ qState s q = 0 ∧ qTail s q ≤ v ∧ v ≤ qHead s q + 2 ^ qRlog s q
    (s.sec.recovery = false → q < 65536 → ownerOf s (qAsid s q) = f → fits → exec (.doorbellWrite f q v) s = .next (qSet s q 3 v)) ∧
    (s.sec.recovery = false → q < 65536 → ownerOf s (qAsid s q) = f → ¬fits → exec (.doorbellWrite f q v) s = .next (qDrop s q)) ∧
    (s.sec.recovery = true ∨ ownerOf s (qAsid s q) ≠ f → exec (.doorbellWrite f q v) s = .next s) ∧
    (qActive s q = true → x.slot = none → (qSlotted s).length < 64 →
      exec (.queueSlotRequest q) s = .next (modQ s q fun x => { x with slot := some s.dev })) ∧
    (qActive s q = true → x.slot = none → 64 ≤ (qSlotted s).length →
      (∀ w, qVictim s q = some w → exec (.queueSlotRequest q) s = .next (modQ (modQ s w fun x =>
        { x with slot := none, head := x.head.map fun r => { r with reg := [], ivl := 0 } }) q fun x => { x with slot := some s.dev })) ∧
      (qVictim s q = none → exec (.queueSlotRequest q) s = .next s)) ∧
    (qActive s q = false ∨ x.slot ≠ none → exec (.queueSlotRequest q) s = .next s) ∧
    (x.bound = true → t < qTail s q → x.head = none → servesQueues s = true → (qHost s q = true → streamOk s (ownerOf s (qAsid s q)) = true) →
      (qState s q = 1 → exec (.recordRead q h) s = .next (finishRec taken q t 6 0 b)) ∧
      (qState s q = 0 → x.slot ≠ none → ∀ r, recBad taken q b = some r → exec (.recordRead q h) s = .next (finishRec taken q t 3 r b)) ∧
      (qState s q = 0 → x.slot ≠ none → recBad taken q b = none → exec (.recordRead q h) s =
        .next (modQ taken q fun x => { x with head := some ⟨t, b, [], [], 0, 0, false, false, false⟩, unmet := some taken.dev }))) ∧
    (x.bound = false ∨ qTail s q ≤ t ∨ x.head ≠ none ∨ 2 ≤ qState s q ∨ servesQueues s = false → exec (.recordRead q h) s = .next s) ∧
    (∀ r, x.head = some r → r.met = false → qState s q = 0 → x.slot ≠ none → servesQueues s = true → rplMode s = 0 →
      let st := (recDeps r.bytes).map fun d => (depState s q r d).1
      (2 ∈ st → exec (.dependencesMet q) s = .next (endHead s q 4 0)) ∧
      (2 ∉ st → 3 ∈ st → exec (.dependencesMet q) s = .next (endHead s q 3 4)) ∧
      ((∀ k ∈ st, k = 0) →
        (∀ c e, recShape s q r.bytes = .inl (c, e) → exec (.dependencesMet q) s = .next (endHead s q c e)) ∧
        (∀ i ls, recShape s q r.bytes = .inr (i, ls) → gangSize ls = 0 → exec (.dependencesMet q) s = .next (endHead s q 0 0)) ∧
        (∀ i ls, recShape s q r.bytes = .inr (i, ls) → gangSize ls ≠ 0 → exec (.dependencesMet q) s =
          .next (modQ s q fun x => { x with head := some { r with met := true, reg := [] }, unmet := none })))) ∧
    (x.head = none ∨ servesQueues s = false → exec (.dependencesMet q) s = .next s)

/-- The head record considered next, ready, is placed on the cores its shape finds free, at once where it is pinned or the governor
is off, else when its ramp slots are granted; where no cores are found, or gangs of another context stand in the way of a
request, pre-emptions are asked for; a record whose image or shape fails ends with its status. A quantum passed ends the turn of
its queue and passes it to the next queue of the level with a ready record; with none the turn is kept as passed; before that
nothing changes. A running member asked to be pre-empted that reaches no landing point for 200 µs, or a filler member for 1 µs,
is stopped where it is, with cause 1D and the flag of a forced stop. Which of the gangs and records of a queue comes first, and
which free cores a request names, are the choices of logs 40 and 96. (derived: spec/19_queues_scheduler_and_contexts.md R342,
spec/19_queues_scheduler_and_contexts.md R344, spec/19_queues_scheduler_and_contexts.md R347,
spec/19_queues_scheduler_and_contexts.md R446, spec/02_tile_tasks_and_supersteps.md R45, spec/25_derailleur_and_telemetry.md
R429, spec/25_derailleur_and_telemetry.md R433) -/
def Obligations.PlacementQuantumAndStops : Prop :=
  (∀ (s : State) (q : Nat) (pick : List Nat),
    let x := qsOf s q
    let part := qPart s q
    (x.head = none → exec (.gangPlacement q pick) s = .next s) ∧
    ∀ r, x.head = some r → r.met = true → servesQueues s = true →
      let push := fun (ctx : Nat) (ls : List Level) (t : State) => preemptFor t part ctx q (qPrio t q)
        (if turnBegins t q (readyTop t part) then some q else none) fun free => placeGang (partCores s part) free ls
      (reqOf s q = none → mayDispatch s q = false → exec (.gangPlacement q pick) s = .next s) ∧
      (reqOf s q ≠ none ∨ mayDispatch s q = true → ∀ c e, recShape s q r.bytes = .inl (c, e) → exec (.gangPlacement q pick) s = .next (endHead s q c e)) ∧
      (reqOf s q = none → mayDispatch s q = true →
        ∀ img ls ctx, recShape s q r.bytes = .inr (img, ls) → ctxOf s (qAsid s q) part = some ctx →
          let found := placeGang (partCores s part) (freeOrder s part ctx q pick) ls
          (found = none → exec (.gangPlacement q pick) s = .next (push ctx ls s)) ∧
          (∀ cores, found = some cores → (recForce r.bytes img).2 = true ∨ drlEn s = false →
            (freeGangId s ≠ none → exec (.gangPlacement q pick) s = .next (startGang s q r img ls cores none)) ∧
            (freeGangId s = none → exec (.gangPlacement q pick) s = .next s)) ∧
          (∀ cores, found = some cores → (recForce r.bytes img).2 = false → drlEn s = true →
            let t := askSlots s q (qAsid s q) cores (slotsPer s (recForce r.bytes img).1)
            ∀ rq, reqOf t q = some rq →
              (rq.lack = 0 → freeGangId t ≠ none → exec (.gangPlacement q pick) s = .next (startGang t q r img ls cores none)) ∧
              (rq.lack ≠ 0 ∨ freeGangId t = none → exec (.gangPlacement q pick) s = .next t))) ∧
      (∀ img ls ctx rq, reqOf s q = some rq → recShape s q r.bytes = .inr (img, ls) → ctxOf s (qAsid s q) part = some ctx →
        (otherBlocks s part ctx = true → exec (.gangPlacement q pick) s = .next (push ctx ls s)) ∧
        (otherBlocks s part ctx = false → rq.lack = 0 → freeGangId s ≠ none → exec (.gangPlacement q pick) s = .next (startGang s q r img ls rq.cores none)) ∧
        (otherBlocks s part ctx = false → rq.lack ≠ 0 ∨ freeGangId s = none → exec (.gangPlacement q pick) s = .next s))) ∧
  (∀ (s : State) (q : Nat),
    ((qsOf s q).turn = none ∨ (qsOf s q).turn = some 0 → exec (.quantumExpiry q) s = .next s) ∧
    ∀ t, (qsOf s q).turn = some (t + 1) →
      let due := t + nsDev (1000 * qQuantum s q)
      (s.dev < due ∨ (qsOf s q).lapsed = true → exec (.quantumExpiry q) s = .next s) ∧
      (due ≤ s.dev → (qsOf s q).lapsed = false → ∃ l : List Nat, l.Pairwise (· ≤ ·) ∧
        (∀ n, n ∈ l ↔ n ∈ readyQs s (qPart s q) ∧ qPrio s n = qPrio s q) ∧
        (∀ n, nextAfter q l = some n → exec (.quantumExpiry q) s =
          .next (modQ (modQ s q fun x => { x with turn := none }) n fun x => { x with turn := some 0 })) ∧
        (nextAfter q l = none → exec (.quantumExpiry q) s = .next (modQ s q fun x => { x with lapsed := true })))) ∧
  (∀ (s : State) (c : Nat), (coreAt s c).q.running = true →
    let k := coreAt s c
    (k.q.stopReq = 1 → k.q.stopT + nsDev 200000 ≤ s.dev → exec (.preemptForcedStop c) s = .next (stopCore s c 0x1D 0 4)) ∧
    (k.q.stopReq ≠ 1 ∨ s.dev < k.q.stopT + nsDev 200000 → exec (.preemptForcedStop c) s = .next s) ∧
    (k.q.stopReq = 4 → k.q.stopT + nsDev 1000 ≤ s.dev → exec (.fillerStopTimeout c) s = .next (stopCore s c 0x1D 0 4)) ∧
    (k.q.stopReq ≠ 4 ∨ s.dev < k.q.stopT + nsDev 1000 → exec (.fillerStopTimeout c) s = .next s))

/-- A gang whose members have all stopped, with nothing on its way and its image written (8 µs, or 2 µs and the time of its bytes),
is saved and its cores are free, with the event of the PREEMPT that asked for it; a gang that was trapped or told to stop waits
for RESUME. A saved gang considered next is placed on free cores of as many dies and runs on, or pre-emptions are asked for; an
image brought from another stepping ends its record with IMAGE_REJECT and reason 2; a gang whose images are not sealed leaves
for another package, and one that another package hands over is taken in (log 87); an image whose seal does not hold sends its
TDI to ERROR; a pinned gang whose ramp slots are refused traps in every member. With no decision log in use, a member that has
halted and finished its waits retires, its ramp slots are charged or released, and its gang is complete when it was the last;
while it waits, or where its ramp slots are refused (it traps RAMP_VIOLATION), it does not. That a pre-empted gang waits for
RESUME is the reading of log 41. (derived: spec/19_queues_scheduler_and_contexts.md R345,
spec/19_queues_scheduler_and_contexts.md R346, spec/19_queues_scheduler_and_contexts.md R348,
spec/19_queues_scheduler_and_contexts.md R351, spec/09_control_and_scalar_instructions.md R175,
spec/23_security_and_confidential_copy.md R410, spec/25_derailleur_and_telemetry.md R434) -/
def Obligations.SavingRestoringAndRetiring : Prop :=
  (∀ (s : State) (n : Nat) (g : Gang), spFind s.gangs n = some g →
    let since := (g.cores.map fun c => (coreAt s c).q.stopT).foldl max 0 + swapTime (fastPath s g).isSome g.cores.length
    let held := fun b => modGang s n fun x => { x with trap := b }
    let keep := fun b => g.aside.isSome || g.filling || (g.giving && othersWait (held b) g.part)
    let cause := fun (c : Nat) => leNat (slice (coreAt s c).q.frec 8 1)
    (g.state ≤ 1 → g.killed = false → bit (recWord g.bytes 0) 5 = false →
      (∀ c ∈ g.cores, savable s c = true ∧ (coreAt s c).halted = false) → (∃ c, c ∈ g.cores ∧ (coreAt s c).q.retired = false) → since ≤ s.dev →
      (g.trap = true →
        let saved := saveGang (held true) n { g with trap := true } (keep true)
        exec (.contextSave n) s = .next (post saved (tellOf saved g.psts g.asid) 3 [g.psts, 6, n, 0])) ∧
      (g.trap = false → g.filling = false → (∀ c ∈ g.cores, (coreAt s c).q.retired = true ∨ cause c = 0x1D ∨ cause c = 0x1E) →
        exec (.contextSave n) s = .next (saveGang (held false) n g (keep false))) ∧
      (g.trap = false → (∃ c, c ∈ g.cores ∧ (coreAt s c).q.retired = false ∧ cause c ≠ 0x1D ∧ cause c ≠ 0x1E) →
        exec (.contextSave n) s = .next (saveGang (held true) n { g with trap := true } (keep true)))) ∧
    (2 ≤ g.state ∨ (∃ c, c ∈ g.cores ∧ savable s c = false) ∨ s.dev < since → exec (.contextSave n) s = .next s) ∧
    (∀ ok pick, ok ≠ 4 → g.state ≠ 2 → exec (.contextRestore n ok pick) s = .next s) ∧
    (∀ ok pick, ok ≠ 4 → g.state = 2 → g.killed = false → g.filler = false → qState s g.queue ≤ 1 → servesQueues s = true →
      (∀ h ∈ s.gangs, h.2.aside ≠ some n) → reqOf s (65536 + n) ≠ none ∨ mayRestore s n g = true →
      let key := 65536 + n
      let place := placeKept (partCores s g.part) g.levels (diesOf g.cores)
      let found := place (freeOrder s g.part g.ctx key pick)
      let push := preemptFor s g.part g.ctx key (qPrio s g.queue) (if turnBegins s g.queue (sameLevel s g.part (qPrio s g.queue)) then some g.queue else none) place
      let need := g.cores.length * slotsPer s g.pclass
      (ok = 2 → exec (.contextRestore n ok pick) s = .next (dropGang (finishRec (dropReq s key) g.queue g.idx 2 2 g.bytes) n)) ∧
      (ok = 3 → g.isSealed = false → exec (.contextRestore n ok pick) s = .next (dropGang (dropReq s key) n)) ∧
      (ok = 1 → reqOf s key = none → found = none → exec (.contextRestore n ok pick) s = .next push) ∧
      (∀ cores, ok = 1 → reqOf s key = none → found = some cores → g.pinned = true ∨ drlEn s = false →
        (sealOk s g = false → exec (.contextRestore n ok pick) s = .next (tdiError s (ownerOf s g.asid))) ∧
        (sealOk s g = true → g.pinned = false → exec (.contextRestore n ok pick) s = .next (restoreGang s n g cores)) ∧
        (sealOk s g = true → g.pinned = true → upRefused s need = false → exec (.contextRestore n ok pick) s = .next (restoreGang (chargeUp s need) n g cores)) ∧
        (sealOk s g = true → g.pinned = true → upRefused s need = true → exec (.contextRestore n ok pick) s =
          .next (rampCount (trapAll (restoreGang s n g cores) cores 0x19 0xFFFF 0xFF) 0x20))) ∧
      (∀ rq, ok = 1 → reqOf s key = some rq →
        (otherBlocks s g.part g.ctx = true → exec (.contextRestore n ok pick) s = .next push) ∧
        (otherBlocks s g.part g.ctx = false → rq.lack ≠ 0 → exec (.contextRestore n ok pick) s = .next s) ∧
        (otherBlocks s g.part g.ctx = false → rq.lack = 0 → sealOk s g = true → g.pinned = false →
          exec (.contextRestore n ok pick) s = .next (restoreGang s n g rq.cores))))) ∧
  (∀ (s : State) (n : Nat) (pick : List Nat), exec (.contextRestore n 4 pick) s = .next (takeIn s) ∧ (s.handed = [] → takeIn s = s)) ∧
  (∀ (s : State) (c : Nat) (b : Bind) (g : Gang), (coreAt s c).bind = some b → spFind s.gangs b.gang = some g →
    let k := coreAt s c
    let t := releaseSlots (retireCore s c) c 0
    (haltDone k = false ∨ g.killed = true → exec (.tileTaskRetire c) s = .next s) ∧
    (rplMode s = 0 → haltDone k = true → g.killed = false → b.pinned = true → downRefused s (slotsPer s b.pclass) = true → exec (.tileTaskRetire c) s =
      .next (rampCount (modCore (takeTrap s c (stopInfo k 0x19 0 0) false none) c fun k => { k with q := { k.q with hold := .halt } }) 0x20)) ∧
    (rplMode s = 0 → haltDone k = true → g.killed = false → b.pinned = false → (∃ m, m ∈ g.cores ∧ m ≠ c ∧ (coreAt s m).q.retired = false) →
      (∀ m ∈ membersOf s c, m ≠ c → (coreAt s m).q.hold ≠ .sstep 4) → exec (.tileTaskRetire c) s = .next t) ∧
    (rplMode s = 0 → haltDone k = true → g.killed = false → b.pinned = false → g.cores = [c] → membersOf s c = [c] →
      exec (.tileTaskRetire c) s = .next (dropGang (freeCores (finishRec t g.queue g.idx 0 0 g.bytes) [c]) b.gang)))

/-- Outside recovery mode a write of DRL_CTL with a slope outside 10 to 2,000 sets ERR of DRL_STS and keeps the fields; else it
takes them, and EN falling frees every slot, fills both allowances and grants what waits; gangs whose requests lack nothing
start at once. An evaluation due adds one to those made and takes ENF for the steps that follow; governor off, it clears the
sums of the pinned steps; on, it warns of the pinned steps above an allowance unless ENF was set, raises both allowances by
their slopes up to their caps and then grants and releases slots, and gangs granted their last slot start. A telemetry window
that has ended writes a 64-byte record at HEAD in an enabled ring, with its number, the stamp of its end, the state of time, the
slots held and the cores in ballast, and moves HEAD on by 64. Measured powers are free values (log 22). (derived:
spec/25_derailleur_and_telemetry.md R426, spec/25_derailleur_and_telemetry.md R427, spec/25_derailleur_and_telemetry.md R429,
spec/25_derailleur_and_telemetry.md R432, spec/25_derailleur_and_telemetry.md R434, spec/25_derailleur_and_telemetry.md R438) -/
def Obligations.GovernorAndTelemetry : Prop :=
  ∀ (s : State) (v : Nat),
    let up := bits v 61 50
    let dn := bits v 49 38
    let good := 10 ≤ up ∧ up ≤ 2000 ∧ 10 ≤ dn ∧ dn ≤ 2000
    let kept := barWr s 0x00050000 (BitVec.ofNat 64 (bits v 63 30 * 2 ^ 30))
    let en := (barRd s 0x00050000).getLsbD 63 = true
    let enf := bit (barRd s 0x00050000).toNat 62
    let due := s.drl.evals < devNs s / 10000
    let cap := fun (x : Nat) => max (x : Int) 200
    let off := { s with drl := { s.drl with evals := s.drl.evals + 1, upFirst := none, dnFirst := none, enf := enf } }
    let warned := rampWarn { s with drl := { s.drl with evals := s.drl.evals + 1 } }
    let on := { warned with drl := releaseAll (grantAll { warned.drl with
      upFirst := none, dnFirst := none, enf := enf
      aup := min (warned.drl.aup + (drlUps s : Int)) (cap (drlUps s)), adn := min (warned.drl.adn + (drlDns s : Int)) (cap (drlDns s)) }) }
    (s.sec.recovery = true → exec (.drlCtlWrite v) s = .next s) ∧
    (s.sec.recovery = false →
      (¬good → exec (.drlCtlWrite v) s = .next (startGranted (barWr s 0x00050010 (barRd s 0x00050010 ||| (1#64 <<< 63))))) ∧
      (good → ¬en ∨ bit v 63 = true → exec (.drlCtlWrite v) s = .next (startGranted kept)) ∧
      (good → en → bit v 63 = false → exec (.drlCtlWrite v) s = .next (startGranted { kept with drl :=
        { s.drl with slots := [], rel := [], aup := cap up, adn := cap dn, reqs := s.drl.reqs.map fun r => { r with lack := 0 }, upFirst := none, dnFirst := none } }))) ∧
    ((∀ r ∈ s.drl.reqs, r.lack ≠ 0) → startGranted s = s) ∧
    (¬due → exec .derailleurEvaluation s = .next s) ∧
    (due → ¬en → (drlEn (startGranted off) = false → exec .derailleurEvaluation s = .next (startGranted off)) ∧
      ((∀ r ∈ s.drl.reqs, r.lack ≠ 0) → exec .derailleurEvaluation s = .next off)) ∧
    (due → en → (drlFillwait (startGranted on) = 0 → exec .derailleurEvaluation s = .next (startGranted on)) ∧
      (s.drl.reqs = [] → drlFillwait s = 0 → exec .derailleurEvaluation s = .next on)) ∧
    (s.drl.enf = true ∨ (s.drl.upFirst = none ∧ s.drl.dnFirst = none) → rampWarn s = s) ∧
    (∀ b x, s.drl.enf = false → s.drl.upFirst = some (b, x) → s.drl.dnFirst = none → rampWarn s = if b < x then rampCount s 0x18 else s) ∧
    (devNs s / 100000 ≤ s.time.tlm → exec .telemetryRecord s = .next s) ∧
    (s.time.tlm < devNs s / 100000 →
      let size := bits (barRd s 0x00050050).toNat 47 0 / 4096 * 4096
      let head := (barRd s 0x00050058).toNat
      let stamp := (s.time.tlm + 1) * 100000
      (bit (barRd s 0x00050050).toNat 63 = false ∨ size = 0 → exec .telemetryRecord s = .next { s with time := { s.time with tlm := s.time.tlm + 1 } }) ∧
      (bit (barRd s 0x00050050).toNat 63 = true → 0 < size → ∃ b : List Byte, b.length = 64 ∧ b.take 8 = toBytes (head / 64) 8 ∧
        slice b 8 6 = toBytes (stamp / 1000000000) 6 ∧ slice b 14 4 = toBytes (stamp % 1000000000) 4 ∧ slice b 18 1 = toBytes (timeState s) 1 ∧
        slice b 48 2 = toBytes (slotsHeld s) 2 ∧ slice b 50 2 = toBytes ((upTo 192).filter (inBallast s)).length 2 ∧
        exec .telemetryRecord s = .next (barWr { s with
          time := { s.time with tlm := s.time.tlm + 1 }
          fresh := s.fresh + 1
          mem := memPutBytes s.mem (bits (barRd s 0x00050048).toNat 38 12 * 4096 + head % size) b } 0x00050058 (BitVec.ofNat 64 (head + 64)))))

/-- An edge begins a second with no message heard, taking the message of the second before; an edge whose own message was not heard
counts as ignored, and the third in a row moves LOCKED to HOLDOVER. Sixteen good bytes within 500 ms of the edge are accepted,
bad ones are ignored, fewer wait. More than 1 ms between bytes, and 500 ms without a message, count as ignored. The first lock
before any queue is served steps device time to what the source gives, the moments of the time input moving with it; a later one
slews by at most 200 ppm, and both set LOCKED; the loss of a locked source sets HOLDOVER. Without a source, or an edge and its
message, nothing locks. (derived: spec/25_derailleur_and_telemetry.md R437, spec/25_derailleur_and_telemetry.md R445) -/
def Obligations.TimeDiscipline : Prop :=
  ∀ (s : State) (b : List Nat) (ns : Nat) (p : Int),
    let t := s.time
    let ignored := fun (u : State) =>
      let m := { u with time := { u.time with got := [], heard := true, ignored := u.time.ignored + 1 } }
      if 3 ≤ u.time.ignored + 1 ∧ timeState u = 1 then setTimeState m 2 else m
    let sec := fun (s : State) => { s with time := { s.time with edge := some s.dev, got := [], heard := false, tai := s.time.msg, msg := none } }
    let got := t.got ++ b.map (BitVec.ofNat 8)
    let late := t.lastByte + 1000000 * 19000000 < s.dev
    let heard := { s with time := { t with got := got, lastByte := s.dev } }
    (t.edge = none ∨ t.heard = true → exec .ppsEdge s = .next (sec s)) ∧
    (t.edge ≠ none → t.heard = false → exec .ppsEdge s = .next (sec (ignored s))) ∧
    (t.edge = none ∨ t.heard = true → exec (.todMessage b) s = .next s ∧ exec .todDeadline s = .next s) ∧
    (∀ e, t.edge = some e → t.heard = false →
      let intime := s.dev ≤ e + 500000000 * 19000000
      (t.got ≠ [] → late → exec (.todMessage b) s = .next (ignored s)) ∧
      (t.got = [] ∨ ¬late →
        (got.length < 16 → exec (.todMessage b) s = .next heard) ∧
        (16 ≤ got.length → todGood (got.take 16) = true → intime → exec (.todMessage b) s =
          .next { s with time := { t with got := [], lastByte := s.dev, heard := true, ignored := 0, msg := some (leNat (got.take 6)) } }) ∧
        (16 ≤ got.length → todGood (got.take 16) = false ∨ ¬intime → exec (.todMessage b) s = .next (ignored heard))) ∧
      (s.dev < e + 500000000 * 19000000 → exec .todDeadline s = .next s) ∧
      (e + 500000000 * 19000000 ≤ s.dev → exec .todDeadline s = .next (ignored s))) ∧
    (t.got ≠ [] → t.heard = false → late → exec .todByteGap s = .next (ignored s)) ∧
    (t.got = [] ∨ t.heard = true ∨ ¬late → exec .todByteGap s = .next s) ∧
    ((timeSrc s ≠ 1 ∧ timeSrc s ≠ 2) ∨ (timeSrc s = 2 ∧ (t.tai = none ∨ t.edge = none)) → exec (.timeLock ns p) s = .next s) ∧
    (∀ x, (timeSrc s = 1 ∧ x = ns) ∨ (timeSrc s = 2 ∧ ∃ m e, t.tai = some m ∧ t.edge = some e ∧ x = m * 1000000000 + (s.dev - e) / 19000000) →
      let move := fun (y : Nat) => x * 19000000 - (s.dev - y)
      (t.everLocked = false → t.served = false → exec (.timeLock ns p) s = .next (setTimeState { s with
        dev := x * 19000000
        drl := { s.drl with evals := x / 10000 }
        time := { t with tlm := x / 100000, edge := t.edge.map move, lastByte := move t.lastByte, everLocked := true } } 1)) ∧
      (t.everLocked = true ∨ t.served = true → exec (.timeLock ns p) s =
        .next (setTimeState { s with ppm := max (-200) (min 200 p), time := { t with everLocked := true } } 1))) ∧
    (timeState s = 1 → exec .timeSourceLoss s = .next (setTimeState s 2)) ∧
    (timeState s ≠ 1 → exec .timeSourceLoss s = .next s)

/-- DBG_CTL takes SESS, BRK and ASID, but a session for a locked ASID is refused with ERR. With a session open for the task: STOP
asks every member to stop, RESUME lets every member go on, STEP does both; else nothing changes. Without a session a read of
DBG_DATA returns 0 and a write changes nothing; in one, on a core not halted for its task, both set ERR; on a halted core a read
returns what is selected, a scalar register among others, and a write replaces it. A sample is written each period of active
cycles; a rotation moves to the next set; a write of the counter control zeroes counts and times. An arbiter that has waited
WINDOW cycles on replay parts: every core of the address space gets the 128-byte record of what was expected and seen in its
ring, nothing waits any more, and each of these cores is asked to stop unless they are to run free. Where the spec does not say
what core a record is served from, logs 28 and 63 do; what STEP and a refused session leave is log 51. (derived:
spec/24_debug_trace_and_replay.md R413, spec/24_debug_trace_and_replay.md R414, spec/24_debug_trace_and_replay.md R416,
spec/24_debug_trace_and_replay.md R418, spec/24_debug_trace_and_replay.md R419, spec/24_debug_trace_and_replay.md R421,
spec/24_debug_trace_and_replay.md R425) -/
def Obligations.DebugWindowSamplesAndCounters : Prop :=
  (∀ (s : State) (n v : Nat), n < 192 → s.sec.recovery = false →
    let refused := bit v 63 = true ∧ s.sec.locked.contains (bits v 45 32) = true
    let err := modCore s n fun c => { c with dbgErr := true }
    let k := coreAt s n
    (refused → exec (.dbgSessionWrite n v) s = .next err) ∧
    (¬refused → exec (.dbgSessionWrite n v) s = .next (barWr s (dbgOff n 0) (BitVec.ofNat 64 (bits v 63 62 * 2 ^ 62 + bits v 45 32 * 2 ^ 32)))) ∧
    (dbgOn s n = false → exec (.dbgStop n) s = .next s ∧ exec (.dbgResume n) s = .next s ∧ exec (.dbgStep n) s = .next s) ∧
    (dbgOn s n = true → exec (.dbgStop n) s = .next (askStop s (membersOf s n) 2 none) ∧
      exec (.dbgResume n) s = .next ((membersOf s n).foldl resumeMember s) ∧
      exec (.dbgStep n) s = .next (askStop ((membersOf s n).foldl resumeMember s) (membersOf ((membersOf s n).foldl resumeMember s) n) 2 none)) ∧
    ((barRd s (dbgOff n 0)).getLsbD 63 = false → exec (.dbgDataRead n) s = .next (post s 0 101 [0]) ∧ exec (.dbgDataWrite n v) s = .next s) ∧
    ((barRd s (dbgOff n 0)).getLsbD 63 = true →
      (k.halted = false ∨ dbgOn s n = false → exec (.dbgDataRead n) s = .next (post err 0 101 [0]) ∧ exec (.dbgDataWrite n v) s = .next err) ∧
      (k.halted = true → dbgOn s n = true →
        (∀ w, dbgGet s n (dbgSpace s n) (dbgIndex s n) = some w → exec (.dbgDataRead n) s = .next (post s 0 101 [w.toNat])) ∧
        (∀ t, dbgPut s n (dbgSpace s n) (dbgIndex s n) (BitVec.ofNat 64 v) = some t → exec (.dbgDataWrite n v) s = .next t) ∧
        (dbgSpace s n = 0x01 → dbgIndex s n < 64 → exec (.dbgDataRead n) s = .next (post s 0 101 [(sreg k (dbgIndex s n)).toNat]) ∧
          ∃ t, exec (.dbgDataWrite n v) s = .next t ∧ OnlyCore s t n ∧
            ∀ r, sreg (coreAt t n) r = if r = dbgIndex s n ∧ r ≠ 0 then BitVec.ofNat 64 v else sreg k r)))) ∧
  (∀ (s : State) (c v : Nat), c < 192 →
    let k := coreAt s c
    let turns := k.pmc.ctl.getLsbD 63 = true ∧ bits k.pmc.ctl.toNat 62 61 ≠ 0 ∧ k.pmc.since + pmcPeriod k ≤ s.dev
    (∀ d, samplePeriod s c = some d →
      (d ≤ k.sample → k.q.running = true → exec (.traceSample c) s =
        .next (modCore (traceWrite s c (padTo 64 (tracePos s c 3 1 ++ toBytes k.q.heldBy 1))) c fun k => { k with sample := k.sample - d })) ∧
      (k.sample < d ∨ k.q.running = false → exec (.traceSample c) s = .next s)) ∧
    (samplePeriod s c = none → exec (.traceSample c) s = .next s) ∧
    (turns → exec (.pmcRotation c) s = .next (modCore s c fun k =>
      { k with pmc := { k.pmc with set := (k.pmc.set + 1) % (bits k.pmc.ctl.toNat 62 61 + 1), since := k.pmc.since + pmcPeriod k } })) ∧
    (¬turns → exec (.pmcRotation c) s = .next s) ∧
    (s.sec.recovery = false → exec (.pmcCtlWrite c v) s = .next (modCore s c fun k => { k with pmc := { Pmc.reset with
      ctl := BitVec.ofNat 64 (bits v 63 61 * 2 ^ 61 + bits v 45 0), sel := k.pmc.sel, since := s.dev } }))) ∧
  (∀ (s : State) (arb t want seen : Nat),
    ((∀ x ∈ s.rpl.waiting, x.1 ≠ arb) → exec (.replayParting arb) s = .next s) ∧
    (s.rpl.waiting.find? (fun x => x.1 == arb) = some (arb, t, want, seen) → rplMode s = 2 → s.rpl.parted = false → s.now < t + rplWindow s →
      exec (.replayParting arb) s = .next s) ∧
    (s.rpl.waiting.find? (fun x => x.1 == arb) = some (arb, t, want, seen) → rplMode s = 2 → s.rpl.parted = false → t + rplWindow s ≤ s.now →
      let cs := coresOf s (rplAsid s)
      let served := if arb / 4096 < 2 then arb % 4096 else if arb / 4096 = 2 then arb % 4096 / 16 else cs.headD 0
      let choice := match rplEntry s arb with | some (_, k) => k | none => 0
      let r := padTo 128 (tracePos s served 4 2 ++ toBytes arb 2 ++ toBytes (spGet 0 s.rpl.seqs arb) 6 ++ toBytes want 2 ++ toBytes seen 2 ++ toBytes choice 1)
      let w := cs.foldl (fun u n => traceWrite u n r) s
      let u := { w with rpl := { w.rpl with parted := true, waiting := [] } }
      (bit (rplCtl s) 61 = true → exec (.replayParting arb) s = .next u) ∧
      (bit (rplCtl s) 61 = false → exec (.replayParting arb) s =
        .next (cs.foldl (fun u n => modCore u n fun c => { c with q := { c.q with rhalt := true } }) u))))

/-- A command written while BUSY is lost and sets LOST; one that names a locked address space, the invalidations apart, moves its
TDI to ERROR and has RESULT 2 (logs 13, 33; a region command names the ASID of its entry, and ASID 0 in its own field).
INV_ASID, INV_PAGE and INV_WINDOW take the named entries out of every translation cache, the last whatever covers the range of
the window (log 111); with nothing buffered or on its way for the address space they complete at once, with requests or drain
rows on their way BUSY is set and the command waits for them. INV_KEY finds nothing cached and waits for what was sent on past
the key. WIN_MAKE sets MADE, and for a HANDLE window HGEN, the window being dead to arrivals where the handle is invalid; the
generation of a handle of another package is what the firmwares have told each other, or any (log 30); cached entries that cover
its range go. REGION_SET makes an entry live whose two counters are counters of its address space, with its versions forgotten,
else RESULT 1, or 2 where it is live; REGION_CLEAR ends it. PARK_RESUME and PARK_DROP release the accesses parked at the page
that XLAT_ARG names. RESULT and the event follow. What counts as performed for an invalidation, and what PARK and REGION
commands act on, are the readings of logs 29 and 59. (derived: spec/20_translation_and_faults.md R352,
spec/20_translation_and_faults.md R359, spec/20_translation_and_faults.md R361, spec/20_translation_and_faults.md R364,
spec/06_counters_versions_and_order.md R119, spec/06_counters_versions_and_order.md R120) -/
def Obligations.TranslationCommands : Prop :=
  ∀ (s : State) (a n : Nat), s.sec.recovery = false →
    let va := (barRd s 0x00020028).toNat
    let done := fun (asid op t r : Nat) (u : State) => Host.Outcome.next (post (barWr u 0x00020020
      ((barRd u 0x00020020 &&& ~~~(0xFF#64 <<< 48)) ||| (BitVec.ofNat 64 r <<< 48))) (ownerOf u asid) 3 [0x00020020, op, t, r])
    let refused := fun (asid op t : Nat) => done asid op t 2 (tdiError s (ownerOf s asid))
    let busy := fun (u : State) (w : InvWait) => Host.Outcome.next { barWr u 0x00020020 (barRd s 0x00020020 ||| (1#64 <<< 63)) with invs := s.invs ++ [w] }
    let locked := fun asid => s.sec.locked.contains asid = true
    let idle := (barRd s 0x00020020).getLsbD 63 = false
    let cut := fun (sel : XEnt → Bool) => { s with
      dieTlb := s.dieTlb.map fun e => (e.1, e.2.filter fun x => !sel x)
      cores := s.cores.map fun e => (e.1, { e.2 with tlbR := e.2.tlbR.filter (fun x => !sel x), tlbP := e.2.tlbP.filter fun x => !sel x }) }
    let inv := fun (i : Instr) (op t : Nat) (sel : XEnt → Bool) =>
      (∀ c, c ∈ s.cores → c.2.f.comb = []) →
      (tagsOf (cut sel) a = [] → drainsOf s a = [] → exec i s = done a op t 0 (cut sel)) ∧
      (tagsOf (cut sel) a ≠ [] ∨ drainsOf s a ≠ [] →
        exec i s = busy (cut sel) ⟨0x00020020, a, op, t, s.dev, tagsOf (cut sel) a, drainsOf s a⟩)
    let w := winWords s a n
    let entry := bits (memNat s (atabEntry s a + 24) 8) 38 17 * 2 ^ 17 + 32 * n
    let made := if bit (w.getD 0 0) 56 = true then w.getD 0 0 else w.getD 0 0 + 2 ^ 56
    let inside := fun (w : List Nat) (x : XEnt) => x.asid == a && ((x.cls == 1 && x.n == n) || (x.lo < winBase w + winSize w && winBase w < x.hi))
    let keyAsid := bits (memNat s ((barRd s 0x00020008).toNat + 32 * n) 8) 44 31
    let answers := fun (u : State) => { u with
      dieTlb := u.dieTlb.map fun e => (e.1, e.2.filter fun x => !inside (winWords u a n) x)
      cores := u.cores.map fun e => (e.1, { e.2 with tlbR := e.2.tlbR.filter (fun x => !inside (winWords u a n) x), tlbP := e.2.tlbP.filter fun x => !inside (winWords u a n) x }) }
    let e := handle (coreAt s (winCore w)) (winHnd w)
    let mark := fun (s : State) (b : Bool) => { s with hub := { s.hub with dead := (if b then [(a, n)] else []) ++ s.hub.dead.erase (a, n) } }
    let hgen := fun (u : State) (g : Nat) (b : Bool) =>
      answers (memSetNat (memSetNat (mark u b) (entry + 16) 8 (w.getD 2 0 - bits (w.getD 2 0) 33 30 * 2 ^ 30 + g * 2 ^ 30)) entry 8 made)
    let far := fun (v : Nat) (u : State) => exec (.winMake a n) s = done a 5 n 0 (hgen u (v % 16) (decide (v < 16)))
    let r := regionWord s n
    let owner := bits r 254 241
    (¬idle → ∀ i ∈ [Instr.invAsid a, .invPage a, .invWindow a n, .invKey n, .winMake a n, .regionSet n, .regionClear n, .parkResume a, .parkDrop a],
      exec i s = .next (barWr s 0x00020020 (barRd s 0x00020020 ||| (1#64 <<< 62)))) ∧
    (idle →
      inv (.invAsid a) 1 0 (fun x => x.asid == a) ∧ inv (.invPage a) 2 0 (fun x => x.asid == a && x.cls == 2 && va / x.w.getD 1 1 == x.n) ∧
      (n < 4096 → inv (.invWindow a n) 3 n (inside w)) ∧
      (4096 ≤ n → exec (.invWindow a n) s = done a 3 n 1 s) ∧
      (2 ^ 20 ≤ n → exec (.invKey n) s = done keyAsid 4 n 1 s) ∧
      (n < 2 ^ 20 → tagsPast s n = [] → exec (.invKey n) s = done keyAsid 4 n 0 s) ∧
      (n < 2 ^ 20 → tagsPast s n ≠ [] → exec (.invKey n) s = busy s ⟨0x00020020, keyAsid, 4, n, s.dev, tagsPast s n, []⟩)) ∧
    (idle → locked a → exec (.winMake a n) s = refused a 5 n ∧ exec (.parkResume a) s = refused a 8 0 ∧ exec (.parkDrop a) s = refused a 9 0) ∧
    (idle → locked owner → exec (.regionSet n) s = refused owner 6 n ∧ exec (.regionClear n) s = refused owner 7 n) ∧
    (idle → ¬locked a →
      (4096 ≤ n → exec (.winMake a n) s = done a 5 n 1 s) ∧
      (n < 4096 → winTgt w ≠ 1 → exec (.winMake a n) s = done a 5 n 0 (answers (memSetNat (mark s false) entry 8 made))) ∧
      (n < 4096 → winTgt w = 1 → winPkg w = pkgNo s → exec (.winMake a n) s = done a 5 n 0 (hgen s e.gen !e.valid)) ∧
      (n < 4096 → winTgt w = 1 → winPkg w ≠ pkgNo s →
        (∀ v, spFind s.hub.far (winPkg w * 2 ^ 16 + winCore w * 2 ^ 8 + winHnd w) = some v → far v s) ∧
        (spFind s.hub.far (winPkg w * 2 ^ 16 + winCore w * 2 ^ 8 + winHnd w) = none → ∃ v, v < 32 ∧ far v { s with fresh := s.fresh + 1 })) ∧
      exec (.parkResume a) s = done a 8 0 0 (parkResume s a va) ∧ exec (.parkDrop a) s = done a 9 0 0 (parkDrop s a va)) ∧
    (idle → ¬locked owner → ¬locked 0 →
      let counters := isCounter s owner (bits r 199 144) = true ∧ isCounter s owner (bits r 143 88) = true
      (1024 ≤ n → exec (.regionSet n) s = done owner 6 n 1 s ∧ exec (.regionClear n) s = done owner 7 n 1 s) ∧
      (n < 1024 → bit r 255 = true → exec (.regionSet n) s = done owner 6 n 2 s) ∧
      (n < 1024 → bit r 255 = false → counters → exec (.regionSet n) s = done owner 6 n 0 (memSetNat (forgetVers s n) (regionAt s n) 32 (r + 2 ^ 255))) ∧
      (n < 1024 → bit r 255 = false → ¬counters → exec (.regionSet n) s = done owner 6 n 1 s) ∧
      (n < 1024 → exec (.regionClear n) s = done owner 7 n 0 (memSetNat (forgetVers s n) (regionAt s n) 32 (r % 2 ^ 255))))

/-- A command of a VF outside recovery, not BUSY: named for an address space assigned to it and a queue, gang, key or region of that
address space, it does what the command of the PF does and reports in the status register of the VF; named otherwise it has
RESULT 1 and changes nothing else. It is told of the end of its commands. While BUSY it is lost and sets LOST. ENTRY_WR refuses
with 1 an address space that is not its own, an index or selector that is none, and an entry in use by another address space,
with 2 a queue that is bound, a region that is live and staged bytes that name another address space, else writes the staged
entry into its table, a window entry with MADE clear (logs 17, 33). (derived: spec/23_security_and_confidential_copy.md R404,
spec/19_queues_scheduler_and_contexts.md R332, spec/20_translation_and_faults.md R352) -/
def Obligations.FunctionCommands : Prop :=
  ∀ (s : State) (f a n : Nat), s.sec.recovery = false → 1 ≤ f → f ≤ 64 →
    let sts := f * 2 ^ 40 + 8
    let arg := (barRd s (f * 2 ^ 40 + 0x10)).toNat
    let set := fun (u : State) (r : Nat) => barWr u sts ((barRd u sts &&& ~~~(0xFF#64 <<< 48)) ||| (BitVec.ofNat 64 r <<< 48))
    let done := fun (op t r : Nat) (u : State) => Host.Outcome.next (post (set u r) f 3 [sts, op, t, r])
    let taken := fun (u : State) => Host.Outcome.next (barWr u sts (barRd u sts &&& ~~~(0xFF#64 <<< 48)))
    let idle := (barRd s sts).getLsbD 63 = false
    let lost := Host.Outcome.next (barWr s sts (barRd s sts ||| (1#64 <<< 62)))
    let mine := ownerOf s a = f
    let queues := [(Instr.vfQBind f a n, 3, 0), (.vfQTeardownDrain f a n, 4, 0), (.vfQTeardownKill f a n, 4, 1), (.vfQTeardownFreeze f a n, 4, 2),
      (.vfQRestore f a n, 5, 0)]
    let gangs := [(Instr.vfPreempt f a n, 6, 0), (.vfResume f a n, 7, 0)]
    let acts := fun (e : Instr × Nat × Nat) =>
      let o := schedOp s e.2.1 e.2.2 n
      (o.1 ≠ 0 ∨ (e.2.1 ≠ 4 ∧ e.2.1 ≠ 6) → exec e.1 s = done e.2.1 n o.1 o.2) ∧
      (o.1 = 0 → e.2.1 = 4 → exec e.1 s = taken (modQ o.2 n fun x => { x with tsts := sts })) ∧
      (o.1 = 0 → e.2.1 = 6 → exec e.1 s = taken (modGang o.2 n fun g => { g with psts := sts }))
    let tables := [(Instr.vfInvAsid f a n, 1), (.vfInvPage f a n, 2), (.vfInvWindow f a n, 3), (.vfInvKey f a n, 4), (.vfWinMake f a n, 5),
      (.vfRegionSet f a n, 6), (.vfRegionClear f a n, 7), (.vfParkResume f a n, 8), (.vfParkDrop f a n, 9)]
    let b := vfEntry s f
    let w := leNat b
    let put := fun (adr : Nat) (b : List Byte) => { s with mem := memPutBytes s.mem adr b }
    (¬idle → (∀ e ∈ queues ++ gangs, exec e.1 s = lost) ∧ (∀ e ∈ tables, exec e.1 s = lost) ∧ ∀ k, exec (.entryWr f a k n) s = lost) ∧
    (idle →
      (mine → qAsid s n = a → n < 65536 → ∀ e ∈ queues, acts e) ∧
      (¬mine ∨ qAsid s n ≠ a ∨ 65536 ≤ n → ∀ e ∈ queues, exec e.1 s = done e.2.1 n 1 s) ∧
      (mine → (∃ g, spFind s.gangs n = some g ∧ g.asid = a) → ∀ e ∈ gangs, acts e) ∧
      (¬mine ∨ (∀ g, spFind s.gangs n = some g → g.asid ≠ a) → ∀ e ∈ gangs, exec e.1 s = done e.2.1 n 1 s) ∧
      (¬mine → ∀ e ∈ tables, exec e.1 s = done (e.2 + 0x10) n 1 s) ∧
      (mine → ∀ e ∈ tables, e.2 = 4 ∨ e.2 = 6 ∨ e.2 = 7 → vfNames s a e.2 n = false → exec e.1 s = done (e.2 + 0x10) n 1 s) ∧
      (mine → ∀ e ∈ tables, vfNames s a e.2 n = true →
        let o := xlatOp s e.2 a n arg
        let d := if e.2 ≤ 3 then drainsOf s a else []
        (o.1 ≠ 0 ∨ (o.2.1 = [] ∧ d = []) → exec e.1 s = done (e.2 + 0x10) n o.1 o.2.2) ∧
        (o.1 = 0 → o.2.1 ≠ [] ∨ d ≠ [] → exec e.1 s = .next { barWr o.2.2 sts (barRd o.2.2 sts ||| (1#64 <<< 63)) with
          invs := o.2.2.invs ++ [⟨sts, a, e.2 + 0x10, n, o.2.2.dev, o.2.1, d⟩] })) ∧
      (¬mine → ∀ k, exec (.entryWr f a k n) s = done 0x20 n 1 s) ∧
      (mine →
        let key := (barRd s 0x00020008).toNat + 32 * n
        let foreignQ := ((qsOf s n).bound = true ∨ qValid s n = true) ∧ qAsid s n ≠ a
        let foreignR := bit (regionWord s n) 255 = true ∧ bits (regionWord s n) 254 241 ≠ a
        let foreignK := bit (memNat s key 8) 63 = true ∧ bits (memNat s key 8) 44 31 ≠ a
        (65536 ≤ n ∨ foreignQ → exec (.entryWr f a 0 n) s = done 0x20 n 1 s) ∧
        (n < 65536 → ¬foreignQ → (qsOf s n).bound = true ∨ bits w 48 35 ≠ a → exec (.entryWr f a 0 n) s = done 0x20 n 2 s) ∧
        (n < 65536 → ¬foreignQ → (qsOf s n).bound = false → bits w 48 35 = a → exec (.entryWr f a 0 n) s = done 0x20 n 0 (put (qAddr s n) b)) ∧
        (4096 ≤ n → exec (.entryWr f a 1 n) s = done 0x20 n 1 s) ∧
        (n < 4096 → exec (.entryWr f a 1 n) s = done 0x20 n 0 (put (bits (memNat s (atabEntry s a + 24) 8) 38 17 * 2 ^ 17 + 32 * n)
          (toBytes (if bit w 56 = true then w % 2 ^ 256 - 2 ^ 56 else w) 32))) ∧
        (1024 ≤ n ∨ foreignR → exec (.entryWr f a 2 n) s = done 0x20 n 1 s) ∧
        (n < 1024 → ¬foreignR → bit (regionWord s n) 255 = true ∨ bits w 254 241 ≠ a → exec (.entryWr f a 2 n) s = done 0x20 n 2 s) ∧
        (n < 1024 → bit (regionWord s n) 255 = false → bits w 254 241 = a → exec (.entryWr f a 2 n) s = done 0x20 n 0 (put (regionAt s n) (b.take 32))) ∧
        (2 ^ 20 ≤ n ∨ foreignK → exec (.entryWr f a 3 n) s = done 0x20 n 1 s) ∧
        (n < 2 ^ 20 → ¬foreignK → bits w 44 31 ≠ a → exec (.entryWr f a 3 n) s = done 0x20 n 2 s) ∧
        (n < 2 ^ 20 → ¬foreignK → bits w 44 31 = a → exec (.entryWr f a 3 n) s = done 0x20 n 0 (put key (b.take 32))) ∧
        (∀ k, 4 ≤ k → exec (.entryWr f a k n) s = done 0x20 n 1 s)))

/-- A TRUNK_CFG write takes VALID, width and threshold, but a VALID off its alignment is ignored with HUB_STS.RESULT 01. With no
command of the hub being carried out, TRUNK_TRAIN of a valid trunk retrains at full width in PAM4, from DOWN with SEQ 0 and full
credits; else RESULT 1. A failed lane sends UP to training for NRZ, halves the lanes in NRZ or PROBATION, and takes the last
lane DOWN, where what was outstanding or begun is dropped and counted and the packets not begun go by another next hop; a lane
not in use, or one of several in training, changes nothing. Training that has had its 20 or 30 microseconds brings the trunk UP,
or to PROBATION in NRZ, asking once for replay, or DOWN where it failed; PROBATION ends after 100 microseconds. ROUTE_WR
likewise loads the entry and holds packets for FAB_MAXLAT, after which they go out in order. Every transition is announced. What
a training flit says, and that both ends begin anew from DOWN, is log 31. (derived: spec/21_oceth_link_and_the_hub.md R371,
spec/21_oceth_link_and_the_hub.md R372, spec/21_oceth_link_and_the_hub.md R378, spec/21_oceth_link_and_the_hub.md R381,
spec/21_oceth_link_and_the_hub.md R382, spec/22_fabric_programs.md R397) -/
def Obligations.TrunksAndRoutes : Prop :=
  ∀ (s : State) (n v k : Nat), n < 144 → s.sec.recovery = false →
    let t := trunkAt s n
    let result := fun (u : State) (r : Nat) => barWr u 0x00030028 ((barRd u 0x00030028 &&& ~~~(0xFF#64 <<< 48)) ||| (BitVec.ofNat 64 r <<< 48))
    let done := fun (op t r : Nat) (u : State) => Host.Outcome.next (post (result u r) 0 3 [0x00030028, op, t, r])
    let goes := fun (u : State) (st : Nat) (f : Trunk → Trunk) => post (modTrunk u n fun t => f { t with state := st, since := u.dev }) 0 8 [n, st]
    let retrain := fun (u : State) (nrz : Bool) => goes u 2 fun t => { t with aimNrz := nrz, asked := (0, 0) }.plain 4 (toBytes (pkgNo u) 2)
    let down := (unsent [] t.waitq).1.foldl hubSend (goes (setHealth (hubCount s (8 * n + 4) (t.outst.length + (unsent [] t.waitq).2)) 5) 0 fun t =>
      { t with outst := [], waitq := [], replay := none, asm := [], owe := [], lanes := [], buf := [], kept := [], corr := [] })
    let h := t.lanes.length / 2
    let valid := (barRd s (0x00031000 + 8 * n)).getLsbD 63 = true
    let trained := t.since + nsDev (if t.aimNrz = true then 20000 else 30000) ≤ s.dev
    let up := fun (u : State) (st : Nat) (nrz : Bool) => modTrunk (modTrunk (hubCount (goes u st fun t => { t with nrz := nrz, asked := (0, 0) }) (8 * n) 1) n
      fun t => { t with replay := t.replay.map fun _ => (s.dev, 1) }.plain 3 (toBytes t.rxExp 2)) n Trunk.pump
    let loaded := spSet s.hub.routes v (BitVec.ofNat 64 (memNat s ((barRd s 0x00030010).toNat + 8 * v) 8))
    let until_ := s.dev + nsDev (1000 * bits (barRd s 0x00030008).toNat 31 0)
    (bit v 63 = true → n % 2 ^ bits v 62 61 ≠ 0 → exec (.trunkCfgWrite n v) s = .next (result s 1)) ∧
    (bit v 63 = false ∨ n % 2 ^ bits v 62 61 = 0 → exec (.trunkCfgWrite n v) s =
      .next (barWr s (0x00031000 + 8 * n) (BitVec.ofNat 64 (bits v 63 61 * 2 ^ 61 + bits v 33 16 * 2 ^ 16)))) ∧
    (s.hub.cmd = none → ¬valid → exec (.trunkTrain n) s = done 4 n 1 s) ∧
    (s.hub.cmd = none → valid → exec (.trunkTrain n) s = done 4 n 0 (retrain (modTrunk s n fun t =>
      { (if t.state = 0 then { Trunk.reset with wire := t.wire, peer := t.peer } else t) with
        lanes := upTo (2 * 2 ^ bits (barRd s (0x00031000 + 8 * n)).toNat 62 61) }) false)) ∧
    (k ∉ t.lanes ∨ t.state = 0 ∨ (t.lanes.length ≠ 1 ∧ t.state = 2) → exec (.laneFail n k) s = .next s) ∧
    (k ∈ t.lanes → t.state ≠ 0 → t.lanes.length = 1 → exec (.laneFail n k) s = .next down) ∧
    (k ∈ t.lanes → t.lanes.length ≠ 1 → t.state = 1 → exec (.laneFail n k) s = .next (retrain s true)) ∧
    (k ∈ t.lanes → t.lanes.length ≠ 1 → t.state = 3 ∨ t.state = 4 → exec (.laneFail n k) s = .next (retrain (modTrunk
      (goes (hubCount s (8 * n + 3) 1) 5 fun t => t) n fun t => { t with lanes := if k ∈ t.lanes.take h then t.lanes.drop h else t.lanes.take h }) false)) ∧
    (t.state ≠ 2 ∨ ¬trained → exec (.trainingDone n v) s = .next s) ∧
    (t.state = 2 → trained →
      exec (.trainingDone n 0) s = .next down ∧
      (t.aimNrz = false → v ≠ 0 → exec (.trainingDone n v) s = .next (up s 1 false)) ∧
      (t.aimNrz = true → v ≠ 0 → exec (.trainingDone n v) s = .next (up (hubCount s (8 * n + 2) 1) 3 true))) ∧
    (t.state = 3 → t.since + nsDev 100000 ≤ s.dev → exec (.probationExpiry n) s = .next (goes s 4 fun t => t)) ∧
    (t.state ≠ 3 ∨ s.dev < t.since + nsDev 100000 → exec (.probationExpiry n) s = .next s) ∧
    (s.hub.cmd = none → 16384 ≤ v → exec (.routeWr v) s = done 1 v 1 s) ∧
    (s.hub.cmd = none → v < 16384 → (∀ e ∈ s.hub.holds, e.1 ≠ v) → exec (.routeWr v) s =
      done 1 v 0 { s with hub := { s.hub with routes := loaded, holds := s.hub.holds ++ [(v, until_, [])] } }) ∧
    (∀ w l, s.hub.cmd = none → v < 16384 → s.hub.holds.find? (fun e => e.1 == v) = some (v, w, l) → exec (.routeWr v) s =
      done 1 v 0 { s with hub := { s.hub with routes := loaded, holds := s.hub.holds.map fun e => if e.1 = v then (v, until_, l) else e } }) ∧
    (∀ w l, s.hub.holds.find? (fun e => e.1 == v) = some (v, w, l) →
      (s.dev < w → exec (.routeHoldExpiry v) s = .next s) ∧
      (w ≤ s.dev → exec (.routeHoldExpiry v) s = .next (l.foldl hubSend { s with hub := { s.hub with holds := s.hub.holds.filter fun e => e.1 != v } }))) ∧
    ((∀ e ∈ s.hub.holds, e.1 ≠ v) → exec (.routeHoldExpiry v) s = .next s)

/-- A flit with bad FEC or CRC (log 31: the input says so), a reserved type or channel, is counted and replay is asked for. Of a
good one the ACK is taken; a sequenced flit out of order asks for replay once, one in order moves the expected SEQ on, takes its
credits, gives its bytes to the packet of its channel, and what waits goes out; a request for replay sends the outstanding flits
from its SEQ on again; a training flit tells the number of the peer. A corrected symbol is noted with its lane, which fails at
more than LANE_THR of them within 10 microseconds. On a trunk that does not flow nothing is taken, but for training flits in
training. After 1 microsecond without the expected SEQ the request is sent again, and after 16 the trunk retrains as it is.
(derived: spec/21_oceth_link_and_the_hub.md R374, spec/21_oceth_link_and_the_hub.md R375, spec/21_oceth_link_and_the_hub.md
R376, spec/21_oceth_link_and_the_hub.md R377, spec/21_oceth_link_and_the_hub.md R378) -/
def Obligations.FlitsArrive : Prop :=
  ∀ (s : State) (n w bad : Nat), n < 144 →
    let t := trunkAt s n
    let f := readFlit w
    let flows := t.state = 1 ∨ t.state = 3 ∨ t.state = 4
    let ok := bad ≠ 1 ∧ f.typ ≤ 4 ∧ f.vc ≤ 9 ∧ bits w 1891 1888 = 0
    let kinds := [(Instr.startFlit n w bad, 1), (.contFlit n w bad, 2), (.idleFlit n w bad, 0), (.replayReq n w bad, 3), (.trainFlit n w bad, 4)]
    let acked := modTrunk s n fun t => t.acked f.ack
    let inOrder := f.seq = (trunkAt acked n).rxExp
    let taken := modTrunk acked n fun t => { t with rxExp := (t.rxExp + 1) % 4096, replay := none }.credited f.crch f.crcnt
    let out := fun (u : State) => modTrunk u n fun t => if t.pump.wire.length = t.wire.length then t.pump.plain 0 [] else t.pump
    let noted := fun (u : State) => if bad < 2 then u else
      let l := ((trunkAt u n).corr.filter fun e => decide (u.dev < e.2 + nsDev 10000)) ++ [(bad - 2, u.dev)]
      let v := modTrunk u n fun t => { t with corr := l }
      if bits (barRd v (0x00031000 + 8 * n)).toNat 33 16 < (l.filter fun e => e.1 == bad - 2).length then laneFail v n (bad - 2) else v
    let asked := if (trunkAt acked n).replay = none then askReplay acked n else acked
    let again := modTrunk acked n fun t => t.resend (leNat (f.payload.take 2) % 4096)
    (¬flows → ∀ e ∈ kinds, t.state ≠ 2 ∨ e.2 ≠ 4 → exec e.1 s = .next s) ∧
    (t.state = 2 → ¬ok → exec (.trainFlit n w bad) s = .next s) ∧
    (flows → ¬ok → ∀ e ∈ kinds, exec e.1 s = .next (askReplay (hubCount s (8 * n + 1) 1) n)) ∧
    (flows → ok → ∀ e ∈ kinds, e.2 ≠ f.typ → exec e.1 s = .next s) ∧
    (flows → ok →
      (f.typ = 1 → inOrder → exec (.startFlit n w bad) s = .next (noted (out (bufSettle (flitData taken n f))))) ∧
      (f.typ = 2 → inOrder → exec (.contFlit n w bad) s = .next (noted (out (bufSettle (flitData taken n f))))) ∧
      (f.typ = 0 → f.crcnt ≠ 0 → inOrder → exec (.idleFlit n w bad) s = .next (noted (out taken))) ∧
      (f.typ = 1 → ¬inOrder → exec (.startFlit n w bad) s = .next (noted asked)) ∧
      (f.typ = 2 → ¬inOrder → exec (.contFlit n w bad) s = .next (noted asked)) ∧
      (f.typ = 0 → f.crcnt ≠ 0 → ¬inOrder → exec (.idleFlit n w bad) s = .next (noted asked)) ∧
      (f.typ = 0 → f.crcnt = 0 → exec (.idleFlit n w bad) s = .next (noted (modTrunk acked n Trunk.pump))) ∧
      (f.typ = 3 → (trunkAt again n).asked.2 < 16 → exec (.replayReq n w bad) s = .next (noted again)) ∧
      (f.typ = 3 → 16 ≤ (trunkAt again n).asked.2 → exec (.replayReq n w bad) s = .next (noted (trunkRetrain again n t.nrz)))) ∧
    (flows ∨ t.state = 2 → ok → f.typ = 4 → exec (.trainFlit n w bad) s =
      .next (noted (modTrunk acked n fun t => { t with peer := leNat (f.payload.take 2) % 16384 }))) ∧
    (t.replay = none ∨ ¬flows → exec (.replayReqRepeat n) s = .next s) ∧
    (∀ at_ k, t.replay = some (at_, k) → flows →
      (s.dev < at_ + nsDev 1000 → exec (.replayReqRepeat n) s = .next s) ∧
      (at_ + nsDev 1000 ≤ s.dev → k < 16 → exec (.replayReqRepeat n) s = .next (askReplay s n)) ∧
      (at_ + nsDev 1000 ≤ s.dev → 16 ≤ k → exec (.replayReqRepeat n) s = .next (trunkRetrain (modTrunk s n fun t => { t with replay := none }) n t.nrz)))

/-- The oldest request of its lane behind no parked one, with no decision log in use: a write whose key fails is dropped and counted
in DROP_BAD, its source told (log 82), and the landing add behind it will be dropped; into a handle, whose banks it gets where
no other requester has them in this cycle, it writes the bytes its mask leaves and is acknowledged where handle, GEN and length
fit, else it is dropped; into memory, a page to stage parks it, and where it may be written the bytes are placed and it is
acknowledged (where AUX and the mask stand in a packet is log 21). A read and an atomic whose key fails are refused with
KEY_CHECK; on a plain page they are answered with the bytes, or the old word with the new one placed. A request behind a parked
one parks, and a packet that is not the oldest of its lane is not taken. That only requests park behind a parked request of
their source and lane is the reading of log 58, that DROP_BAD counts refused writes that of log 32. (derived:
spec/20_translation_and_faults.md R363, spec/20_translation_and_faults.md R364, spec/21_oceth_link_and_the_hub.md R380,
spec/11_memory_and_stream_instructions.md R221, spec/06_counters_versions_and_order.md R106) -/
def Obligations.WritesReadsAndAtomicsArrive : Prop :=
  ∀ (s : State) (i : Nat) (p : Packet), s.hub.rx[i]? = some p → p.rsp = false →
    let oldest := ∀ q ∈ s.hub.rx.take i, ¬(q.spkg = p.spkg ∧ q.lane = p.lane ∧ q.rsp = false)
    let free := ∀ k ∈ s.hub.parked, ¬(k.pkt.spkg = p.spkg ∧ k.pkt.lane = p.lane)
    let out := { s with hub := { s.hub with rx := s.hub.rx.eraseIdx i } }
    let skip := fun (u : State) (b : Bool) => { u with hub := { u.hub with
      skip := if b then spSet u.hub.skip (16 * p.spkg + p.lane) 1 else spDel u.hub.skip (16 * p.spkg + p.lane) } }
    let dropped := fun (code : Nat) => sendRsp (skip (hubCount out 2000 1) true) (respond out p 0x24 code [])
    let under := fun (old : List Byte) => underMask (wrMask p 0 p.data.length) p.data old
    let refuse := fun (u : State) (code cause detail : Nat) => sendRsp u (respond u p 0x24 (code + 256 * cause + 65536 * detail) [])
    let n := p.data.length
    let plain := fun k => k ≠ kVERSIONED ∧ k ≠ kCOUNTER
    let kinds := [(Instr.wr i, 1), (.rd i, 2), (.amo i, 3)]
    (¬oldest → ∀ e ∈ kinds, exec e.1 s = .next s) ∧
    (∀ e ∈ kinds, p.op ≠ e.2 → exec e.1 s = .next s) ∧
    (oldest → ¬free → ∀ e ∈ kinds, p.op = e.2 → exec e.1 s = .next (parkArrival s i p none)) ∧
    (oldest → free → rplMode s = 0 →
      (p.op = 1 → keyCheck s p.key (if bit p.aux 5 = true then 1 else 0) rW p.addr n = none → exec (.wr i) s = .next (dropped 0x04)) ∧
      (∀ asid off, p.op = 1 → bit p.aux 5 = true → keyCheck s p.key 1 rW p.addr n = some (asid, off) →
        let c := pktCore p
        let e := handle (coreAt s c) (pktHnd p)
        let b := bankTry s c 5 (ingressLines s c p)
        let out := { b.2 with hub := { s.hub with rx := s.hub.rx.eraseIdx i } }
        let fits := c < 192 ∧ p.ggen = 0 ∧ e.valid = true ∧ e.gen = pktGen p ∧ e.shadow = false ∧ off + n ≤ e.size ∧
            spGet 0 (coreAt s c).m.hheld (pktHnd p) ≠ 1 ∧ spGet 0 (coreAt s c).m.hheld (pktHnd p) ≠ 2 ∧
            (spGet 0 (coreAt s c).m.hheld (pktHnd p) = 3 → asidOf (coreAt s c) = asid)
        ((coreAt s c).q.last ≠ s.now + 1 → b.1 = true) ∧
        (b.1 = false → exec (.wr i) s = .next b.2) ∧
        (b.1 = true → fits → exec (.wr i) s =
          .next (sendRsp (skip (hWrite out c e off (under (spadRead (coreAt out c) e off n))) false) (respond out p 0x20 0 []))) ∧
        (b.1 = true → ¬fits → exec (.wr i) s = .next (sendRsp (skip (hubCount out 2000 1) true) (respond out p 0x24 0x02 [])))) ∧
      (∀ asid va, p.op = 1 → bit p.aux 5 = false → keyCheck s p.key 0 rW p.addr n = some (asid, va) →
        (writeAt s asid va n = .drop → exec (.wr i) s = .next (dropped 0x04)) ∧
        (∀ a, writeAt s asid va n = .park a → exec (.wr i) s = .next (parkArrival s i p (some (asid, a)))) ∧
        (∀ pa k rt sp x y, writeAt s asid va n = .ok → xlat (skip out false) 0 asid va = .loc pa k rt sp x y → 0 < n → n ≤ sp → pa + n ≤ hbmSize →
          exec (.wr i) s = .next (sendRsp { skip out false with mem := memPutBytes s.mem pa (under (memBytes s.mem pa n)) } (respond s p 0x20 0 [])))) ∧
      (p.op = 2 → keyCheck out p.key 0 rR p.addr p.len = none → exec (.rd i) s = .next (refuse out 0x04 0x0C 0)) ∧
      (∀ asid va pa k rt sp x y, p.op = 2 → keyCheck out p.key 0 rR p.addr p.len = some (asid, va) → p.data = [] → 0 < p.len → p.len ≤ sp → pa + p.len ≤ hbmSize →
        xlat out 0 asid va = .loc pa k rt sp x y →
        (plain k → hasRight rt rR = true → (hbmRead out asid pa p.len).1.length = p.len → exec (.rd i) s =
          .next (sendRsp (hbmRead out asid pa p.len).2 (respond (hbmRead out asid pa p.len).2 p 0x21 0 (hbmRead out asid pa p.len).1))) ∧
        (¬plain k → exec (.rd i) s = .next (refuse out 0x05 0x0D 0)) ∧
        (plain k → hasRight rt rR = false → exec (.rd i) s = .next (refuse out 0x03 0x0B 4))) ∧
      (p.op = 3 → keyCheck out p.key 0 rA p.addr 8 = none → exec (.amo i) s = .next (refuse out 0x04 0x0C 0)) ∧
      (∀ asid va pa k rt sp x y, p.op = 3 → keyCheck out p.key 0 rA p.addr 8 = some (asid, va) → va % 8 = 0 →
        xlat out 0 asid va = .loc pa k rt sp x y → plain k → hasRight rt rA = true →
        let u := (hbmRead out asid pa 8).2
        let m : Word := BitVec.ofNat 64 (leNat (hbmRead out asid pa 8).1)
        let arg : Word := BitVec.ofNat 64 (leNat (slice p.data 8 8))
        let v := amoFn (pktFn p) m (BitVec.ofNat 64 (leNat (p.data.take 8))) arg
        let u' := if pktFn p = 9 ∧ m ≠ arg then u else { u with mem := memPutBytes u.mem pa (toBytes v.toNat 8) }
        exec (.amo i) s = .next (sendRsp u' (respond u' p 0x21 0 (toBytes m.toNat 8)))))

/-- With no decision log in use, a counter operation through a key on a counter of this package: an add or raise is applied and
acknowledged, or refused with COUNTER_OVERFLOW; the add of an engine counts, one that overflows poisons the counter and is
refused; a read is answered; a poison is applied; a landing add counts and is acknowledged, an overflow poisoning the counter,
but not behind a dropped write, of which its source is told (log 82), and behind one that is being forwarded it is kept until
that has been placed (log 100). A versioned access is performed at its home and answered, refused with its cause, or waits in
its place (log 62). A management packet leaves the arrivals (log 62). ACKPL marks the write that waited as placed; DATA brings a
load its bytes; NACK refuses it with its cause (log 21), and marks a write as lost (log 82); a response whose tag nobody waits
for only leaves the arrivals, one that refuses a contribution being counted. (derived: spec/21_oceth_link_and_the_hub.md R380,
spec/06_counters_versions_and_order.md R101, spec/06_counters_versions_and_order.md R107, spec/06_counters_versions_and_order.md
R125, spec/14_counter_engine_and_fabric_instructions.md R268, spec/14_counter_engine_and_fabric_instructions.md R275) -/
def Obligations.CountersVersionsAndResponsesArrive : Prop :=
  ∀ (s : State) (i : Nat) (p : Packet), s.hub.rx[i]? = some p → (∀ q ∈ s.hub.rx.take i, ¬(q.spkg = p.spkg ∧ q.lane = p.lane ∧ q.rsp = p.rsp)) →
    let free := ∀ k ∈ s.hub.parked, ¬(k.pkt.spkg = p.spkg ∧ k.pkt.lane = p.lane)
    let out := { s with hub := { s.hub with rx := s.hub.rx.eraseIdx i } }
    let refuse := fun (u : State) (code cause detail : Nat) => sendRsp u (respond u p 0x24 (code + 256 * cause + 65536 * detail) [])
    let ack := fun (u : State) => sendRsp u (respond u p 0x20 0 [])
    let fn := bits p.aux 4 0
    let a := leNat (p.data.take 8)
    let c := pktCore p
    let untag := fun (u : State) => { u with hub := { u.hub with pend := spDel u.hub.pend p.tag } }
    (p.rsp = false → free → rplMode s = 0 →
      (p.op = 4 → fn ≠ 5 → keyCheck out p.key 2 (if fn = 2 then rR else rA) p.addr 8 = none → exec (.ctr i) s = .next (refuse out 0x04 0x0C 0)) ∧
      (∀ asid b, p.op = 4 → fn ≠ 5 → keyCheck out p.key 2 (if fn = 2 then rR else rA) p.addr 8 = some (asid, b) → b % 8 = 0 → b / 8 < 511 → c < 192 →
        let at_ := CtrAt.file c (b / 8)
        let v := ctrRead out at_
        (fn = 2 → exec (.ctr i) s = .next (sendRsp out (respond out p 0x21 0 (toBytes v.toNat 8)))) ∧
        (fn = 4 → exec (.ctr i) s = .next (ack (ctrWrite out (ctrPoison v) at_))) ∧
        (fn = 0 → (ctrAdd v a).2 = false → exec (.ctr i) s = .next (ack (ctrWrite out (ctrAdd v a).1 at_))) ∧
        (fn = 0 → (ctrAdd v a).2 = true → exec (.ctr i) s = .next (refuse out 0x0A 0x0F 0)) ∧
        (fn = 1 → (ctrRaise v a).2 = false → exec (.ctr i) s = .next (ack (ctrWrite out (ctrRaise v a).1 at_))) ∧
        (fn = 1 → (ctrRaise v a).2 = true → exec (.ctr i) s = .next (refuse out 0x0A 0x0F 0)) ∧
        (fn = 6 → (addOrPoison v a).2 = false → exec (.ctr i) s = .next (ack (ctrWrite out (addOrPoison v a).1 at_))) ∧
        (fn = 6 → (addOrPoison v a).2 = true → exec (.ctr i) s = .next (refuse (ctrWrite out (addOrPoison v a).1 at_) 0x0A 0x0F 0))) ∧
      (p.op = 4 → fn = 5 →
        let k := spGet 0 s.hub.skip (16 * p.spkg + p.lane)
        let gone := { out with hub := { out.hub with skip := spDel s.hub.skip (16 * p.spkg + p.lane) } }
        let lands := fun (n : Nat) => exec (.ctr i) s = .next (ack (ctrWrite out (addOrPoison (ctrRead out (.file c n)) a).1 (.file c n)))
        (k = 1 → exec (.ctr i) s = .next (sendRsp gone (respond gone p 0x24 0x04 []))) ∧
        (2 ≤ k → exec (.ctr i) s = .next { gone with hub := { gone.hub with owed := s.hub.owed ++ [(p.spkg, k - 2, p)] } }) ∧
        (k = 0 → bit p.aux 5 = true → keyCheck out p.key 1 rW 0 0 ≠ none → p.addr / 8 < 512 → c < 192 → lands (p.addr / 8)) ∧
        (∀ asid b, k = 0 → bit p.aux 5 = false → keyCheck out p.key 2 rA p.addr 8 = some (asid, b) → b / 8 < 512 → c < 192 → lands (b / 8))) ∧
      (p.op = 5 → p.data.length ≤ 16 → let st := fn = 1
        let need := if st then rW else rR
        (keyCheck s p.key 0 need p.addr 8 = none → exec (.ver i) s = .next (refuse out 0x04 0x0C 0)) ∧
        (∀ asid va ps, keyCheck s p.key 0 need p.addr 8 = some (asid, va) → verReach s 0 asid va 8 need = .here ps →
          let tried := verTry s (decide st) ps (leNat (p.data.take 8) % 2 ^ 32) (BitVec.ofNat 64 (leNat (slice p.data 8 8)))
          (∀ v u, tried = .done v u → let u' := { u with hub := { u.hub with rx := u.hub.rx.eraseIdx i } }
            (st → exec (.ver i) s = .next (ack u')) ∧
            (¬st → exec (.ver i) s = .next (sendRsp u' (respond u' p 0x21 0 (toBytes v.toNat 8))))) ∧
          (∀ f, tried = .fault f → exec (.ver i) s = .next (refuse out 0x04 f 0)) ∧
          (∀ rs, tried = .wait rs →
            (p.pre = [] → exec (.ver i) s = .next { s with hub := { s.hub with rx := setAt s.hub.rx i { p with pre := [s.dev] } } }) ∧
            (∀ t l, p.pre = t :: l → (∀ n ∈ rs, s.dev < t + nsDev (1000 * bits (regionWord s n) 231 200)) → exec (.ver i) s = .next s) ∧
            (∀ t l, p.pre = t :: l → (∃ n ∈ rs, t + nsDev (1000 * bits (regionWord s n) 231 200) ≤ s.dev) →
              exec (.ver i) s = .next (refuse out 0x04 (if st then 0x16 else 0x12) 0)))))) ∧
    (p.op = 0x30 → exec (.mgmt i) s = .next out) ∧
    (p.rsp = true →
      (spFind s.hub.pend p.tag = none → ∀ e ∈ [(Instr.ackpl i, 0x20), (.data i, 0x21)], p.op = e.2 → exec e.1 s = .next out) ∧
      (spFind s.hub.pend p.tag = none → p.op = 0x24 → bit p.aux 25 = false → exec (.nack i) s = .next out) ∧
      (spFind s.hub.pend p.tag = none → p.op = 0x24 → bit p.aux 25 = true → exec (.nack i) s = .next (hubCount out 2007 1)) ∧
      (∀ q, spFind s.hub.pend p.tag = some q →
        (p.op = 0x20 → q.what = 1 → exec (.ackpl i) s = .next (modCore (untag out) q.core fun k => { k with
          f := { k.f with unacked := k.f.unacked.map fun u => if u.tag = p.tag then { u with acked := true } else u } })) ∧
        (p.op = 0x20 → q.what = 3 → exec (.ackpl i) s = .next (modCore (untag out) q.core fun k => { k with
          f := { k.f with drainq := k.f.drainq.map fun r => if r.sent && r.tag = p.tag then { r with acked := true } else r } })) ∧
        (p.op = 0x21 → q.what = 0 → exec (.data i) s = .next (gReply (untag out) q.core p.tag p.data)) ∧
        (p.op = 0x24 → q.what = 0 → exec (.nack i) s =
          .next (gRefused (untag out) q.core p.tag (nackCause p) (bits p.aux 23 16))) ∧
        (p.op = 0x24 → q.what = 1 → exec (.nack i) s = .next (modCore (untag out) q.core fun k => { k with
          f := { k.f with unacked := k.f.unacked.map fun u => if u.tag = p.tag then { u with lost := true } else u } }))))

/-- A contribution, oldest of its lane and behind no parked packet, is dropped and counted for an unknown, invalid or differing
group and for a member or size that does not fit; one of a closed SEQ is answered PARTIAL, one of another form NACK 01, one that
has come before is dropped and counted, one with no entry free NACK FF; else, with no decision log in use, it is taken, opening
a reduction where there is none (its order in a packet is log 21). RESULT and PARTIAL bytes for the waiting rred go to its
destination, with status 0 or 6, and are counted late when it waits no more. A REREQ that a started rred of this package matches
makes it read its contribution and send it again; else it only leaves the arrivals. A reduction open for PTMO is released, at
half of it a REREQ goes once to the package of each contributor that has not come (log 61), an uncorrectable entry is released
with all bits set. With no command of the hub under way, GRP_SET takes a new entry with SEQHI and CLOSED zero, unless it is too
soon or one is open; GRP_CLEAR releases what is open and ends the group. (derived: spec/21_oceth_link_and_the_hub.md R384,
spec/21_oceth_link_and_the_hub.md R385, spec/21_oceth_link_and_the_hub.md R386, spec/21_oceth_link_and_the_hub.md R387,
spec/21_oceth_link_and_the_hub.md R389, spec/21_oceth_link_and_the_hub.md R390,
spec/14_counter_engine_and_fabric_instructions.md R277) -/
def Obligations.Reductions : Prop :=
  (∀ (s : State) (i : Nat) (p : Packet), s.hub.rx[i]? = some p → (∀ q ∈ s.hub.rx.take i, ¬(q.spkg = p.spkg ∧ q.lane = p.lane ∧ q.rsp = p.rsp)) →
    let out := { s with hub := { s.hub with rx := s.hub.rx.eraseIdx i } }
    let g := bits p.addr 43 32
    let first := bits p.addr 31 0
    let k := p.pre.getD 0 0
    let fm := [bits p.aux 22 21, bits p.aux 20 19, bits p.aux 18 17, bits p.aux 16 16, p.pre.getD 2 0, p.pre.getD 1 0]
    let es := redElem (bits p.aux 22 21)
    let nack := fun (u : State) (code : Nat) => sendRsp u (respond u p 0x24 (code + 2 ^ 25) [])
    (p.op = 6 → p.rsp = false → (∀ k ∈ s.hub.parked, ¬(k.pkt.spkg = p.spkg ∧ k.pkt.lane = p.lane)) →
      (spFind s.hub.groups g = none → exec (.red i) s = .next (hubCount out 2003 1)) ∧
      (∀ x, spFind s.hub.groups g = some x →
        (x.valid = false ∨ x.gen ≠ p.ggen → exec (.red i) s = .next (hubCount out 2003 1)) ∧
        (x.valid = true → x.gen = p.ggen →
          let member := k < x.nmem ∧ memNat s (x.members + 2 * k) 2 % 16384 = p.spkg ∧ p.pre.getD 1 0 = x.nmem
          let mine := s.hub.reds.find? fun r => r.group == g && r.ggen == p.ggen && r.seq == bits p.aux 15 0
          let fits := p.data.length % es = 0 ∧ first * es + p.data.length ≤ 4 * p.pre.getD 2 0
          (¬member → exec (.red i) s = .next (hubCount out 2004 1)) ∧
          (member → seqClosed x (bits p.aux 15 0) = true → exec (.red i) s =
            .next (redAnswer out 0x23 1 p.spkg p.tag p.ggen (missing x.nmem (4 * p.pre.getD 2 0) [] true))) ∧
          (member → seqClosed x (bits p.aux 15 0) = false →
            let again := fun (r : Red) => ∃ e ∈ r.parts, e.1 = k ∧ e.2.1 < first + p.data.length / es ∧ first < e.2.1 + e.2.2.length / es
            let free := rplMode s = 0 ∨ bits p.aux 20 19 ≠ 1 ∨ 1 < bits p.aux 22 21
            (¬fits → exec (.red i) s = .next (nack out 0x01)) ∧
            (∀ r, mine = some r → r.form ≠ fm → exec (.red i) s = .next (nack out 0x01)) ∧
            (∀ r, fits → mine = some r → r.form = fm → again r → exec (.red i) s = .next (hubCount out 2005 1)) ∧
            (∀ r, fits → mine = some r → r.form = fm → ¬again r → entriesUsed s ≤ 8192 → free → exec (.red i) s = .next (takePart out r p)) ∧
            (fits → mine = none → 8192 < entriesUsed s + entriesOf (bits p.aux 22 21) (p.pre.getD 2 0) →
              exec (.red i) s = .next (nack (hubCount out 2008 1) 0xFF)) ∧
            (fits → mine = none → entriesUsed s + entriesOf (bits p.aux 22 21) (p.pre.getD 2 0) ≤ 8192 → free →
              let r : Red := ⟨g, p.ggen, bits p.aux 15 0, fm, [], [], s.dev, false⟩
              exec (.red i) s = .next (takePart { out with hub := { out.hub with reds := s.hub.reds ++ [r] } } r p)))))) ∧
    (p.rsp = true → ∀ e ∈ [(Instr.result i, 0x22), (.partialRelease i, 0x23)], p.op = e.2 →
      (spFind s.hub.pend p.tag = none → exec e.1 s = .next (hubCount out 2007 1)) ∧
      (∀ q, spFind s.hub.pend p.tag = some q → redCmd out q = none → exec e.1 s = .next (hubCount out 2007 1))) ∧
    (∀ q x, p.rsp = true → spFind s.hub.pend p.tag = some q → redCmd out q = some x →
      (p.op = 0x22 → exec (.result i) s = .next (redReply 0 (p.addr * redElem (bits x.red 6 5)) out p q)) ∧
      (p.op = 0x23 → exec (.partialRelease i) s = .next (redReply 6 p.addr out p q))) ∧
    (p.op = 7 → p.rsp = false → (∀ k ∈ s.hub.parked, ¬(k.pkt.spkg = p.spkg ∧ k.pkt.lane = p.lane)) →
      let asks := fun (x : Cmd) => x.op == 7 && x.started && x.drop == 0 && !x.prog.isEmpty && bits x.len 47 34 == p.spkg &&
        bits x.len 33 22 == g && bits x.len 21 14 == p.ggen && bits x.len 63 48 == bits p.aux 15 0 && bits x.aux 31 0 == first
      exec (.rereq i) s = .next (s.cores.foldl (fun u e => match (coreAt u e.1).f.cmds.find? asks with | some x => rredAgain u e.1 x | none => u) out) ∧
      ((∀ e ∈ s.cores, ∀ x ∈ (coreAt s e.1).f.cmds, asks x = false) → exec (.rereq i) s = .next out) ∧
      (∀ (u : State) (n : Nat) (x : Cmd) (b : List Byte) (v : State),
        endTake u x n (asidOf (coreAt u n)) x.sk x.src 0 (4 * bits x.len 13 0) rRED = .ok (b, v) → rredAgain u n x = redSend v n x b (x.prog.getD 0 0)))) ∧
  (∀ (s : State) (i : Nat) (r : Red), s.hub.reds[i]? = some r →
    (r.t0 + ptmoOf s r ≤ s.dev → exec (.ptmoExpiry i) s = .next (releaseRed s r false)) ∧
    (s.dev < r.t0 + ptmoOf s r → exec (.ptmoExpiry i) s = .next s) ∧
    (r.asked = true ∨ s.dev < r.t0 + ptmoOf s r / 2 → exec (.ptmoHalfRereq i) s = .next s) ∧
    (∀ x, r.asked = false → r.t0 + ptmoOf s r / 2 ≤ s.dev → spFind s.hub.groups r.group = some x →
      let u := { s with hub := { s.hub with reds := setAt s.hub.reds i { r with asked := true } } }
      exec (.ptmoHalfRereq i) s = .next (((upTo r.n).filter fun k => !r.arrived.contains k).foldl (fun u k => hubSend u
        { dpkg := memNat u (x.members + 2 * k) 2 % 16384, spkg := pkgNo u, lane := 0, hop := 0, rsp := false, op := 0x07, len := 1, key := 0,
          addr := r.group * 2 ^ 32 + k, tag := 0, ggen := r.ggen, aux := r.seq, pre := [], data := [], port := 999 }) u)) ∧
    exec (.combiningUncorrectable i) s = .next (releaseRed (hubCount s 2006 1) r true)) ∧
  (∀ (s : State) (g : Nat), s.sec.recovery = false →
    let done := fun (op asid r : Nat) (u : State) => Host.Outcome.next (post (barWr u 0x00030028
      ((barRd u 0x00030028 &&& ~~~(0xFF#64 <<< 48)) ||| (BitVec.ofNat 64 r <<< 48))) (ownerOf u asid) 3 [0x00030028, op, g, r])
    let a := (barRd s 0x00030018).toNat + 32 * g
    let w := memNat s a 8
    let early := ∃ x, spFind s.hub.groups g = some x ∧ x.gen ≠ bits w 62 55 ∧ s.dev < x.genAt + 2 * nsDev (1000 * bits (barRd s 0x00030008).toNat 31 0)
    let opened := ∃ r, r ∈ s.hub.reds ∧ r.group = g
    let x : Group := ⟨bit w 63, bits w 62 55, bits w 54 41, bits w 40 21, bits (memNat s (a + 8) 8) 38 0, bits (memNat s (a + 16) 8) 31 0, s.dev, 0, 0⟩
    (s.hub.cmd = none → 4096 ≤ g → exec (.grpSet g) s = done 2 0 1 s ∧ exec (.grpClear g) s = done 3 0 1 s) ∧
    (s.hub.cmd = none → g < 4096 → early ∨ opened → exec (.grpSet g) s = done 2 (bits w 54 41) 2 s) ∧
    (s.hub.cmd = none → g < 4096 → ¬early → ¬opened → exec (.grpSet g) s =
      done 2 x.asid 0 (putClosed { s with hub := { s.hub with groups := spSet s.hub.groups g x } } g 0 0)) ∧
    (s.hub.cmd = none → g < 4096 →
      let u := (s.hub.reds.filter fun r => r.group == g).foldl (fun u r => releaseRed u r false) s
      let v := memNat u a 8
      (¬opened → u = s) ∧
      (∀ x, spFind u.hub.groups g = some x → exec (.grpClear g) s = done 3 (bits v 54 41) 0
        { memSetNat u a 8 (v % 2 ^ 63) with hub := { u.hub with groups := spSet u.hub.groups g { x with valid := false, genAt := u.dev } } }) ∧
      (spFind u.hub.groups g = none → exec (.grpClear g) s = done 3 (bits v 54 41) 0 (memSetNat u a 8 (v % 2 ^ 63)))))

/-- PACKAGE_RESET leaves registers, cores, hub and scheduler as at reset, keeps HBM (log 14), raises no minimum version but by
firmware that runs and lowers none, and stays in recovery without measurements exactly where an image fails. In recovery a
signed image offered with the others good boots the part, else nothing changes. GET_VERSION is taken in any state, each later
request in the states its place gives, with its response in the mailbox and the state after it; out of order it has the error of
an unexpected request and the state stays; a request not listed has the error of an unsupported one; a FINISH whose proof fails
does not open the session. Message bytes that other standards give are free values (log 13). (derived:
spec/23_security_and_confidential_copy.md R398, spec/23_security_and_confidential_copy.md R400,
spec/23_security_and_confidential_copy.md R401) -/
def Obligations.BootAndSessions : Prop :=
  (∀ (s : State) (fw : List (List Nat)), ∃ t, exec (.packageReset fw) s = .next t ∧ t.mem = s.mem ∧ (∀ k, k < 4 → spGet 0 s.sec.minSvn k ≤ spGet 0 t.sec.minSvn k) ∧
    (t.sec.recovery = true → t.sec.minSvn = s.sec.minSvn) ∧
    t.cores = [] ∧ t.qs = [] ∧ t.gangs = [] ∧ t.hub = Hub.reset ∧ t.sec.slots = [] ∧ t.sec.spdm = [] ∧ t.sec.locked = [] ∧
    (∀ off, off ≠ 0x00030000 → barRd t off = barRd State.reset off) ∧
    (t.sec.recovery = true ↔ ¬(fw.length = 4 ∧ ∀ k, k < 4 → imgOk s k (fw.getD k []) = true)) ∧ (t.sec.recovery = true → t.sec.meas = [])) ∧
  (∀ (s : State) (k : Nat) (img : List (List Nat)),
    (s.sec.recovery = false ∨ 4 ≤ k ∨ imgOk s k (img.getD k []) = false ∨ bootOk s img = false → exec (.recoveryImage k img) s = .next s) ∧
    (s.sec.recovery = true → k < 4 → imgOk s k (img.getD k []) = true → bootOk s img = true →
      ∃ t, exec (.recoveryImage k img) s = .next t ∧ t.sec.recovery = false ∧ t.sec.meas.length = 5 ∧ t.mem = s.mem)) ∧
  (∀ (s : State) (f : Nat) (b : List Nat), s.sec.recovery = false → f ≤ 64 →
    let st := spGet 0 s.sec.spdm f
    let say := fun (u : State) (code : Nat) (r : List Byte) => { u with sec := { u.sec with doe := (f, code, r) :: u.sec.doe } }
    let err := fun (code : Nat) => Host.Outcome.next (say s 0x7F [BitVec.ofNat 8 code, 0])
    let goes := fun (code next : Nat) (r : List Byte) => Host.Outcome.next { say s code r with sec := { (say s code r).sec with spdm := spSet s.sec.spdm f next } }
    let chain := certChain s
    let m := natBytes (sha512 (byteNats chain))
    let kx := Config.messageBytes 0xE4 (natBytes b)
    (∀ e ∈ [(Instr.getVersion f b, 0, 5, 0x04, 1, [0, 1, 0, 0x13]), (.getCapabilities f b, 1, 2, 0x61, 2, Config.messageBytes 0xE1 (natBytes b)),
        (.negotiateAlgorithms f b, 2, 3, 0x63, 3, Config.messageBytes 0xE3 (natBytes b)),
        (.getDigests f b, 3, 5, 0x01, st, natBytes (1 :: sha512 (byteNats chain))),
        (.challenge f b, 3, 5, 0x03, st, m ++ idSign s (natBytes b ++ m)),
        (.getMeasurements f b, 3, 5, 0x60, st, measBlocks s ++ idSign s (natBytes b ++ measBlocks s)),
        (.keyExchange f b, 3, 3, 0x64, 4, kx ++ idSign s (natBytes b ++ kx)), (.heartbeat f b, 5, 5, 0x68, 5, []),
        (.keyUpdate f b, 5, 5, 0x69, 5, natBytes (b.take 2)), (.endSession f b, 5, 5, 0x6C, 3, [])],
      (e.2.1 ≤ st → st ≤ e.2.2.1 → exec e.1 s = goes e.2.2.2.1 e.2.2.2.2.1 e.2.2.2.2.2) ∧
      (st < e.2.1 ∨ e.2.2.1 < st → exec e.1 s = err 0x04)) ∧
    (b.headD 0 % 16 = 0 → 3 ≤ st → st ≤ 5 → exec (.getCertificate f b) s = goes 0x02 st chain) ∧
    (st < 3 → exec (.getCertificate f b) s = err 0x04) ∧
    (st = 4 → exec (.finish f b) s = (if Config.signatureOk 0xE5 (natBytes b) [] = true
      then goes 0x65 5 (Config.messageBytes 0xE5 (natBytes b)) else err 0x06)) ∧
    (st ≠ 4 → exec (.finish f b) s = err 0x04) ∧
    exec (.unsupportedRequest f b) s = err 0x07)

/-- With no secured session a key request or IDE_KM has the error of an unexpected request. In one, KEY_PROG and KEY_ERASE check
their fields (status 01), that the TDI is in RUN with the address space locked (02) and that a valid slot is of that address
space (03), and then write every field of the slot, SALT little-endian, with LASTCTR 0, or clear VALID (00). IDE_KM programs the
key of the stream. A stream that fails is insecure, and its interface, where it is CONFIG_LOCKED or RUN, goes to ERROR. A TDISP
request in a state that takes it does what it says: LOCK locks the address spaces of the function, START goes to RUN, STOP
unlocks, with a wipe from RUN; otherwise it has the error and nothing else changes. The wipe, at STOP from RUN as on entering
ERROR, drops the key slots of the locked address spaces, zeroes and holds their CONF handles on cores (those of saved members
with them) and kills their queues. Codes that other standards give are log 13, what reset and a refused request leave log 14.
(derived: spec/23_security_and_confidential_copy.md R402, spec/23_security_and_confidential_copy.md R403,
spec/23_security_and_confidential_copy.md R405, spec/23_security_and_confidential_copy.md R406) -/
def Obligations.KeysStreamsAndInterfaces : Prop :=
  ∀ (s : State) (f : Nat) (b : List Nat), s.sec.recovery = false → f ≤ 64 →
    let st := spGet 0 s.sec.spdm f
    let tdi := spGet 0 s.sec.tdi f
    let say := fun (u : State) (code : Nat) (r : List Byte) => { u with sec := { u.sec with doe := (f, code, r) :: u.sec.doe } }
    let tell := fun (u : State) (code : Nat) => Host.Outcome.next (say u 0x7E [BitVec.ofNat 8 code])
    let slot := 1024 * b.getD 1 0 + leNat (slice (natBytes b) 2 2)
    let asid := leNat (slice (natBytes b) 4 2)
    let old := spGet ⟨false, 0, 0, 0, 0⟩ s.sec.slots slot
    let good := fun (op len : Nat) => b.headD 0 = op ∧ len ≤ b.length ∧ b.getD 1 0 ≤ 3 ∧ leNat (slice (natBytes b) 2 2) ≤ 1023 ∧ asid ≤ 16383 ∧
      leNat (slice (natBytes b) 6 2) = 0
    let run := tdi = 2 ∧ asid ∈ lockedOf s f
    let foreign := old.valid = true ∧ old.asid ≠ asid
    let set := fun (k : KeySlot) => { s with sec := { s.sec with slots := spSet s.sec.slots slot k } }
    let toTdi := fun (u : State) (n : Nat) => { u with sec := { u.sec with tdi := spSet u.sec.tdi f n } }
    let mine := (s.sec.owner.filter fun e => e.2 == f).map Prod.fst
    let refused := say s 0x107F [4]
    let unlocked := fun (u : State) => { u with sec := { u.sec with locked := u.sec.locked.filter fun a => !(lockedOf u f).contains a } }
    let queues := (s.qs.filter fun e => e.2.bound && mine.contains (qAsid s e.1)).map Prod.fst
    let report := toBytes queues.length 2 ++ (queues.map fun q => toBytes q 2).flatten ++ toBytes mine.length 2 ++ (mine.map fun a => toBytes a 2).flatten
    let failed := { s with sec := { s.sec with insecure := if f ∈ s.sec.insecure then s.sec.insecure else f :: s.sec.insecure } }
    let wiped := fun (v : State) =>
      let l := lockedOf v f
      let u := l.foldl wipeConf { v with sec := { v.sec with slots := v.sec.slots.filter fun e => !l.contains e.2.asid } }
      (u.qs.filter fun e => e.2.bound && l.contains (qAsid u e.1)).foldl (fun u e => (qTeardown u e.1 1).2) u
    (st ≠ 5 → ∀ i ∈ [Instr.keyProg f b, .keyErase f b, .ideKm f b], exec i s = .next (say s 0x7F [4, 0])) ∧
    (st = 5 → (∀ e ∈ [(Instr.keyProg f b, 1, 44), (.keyErase f b, 2, 8)],
        (¬good e.2.1 e.2.2 → exec e.1 s = tell s 1) ∧ (good e.2.1 e.2.2 → ¬run → exec e.1 s = tell s 2) ∧
        (good e.2.1 e.2.2 → run → foreign → exec e.1 s = tell s 3)) ∧
      (good 1 44 → run → ¬foreign → exec (.keyProg f b) s = tell (set ⟨true, asid, BitVec.ofNat 256 (beNat ((b.drop 12).take 32)),
        BitVec.ofNat 32 (leNat (slice (natBytes b) 8 4)), 0⟩) 0) ∧
      (good 2 8 → run → ¬foreign → exec (.keyErase f b) s = tell (set { old with valid := false }) 0) ∧
      exec (.ideKm f b) s = .next { say s 0x7E [] with sec := { (say s 0x7E []).sec with
        ide := spSet s.sec.ide f (BitVec.ofNat 256 (beNat (b.take 32))), insecure := s.sec.insecure.filter (· != f) } }) ∧
    (tdi ≠ 1 → tdi ≠ 2 → exec (.ideIntegrityFailure f) s = .next failed) ∧
    (tdi = 1 ∨ tdi = 2 → exec (.ideIntegrityFailure f) s = .next (wiped (toTdi failed 3))) ∧
    (∀ c : Core, wipeCore c = (c.m.hheld.filter fun e => e.2 == 3).foldl (fun k e =>
      let w := spadWrite k (handle k e.1) 0 (List.replicate (handle k e.1).size 0)
      { w with m := { w.m with hheld := spSet w.m.hheld e.1 2 } }) c) ∧
    (∀ (u : State) (a n : Nat) (c : Core), u.gangs = [] → u.cores = [(n, c)] →
      coreAt (wipeConf u a) n = if c.bind.isSome = true ∧ asidOf c = a then wipeCore c else c) ∧
    (1 ≤ f →
      (tdi ≤ 3 → exec (.getDeviceInterfaceState f) s = .next (say s 0x1005 [BitVec.ofNat 8 tdi])) ∧
      (tdi = 0 → exec (.lockInterfaceRequest f) s = .next (say (toTdi { s with sec := { s.sec with
        locked := s.sec.locked ++ mine.filter fun a => !s.sec.locked.contains a } } 1) 0x1003 [])) ∧
      (tdi ≠ 0 → exec (.lockInterfaceRequest f) s = .next refused) ∧
      (tdi = 1 ∨ tdi = 2 → exec (.getDeviceInterfaceReport f) s = .next (say s 0x1004 report)) ∧
      (tdi ≠ 1 → tdi ≠ 2 → exec (.getDeviceInterfaceReport f) s = .next refused) ∧
      (tdi = 1 → exec (.startInterfaceRequest f) s = .next (say (toTdi s 2) 0x1006 [])) ∧
      (tdi ≠ 1 → exec (.startInterfaceRequest f) s = .next refused) ∧
      (tdi ≤ 1 ∨ tdi = 3 → exec (.stopInterfaceRequest f) s = .next (say (toTdi (unlocked s) 0) 0x1007 [])) ∧
      (tdi = 2 → exec (.stopInterfaceRequest f) s = .next (say (toTdi (unlocked (wiped s)) 0) 0x1007 [])))

/-- Outside recovery a write to an aligned register of BAR0 of the PF: a base register keeps its address bits alone (of a base in
HBM the aligned bits 38 and below are the choice of the model, log 65); HLTH_SUM, LOST and the like clear the bits written 1;
HUB_PKG also goes to the flash; STACKING and the bases of placement change only while no context exists; a write of SCHED_CMD
has the scheduler take the command, with BUSY set, or is dropped and sets LOST while one is taken, and the row of the command
carries it out with BUSY clear (a KILL so where no decision log is in use); HUB_CMD does as SCHED_CMD; a reserved offset changes
nothing. A VF reaches its own command block alone. A VF reads back VF_STS and VF_ARG and zero elsewhere. In recovery and off
alignment nothing changes (off alignment: log 91). (derived: spec/01_cores_quads_and_the_hub.md R6,
spec/19_queues_scheduler_and_contexts.md R332, spec/19_queues_scheduler_and_contexts.md R333, spec/20_translation_and_faults.md
R352, spec/21_oceth_link_and_the_hub.md R371, spec/23_security_and_confidential_copy.md R398,
spec/23_security_and_confidential_copy.md R404, spec/26_fleet_guarantees_and_health.md R442) -/
def Obligations.RegisterWrites : Prop :=
  ∀ (s : State) (f off v : Nat), v < 2 ^ 64 →
    let keep := fun (hi lo : Nat) => Host.Outcome.next (barWr s off (BitVec.ofNat 64 (bits v hi lo * 2 ^ lo)))
    let clear := fun (mask : Nat) => Host.Outcome.next (barWr s off (barRd s off &&& ~~~(BitVec.ofNat 64 (v &&& mask))))
    let contexts := ∃ c, c < 4096 ∧ ctxValid s c = true
    let op := bits v 63 56
    (s.sec.recovery = true ∨ off % 8 ≠ 0 ∨ 64 < f → exec (.registerWrite f off v) s = .next s) ∧
    (s.sec.recovery = false →
      (∀ e ∈ [(0x00010000, 38, 22), (0x00010008, 38, 0), (0x00010010, 38, 0), (0x00020000, 38, 20), (0x00020008, 38, 25), (0x00020010, 38, 15),
          (0x00020028, 63, 0), (0x00030008, 31, 0), (0x00030010, 38, 17), (0x00030018, 38, 17), (0x00048008, 38, 12), (0x00048010, 47, 0),
          (0x00050008, 63, 0), (0x00050048, 38, 12), (0x00060080, 63, 0)], off = e.1 → exec (.registerWrite 0 off v) s = keep e.2.1 e.2.2) ∧
      (∀ e ∈ [(0x00010020, 2 ^ 62), (0x00020020, 2 ^ 62), (0x00030028, 2 ^ 62), (0x00050010, 2 ^ 63), (0x00060000, 0x1FF)],
        off = e.1 → exec (.registerWrite 0 off v) s = clear e.2) ∧
      (∀ e ∈ [(0x00010100, 63, 63), (0x00010108, 38, 18), (0x00010110, 38, 18)], off = e.1 →
        (contexts → exec (.registerWrite 0 off v) s = .next s) ∧ (¬contexts → exec (.registerWrite 0 off v) s = keep e.2.1 e.2.2)) ∧
      exec (.registerWrite 0 0x00030000 v) s = .next (barWr { s with flashPkg := BitVec.ofNat 64 (bits v 13 0) } 0x00030000 (BitVec.ofNat 64 (bits v 13 0 * 2 ^ 0))) ∧
      exec (.registerWrite 0 0x00050000 v) s = exec (.drlCtlWrite v) s ∧
      (let n := bits v 47 32
       let taken := { barWr s 0x00010020 (barRd s 0x00010020 ||| (1#64 <<< 63)) with sched := some (op, bits v 49 48, n) }
       (s.sched = none → exec (.registerWrite 0 0x00010018 v) s = .next taken) ∧
       (s.sched ≠ none → exec (.registerWrite 0 0x00010018 v) s = .next (setHealth (barWr s 0x00010020 (barRd s 0x00010020 ||| (1#64 <<< 62))) 0)) ∧
       ∀ e ∈ [(1, 0, Instr.ctxCreate n), (2, 0, .ctxDestroy n), (3, 0, .qBind n), (4, 0, .qTeardownDrain n), (4, 1, .qTeardownKill n),
          (4, 2, .qTeardownFreeze n), (5, 0, .qRestore n), (6, 0, .preempt n), (7, 0, .resume n)], op = e.1 → bits v 49 48 = e.2.1 → rplMode s = 0 →
        exec e.2.2 taken = exec e.2.2 { barWr taken 0x00010020 (barRd taken 0x00010020 &&& ~~~(1#64 <<< 63)) with sched := none }) ∧
      (let n := bits v 47 32
       let sts := 0x00030028
       let busy := barWr s sts (barRd s sts ||| (1#64 <<< 63))
       let taken := { busy with hub := { busy.hub with cmd := some (op, n) } }
       let free := barWr taken sts (barRd taken sts &&& ~~~(1#64 <<< 63))
       (s.hub.cmd = none → exec (.registerWrite 0 0x00030020 v) s = .next taken) ∧
       (s.hub.cmd ≠ none → exec (.registerWrite 0 0x00030020 v) s = .next (barWr s sts (barRd s sts ||| (1#64 <<< 62)))) ∧
       ∀ e ∈ [(1, Instr.routeWr n), (2, .grpSet n), (3, .grpClear n), (4, .trunkTrain n)], op = e.1 →
        exec e.2 taken = exec e.2 { free with hub := { free.hub with cmd := none } }) ∧
      (∀ n, n < 144 → exec (.registerWrite 0 (0x00031000 + 8 * n) v) s = exec (.trunkCfgWrite n v) s) ∧
      (∀ n, n < 192 → exec (.registerWrite 0 (0x00100100 + 0x1000 * n) v) s = exec (.pmcCtlWrite n v) s ∧
        exec (.registerWrite 0 (0x00100038 + 0x1000 * n) v) s = exec (.dbgDataWrite n v) s) ∧
      (off % 8 = 0 → off < 0x00010000 → exec (.registerWrite 0 off v) s = .next s) ∧
      (1 ≤ f → f ≤ 64 → (∀ o, barRead s f o = if o = 0x08 ∨ o = 0x10 then barRd s (f * 2 ^ 40 + o) else 0) ∧
        exec (.registerWrite f 0x10 v) s = .next (barWr s (f * 2 ^ 40 + 0x10) (BitVec.ofNat 64 (bits v 63 0 * 2 ^ 0))) ∧
        (off % 8 = 0 → 0x80 ≤ off → exec (.registerWrite f off v) s = .next s) ∧
        (op = 3 → exec (.registerWrite f 0 v) s = exec (.vfQBind f (bits v 49 36) (bits v 35 0)) s) ∧
        (op = 0x11 → exec (.registerWrite f 0 v) s = exec (.vfInvAsid f (bits v 49 36) (bits v 35 0)) s) ∧
        (op = 0x20 → exec (.registerWrite f 0 v) s = exec (.entryWr f (bits v 49 36) (bits v 53 50) (bits v 35 0)) s)))

/-- On every counter word: with POISON set, add and raise change nothing and do not overflow; an add that would pass 2^63 - 1, and a
raise to an operand with bit 63, overflow and change nothing; else add adds to VALUE, raise takes the greater, and neither
touches POISON or lowers VALUE. Poll is true exactly when the counter is not poisoned and VALUE has reached its operand. An
overflow of another party than a core sets POISON and keeps VALUE, and poison stays. (derived:
spec/06_counters_versions_and_order.md R99, spec/06_counters_versions_and_order.md R101, spec/06_counters_versions_and_order.md
R103) -/
def Obligations.CounterArithmetic : Prop :=
  ∀ (c : Word) (a : Nat),
    let v := fun (x : Word) => x.toNat % 2 ^ 63
    let p := fun (x : Word) => x.getLsbD 63
    (p c = true → ctrAdd c a = (c, false) ∧ (a < 2 ^ 63 → ctrRaise c a = (c, false)) ∧ addOrPoison c a = (c, false)) ∧
    (p c = false → 2 ^ 63 - 1 < v c + a → ctrAdd c a = (c, true) ∧ (addOrPoison c a).2 = true ∧ p (addOrPoison c a).1 = true ∧
      v (addOrPoison c a).1 = v c) ∧
    (2 ^ 63 ≤ a → ctrRaise c a = (c, true)) ∧
    (p c = false → v c + a ≤ 2 ^ 63 - 1 → (ctrAdd c a).2 = false ∧ v (ctrAdd c a).1 = v c + a ∧ p (ctrAdd c a).1 = false ∧
      addOrPoison c a = ctrAdd c a) ∧
    (p c = false → a < 2 ^ 63 → (ctrRaise c a).2 = false ∧ v (ctrRaise c a).1 = max (v c) a ∧ p (ctrRaise c a).1 = false) ∧
    v c ≤ v (ctrAdd c a).1 ∧ v c ≤ v (ctrRaise c a).1 ∧ v (ctrPoison c) = v c ∧ p (ctrPoison c) = true ∧
    (ctrReached c a = true ↔ p c = false ∧ a ≤ v c)

/-- A trap goes to the task exactly when its cause may (R367), HMASK has its bit, HENTRY lies below the code and the core is not in
its handler: the core keeps running at HENTRY in its handler, and its 256-byte record, code address, mask, cause, detail and
slot among it, stands in the trap buffer. Otherwise the member stops with the record in its save area, to go on where the record
says, runs no more, and the owning function has its event. Registers, tokens, counters and loops stay, but that of a pass that
begins with the bundle the stage predicates have been set. The return goes on at the code address of the trap buffer with its
mask, out of the handler: after a trap to the task, where the trap was. (derived: spec/20_translation_and_faults.md R365,
spec/20_translation_and_faults.md R367, spec/20_translation_and_faults.md R368,
spec/14_counter_engine_and_fabric_instructions.md R287) -/
def Obligations.TrapEntryAndReturn : Prop :=
  (∀ (s : State) (c : Nat) (t : TrapInfo) (load : Bool) (g : Option GOp) (b : Bind), (coreAt s c).bind = some b →
    let k := beginPass (xRetire (coreAt s c))
    let u := takeTrap s c t load g
    let k' := coreAt u c
    let e := bits (memNat s ((barRd s 0x00020000).toNat + 64 * b.asid) 8) 47 24
    let toTask := causeToTask t.cause t.detail load = true ∧ bit (memNat s ((barRd s 0x00020000).toNat + 64 * b.asid + 32) 8) t.cause = true ∧
      e < k.prog.code.length ∧ k.q.inHandler = false
    let said := fun (r : List Byte) => r.take 4 = toBytes t.caddr 4 ∧ slice r 6 2 = toBytes t.mask.toNat 2 ∧
      slice r 8 3 = toBytes t.cause 1 ++ toBytes t.detail 1 ++ toBytes t.slot 1
    let at_ := if t.caddr = 0xFFFFFFFF then (k.q.pc, k.q.skipMask) else (t.caddr, t.mask)
    k'.r = k.r ∧ ((coreAt s c).q.newPass = none → k.r = (coreAt s c).r) ∧ k.m = (coreAt s c).m ∧ k'.m = k.m ∧ k'.ct = (coreAt s c).ct ∧
    k'.bind = some b ∧ u.mem = s.mem ∧ k'.q.hold = .none ∧ k'.q.holdG = .none ∧ k'.q.holdO = .none ∧
    (toTask → OnlyCore s u c ∧ k'.q.pc = e ∧ k'.q.inHandler = true ∧ k'.q.running = k.q.running ∧ said k'.q.tbuf ∧
      k'.q.tbuf = faultRecord k { t with flags := t.flags + 64 } g) ∧
    (¬toTask → k'.q.running = false ∧ k'.q.stopped = true ∧ said k'.q.frec ∧ k'.q.frec = faultRecord k t g ∧ (k'.q.pc, k'.q.skipMask) = at_ ∧
      u.posted = (driverOf s b.asid, 0, [t.cause, c, b.gang]) :: s.posted)) ∧
  (∀ (k : Core), (trapReturn k).q.pc = leNat (k.q.tbuf.take 4) ∧ (trapReturn k).q.skipMask = BitVec.ofNat 12 (leNat (slice k.q.tbuf 6 2)) ∧
    (trapReturn k).q.inHandler = false ∧ (trapReturn k).q.hold = .none ∧ (trapReturn k).q.holdG = .none ∧ (trapReturn k).q.holdO = .none ∧ (trapReturn k).r = k.r ∧ (trapReturn k).m = k.m) ∧
  (∀ (s : State) (c : Nat) (t : TrapInfo) (g : Option GOp) (e : Nat), t.caddr < 2 ^ 32 →
    let k := trapReturn (coreAt (trapToTask s c t g e) c)
    k.q.pc = t.caddr ∧ k.q.skipMask = t.mask ∧ k.q.inHandler = false)

/-- Right after reset no core runs a task, no bundle issues, every counter is zero, p0 alone of the predicates is true, PBC, SSN,
SCR, CHECK_CTL and the loss counters are zero, no handle is valid, nothing is in flight, no queue is bound, no gang exists, no
route is valid, every trunk is DOWN with full credits, device time is 0, DRL_CTL has EN with slopes 200 and 200 and FILLWAIT 2,
and DRL_SLOTS its table. Memory lists nothing, in its canonical form and within HBM. That unlisted bytes read 0 is the choice of
the model (log 4), as are the zeros of Reset-U registers (log 6). (derived: spec/06_counters_versions_and_order.md R99,
spec/06_counters_versions_and_order.md R107, spec/09_control_and_scalar_instructions.md R180, spec/21_oceth_link_and_the_hub.md
R376, spec/21_oceth_link_and_the_hub.md R378, spec/25_derailleur_and_telemetry.md R426, spec/25_derailleur_and_telemetry.md
R428) -/
def Obligations.ResetState : Prop :=
  let s := State.reset
  s.issue = none ∧ s.mem = [] ∧ Memory.wf s.mem = true ∧ s.dev = 0 ∧ s.qs = [] ∧ s.gangs = [] ∧ s.hub.rx = [] ∧ s.sec.recovery = false ∧
  (∀ c, let k := coreAt s c
    k.q.running = false ∧ k.bind = none ∧ k.r.pbc = 0 ∧ k.r.ssn = 0 ∧ k.r.scr = 0 ∧ k.r.check = 0 ∧ k.r.alnLoss = 0 ∧ k.r.cvtLoss = 0 ∧ k.r.tok = 0 ∧
    k.r.loops = [] ∧ k.f = Flight.reset ∧ (∀ n, ctGet k n = 0) ∧ (∀ n, sreg k n = 0) ∧ (∀ n, n < 16 → (preg k n = true ↔ n = 0)) ∧
    (∀ h, (handle k h).valid = false)) ∧
  (∀ d, routeHops s d = none) ∧ (∀ n, (trunkAt s n).state = 0 ∧ (trunkAt s n).credS = 512) ∧
  barRd s 0x00050000 = BitVec.ofNat 64 (2 ^ 63 + 200 * 2 ^ 50 + 200 * 2 ^ 38 + 2 * 2 ^ 30) ∧ barRd s 0x00050008 = 0x4B382C2018100804#64 ∧
  (∀ a, (memBytes s.mem a 1) = [0]) ∧ ∀ c ∈ s.mem, c.1 < 2 ^ 39

/-- With an event at the head of the agenda, a step is exec of it, the bundle it began run to its commit, and what settles at once;
with none it is the cycle of the next core, or after the last core an event of the machine and the clock. The cycle of a core
retires what has finished, takes the bundle fetch of one that runs, and counts the powers of the cycle. That a cycle is one step
of each core in turn, that the agenda names what happens and that an event may be named at any time are choices of the model
(logs 2, 3, 20). A bundle with one nonzero slot whose word decodes to i, and which the checks let pass, gives the one operation
i in that slot; a fetch that lets a bundle go and no launch or replayed decision that holds it puts up all its operations; they
are run by exec one after another, C first, each with the core as it stood before the bundle (its scratchpad with the rows that
the drain port writes in the cycle), and then the bundle commits. (derived: spec/08_bundle_format_and_opcode_map.md R138,
spec/08_bundle_format_and_opcode_map.md R141, spec/08_bundle_format_and_opcode_map.md R144,
spec/08_bundle_format_and_opcode_map.md R145, spec/08_bundle_format_and_opcode_map.md R447,
spec/06_counters_versions_and_order.md R110) -/
def Obligations.StepRunsDecoded : Prop :=
  (∀ (s : State) (i : Instr) (l : List Instr), s.agenda = i :: l → step s = close (match exec i { s with agenda := l } with
    | .next t => runBundle t
    | r => r)) ∧
  (∀ (s : State), s.agenda = [] → s.turn < 192 → step s = close (match exec (.bundleFetch s.turn) { s with turn := s.turn + 1 } with
    | .next t => runBundle t
    | r => r)) ∧
  (∀ (s : State), s.agenda = [] → 192 ≤ s.turn → step s = close (.next (clockEdge (firstChange s (ownEvents s))))) ∧
  (∀ (s : State) (c : Nat), c < 192 → s.issue = none → (coreAt s c).q.last ≤ s.now → rplMode s ≠ 2 →
    let t := modCore s c fun k =>
      let k := ratBegin (fillFinish (xRetire k))
      { k with lines := if 0 < k.q.bankHold then k.lines else [], q := { k.q with last := s.now + 1, heldBy := 0 } }
    let runs := (coreAt t c).q.running = true ∧ (coreAt t c).halted = false ∧ (coreAt t c).q.wake ≤ t.dev
    (runs → exec (.bundleFetch c) s = .next (countPower (runCycle t c) c)) ∧
    (¬runs → exec (.bundleFetch c) s = .next (countPower t c))) ∧
  (∀ (s : State) (c : Nat), 192 ≤ c ∨ s.issue ≠ none ∨ s.now < (coreAt s c).q.last → exec (.bundleFetch c) s = .next s) ∧
  (∀ (k : Core) (x : Nat) (i : Instr), ∀ e ∈ slotTable, 0 < x → x < 2 ^ e.2.2.2 → decodeSlot e.2.1 x = .ok i → progOk k i = true →
    bundleFault [(e.1, i)] = none → checkBundle k (BitVec.ofNat 384 (x * 2 ^ e.2.2.1)) = .inr [(e.1, i)]) ∧
  (∀ (s v u : State) (c dx words : Nat) (b : BitVec 384) (ops : List SlotOp), nextBundle (2 ^ 64) s c = .go u b dx words ops →
      launchDue (fun _ => true) 9 u c = (.ok, v) → rplMode v = 0 →
    issueCycle s c = beginIssue v c (coreAt u c) b dx words ops ∧
    ((coreAt v c).q.skipMask = 0 → let k := beginPass (coreAt v c)
      ∃ j, (issueCycle s c).issue = some j ∧ j.core = c ∧ j.pc = k.q.pc ∧ j.before.q = k.q ∧ j.before.f = k.f ∧ j.before.ct = k.ct ∧
        j.before.r = { k.r with st := (coreAt u c).r.st } ∧ j.before.m = { k.m with spad := j.before.m.spad, spadEp := j.before.m.spadEp } ∧
        j.todo = [11, 10, 9, 4, 3, 2, 8, 7, 6, 5, 1, 0].filterMap fun n => ops.find? fun o => o.1 == n)) ∧
  (∀ (s : State) (j : Issue) (n : Nat) (i : Instr) (l : List SlotOp), s.issue = some j → j.todo = (n, i) :: l →
    runBundle s = match exec i { s with issue := some { j with todo := l, slot := n } } with
      | .next t => (match runSlots l.length t with | .next u => .next (commitBundle u) | r => r)
      | r => r)

/-- The slot words that the spec works out bit by bit decode to their operations: add s8, s8, s9; (p3) vfma.bf16 v130, T3.col5, v7;
cpy tk2, s49 after(tk0, tk5); cpy tk1, s49; ctadd tk3, s50, s51 after(tk1); ctpoll tk4, p6, s48, s52; tret. A reserved opcode of
each map, a field shown as zero that is not, a vector operand from 640 on, tile 5 and a token consumed and produced at once are
refused. (derived: spec/08_bundle_format_and_opcode_map.md R145, spec/08_bundle_format_and_opcode_map.md R148,
spec/08_bundle_format_and_opcode_map.md R150, spec/08_bundle_format_and_opcode_map.md R154,
spec/08_bundle_format_and_opcode_map.md R155, spec/08_bundle_format_and_opcode_map.md R156,
spec/08_bundle_format_and_opcode_map.md R158, spec/08_bundle_format_and_opcode_map.md R159,
spec/08_bundle_format_and_opcode_map.md R161, spec/08_bundle_format_and_opcode_map.md R162) -/
def Obligations.SampleWordsDecode : Prop :=
  (∀ e ∈ [(SlotClass.s, 0x0048209, Instr.add 0 8 8 9), (.v, 0x312104B0A00E, .vfma 3 1 0 0x082 0x585 0x007), (.a, 0x004A0501, .cpy 0 2 2 0 5 0 1),
      (.a, 0x00440001, .cpy 0 1 0 0 0 0 1), (.a, 0x034D1032, .ctadd 0 3 1 1 0 3 2), (.a, 0x03D00640, .ctpoll 0 4 0 0 6 4 0), (.c, 0x0A0000, .tret 0)],
    decodeSlot e.1 e.2.1 = .ok e.2.2) ∧
  (decodeTableWord 28 0x0048209 = some (.add 0 8 8 9)) ∧ (decodeTableWord 48 0x312104B0A00E = some (.vfma 3 1 0 0x082 0x585 0x007)) ∧
  (∀ e ∈ [(SlotClass.c, 0x19 * 2 ^ 15), (.s, 0x2F * 2 ^ 18), (.l, 0x0B * 2 ^ 19), (.w, 0x0A * 2 ^ 19), (.g, 0x1D * 2 ^ 22), (.x, 0x0C * 2 ^ 23),
      (.v, 0x5A * 2 ^ 37), (.p, 0xF * 2 ^ 16), (.u, 0xF * 2 ^ 16), (.a, 0x12 * 2 ^ 22), (.s, 0x18 * 2 ^ 18 + 1), (.v, 2 * 2 ^ 37 + 640 * 2 ^ 25),
      (.x, 8 * 2 ^ 23 + 5 * 2 ^ 16), (.a, 1 * 2 ^ 22 + 2 * 2 ^ 18 + 1 * 2 ^ 16 + 2 * 2 ^ 12)], ∃ r, decodeSlot e.1 e.2 = .err r)

/-- In every class of slot a word with opcode 0 decodes to the nop of the class under its predicate when every bit below the
predicate is zero, the start delay of X among them, and is refused when one is not. The nop changes nothing when it executes.
With a nonzero predicate it stands among the occupied slots of its bundle, and its guard is the predicate, which the look-ahead
nullifier reads. (stated: spec/08_bundle_format_and_opcode_map.md R140) -/
def Obligations.NopInEverySlot : Prop :=
  ∀ (p y : Nat), p < 16 → ∀ e ∈ [(SlotClass.c, 24, 15, Instr.cNop p), (.s, 28, 18, .sNop p), (.l, 28, 19, .lNop p), (.w, 28, 19, .wNop p),
      (.g, 32, 22, .gNop p), (.x, 32, 23, .xNop p), (.v, 48, 37, .vNop p), (.p, 24, 16, .pNop p), (.u, 24, 16, .uNop p), (.a, 32, 22, .aNop p)],
    y < 2 ^ e.2.2.1 →
    (y = 0 → decodeSlot e.1 (p * 2 ^ (e.2.1 - 4) + y) = .ok e.2.2.2) ∧
    (y ≠ 0 → ∃ r, decodeSlot e.1 (p * 2 ^ (e.2.1 - 4) + y) = .err r) ∧
    (∀ s, exec e.2.2.2 s = .next s) ∧ (foot e.2.2.2).guard = p ∧
    (∀ (c : Core) (b : BitVec 384) (n lo : Nat) (l : List (Nat × SlotClass × Nat × Nat)) (acc : List SlotOp), p ≠ 0 →
      slotField b lo e.2.1 = p * 2 ^ (e.2.1 - 4) → decodeSlots c b ((n, e.1, lo, e.2.1) :: l) acc = decodeSlots c b l ((n, e.2.2.2) :: acc))

/-- For every opcode of the A map and every value of its fields: the word decodes exactly when each token field beyond the count is
zero, the count is within the format and no consumed token is the produced one; it then names the first count fields as
consumed. Otherwise the slot is refused, and a bundle that holds it fails its load check against slot index 0 with ILLEGAL_SLOT.
A token named twice among the consumed is consumed once: the command waits as if it were named once. A nop produces no token: it
changes nothing. (stated: spec/08_bundle_format_and_opcode_map.md R162) -/
def Obligations.TokensOfAsynchronousOperations : Prop :=
  (∀ (p r n a b c x : Nat), p < 16 → r < 16 → n < 4 → a < 16 → b < 16 → c < 16 → x < 16 →
    let head := fun (op : Nat) => p * 2 ^ 28 + op * 2 ^ 22 + r * 2 ^ 18 + n * 2 ^ 16
    let refused := fun (w : Nat) => (∃ e, decodeSlot .a w = .err e) ∧ ∀ k, checkBundle k (BitVec.ofNat 384 w) = .inl (0x01, 0)
    let ends := (n < 1 → a = 0) ∧ (n < 2 → b = 0) ∧ (n < 3 → c = 0)
    let other := ¬(r ∈ [a, b, c].take n)
    (∀ e ∈ [(0x01, Instr.cpy p r n a b c x), (0x02, .gat p r n a b c x), (0x03, .sct p r n a b c x), (0x04, .mcastQ p r n a b c x),
        (0x05, .rst p r n a b c x), (0x06, .rld p r n a b c x), (0x07, .rred p r n a b c x), (0x09, .coll p r n a b c x),
        (0x0A, .disp p r n a b c x), (0x0B, .ccpy p r n a b c x), (0x0C, .task p r n a b c x), (0x10, .frecRd p r n a b c x),
        (0x11, .frecWr p r n a b c x)],
      let w := head e.1 + a * 2 ^ 12 + b * 2 ^ 8 + c * 2 ^ 4 + x
      (ends → other → decodeSlot .a w = .ok e.2) ∧ (¬(ends ∧ other) → refused w)) ∧
    (let w := head 0x08 + a * 2 ^ 12 + b * 2 ^ 8 + c * 2 ^ 4
     (ends → other → decodeSlot .a w = .ok (.rflush p r n a b c)) ∧ (¬(ends ∧ other) → refused w)) ∧
    (∀ e ∈ [(0x0D, Instr.ctadd p r n a b c x), (0x0E, .ctraise p r n a b c x)],
      let w := head e.1 + a * 2 ^ 12 + b * 2 ^ 8 + c * 2 ^ 4 + x
      let good := n ≤ 2 ∧ (n < 1 → a = 0) ∧ (n < 2 → b = 0) ∧ ¬(r ∈ [a, b].take n)
      (good → decodeSlot .a w = .ok e.2) ∧ (¬good → refused w)) ∧
    (b ≠ 0 →
      let w := head 0x0F + a * 2 ^ 12 + b * 2 ^ 8 + c * 2 ^ 4 + x
      let good := n ≤ 1 ∧ (n < 1 → a = 0) ∧ ¬(r ∈ [a].take n)
      (good → decodeSlot .a w = .ok (.ctpoll p r n a b c x)) ∧ (¬good → refused w))) ∧
  (∀ (s : State) (c : Nat) (x : Cmd), mayStart s c { x with cons := x.cons.eraseDups } = mayStart s c x) ∧
  (∀ (s : State) (p : Nat), exec (.aNop p) s = .next s)

/-- Whatever the state, exec of any operation or event answers a next state: nothing is refused. A step answers a next state too,
whose listed memory lies below the 2^39 bytes of HBM: an invariant that every step keeps. That bytes beyond HBM are not stored
is the choice of the model (log 95). (derived: spec/01_cores_quads_and_the_hub.md R12, spec/08_bundle_format_and_opcode_map.md
R145) -/
def Obligations.EveryStepAnswers : Prop :=
  (∀ (i : Instr) (s : State), ∃ t, exec i s = .next t) ∧
  (∀ (s : State), ∃ t, step s = .next t ∧ ∀ e ∈ t.mem, e.1 < 2 ^ 39)

/-- For every operation of the opcode table that stands in a slot, with every operand the encoding admits: its word decodes, in the
map of its slot, to the operation itself. (derived: spec/08_bundle_format_and_opcode_map.md R138,
spec/08_bundle_format_and_opcode_map.md R147, spec/08_bundle_format_and_opcode_map.md R149,
spec/08_bundle_format_and_opcode_map.md R153, spec/08_bundle_format_and_opcode_map.md R155,
spec/08_bundle_format_and_opcode_map.md R156, spec/08_bundle_format_and_opcode_map.md R157,
spec/08_bundle_format_and_opcode_map.md R159, spec/08_bundle_format_and_opcode_map.md R160) -/
def Obligations.DecodeEncodeAgree : Prop :=
  ∀ i : Instr, Sys2Proof.Laws.RoundTrip.Statement i

end
end

