-- ==== Sys2Proof/Laws/Dispatch.lean ====
section
/-! SUPPORT. Laws/Dispatch: what `exec` runs for each constructor, one equation each. -/

namespace Sys2Proof.Machine

@[simp] theorem exec_cNop p s : exec (.cNop p) s = execCNop p s := rfl
@[simp] theorem exec_pbr p b r s : exec (.pbr p b r) s = execPbr p b r s := rfl
@[simp] theorem exec_pbrS p b a s : exec (.pbrS p b a) s = execPbrS p b a s := rfl
@[simp] theorem exec_br p b q s : exec (.br p b q) s = execBr p b q s := rfl
@[simp] theorem exec_brN p b q s : exec (.brN p b q) s = execBrN p b q s := rfl
@[simp] theorem exec_call p b s : exec (.call p b) s = execCall p b s := rfl
@[simp] theorem exec_ret p s : exec (.ret p) s = execRet p s := rfl
@[simp] theorem exec_loop p i_ s : exec (.loop p i_) s = execLoop p i_ s := rfl
@[simp] theorem exec_loopSwp p i_ s : exec (.loopSwp p i_) s = execLoopSwp p i_ s := rfl
@[simp] theorem exec_lbrk p i_ s : exec (.lbrk p i_) s = execLbrk p i_ s := rfl
@[simp] theorem exec_ctwait p c a s : exec (.ctwait p c a) s = execCtwait p c a s := rfl
@[simp] theorem exec_ctwaitT p c a s : exec (.ctwaitT p c a) s = execCtwaitT p c a s := rfl
@[simp] theorem exec_ctwaitG p a s : exec (.ctwaitG p a) s = execCtwaitG p a s := rfl
@[simp] theorem exec_ctwaitGt p a s : exec (.ctwaitGt p a) s = execCtwaitGt p a s := rfl
@[simp] theorem exec_tkwait p x y z s : exec (.tkwait p x y z) s = execTkwait p x y z s := rfl
@[simp] theorem exec_sstep p s : exec (.sstep p) s = execSstep p s := rfl
@[simp] theorem exec_yield p s : exec (.yield p) s = execYield p s := rfl
@[simp] theorem exec_halt p s : exec (.halt p) s = execHalt p s := rfl
@[simp] theorem exec_brk p n s : exec (.brk p n) s = execBrk p n s := rfl
@[simp] theorem exec_trap p n s : exec (.trap p n) s = execTrap p n s := rfl
@[simp] theorem exec_tret p s : exec (.tret p) s = execTret p s := rfl
@[simp] theorem exec_sysrd p d r s : exec (.sysrd p d r) s = execSysrd p d r s := rfl
@[simp] theorem exec_syswr p a r s : exec (.syswr p a r) s = execSyswr p a r s := rfl
@[simp] theorem exec_wheel p n s : exec (.wheel p n) s = execWheel p n s := rfl
@[simp] theorem exec_pwrHint p n s : exec (.pwrHint p n) s = execPwrHint p n s := rfl
@[simp] theorem exec_sNop p s : exec (.sNop p) s = execSNop p s := rfl
@[simp] theorem exec_add p d a b s : exec (.add p d a b) s = execAdd p d a b s := rfl
@[simp] theorem exec_sub p d a b s : exec (.sub p d a b) s = execSub p d a b s := rfl
@[simp] theorem exec_mul p d a b s : exec (.mul p d a b) s = execMul p d a b s := rfl
@[simp] theorem exec_mulh p d a b s : exec (.mulh p d a b) s = execMulh p d a b s := rfl
@[simp] theorem exec_mulhu p d a b s : exec (.mulhu p d a b) s = execMulhu p d a b s := rfl
@[simp] theorem exec_div p d a b s : exec (.div p d a b) s = execDiv p d a b s := rfl
@[simp] theorem exec_divu p d a b s : exec (.divu p d a b) s = execDivu p d a b s := rfl
@[simp] theorem exec_rem p d a b s : exec (.rem p d a b) s = execRem p d a b s := rfl
@[simp] theorem exec_remu p d a b s : exec (.remu p d a b) s = execRemu p d a b s := rfl
@[simp] theorem exec_and p d a b s : exec (.and p d a b) s = execAnd p d a b s := rfl
@[simp] theorem exec_or p d a b s : exec (.or p d a b) s = execOr p d a b s := rfl
@[simp] theorem exec_xor p d a b s : exec (.xor p d a b) s = execXor p d a b s := rfl
@[simp] theorem exec_andn p d a b s : exec (.andn p d a b) s = execAndn p d a b s := rfl
@[simp] theorem exec_sll p d a b s : exec (.sll p d a b) s = execSll p d a b s := rfl
@[simp] theorem exec_srl p d a b s : exec (.srl p d a b) s = execSrl p d a b s := rfl
@[simp] theorem exec_sra p d a b s : exec (.sra p d a b) s = execSra p d a b s := rfl
@[simp] theorem exec_slli p d a n s : exec (.slli p d a n) s = execSlli p d a n s := rfl
@[simp] theorem exec_srli p d a n s : exec (.srli p d a n) s = execSrli p d a n s := rfl
@[simp] theorem exec_srai p d a n s : exec (.srai p d a n) s = execSrai p d a n s := rfl
@[simp] theorem exec_min p d a b s : exec (.min p d a b) s = execMin p d a b s := rfl
@[simp] theorem exec_max p d a b s : exec (.max p d a b) s = execMax p d a b s := rfl
@[simp] theorem exec_minu p d a b s : exec (.minu p d a b) s = execMinu p d a b s := rfl
@[simp] theorem exec_maxu p d a b s : exec (.maxu p d a b) s = execMaxu p d a b s := rfl
@[simp] theorem exec_popc p d a s : exec (.popc p d a) s = execPopc p d a s := rfl
@[simp] theorem exec_clz p d a s : exec (.clz p d a) s = execClz p d a s := rfl
@[simp] theorem exec_cmpEq p k a b s : exec (.cmpEq p k a b) s = execCmpEq p k a b s := rfl
@[simp] theorem exec_cmpLt p k a b s : exec (.cmpLt p k a b) s = execCmpLt p k a b s := rfl
@[simp] theorem exec_cmpLtu p k a b s : exec (.cmpLtu p k a b) s = execCmpLtu p k a b s := rfl
@[simp] theorem exec_cmpLe p k a b s : exec (.cmpLe p k a b) s = execCmpLe p k a b s := rfl
@[simp] theorem exec_cmpLeu p k a b s : exec (.cmpLeu p k a b) s = execCmpLeu p k a b s := rfl
@[simp] theorem exec_plog p d a b t s : exec (.plog p d a b t) s = execPlog p d a b t s := rfl
@[simp] theorem exec_sel p k d a b s : exec (.sel p k d a b) s = execSel p k d a b s := rfl
@[simp] theorem exec_addi p d i_ s : exec (.addi p d i_) s = execAddi p d i_ s := rfl
@[simp] theorem exec_li p d i_ s : exec (.li p d i_) s = execLi p d i_ s := rfl
@[simp] theorem exec_lic p d i_ s : exec (.lic p d i_) s = execLic p d i_ s := rfl
@[simp] theorem exec_kconst p d i_ s : exec (.kconst p d i_) s = execKconst p d i_ s := rfl
@[simp] theorem exec_hmk p d i_ s : exec (.hmk p d i_) s = execHmk p d i_ s := rfl
@[simp] theorem exec_hsz p d i_ s : exec (.hsz p d i_) s = execHsz p d i_ s := rfl
@[simp] theorem exec_hrow p d i_ s : exec (.hrow p d i_) s = execHrow p d i_ s := rfl
@[simp] theorem exec_mfpr p d s : exec (.mfpr p d) s = execMfpr p d s := rfl
@[simp] theorem exec_mtpr p a s : exec (.mtpr p a) s = execMtpr p a s := rfl
@[simp] theorem exec_mflc p d n s : exec (.mflc p d n) s = execMflc p d n s := rfl
@[simp] theorem exec_mfb p d n s : exec (.mfb p d n) s = execMfb p d n s := rfl
@[simp] theorem exec_mtb p n a s : exec (.mtb p n a) s = execMtb p n a s := rfl
@[simp] theorem exec_stsetF p t s_ a s : exec (.stsetF p t s_ a) s = execStsetF p t s_ a s := rfl
@[simp] theorem exec_stsetZ p t s : exec (.stsetZ p t) s = execStsetZ p t s := rfl
@[simp] theorem exec_stsetCp p t m s : exec (.stsetCp p t m) s = execStsetCp p t m s := rfl
@[simp] theorem exec_mtmm p n a s : exec (.mtmm p n a) s = execMtmm p n a s := rfl
@[simp] theorem exec_mfmm p d n s : exec (.mfmm p d n) s = execMfmm p d n s := rfl
@[simp] theorem exec_fadd p d a b s : exec (.fadd p d a b) s = execFadd p d a b s := rfl
@[simp] theorem exec_fsub p d a b s : exec (.fsub p d a b) s = execFsub p d a b s := rfl
@[simp] theorem exec_fmul p d a b s : exec (.fmul p d a b) s = execFmul p d a b s := rfl
@[simp] theorem exec_fdiv p d a b s : exec (.fdiv p d a b) s = execFdiv p d a b s := rfl
@[simp] theorem exec_fsqrt p d a s : exec (.fsqrt p d a) s = execFsqrt p d a s := rfl
@[simp] theorem exec_fmin p d a b s : exec (.fmin p d a b) s = execFmin p d a b s := rfl
@[simp] theorem exec_fmax p d a b s : exec (.fmax p d a b) s = execFmax p d a b s := rfl
@[simp] theorem exec_fcmpEq p k a b s : exec (.fcmpEq p k a b) s = execFcmpEq p k a b s := rfl
@[simp] theorem exec_fcmpLt p k a b s : exec (.fcmpLt p k a b) s = execFcmpLt p k a b s := rfl
@[simp] theorem exec_fcmpLe p k a b s : exec (.fcmpLe p k a b) s = execFcmpLe p k a b s := rfl
@[simp] theorem exec_fcmpUn p k a b s : exec (.fcmpUn p k a b) s = execFcmpUn p k a b s := rfl
@[simp] theorem exec_fcvtD2l p d a s : exec (.fcvtD2l p d a) s = execFcvtD2l p d a s := rfl
@[simp] theorem exec_fcvtL2d p d a s : exec (.fcvtL2d p d a) s = execFcvtL2d p d a s := rfl
@[simp] theorem exec_fcvtD2s p d a s : exec (.fcvtD2s p d a) s = execFcvtD2s p d a s := rfl
@[simp] theorem exec_fcvtS2d p d a s : exec (.fcvtS2d p d a) s = execFcvtS2d p d a s := rfl
@[simp] theorem exec_fabs p d a s : exec (.fabs p d a) s = execFabs p d a s := rfl
@[simp] theorem exec_fneg p d a s : exec (.fneg p d a) s = execFneg p d a s := rfl
@[simp] theorem exec_fsGcd p d a b s : exec (.fsGcd p d a b) s = execFsGcd p d a b s := rfl
@[simp] theorem exec_fsMk p d a b s : exec (.fsMk p d a b) s = execFsMk p d a b s := rfl
@[simp] theorem exec_fsMed p d a b s : exec (.fsMed p d a b) s = execFsMed p d a b s := rfl
@[simp] theorem exec_fsNear p d a b s : exec (.fsNear p d a b) s = execFsNear p d a b s := rfl
@[simp] theorem exec_fsNum p d a s : exec (.fsNum p d a) s = execFsNum p d a s := rfl
@[simp] theorem exec_fsDen p d a s : exec (.fsDen p d a) s = execFsDen p d a s := rfl
@[simp] theorem exec_fsClass p d a s : exec (.fsClass p d a) s = execFsClass p d a s := rfl
@[simp] theorem exec_fsCanon p d a s : exec (.fsCanon p d a) s = execFsCanon p d a s := rfl
@[simp] theorem exec_fsCvtF32 p d a s : exec (.fsCvtF32 p d a) s = execFsCvtF32 p d a s := rfl
@[simp] theorem exec_fsCvtE8 p d a s : exec (.fsCvtE8 p d a) s = execFsCvtE8 p d a s := rfl
@[simp] theorem exec_fsPack32 p d a s : exec (.fsPack32 p d a) s = execFsPack32 p d a s := rfl
@[simp] theorem exec_fsUnpk32 p d a s : exec (.fsUnpk32 p d a) s = execFsUnpk32 p d a s := rfl
@[simp] theorem exec_rationalResult c s : exec (.rationalResult c) s = execRationalResult c s := rfl
@[simp] theorem exec_lNop p s : exec (.lNop p) s = execLNop p s := rfl
@[simp] theorem exec_vld32 p v t s : exec (.vld32 p v t) s = execVld32 p v t s := rfl
@[simp] theorem exec_vld16 p v t s : exec (.vld16 p v t) s = execVld16 p v t s := rfl
@[simp] theorem exec_qld p q t s : exec (.qld p q t) s = execQld p q t s := rfl
@[simp] theorem exec_ldsB p d a v k s : exec (.ldsB p d a v k) s = execLdsB p d a v k s := rfl
@[simp] theorem exec_ldsH p d a v k s : exec (.ldsH p d a v k) s = execLdsH p d a v k s := rfl
@[simp] theorem exec_ldsW p d a v k s : exec (.ldsW p d a v k) s = execLdsW p d a v k s := rfl
@[simp] theorem exec_ldsD p d a v k s : exec (.ldsD p d a v k) s = execLdsD p d a v k s := rfl
@[simp] theorem exec_ofill p s_ t v k s : exec (.ofill p s_ t v k) s = execOfill p s_ t v k s := rfl
@[simp] theorem exec_halloc p h d a s : exec (.halloc p h d a) s = execHalloc p h d a s := rfl
@[simp] theorem exec_hfree p h s : exec (.hfree p h) s = execHfree p h s := rfl
@[simp] theorem exec_wNop p s : exec (.wNop p) s = execWNop p s := rfl
@[simp] theorem exec_vst32 p v t s : exec (.vst32 p v t) s = execVst32 p v t s := rfl
@[simp] theorem exec_vst16 p v t s : exec (.vst16 p v t) s = execVst16 p v t s := rfl
@[simp] theorem exec_qst p q t s : exec (.qst p q t) s = execQst p q t s := rfl
@[simp] theorem exec_stsB p d a v k s : exec (.stsB p d a v k) s = execStsB p d a v k s := rfl
@[simp] theorem exec_stsH p d a v k s : exec (.stsH p d a v k) s = execStsH p d a v k s := rfl
@[simp] theorem exec_stsW p d a v k s : exec (.stsW p d a v k) s = execStsW p d a v k s := rfl
@[simp] theorem exec_stsD p d a v k s : exec (.stsD p d a v k) s = execStsD p d a v k s := rfl
@[simp] theorem exec_oclaim p s_ s : exec (.oclaim p s_) s = execOclaim p s_ s := rfl
@[simp] theorem exec_orel p s_ s : exec (.orel p s_) s = execOrel p s_ s := rfl
@[simp] theorem exec_fillComplete c s : exec (.fillComplete c) s = execFillComplete c s := rfl
@[simp] theorem exec_gNop p s : exec (.gNop p) s = execGNop p s := rfl
@[simp] theorem exec_ldB p d a v t w u s : exec (.ldB p d a v t w u) s = execLdB p d a v t w u s := rfl
@[simp] theorem exec_ldH p d a v t w u s : exec (.ldH p d a v t w u) s = execLdH p d a v t w u s := rfl
@[simp] theorem exec_ldW p d a v t w u s : exec (.ldW p d a v t w u) s = execLdW p d a v t w u s := rfl
@[simp] theorem exec_ldD p d a v t w u s : exec (.ldD p d a v t w u) s = execLdD p d a v t w u s := rfl
@[simp] theorem exec_stB p d a v t w u s : exec (.stB p d a v t w u) s = execStB p d a v t w u s := rfl
@[simp] theorem exec_stH p d a v t w u s : exec (.stH p d a v t w u) s = execStH p d a v t w u s := rfl
@[simp] theorem exec_stW p d a v t w u s : exec (.stW p d a v t w u) s = execStW p d a v t w u s := rfl
@[simp] theorem exec_stD p d a v t w u s : exec (.stD p d a v t w u) s = execStD p d a v t w u s := rfl
@[simp] theorem exec_ldAcqW p d a v t w u s : exec (.ldAcqW p d a v t w u) s = execLdAcqW p d a v t w u s := rfl
@[simp] theorem exec_ldAcqD p d a v t w u s : exec (.ldAcqD p d a v t w u) s = execLdAcqD p d a v t w u s := rfl
@[simp] theorem exec_stRelW p d a v t w u s : exec (.stRelW p d a v t w u) s = execStRelW p d a v t w u s := rfl
@[simp] theorem exec_stRelD p d a v t w u s : exec (.stRelD p d a v t w u) s = execStRelD p d a v t w u s := rfl
@[simp] theorem exec_ldV p d a b s : exec (.ldV p d a b) s = execLdV p d a b s := rfl
@[simp] theorem exec_stV p d a b s : exec (.stV p d a b) s = execStV p d a b s := rfl
@[simp] theorem exec_amoAdd p d a b s : exec (.amoAdd p d a b) s = execAmoAdd p d a b s := rfl
@[simp] theorem exec_amoMax p d a b s : exec (.amoMax p d a b) s = execAmoMax p d a b s := rfl
@[simp] theorem exec_amoMaxu p d a b s : exec (.amoMaxu p d a b) s = execAmoMaxu p d a b s := rfl
@[simp] theorem exec_amoMin p d a b s : exec (.amoMin p d a b) s = execAmoMin p d a b s := rfl
@[simp] theorem exec_amoMinu p d a b s : exec (.amoMinu p d a b) s = execAmoMinu p d a b s := rfl
@[simp] theorem exec_amoAnd p d a b s : exec (.amoAnd p d a b) s = execAmoAnd p d a b s := rfl
@[simp] theorem exec_amoOr p d a b s : exec (.amoOr p d a b) s = execAmoOr p d a b s := rfl
@[simp] theorem exec_amoXor p d a b s : exec (.amoXor p d a b) s = execAmoXor p d a b s := rfl
@[simp] theorem exec_amoSwap p d a b s : exec (.amoSwap p d a b) s = execAmoSwap p d a b s := rfl
@[simp] theorem exec_amoCas p d a b s : exec (.amoCas p d a b) s = execAmoCas p d a b s := rfl
@[simp] theorem exec_amoScAdd p d a b s : exec (.amoScAdd p d a b) s = execAmoScAdd p d a b s := rfl
@[simp] theorem exec_amoScSwap p d a b s : exec (.amoScSwap p d a b) s = execAmoScSwap p d a b s := rfl
@[simp] theorem exec_amoScCas p d a b s : exec (.amoScCas p d a b) s = execAmoScCas p d a b s := rfl
@[simp] theorem exec_amoScMax p d a b s : exec (.amoScMax p d a b) s = execAmoScMax p d a b s := rfl
@[simp] theorem exec_amoScMin p d a b s : exec (.amoScMin p d a b) s = execAmoScMin p d a b s := rfl
@[simp] theorem exec_amoScPerform c i_ s : exec (.amoScPerform c i_) s = execAmoScPerform c i_ s := rfl
@[simp] theorem exec_fenceCore p s : exec (.fenceCore p) s = execFenceCore p s := rfl
@[simp] theorem exec_fenceQuad p s : exec (.fenceQuad p) s = execFenceQuad p s := rfl
@[simp] theorem exec_fenceDie p s : exec (.fenceDie p) s = execFenceDie p s := rfl
@[simp] theorem exec_fencePackage p s : exec (.fencePackage p) s = execFencePackage p s := rfl
@[simp] theorem exec_fenceFabric p s : exec (.fenceFabric p) s = execFenceFabric p s := rfl
@[simp] theorem exec_pf p a s : exec (.pf p a) s = execPf p a s := rfl
@[simp] theorem exec_wprobe p d a s : exec (.wprobe p d a) s = execWprobe p d a s := rfl
@[simp] theorem exec_gLoadReturn c i_ s : exec (.gLoadReturn c i_) s = execGLoadReturn c i_ s := rfl
@[simp] theorem exec_xNop p s : exec (.xNop p) s = execXNop p s := rfl
@[simp] theorem exec_mwld p l s_ m s : exec (.mwld p l s_ m) s = execMwld p l s_ m s := rfl
@[simp] theorem exec_mtrans p l s_ m s : exec (.mtrans p l s_ m) s = execMtrans p l s_ m s := rfl
@[simp] theorem exec_mma p l t s_ m s : exec (.mma p l t s_ m) s = execMma p l t s_ m s := rfl
@[simp] theorem exec_mmaAcc p l t s_ m s : exec (.mmaAcc p l t s_ m) s = execMmaAcc p l t s_ m s := rfl
@[simp] theorem exec_mmaTri p l t s_ m s : exec (.mmaTri p l t s_ m) s = execMmaTri p l t s_ m s := rfl
@[simp] theorem exec_mmaTriAcc p l t s_ m s : exec (.mmaTriAcc p l t s_ m) s = execMmaTriAcc p l t s_ m s := rfl
@[simp] theorem exec_mmaP p l s_ m s : exec (.mmaP p l s_ m) s = execMmaP p l s_ m s := rfl
@[simp] theorem exec_mzero p l t s : exec (.mzero p l t) s = execMzero p l t s := rfl
@[simp] theorem exec_mdrain p l t m s : exec (.mdrain p l t m) s = execMdrain p l t m s := rfl
@[simp] theorem exec_mdrainSp p l m s : exec (.mdrainSp p l m) s = execMdrainSp p l m s := rfl
@[simp] theorem exec_mdrainFab p l m s : exec (.mdrainFab p l m) s = execMdrainFab p l m s := rfl
@[simp] theorem exec_xOpLaunch c s : exec (.xOpLaunch c) s = execXOpLaunch c s := rfl
@[simp] theorem exec_xOpFinish c s : exec (.xOpFinish c) s = execXOpFinish c s := rfl
@[simp] theorem exec_drainRowPlaced c i_ s : exec (.drainRowPlaced c i_) s = execDrainRowPlaced c i_ s := rfl
@[simp] theorem exec_vNop p s : exec (.vNop p) s = execVNop p s := rfl
@[simp] theorem exec_vaddF p w t d a b s : exec (.vaddF p w t d a b) s = execVaddF p w t d a b s := rfl
@[simp] theorem exec_vsubF p w t d a b s : exec (.vsubF p w t d a b) s = execVsubF p w t d a b s := rfl
@[simp] theorem exec_vmulF p w t d a b s : exec (.vmulF p w t d a b) s = execVmulF p w t d a b s := rfl
@[simp] theorem exec_vfma p w t d a b s : exec (.vfma p w t d a b) s = execVfma p w t d a b s := rfl
@[simp] theorem exec_vminF p w t d a b s : exec (.vminF p w t d a b) s = execVminF p w t d a b s := rfl
@[simp] theorem exec_vmaxF p w t d a b s : exec (.vmaxF p w t d a b) s = execVmaxF p w t d a b s := rfl
@[simp] theorem exec_vabs p w t d a s : exec (.vabs p w t d a) s = execVabs p w t d a s := rfl
@[simp] theorem exec_vneg p w t d a s : exec (.vneg p w t d a) s = execVneg p w t d a s := rfl
@[simp] theorem exec_vcmpEqF p w t d a b s : exec (.vcmpEqF p w t d a b) s = execVcmpEqF p w t d a b s := rfl
@[simp] theorem exec_vcmpLtF p w t d a b s : exec (.vcmpLtF p w t d a b) s = execVcmpLtF p w t d a b s := rfl
@[simp] theorem exec_vcmpLeF p w t d a b s : exec (.vcmpLeF p w t d a b) s = execVcmpLeF p w t d a b s := rfl
@[simp] theorem exec_vrsumF p w t d a s : exec (.vrsumF p w t d a) s = execVrsumF p w t d a s := rfl
@[simp] theorem exec_vrmax p w t d a s : exec (.vrmax p w t d a) s = execVrmax p w t d a s := rfl
@[simp] theorem exec_vrmin p w t d a s : exec (.vrmin p w t d a) s = execVrmin p w t d a s := rfl
@[simp] theorem exec_vexp2 p w t d a s : exec (.vexp2 p w t d a) s = execVexp2 p w t d a s := rfl
@[simp] theorem exec_vlog2 p w t d a s : exec (.vlog2 p w t d a) s = execVlog2 p w t d a s := rfl
@[simp] theorem exec_vrcp p w t d a s : exec (.vrcp p w t d a) s = execVrcp p w t d a s := rfl
@[simp] theorem exec_vrsq p w t d a s : exec (.vrsq p w t d a) s = execVrsq p w t d a s := rfl
@[simp] theorem exec_vtanh p w t d a s : exec (.vtanh p w t d a) s = execVtanh p w t d a s := rfl
@[simp] theorem exec_vsilu p w t d a s : exec (.vsilu p w t d a) s = execVsilu p w t d a s := rfl
@[simp] theorem exec_vaddI p w t d a b s : exec (.vaddI p w t d a b) s = execVaddI p w t d a b s := rfl
@[simp] theorem exec_vsubI p w t d a b s : exec (.vsubI p w t d a b) s = execVsubI p w t d a b s := rfl
@[simp] theorem exec_vmulI p w t d a b s : exec (.vmulI p w t d a b) s = execVmulI p w t d a b s := rfl
@[simp] theorem exec_vminI p w t d a b s : exec (.vminI p w t d a b) s = execVminI p w t d a b s := rfl
@[simp] theorem exec_vmaxI p w t d a b s : exec (.vmaxI p w t d a b) s = execVmaxI p w t d a b s := rfl
@[simp] theorem exec_vand p w d a b s : exec (.vand p w d a b) s = execVand p w d a b s := rfl
@[simp] theorem exec_vor p w d a b s : exec (.vor p w d a b) s = execVor p w d a b s := rfl
@[simp] theorem exec_vxor p w d a b s : exec (.vxor p w d a b) s = execVxor p w d a b s := rfl
@[simp] theorem exec_vshl p w d a b s : exec (.vshl p w d a b) s = execVshl p w d a b s := rfl
@[simp] theorem exec_vshr p w d a b s : exec (.vshr p w d a b) s = execVshr p w d a b s := rfl
@[simp] theorem exec_vsra p w d a b s : exec (.vsra p w d a b) s = execVsra p w d a b s := rfl
@[simp] theorem exec_vcmpEqI p w d a b s : exec (.vcmpEqI p w d a b) s = execVcmpEqI p w d a b s := rfl
@[simp] theorem exec_vcmpLtI p w d a b s : exec (.vcmpLtI p w d a b) s = execVcmpLtI p w d a b s := rfl
@[simp] theorem exec_vrsumI p w t d a s : exec (.vrsumI p w t d a) s = execVrsumI p w t d a s := rfl
@[simp] theorem exec_vsel p w d a b s : exec (.vsel p w d a b) s = execVsel p w d a b s := rfl
@[simp] theorem exec_vmov p w d a s : exec (.vmov p w d a) s = execVmov p w d a s := rfl
@[simp] theorem exec_vbcast p w d a n s : exec (.vbcast p w d a n) s = execVbcast p w d a n s := rfl
@[simp] theorem exec_vperm p w d a b s : exec (.vperm p w d a b) s = execVperm p w d a b s := rfl
@[simp] theorem exec_vrot p w d a n s : exec (.vrot p w d a n) s = execVrot p w d a n s := rfl
@[simp] theorem exec_vrev p w d a s : exec (.vrev p w d a) s = execVrev p w d a s := rfl
@[simp] theorem exec_vcvtN p t d a h r s : exec (.vcvtN p t d a h r) s = execVcvtN p t d a h r s := rfl
@[simp] theorem exec_vcvtW p t d a h s : exec (.vcvtW p t d a h) s = execVcvtW p t d a h s := rfl
@[simp] theorem exec_vcvtFi p w t d a r s : exec (.vcvtFi p w t d a r) s = execVcvtFi p w t d a r s := rfl
@[simp] theorem exec_vcvtIf p w t d a r s : exec (.vcvtIf p w t d a r) s = execVcvtIf p w t d a r s := rfl
@[simp] theorem exec_vcvtNi p d a h s : exec (.vcvtNi p d a h) s = execVcvtNi p d a h s := rfl
@[simp] theorem exec_vcvtWi p d a h s : exec (.vcvtWi p d a h) s = execVcvtWi p d a h s := rfl
@[simp] theorem exec_resultLand c s : exec (.resultLand c) s = execResultLand c s := rfl
@[simp] theorem exec_pNop p s : exec (.pNop p) s = execPNop p s := rfl
@[simp] theorem exec_pkMxint8Mm14 p q k r s : exec (.pkMxint8Mm14 p q k r) s = execPkMxint8Mm14 p q k r s := rfl
@[simp] theorem exec_pkMxint8Mm15 p q k r s : exec (.pkMxint8Mm15 p q k r) s = execPkMxint8Mm15 p q k r s := rfl
@[simp] theorem exec_pkMxint6Mm14 p q k r s : exec (.pkMxint6Mm14 p q k r) s = execPkMxint6Mm14 p q k r s := rfl
@[simp] theorem exec_pkMxint6Mm15 p q k r s : exec (.pkMxint6Mm15 p q k r) s = execPkMxint6Mm15 p q k r s := rfl
@[simp] theorem exec_pkMxint4Mm14 p q k r s : exec (.pkMxint4Mm14 p q k r) s = execPkMxint4Mm14 p q k r s := rfl
@[simp] theorem exec_pkMxint4Mm15 p q k r s : exec (.pkMxint4Mm15 p q k r) s = execPkMxint4Mm15 p q k r s := rfl
@[simp] theorem exec_pkE4m3Mm14 p q k r s : exec (.pkE4m3Mm14 p q k r) s = execPkE4m3Mm14 p q k r s := rfl
@[simp] theorem exec_pkE4m3Mm15 p q k r s : exec (.pkE4m3Mm15 p q k r) s = execPkE4m3Mm15 p q k r s := rfl
@[simp] theorem exec_pkE5m2Mm14 p q k r s : exec (.pkE5m2Mm14 p q k r) s = execPkE5m2Mm14 p q k r s := rfl
@[simp] theorem exec_pkE5m2Mm15 p q k r s : exec (.pkE5m2Mm15 p q k r) s = execPkE5m2Mm15 p q k r s := rfl
@[simp] theorem exec_pkFp6Mm14 p q k r s : exec (.pkFp6Mm14 p q k r) s = execPkFp6Mm14 p q k r s := rfl
@[simp] theorem exec_pkFp6Mm15 p q k r s : exec (.pkFp6Mm15 p q k r) s = execPkFp6Mm15 p q k r s := rfl
@[simp] theorem exec_pkE2m1Mm14 p q k r s : exec (.pkE2m1Mm14 p q k r) s = execPkE2m1Mm14 p q k r s := rfl
@[simp] theorem exec_pkE2m1Mm15 p q k r s : exec (.pkE2m1Mm15 p q k r) s = execPkE2m1Mm15 p q k r s := rfl
@[simp] theorem exec_uNop p s : exec (.uNop p) s = execUNop p s := rfl
@[simp] theorem exec_unpkMxint8Mm14 p q k r s : exec (.unpkMxint8Mm14 p q k r) s = execUnpkMxint8Mm14 p q k r s := rfl
@[simp] theorem exec_unpkMxint8Mm15 p q k r s : exec (.unpkMxint8Mm15 p q k r) s = execUnpkMxint8Mm15 p q k r s := rfl
@[simp] theorem exec_unpkMxint6Mm14 p q k r s : exec (.unpkMxint6Mm14 p q k r) s = execUnpkMxint6Mm14 p q k r s := rfl
@[simp] theorem exec_unpkMxint6Mm15 p q k r s : exec (.unpkMxint6Mm15 p q k r) s = execUnpkMxint6Mm15 p q k r s := rfl
@[simp] theorem exec_unpkMxint4Mm14 p q k r s : exec (.unpkMxint4Mm14 p q k r) s = execUnpkMxint4Mm14 p q k r s := rfl
@[simp] theorem exec_unpkMxint4Mm15 p q k r s : exec (.unpkMxint4Mm15 p q k r) s = execUnpkMxint4Mm15 p q k r s := rfl
@[simp] theorem exec_unpkE4m3Mm14 p q k r s : exec (.unpkE4m3Mm14 p q k r) s = execUnpkE4m3Mm14 p q k r s := rfl
@[simp] theorem exec_unpkE4m3Mm15 p q k r s : exec (.unpkE4m3Mm15 p q k r) s = execUnpkE4m3Mm15 p q k r s := rfl
@[simp] theorem exec_unpkE5m2Mm14 p q k r s : exec (.unpkE5m2Mm14 p q k r) s = execUnpkE5m2Mm14 p q k r s := rfl
@[simp] theorem exec_unpkE5m2Mm15 p q k r s : exec (.unpkE5m2Mm15 p q k r) s = execUnpkE5m2Mm15 p q k r s := rfl
@[simp] theorem exec_unpkFp6Mm14 p q k r s : exec (.unpkFp6Mm14 p q k r) s = execUnpkFp6Mm14 p q k r s := rfl
@[simp] theorem exec_unpkFp6Mm15 p q k r s : exec (.unpkFp6Mm15 p q k r) s = execUnpkFp6Mm15 p q k r s := rfl
@[simp] theorem exec_unpkE2m1Mm14 p q k r s : exec (.unpkE2m1Mm14 p q k r) s = execUnpkE2m1Mm14 p q k r s := rfl
@[simp] theorem exec_unpkE2m1Mm15 p q k r s : exec (.unpkE2m1Mm15 p q k r) s = execUnpkE2m1Mm15 p q k r s := rfl
@[simp] theorem exec_aNop p s : exec (.aNop p) s = execANop p s := rfl
@[simp] theorem exec_cpy p r n a b c x s : exec (.cpy p r n a b c x) s = execCpy p r n a b c x s := rfl
@[simp] theorem exec_gat p r n a b c x s : exec (.gat p r n a b c x) s = execGat p r n a b c x s := rfl
@[simp] theorem exec_sct p r n a b c x s : exec (.sct p r n a b c x) s = execSct p r n a b c x s := rfl
@[simp] theorem exec_mcastQ p r n a b c x s : exec (.mcastQ p r n a b c x) s = execMcastQ p r n a b c x s := rfl
@[simp] theorem exec_rst p r n a b c x s : exec (.rst p r n a b c x) s = execRst p r n a b c x s := rfl
@[simp] theorem exec_rld p r n a b c x s : exec (.rld p r n a b c x) s = execRld p r n a b c x s := rfl
@[simp] theorem exec_rred p r n a b c x s : exec (.rred p r n a b c x) s = execRred p r n a b c x s := rfl
@[simp] theorem exec_rflush p r n a b c s : exec (.rflush p r n a b c) s = execRflush p r n a b c s := rfl
@[simp] theorem exec_coll p r n a b c x s : exec (.coll p r n a b c x) s = execColl p r n a b c x s := rfl
@[simp] theorem exec_disp p r n a b c x s : exec (.disp p r n a b c x) s = execDisp p r n a b c x s := rfl
@[simp] theorem exec_ccpy p r n a b c x s : exec (.ccpy p r n a b c x) s = execCcpy p r n a b c x s := rfl
@[simp] theorem exec_task p r n a b c x s : exec (.task p r n a b c x) s = execTask p r n a b c x s := rfl
@[simp] theorem exec_ctadd p r n a b y x s : exec (.ctadd p r n a b y x) s = execCtadd p r n a b y x s := rfl
@[simp] theorem exec_ctraise p r n a b y x s : exec (.ctraise p r n a b y x) s = execCtraise p r n a b y x s := rfl
@[simp] theorem exec_ctpoll p r n a d y x s : exec (.ctpoll p r n a d y x) s = execCtpoll p r n a d y x s := rfl
@[simp] theorem exec_frecRd p r n a b c x s : exec (.frecRd p r n a b c x) s = execFrecRd p r n a b c x s := rfl
@[simp] theorem exec_frecWr p r n a b c x s : exec (.frecWr p r n a b c x) s = execFrecWr p r n a b c x s := rfl
@[simp] theorem exec_engineCommandStart c i_ h e s : exec (.engineCommandStart c i_ h e) s = execEngineCommandStart c i_ h e s := rfl
@[simp] theorem exec_engineCommandComplete c i_ k s : exec (.engineCommandComplete c i_ k) s = execEngineCommandComplete c i_ k s := rfl
@[simp] theorem exec_collTransfer c i_ s : exec (.collTransfer c i_) s = execCollTransfer c i_ s := rfl
@[simp] theorem exec_dispClaim c i_ s : exec (.dispClaim c i_) s = execDispClaim c i_ s := rfl
@[simp] theorem exec_rredRetry c i_ s : exec (.rredRetry c i_) s = execRredRetry c i_ s := rfl
@[simp] theorem exec_rredTimeout c i_ s : exec (.rredTimeout c i_) s = execRredTimeout c i_ s := rfl
@[simp] theorem exec_placementAck c i_ s : exec (.placementAck c i_) s = execPlacementAck c i_ s := rfl
@[simp] theorem exec_deferredTrap c s : exec (.deferredTrap c) s = execDeferredTrap c s := rfl
@[simp] theorem exec_combiningEntryAgeFlush c i_ s : exec (.combiningEntryAgeFlush c i_) s = execCombiningEntryAgeFlush c i_ s := rfl
@[simp] theorem exec_counterWaitSatisfied c s : exec (.counterWaitSatisfied c) s = execCounterWaitSatisfied c s := rfl
@[simp] theorem exec_counterWaitTimeout c s : exec (.counterWaitTimeout c) s = execCounterWaitTimeout c s := rfl
@[simp] theorem exec_monitorPoll c s : exec (.monitorPoll c) s = execMonitorPoll c s := rfl
@[simp] theorem exec_versionSealWake c s : exec (.versionSealWake c) s = execVersionSealWake c s := rfl
@[simp] theorem exec_missingVersionTimeout c s : exec (.missingVersionTimeout c) s = execMissingVersionTimeout c s := rfl
@[simp] theorem exec_versionCapacityWake c s : exec (.versionCapacityWake c) s = execVersionCapacityWake c s := rfl
@[simp] theorem exec_versionCapacityTimeout c s : exec (.versionCapacityTimeout c) s = execVersionCapacityTimeout c s := rfl
@[simp] theorem exec_bundleFetch c s : exec (.bundleFetch c) s = execBundleFetch c s := rfl
@[simp] theorem exec_tileTaskRetire c s : exec (.tileTaskRetire c) s = execTileTaskRetire c s := rfl
@[simp] theorem exec_doorbellWrite f q v s : exec (.doorbellWrite f q v) s = execDoorbellWrite f q v s := rfl
@[simp] theorem exec_recordRead q h s : exec (.recordRead q h) s = execRecordRead q h s := rfl
@[simp] theorem exec_queueSlotRequest q s : exec (.queueSlotRequest q) s = execQueueSlotRequest q s := rfl
@[simp] theorem exec_dependencesMet q s : exec (.dependencesMet q) s = execDependencesMet q s := rfl
@[simp] theorem exec_gangPlacement q pick s : exec (.gangPlacement q pick) s = execGangPlacement q pick s := rfl
@[simp] theorem exec_quantumExpiry q s : exec (.quantumExpiry q) s = execQuantumExpiry q s := rfl
@[simp] theorem exec_preemptForcedStop c s : exec (.preemptForcedStop c) s = execPreemptForcedStop c s := rfl
@[simp] theorem exec_contextSave g s : exec (.contextSave g) s = execContextSave g s := rfl
@[simp] theorem exec_contextRestore g ok pick s : exec (.contextRestore g ok pick) s = execContextRestore g ok pick s := rfl
@[simp] theorem exec_ctxCreate c s : exec (.ctxCreate c) s = execCtxCreate c s := rfl
@[simp] theorem exec_ctxDestroy c s : exec (.ctxDestroy c) s = execCtxDestroy c s := rfl
@[simp] theorem exec_qBind q s : exec (.qBind q) s = execQBind q s := rfl
@[simp] theorem exec_qTeardownDrain q s : exec (.qTeardownDrain q) s = execQTeardownDrain q s := rfl
@[simp] theorem exec_qTeardownKill q s : exec (.qTeardownKill q) s = execQTeardownKill q s := rfl
@[simp] theorem exec_qTeardownFreeze q s : exec (.qTeardownFreeze q) s = execQTeardownFreeze q s := rfl
@[simp] theorem exec_qRestore q s : exec (.qRestore q) s = execQRestore q s := rfl
@[simp] theorem exec_preempt g s : exec (.preempt g) s = execPreempt g s := rfl
@[simp] theorem exec_resume g s : exec (.resume g) s = execResume g s := rfl
@[simp] theorem exec_derailleurEvaluation s : exec (.derailleurEvaluation) s = execDerailleurEvaluation s := rfl
@[simp] theorem exec_fillerStopTimeout c s : exec (.fillerStopTimeout c) s = execFillerStopTimeout c s := rfl
@[simp] theorem exec_drlCtlWrite v s : exec (.drlCtlWrite v) s = execDrlCtlWrite v s := rfl
@[simp] theorem exec_telemetryRecord s : exec (.telemetryRecord) s = execTelemetryRecord s := rfl
@[simp] theorem exec_traceSample c s : exec (.traceSample c) s = execTraceSample c s := rfl
@[simp] theorem exec_pmcRotation c s : exec (.pmcRotation c) s = execPmcRotation c s := rfl
@[simp] theorem exec_pmcCtlWrite c v s : exec (.pmcCtlWrite c v) s = execPmcCtlWrite c v s := rfl
@[simp] theorem exec_invAsid a s : exec (.invAsid a) s = execInvAsid a s := rfl
@[simp] theorem exec_invPage a s : exec (.invPage a) s = execInvPage a s := rfl
@[simp] theorem exec_invWindow a n s : exec (.invWindow a n) s = execInvWindow a n s := rfl
@[simp] theorem exec_invKey k s : exec (.invKey k) s = execInvKey k s := rfl
@[simp] theorem exec_winMake a n s : exec (.winMake a n) s = execWinMake a n s := rfl
@[simp] theorem exec_regionSet n s : exec (.regionSet n) s = execRegionSet n s := rfl
@[simp] theorem exec_regionClear n s : exec (.regionClear n) s = execRegionClear n s := rfl
@[simp] theorem exec_parkResume a s : exec (.parkResume a) s = execParkResume a s := rfl
@[simp] theorem exec_parkDrop a s : exec (.parkDrop a) s = execParkDrop a s := rfl
@[simp] theorem exec_translationWalk i_ s : exec (.translationWalk i_) s = execTranslationWalk i_ s := rfl
@[simp] theorem exec_routeWr d s : exec (.routeWr d) s = execRouteWr d s := rfl
@[simp] theorem exec_routeHoldExpiry d s : exec (.routeHoldExpiry d) s = execRouteHoldExpiry d s := rfl
@[simp] theorem exec_grpSet g s : exec (.grpSet g) s = execGrpSet g s := rfl
@[simp] theorem exec_grpClear g s : exec (.grpClear g) s = execGrpClear g s := rfl
@[simp] theorem exec_trunkTrain n s : exec (.trunkTrain n) s = execTrunkTrain n s := rfl
@[simp] theorem exec_trunkCfgWrite n v s : exec (.trunkCfgWrite n v) s = execTrunkCfgWrite n v s := rfl
@[simp] theorem exec_startFlit n w bad s : exec (.startFlit n w bad) s = execStartFlit n w bad s := rfl
@[simp] theorem exec_contFlit n w bad s : exec (.contFlit n w bad) s = execContFlit n w bad s := rfl
@[simp] theorem exec_idleFlit n w bad s : exec (.idleFlit n w bad) s = execIdleFlit n w bad s := rfl
@[simp] theorem exec_replayReq n w bad s : exec (.replayReq n w bad) s = execReplayReq n w bad s := rfl
@[simp] theorem exec_trainFlit n w bad s : exec (.trainFlit n w bad) s = execTrainFlit n w bad s := rfl
@[simp] theorem exec_replayReqRepeat n s : exec (.replayReqRepeat n) s = execReplayReqRepeat n s := rfl
@[simp] theorem exec_laneFail n k s : exec (.laneFail n k) s = execLaneFail n k s := rfl
@[simp] theorem exec_trainingDone n ok s : exec (.trainingDone n ok) s = execTrainingDone n ok s := rfl
@[simp] theorem exec_probationExpiry n s : exec (.probationExpiry n) s = execProbationExpiry n s := rfl
@[simp] theorem exec_wr i_ s : exec (.wr i_) s = execWr i_ s := rfl
@[simp] theorem exec_rd i_ s : exec (.rd i_) s = execRd i_ s := rfl
@[simp] theorem exec_amo i_ s : exec (.amo i_) s = execAmo i_ s := rfl
@[simp] theorem exec_ctr i_ s : exec (.ctr i_) s = execCtr i_ s := rfl
@[simp] theorem exec_ver i_ s : exec (.ver i_) s = execVer i_ s := rfl
@[simp] theorem exec_red i_ s : exec (.red i_) s = execRed i_ s := rfl
@[simp] theorem exec_rereq i_ s : exec (.rereq i_) s = execRereq i_ s := rfl
@[simp] theorem exec_ackpl i_ s : exec (.ackpl i_) s = execAckpl i_ s := rfl
@[simp] theorem exec_data i_ s : exec (.data i_) s = execData i_ s := rfl
@[simp] theorem exec_result i_ s : exec (.result i_) s = execResult i_ s := rfl
@[simp] theorem exec_partialRelease i_ s : exec (.partialRelease i_) s = execPartialRelease i_ s := rfl
@[simp] theorem exec_nack i_ s : exec (.nack i_) s = execNack i_ s := rfl
@[simp] theorem exec_mgmt i_ s : exec (.mgmt i_) s = execMgmt i_ s := rfl
@[simp] theorem exec_ptmoExpiry i_ s : exec (.ptmoExpiry i_) s = execPtmoExpiry i_ s := rfl
@[simp] theorem exec_ptmoHalfRereq i_ s : exec (.ptmoHalfRereq i_) s = execPtmoHalfRereq i_ s := rfl
@[simp] theorem exec_combiningUncorrectable i_ s : exec (.combiningUncorrectable i_) s = execCombiningUncorrectable i_ s := rfl
@[simp] theorem exec_packageReset fw s : exec (.packageReset fw) s = execPackageReset fw s := rfl
@[simp] theorem exec_recoveryImage k img s : exec (.recoveryImage k img) s = execRecoveryImage k img s := rfl
@[simp] theorem exec_getVersion f b s : exec (.getVersion f b) s = execGetVersion f b s := rfl
@[simp] theorem exec_getCapabilities f b s : exec (.getCapabilities f b) s = execGetCapabilities f b s := rfl
@[simp] theorem exec_negotiateAlgorithms f b s : exec (.negotiateAlgorithms f b) s = execNegotiateAlgorithms f b s := rfl
@[simp] theorem exec_getDigests f b s : exec (.getDigests f b) s = execGetDigests f b s := rfl
@[simp] theorem exec_getCertificate f b s : exec (.getCertificate f b) s = execGetCertificate f b s := rfl
@[simp] theorem exec_challenge f b s : exec (.challenge f b) s = execChallenge f b s := rfl
@[simp] theorem exec_getMeasurements f b s : exec (.getMeasurements f b) s = execGetMeasurements f b s := rfl
@[simp] theorem exec_keyExchange f b s : exec (.keyExchange f b) s = execKeyExchange f b s := rfl
@[simp] theorem exec_finish f b s : exec (.finish f b) s = execFinish f b s := rfl
@[simp] theorem exec_heartbeat f b s : exec (.heartbeat f b) s = execHeartbeat f b s := rfl
@[simp] theorem exec_keyUpdate f b s : exec (.keyUpdate f b) s = execKeyUpdate f b s := rfl
@[simp] theorem exec_endSession f b s : exec (.endSession f b) s = execEndSession f b s := rfl
@[simp] theorem exec_keyProg f b s : exec (.keyProg f b) s = execKeyProg f b s := rfl
@[simp] theorem exec_keyErase f b s : exec (.keyErase f b) s = execKeyErase f b s := rfl
@[simp] theorem exec_unsupportedRequest f b s : exec (.unsupportedRequest f b) s = execUnsupportedRequest f b s := rfl
@[simp] theorem exec_ideKm f b s : exec (.ideKm f b) s = execIdeKm f b s := rfl
@[simp] theorem exec_ideIntegrityFailure f s : exec (.ideIntegrityFailure f) s = execIdeIntegrityFailure f s := rfl
@[simp] theorem exec_getDeviceInterfaceState f s : exec (.getDeviceInterfaceState f) s = execGetDeviceInterfaceState f s := rfl
@[simp] theorem exec_lockInterfaceRequest f s : exec (.lockInterfaceRequest f) s = execLockInterfaceRequest f s := rfl
@[simp] theorem exec_getDeviceInterfaceReport f s : exec (.getDeviceInterfaceReport f) s = execGetDeviceInterfaceReport f s := rfl
@[simp] theorem exec_startInterfaceRequest f s : exec (.startInterfaceRequest f) s = execStartInterfaceRequest f s := rfl
@[simp] theorem exec_stopInterfaceRequest f s : exec (.stopInterfaceRequest f) s = execStopInterfaceRequest f s := rfl
@[simp] theorem exec_vfQBind f a n s : exec (.vfQBind f a n) s = execVfQBind f a n s := rfl
@[simp] theorem exec_vfQTeardownDrain f a n s : exec (.vfQTeardownDrain f a n) s = execVfQTeardownDrain f a n s := rfl
@[simp] theorem exec_vfQTeardownKill f a n s : exec (.vfQTeardownKill f a n) s = execVfQTeardownKill f a n s := rfl
@[simp] theorem exec_vfQTeardownFreeze f a n s : exec (.vfQTeardownFreeze f a n) s = execVfQTeardownFreeze f a n s := rfl
@[simp] theorem exec_vfQRestore f a n s : exec (.vfQRestore f a n) s = execVfQRestore f a n s := rfl
@[simp] theorem exec_vfPreempt f a n s : exec (.vfPreempt f a n) s = execVfPreempt f a n s := rfl
@[simp] theorem exec_vfResume f a n s : exec (.vfResume f a n) s = execVfResume f a n s := rfl
@[simp] theorem exec_vfInvAsid f a n s : exec (.vfInvAsid f a n) s = execVfInvAsid f a n s := rfl
@[simp] theorem exec_vfInvPage f a n s : exec (.vfInvPage f a n) s = execVfInvPage f a n s := rfl
@[simp] theorem exec_vfInvWindow f a n s : exec (.vfInvWindow f a n) s = execVfInvWindow f a n s := rfl
@[simp] theorem exec_vfInvKey f a n s : exec (.vfInvKey f a n) s = execVfInvKey f a n s := rfl
@[simp] theorem exec_vfWinMake f a n s : exec (.vfWinMake f a n) s = execVfWinMake f a n s := rfl
@[simp] theorem exec_vfRegionSet f a n s : exec (.vfRegionSet f a n) s = execVfRegionSet f a n s := rfl
@[simp] theorem exec_vfRegionClear f a n s : exec (.vfRegionClear f a n) s = execVfRegionClear f a n s := rfl
@[simp] theorem exec_vfParkResume f a n s : exec (.vfParkResume f a n) s = execVfParkResume f a n s := rfl
@[simp] theorem exec_vfParkDrop f a n s : exec (.vfParkDrop f a n) s = execVfParkDrop f a n s := rfl
@[simp] theorem exec_entryWr f a sel n s : exec (.entryWr f a sel n) s = execEntryWr f a sel n s := rfl
@[simp] theorem exec_dbgSessionWrite n v s : exec (.dbgSessionWrite n v) s = execDbgSessionWrite n v s := rfl
@[simp] theorem exec_dbgStop n s : exec (.dbgStop n) s = execDbgStop n s := rfl
@[simp] theorem exec_dbgResume n s : exec (.dbgResume n) s = execDbgResume n s := rfl
@[simp] theorem exec_dbgStep n s : exec (.dbgStep n) s = execDbgStep n s := rfl
@[simp] theorem exec_dbgDataRead n s : exec (.dbgDataRead n) s = execDbgDataRead n s := rfl
@[simp] theorem exec_dbgDataWrite n v s : exec (.dbgDataWrite n v) s = execDbgDataWrite n v s := rfl
@[simp] theorem exec_replayParting c s : exec (.replayParting c) s = execReplayParting c s := rfl
@[simp] theorem exec_ppsEdge s : exec (.ppsEdge) s = execPpsEdge s := rfl
@[simp] theorem exec_todMessage b s : exec (.todMessage b) s = execTodMessage b s := rfl
@[simp] theorem exec_todByteGap s : exec (.todByteGap) s = execTodByteGap s := rfl
@[simp] theorem exec_todDeadline s : exec (.todDeadline) s = execTodDeadline s := rfl
@[simp] theorem exec_timeLock t p s : exec (.timeLock t p) s = execTimeLock t p s := rfl
@[simp] theorem exec_timeSourceLoss s : exec (.timeSourceLoss) s = execTimeSourceLoss s := rfl
@[simp] theorem exec_registerWrite f off v s : exec (.registerWrite f off v) s = execRegisterWrite f off v s := rfl

end Sys2Proof.Machine
end

