-- ==== Sys2Proof/Laws/Memory.lean ====
section
/-! SUPPORT. Laws/Memory: the canonical form of memory is kept by every memory operation; what is written is read, and every other
byte stays. -/

namespace Sys2Proof.Machine

open Host

theorem memSorted_mono (m : List Cell) (a b : Nat) (h : a ≤ b) (hs : memSorted b m = true) : memSorted a m = true := by
  cases m with
  | nil => rfl
  | cons e m =>
    simp only [memSorted, Bool.and_eq_true, decide_eq_true_eq] at hs ⊢
    exact ⟨⟨by omega, hs.1.2⟩, hs.2⟩

/-- An address below the bound is not listed. -/
theorem memFind_below (m : List Cell) (b k : Nat) (h : k < b) (hs : memSorted b m = true) : memFind m k = 0 := by
  cases m with
  | nil => rfl
  | cons e m =>
    obtain ⟨a, w⟩ := e
    simp only [memSorted, Bool.and_eq_true, decide_eq_true_eq] at hs
    have h1 : a ≠ k := by omega
    have h2 : k < a := by omega
    simp [memFind, h1, h2]

theorem memSorted_memPut (m : List Cell) (b k : Nat) (v : Byte) (hb : b ≤ k) (hs : memSorted b m = true) :
    memSorted b (memPut m k v) = true := by
  induction m generalizing b with
  | nil => unfold memPut; split <;> simp_all [memSorted]
  | cons e m ih =>
    obtain ⟨a, w⟩ := e
    have hs' := hs
    simp only [memSorted, Bool.and_eq_true, decide_eq_true_eq] at hs'
    unfold memPut
    split
    · split
      · exact hs
      · rename_i h1 h2
        simp only [memSorted, Bool.and_eq_true, decide_eq_true_eq]
        exact ⟨⟨hb, by simpa using h2⟩, ⟨by omega, hs'.1.2⟩, hs'.2⟩
    · split
      · rename_i h1 h2
        split
        · exact memSorted_mono m b (a + 1) (by omega) hs'.2
        · rename_i h3
          subst h2
          simp only [memSorted, Bool.and_eq_true, decide_eq_true_eq]
          exact ⟨⟨hb, by simpa using h3⟩, hs'.2⟩
      · simp only [memSorted, Bool.and_eq_true, decide_eq_true_eq]
        exact ⟨⟨hs'.1.1, hs'.1.2⟩, ih (a + 1) (by omega) hs'.2⟩

/-- Writing one byte keeps the canonical form. -/
theorem memPut_wf (m : List Cell) (k : Nat) (v : Byte) (h : Memory.wf m = true) : Memory.wf (memPut m k v) = true :=
  memSorted_memPut m 0 k v (Nat.zero_le k) h

/-- Writing bytes keeps the canonical form. -/
theorem memPutBytes_wf (m : List Cell) (a : Nat) (b : List Byte) (h : Memory.wf m = true) : Memory.wf (memPutBytes m a b) = true := by
  induction b generalizing m a with
  | nil => exact h
  | cons x b ih => exact ih _ _ (memPut_wf m a x h)

/-- Writing a number keeps the canonical form. -/
theorem memSetNat_wf (s : State) (a n v : Nat) (h : Memory.wf s.mem = true) : Memory.wf (memSetNat s a n v).mem = true :=
  memPutBytes_wf s.mem a _ h

theorem memFind_memPut_sorted (m : List Cell) (b k n : Nat) (v : Byte) (hs : memSorted b m = true) :
    memFind (memPut m k v) n = if n = k then v else memFind m n := by
  induction m generalizing b with
  | nil =>
    unfold memPut
    by_cases hv : v = 0
    · simp [hv, memFind]
    · rw [if_neg hv]
      by_cases h : k = n
      · simp [memFind, h]
      · have : n ≠ k := fun e => h e.symm
        simp [memFind, h, this]
  | cons e m ih =>
    obtain ⟨a, w⟩ := e
    have hs' := hs
    simp only [memSorted, Bool.and_eq_true, decide_eq_true_eq] at hs'
    unfold memPut
    by_cases h1 : k < a
    · simp only [h1, if_true]
      by_cases hv : v = 0
      · simp only [hv, if_true]
        by_cases h2 : n = k
        · subst h2
          have h3 : a ≠ n := by omega
          simp [memFind, h3, h1]
        · simp [h2]
      · simp only [hv, if_false, memFind]
        by_cases h2 : k = n
        · simp [h2]
        · have h2' : n ≠ k := fun e => h2 e.symm
          by_cases h3 : n < k
          · have h4 : a ≠ n := by omega
            have h5 : n < a := by omega
            simp [*]
          · simp [*]
    · by_cases h2 : a = k
      · subst h2
        simp only [Nat.lt_irrefl, if_false, if_true]
        by_cases hv : v = 0
        · simp only [hv, if_true]
          by_cases h3 : n = a
          · subst h3
            simp [memFind_below m (n + 1) n (by omega) hs'.2]
          · have h3' : a ≠ n := fun e => h3 e.symm
            by_cases h4 : n < a
            · simp [memFind, h3, h3', h4, memFind_below m (a + 1) n (by omega) hs'.2]
            · simp [memFind, h3, h3', h4]
        · simp only [hv, if_false, memFind]
          by_cases h3 : a = n
          · simp [h3]
          · have h3' : n ≠ a := fun e => h3 e.symm
            simp [h3, h3']
      · simp only [h1, h2, if_false, memFind, ih (a + 1) hs'.2]
        by_cases h3 : a = n
        · have : n ≠ k := by omega
          simp [*]
        · by_cases h4 : n < a
          · have : n ≠ k := by omega
            simp [*]
          · simp [*]

/-- A read after a write of one byte. -/
theorem memFind_memPut (m : List Cell) (k n : Nat) (v : Byte) (h : Memory.wf m = true) :
    memFind (memPut m k v) n = if n = k then v else memFind m n := memFind_memPut_sorted m 0 k n v h

/-- A byte outside the bytes written stays. -/
theorem memFind_memPutBytes_other (m : List Cell) (a n : Nat) (b : List Byte) (h : Memory.wf m = true)
    (ho : n < a ∨ a + b.length ≤ n) : memFind (memPutBytes m a b) n = memFind m n := by
  induction b generalizing m a with
  | nil => rfl
  | cons x b ih =>
    simp only [List.length_cons] at ho
    have h1 : n ≠ a := by omega
    rw [memPutBytes, ih _ _ (memPut_wf m a x h) (by omega), memFind_memPut m a n x h, if_neg h1]

/-- Bytes written are read. -/
theorem memBytes_memPutBytes (m : List Cell) (a : Nat) (b : List Byte) (h : Memory.wf m = true) :
    memBytes (memPutBytes m a b) a b.length = b := by
  induction b generalizing m a with
  | nil => rfl
  | cons x b ih =>
    simp only [List.length_cons, memBytes, memPutBytes]
    rw [ih _ _ (memPut_wf m a x h), memFind_memPutBytes_other _ _ _ _ (memPut_wf m a x h) (by omega), memFind_memPut m a a x h]
    simp

theorem memSorted_filter (m : List Cell) (b : Nat) (f : Cell → Bool) (h : memSorted b m = true) : memSorted b (m.filter f) = true := by
  induction m generalizing b with
  | nil => rfl
  | cons e m ih =>
    obtain ⟨a, w⟩ := e
    simp only [memSorted, Bool.and_eq_true, decide_eq_true_eq] at h
    rw [List.filter_cons]
    split
    · simp only [memSorted, Bool.and_eq_true, decide_eq_true_eq]
      exact ⟨h.1, ih _ h.2⟩
    · exact memSorted_mono _ b (a + 1) (by omega) (ih _ h.2)

/-- Clearing bytes keeps the canonical form. -/
theorem memClear_wf (m : List Cell) (a n : Nat) (h : Memory.wf m = true) : Memory.wf (memClear m a n) = true :=
  memSorted_filter m 0 _ h

end Sys2Proof.Machine
end

