-- ==== Sys2Proof/Laws/Sparse.lean ====
section
/-! SUPPORT. Laws/Sparse: reading after writing in a sparse map, and that a write keeps its keys rising. -/

namespace Sys2Proof.Machine

/-- A find after a set: the new value at the key, the old one elsewhere; no order of the keys is needed. -/
theorem spFind_spSet {α : Type} (m : Sp α) (k n : Nat) (v : α) :
    spFind (spSet m k v) n = if n = k then some v else spFind m n := by
  induction m with
  | nil => by_cases h : k = n <;> simp [spSet, spFind, h, eq_comm]
  | cons e m ih =>
    obtain ⟨j, w⟩ := e
    unfold spSet
    by_cases h1 : k < j
    · simp only [h1, if_true, spFind]
      by_cases h2 : k = n
      · simp [h2]
      · have h2' : n ≠ k := fun h => h2 h.symm
        by_cases h3 : n < k
        · have : j ≠ n := by omega
          have : n < j := by omega
          simp [*]
        · simp [*]
    · by_cases h2 : j = k
      · subst h2
        simp only [Nat.lt_irrefl, if_false, if_true, spFind]
        by_cases h3 : j = n
        · simp [h3]
        · have : n ≠ j := fun h => h3 h.symm
          by_cases h4 : n < j <;> simp [*]
      · simp only [h1, h2, if_false, spFind, ih]
        by_cases h3 : j = n
        · have : n ≠ k := by omega
          simp [*]
        · by_cases h4 : n < j
          · have : n ≠ k := by omega
            simp [*]
          · simp [*]

/-- A read after a write to the same key. -/
@[simp] theorem spGet_spSet_same {α : Type} (d : α) (m : Sp α) (k : Nat) (v : α) : spGet d (spSet m k v) k = v := by
  simp [spGet, spFind_spSet]

/-- A read of another key. -/
theorem spGet_spSet_other {α : Type} (d : α) (m : Sp α) (k n : Nat) (v : α) (h : n ≠ k) : spGet d (spSet m k v) n = spGet d m n := by
  simp [spGet, spFind_spSet, h]

/-- A read after a write. -/
theorem spGet_spSet {α : Type} (d : α) (m : Sp α) (k n : Nat) (v : α) :
    spGet d (spSet m k v) n = if n = k then v else spGet d m n := by
  simp only [spGet, spFind_spSet]; split <;> rfl

/-- A lower bound of the keys may be lowered. -/
theorem spSorted_mono {α : Type} (m : Sp α) (a b : Nat) (h : a ≤ b) (hs : spSorted b m = true) : spSorted a m = true := by
  cases m with
  | nil => rfl
  | cons e m => simp only [spSorted, Bool.and_eq_true, decide_eq_true_eq] at hs ⊢; exact ⟨by omega, hs.2⟩

/-- A set keeps the keys rising. -/
theorem spSorted_spSet {α : Type} (m : Sp α) (b k : Nat) (v : α) (hb : b ≤ k) (hs : spSorted b m = true) :
    spSorted b (spSet m k v) = true := by
  induction m generalizing b with
  | nil => simp [spSet, spSorted, hb]
  | cons e m ih =>
    obtain ⟨j, w⟩ := e
    simp only [spSorted, Bool.and_eq_true, decide_eq_true_eq] at hs
    unfold spSet
    split
    · simp only [spSorted, Bool.and_eq_true, decide_eq_true_eq]
      exact ⟨hb, by omega, hs.2⟩
    · split
      · simp only [spSorted, Bool.and_eq_true, decide_eq_true_eq]
        rename_i h; subst h; exact ⟨hb, hs.2⟩
      · simp only [spSorted, Bool.and_eq_true, decide_eq_true_eq]
        exact ⟨hs.1, ih (j + 1) (by omega) hs.2⟩

theorem spWf_spSet {α : Type} (m : Sp α) (k : Nat) (v : α) (hs : spWf m = true) : spWf (spSet m k v) = true :=
  spSorted_spSet m 0 k v (Nat.zero_le k) hs

end Sys2Proof.Machine
end

