-- ==== Sys2Proof/Laws/State.lean ====
section
/-! SUPPORT. Laws/State: what each update leaves of the state, field by field, by computation; no proof over these operations unfolds a
record update. -/

namespace Sys2Proof.Machine

/-! ## The package -/

@[simp] theorem modCore_agenda (s : State) (c : Nat) (f : Core → Core) : (modCore s c f).agenda = s.agenda := rfl
@[simp] theorem modCore_now (s : State) (c : Nat) (f : Core → Core) : (modCore s c f).now = s.now := rfl
@[simp] theorem modCore_dev (s : State) (c : Nat) (f : Core → Core) : (modCore s c f).dev = s.dev := rfl
@[simp] theorem modCore_ppm (s : State) (c : Nat) (f : Core → Core) : (modCore s c f).ppm = s.ppm := rfl
@[simp] theorem modCore_turn (s : State) (c : Nat) (f : Core → Core) : (modCore s c f).turn = s.turn := rfl
@[simp] theorem modCore_cur (s : State) (c : Nat) (f : Core → Core) : (modCore s c f).cur = s.cur := rfl
@[simp] theorem modCore_issue (s : State) (c : Nat) (f : Core → Core) : (modCore s c f).issue = s.issue := rfl
@[simp] theorem modCore_fresh (s : State) (c : Nat) (f : Core → Core) : (modCore s c f).fresh = s.fresh := rfl
@[simp] theorem modCore_mem (s : State) (c : Nat) (f : Core → Core) : (modCore s c f).mem = s.mem := rfl
@[simp] theorem modCore_bad (s : State) (c : Nat) (f : Core → Core) : (modCore s c f).bad = s.bad := rfl
@[simp] theorem modCore_soft (s : State) (c : Nat) (f : Core → Core) : (modCore s c f).soft = s.soft := rfl
@[simp] theorem modCore_bar (s : State) (c : Nat) (f : Core → Core) : (modCore s c f).bar = s.bar := rfl
@[simp] theorem modCore_shadow (s : State) (c : Nat) (f : Core → Core) : (modCore s c f).shadow = s.shadow := rfl
@[simp] theorem modCore_shadowEp (s : State) (c : Nat) (f : Core → Core) : (modCore s c f).shadowEp = s.shadowEp := rfl
@[simp] theorem modCore_dieTlb (s : State) (c : Nat) (f : Core → Core) : (modCore s c f).dieTlb = s.dieTlb := rfl
@[simp] theorem modCore_walks (s : State) (c : Nat) (f : Core → Core) : (modCore s c f).walks = s.walks := rfl
@[simp] theorem modCore_invs (s : State) (c : Nat) (f : Core → Core) : (modCore s c f).invs = s.invs := rfl
@[simp] theorem modCore_vers (s : State) (c : Nat) (f : Core → Core) : (modCore s c f).vers = s.vers := rfl
@[simp] theorem modCore_vreg (s : State) (c : Nat) (f : Core → Core) : (modCore s c f).vreg = s.vreg := rfl
@[simp] theorem modCore_hub (s : State) (c : Nat) (f : Core → Core) : (modCore s c f).hub = s.hub := rfl
@[simp] theorem modCore_qs (s : State) (c : Nat) (f : Core → Core) : (modCore s c f).qs = s.qs := rfl
@[simp] theorem modCore_gangs (s : State) (c : Nat) (f : Core → Core) : (modCore s c f).gangs = s.gangs := rfl
@[simp] theorem modCore_handed (s : State) (c : Nat) (f : Core → Core) : (modCore s c f).handed = s.handed := rfl
@[simp] theorem modCore_sched (s : State) (c : Nat) (f : Core → Core) : (modCore s c f).sched = s.sched := rfl
@[simp] theorem modCore_loss (s : State) (c : Nat) (f : Core → Core) : (modCore s c f).loss = s.loss := rfl
@[simp] theorem modCore_ranOn (s : State) (c : Nat) (f : Core → Core) : (modCore s c f).ranOn = s.ranOn := rfl
@[simp] theorem modCore_binds (s : State) (c : Nat) (f : Core → Core) : (modCore s c f).binds = s.binds := rfl
@[simp] theorem modCore_flashPkg (s : State) (c : Nat) (f : Core → Core) : (modCore s c f).flashPkg = s.flashPkg := rfl
@[simp] theorem modCore_drl (s : State) (c : Nat) (f : Core → Core) : (modCore s c f).drl = s.drl := rfl
@[simp] theorem modCore_sec (s : State) (c : Nat) (f : Core → Core) : (modCore s c f).sec = s.sec := rfl
@[simp] theorem modCore_time (s : State) (c : Nat) (f : Core → Core) : (modCore s c f).time = s.time := rfl
@[simp] theorem modCore_rpl (s : State) (c : Nat) (f : Core → Core) : (modCore s c f).rpl = s.rpl := rfl
@[simp] theorem modCore_posted (s : State) (c : Nat) (f : Core → Core) : (modCore s c f).posted = s.posted := rfl

@[simp] theorem wr_agenda (s : State) (f : Core → Core) : (wr s f).agenda = s.agenda := rfl
@[simp] theorem wr_now (s : State) (f : Core → Core) : (wr s f).now = s.now := rfl
@[simp] theorem wr_dev (s : State) (f : Core → Core) : (wr s f).dev = s.dev := rfl
@[simp] theorem wr_ppm (s : State) (f : Core → Core) : (wr s f).ppm = s.ppm := rfl
@[simp] theorem wr_turn (s : State) (f : Core → Core) : (wr s f).turn = s.turn := rfl
@[simp] theorem wr_cur (s : State) (f : Core → Core) : (wr s f).cur = s.cur := rfl
@[simp] theorem wr_issue (s : State) (f : Core → Core) : (wr s f).issue = s.issue := rfl
@[simp] theorem wr_fresh (s : State) (f : Core → Core) : (wr s f).fresh = s.fresh := rfl
@[simp] theorem wr_mem (s : State) (f : Core → Core) : (wr s f).mem = s.mem := rfl
@[simp] theorem wr_bad (s : State) (f : Core → Core) : (wr s f).bad = s.bad := rfl
@[simp] theorem wr_soft (s : State) (f : Core → Core) : (wr s f).soft = s.soft := rfl
@[simp] theorem wr_bar (s : State) (f : Core → Core) : (wr s f).bar = s.bar := rfl
@[simp] theorem wr_shadow (s : State) (f : Core → Core) : (wr s f).shadow = s.shadow := rfl
@[simp] theorem wr_shadowEp (s : State) (f : Core → Core) : (wr s f).shadowEp = s.shadowEp := rfl
@[simp] theorem wr_dieTlb (s : State) (f : Core → Core) : (wr s f).dieTlb = s.dieTlb := rfl
@[simp] theorem wr_walks (s : State) (f : Core → Core) : (wr s f).walks = s.walks := rfl
@[simp] theorem wr_invs (s : State) (f : Core → Core) : (wr s f).invs = s.invs := rfl
@[simp] theorem wr_vers (s : State) (f : Core → Core) : (wr s f).vers = s.vers := rfl
@[simp] theorem wr_vreg (s : State) (f : Core → Core) : (wr s f).vreg = s.vreg := rfl
@[simp] theorem wr_hub (s : State) (f : Core → Core) : (wr s f).hub = s.hub := rfl
@[simp] theorem wr_qs (s : State) (f : Core → Core) : (wr s f).qs = s.qs := rfl
@[simp] theorem wr_gangs (s : State) (f : Core → Core) : (wr s f).gangs = s.gangs := rfl
@[simp] theorem wr_handed (s : State) (f : Core → Core) : (wr s f).handed = s.handed := rfl
@[simp] theorem wr_sched (s : State) (f : Core → Core) : (wr s f).sched = s.sched := rfl
@[simp] theorem wr_loss (s : State) (f : Core → Core) : (wr s f).loss = s.loss := rfl
@[simp] theorem wr_ranOn (s : State) (f : Core → Core) : (wr s f).ranOn = s.ranOn := rfl
@[simp] theorem wr_binds (s : State) (f : Core → Core) : (wr s f).binds = s.binds := rfl
@[simp] theorem wr_flashPkg (s : State) (f : Core → Core) : (wr s f).flashPkg = s.flashPkg := rfl
@[simp] theorem wr_drl (s : State) (f : Core → Core) : (wr s f).drl = s.drl := rfl
@[simp] theorem wr_sec (s : State) (f : Core → Core) : (wr s f).sec = s.sec := rfl
@[simp] theorem wr_time (s : State) (f : Core → Core) : (wr s f).time = s.time := rfl
@[simp] theorem wr_rpl (s : State) (f : Core → Core) : (wr s f).rpl = s.rpl := rfl
@[simp] theorem wr_posted (s : State) (f : Core → Core) : (wr s f).posted = s.posted := rfl

@[simp] theorem putS_agenda (s : State) (d : Nat) (v : Word) : (putS s d v).agenda = s.agenda := rfl
@[simp] theorem putS_now (s : State) (d : Nat) (v : Word) : (putS s d v).now = s.now := rfl
@[simp] theorem putS_dev (s : State) (d : Nat) (v : Word) : (putS s d v).dev = s.dev := rfl
@[simp] theorem putS_ppm (s : State) (d : Nat) (v : Word) : (putS s d v).ppm = s.ppm := rfl
@[simp] theorem putS_turn (s : State) (d : Nat) (v : Word) : (putS s d v).turn = s.turn := rfl
@[simp] theorem putS_cur (s : State) (d : Nat) (v : Word) : (putS s d v).cur = s.cur := rfl
@[simp] theorem putS_issue (s : State) (d : Nat) (v : Word) : (putS s d v).issue = s.issue := rfl
@[simp] theorem putS_fresh (s : State) (d : Nat) (v : Word) : (putS s d v).fresh = s.fresh := rfl
@[simp] theorem putS_mem (s : State) (d : Nat) (v : Word) : (putS s d v).mem = s.mem := rfl
@[simp] theorem putS_bad (s : State) (d : Nat) (v : Word) : (putS s d v).bad = s.bad := rfl
@[simp] theorem putS_soft (s : State) (d : Nat) (v : Word) : (putS s d v).soft = s.soft := rfl
@[simp] theorem putS_bar (s : State) (d : Nat) (v : Word) : (putS s d v).bar = s.bar := rfl
@[simp] theorem putS_shadow (s : State) (d : Nat) (v : Word) : (putS s d v).shadow = s.shadow := rfl
@[simp] theorem putS_shadowEp (s : State) (d : Nat) (v : Word) : (putS s d v).shadowEp = s.shadowEp := rfl
@[simp] theorem putS_dieTlb (s : State) (d : Nat) (v : Word) : (putS s d v).dieTlb = s.dieTlb := rfl
@[simp] theorem putS_walks (s : State) (d : Nat) (v : Word) : (putS s d v).walks = s.walks := rfl
@[simp] theorem putS_invs (s : State) (d : Nat) (v : Word) : (putS s d v).invs = s.invs := rfl
@[simp] theorem putS_vers (s : State) (d : Nat) (v : Word) : (putS s d v).vers = s.vers := rfl
@[simp] theorem putS_vreg (s : State) (d : Nat) (v : Word) : (putS s d v).vreg = s.vreg := rfl
@[simp] theorem putS_hub (s : State) (d : Nat) (v : Word) : (putS s d v).hub = s.hub := rfl
@[simp] theorem putS_qs (s : State) (d : Nat) (v : Word) : (putS s d v).qs = s.qs := rfl
@[simp] theorem putS_gangs (s : State) (d : Nat) (v : Word) : (putS s d v).gangs = s.gangs := rfl
@[simp] theorem putS_handed (s : State) (d : Nat) (v : Word) : (putS s d v).handed = s.handed := rfl
@[simp] theorem putS_sched (s : State) (d : Nat) (v : Word) : (putS s d v).sched = s.sched := rfl
@[simp] theorem putS_loss (s : State) (d : Nat) (v : Word) : (putS s d v).loss = s.loss := rfl
@[simp] theorem putS_ranOn (s : State) (d : Nat) (v : Word) : (putS s d v).ranOn = s.ranOn := rfl
@[simp] theorem putS_binds (s : State) (d : Nat) (v : Word) : (putS s d v).binds = s.binds := rfl
@[simp] theorem putS_flashPkg (s : State) (d : Nat) (v : Word) : (putS s d v).flashPkg = s.flashPkg := rfl
@[simp] theorem putS_drl (s : State) (d : Nat) (v : Word) : (putS s d v).drl = s.drl := rfl
@[simp] theorem putS_sec (s : State) (d : Nat) (v : Word) : (putS s d v).sec = s.sec := rfl
@[simp] theorem putS_time (s : State) (d : Nat) (v : Word) : (putS s d v).time = s.time := rfl
@[simp] theorem putS_rpl (s : State) (d : Nat) (v : Word) : (putS s d v).rpl = s.rpl := rfl
@[simp] theorem putS_posted (s : State) (d : Nat) (v : Word) : (putS s d v).posted = s.posted := rfl

@[simp] theorem putP_agenda (s : State) (d : Nat) (v : Bool) : (putP s d v).agenda = s.agenda := rfl
@[simp] theorem putP_now (s : State) (d : Nat) (v : Bool) : (putP s d v).now = s.now := rfl
@[simp] theorem putP_dev (s : State) (d : Nat) (v : Bool) : (putP s d v).dev = s.dev := rfl
@[simp] theorem putP_ppm (s : State) (d : Nat) (v : Bool) : (putP s d v).ppm = s.ppm := rfl
@[simp] theorem putP_turn (s : State) (d : Nat) (v : Bool) : (putP s d v).turn = s.turn := rfl
@[simp] theorem putP_cur (s : State) (d : Nat) (v : Bool) : (putP s d v).cur = s.cur := rfl
@[simp] theorem putP_issue (s : State) (d : Nat) (v : Bool) : (putP s d v).issue = s.issue := rfl
@[simp] theorem putP_fresh (s : State) (d : Nat) (v : Bool) : (putP s d v).fresh = s.fresh := rfl
@[simp] theorem putP_mem (s : State) (d : Nat) (v : Bool) : (putP s d v).mem = s.mem := rfl
@[simp] theorem putP_bad (s : State) (d : Nat) (v : Bool) : (putP s d v).bad = s.bad := rfl
@[simp] theorem putP_soft (s : State) (d : Nat) (v : Bool) : (putP s d v).soft = s.soft := rfl
@[simp] theorem putP_bar (s : State) (d : Nat) (v : Bool) : (putP s d v).bar = s.bar := rfl
@[simp] theorem putP_shadow (s : State) (d : Nat) (v : Bool) : (putP s d v).shadow = s.shadow := rfl
@[simp] theorem putP_shadowEp (s : State) (d : Nat) (v : Bool) : (putP s d v).shadowEp = s.shadowEp := rfl
@[simp] theorem putP_dieTlb (s : State) (d : Nat) (v : Bool) : (putP s d v).dieTlb = s.dieTlb := rfl
@[simp] theorem putP_walks (s : State) (d : Nat) (v : Bool) : (putP s d v).walks = s.walks := rfl
@[simp] theorem putP_invs (s : State) (d : Nat) (v : Bool) : (putP s d v).invs = s.invs := rfl
@[simp] theorem putP_vers (s : State) (d : Nat) (v : Bool) : (putP s d v).vers = s.vers := rfl
@[simp] theorem putP_vreg (s : State) (d : Nat) (v : Bool) : (putP s d v).vreg = s.vreg := rfl
@[simp] theorem putP_hub (s : State) (d : Nat) (v : Bool) : (putP s d v).hub = s.hub := rfl
@[simp] theorem putP_qs (s : State) (d : Nat) (v : Bool) : (putP s d v).qs = s.qs := rfl
@[simp] theorem putP_gangs (s : State) (d : Nat) (v : Bool) : (putP s d v).gangs = s.gangs := rfl
@[simp] theorem putP_handed (s : State) (d : Nat) (v : Bool) : (putP s d v).handed = s.handed := rfl
@[simp] theorem putP_sched (s : State) (d : Nat) (v : Bool) : (putP s d v).sched = s.sched := rfl
@[simp] theorem putP_loss (s : State) (d : Nat) (v : Bool) : (putP s d v).loss = s.loss := rfl
@[simp] theorem putP_ranOn (s : State) (d : Nat) (v : Bool) : (putP s d v).ranOn = s.ranOn := rfl
@[simp] theorem putP_binds (s : State) (d : Nat) (v : Bool) : (putP s d v).binds = s.binds := rfl
@[simp] theorem putP_flashPkg (s : State) (d : Nat) (v : Bool) : (putP s d v).flashPkg = s.flashPkg := rfl
@[simp] theorem putP_drl (s : State) (d : Nat) (v : Bool) : (putP s d v).drl = s.drl := rfl
@[simp] theorem putP_sec (s : State) (d : Nat) (v : Bool) : (putP s d v).sec = s.sec := rfl
@[simp] theorem putP_time (s : State) (d : Nat) (v : Bool) : (putP s d v).time = s.time := rfl
@[simp] theorem putP_rpl (s : State) (d : Nat) (v : Bool) : (putP s d v).rpl = s.rpl := rfl
@[simp] theorem putP_posted (s : State) (d : Nat) (v : Bool) : (putP s d v).posted = s.posted := rfl

@[simp] theorem putLate_agenda (s : State) (lat : Nat) (d : WbDest) : (putLate s lat d).agenda = s.agenda := rfl
@[simp] theorem putLate_now (s : State) (lat : Nat) (d : WbDest) : (putLate s lat d).now = s.now := rfl
@[simp] theorem putLate_dev (s : State) (lat : Nat) (d : WbDest) : (putLate s lat d).dev = s.dev := rfl
@[simp] theorem putLate_ppm (s : State) (lat : Nat) (d : WbDest) : (putLate s lat d).ppm = s.ppm := rfl
@[simp] theorem putLate_turn (s : State) (lat : Nat) (d : WbDest) : (putLate s lat d).turn = s.turn := rfl
@[simp] theorem putLate_cur (s : State) (lat : Nat) (d : WbDest) : (putLate s lat d).cur = s.cur := rfl
@[simp] theorem putLate_issue (s : State) (lat : Nat) (d : WbDest) : (putLate s lat d).issue = s.issue := rfl
@[simp] theorem putLate_fresh (s : State) (lat : Nat) (d : WbDest) : (putLate s lat d).fresh = s.fresh := rfl
@[simp] theorem putLate_mem (s : State) (lat : Nat) (d : WbDest) : (putLate s lat d).mem = s.mem := rfl
@[simp] theorem putLate_bad (s : State) (lat : Nat) (d : WbDest) : (putLate s lat d).bad = s.bad := rfl
@[simp] theorem putLate_soft (s : State) (lat : Nat) (d : WbDest) : (putLate s lat d).soft = s.soft := rfl
@[simp] theorem putLate_bar (s : State) (lat : Nat) (d : WbDest) : (putLate s lat d).bar = s.bar := rfl
@[simp] theorem putLate_shadow (s : State) (lat : Nat) (d : WbDest) : (putLate s lat d).shadow = s.shadow := rfl
@[simp] theorem putLate_shadowEp (s : State) (lat : Nat) (d : WbDest) : (putLate s lat d).shadowEp = s.shadowEp := rfl
@[simp] theorem putLate_dieTlb (s : State) (lat : Nat) (d : WbDest) : (putLate s lat d).dieTlb = s.dieTlb := rfl
@[simp] theorem putLate_walks (s : State) (lat : Nat) (d : WbDest) : (putLate s lat d).walks = s.walks := rfl
@[simp] theorem putLate_invs (s : State) (lat : Nat) (d : WbDest) : (putLate s lat d).invs = s.invs := rfl
@[simp] theorem putLate_vers (s : State) (lat : Nat) (d : WbDest) : (putLate s lat d).vers = s.vers := rfl
@[simp] theorem putLate_vreg (s : State) (lat : Nat) (d : WbDest) : (putLate s lat d).vreg = s.vreg := rfl
@[simp] theorem putLate_hub (s : State) (lat : Nat) (d : WbDest) : (putLate s lat d).hub = s.hub := rfl
@[simp] theorem putLate_qs (s : State) (lat : Nat) (d : WbDest) : (putLate s lat d).qs = s.qs := rfl
@[simp] theorem putLate_gangs (s : State) (lat : Nat) (d : WbDest) : (putLate s lat d).gangs = s.gangs := rfl
@[simp] theorem putLate_handed (s : State) (lat : Nat) (d : WbDest) : (putLate s lat d).handed = s.handed := rfl
@[simp] theorem putLate_sched (s : State) (lat : Nat) (d : WbDest) : (putLate s lat d).sched = s.sched := rfl
@[simp] theorem putLate_loss (s : State) (lat : Nat) (d : WbDest) : (putLate s lat d).loss = s.loss := rfl
@[simp] theorem putLate_ranOn (s : State) (lat : Nat) (d : WbDest) : (putLate s lat d).ranOn = s.ranOn := rfl
@[simp] theorem putLate_binds (s : State) (lat : Nat) (d : WbDest) : (putLate s lat d).binds = s.binds := rfl
@[simp] theorem putLate_flashPkg (s : State) (lat : Nat) (d : WbDest) : (putLate s lat d).flashPkg = s.flashPkg := rfl
@[simp] theorem putLate_drl (s : State) (lat : Nat) (d : WbDest) : (putLate s lat d).drl = s.drl := rfl
@[simp] theorem putLate_sec (s : State) (lat : Nat) (d : WbDest) : (putLate s lat d).sec = s.sec := rfl
@[simp] theorem putLate_time (s : State) (lat : Nat) (d : WbDest) : (putLate s lat d).time = s.time := rfl
@[simp] theorem putLate_rpl (s : State) (lat : Nat) (d : WbDest) : (putLate s lat d).rpl = s.rpl := rfl
@[simp] theorem putLate_posted (s : State) (lat : Nat) (d : WbDest) : (putLate s lat d).posted = s.posted := rfl

@[simp] theorem orSticky_agenda (s : State) (x : Word) : (orSticky s x).agenda = s.agenda := rfl
@[simp] theorem orSticky_now (s : State) (x : Word) : (orSticky s x).now = s.now := rfl
@[simp] theorem orSticky_dev (s : State) (x : Word) : (orSticky s x).dev = s.dev := rfl
@[simp] theorem orSticky_ppm (s : State) (x : Word) : (orSticky s x).ppm = s.ppm := rfl
@[simp] theorem orSticky_turn (s : State) (x : Word) : (orSticky s x).turn = s.turn := rfl
@[simp] theorem orSticky_cur (s : State) (x : Word) : (orSticky s x).cur = s.cur := rfl
@[simp] theorem orSticky_issue (s : State) (x : Word) : (orSticky s x).issue = s.issue := rfl
@[simp] theorem orSticky_fresh (s : State) (x : Word) : (orSticky s x).fresh = s.fresh := rfl
@[simp] theorem orSticky_mem (s : State) (x : Word) : (orSticky s x).mem = s.mem := rfl
@[simp] theorem orSticky_bad (s : State) (x : Word) : (orSticky s x).bad = s.bad := rfl
@[simp] theorem orSticky_soft (s : State) (x : Word) : (orSticky s x).soft = s.soft := rfl
@[simp] theorem orSticky_bar (s : State) (x : Word) : (orSticky s x).bar = s.bar := rfl
@[simp] theorem orSticky_shadow (s : State) (x : Word) : (orSticky s x).shadow = s.shadow := rfl
@[simp] theorem orSticky_shadowEp (s : State) (x : Word) : (orSticky s x).shadowEp = s.shadowEp := rfl
@[simp] theorem orSticky_dieTlb (s : State) (x : Word) : (orSticky s x).dieTlb = s.dieTlb := rfl
@[simp] theorem orSticky_walks (s : State) (x : Word) : (orSticky s x).walks = s.walks := rfl
@[simp] theorem orSticky_invs (s : State) (x : Word) : (orSticky s x).invs = s.invs := rfl
@[simp] theorem orSticky_vers (s : State) (x : Word) : (orSticky s x).vers = s.vers := rfl
@[simp] theorem orSticky_vreg (s : State) (x : Word) : (orSticky s x).vreg = s.vreg := rfl
@[simp] theorem orSticky_hub (s : State) (x : Word) : (orSticky s x).hub = s.hub := rfl
@[simp] theorem orSticky_qs (s : State) (x : Word) : (orSticky s x).qs = s.qs := rfl
@[simp] theorem orSticky_gangs (s : State) (x : Word) : (orSticky s x).gangs = s.gangs := rfl
@[simp] theorem orSticky_handed (s : State) (x : Word) : (orSticky s x).handed = s.handed := rfl
@[simp] theorem orSticky_sched (s : State) (x : Word) : (orSticky s x).sched = s.sched := rfl
@[simp] theorem orSticky_loss (s : State) (x : Word) : (orSticky s x).loss = s.loss := rfl
@[simp] theorem orSticky_ranOn (s : State) (x : Word) : (orSticky s x).ranOn = s.ranOn := rfl
@[simp] theorem orSticky_binds (s : State) (x : Word) : (orSticky s x).binds = s.binds := rfl
@[simp] theorem orSticky_flashPkg (s : State) (x : Word) : (orSticky s x).flashPkg = s.flashPkg := rfl
@[simp] theorem orSticky_drl (s : State) (x : Word) : (orSticky s x).drl = s.drl := rfl
@[simp] theorem orSticky_sec (s : State) (x : Word) : (orSticky s x).sec = s.sec := rfl
@[simp] theorem orSticky_time (s : State) (x : Word) : (orSticky s x).time = s.time := rfl
@[simp] theorem orSticky_rpl (s : State) (x : Word) : (orSticky s x).rpl = s.rpl := rfl
@[simp] theorem orSticky_posted (s : State) (x : Word) : (orSticky s x).posted = s.posted := rfl

@[simp] theorem barWr_agenda (s : State) (off : Nat) (v : Word) : (barWr s off v).agenda = s.agenda := rfl
@[simp] theorem barWr_now (s : State) (off : Nat) (v : Word) : (barWr s off v).now = s.now := rfl
@[simp] theorem barWr_dev (s : State) (off : Nat) (v : Word) : (barWr s off v).dev = s.dev := rfl
@[simp] theorem barWr_ppm (s : State) (off : Nat) (v : Word) : (barWr s off v).ppm = s.ppm := rfl
@[simp] theorem barWr_turn (s : State) (off : Nat) (v : Word) : (barWr s off v).turn = s.turn := rfl
@[simp] theorem barWr_cur (s : State) (off : Nat) (v : Word) : (barWr s off v).cur = s.cur := rfl
@[simp] theorem barWr_issue (s : State) (off : Nat) (v : Word) : (barWr s off v).issue = s.issue := rfl
@[simp] theorem barWr_cores (s : State) (off : Nat) (v : Word) : (barWr s off v).cores = s.cores := rfl
@[simp] theorem barWr_fresh (s : State) (off : Nat) (v : Word) : (barWr s off v).fresh = s.fresh := rfl
@[simp] theorem barWr_mem (s : State) (off : Nat) (v : Word) : (barWr s off v).mem = s.mem := rfl
@[simp] theorem barWr_bad (s : State) (off : Nat) (v : Word) : (barWr s off v).bad = s.bad := rfl
@[simp] theorem barWr_soft (s : State) (off : Nat) (v : Word) : (barWr s off v).soft = s.soft := rfl
@[simp] theorem barWr_shadow (s : State) (off : Nat) (v : Word) : (barWr s off v).shadow = s.shadow := rfl
@[simp] theorem barWr_shadowEp (s : State) (off : Nat) (v : Word) : (barWr s off v).shadowEp = s.shadowEp := rfl
@[simp] theorem barWr_dieTlb (s : State) (off : Nat) (v : Word) : (barWr s off v).dieTlb = s.dieTlb := rfl
@[simp] theorem barWr_walks (s : State) (off : Nat) (v : Word) : (barWr s off v).walks = s.walks := rfl
@[simp] theorem barWr_invs (s : State) (off : Nat) (v : Word) : (barWr s off v).invs = s.invs := rfl
@[simp] theorem barWr_vers (s : State) (off : Nat) (v : Word) : (barWr s off v).vers = s.vers := rfl
@[simp] theorem barWr_vreg (s : State) (off : Nat) (v : Word) : (barWr s off v).vreg = s.vreg := rfl
@[simp] theorem barWr_hub (s : State) (off : Nat) (v : Word) : (barWr s off v).hub = s.hub := rfl
@[simp] theorem barWr_qs (s : State) (off : Nat) (v : Word) : (barWr s off v).qs = s.qs := rfl
@[simp] theorem barWr_gangs (s : State) (off : Nat) (v : Word) : (barWr s off v).gangs = s.gangs := rfl
@[simp] theorem barWr_handed (s : State) (off : Nat) (v : Word) : (barWr s off v).handed = s.handed := rfl
@[simp] theorem barWr_sched (s : State) (off : Nat) (v : Word) : (barWr s off v).sched = s.sched := rfl
@[simp] theorem barWr_loss (s : State) (off : Nat) (v : Word) : (barWr s off v).loss = s.loss := rfl
@[simp] theorem barWr_ranOn (s : State) (off : Nat) (v : Word) : (barWr s off v).ranOn = s.ranOn := rfl
@[simp] theorem barWr_binds (s : State) (off : Nat) (v : Word) : (barWr s off v).binds = s.binds := rfl
@[simp] theorem barWr_flashPkg (s : State) (off : Nat) (v : Word) : (barWr s off v).flashPkg = s.flashPkg := rfl
@[simp] theorem barWr_drl (s : State) (off : Nat) (v : Word) : (barWr s off v).drl = s.drl := rfl
@[simp] theorem barWr_sec (s : State) (off : Nat) (v : Word) : (barWr s off v).sec = s.sec := rfl
@[simp] theorem barWr_time (s : State) (off : Nat) (v : Word) : (barWr s off v).time = s.time := rfl
@[simp] theorem barWr_rpl (s : State) (off : Nat) (v : Word) : (barWr s off v).rpl = s.rpl := rfl
@[simp] theorem barWr_posted (s : State) (off : Nat) (v : Word) : (barWr s off v).posted = s.posted := rfl

@[simp] theorem post_agenda (s : State) (fn kind : Nat) (args : List Nat) : (post s fn kind args).agenda = s.agenda := rfl
@[simp] theorem post_now (s : State) (fn kind : Nat) (args : List Nat) : (post s fn kind args).now = s.now := rfl
@[simp] theorem post_dev (s : State) (fn kind : Nat) (args : List Nat) : (post s fn kind args).dev = s.dev := rfl
@[simp] theorem post_ppm (s : State) (fn kind : Nat) (args : List Nat) : (post s fn kind args).ppm = s.ppm := rfl
@[simp] theorem post_turn (s : State) (fn kind : Nat) (args : List Nat) : (post s fn kind args).turn = s.turn := rfl
@[simp] theorem post_cur (s : State) (fn kind : Nat) (args : List Nat) : (post s fn kind args).cur = s.cur := rfl
@[simp] theorem post_issue (s : State) (fn kind : Nat) (args : List Nat) : (post s fn kind args).issue = s.issue := rfl
@[simp] theorem post_cores (s : State) (fn kind : Nat) (args : List Nat) : (post s fn kind args).cores = s.cores := rfl
@[simp] theorem post_fresh (s : State) (fn kind : Nat) (args : List Nat) : (post s fn kind args).fresh = s.fresh := rfl
@[simp] theorem post_mem (s : State) (fn kind : Nat) (args : List Nat) : (post s fn kind args).mem = s.mem := rfl
@[simp] theorem post_bad (s : State) (fn kind : Nat) (args : List Nat) : (post s fn kind args).bad = s.bad := rfl
@[simp] theorem post_soft (s : State) (fn kind : Nat) (args : List Nat) : (post s fn kind args).soft = s.soft := rfl
@[simp] theorem post_bar (s : State) (fn kind : Nat) (args : List Nat) : (post s fn kind args).bar = s.bar := rfl
@[simp] theorem post_shadow (s : State) (fn kind : Nat) (args : List Nat) : (post s fn kind args).shadow = s.shadow := rfl
@[simp] theorem post_shadowEp (s : State) (fn kind : Nat) (args : List Nat) : (post s fn kind args).shadowEp = s.shadowEp := rfl
@[simp] theorem post_dieTlb (s : State) (fn kind : Nat) (args : List Nat) : (post s fn kind args).dieTlb = s.dieTlb := rfl
@[simp] theorem post_walks (s : State) (fn kind : Nat) (args : List Nat) : (post s fn kind args).walks = s.walks := rfl
@[simp] theorem post_invs (s : State) (fn kind : Nat) (args : List Nat) : (post s fn kind args).invs = s.invs := rfl
@[simp] theorem post_vers (s : State) (fn kind : Nat) (args : List Nat) : (post s fn kind args).vers = s.vers := rfl
@[simp] theorem post_vreg (s : State) (fn kind : Nat) (args : List Nat) : (post s fn kind args).vreg = s.vreg := rfl
@[simp] theorem post_hub (s : State) (fn kind : Nat) (args : List Nat) : (post s fn kind args).hub = s.hub := rfl
@[simp] theorem post_qs (s : State) (fn kind : Nat) (args : List Nat) : (post s fn kind args).qs = s.qs := rfl
@[simp] theorem post_gangs (s : State) (fn kind : Nat) (args : List Nat) : (post s fn kind args).gangs = s.gangs := rfl
@[simp] theorem post_handed (s : State) (fn kind : Nat) (args : List Nat) : (post s fn kind args).handed = s.handed := rfl
@[simp] theorem post_sched (s : State) (fn kind : Nat) (args : List Nat) : (post s fn kind args).sched = s.sched := rfl
@[simp] theorem post_loss (s : State) (fn kind : Nat) (args : List Nat) : (post s fn kind args).loss = s.loss := rfl
@[simp] theorem post_ranOn (s : State) (fn kind : Nat) (args : List Nat) : (post s fn kind args).ranOn = s.ranOn := rfl
@[simp] theorem post_binds (s : State) (fn kind : Nat) (args : List Nat) : (post s fn kind args).binds = s.binds := rfl
@[simp] theorem post_flashPkg (s : State) (fn kind : Nat) (args : List Nat) : (post s fn kind args).flashPkg = s.flashPkg := rfl
@[simp] theorem post_drl (s : State) (fn kind : Nat) (args : List Nat) : (post s fn kind args).drl = s.drl := rfl
@[simp] theorem post_sec (s : State) (fn kind : Nat) (args : List Nat) : (post s fn kind args).sec = s.sec := rfl
@[simp] theorem post_time (s : State) (fn kind : Nat) (args : List Nat) : (post s fn kind args).time = s.time := rfl
@[simp] theorem post_rpl (s : State) (fn kind : Nat) (args : List Nat) : (post s fn kind args).rpl = s.rpl := rfl

@[simp] theorem memSetNat_agenda (s : State) (a n v : Nat) : (memSetNat s a n v).agenda = s.agenda := rfl
@[simp] theorem memSetNat_now (s : State) (a n v : Nat) : (memSetNat s a n v).now = s.now := rfl
@[simp] theorem memSetNat_dev (s : State) (a n v : Nat) : (memSetNat s a n v).dev = s.dev := rfl
@[simp] theorem memSetNat_ppm (s : State) (a n v : Nat) : (memSetNat s a n v).ppm = s.ppm := rfl
@[simp] theorem memSetNat_turn (s : State) (a n v : Nat) : (memSetNat s a n v).turn = s.turn := rfl
@[simp] theorem memSetNat_cur (s : State) (a n v : Nat) : (memSetNat s a n v).cur = s.cur := rfl
@[simp] theorem memSetNat_issue (s : State) (a n v : Nat) : (memSetNat s a n v).issue = s.issue := rfl
@[simp] theorem memSetNat_cores (s : State) (a n v : Nat) : (memSetNat s a n v).cores = s.cores := rfl
@[simp] theorem memSetNat_fresh (s : State) (a n v : Nat) : (memSetNat s a n v).fresh = s.fresh := rfl
@[simp] theorem memSetNat_bad (s : State) (a n v : Nat) : (memSetNat s a n v).bad = s.bad := rfl
@[simp] theorem memSetNat_soft (s : State) (a n v : Nat) : (memSetNat s a n v).soft = s.soft := rfl
@[simp] theorem memSetNat_bar (s : State) (a n v : Nat) : (memSetNat s a n v).bar = s.bar := rfl
@[simp] theorem memSetNat_shadow (s : State) (a n v : Nat) : (memSetNat s a n v).shadow = s.shadow := rfl
@[simp] theorem memSetNat_shadowEp (s : State) (a n v : Nat) : (memSetNat s a n v).shadowEp = s.shadowEp := rfl
@[simp] theorem memSetNat_dieTlb (s : State) (a n v : Nat) : (memSetNat s a n v).dieTlb = s.dieTlb := rfl
@[simp] theorem memSetNat_walks (s : State) (a n v : Nat) : (memSetNat s a n v).walks = s.walks := rfl
@[simp] theorem memSetNat_invs (s : State) (a n v : Nat) : (memSetNat s a n v).invs = s.invs := rfl
@[simp] theorem memSetNat_vers (s : State) (a n v : Nat) : (memSetNat s a n v).vers = s.vers := rfl
@[simp] theorem memSetNat_vreg (s : State) (a n v : Nat) : (memSetNat s a n v).vreg = s.vreg := rfl
@[simp] theorem memSetNat_hub (s : State) (a n v : Nat) : (memSetNat s a n v).hub = s.hub := rfl
@[simp] theorem memSetNat_qs (s : State) (a n v : Nat) : (memSetNat s a n v).qs = s.qs := rfl
@[simp] theorem memSetNat_gangs (s : State) (a n v : Nat) : (memSetNat s a n v).gangs = s.gangs := rfl
@[simp] theorem memSetNat_handed (s : State) (a n v : Nat) : (memSetNat s a n v).handed = s.handed := rfl
@[simp] theorem memSetNat_sched (s : State) (a n v : Nat) : (memSetNat s a n v).sched = s.sched := rfl
@[simp] theorem memSetNat_loss (s : State) (a n v : Nat) : (memSetNat s a n v).loss = s.loss := rfl
@[simp] theorem memSetNat_ranOn (s : State) (a n v : Nat) : (memSetNat s a n v).ranOn = s.ranOn := rfl
@[simp] theorem memSetNat_binds (s : State) (a n v : Nat) : (memSetNat s a n v).binds = s.binds := rfl
@[simp] theorem memSetNat_flashPkg (s : State) (a n v : Nat) : (memSetNat s a n v).flashPkg = s.flashPkg := rfl
@[simp] theorem memSetNat_drl (s : State) (a n v : Nat) : (memSetNat s a n v).drl = s.drl := rfl
@[simp] theorem memSetNat_sec (s : State) (a n v : Nat) : (memSetNat s a n v).sec = s.sec := rfl
@[simp] theorem memSetNat_time (s : State) (a n v : Nat) : (memSetNat s a n v).time = s.time := rfl
@[simp] theorem memSetNat_rpl (s : State) (a n v : Nat) : (memSetNat s a n v).rpl = s.rpl := rfl
@[simp] theorem memSetNat_posted (s : State) (a n v : Nat) : (memSetNat s a n v).posted = s.posted := rfl

/-! ## One core -/

@[simp] theorem dropOvertaken_r (c : Core) (d : WbDest) : (dropOvertaken c d).r = c.r := rfl
@[simp] theorem dropOvertaken_m (c : Core) (d : WbDest) : (dropOvertaken c d).m = c.m := rfl
@[simp] theorem dropOvertaken_q (c : Core) (d : WbDest) : (dropOvertaken c d).q = c.q := rfl
@[simp] theorem dropOvertaken_prog (c : Core) (d : WbDest) : (dropOvertaken c d).prog = c.prog := rfl
@[simp] theorem dropOvertaken_bind (c : Core) (d : WbDest) : (dropOvertaken c d).bind = c.bind := rfl
@[simp] theorem dropOvertaken_ct (c : Core) (d : WbDest) : (dropOvertaken c d).ct = c.ct := rfl
@[simp] theorem dropOvertaken_tlbR (c : Core) (d : WbDest) : (dropOvertaken c d).tlbR = c.tlbR := rfl
@[simp] theorem dropOvertaken_tlbP (c : Core) (d : WbDest) : (dropOvertaken c d).tlbP = c.tlbP := rfl
@[simp] theorem dropOvertaken_pmc (c : Core) (d : WbDest) : (dropOvertaken c d).pmc = c.pmc := rfl
@[simp] theorem dropOvertaken_halted (c : Core) (d : WbDest) : (dropOvertaken c d).halted = c.halted := rfl
@[simp] theorem dropOvertaken_dbgErr (c : Core) (d : WbDest) : (dropOvertaken c d).dbgErr = c.dbgErr := rfl
@[simp] theorem dropOvertaken_dbgDetail (c : Core) (d : WbDest) : (dropOvertaken c d).dbgDetail = c.dbgDetail := rfl
@[simp] theorem dropOvertaken_conf (c : Core) (d : WbDest) : (dropOvertaken c d).conf = c.conf := rfl
@[simp] theorem dropOvertaken_lines (c : Core) (d : WbDest) : (dropOvertaken c d).lines = c.lines := rfl
@[simp] theorem dropOvertaken_asks (c : Core) (d : WbDest) : (dropOvertaken c d).asks = c.asks := rfl
@[simp] theorem dropOvertaken_sample (c : Core) (d : WbDest) : (dropOvertaken c d).sample = c.sample := rfl
@[simp] theorem dropOvertaken_store (c : Core) (d : WbDest) : (dropOvertaken c d).store = c.store := rfl

@[simp] theorem setP_m (c : Core) (n : Nat) (v : Bool) : (setP c n v).m = c.m := rfl
@[simp] theorem setP_f (c : Core) (n : Nat) (v : Bool) : (setP c n v).f = c.f := rfl
@[simp] theorem setP_prog (c : Core) (n : Nat) (v : Bool) : (setP c n v).prog = c.prog := rfl
@[simp] theorem setP_bind (c : Core) (n : Nat) (v : Bool) : (setP c n v).bind = c.bind := rfl
@[simp] theorem setP_ct (c : Core) (n : Nat) (v : Bool) : (setP c n v).ct = c.ct := rfl
@[simp] theorem setP_tlbR (c : Core) (n : Nat) (v : Bool) : (setP c n v).tlbR = c.tlbR := rfl
@[simp] theorem setP_tlbP (c : Core) (n : Nat) (v : Bool) : (setP c n v).tlbP = c.tlbP := rfl
@[simp] theorem setP_pmc (c : Core) (n : Nat) (v : Bool) : (setP c n v).pmc = c.pmc := rfl
@[simp] theorem setP_halted (c : Core) (n : Nat) (v : Bool) : (setP c n v).halted = c.halted := rfl
@[simp] theorem setP_dbgErr (c : Core) (n : Nat) (v : Bool) : (setP c n v).dbgErr = c.dbgErr := rfl
@[simp] theorem setP_dbgDetail (c : Core) (n : Nat) (v : Bool) : (setP c n v).dbgDetail = c.dbgDetail := rfl
@[simp] theorem setP_conf (c : Core) (n : Nat) (v : Bool) : (setP c n v).conf = c.conf := rfl
@[simp] theorem setP_lines (c : Core) (n : Nat) (v : Bool) : (setP c n v).lines = c.lines := rfl
@[simp] theorem setP_asks (c : Core) (n : Nat) (v : Bool) : (setP c n v).asks = c.asks := rfl
@[simp] theorem setP_sample (c : Core) (n : Nat) (v : Bool) : (setP c n v).sample = c.sample := rfl
@[simp] theorem setP_store (c : Core) (n : Nat) (v : Bool) : (setP c n v).store = c.store := rfl

@[simp] theorem ctSet_r (c : Core) (n : Nat) (v : Word) : (ctSet c n v).r = c.r := rfl
@[simp] theorem ctSet_m (c : Core) (n : Nat) (v : Word) : (ctSet c n v).m = c.m := rfl
@[simp] theorem ctSet_f (c : Core) (n : Nat) (v : Word) : (ctSet c n v).f = c.f := rfl
@[simp] theorem ctSet_q (c : Core) (n : Nat) (v : Word) : (ctSet c n v).q = c.q := rfl
@[simp] theorem ctSet_prog (c : Core) (n : Nat) (v : Word) : (ctSet c n v).prog = c.prog := rfl
@[simp] theorem ctSet_bind (c : Core) (n : Nat) (v : Word) : (ctSet c n v).bind = c.bind := rfl
@[simp] theorem ctSet_tlbR (c : Core) (n : Nat) (v : Word) : (ctSet c n v).tlbR = c.tlbR := rfl
@[simp] theorem ctSet_tlbP (c : Core) (n : Nat) (v : Word) : (ctSet c n v).tlbP = c.tlbP := rfl
@[simp] theorem ctSet_pmc (c : Core) (n : Nat) (v : Word) : (ctSet c n v).pmc = c.pmc := rfl
@[simp] theorem ctSet_halted (c : Core) (n : Nat) (v : Word) : (ctSet c n v).halted = c.halted := rfl
@[simp] theorem ctSet_dbgErr (c : Core) (n : Nat) (v : Word) : (ctSet c n v).dbgErr = c.dbgErr := rfl
@[simp] theorem ctSet_dbgDetail (c : Core) (n : Nat) (v : Word) : (ctSet c n v).dbgDetail = c.dbgDetail := rfl
@[simp] theorem ctSet_conf (c : Core) (n : Nat) (v : Word) : (ctSet c n v).conf = c.conf := rfl
@[simp] theorem ctSet_lines (c : Core) (n : Nat) (v : Word) : (ctSet c n v).lines = c.lines := rfl
@[simp] theorem ctSet_asks (c : Core) (n : Nat) (v : Word) : (ctSet c n v).asks = c.asks := rfl
@[simp] theorem ctSet_sample (c : Core) (n : Nat) (v : Word) : (ctSet c n v).sample = c.sample := rfl
@[simp] theorem ctSet_store (c : Core) (n : Nat) (v : Word) : (ctSet c n v).store = c.store := rfl

@[simp] theorem addAln_m (c : Core) (n : Nat) : (addAln c n).m = c.m := rfl
@[simp] theorem addAln_f (c : Core) (n : Nat) : (addAln c n).f = c.f := rfl
@[simp] theorem addAln_q (c : Core) (n : Nat) : (addAln c n).q = c.q := rfl
@[simp] theorem addAln_prog (c : Core) (n : Nat) : (addAln c n).prog = c.prog := rfl
@[simp] theorem addAln_bind (c : Core) (n : Nat) : (addAln c n).bind = c.bind := rfl
@[simp] theorem addAln_ct (c : Core) (n : Nat) : (addAln c n).ct = c.ct := rfl
@[simp] theorem addAln_tlbR (c : Core) (n : Nat) : (addAln c n).tlbR = c.tlbR := rfl
@[simp] theorem addAln_tlbP (c : Core) (n : Nat) : (addAln c n).tlbP = c.tlbP := rfl
@[simp] theorem addAln_pmc (c : Core) (n : Nat) : (addAln c n).pmc = c.pmc := rfl
@[simp] theorem addAln_halted (c : Core) (n : Nat) : (addAln c n).halted = c.halted := rfl
@[simp] theorem addAln_dbgErr (c : Core) (n : Nat) : (addAln c n).dbgErr = c.dbgErr := rfl
@[simp] theorem addAln_dbgDetail (c : Core) (n : Nat) : (addAln c n).dbgDetail = c.dbgDetail := rfl
@[simp] theorem addAln_conf (c : Core) (n : Nat) : (addAln c n).conf = c.conf := rfl
@[simp] theorem addAln_lines (c : Core) (n : Nat) : (addAln c n).lines = c.lines := rfl
@[simp] theorem addAln_asks (c : Core) (n : Nat) : (addAln c n).asks = c.asks := rfl
@[simp] theorem addAln_sample (c : Core) (n : Nat) : (addAln c n).sample = c.sample := rfl
@[simp] theorem addAln_store (c : Core) (n : Nat) : (addAln c n).store = c.store := rfl

@[simp] theorem addCvt_m (c : Core) (n : Nat) : (addCvt c n).m = c.m := rfl
@[simp] theorem addCvt_f (c : Core) (n : Nat) : (addCvt c n).f = c.f := rfl
@[simp] theorem addCvt_q (c : Core) (n : Nat) : (addCvt c n).q = c.q := rfl
@[simp] theorem addCvt_prog (c : Core) (n : Nat) : (addCvt c n).prog = c.prog := rfl
@[simp] theorem addCvt_bind (c : Core) (n : Nat) : (addCvt c n).bind = c.bind := rfl
@[simp] theorem addCvt_ct (c : Core) (n : Nat) : (addCvt c n).ct = c.ct := rfl
@[simp] theorem addCvt_tlbR (c : Core) (n : Nat) : (addCvt c n).tlbR = c.tlbR := rfl
@[simp] theorem addCvt_tlbP (c : Core) (n : Nat) : (addCvt c n).tlbP = c.tlbP := rfl
@[simp] theorem addCvt_pmc (c : Core) (n : Nat) : (addCvt c n).pmc = c.pmc := rfl
@[simp] theorem addCvt_halted (c : Core) (n : Nat) : (addCvt c n).halted = c.halted := rfl
@[simp] theorem addCvt_dbgErr (c : Core) (n : Nat) : (addCvt c n).dbgErr = c.dbgErr := rfl
@[simp] theorem addCvt_dbgDetail (c : Core) (n : Nat) : (addCvt c n).dbgDetail = c.dbgDetail := rfl
@[simp] theorem addCvt_conf (c : Core) (n : Nat) : (addCvt c n).conf = c.conf := rfl
@[simp] theorem addCvt_lines (c : Core) (n : Nat) : (addCvt c n).lines = c.lines := rfl
@[simp] theorem addCvt_asks (c : Core) (n : Nat) : (addCvt c n).asks = c.asks := rfl
@[simp] theorem addCvt_sample (c : Core) (n : Nat) : (addCvt c n).sample = c.sample := rfl
@[simp] theorem addCvt_store (c : Core) (n : Nat) : (addCvt c n).store = c.store := rfl

@[simp] theorem setAside_r (c : Core) (g : Option GOp) : (setAside c g).r = c.r := rfl
@[simp] theorem setAside_m (c : Core) (g : Option GOp) : (setAside c g).m = c.m := rfl
@[simp] theorem setAside_prog (c : Core) (g : Option GOp) : (setAside c g).prog = c.prog := rfl
@[simp] theorem setAside_bind (c : Core) (g : Option GOp) : (setAside c g).bind = c.bind := rfl
@[simp] theorem setAside_ct (c : Core) (g : Option GOp) : (setAside c g).ct = c.ct := rfl
@[simp] theorem setAside_tlbR (c : Core) (g : Option GOp) : (setAside c g).tlbR = c.tlbR := rfl
@[simp] theorem setAside_tlbP (c : Core) (g : Option GOp) : (setAside c g).tlbP = c.tlbP := rfl
@[simp] theorem setAside_pmc (c : Core) (g : Option GOp) : (setAside c g).pmc = c.pmc := rfl
@[simp] theorem setAside_halted (c : Core) (g : Option GOp) : (setAside c g).halted = c.halted := rfl
@[simp] theorem setAside_dbgErr (c : Core) (g : Option GOp) : (setAside c g).dbgErr = c.dbgErr := rfl
@[simp] theorem setAside_dbgDetail (c : Core) (g : Option GOp) : (setAside c g).dbgDetail = c.dbgDetail := rfl
@[simp] theorem setAside_conf (c : Core) (g : Option GOp) : (setAside c g).conf = c.conf := rfl
@[simp] theorem setAside_lines (c : Core) (g : Option GOp) : (setAside c g).lines = c.lines := rfl
@[simp] theorem setAside_asks (c : Core) (g : Option GOp) : (setAside c g).asks = c.asks := rfl
@[simp] theorem setAside_sample (c : Core) (g : Option GOp) : (setAside c g).sample = c.sample := rfl
@[simp] theorem setAside_store (c : Core) (g : Option GOp) : (setAside c g).store = c.store := rfl

/-! ## A scalar register: nothing but the register file changes, and nothing at all for s0 -/

@[simp] theorem setS_m (c : Core) (n : Nat) (v : Word) : (setS c n v).m = c.m := by unfold setS; split <;> rfl
@[simp] theorem setS_f (c : Core) (n : Nat) (v : Word) : (setS c n v).f = c.f := by unfold setS; split <;> rfl
@[simp] theorem setS_q (c : Core) (n : Nat) (v : Word) : (setS c n v).q = c.q := by unfold setS; split <;> rfl
@[simp] theorem setS_prog (c : Core) (n : Nat) (v : Word) : (setS c n v).prog = c.prog := by unfold setS; split <;> rfl
@[simp] theorem setS_bind (c : Core) (n : Nat) (v : Word) : (setS c n v).bind = c.bind := by unfold setS; split <;> rfl
@[simp] theorem setS_ct (c : Core) (n : Nat) (v : Word) : (setS c n v).ct = c.ct := by unfold setS; split <;> rfl
@[simp] theorem setS_tlbR (c : Core) (n : Nat) (v : Word) : (setS c n v).tlbR = c.tlbR := by unfold setS; split <;> rfl
@[simp] theorem setS_tlbP (c : Core) (n : Nat) (v : Word) : (setS c n v).tlbP = c.tlbP := by unfold setS; split <;> rfl
@[simp] theorem setS_pmc (c : Core) (n : Nat) (v : Word) : (setS c n v).pmc = c.pmc := by unfold setS; split <;> rfl
@[simp] theorem setS_halted (c : Core) (n : Nat) (v : Word) : (setS c n v).halted = c.halted := by unfold setS; split <;> rfl
@[simp] theorem setS_dbgErr (c : Core) (n : Nat) (v : Word) : (setS c n v).dbgErr = c.dbgErr := by unfold setS; split <;> rfl
@[simp] theorem setS_dbgDetail (c : Core) (n : Nat) (v : Word) : (setS c n v).dbgDetail = c.dbgDetail := by unfold setS; split <;> rfl
@[simp] theorem setS_conf (c : Core) (n : Nat) (v : Word) : (setS c n v).conf = c.conf := by unfold setS; split <;> rfl
@[simp] theorem setS_lines (c : Core) (n : Nat) (v : Word) : (setS c n v).lines = c.lines := by unfold setS; split <;> rfl
@[simp] theorem setS_asks (c : Core) (n : Nat) (v : Word) : (setS c n v).asks = c.asks := by unfold setS; split <;> rfl
@[simp] theorem setS_sample (c : Core) (n : Nat) (v : Word) : (setS c n v).sample = c.sample := by unfold setS; split <;> rfl
@[simp] theorem setS_store (c : Core) (n : Nat) (v : Word) : (setS c n v).store = c.store := by unfold setS; split <;> rfl

end Sys2Proof.Machine
end

