-- ==== Sys2Proof/Laws/Ops.lean ====
section
/-! SUPPORT. Laws/Ops: what the shared operations of a slot can do, once each. -/

namespace Sys2Proof.Machine

theorem coreAt_modCore_same (s : State) (c : Nat) (f : Core → Core) : coreAt (modCore s c f) c = f (coreAt s c) := by
  simp [coreAt, modCore]

theorem coreAt_modCore_other (s : State) (c n : Nat) (f : Core → Core) (h : n ≠ c) : coreAt (modCore s c f) n = coreAt s n := by
  simp [coreAt, modCore, spGet_spSet_other, h]

/-- A change of one core is a change of that core only. -/
theorem onlyCore_modCore (s : State) (c : Nat) (f : Core → Core) : OnlyCore s (modCore s c f) c :=
  ⟨rfl, fun n h => coreAt_modCore_other s c n f h⟩

theorem onlyCore_wr (s : State) (f : Core → Core) : OnlyCore s (wr s f) (hereNo s) := onlyCore_modCore s _ f

theorem onlyCore_trans {s t u : State} {c : Nat} (h : OnlyCore s t c) (h' : OnlyCore t u c) : OnlyCore s u c := by
  refine ⟨?_, fun n hn => (h'.2 n hn).trans (h.2 n hn)⟩
  have a := h.1; have b := h'.1
  rw [← b] at a
  simpa using a

theorem onlyCore_refl (s : State) (c : Nat) : OnlyCore s s c := ⟨rfl, fun _ _ => rfl⟩

@[simp] theorem hereNo_modCore (s : State) (c : Nat) (f : Core → Core) : hereNo (modCore s c f) = hereNo s := rfl
@[simp] theorem hereNo_wr (s : State) (f : Core → Core) : hereNo (wr s f) = hereNo s := rfl
@[simp] theorem live_wr (s : State) (f : Core → Core) : live (wr s f) = f (live s) := coreAt_modCore_same s _ f
@[simp] theorem coreAt_wr (s : State) (f : Core → Core) : coreAt (wr s f) (hereNo s) = f (live s) := coreAt_modCore_same s _ f

/-- Two changes of the core at hand are one. -/
theorem spSet_spSet {α : Type} (m : Sp α) (k : Nat) (v w : α) : spSet (spSet m k v) k w = spSet m k w := by
  induction m with
  | nil => simp [spSet]
  | cons e m ih =>
    obtain ⟨j, x⟩ := e
    by_cases h1 : k < j
    · simp [spSet, h1]
    · by_cases h2 : j = k
      · simp [spSet, h2]
      · simp [spSet, h1, h2, ih]

theorem modCore_modCore (s : State) (c : Nat) (f g : Core → Core) : modCore (modCore s c f) c g = modCore s c fun k => g (f k) := by
  simp only [modCore, spSet_spSet, coreAt, spGet_spSet_same]

theorem wr_wr (s : State) (f g : Core → Core) : wr (wr s f) g = wr s fun k => g (f k) := modCore_modCore s _ f g

@[simp] theorem guarded_true (s : State) (p : Nat) (f : State → State) (h : guardOf s p = true) : guarded s p f = f s := by
  simp [guarded, h]

@[simp] theorem guarded_false (s : State) (p : Nat) (f : State → State) (h : guardOf s p = false) : guarded s p f = s := by
  simp [guarded, h]

theorem sreg_setS (c : Core) (d n : Nat) (v : Word) :
    sreg (setS c d v) n = if n = d then (if d = 0 then 0 else v) else sreg c n := by
  by_cases hd : d = 0
  · subst hd; by_cases hn : n = 0 <;> simp [setS, sreg, hn]
  · by_cases hn : n = d
    · subst hn; simp [setS, sreg, hd]
    · by_cases h0 : n = 0
      · have h00 : ¬0 = d := fun h => hd h.symm
        simp [sreg, h0, h00]
      · simp [setS, sreg, hd, hn, h0, spGet_spSet_other]

/-- A latency-1 scalar result: all that it does. -/
theorem scalarStep_putS (s : State) (d : Nat) (v : Word) : ScalarStep s (putS s d v) d v := by
  refine ⟨onlyCore_wr s _, ?_, ?_, ?_⟩
  · simp [putS, sreg_setS]
  · intro n hn
    simp only [putS, coreAt_wr, sreg_setS, hn, if_false]
    rfl
  · simp only [putS, coreAt_wr]
    by_cases hd : d = 0 <;> simp [setS, hd, dropOvertaken]

theorem preg_setPBit (p : BitVec 16) (d n : Nat) (v : Bool) (hn : n < 16) :
    (n == 0 || (setPBit p d v).getLsbD n) = (if n = 0 then true else if n = d then v else (n == 0 || p.getLsbD n)) := by
  by_cases h0 : n = 0
  · simp [h0]
  · simp only [h0, if_false]
    by_cases hd : d = 0
    · subst hd; simp [setPBit, h0]
    · by_cases hnd : n = d
      · subst hnd
        cases v <;> simp [setPBit, h0, hn]
      · have hsh : n < d ∨ ¬(n - d = 0) := by omega
        cases v <;> rcases hsh with h | h <;> simp [setPBit, hd, hnd, hn, h]

/-- Two predicates written in turn: all that it does. -/
theorem predStep_putP (s : State) (d : Nat) (v : Bool) :
    PredStep s (putP s d v) fun n => if n = d then some v else none := by
  refine ⟨onlyCore_wr s _, ?_, ?_, ?_⟩
  · intro n hn
    have := preg_setPBit (live s).r.p d n v hn
    simp only [putP, coreAt_wr, preg, setP, dropOvertaken]
    rw [this]
    by_cases h0 : n = 0 <;> by_cases hd : n = d <;> simp [h0, hd]
  · intro e he
    simp only [putP, coreAt_wr, setP, dropOvertaken] at he
    exact (List.mem_filter.mp he).1
  · simp only [putP, coreAt_wr, setP, dropOvertaken]

theorem predStep_trans {s t u : State} {w w' : Nat → Option Bool} (h : PredStep s t w) (h' : PredStep t u w') :
    PredStep s u fun n => (w' n).or (w n) := by
  obtain ⟨h1, h2, h3, h4⟩ := h
  have hh : hereNo t = hereNo s := by have := congrArg hereNo h1.1; exact this
  unfold PredStep at h'
  have hl : live t = coreAt t (hereNo s) := by simp [live, hh]
  rw [hl, hh] at h'
  obtain ⟨g1, g2, g3, g4⟩ := h'
  refine ⟨onlyCore_trans h1 g1, ?_, fun e he => h3 e (g3 e he), ?_⟩
  · intro n hn
    rw [g2 n hn]
    by_cases h0 : n = 0
    · simp [h0]
    · rw [h2 n hn]
      cases h5 : w' n <;> cases h6 : w n <;> simp [h0, h5, h6, live]
  · rw [g4, h4]

theorem predStep_congr {s t : State} {w w' : Nat → Option Bool} (h : PredStep s t w) (e : ∀ n, n < 16 → n ≠ 0 → w n = w' n) : PredStep s t w' := by
  obtain ⟨h1, h2, h3, h4⟩ := h
  refine ⟨h1, ?_, h3, h4⟩
  intro n hn
  rw [h2 n hn]
  by_cases h0 : n = 0
  · simp [h0]
  · rw [e n hn h0]

/-- A late result: all that it does. -/
theorem lateStep_putLate (s : State) (lat : Nat) (d : WbDest) : LateStep s (putLate s lat d) lat [d] :=
  ⟨onlyCore_wr s _, by simp [putLate]⟩

/-- A fault while a bundle issues is put on record. -/
theorem raise_issue (s : State) (b : Issue) (h : s.issue = some b) (dflt cause detail : Nat) (addr : Word) :
    raise s (slotNow s dflt) cause detail addr = recorded s b cause detail addr := by
  simp [raise, slotNow, h, recorded]

end Sys2Proof.Machine
end

