-- ==== Sys2Proof/Laws/Step.lean ====
section
/-! SUPPORT. Laws/Step: what follows every event keeps the canonical form of memory, and what the small operations of a core's cycle leave alone. -/

namespace Sys2Proof.Machine

/-- What the end of HBM cuts off keeps the canonical form (R12). -/
theorem clip_wf (s : State) (h : Memory.wf s.mem = true) : Memory.wf (clip s).mem = true := memSorted_filter s.mem 0 _ h

/-- Within HBM nothing is cut off. -/
theorem clip_of_within (s : State) (h : ∀ e ∈ s.mem, e.1 < hbmSize) : clip s = s := by
  have : (s.mem.filter fun (a, _) => a < hbmSize) = s.mem := List.filter_eq_self.mpr fun e he => by simpa using h e he
  simp only [clip, this]

/-- A core at the beginning of no pass is left as it is (R39). -/
theorem beginPass_of_none (k : Core) (h : k.q.newPass = none) : beginPass k = k := by simp [beginPass, h]

/-- The beginning of a pass leaves memories, what is in flight and the counters alone (R39). -/
theorem beginPass_frame (k : Core) : (beginPass k).m = k.m ∧ (beginPass k).f = k.f ∧ (beginPass k).ct = k.ct ∧ (beginPass k).bind = k.bind ∧
    (beginPass k).prog = k.prog ∧ (beginPass k).q.pc = k.q.pc := by
  unfold beginPass; split <;> simp

/-- Matrix operations leaving flight touch what is in flight alone (R231). -/
theorem xRetire_frame (k : Core) : (xRetire k).r = k.r ∧ (xRetire k).m = k.m ∧ (xRetire k).q = k.q ∧ (xRetire k).ct = k.ct ∧ (xRetire k).bind = k.bind := by
  simp [xRetire]

/-- A line let go is held for nothing. -/
@[simp] theorem release_hold (q : Seqr) : q.release.hold = .none := rfl
@[simp] theorem release_holdG (q : Seqr) : q.release.holdG = .none := rfl
@[simp] theorem release_holdO (q : Seqr) : q.release.holdO = .none := rfl
@[simp] theorem release_pc (q : Seqr) : q.release.pc = q.pc := rfl

/-- What a core does on its own to its own state is seen by no other core. -/
theorem onlyCore_freeG (s : State) (c : Nat) : OnlyCore s (freeG s c) c := onlyCore_modCore s c _

theorem onlyCore_gRemove (s : State) (c i : Nat) : OnlyCore s (gRemove s c i) c := onlyCore_modCore s c _

end Sys2Proof.Machine
end

