-- ==== Sys2Proof/Tests/Slice0.lean ====
section
/-! SUPPORT. Tests: words decoded bit by bit, ill-formed terms, small values by hand, and for each statement with hypotheses operands and
states that meet them. -/

namespace Sys2Proof.Tests

open Sys2Proof.Machine

set_option maxRecDepth 8000

set_option Elab.async false

/-- Every word of a list decodes to what stands beside it. -/
def decodeAll (k : SlotClass) : List (Nat × Instr) → Prop
  | [] => True
  | (w, i) :: l => decodeSlot k w = .ok i ∧ decodeAll k l

/-- Words of the control slot, written out from the formats and the map of spec/08 (R147 to R161): predicate, opcode, fields. -/
theorem test_decode_control_1 : decodeAll .c [
    (0b0101_00000_000000000000000, .cNop 5),
    (0b0101_00001_110_101010111100, .pbr 5 6 0xABC),
    (0b0101_00010_011_100001_000000, .pbrS 5 3 33),
    (0b0101_00011_100_1001_00000000, .br 5 4 9),
    (0b0101_00100_001_1110_00000000, .brN 5 1 14),
    (0b0101_00101_111_000000000000, .call 5 7),
    (0b0101_00110_000000000000000, .ret 5),
    (0b0101_00111_110_000000000000, .loop 5 6),
    (0b0101_01000_110_000000000000, .loopSwp 5 6),
    (0b0101_01001_110_000000000000, .lbrk 5 6),
    (0b0101_01010_100101100_111110, .ctwait 5 300 62),
    (0b0101_01011_111111111_000001, .ctwaitT 5 511 1),
    (0b0101_01100_000000000_111101, .ctwaitG 5 61),
    (0b0101_01101_000000000_000010, .ctwaitGt 5 2),
    (0b0101_01110_1_0001_1_1111_00000, .tkwait 5 0x11 0x1F 0),
    (0b0101_01111_000000000000000, .sstep 5),
    (0b0101_10000_000000000000000, .yield 5),
    (0b0101_10001_000000000000000, .halt 5),
    (0b0101_10100_000000000000000, .tret 5),
    (0b0101_10010_0000000_01100100, .brk 5 100),
    (0b0101_10011_0000000_01111111, .trap 5 127),
    (0b0101_10101_101000_100000111, .sysrd 5 40 0x107),
    (0b0101_10110_101001_000000101, .syswr 5 41 0x005),
    (0b0101_10111_0000000_11001000, .wheel 5 200)] :=
  ⟨rfl, rfl, rfl, rfl, rfl, rfl, rfl, rfl, rfl, rfl, rfl, rfl, rfl, rfl, rfl, rfl, rfl, rfl, rfl, rfl, rfl, rfl, rfl, rfl, trivial⟩

/-- Words of the control slot, written out from the formats and the map of spec/08 (R147 to R161): predicate, opcode, fields. -/
theorem test_decode_control_2 : decodeAll .c [
    (0b0101_11000_00000000000_1011, .pwrHint 5 11)] :=
  ⟨rfl, trivial⟩

/-- Words of the scalar slot, written out from the formats and the map of spec/08 (R147 to R161): predicate, opcode, fields. -/
theorem test_decode_scalar_1 : decodeAll .s [
    (0b0101_000000_000000000000000000, .sNop 5),
    (0b0101_000001_111100_100001_010001, .add 5 60 33 17),
    (0b0101_000010_111100_100001_010001, .sub 5 60 33 17),
    (0b0101_000011_111100_100001_010001, .mul 5 60 33 17),
    (0b0101_000100_111100_100001_010001, .mulh 5 60 33 17),
    (0b0101_000101_111100_100001_010001, .mulhu 5 60 33 17),
    (0b0101_000110_111100_100001_010001, .div 5 60 33 17),
    (0b0101_000111_111100_100001_010001, .divu 5 60 33 17),
    (0b0101_001000_111100_100001_010001, .rem 5 60 33 17),
    (0b0101_001001_111100_100001_010001, .remu 5 60 33 17),
    (0b0101_001010_111100_100001_010001, .and 5 60 33 17),
    (0b0101_001011_111100_100001_010001, .or 5 60 33 17),
    (0b0101_001100_111100_100001_010001, .xor 5 60 33 17),
    (0b0101_001101_111100_100001_010001, .andn 5 60 33 17),
    (0b0101_001110_111100_100001_010001, .sll 5 60 33 17),
    (0b0101_001111_111100_100001_010001, .srl 5 60 33 17),
    (0b0101_010000_111100_100001_010001, .sra 5 60 33 17),
    (0b0101_010100_111100_100001_010001, .min 5 60 33 17),
    (0b0101_010101_111100_100001_010001, .max 5 60 33 17),
    (0b0101_010110_111100_100001_010001, .minu 5 60 33 17),
    (0b0101_010111_111100_100001_010001, .maxu 5 60 33 17),
    (0b0101_110000_111100_100001_010001, .fadd 5 60 33 17),
    (0b0101_110001_111100_100001_010001, .fsub 5 60 33 17),
    (0b0101_110010_111100_100001_010001, .fmul 5 60 33 17)] :=
  ⟨rfl, rfl, rfl, rfl, rfl, rfl, rfl, rfl, rfl, rfl, rfl, rfl, rfl, rfl, rfl, rfl, rfl, rfl, rfl, rfl, rfl, rfl, rfl, rfl, trivial⟩

/-- Words of the scalar slot, written out from the formats and the map of spec/08 (R147 to R161): predicate, opcode, fields. -/
theorem test_decode_scalar_2 : decodeAll .s [
    (0b0101_110011_111100_100001_010001, .fdiv 5 60 33 17),
    (0b0101_110101_111100_100001_010001, .fmin 5 60 33 17),
    (0b0101_110110_111100_100001_010001, .fmax 5 60 33 17),
    (0b0101_111011_111100_100001_010001, .fsGcd 5 60 33 17),
    (0b0101_111100_111100_100001_010001, .fsMk 5 60 33 17),
    (0b0101_111101_111100_100001_010001, .fsMed 5 60 33 17),
    (0b0101_111110_111100_100001_010001, .fsNear 5 60 33 17),
    (0b0101_010001_111100_100001_111111, .slli 5 60 33 63),
    (0b0101_010010_111100_100001_111111, .srli 5 60 33 63),
    (0b0101_010011_111100_100001_111111, .srai 5 60 33 63),
    (0b0101_011000_111100_100001_000000, .popc 5 60 33),
    (0b0101_011001_111100_100001_000000, .clz 5 60 33),
    (0b0101_110100_111100_100001_000000, .fsqrt 5 60 33),
    (0b0101_111001_111100_100001_000000, .fabs 5 60 33),
    (0b0101_111010_111100_100001_000000, .fneg 5 60 33),
    (0b0101_011010_111_000_100001_010001, .cmpEq 5 7 33 17),
    (0b0101_011010_111_001_100001_010001, .cmpLt 5 7 33 17),
    (0b0101_011010_111_010_100001_010001, .cmpLtu 5 7 33 17),
    (0b0101_011010_111_011_100001_010001, .cmpLe 5 7 33 17),
    (0b0101_011010_111_100_100001_010001, .cmpLeu 5 7 33 17),
    (0b0101_011011_1111_1001_0110_1110_00, .plog 5 15 9 6 14),
    (0b0101_011100_111_11110_01001_10001, .sel 5 7 30 9 17),
    (0b0101_011101_100_11110_01001_10001, .sel 5 12 30 9 17),
    (0b0101_011110_111100_111100000001, .addi 5 60 0xF01)] :=
  ⟨rfl, rfl, rfl, rfl, rfl, rfl, rfl, rfl, rfl, rfl, rfl, rfl, rfl, rfl, rfl, rfl, rfl, rfl, rfl, rfl, rfl, rfl, rfl, rfl, trivial⟩

/-- Words of the scalar slot, written out from the formats and the map of spec/08 (R147 to R161): predicate, opcode, fields. -/
theorem test_decode_scalar_3 : decodeAll .s [
    (0b0101_011111_111100_111100000001, .li 5 60 0xF01),
    (0b0101_100000_111100_111100000001, .lic 5 60 0xF01),
    (0b0101_100001_111100_0000_11000001, .kconst 5 60 0xC1),
    (0b0101_100010_111100_0000_11000001, .hmk 5 60 0xC1),
    (0b0101_100011_111100_0000_11000001, .hsz 5 60 0xC1),
    (0b0101_100100_111100_0000_11000001, .hrow 5 60 0xC1),
    (0b0101_100101_111100_000000000000, .mfpr 5 60),
    (0b0101_100110_000000_100001_000000, .mtpr 5 33),
    (0b0101_100111_111100_000000_000110, .mflc 5 60 6),
    (0b0101_101000_111100_000000_000101, .mfb 5 60 5),
    (0b0101_101001_000000_100001_000011, .mtb 5 3 33),
    (0b0101_101010_1101_1010_100001_0000, .stsetF 5 13 10 33),
    (0b0101_101011_1101_00000000000000, .stsetZ 5 13),
    (0b0101_101100_1101_0110_0000000000, .stsetCp 5 13 6),
    (0b0101_101101_000000_100001_001110, .mtmm 5 14 33),
    (0b0101_101110_111100_000000_001110, .mfmm 5 60 14),
    (0b0101_110111_110_000_100001_010001, .fcmpEq 5 6 33 17),
    (0b0101_110111_110_001_100001_010001, .fcmpLt 5 6 33 17),
    (0b0101_110111_110_010_100001_010001, .fcmpLe 5 6 33 17),
    (0b0101_110111_110_011_100001_010001, .fcmpUn 5 6 33 17),
    (0b0101_111000_111100_100001_000000, .fcvtD2l 5 60 33),
    (0b0101_111000_111100_100001_000001, .fcvtL2d 5 60 33),
    (0b0101_111000_111100_100001_000010, .fcvtD2s 5 60 33),
    (0b0101_111000_111100_100001_000011, .fcvtS2d 5 60 33)] :=
  ⟨rfl, rfl, rfl, rfl, rfl, rfl, rfl, rfl, rfl, rfl, rfl, rfl, rfl, rfl, rfl, rfl, rfl, rfl, rfl, rfl, rfl, rfl, rfl, rfl, trivial⟩

/-- Words of the scalar slot, written out from the formats and the map of spec/08 (R147 to R161): predicate, opcode, fields. -/
theorem test_decode_scalar_4 : decodeAll .s [
    (0b0101_111111_111100_100001_000000, .fsNum 5 60 33),
    (0b0101_111111_111100_100001_000001, .fsDen 5 60 33),
    (0b0101_111111_111100_100001_000010, .fsClass 5 60 33),
    (0b0101_111111_111100_100001_000011, .fsCanon 5 60 33),
    (0b0101_111111_111100_100001_000100, .fsCvtF32 5 60 33),
    (0b0101_111111_111100_100001_000101, .fsCvtE8 5 60 33),
    (0b0101_111111_111100_100001_000110, .fsPack32 5 60 33),
    (0b0101_111111_111100_100001_000111, .fsUnpk32 5 60 33)] :=
  ⟨rfl, rfl, rfl, rfl, rfl, rfl, rfl, rfl, trivial⟩

/-- Words of the load slot, written out from the formats and the map of spec/08 (R147 to R161): predicate, opcode, fields. -/
theorem test_decode_load : decodeAll .l [
    (0b0101_00000_0000000000000000000, .lNop 5),
    (0b0101_00001_001001111111_1101_000, .vld32 5 639 13),
    (0b0101_00010_001001111110_0010_000, .vld16 5 638 2),
    (0b0101_00011_1110_1001_00000000000, .qld 5 14 9),
    (0b0101_00100_111100_100001_1_1011_00, .ldsB 5 60 33 1 11),
    (0b0101_00101_111100_100001_1_1011_00, .ldsH 5 60 33 1 11),
    (0b0101_00110_111100_100001_1_1011_00, .ldsW 5 60 33 1 11),
    (0b0101_00111_111100_100001_1_1011_00, .ldsD 5 60 33 1 11),
    (0b0101_01000_1100_0111_1_1010_000000, .ofill 5 12 7 1 10),
    (0b0101_01001_11001000_1111_100001_0, .halloc 5 200 15 33),
    (0b0101_01010_11111110_00000000000, .hfree 5 254)] :=
  ⟨rfl, rfl, rfl, rfl, rfl, rfl, rfl, rfl, rfl, rfl, rfl, trivial⟩

/-- Words of the store slot, written out from the formats and the map of spec/08 (R147 to R161): predicate, opcode, fields. -/
theorem test_decode_store : decodeAll .w [
    (0b0101_00000_0000000000000000000, .wNop 5),
    (0b0101_00001_001001111111_1101_000, .vst32 5 639 13),
    (0b0101_00010_001001111110_0010_000, .vst16 5 638 2),
    (0b0101_00011_1101_1000_00000000000, .qst 5 13 8),
    (0b0101_00100_111101_100010_0_0000_00, .stsB 5 61 34 0 0),
    (0b0101_00101_111101_100010_0_0000_00, .stsH 5 61 34 0 0),
    (0b0101_00110_111101_100010_0_0000_00, .stsW 5 61 34 0 0),
    (0b0101_00111_111101_100010_0_0000_00, .stsD 5 61 34 0 0),
    (0b0101_01000_1100_000000000000000, .oclaim 5 12),
    (0b0101_01001_0011_000000000000000, .orel 5 3)] :=
  ⟨rfl, rfl, rfl, rfl, rfl, rfl, rfl, rfl, rfl, rfl, trivial⟩

/-- Words of the global slot, written out from the formats and the map of spec/08 (R147 to R161): predicate, opcode, fields. -/
theorem test_decode_global_1 : decodeAll .g [
    (0b0101_000000_0000000000000000000000, .gNop 5),
    (0b0101_000001_111100_100001_1_1100_1_0011, .ldB 5 60 33 1 12 1 3),
    (0b0101_000010_111100_100001_1_1100_1_0011, .ldH 5 60 33 1 12 1 3),
    (0b0101_000011_111100_100001_1_1100_1_0011, .ldW 5 60 33 1 12 1 3),
    (0b0101_000100_111100_100001_1_1100_1_0011, .ldD 5 60 33 1 12 1 3),
    (0b0101_000101_111100_100001_1_1100_1_0011, .stB 5 60 33 1 12 1 3),
    (0b0101_000110_111100_100001_1_1100_1_0011, .stH 5 60 33 1 12 1 3),
    (0b0101_000111_111100_100001_1_1100_1_0011, .stW 5 60 33 1 12 1 3),
    (0b0101_001000_111100_100001_1_1100_1_0011, .stD 5 60 33 1 12 1 3),
    (0b0101_001001_111100_100001_1_1100_1_0011, .ldAcqW 5 60 33 1 12 1 3),
    (0b0101_001010_111100_100001_1_1100_1_0011, .ldAcqD 5 60 33 1 12 1 3),
    (0b0101_001011_111100_100001_1_1100_1_0011, .stRelW 5 60 33 1 12 1 3),
    (0b0101_001100_111100_100001_1_1100_1_0011, .stRelD 5 60 33 1 12 1 3),
    (0b0101_001101_111100_100001_010001_0000, .ldV 5 60 33 17),
    (0b0101_001110_111100_100001_010001_0000, .stV 5 60 33 17),
    (0b0101_001111_111100_100001_010001_0000, .amoAdd 5 60 33 17),
    (0b0101_010000_111100_100001_010001_0000, .amoMax 5 60 33 17),
    (0b0101_010001_111100_100001_010001_0000, .amoMaxu 5 60 33 17),
    (0b0101_010010_111100_100001_010001_0000, .amoMin 5 60 33 17),
    (0b0101_010011_111100_100001_010001_0000, .amoMinu 5 60 33 17),
    (0b0101_010100_111100_100001_010001_0000, .amoAnd 5 60 33 17),
    (0b0101_010101_111100_100001_010001_0000, .amoOr 5 60 33 17),
    (0b0101_010110_111100_100001_010001_0000, .amoXor 5 60 33 17),
    (0b0101_010111_111100_100001_010001_0000, .amoSwap 5 60 33 17)] :=
  ⟨rfl, rfl, rfl, rfl, rfl, rfl, rfl, rfl, rfl, rfl, rfl, rfl, rfl, rfl, rfl, rfl, rfl, rfl, rfl, rfl, rfl, rfl, rfl, rfl, trivial⟩

/-- Words of the global slot, written out from the formats and the map of spec/08 (R147 to R161): predicate, opcode, fields. -/
theorem test_decode_global_2 : decodeAll .g [
    (0b0101_011000_111100_100001_010001_0000, .amoCas 5 60 33 17),
    (0b0101_011001_111100_100001_010001_0000, .amoScAdd 5 60 33 17),
    (0b0101_011001_111100_100001_010001_0001, .amoScSwap 5 60 33 17),
    (0b0101_011001_111100_100001_010001_0010, .amoScCas 5 60 33 17),
    (0b0101_011001_111100_100001_010001_0011, .amoScMax 5 60 33 17),
    (0b0101_011001_111100_100001_010001_0100, .amoScMin 5 60 33 17),
    (0b0101_011010_0000000000000000000_000, .fenceCore 5),
    (0b0101_011010_0000000000000000000_001, .fenceQuad 5),
    (0b0101_011010_0000000000000000000_010, .fenceDie 5),
    (0b0101_011010_0000000000000000000_011, .fencePackage 5),
    (0b0101_011010_0000000000000000000_100, .fenceFabric 5),
    (0b0101_011011_000000_100001_0000000000, .pf 5 33),
    (0b0101_011100_111100_100001_0000000000, .wprobe 5 60 33)] :=
  ⟨rfl, rfl, rfl, rfl, rfl, rfl, rfl, rfl, rfl, rfl, rfl, rfl, rfl, trivial⟩

/-- Words of the matrix slot, written out from the formats and the map of spec/08 (R147 to R161): predicate, opcode, fields. -/
theorem test_decode_matrix : decodeAll .x [
    (0b0101_00000_00000000000000000000000, .xNop 5),
    (0b0101_00001_1001_1110_0110_00000000000, .mwld 5 9 14 6),
    (0b0101_00010_1001_1110_0110_00000000000, .mtrans 5 9 14 6),
    (0b0101_00011_1001_100_1110_0110_00000000, .mma 5 9 4 14 6),
    (0b0101_00100_1001_100_1110_0110_00000000, .mmaAcc 5 9 4 14 6),
    (0b0101_00101_1001_100_1110_0110_00000000, .mmaTri 5 9 4 14 6),
    (0b0101_00110_1001_100_1110_0110_00000000, .mmaTriAcc 5 9 4 14 6),
    (0b0101_00111_1001_000_1110_0110_00000000, .mmaP 5 9 14 6),
    (0b0101_01000_1111_100_0000000000000000, .mzero 5 15 4),
    (0b0101_01001_1001_011_0000_0110_00000000, .mdrain 5 9 3 6),
    (0b0101_01010_1001_000_0000_0110_00000000, .mdrainSp 5 9 6),
    (0b0101_01011_1001_000_0000_0110_00000000, .mdrainFab 5 9 6)] :=
  ⟨rfl, rfl, rfl, rfl, rfl, rfl, rfl, rfl, rfl, rfl, rfl, rfl, trivial⟩

/-- Words of the vector slot, written out from the formats and the map of spec/08 (R147 to R161): predicate, opcode, fields. -/
theorem test_decode_vector_1 : decodeAll .v [
    (0b0101_0000000_000000000000_000000000000_000000000000_0, .vNop 5),
    (0b0101_0000010_000010000010_001001111111_000000000111_0, .vaddF 5 0 0 130 639 7),
    (0b0101_0000011_000010000010_001001111111_000000000111_1, .vaddF 5 1 1 130 639 7),
    (0b0101_0000100_000010000010_001001111111_000000000111_0, .vsubF 5 0 0 130 639 7),
    (0b0101_0000101_000010000010_001001111111_000000000111_1, .vsubF 5 1 1 130 639 7),
    (0b0101_0000110_000010000010_001001111111_000000000111_0, .vmulF 5 0 0 130 639 7),
    (0b0101_0000111_000010000010_001001111111_000000000111_1, .vmulF 5 1 1 130 639 7),
    (0b0101_0001000_000010000010_001001111111_000000000111_0, .vfma 5 0 0 130 639 7),
    (0b0101_0001001_000010000010_001001111111_000000000111_1, .vfma 5 1 1 130 639 7),
    (0b0101_0001010_000010000010_001001111111_000000000111_0, .vminF 5 0 0 130 639 7),
    (0b0101_0001011_000010000010_001001111111_000000000111_1, .vminF 5 1 1 130 639 7),
    (0b0101_0001100_000010000010_001001111111_000000000111_0, .vmaxF 5 0 0 130 639 7),
    (0b0101_0001101_000010000010_001001111111_000000000111_1, .vmaxF 5 1 1 130 639 7),
    (0b0101_0001111_000010000010_001001111111_000000000000_1, .vabs 5 1 1 130 639),
    (0b0101_0010001_000010000010_001001111111_000000000000_1, .vneg 5 1 1 130 639),
    (0b0101_0011001_000010000010_001001111111_000000000000_1, .vrsumF 5 1 1 130 639),
    (0b0101_0011011_000010000010_001001111111_000000000000_1, .vrmax 5 1 1 130 639),
    (0b0101_0011101_000010000010_001001111111_000000000000_1, .vrmin 5 1 1 130 639),
    (0b0101_0011111_000010000010_001001111111_000000000000_1, .vexp2 5 1 1 130 639),
    (0b0101_0100001_000010000010_001001111111_000000000000_1, .vlog2 5 1 1 130 639),
    (0b0101_0100011_000010000010_001001111111_000000000000_1, .vrcp 5 1 1 130 639),
    (0b0101_0100101_000010000010_001001111111_000000000000_1, .vrsq 5 1 1 130 639),
    (0b0101_0100111_000010000010_001001111111_000000000000_1, .vtanh 5 1 1 130 639),
    (0b0101_0101001_000010000010_001001111111_000000000000_1, .vsilu 5 1 1 130 639)] :=
  ⟨rfl, rfl, rfl, rfl, rfl, rfl, rfl, rfl, rfl, rfl, rfl, rfl, rfl, rfl, rfl, rfl, rfl, rfl, rfl, rfl, rfl, rfl, rfl, rfl, trivial⟩

/-- Words of the vector slot, written out from the formats and the map of spec/08 (R147 to R161): predicate, opcode, fields. -/
theorem test_decode_vector_2 : decodeAll .v [
    (0b0101_0010011_000010000010_001001111111_000000000111_0, .vcmpEqF 5 1 0 130 639 7),
    (0b0101_0010101_000010000010_001001111111_000000000111_0, .vcmpLtF 5 1 0 130 639 7),
    (0b0101_0010111_000010000010_001001111111_000000000111_0, .vcmpLeF 5 1 0 130 639 7),
    (0b0101_0101010_000010000010_001001111111_000000000111_1, .vaddI 5 0 1 130 639 7),
    (0b0101_0101100_000010000010_001001111111_000000000111_1, .vsubI 5 0 1 130 639 7),
    (0b0101_0101110_000010000010_001001111111_000000000111_1, .vmulI 5 0 1 130 639 7),
    (0b0101_0110000_000010000010_001001111111_000000000111_1, .vminI 5 0 1 130 639 7),
    (0b0101_0110010_000010000010_001001111111_000000000111_1, .vmaxI 5 0 1 130 639 7),
    (0b0101_0110101_000010000010_001001111111_000000000111_0, .vand 5 1 130 639 7),
    (0b0101_0110111_000010000010_001001111111_000000000111_0, .vor 5 1 130 639 7),
    (0b0101_0111001_000010000010_001001111111_000000000111_0, .vxor 5 1 130 639 7),
    (0b0101_0111011_000010000010_001001111111_000000000111_0, .vshl 5 1 130 639 7),
    (0b0101_0111101_000010000010_001001111111_000000000111_0, .vshr 5 1 130 639 7),
    (0b0101_0111111_000010000010_001001111111_000000000111_0, .vsra 5 1 130 639 7),
    (0b0101_1000001_000010000010_001001111111_000000000111_0, .vcmpEqI 5 1 130 639 7),
    (0b0101_1000011_000010000010_001001111111_000000000111_0, .vcmpLtI 5 1 130 639 7),
    (0b0101_1000111_000010000010_001001111111_000000000111_0, .vsel 5 1 130 639 7),
    (0b0101_1001101_000010000010_001001111111_000000000111_0, .vperm 5 1 130 639 7),
    (0b0101_1000100_000010000010_001001111111_000000000000_1, .vrsumI 5 0 1 130 639),
    (0b0101_1001000_000010000010_001001111111_000000000000_0, .vmov 5 0 130 639),
    (0b0101_1001011_000010000010_001001111111_000011111111_0, .vbcast 5 1 130 639 255),
    (0b0101_1001111_000010000010_001001111111_000011111110_0, .vrot 5 1 130 639 254),
    (0b0101_1010000_000010000010_001001111111_000000000000_0, .vrev 5 0 130 639),
    (0b0101_1010010_000010000010_001001111111_000000001101_1, .vcvtN 5 1 130 639 1 5)] :=
  ⟨rfl, rfl, rfl, rfl, rfl, rfl, rfl, rfl, rfl, rfl, rfl, rfl, rfl, rfl, rfl, rfl, rfl, rfl, rfl, rfl, rfl, rfl, rfl, rfl, trivial⟩

/-- Words of the vector slot, written out from the formats and the map of spec/08 (R147 to R161): predicate, opcode, fields. -/
theorem test_decode_vector_3 : decodeAll .v [
    (0b0101_1010011_000010000010_001001111111_000000001000_1, .vcvtW 5 1 130 639 1),
    (0b0101_1010100_000010000010_001001111111_000000000100_0, .vcvtFi 5 0 0 130 639 4),
    (0b0101_1010111_000010000010_001001111111_000000000011_1, .vcvtIf 5 1 1 130 639 3),
    (0b0101_1011000_000010000010_001001111111_000000001000_0, .vcvtNi 5 130 639 1),
    (0b0101_1011001_000010000010_001001111111_000000001000_0, .vcvtWi 5 130 639 1)] :=
  ⟨rfl, rfl, rfl, rfl, rfl, trivial⟩

/-- Words of the pack slot, written out from the formats and the map of spec/08 (R147 to R161): predicate, opcode, fields. -/
theorem test_decode_pack : decodeAll .p [
    (0b0101_00000000000000000000, .pNop 5),
    (0b0101_0001_1110_01_1001111110, .pkMxint8Mm14 5 14 1 638),
    (0b0101_0010_1110_01_1001111110, .pkMxint8Mm15 5 14 1 638),
    (0b0101_0011_1110_01_1001111110, .pkMxint6Mm14 5 14 1 638),
    (0b0101_0100_1110_01_1001111110, .pkMxint6Mm15 5 14 1 638),
    (0b0101_0101_1110_01_1001111110, .pkMxint4Mm14 5 14 1 638),
    (0b0101_0110_1110_01_1001111110, .pkMxint4Mm15 5 14 1 638),
    (0b0101_0111_1110_01_1001111110, .pkE4m3Mm14 5 14 1 638),
    (0b0101_1000_1110_01_1001111110, .pkE4m3Mm15 5 14 1 638),
    (0b0101_1001_1110_01_1001111110, .pkE5m2Mm14 5 14 1 638),
    (0b0101_1010_1110_01_1001111110, .pkE5m2Mm15 5 14 1 638),
    (0b0101_1011_1110_01_1001111110, .pkFp6Mm14 5 14 1 638),
    (0b0101_1100_1110_01_1001111110, .pkFp6Mm15 5 14 1 638),
    (0b0101_1101_1110_01_1001111110, .pkE2m1Mm14 5 14 1 638),
    (0b0101_1110_1110_01_1001111110, .pkE2m1Mm15 5 14 1 638)] :=
  ⟨rfl, rfl, rfl, rfl, rfl, rfl, rfl, rfl, rfl, rfl, rfl, rfl, rfl, rfl, rfl, trivial⟩

/-- Words of the unpack slot, written out from the formats and the map of spec/08 (R147 to R161): predicate, opcode, fields. -/
theorem test_decode_unpack : decodeAll .u [
    (0b0101_00000000000000000000, .uNop 5),
    (0b0101_0001_1110_01_1001111110, .unpkMxint8Mm14 5 14 1 638),
    (0b0101_0010_1110_01_1001111110, .unpkMxint8Mm15 5 14 1 638),
    (0b0101_0011_1110_01_1001111110, .unpkMxint6Mm14 5 14 1 638),
    (0b0101_0100_1110_01_1001111110, .unpkMxint6Mm15 5 14 1 638),
    (0b0101_0101_1110_01_1001111110, .unpkMxint4Mm14 5 14 1 638),
    (0b0101_0110_1110_01_1001111110, .unpkMxint4Mm15 5 14 1 638),
    (0b0101_0111_1110_01_1001111110, .unpkE4m3Mm14 5 14 1 638),
    (0b0101_1000_1110_01_1001111110, .unpkE4m3Mm15 5 14 1 638),
    (0b0101_1001_1110_01_1001111110, .unpkE5m2Mm14 5 14 1 638),
    (0b0101_1010_1110_01_1001111110, .unpkE5m2Mm15 5 14 1 638),
    (0b0101_1011_1110_01_1001111110, .unpkFp6Mm14 5 14 1 638),
    (0b0101_1100_1110_01_1001111110, .unpkFp6Mm15 5 14 1 638),
    (0b0101_1101_1110_01_1001111110, .unpkE2m1Mm14 5 14 1 638),
    (0b0101_1110_1110_01_1001111110, .unpkE2m1Mm15 5 14 1 638)] :=
  ⟨rfl, rfl, rfl, rfl, rfl, rfl, rfl, rfl, rfl, rfl, rfl, rfl, rfl, rfl, rfl, trivial⟩

/-- Words of the asynchronous slot, written out from the formats and the map of spec/08 (R147 to R161): predicate, opcode, fields. -/
theorem test_decode_asynchronous : decodeAll .a [
    (0b0101_000000_0000000000000000000000, .aNop 5),
    (0b0101_000001_1001_11_0001_0010_0111_1110, .cpy 5 9 3 1 2 7 14),
    (0b0101_000010_1001_11_0001_0010_0111_1110, .gat 5 9 3 1 2 7 14),
    (0b0101_000011_1001_11_0001_0010_0111_1110, .sct 5 9 3 1 2 7 14),
    (0b0101_000100_1001_11_0001_0010_0111_1110, .mcastQ 5 9 3 1 2 7 14),
    (0b0101_000101_1001_11_0001_0010_0111_1110, .rst 5 9 3 1 2 7 14),
    (0b0101_000110_1001_11_0001_0010_0111_1110, .rld 5 9 3 1 2 7 14),
    (0b0101_000111_1001_11_0001_0010_0111_1110, .rred 5 9 3 1 2 7 14),
    (0b0101_001001_1001_11_0001_0010_0111_1110, .coll 5 9 3 1 2 7 14),
    (0b0101_001010_1001_11_0001_0010_0111_1110, .disp 5 9 3 1 2 7 14),
    (0b0101_001011_1001_11_0001_0010_0111_1110, .ccpy 5 9 3 1 2 7 14),
    (0b0101_001100_1001_11_0001_0010_0111_1110, .task 5 9 3 1 2 7 14),
    (0b0101_010000_1001_11_0001_0010_0111_1110, .frecRd 5 9 3 1 2 7 14),
    (0b0101_010001_1001_11_0001_0010_0111_1110, .frecWr 5 9 3 1 2 7 14),
    (0b0101_001000_1001_11_0001_0010_0111_0000, .rflush 5 9 3 1 2 7),
    (0b0101_001101_1001_10_0001_0010_0111_1110, .ctadd 5 9 2 1 2 7 14),
    (0b0101_001110_1001_10_0001_0010_0111_1110, .ctraise 5 9 2 1 2 7 14),
    (0b0101_001111_1001_01_0001_1111_0111_1110, .ctpoll 5 9 1 1 15 7 14)] :=
  ⟨rfl, rfl, rfl, rfl, rfl, rfl, rfl, rfl, rfl, rfl, rfl, rfl, rfl, rfl, rfl, rfl, rfl, rfl, trivial⟩


/-! ## The encodings that the chapters work out -/

/-- The table at the end of spec/09. -/
theorem test_decode_worked_scalar : decodeAll .c [(0x009FFD, .pbr 0 1 0xFFD), (0x019200, .br 0 1 2), (0x450A0A, .ctwait 4 40 10),
      (0x0A9801, .sysrd 0 12 1)] ∧
    decodeAll .s [(0x0689146, .cmpLt 0 1 5 6), (0x01C7209, .divu 0 7 8 9)] :=
  ⟨⟨rfl, rfl, rfl, rfl, trivial⟩, rfl, rfl, trivial⟩

/-- The table at the end of spec/11. -/
theorem test_decode_worked_memory : decodeAll .l [(0x00AC290, .vld32 0 0x585 2), (0x040A400, .ofill 0 1 4 1 0), (0x0483AAC, .halloc 0 7 5 22)] ∧
    decodeAll .w [(0x0318A4C, .stsW 0 12 20 1 3)] ∧
    decodeAll .g [(0x22897800, .ldAcqD 2 9 30 0 0 0 0), (0x06472092, .amoScCas 0 7 8 9), (0x06800003, .fencePackage 0)] :=
  ⟨⟨rfl, rfl, rfl, trivial⟩, ⟨rfl, trivial⟩, rfl, rfl, rfl, trivial⟩

/-- The two tables of spec/13; its third pack names a part that 6-bit elements do not have. -/
theorem test_decode_worked_vector : decodeAll .v [(0x0A410400E010, .vcvtN 0 0 0x082 7 1 0), (0x03025825A000, .vrsumF 0 0 0 300 301),
      (0x096A1200A190, .vbcast 0 1 0x509 5 200)] ∧
    decodeAll .p [(0x083500, .pkE4m3Mm15 0 3 1 256)] ∧ decodeAll .u [(0x057880, .unpkMxint4Mm14 0 7 2 128)] ∧
    (∃ r, decodeSlot .p (0x3 * 2 ^ 16 + 2 * 2 ^ 12 + 2 * 2 ^ 10) = .err r) :=
  ⟨⟨rfl, rfl, rfl, trivial⟩, ⟨rfl, trivial⟩, ⟨rfl, trivial⟩, _, rfl⟩

/-- The tables of spec/12 and spec/14. -/
theorem test_decode_worked_matrix_and_engine : decodeAll .x [(0x00800800, .mwld 0 0 0 1), (0x00819000, .mwld 0 0 3 2), (0x031A5100, .mmaTriAcc 0 3 2 5 1),
      (0x03801100, .mmaP 0 0 1 1), (0x34040000, .mzero 3 0 4), (0x05000200, .mdrainSp 0 0 2), (0x05800700, .mdrainFab 0 0 7)] ∧
    decodeAll .a [(0x00440001, .cpy 0 1 0 0 0 0 1), (0x034D1032, .ctadd 0 3 1 1 0 3 2), (0x03D00640, .ctpoll 0 4 0 0 6 4 0), (0x021E2300, .rflush 0 7 2 2 3 0)] :=
  ⟨⟨rfl, rfl, rfl, rfl, rfl, rfl, rfl, trivial⟩, rfl, rfl, rfl, rfl, trivial⟩

/-- Slot values of the programs in spec/10, spec/15, spec/16, spec/22 and spec/23: the scalar, load, store and global slots. -/
theorem test_decode_programs : decodeAll .s [(0x044A046, .slli 0 10 1 6), (0x088B002, .hmk 0 11 2), (0x084D000, .kconst 0 13 0), (0x005E785, .add 0 30 30 5),
      (0x0794008, .addi 0 20 8), (0x0F07146, .fsMk 0 7 5 6), (0x0C891C8, .fmul 0 9 7 8), (0x0FCC245, .fsCvtE8 0 12 9), (0x0E09201, .fcvtL2d 0 9 8),
      (0x0CCB1C9, .fdiv 0 11 7 9), (0x045E230, .slli 0 30 8 48), (0x04A0210, .srli 0 32 8 16)] ∧
    decodeAll .w [(0x039A800, .stsD 0 13 16 0 0), (0x0400000, .oclaim 0 0), (0x0488000, .orel 0 1), (0x03A8680, .stsD 0 20 13 0 0)] ∧
    decodeAll .l [(0x0400400, .ofill 0 0 0 1 0), (0x0408C40, .ofill 0 1 1 1 1), (0x03A9800, .ldsD 0 20 48 0 0), (0x0505800, .hfree 0 11)] ∧
    decodeAll .g [(0x03455150, .ldV 0 5 20 21), (0x01143000, .ldD 0 20 12 0 0 0 0)] :=
  ⟨⟨rfl, rfl, rfl, rfl, rfl, rfl, rfl, rfl, rfl, rfl, rfl, rfl, trivial⟩, ⟨rfl, rfl, rfl, rfl, trivial⟩, ⟨rfl, rfl, rfl, rfl, trivial⟩, rfl, rfl, trivial⟩

/-- The same: the control and engine slots. -/
theorem test_decode_programs_control : decodeAll .c [(0x078000, .sstep 0), (0x088000, .halt 0), (0x25854A, .ctwaitT 2 21 10), (0x0B0800, .syswr 0 4 0),
      (0x074232, .tkwait 0 16 17 18)] ∧
    decodeAll .a [(0x00800000, .gat 0 0 0 0 0 0 0), (0x01050001, .mcastQ 0 1 1 0 0 0 1), (0x02850001, .disp 0 1 1 0 0 0 1), (0x03491084, .ctadd 0 2 1 1 0 8 4),
      (0x03800032, .ctraise 0 0 0 0 0 3 2), (0x01C00000, .rred 0 0 0 0 0 0 0), (0x02C00000, .ccpy 0 0 0 0 0 0 0), (0x02C50001, .ccpy 0 1 1 0 0 0 1),
      (0x02C91002, .ccpy 0 2 1 1 0 0 2)] :=
  ⟨⟨rfl, rfl, rfl, rfl, rfl, trivial⟩, rfl, rfl, rfl, rfl, rfl, rfl, rfl, rfl, rfl, trivial⟩

/-! ## Ill-formed terms, one for each check of WellFormed -/

/-- Guard, branch target, offset, loop number, counter and register fields beyond their widths. -/
theorem test_wf_fields : [Instr.add 16 1 1 1, .pbr 0 8 0, .pbr 0 0 4096, .pbrS 0 0 64, .br 0 0 16, .loop 0 8, .ctwait 0 512 0, .brk 0 256,
    .sel 0 16 0 0 0, .sel 0 0 32 0 0, .add 0 64 0 0, .slli 0 0 0 64, .cmpEq 0 8 0 0, .addi 0 0 4096, .kconst 0 0 256, .mflc 0 0 8,
    .stsetF 0 16 0 0, .mtmm 0 16 0, .vld32 0 0 16, .halloc 0 256 1 0, .amoAdd 0 0 0 64, .mwld 0 16 0 0, .cpy 0 16 0 0 0 0 0,
    .vaddF 0 2 0 0 0 0, .vmov 0 0 0 4096].any Instr.wf = false := by decide +kernel

/-- Register pairs and triples that would pass s63. -/
theorem test_wf_register_groups : [Instr.ctwait 0 0 63, .ctwaitT 0 0 63, .ctwaitG 0 62, .ctwaitGt 0 62].any Instr.wf = false := by decide +kernel

/-- Fields that must be zero or nonzero, control registers without that access, reserved rounding codes, parts and tiles. -/
theorem test_wf_limits : [Instr.sysrd 0 0 0x00B, .sysrd 0 0 0x200, .syswr 0 0 0x001, .tkwait 0 0 0 0, .tkwait 0 16 0 16, .plog 0 0 1 1 8,
    .halloc 0 0 0 0, .ldsB 0 1 1 0 3, .ldB 0 1 1 0 1 0 0, .ldB 0 1 1 0 0 0 2, .ctpoll 0 1 0 0 0 0 0, .mma 0 0 5 0 0, .vcvtN 0 0 0 0 0 6,
    .vcvtFi 0 0 0 0 0 7, .pkMxint6Mm14 0 0 2 0, .pkE2m1Mm15 0 0 4 0, .unpkFp6Mm14 0 0 0 640].any Instr.wf = false := by decide +kernel

/-- Vector operands from 640 on, the fp16 flag of a 32-bit form, lane numbers beyond a row. -/
theorem test_wf_vectors : [Instr.vld16 0 640 0, .vaddI 0 0 0 0 640 0, .vaddF 0 0 1 0 0 0, .vbcast 0 0 0 0 128, .vrot 0 1 0 0 256].any Instr.wf = false := by
  decide +kernel

/-- A token consumed and produced at once, and a token field beyond the count. -/
theorem test_wf_tokens : [Instr.cpy 0 2 1 2 0 0 0, .cpy 0 2 1 0 5 0 0, .ctadd 0 3 3 0 0 0 0, .ctraise 0 3 1 3 0 0 0, .ctpoll 0 4 2 0 1 0 0,
    .rflush 0 1 0 1 0 0].any Instr.wf = false := by decide +kernel

/-- Terms at the very limits are well formed. -/
theorem test_wf_accepts : [Instr.add 15 63 63 63, .pbr 15 7 4095, .ctwait 0 511 62, .ctwaitG 0 61, .tkwait 0 31 31 31, .sysrd 0 63 0x1FF, .syswr 0 63 7,
    .plog 0 15 15 15 15, .sel 0 15 31 31 31, .vld32 0 0x67F 15, .vaddF 0 1 1 0xE7F 0 0, .vbcast 0 0 0 0 127, .vbcast 0 1 0 0 255, .mma 0 15 4 15 15,
    .vcvtN 0 1 0 0 1 5, .pkMxint6Mm14 0 15 1 639, .pkE2m1Mm15 0 15 3 639, .cpy 0 2 3 0 1 3 15, .ctpoll 0 4 1 0 15 15 15, .bundleFetch 0].all
      Instr.wf = true := by decide +kernel

/-! ## Small values, by hand from the rules -/

/-- A core that runs a task of address space 1. -/
def kT : Core := { Core.reset with
  q := { Seqr.reset with running := true, act := 10, seq := 3 }
  bind := some ⟨0, 0, 1, 0, [0], 1, 0, false, false⟩ }

/-- The bundle that core 0 is issuing. -/
def buT (k : Core) : Issue := ⟨0, k, [], 10, [], 0, none, none, false, 0, false, [], false, [], [], none, none, none, 20, 0, 2, false, 0⟩

/-- Core 0 while it issues a bundle, with nothing else in the package. -/
def sT (k : Core) : State := { State.reset with cores := [(0, k)], issue := some (buT k) }

/-- The core with scalar registers as listed. -/
def kS (l : Sp Word) : Core := { kT with r := { Regs.reset with s := l } }

/-- What exec answers, where it is a next state. -/
noncomputable def after (i : Instr) (s : State) : State := match exec i s with | .next t => t | _ => s

/-- Scalar register 1 of core 0 after an operation issued with s2 and s3 as given. -/
noncomputable def gives (i : Instr) (x y : Word) : Word := sreg (coreAt (after i (sT (kS [(2, x), (3, y)]))) 0) 1

/-- The scalar result that an operation set out to land later. -/
noncomputable def sets (i : Instr) (x y : Word) : Option WbEntry := (coreAt (after i (sT (kS [(2, x), (3, y)]))) 0).f.wb.head?

/-- Sums and differences wrap (R185). -/
theorem test_add_sub_wrap : gives (.add 0 1 2 3) (-1) 1 = 0 ∧ gives (.sub 0 1 2 3) 0 1 = 0xFFFFFFFFFFFFFFFF := by decide +kernel

/-- s0 reads as zero and discards writes (R184). -/
theorem test_s0 : gives (.add 0 1 0 3) 7 9 = 9 ∧ sreg (coreAt (after (.add 0 0 2 3) (sT (kS [(2, 5), (3, 6)]))) 0) 0 = 0 := by decide +kernel

/-- A false guard leaves the destination (R41). -/
theorem test_guard : gives (.add 5 1 2 3) 7 9 = 0 := by decide +kernel

/-- Shift counts are taken modulo 64; an arithmetic shift keeps the sign (R185). -/
theorem test_shifts : gives (.sll 0 1 2 3) 1 65 = 2 ∧ gives (.srl 0 1 2 3) (-1) 63 = 1 ∧ gives (.sra 0 1 2 3) 0x8000000000000000 63 = -1 := by
  decide +kernel

/-- Signed and unsigned extremes differ on the sign bit (R185). -/
theorem test_min_max : gives (.min 0 1 2 3) (-1) 1 = -1 ∧ gives (.minu 0 1 2 3) (-1) 1 = 1 ∧ gives (.max 0 1 2 3) (-1) 1 = 1 ∧
    gives (.maxu 0 1 2 3) (-1) 1 = -1 := by decide +kernel

/-- Bit counts at their ends (R185). -/
theorem test_counts : gives (.popc 0 1 2) (-1) 0 = 64 ∧ gives (.clz 0 1 2) 0 0 = 64 ∧ gives (.clz 0 1 2) 1 0 = 63 := by decide +kernel

/-- Immediates: sign-extended for addi and li, not for lic (R190). -/
theorem test_immediates : gives (.li 0 1 0xFFF) 0 0 = -1 ∧ gives (.lic 0 1 0xFFF) 0 0 = 0xFFF ∧ gives (.addi 0 1 0xFFF) 0 0 = -1 := by decide +kernel

/-- The cases worked after R186: -7 and 2. -/
theorem test_divide_signs : sets (.div 0 1 2 3) (-7) 2 = some ⟨21, 3, .sreg 1 (-3)⟩ ∧ sets (.rem 0 1 2 3) (-7) 2 = some ⟨21, 3, .sreg 1 (-1)⟩ ∧
    (sets (.divu 0 1 2 3) (-7) 2).map WbEntry.dest = some (.sreg 1 0x7FFFFFFFFFFFFFFC) ∧
    (sets (.remu 0 1 2 3) (-7) 2).map WbEntry.dest = some (.sreg 1 1) := by decide +kernel

/-- The cases worked after R186: 7 and 0. -/
theorem test_divide_by_zero : (sets (.div 0 1 2 3) 7 0).map WbEntry.dest = some (.sreg 1 (-1)) ∧ (sets (.rem 0 1 2 3) 7 0).map WbEntry.dest = some (.sreg 1 7) ∧
    (sets (.divu 0 1 2 3) 7 0).map WbEntry.dest = some (.sreg 1 (-1)) ∧ (sets (.remu 0 1 2 3) 7 0).map WbEntry.dest = some (.sreg 1 7) := by decide +kernel

/-- High halves: -1 times -1, signed and unsigned, three cycles on (R185, R302). -/
theorem test_multiply_high : sets (.mulh 0 1 2 3) (-1) (-1) = some ⟨12, 3, .sreg 1 0⟩ ∧
    sets (.mulhu 0 1 2 3) (-1) (-1) = some ⟨12, 3, .sreg 1 0xFFFFFFFFFFFFFFFE⟩ := by decide +kernel

/-- Compares write a pair; signed and unsigned differ (R187). -/
theorem test_compares : (coreAt (after (.cmpLt 0 1 2 3) (sT (kS [(2, -1), (3, 1)]))) 0).r.p = 0b0101 ∧
    (coreAt (after (.cmpLtu 0 1 2 3) (sT (kS [(2, -1), (3, 1)]))) 0).r.p = 0b1001 := by decide +kernel

/-- tt = 0b1000 gives AND (R188). -/
theorem test_plog : (coreAt (after (.plog 0 5 1 2 0b1000) (sT { kT with r := { Regs.reset with p := 0b0111 } })) 0).r.p = 0b100111 ∧
    (coreAt (after (.plog 0 5 1 2 0b1000) (sT { kT with r := { Regs.reset with p := 0b0011 } })) 0).r.p = 0b000011 := by decide +kernel

/-- 1 + 2, 1 / 3 and the root of 2 in FP64 (R193, R194). -/
theorem test_fp64 : (sets (.fadd 0 1 2 3) 0x3FF0000000000000 0x4000000000000000).map WbEntry.dest = some (.sreg 1 0x4008000000000000) ∧
    (sets (.fdiv 0 1 2 3) 0x3FF0000000000000 0x4008000000000000).map WbEntry.dest = some (.sreg 1 0x3FD5555555555555) ∧
    (sets (.fsqrt 0 1 2) 0x4000000000000000 0).map WbEntry.dest = some (.sreg 1 0x3FF6A09E667F3BCD) := by decide +kernel

/-- Encodings worked from R77 and R80: 3/4, 1, -1/3, and 6/8 before it is made canonical. -/
theorem test_rational_patterns : fsPat (fsRead 0x0780000000000008).1 = 0x0580000000000004 ∧ fsPat (fsFin false 1 1) = 0x0300000000000001 ∧
    fsPat (fsFin true 1 3) = 0x8300000000000003 ∧ fsPat32 (fsRead 0x0580000000000004).1 = 0x0B000004 := by decide +kernel

/-- gcd(12, 18) = 6 and gcd(x, 0) = x (R204). -/
theorem test_gcd : (ratEval ⟨0x3B, 0, 1, 12, 18, 0, 0, false, 0, 0⟩).v = 6 ∧ (ratEval ⟨0x3B, 0, 1, 7, 0, 0, 0, false, 0, 0⟩).v = 7 := by decide +kernel

/-- The steps worked in spec/10: 3/7, 14/24 = 7/12, their product 1/4, and its E8M0 pattern 0x7D. -/
theorem test_rational_steps : (ratEval ⟨0x3C, 0, 7, 3, 7, 0x8000, 0, false, 0, 0⟩).v = 0x0580000000000007 ∧ (ratEval ⟨0x3C, 0, 8, 14, 24, 0x8000, 0, false, 0, 0⟩).v = 0x07C000000000000C ∧
    (ratEval ⟨0x32, 0, 9, 0x0580000000000007, 0x07C000000000000C, 0x8000, 0, false, 0, 0⟩).v = 0x0300000000000004 ∧
    (ratEval ⟨0x3F, 5, 12, 0x0300000000000004, 0, 0x8000, 0, false, 0, 0⟩).v = 0x7D := by decide +kernel

/-- CORE_STATUS of core 137 for a task of ASID 5, as spec/09 works it out, read into s12. -/
theorem test_core_status : sysRead State.reset 137 { kT with bind := some ⟨0, 0, 5, 0, [0], 1, 0, false, false⟩ } 1 = 0x00000005B102A489 := by
  decide +kernel

/-- The `halloc` worked after R216 and R56: 64 rows of 512 bytes at BASE 0 in banks 0 to 3, p5 true; row 37 is line 37, in bank 1 at line 9. -/
theorem test_halloc : let t := after (.halloc 0 7 5 22) (sT (kS [(22, 0x003F07F090000000)]))
    (handle (coreAt t 0) 7).valid = true ∧ (handle (coreAt t 0) 7).rows = 64 ∧ (handle (coreAt t 0) 7).rowb = 512 ∧ preg (coreAt t 0) 5 = true ∧
    (handle (coreAt t 0) 7).place 37 = 1 * 384 + 9 ∧ (handle (coreAt t 0) 7).place 4 = 0 * 384 + 1 := by decide +kernel

/-- Bytes stored through a handle are read back, low byte first (R210). -/
theorem test_scratchpad : let k := { kS [(1, 0x0700000000000800), (2, 0x1122334455667788)] with m := { Mems.reset with htab := [(7,
      hword (coreAt (after (.halloc 0 7 5 22) (sT (kS [(22, 0x003F07F090000000)]))) 0) 7)] } }
    let t := after (.stsD 0 2 1 0 0) (sT k)
    spadRead (coreAt t 0) (handle k 7) 2048 2 = [0x88, 0x77] ∧
    ((coreAt (after (.ldsH 0 3 1 0 0) (sT (coreAt t 0))) 0).f.wb.map WbEntry.dest) = [.sreg 3 0x7788] := by decide +kernel

/-- The MXINT8 elements worked after R75, under scale 0x81, in bf16: 3.0, -2.0, 7.9375, -8.0 and 0. -/
theorem test_mxint8_elements : [0x30, 0xE0, 0x7F, 0x80, 0x00].map (unpkLane (pkFmt 0 (pkMode 0)) bf16 .ne 0x81) = [0x4040, 0xC000, 0x40FE, 0xC100, 0x0000] := by
  decide +kernel

/-- The block packed to FP4 in spec/13: 5.0, 1.25, -0.3 and 11.0 under mm15 = 5 give scale 0x80 and elements 4, 1, 8, 7. -/
theorem test_pack_fp4 : let v := [0x40A00000, 0x3FA00000, 0xBE99999A, 0x41300000].map (fpRead fp32)
    pkScale (pkFmt 6 (pkMode 5)) (pkMode 5) 0 v = 0x80 ∧ v.map (fun x => (pkElem (pkFmt 6 (pkMode 5)) .ne 0x80 0 x).1) = [4, 1, 8, 7] := by decide +kernel

/-- 1.0 + 2.0 in lane 0 of a bf16 row, four cycles on, and a shift by the lane width (R248, R252). -/
theorem test_vector : ((coreAt (after (.vaddF 0 1 0 3 1 2) (sT { kT with m := { Mems.reset with acc := [(1, 0x3F80), (2, 0x4000)] } })) 0).f.wb) =
      [⟨13, 3, .vop 3 0x4040⟩] ∧
    ((coreAt (after (.vshl 0 0 3 1 2) (sT { kT with m := { Mems.reset with acc := [(1, 7), (2, 32)] } })) 0).f.wb) = [⟨12, 3, .vop 3 0⟩] := by
  decide +kernel

/-- Counters: an add that would pass 2^63 - 1 overflows; poison stays; raise takes the greater (R101, R103). -/
theorem test_counters : ctrAdd 0x7FFFFFFFFFFFFFFF 1 = (0x7FFFFFFFFFFFFFFF, true) ∧ ctrAdd 0x8000000000000001 1 = (0x8000000000000001, false) ∧
    ctrRaise 5 9 = (9, false) ∧ ctrRaise 9 5 = (9, false) := by decide +kernel

/-- The loop level of the image worked in spec/18: bytes 4, 2, 3, 0 are a TEMPORAL level of bound 4 from 2 to 3. -/
theorem test_loop_level : (levelAt [4, 0, 0, 0, 2, 0, 0, 0, 3, 0, 0, 0, 0, 0, 0, 0]).bstart = 2 ∧ (levelAt [4, 0, 0, 0, 2, 0, 0, 0, 3, 0, 0, 0, 0, 0, 0, 0]).bend = 3 ∧
    (levelAt [4, 0, 0, 0, 2, 0, 0, 0, 3, 0, 0, 0, 0, 0, 0, 0]).bound = 4 ∧ (levelAt [4, 0, 0, 0, 2, 0, 0, 0, 3, 0, 0, 0, 0, 0, 0, 0]).kind = 0 := by decide +kernel

/-- Indexes of the walk worked in spec/20. -/
theorem test_walk_indexes : [3, 2, 1, 0].map (fun l => ptIndex l 0x0000004012345678) = [0, 256, 145, 5] := by decide +kernel

/-- The instruction at the place of fetch is what the next step runs: li s8, 5, as the first operation after reset. -/
theorem test_step_after_reset : decodeTableWord 28 (0x1F * 2 ^ 18 + 8 * 2 ^ 12 + 5) = some (.li 0 8 5) ∧
    (match step (State.reset.withFetchWord 28 (0x1F * 2 ^ 18 + 8 * 2 ^ 12 + 5)) with | .next t => sreg (coreAt t 0) 8 | _ => 0) = 5 := by
  decide +kernel

/-! ## Witnesses: for each statement with hypotheses, operands and states that meet them

A clause under a further condition has its own conjunct, at an end of its range where it has one. -/

/-- Core 0 with p1 true beside p0. -/
def kP : Core := { kT with r := { Regs.reset with p := 0b11 } }

theorem witness_GuardOffChangesNothing : (Instr.add 3 1 1 1).slotClass.isSome = true ∧ guardOf (sT kT) (foot (.add 3 1 1 1)).guard = false := by
  decide +kernel

theorem witness_ScalarResults : guardOf (sT kT) 0 = true ∧ guardOf (sT kP) 1 = true := by decide +kernel

theorem witness_ControlRegisterReads : (0 : Nat) < 256 ∧ 255 < 256 := by decide

/-- Each branch of the conclusion is met: a zero divisor, the corner of the most negative number, small and large operands. -/
theorem witness_MultiplyDivideResults : guardOf (sT kP) 1 = true ∧ (∃ x y : Word, x = BitVec.ofNat 64 (2 ^ 63) ∧ y = BitVec.ofInt 64 (-1)) ∧
    (BitVec.ofInt 64 (-2147483648)).toInt = -(2 ^ 31) ∧ ¬ (BitVec.ofNat 64 (2 ^ 31)).toInt < 2 ^ 31 := by
  refine ⟨by decide +kernel, ⟨_, _, rfl, rfl⟩, by decide +kernel, by decide +kernel⟩

theorem witness_PredicateResults : guardOf (sT kT) 0 = true ∧ (0 : Nat) < 8 ∧ 7 < 8 ∧ 1 ≤ 1 ∧ 1 ≤ 15 ∧ 15 < 16 := by decide +kernel

theorem witness_WritesOfOtherRegisters : (sT kP).issue = some (buT kP) ∧ guardOf (sT kP) 1 = true ∧
    (13, 32, 16) ∈ [(1, 242, 5), (2, 240, 2), (13, 32, 16)] := by decide +kernel

theorem witness_Fp64Results : guardOf (sT kP) 1 = true ∧ scrRM (here (sT kP)).r.scr = false := by decide +kernel

theorem witness_Fp64Compares : guardOf (sT kT) 0 = true ∧ scrRM (here (sT kT)).r.scr = false := by decide +kernel

/-- A core with a rational operation in flight that lands at the end of an active cycle, and an SCR. -/
def kRat (op land : Nat) (scr a b : Word) : Core := { kP with
  r := { kP.r with scr := scr, s := [(2, a), (3, b)] }
  f := { Flight.reset with rat := some ⟨op, 0, 1, a, b, scr, land, false, 8, 0⟩ } }

/-- Under 0x8000 (RM) and 0x9000 (RM and ZDT); the operands 1/3 and 0 of a quotient; landing in and before the cycle under way; each opcode with
a clause of its own; a compare that a loop operation overrides. -/
theorem witness_RationalOperations : let third := fsPat (fsFin false 1 3)
    let k := kRat 0x37 10 0x9000 third (fsPat (fsFin false 0 1))
    let void : Core := { k with f := { k.f with rat := some ⟨0x37, 0, 1, 3, 4, 0x9000, 9, true, 8, 0⟩ } }
    (sT k).issue = some (buT k) ∧ guardOf (sT k) 1 = true ∧ scrRM (here (sT k)).r.scr = true ∧ scrZDT (here (sT k)).r.scr = true ∧ scrZDT 0x8000 = false ∧
    sreg (here (sT k)) 3 ≠ 0 ∧ sreg (here (sT k)) 4 = 0 ∧ (ratEval ⟨0x33, 0, 1, third, sreg (here (sT k)) 3, 0x9000, 0, false, 0, 0⟩).zd = true ∧
    (ratEval ⟨0x33, 0, 1, third, third, 0x9000, 0, false, 0, 0⟩).zd = false ∧
    (coreAt (sT k) 0).f.rat = some ⟨0x37, 0, 1, third, fsPat (fsFin false 0 1), 0x9000, 10, false, 8, 0⟩ ∧ (coreAt (sT k) 0).q.act = 10 ∧
    (∀ op ∈ [0x37, 0x3A, 0x3B, 0x3C, 0x3D, 0x3F], (coreAt (sT (kRat op 9 0x8000 third third)) 0).f.rat = some ⟨op, 0, 1, third, third, 0x8000, 9, false, 8, 0⟩) ∧
    third ≠ 0 ∧ (fsRead third).1 = .fin false 1 3 ∧ (coreAt (sT void) 0).f.rat = some ⟨0x37, 0, 1, 3, 4, 0x9000, 9, true, 8, 0⟩ ∧ (1 : Nat) < 8 := by decide +kernel

/-- A core at a depth of the return stack, with h255 of one row of 4 bytes, or without it. -/
def kDeep (d : Nat) (h : Bool) : Core := { kP with
  r := { kP.r with depth := d, rstack := List.replicate (min d 16) 9 }
  m := { Mems.reset with htab := if h then [(255, hentWord ⟨true, false, 1, 1, 4, 1, 0, 0, false⟩)] else [] } }

theorem witness_BranchesAndCalls : let spill := fun (k : Core) (o : Nat) => handleFault (handle k 255) (o : Int) 4
    (sT (kDeep 0 true)).issue = some (buT (kDeep 0 true)) ∧ guardOf (sT (kDeep 0 true)) 1 = true ∧ (kDeep 0 true).r.depth = 0 ∧
    (kDeep 15 false).r.depth < 16 ∧ (kDeep 16 false).r.depth ≤ 16 ∧ spill (kDeep 16 true) (4 * (16 - 16)) = none ∧
    spill (kDeep 16 false) (4 * (16 - 16)) = some 0x05 ∧ spill (kDeep 17 true) (4 * (17 - 16)) = some 0x07 ∧
    16 < (kDeep 17 true).r.depth ∧ spill (kDeep 17 true) (4 * (17 - 17)) = none ∧ spill (kDeep 17 false) (4 * (17 - 17)) = some 0x05 := by decide +kernel

/-- A core in levels 1 (of three stages) and 0, the innermost first; level 2 has bound 0. -/
def kLoop : Core := { kP with
  r := { kP.r with loops := [1, 0] }
  prog := { Prog.reset with levels := [⟨0, 4, false, 1, 0, 8⟩, ⟨0, 3, false, 3, 2, 6⟩, ⟨0, 0, false, 1, 10, 12⟩] } }

theorem witness_LoopOperations : (sT kLoop).issue = some (buT kLoop) ∧ guardOf (sT kLoop) 1 = true ∧
    kLoop.r.loops.contains 2 = false ∧ kLoop.r.loops.contains 0 = true ∧ (levelOf kLoop 2).bound = 0 ∧ 0 < (levelOf kLoop 1).bound ∧
    1 < (levelOf kLoop 1).stages ∧ 1 ∈ kLoop.r.loops.takeWhile (· != 0) ∧ ¬ 1 < (levelOf kLoop 0).stages := by decide +kernel

/-! ### An address space

ASID 1 with translations in the caches of core 0: ordinary memory at 0x40000, a VERSIONED page at 0x80000, a COUNTER page at 0xC0000,
windows on package 5 at 0x100000 (HBM) and 0x140000 (COUNTER), a HANDLE window on this package at 0x180000. Nothing else is mapped. -/

def tlbRanges : List XEnt := [
  ⟨1, 0, 0, 0x40000, 0x80000, [2 ^ 63 + 3 * 2 ^ 60 + 14 * 2 ^ 56, 0x40000, 0x40000, 0x400000]⟩,
  ⟨1, 1, 0, 0x100000, 0x140000, [2 ^ 63 + 15 * 2 ^ 57 + 2 ^ 56 + 0x100000, 0x40000, 5 * 2 ^ 50, 0x1000 * 2 ^ 32]⟩,
  ⟨1, 1, 1, 0x140000, 0x180000, [2 ^ 63 + 2 * 2 ^ 61 + 15 * 2 ^ 57 + 2 ^ 56 + 0x140000, 0x40000, 5 * 2 ^ 50, 0x2000 * 2 ^ 32]⟩,
  ⟨1, 1, 2, 0x180000, 0x1C0000, [2 ^ 63 + 1 * 2 ^ 61 + 15 * 2 ^ 57 + 2 ^ 56 + 0x180000, 0x40000, 7 * 2 ^ 34, 0x3000 * 2 ^ 32]⟩]

def tlbPages : List XEnt := [
  ⟨1, 2, 2, 0x80000, 0xC0000, [2 ^ 63 + 4 * 2 ^ 59 + 15 * 2 ^ 55 + 2 * 2 ^ 18, 2 ^ 18]⟩,
  ⟨1, 2, 3, 0xC0000, 0x100000, [2 ^ 63 + 5 * 2 ^ 59 + 15 * 2 ^ 55 + 3 * 2 ^ 18, 2 ^ 18]⟩]

/-- The core with these translations. -/
def kW : Core := { kP with tlbR := tlbRanges, tlbP := tlbPages }

/-- Region 0 of ASID 1: the versioned page, sealed by the counter at 0xC0000, its floor that at 0xC0008, with a time-out of 1 microsecond. -/
def regionBytes : List Byte := toBytes (2 ^ 255 + 1 * 2 ^ 241 + 1 * 2 ^ 200 + 0xC0000 * 2 ^ 144 + 0xC0008 * 2 ^ 88 + 2 * 2 ^ 50) 32

/-- The tables of ASID 1: two range entries, the ordinary one at 0x40000 and one of a reserved kind at 0x4000000; window 3, a HANDLE window;
a page table whose first gigabyte is not resident and stages. -/
def tableBytes : List Byte := toBytes (2 ^ 63 + 3 * 2 ^ 60 + 14 * 2 ^ 56) 8 ++ toBytes 0x40000 8 ++ toBytes 0x40000 8 ++ toBytes 0x400000 8 ++
  toBytes (2 ^ 63) 8 ++ toBytes 0x4000000 8 ++ toBytes 0x40000 8 ++ toBytes 0 8

def windowBytes : List Byte := toBytes (2 ^ 63 + 2 ^ 61 + 15 * 2 ^ 57 + 2 ^ 56 + 0x180000) 8 ++ toBytes 0x40000 8 ++ toBytes (7 * 2 ^ 34) 8 ++ toBytes (0x3000 * 2 ^ 32) 8

def asidBytes : List Byte := toBytes (2 ^ 63 + 2) 8 ++ toBytes 0x300000 8 ++ toBytes 0x310000 8 ++ toBytes 0x20000 8

/-- The package around a core of that address space: tables, region 0, and the seal and floor as given. -/
def sW (k : Core) (sl fl : Nat) : State := { sT k with
  bar := [(0x00020000, 0x100000), (0x00020008, 0x180000), (0x00020010, 0x200000)]
  mem := memPutBytes (memPutBytes (memPutBytes (memPutBytes (memPutBytes [] 0x200000 regionBytes) 0xC0000 (toBytes sl 8)) 0xC0008 (toBytes fl 8))
    0x300000 tableBytes) 0x100040 asidBytes |> fun m => memPutBytes (memPutBytes (memPutBytes m 0x20060 windowBytes) 0x310000 (toBytes (2 ^ 62 + 0x320000) 8))
      0x320000 (toBytes (2 ^ 63 + 3 * 2 ^ 59 + 2 ^ 53) 8) }

/-- The core with s2 and s3 as given. -/
def kW2 (x y : Word) : Core := { kW with r := { kW.r with s := [(2, x), (3, y)] } }

/-- A core held in a wait on a counter place for the value 7 under guard 1: time-out, trapping form, entry of the monitor table. -/
def kWait (p : WaitPlace) (tmo : Nat) (tr reg : Bool) (v : Word) : Core := { kW with
  q := { kW.q with hold := .counter true 5 4 0 p 7 tmo 0 1 tr reg 0 64 }, ct := [(5, v)] }

/-- Own counter and COUNTER page, a window of another package, a page of another kind, no translation; the value reached, short, poisoned; the
time-out passed or not, and none; the poll due or not. -/
theorem witness_CounterWaits : let p := WaitPlace.near (.file 0 5)
    let at_ := fun (dev : Nat) (k : Core) => { sW k 0 0 with dev := dev }
    (sW kW 0 0).issue = some (buT kW) ∧ guardOf (sW kW 0 0) 1 = true ∧
    waitAt (sW kW 0 0) 0 0xC0010 = .at_ (.near (.hbm 0xC0010)) ∧ (waitAt (sW kW 0 0) 0 0x140008 matches .at_ (.far _ _ 8)) = true ∧
    waitAt (sW kW 0 0) 0 0x40000 = .fault 0x0D 0 ∧ waitAt (sW kW 0 0) 0 0x4000000 = .fault 0x0B 5 ∧
    (∀ e ∈ [(9, false, true), (6, false, false), (2 ^ 63, true, false)], let x := ctrRead (sW (kWait p 100 false true (BitVec.ofNat 64 e.1)) 0 0) (.file 0 5)
      x.getLsbD 63 = e.2.1 ∧ decide (7 ≤ x.toNat ∧ x.getLsbD 63 = false) = e.2.2) ∧
    (7 : Word).toNat % 2 ^ 63 = 7 ∧ sreg (here (sW kW 0 0)) 5 = 0 ∧
    (∀ tmo ∈ [0, 100], ∀ tr reg : Bool, (coreAt (sW (kWait p tmo tr reg 9) 0 0) 0).q.hold = .counter true 5 4 0 p 7 tmo 0 1 tr reg 0 64) ∧
    (coreAt (sW (kWait (.far [] 0 8) 0 false false 9) 0 0) 0).q.hold = .counter true 5 4 0 (.far [] 0 8) 7 0 0 1 false false 0 64 ∧
    (at_ 0 (kWait p 100 false false 6)).dev < 0 + nsDev 100 ∧ 0 + nsDev 100 ≤ (at_ (nsDev 100) (kWait p 100 false false 6)).dev ∧
    0 ≤ (at_ 0 (kWait p 100 false false 6)).dev ∧ (at_ 0 kW).dev < 1 ∧ ctrStrict (sW kW 0 0) 1 (.file 0 5) = false ∧
    (let s := { sW kW 0 0 with bad := [0xC0010 / 128], mem := memPutBytes (sW kW 0 0).mem 0x100040 (toBytes (2 ^ 63 + 2 ^ 62 + 2) 8) }
     ctrStrict s 1 (.hbm 0xC0010) = true) := by decide +kernel

theorem witness_SequencerOperations : (sT kP).issue = some (buT kP) ∧ guardOf (sT kP) 1 = true ∧ (255 : Nat) < 256 := by decide +kernel

theorem witness_ControlRegisterWrites : (sT kP).issue = some (buT kP) ∧ guardOf (sT kP) 1 = true := by decide +kernel

/-- A stream register over a handle: format, target bit, block and rounding codes, 128 steps of 256 bytes. -/
def streamOf (h fmt tgt blk rnd : Nat) : BitVec 256 :=
  BitVec.ofNat 256 (h * 2 ^ 248 + tgt * 2 ^ 247 + fmt * 2 ^ 242 + blk * 2 ^ 240 + rnd * 2 ^ 237 + 127 * 2 ^ 196 + 128 * 2 ^ 173)

/-- A core with h7 of 64 rows of 512 bytes, h8 in shadow storage, a stream st2 as given, and operand slots 1 claimed and 2 full. -/
def kH (st : BitVec 256) : Core := { kP with
  r := { kP.r with st := [(2, st)], s := [(22, 0x003F07F090000000), (23, 0x003F07F09FFFFFFF)] }
  m := { Mems.reset with htab := [(7, hentWord ⟨true, false, 1, 64, 512, 15, 0, 1, false⟩), (8, hentWord ⟨true, true, 1, 64, 512, 15, 0, 1, false⟩)]
                         slots := [(1, ⟨.claimed, 0, 128, [], 0⟩), (2, ⟨.full, 1, 128, [], 0⟩)] } }

theorem witness_StreamLoadsAndStores : let c := kH (streamOf 7 1 0 0 0)
    let q := kH (streamOf 7 0x0B 0 3 0)
    (sT c).issue = some (buT c) ∧ guardOf (sT c) 1 = true ∧
    vecFault c (stream (stReg c 2)) false = none ∧ vecShape false (stream (stReg c 2)).fmt = some (128, 4, 512) ∧ stMode (stream (stReg c 2)) ≠ .sr ∧
    vecFault c (stream (stReg (kH (streamOf 7 2 0 0 0)) 2)) true = none ∧ vecShape true 2 = some (256, 2, 512) ∧
    vecFault c (stream (streamOf 7 4 0 0 0)) false = some 0x01 ∧ vecFault c (stream (streamOf 7 1 1 0 0)) false = some 0x06 ∧
    vecFault c (stream (streamOf 6 1 0 0 0)) false = some 0x05 ∧ vecFault c (stream (streamOf 8 1 0 0 0)) true = some 0x01 ∧
    qFault q (stream (stReg q 2)) = none ∧ qShape 0x0B = some (8, 512, 512) ∧ qFault q (stream (streamOf 6 0x0B 0 0 0)) = some 0x05 := by decide +kernel

theorem witness_StochasticVectorStores : let c := kH (streamOf 7 2 0 0 4)
    (sT c).issue = some (buT c) ∧ guardOf (sT c) 1 = true ∧ stMode (stream (stReg c 2)) = .sr ∧ vecFault c (stream (stReg c 2)) false = none ∧
    vecShape false 2 = some (128, 2, 256) ∧ vecFault c (stream (stReg c 2)) true = none ∧ vecShape true 2 = some (256, 2, 512) := by decide +kernel

/-- The clauses at the last byte of a handle, one past it, a bad word, an invalid handle and one in shadow storage. -/
theorem witness_ScalarScratchpadAccess : let c := kH 0
    (sT c).issue = some (buT c) ∧ guardOf (sT c) 1 = true ∧ (handle c 7).valid = true ∧ (handle c 7).shadow = false ∧ (handle c 7).held = false ∧
    (handle c 7).size = 32768 ∧ ¬ (handle c 7).size < 32767 + 1 ∧ (handle c 7).size < 32767 + 2 ∧ (handle c 6).valid = false ∧ (handle c 8).shadow = true := by
  decide +kernel

theorem witness_ScratchpadStoreKeepsTheRest : ∀ i, i < 2 → (handle (kH 0) 7).place ((512 + i) / 512) ≠ 0 := by decide +kernel

theorem witness_HandlesAndOperandSlots : let c := kH (streamOf 7 0x0B 0 3 0)
    let full : Core := { c with m := { c.m with htab := [(7, hentWord ⟨true, false, 1, 384, 512, 65535, 0, 1, false⟩), (9, hentWord ⟨true, false, 1, 6144, 512, 65535, 0, 1, false⟩)] } }
    let waits : Issue := { buT c with xslot := some 2 }
    let filling := fun (t : Option Nat) => ({ c with f := { c.f with fill := some ⟨1, 2, 0, 0, 1, t, 0, 3⟩ } } : Core)
    (sT c).issue = some (buT c) ∧ guardOf (sT c) 1 = true ∧ (handle c 7).valid = true ∧ (handle c 3).valid = false ∧ (3 : Nat) ≠ 255 ∧
    (shapeOf (sreg c 22)).2.2 = false ∧ (shapeOf (sreg c 23)).2.2 = true ∧
    (placeHandle (sT c) 0 c (shapeOf (sreg c 22)).1 (shapeOf (sreg c 22)).2.1).isSome = true ∧
    placeHandle (sT full) 0 full (shapeOf (sreg c 22)).1 (shapeOf (sreg c 22)).2.1 = none ∧
    (slotOf c 0).st = .free ∧ (slotOf c 2).st ≠ .free ∧ (buT c).xslot ≠ some 2 ∧ waits.xslot = some 2 ∧
    fillFault c (stReg c 2) 1 = none ∧ fillFault c (stReg c 2) 0 = some 0x08 ∧ fillFault c 0 1 = some 0x01 ∧
    (∀ t ∈ [none, some 0, some 3], (coreAt (sT (filling t)) 0).f.fill = some ⟨1, 2, 0, 0, 1, t, 0, 3⟩) := by decide +kernel

/-- Accesses to ordinary memory, to the versioned and counter pages, across two pages, off alignment, through the HBM window over two lines, and
through a window of this package. -/
theorem witness_GlobalAccessIssue : let s := sW (kW2 0x40000 0) 0 0
    let parts := fun (va n : Nat) => (gParts s 0 1 va n).map fun x => x.2.2.2
    s.issue = some (buT (kW2 0x40000 0)) ∧ guardOf s 1 = true ∧ sreg (here s) 2 = 0x40000 ∧
    kindFault (parts 0x40000 8) = none ∧ kindFault (parts 0xBFFFC 8) = some 0x0E ∧ kindFault (parts 0x80000 1) = some 0x0D ∧
    kindFault (parts 0xC0000 8) = some 0x0D ∧ kindFault (parts 0x10007C 8) = none ∧ (parts 0x10007C 8).length = 2 ∧
    kindFault [xlat s 0 1 0x80000] = some 0x0D ∧ 0x40001 % 8 ≠ 0 ∧ 0x40000 % 8 = 0 ∧
    (xlat s 0 1 0x40000 matches .loc ..) = true ∧ kindFault [xlat s 0 1 0x100000] = none ∧
    (match xlat s 0 1 0x100000 with | .win _ w _ _ => winTgt w == 0 && winPkg w != pkgNo s | _ => false) = true ∧
    (cached s 0 1 0x40000).isSome = true ∧ (cached s 0 1 0x4000000).isSome = false := by decide +kernel

/-- A versioned address reached here, through one window, through two lines of it, and refused; behind an acquire load and behind nothing; a
version that may be loaded, one below the floor, one not sealed; a store that may be made, one of a sealed version, and one without room; an
address cached by the core, by its die alone, and by none. -/
theorem witness_VersionedFencesProbesIssue : let s := sW (kW2 0x80000 3) 2 1
    let ps := [(0x1000, 0, 0, 8, 0)]
    let behind := sW { kW2 0x80000 3 with f := { Flight.reset with gq := [⟨2, 0, .amoSc, 0, 8, 0x40000, 0, 0, 0, 0, 5, 0, 0, 0, .wheel 10 none⟩] } } 2 1
    let op : GOp := ⟨3, gaWord 13 1 4 2 3 0, .ldv, 0, 8, 0x80000, 0, 0, 0, 3, 4, 0, 0, 0, .ready⟩
    s.issue = some (buT (kW2 0x80000 3)) ∧ guardOf s 1 = true ∧
    verReach s 0 1 0x80000 8 rR = .here ps ∧ verReach s 0 1 0x80000 8 rW = .here ps ∧ (verReach s 0 1 0x100000 8 rR matches .window _ 0 none) = true ∧
    verReach s 0 1 0x40000 8 rR = .fault 0x0D 0 ∧ verReach s 0 1 0x180000 8 rW = .fault 0x0C 0 ∧
    (coreAt s 0).f.gq = [] ∧ ((coreAt behind 0).f.gq.any fun x => gAfter behind 0 x op) = true ∧
    (verTry s false ps 2 0 matches .done ..) = true ∧ (verTry s false ps 0 0 matches .fault 0x15) = true ∧
    (verTry s false ps 3 0 matches .wait _) = true ∧ (verTry s true ps 3 9 matches .done ..) = true ∧
    (verTry s true ps 2 9 matches .fault 0x14) = true ∧
    (verTry { s with bar := [(0x00010110, 0), (0x00020000, 0x100000), (0x00020010, 0x200000)] } true ps 3 9 matches .wait _) = true ∧
    (2 ^ 56 ≤ (2 ^ 56 : Nat)) ∧ (cachedOwn s 0 1 0x40000).isSome = true ∧ (cached s 0 1 0x4000000).isSome = false ∧
    (let d := { sW { kW2 0x40000 0 with tlbR := [], tlbP := [] } 0 0 with dieTlb := [(0, tlbRanges)] }
     cachedOwn d 0 1 0x40000 = none ∧ (cached d 0 1 0x40000).isSome = true) := by decide +kernel

/-- Two HBM windows on package 5, side by side: a versioned access over their border. -/
theorem witness_VersionedOverTwoWindows : let two : XEnt := ⟨1, 1, 4, 0x140000, 0x180000, [2 ^ 63 + 15 * 2 ^ 57 + 2 ^ 56 + 0x140000, 0x40000, 5 * 2 ^ 50, 0x1000 * 2 ^ 32]⟩
    let s := sW { kW with tlbR := tlbRanges.take 2 ++ [two] } 2 1
    (verReach s 0 1 0x13FFFC 8 rR matches .window _ 0x3FFFC (some (4, _, 0))) = true := by decide +kernel

/-- One access of each kind on ordinary memory. -/
def gOf (kind : GKind) (fn : Nat) (st : GStat) : GOp := ⟨3, 0, kind, fn, 8, 0x40000, 0, 0, 0, 0, 5, 0, 0, 2, st⟩

/-- The core with one access in its queue, a buffered store through the HBM window, and a write acknowledged. -/
def kG (g : GOp) : Core := { kW with f := { Flight.reset with gq := [g], unacked := [⟨4, 8, true, none, false, true, false⟩] } }

theorem witness_QueuedAccessesPerformed :
    (∀ kind ∈ [GKind.load, .loadAcq, .store, .storeRel, .amo], let g := gOf kind 0 .ready
      let s := sW (kG g) 0 0
      (coreAt s 0).f.gq[0]? = some g ∧ (coreAt s 0).f.comb.any (leavesFor s 0 g) = false ∧ gMay s 0 0 = true ∧
      xlatFill s 0 1 g.lo = (.loc 0x400000 3 14 0x40000 true false, s) ∧ asidOf (coreAt s 0) = 1 ∧ hasRight 14 kind.right = true ∧
      badSpan s 0x400000 8 = false ∧ 0x400000 + 8 ≤ hbmSize) ∧
    (let g := gOf .amoSc 2 (.wheel 10 (some 0))
     let s := sW (kG g) 0 0
     (coreAt s 0).f.gq[0]? = some g ∧ (coreAt s 0).f.comb.any (leavesFor s 0 g) = false ∧ gMay s 0 0 = true ∧
     scTarget s 0 g = .loc 0x400000 3 14 0x40000 true false ∧ hasRight 14 rA = true ∧ wheelOwned s 0 = true ∧
     wheelOwned { s with now := 1 } 0 = false ∧ s.now < 1) ∧
    (let s := sW { kG (gOf .load 0 .ready) with f := { Flight.reset with gq := [gOf .store 0 .ready, gOf .load 0 .ready] } } 0 0
     gClear s 0 1 = false) ∧
    (let g := gOf .amoSc 2 (.wheel 10 (some 0))
     let e : CombEntry := ⟨0x2000, 0, [2 ^ 63 + 15 * 2 ^ 57 + 2 ^ 56 + 0x100000, 0x40000, 0, 0x1000 * 2 ^ 32], 1, 7, none, 0, 1, false⟩
     let s := sW { kG g with f := { Flight.reset with gq := [g], comb := [e] } } 0 0
     let t := sW { kG g with f := { Flight.reset with gq := [g], unacked := [⟨4, 8, false, none, false, false, false⟩] } } 0 0
     (coreAt s 0).f.comb.any (leavesFor s 0 g) = true ∧ gClear s 0 0 = true ∧ (coreAt t 0).f.comb.any (leavesFor t 0 g) = false ∧ gMay t 0 0 = false) ∧
    (∀ h ∈ (coreAt (gRemove (sW (kG (gOf .load 0 .ready)) 0 0) 0 0) 0).f.gq, ¬(h.seq = 3 ∧ h.dst = 5)) ∧
    (coreAt (sW (kG (gOf .load 0 .ready)) 0 0) 0).f.unacked[0]? = some ⟨4, 8, true, none, false, true, false⟩ := by decide +kernel

/-- A core whose line is held for a versioned access of the version given. -/
def kVer (st : Bool) (ver : Nat) : Core := { kW with
  q := { kW.q with holdG := .ver 3 0 }
  f := { Flight.reset with gq := [⟨3, 0, if st then .stv else .ldv, 0, 8, 0x80000, 0, 0, 0, ver, 5, 0, 0, 0, .ready⟩]
                           comb := [⟨0x2000, 0, [], 1, 7, none, 0, 1, false⟩] } }

theorem witness_WalksFlushesAndVersionWaits :
    (let s := { sW kW 0 0 with walks := [⟨0, 1, 0x40000, [(0, 3, 0x40008)], []⟩, ⟨0, 1, 0x4000000, [(0, 3, 0x4000000)], []⟩] }
     (tableLook s 1 0x40000 matches .hit _) = true ∧ tableLook s 1 0x4000000 = .bad 5 ∧
     (∀ w ∈ s.walks, ∀ x ∈ w.who, walkServes s w w.die w.asid x.2.2 = true) ∧ ((s.walks.take 1).filter fun x => x.die == 0).length < 64 ∧
     64 ≤ (((List.replicate 65 (⟨0, 1, 0, [], []⟩ : Walk)).take 64).filter fun x => x.die == 0).length) ∧
    (∀ st : Bool, ∀ v ∈ [0, 1, 2, 3], let k := kVer st v
      let s := sW k 2 1
      verWaiting s 0 = k.f.gq[0]?.map (fun g => (0, g)) ∧ gClear s 0 0 = true ∧ verReach s 0 1 0x80000 8 (if st then rW else rR) = .here [(0x1000, 0, 0, 8, 0)] ∧
      (k.f.gq[0]?.map GOp.sent) = some false ∧ 0 + nsDev (bits (regionWord s 0) 231 200 * 1000) ≤ ({ s with dev := nsDev 1000 }).dev ∧ s.dev < nsDev (bits (regionWord s 0) 231 200 * 1000)) ∧
    (verTry (sW (kVer false 2) 2 1) false [(0x1000, 0, 0, 8, 0)] 2 0 matches .done ..) = true ∧
    (verTry (sW (kVer false 0) 2 1) false [(0x1000, 0, 0, 8, 0)] 0 0 matches .fault _) = true ∧
    (verTry (sW (kVer false 3) 2 1) false [(0x1000, 0, 0, 8, 0)] 3 0 matches .wait [0]) = true ∧
    (kVer true 3).f.comb[0]? = some ⟨0x2000, 0, [], 1, 7, none, 0, 1, false⟩ := by decide +kernel

theorem witness_VectorFloatForms : (sT kP).issue = some (buT kP) ∧ guardOf (sT kP) 1 = true := by decide +kernel

theorem witness_VectorIntegerForms : (sT kT).issue = some (buT kT) ∧ guardOf (sT kT) 0 = true := by decide +kernel

theorem witness_VectorConversions : (sT kP).issue = some (buT kP) ∧ guardOf (sT kP) 1 = true ∧ (rmode 4).getD .ne = .sr ∧ (rmode 0).getD .ne ≠ .sr := by
  decide +kernel

/-- The two clauses of a pack and of an unpack: a good mode register value, an odd row for a wide form, and no block size. -/
theorem witness_PackedConversions : (sT kP).issue = some (buT kP) ∧ guardOf (sT kP) 1 = true ∧ pkBad (pkMode 5) 0 true = false ∧
    pkBad (pkMode 5) 0 false = false ∧ pkBad (pkMode 5) 639 true = true ∧ pkBad (pkMode 1) 638 false = true := by decide +kernel

theorem witness_MatrixOperationsIssue : guardOf (sT kP) 1 = true := by decide +kernel

/-- A matrix operation of an opcode on operand slot 1 under mm1 (MXINT8, K block 32). -/
def xOf (op : Nat) (launched : Bool) (done : Nat) : XOp := ⟨3, 0, op, 0, 1, 1, 0, launched, 400, 9, 0, ⟨true, 1, 32, []⟩, 32, 0, 128, [], done, 0, 0, []⟩

/-- A core with that operation in flight and its operand slot in the state given; weights loaded in plane 0; a drain row acknowledged. -/
def kX (x : XOp) (st : SlotState) (fmt : Nat) : Core := { kP with
  r := { kP.r with mm := [(1, 9)] }
  m := { Mems.reset with slots := [(1, ⟨st, fmt, 32, [], 0⟩)], planes := [(0, ⟨true, 1, 32, []⟩)], lastPlane := some 0 }
  f := { Flight.reset with xops := [x], drainq := [⟨3, [], 0, [1, 2], 0, 0, true, 3, true⟩] } }

theorem witness_MatrixLaunchAndFinish : let due := fun op st fmt => (dueX (kX (xOf op false 0) st fmt), xCheck (sT (kX (xOf op false 0) st fmt)) (kX (xOf op false 0) st fmt) (xOf op false 0))
    let k := kX (xOf 3 false 0) .full 1
    due 3 .full 1 = ([xOf 3 false 0], .ok) ∧ due 8 .free 1 = ([xOf 8 false 0], .ok) ∧ due 3 .filling 1 = ([xOf 3 false 0], .hold) ∧
    due 7 .free 1 = ([xOf 7 false 0], .fault 0x08) ∧ due 1 .claimed 1 = ([xOf 1 false 0], .fault 0x09) ∧ due 3 .full 0 = ([xOf 3 false 0], .fault 0x01) ∧
    lineLow k = true ∧ k.q.between = true ∧ lineLow { k with q := { k.q with hold := .halt } } = false ∧ dueX (kX (xOf 3 true 0) .full 1) = [] ∧
    (cview 9).fmt ≤ 3 ∧ (cview 9).mask ≠ 3 ∧ (cview 9).kblk ≠ 0 ∧
    (∀ e ∈ [(8, 31), (1, 127)], (kX (xOf e.1 true e.2) .full 1).f.xops = [xOf e.1 true e.2]) ∧
    (let x := { xOf 3 true 127 with fly := [⟨127, ⟨0, 0, 0⟩, 0⟩] }
     (kX x .full 1).f.xops = [x] ∧ mmaDue x 0 = true ∧ x.entered = 128) ∧
    (kX (xOf 3 true 0) .full 1).f.drainq[0]? = some ⟨3, [], 0, [1, 2], 0, 0, true, 3, true⟩ := by decide +kernel

/-- A record: opcode and argument, source, destination, length or shape, landing counter, completion counter, the eighth word. -/
def recOf (op arg src dst len land done aux : Nat) : List Byte := toBytes 0 8 ++ toBytes (op * 2 ^ 58 + arg) 8 ++ toBytes src 8 ++ toBytes dst 8 ++
  toBytes len 8 ++ toBytes land 8 ++ toBytes done 8 ++ toBytes aux 8

/-- A command of number 1 whose record is at the start of h7: opcode, consumed tokens, whether started, record as read, progress. -/
def cmdOf (op : Nat) (cons : List Nat) (started : Bool) (recb : List Byte) (prog : List Nat) : Cmd :=
  ⟨1, 3, op, 2, cons, 0x0700000000000000, 1, 0, 0, 4, started, recb, [], 0, 0, 0, [], none, prog, 0, [], false, 0, 0⟩

/-- Core 0 with h7 (64 rows of 512 bytes, the record in its first line, the number 3 in its third), tokens 2 and 5 pending, and one command. -/
def kE (r : List Byte) (x : Cmd) : Core := { kW with
  r := { kW.r with tok := 0b100100, s := [(48, 0x0700000000000000), (50, 0x07000000000001FF), (51, 511), (52, 2 ^ 63), (53, 40)] }
  m := { Mems.reset with htab := [(7, hentWord ⟨true, false, 1, 64, 512, 15, 0, 1, false⟩)], spad := [(0, BitVec.ofNat 4096 (leNat r)), (768, 3)] }
  f := { Flight.reset with cmds := [x] } }

/-- The package around it, with time-outs of the hub and a source of time. -/
def sE (r : List Byte) (x : Cmd) : State := sW (kE r x) 0 0

theorem witness_EngineCommandsIssue : let s := sE [] (cmdOf 1 [] false [] [])
    s.issue = some (buT (kE [] (cmdOf 1 [] false [] []))) ∧ guardOf s 1 = true ∧
    ctrFault s 0 0x0D (sreg (here s) 53) 1 = none ∧ ctrFault s 0 0x0F (sreg (here s) 51) 0 = none ∧ ctrFault s 0 0x0D (sreg (here s) 51) 1 = some (0x10, 0, 0) ∧
    nameBad (sreg (here s) 51).toNat = false ∧ bits (sreg (here s) 51).toNat 63 62 = 0 ∧ bits (sreg (here s) 51).toNat 8 0 = 511 ∧
    nameBad (sreg (here s) 53).toNat = false ∧ bits (sreg (here s) 53).toNat 8 0 ≠ 511 ∧ (sreg (here s) 52).getLsbD 63 = true := by decide +kernel

/-- A copy of 16 bytes within h7, its completion counter absent; the same with a bad opcode; the same with a counter at a page not resident. -/
def cpyRec : List Byte := recOf 1 0 (0x07 * 2 ^ 56 + 64) (0x07 * 2 ^ 56 + 4088) 16 (2 ^ 63) (2 ^ 63) 0

theorem witness_EngineCommandStarts :
    (∀ op ∈ [0x08, 0x0D, 0x0E, 0x0F, 0x01], let x := cmdOf op [3] false [] []
      let k := coreAt (sE cpyRec x) 0
      cmdAt (sE cpyRec x) 0 0 = some x ∧ x.started = false ∧ k.q.stopped = false ∧ k.halted = false ∧ x.parked = none ∧ (∀ t ∈ x.cons, k.r.tok.getLsbD t = false) ∧
      (∀ g ∈ k.f.gq, x.seq ≤ g.seq) ∧ rplMode (sE cpyRec x) = 0 ∧ x.op ≠ 0x0B) ∧
    (cmdOf 1 [] true [] []).started = true ∧ (∃ t, t ∈ (cmdOf 1 [5] false [] []).cons ∧ (coreAt (sE cpyRec (cmdOf 1 [5] false [] [])) 0).r.tok.getLsbD t = true) ∧
    (let x := cmdOf 0x0B [] false [] []
     let other : Cmd := { x with id := 2, started := true }
     cryptoTurn { sE [] x with cores := [(0, kE [] x), (1, kE [] other)] } 0 x = false) ∧
    (1 : Nat) ∉ [0x08, 0x0D, 0x0E, 0x0F] ∧
    recHere (sE cpyRec (cmdOf 1 [] false [] [])) 0 { cmdOf 1 [] false [] [] with recGen := 2 } = none ∧
    (∃ en, recHere (sE cpyRec (cmdOf 1 [] false [] [])) 0 (cmdOf 1 [] false [] []) = some en) ∧ (cmdOf 1 [] false [] []).recb = [] ∧ (cmdOf 1 [] false [] []).gens = [] ∧
    (let s := sE cpyRec (cmdOf 1 [] false [] [])
     let y := fun (b : List Byte) => { cmdOf 1 [] true b [] with gens := gensNow s 0 (cmdOf 1 [] true b []) }
     (startRec s 0 1 (y cpyRec) 0 false matches .ok _) = true ∧ (startRec s 0 1 (y (recOf 2 0 0 0 16 0 0 0)) 0 false matches .stop (.bad 1)) = true) := by
  refine ⟨by decide +kernel, by decide +kernel, ⟨5, by decide +kernel, by decide +kernel⟩, by decide +kernel, by decide +kernel, by decide +kernel, Option.isSome_iff_exists.mp (by decide +kernel), by decide +kernel,
    by decide +kernel, by decide +kernel, by decide +kernel⟩

theorem witness_CopyBetweenHandles : let x := { cmdOf 1 [] true cpyRec [] with gens := [(0, 7, 1)] }
    x.op = 1 ∧ x.w 1 = 2 ^ 58 ∧ x.len < 2 ^ 40 ∧ x.aux = 0 ∧ x.land = 2 ^ 63 ∧ x.done = 2 ^ 63 ∧ bits x.src 55 32 = 0 ∧ bits x.dst 55 32 = 0 ∧
    (∀ w ∈ [x.src, x.dst], let k := coreAt (sE cpyRec x) 0
      (handle k (bits w 63 56)).valid = true ∧ (handle k (bits w 63 56)).held = false ∧ bits w 31 0 + x.len ≤ (handle k (bits w 63 56)).size ∧
      spGet 0 k.m.hheld (bits w 63 56) ≠ 3) ∧
    (∀ g ∈ x.gens, g.1 = 0 → g.2.2 = (handle (coreAt (sE cpyRec x) 0) g.2.1).gen) := by decide +kernel

theorem witness_EngineCommandsComplete :
    (∀ land ∈ [2 ^ 63, 40], let q : Piece := ⟨0, false, 7, 1, 4088, [1, 2], none, 0⟩
      let x := { cmdOf 1 [] true (recOf 1 0 0 0 16 land (2 ^ 63) 0) [] with pieces := [q] }
      let k := coreAt (sE cpyRec x) 0
      cmdAt (sE cpyRec x) 0 0 = some x ∧ x.started = true ∧ x.parked = none ∧ x.op ∉ [0x04, 0x0B, 0x10] ∧ x.code ≠ 6 ∧ (handle k 7).valid = true ∧
      (handle k 7).gen = q.gen ∧ (handle k 7).held = false ∧ q.at_ + q.data.length ≤ (handle k 7).size ∧ spGet 0 k.m.hheld 7 ≠ 3 ∧
      (bits x.land 63 62 = 2 ∨ bits x.land 63 62 = 0)) ∧
    bits (2 ^ 63) 63 62 = 2 ∧ bits 40 63 62 = 0 ∧
    (∀ e ∈ [(1, 0), (2, 3)], let x := cmdOf e.1 [] true (recOf e.1 0 0 0 (3 * 2 ^ 40 + 16) (2 ^ 63) (2 ^ 63) 0) [e.2]
     x.pieces = [] ∧ x.waits = [] ∧ x.op ∈ [0x01, 0x02, 0x03, 0x05, 0x06, 0x07, 0x10] ∧ bits x.done 63 62 = 2 ∧ bits x.len 63 40 ≤ e.2 + 3 * (2 - e.1) ∧
     (handle (kE cpyRec x) (bits x.recw.toNat 63 56)).valid = true ∧ (handle (kE cpyRec x) (bits x.recw.toNat 63 56)).gen = x.recGen) ∧
    (let x := cmdOf 8 [] true [] [0]
     x.pieces = [] ∧ x.waits = [] ∧ x.prog.getD 0 0 = 0 ∧ (∀ y ∈ (kE [] x).f.cmds, y.op = 5 → x.seq ≤ y.seq) ∧
     ∃ y, y ∈ [{ cmdOf 5 [] false [] [] with seq := 2 }, x] ∧ y.op = 5 ∧ y.seq < x.seq) ∧
    (let x := cmdOf 8 [] true [] [1, 4]
     let k := { kE [] x with f := { (kE [] x).f with unacked := [⟨4, 8, true, none, false, false, false⟩] } }
     x.prog.getD 0 0 = 1 ∧ (kE [] x).f.drainq = [] ∧ (kE [] x).f.xops = [] ∧ (kE [] x).f.unacked = [] ∧
     ∃ u, u ∈ k.f.unacked ∧ u.tag ∈ x.prog.drop 1 ∧ u.acked = false) ∧
    (∀ op ∈ [0x0D, 0x0E, 0x0F], bits (cmdOf op [] true [] []).x.toNat 63 62 = 0) ∧
    (let x := cmdOf 0x0D [] true [] [4]
     ∀ u ∈ [(⟨4, 8, true, none, false, false, true⟩ : Unacked), ⟨4, 8, true, none, false, true, false⟩], u.tag ∈ x.prog → u.acked = true ∨ u.lost = true) := by
  refine ⟨by decide +kernel, by decide +kernel, by decide +kernel, by decide +kernel, ⟨by decide +kernel, by decide +kernel, by decide +kernel, by decide +kernel,
    { cmdOf 5 [] false [] [] with seq := 2 }, List.mem_cons_self, by decide +kernel, by decide +kernel⟩, ⟨by decide +kernel, by decide +kernel, by decide +kernel, by decide +kernel,
    ⟨4, 8, true, none, false, false, false⟩, by decide +kernel, by decide +kernel, by decide +kernel⟩, by decide +kernel, by decide +kernel⟩

/-- A collective of one level (4 transfers of 16 bytes, peer table at byte 1,024 of h7, one peer), in direct or channel mode of depth 2. -/
def collRec (chan : Bool) : List Byte := recOf 9 (2 ^ 29 + (if chan then 2 ^ 28 + 2 * 2 ^ 22 + 9 * 2 ^ 13 else 0)) (0x07 * 2 ^ 56) 0 (2 ^ 48) (2 ^ 63) (2 ^ 63)
  (0x07 * 2 ^ 56 + 1024) ++ toBytes 16 4 ++ toBytes 4 4 ++ toBytes 16 8 ++ toBytes 16 8 ++ toBytes 0 8

/-- A dispatch of two tokens of rows of 16 bytes to one expert each; the expert table at byte 2,048 of h7 names window 3 and room for `cap` rows. -/
def dispRec : List Byte := recOf 0x0A 0 (0x07 * 2 ^ 56 + 4096) (0x07 * 2 ^ 56 + 8192) (16 * 2 ^ 44 + 2 * 2 ^ 24 + 16) (2 ^ 63) (2 ^ 63) (0x07 * 2 ^ 56 + 2048) ++
  toBytes 0 16

def kDisp (cap : Nat) (prog : List Nat) : Core := let k := kE dispRec (cmdOf 0x0A [] true dispRec prog)
  { k with m := { k.m with spad := [(0, BitVec.ofNat 4096 (leNat dispRec)), (1, BitVec.ofNat 4096 (3 * 2 ^ 52 + cap * 2 ^ 32))] } }

theorem witness_WalkerDispatchAndTimers : let g := [(0, 7, 1)]
    (∀ e ∈ [(false, 0), (false, 3), (false, 4), (true, 2)], let x := { cmdOf 9 [] true (collRec e.1) [e.2] with gens := g }
      let s := sE (collRec e.1) x
      cmdAt s 0 0 = some x ∧ x.started = true ∧ x.parked = none ∧ x.code = 0 ∧ x.prog ≠ [] ∧ (coreAt s 0).q.stopped = false ∧ (coreAt s 0).halted = false ∧
      collTotal x = 4 ∧ bit x.arg 28 = e.1 ∧ (endRead s x 0 1 0 x.aux 0 2 matches .ok ([3, 0], _)) = true ∧
      (let w := winWords s 1 3
       winLive w = true ∧ winTgt w = 1 ∧ winKey w ≠ 0 ∧ hasRight (winRights w) rW = true ∧ 16 * 4 ≤ winSize w) ∧
      (endRead s x 0 1 x.sk x.src 0 16 matches .ok _) = true) ∧
    (let x := cmdOf 9 [] true (collRec true) [2]
     collDepth x < 2 + 1 ∧ ctrReached (ctGet (coreAt (sE (collRec true) x) 0) (bits x.arg 21 13)) (2 + 1 - collDepth x) = false) ∧
    (∀ cap ∈ [0, 4], ∀ prog ∈ [[2, 0, 0, 0], [0, 0, 0, 0], [1, 0, 2, 3], [0, 0, 1, 0]], let x := { cmdOf 0x0A [] true dispRec prog with gens := g }
      let s := let t := sW (kDisp cap prog) 0 0
        { t with cores := [(0, { kDisp cap prog with f := { Flight.reset with cmds := [x] } })] }
      cmdAt s 0 0 = some x ∧ x.started = true ∧ x.parked = none ∧ x.code = 0 ∧ x.prog ≠ [] ∧ bits (x.w 4) 43 24 = 2 ∧
      (endRead s x 0 1 0 (x.w 3) 8 8 matches .ok _) = true ∧ (dispExpert s 0 1 x 0 matches .ok (3, _, 0, 0)) = true ∧
      (endRead s x 0 1 x.sk (x.w 2) 16 16 matches .ok _) = true) ∧
    (∀ back ∈ [0, 5, 6], let x := { cmdOf 7 [] true (recOf 7 0 (0x07 * 2 ^ 56) 0 4 (2 ^ 63) (2 ^ 63) 0) [1, 5, back, 1] with drop := 0, gens := g }
      let s := { sE cpyRec x with dev := 5 }
      cmdAt s 0 0 = some x ∧ x.op = 0x07 ∧ x.started = true ∧ x.drop = 0 ∧ (endTake s x 0 1 x.sk x.src 0 16 rRED matches .ok _) = true ∧ x.prog ≠ []) ∧
    (let k := { kE [] (cmdOf 1 [] true [] []) with f := { Flight.reset with deferred := [(0x0F, 2)] } }
     (coreAt { sT k with issue := none } 0).f.deferred = [(0x0F, 2)] ∧ k.q.running = true ∧ k.q.between = true ∧
     ({ k with q := { k.q with hold := .halt } } : Core).q.between = false ∧ (sT k).issue ≠ none) := by decide +kernel

/-! ### Queues, contexts and gangs

Queue 4 and context 0 of ASID 1 on partition 0 (cores 0 and 1); the image `count4` that spec/18 works out stands at 0x40000. -/

/-- The image of spec/18 with a STEP as given, and its constant and loop table with the end of its level. -/
def imgBytes (step : Nat) : List Byte := toBytes 0x4B504F53 4 ++ toBytes 1 2 ++ toBytes step 1 ++ toBytes 0 1 ++ toBytes 0 8 ++ toBytes 4 2 ++ toBytes 1 2 ++
  toBytes 1 1 ++ toBytes 0 1 ++ toBytes 0 2 ++ toBytes 0 8 ++ toBytes 30 4 ++ toBytes 0 4 ++
  toBytes 128 4 ++ toBytes 320 4 ++ toBytes 384 4 ++ toBytes 392 4 ++ (List.replicate 6 (toBytes 408 4)).flatten ++ toBytes 0 4 ++ toBytes 408 4

def imgMem (m : List Host.Cell) (step bend : Nat) : List Host.Cell :=
  memPutBytes (memPutBytes (memPutBytes m 0x400000 (imgBytes step)) (0x400000 + 384) (toBytes 0x0000000100000000 8)) (0x400000 + 392)
    (toBytes 4 4 ++ toBytes 2 4 ++ toBytes bend 4)

/-- A record of that image: dependences valid as given on counters 5, 6 and 511 of core 1, each from 1 on, and a byte of word 0. -/
def recB (deps low : Nat) : List Byte := toBytes (deps * 2 ^ 60 + 0x400 * 2 ^ 8 + low) 8 ++ toBytes 0 8 ++ toBytes (0x205 * 2 ^ 43 + 1) 8 ++
  toBytes (0x206 * 2 ^ 43 + 1) 8 ++ toBytes (0x3FF * 2 ^ 43 + 1) 8 ++ toBytes 0 24

/-- A record whose image lies at an address that does not translate. -/
def recBad' : List Byte := toBytes (0x40000 * 2 ^ 8) 8 ++ List.replicate 56 0

/-- The package with queue 4 in a state, its record ring (16 records, TAKE 2, TAIL 3, HEAD 2), what the scheduler holds of it, and core 1 as given. -/
def sQ (st : Nat) (r : List Byte) (x : QState) (k : Core) : State := let s := sW kW 0 0
  { s with
    issue := none
    cores := [(0, kW), (1, k)]
    bar := [(0x00010000, 0x500000), (0x00010008, 0x510000), (0x00010010, 0x520000), (0x00020000, 0x100000), (0x00020008, 0x180000), (0x00020010, 0x200000)]
    mem := memPutBytes (memPutBytes (memPutBytes (memPutBytes (imgMem s.mem 0xB1 3) 0x500100 (toBytes (2 ^ 63 + 2 ^ 57 + 7 * 2 ^ 54 + 4 * 2 ^ 49 + 2 ^ 35 + 2 ^ 26) 8 ++
      toBytes 0x530000 8 ++ toBytes 0 8 ++ toBytes 3 8 ++ toBytes 2 8 ++ toBytes 2 8 ++ toBytes (st * 2 ^ 62) 8)) 0x510000 (toBytes 3 24 ++ toBytes 0 4 ++ toBytes 1 1))
      0x520000 (toBytes (2 ^ 63 + 2 ^ 61 + 2 ^ 32) 8)) (0x530000 + 128) r
    qs := [(4, x)] }

def kFree : Core := { Core.reset with ct := [(5, 3), (6, 2 ^ 63)] }

def qIdle : QState := { QState.reset with bound := true }

def recHeld (r : List Byte) (met : Bool) : QRec := ⟨2, r, [], [], 0, 0, met, false, false⟩

def qHeld (r : List Byte) (met : Bool) : QState := { QState.reset with bound := true, slot := some 0, head := some (recHeld r met) }

/-- The image of spec/18 is accepted; with STEP 0xB0 it is rejected with reason 02, with BEND 30 with reason 04. -/
theorem test_image : (loadImage { sQ 0 (recB 0 0) qIdle kFree with mem := imgMem (sQ 0 (recB 0 0) qIdle kFree).mem 0xB1 3 } 1 0x40000 true matches .inr _) = true ∧
    loadImage { sQ 0 (recB 0 0) qIdle kFree with mem := imgMem (sQ 0 (recB 0 0) qIdle kFree).mem 0xB0 3 } 1 0x40000 true = .inl 2 ∧
    loadImage { sQ 0 (recB 0 0) qIdle kFree with mem := imgMem (sQ 0 (recB 0 0) qIdle kFree).mem 0xB1 30 } 1 0x40000 true = .inl 4 := by decide +kernel

/-- A gang of queue 4 on core 1. -/
def gangOf (st : Nat) (trap : Bool) : Gang := ⟨4, 2, recB 0 0, 1, 0, 0, [1], st, 0, false, false, 0, [], none, false, trap, false, none, false, 0, 0, false, [], 0⟩

theorem witness_SchedulerCommands : let s := sQ 0 (recB 0 0) qIdle kFree
    let sg := fun st => { s with gangs := [(7, gangOf st false)] }
    s.sec.recovery = false ∧ s.sched = none ∧ ({ s with sched := some (3, 0, 9) } : State).sched = some (3, 0, 9) ∧ (3, 0, 9) ≠ (3, 0, 4) ∧
    s.sec.locked.contains (ctxAsid s 0) = false ∧ s.sec.locked.contains (qAsid s 4) = false ∧ s.sec.locked.contains 0 = false ∧
    (4096 : Nat) ≤ 4096 ∧ 4095 < 4096 ∧ ctxValid s 4095 = false ∧ ctxValid s 0 = true ∧ (∀ q ∈ s.qs, q.2.bound = true ∧ qPart s q.1 = ctxPart s 0) ∧
    (let t := sQ 3 (recB 0 0) qIdle kFree
     t.gangs = [] ∧ ∀ q ∈ t.qs, qState t q.1 = 3) ∧
    (qsOf s 5).bound = false ∧ (qsOf s 4).bound = true ∧ qState s 4 = 0 ∧ qState (sQ 1 (recB 0 0) qIdle kFree) 4 = 1 ∧
    qState (sQ 2 (recB 0 0) qIdle kFree) 4 = 2 ∧ qState (sQ 3 (recB 0 0) qIdle kFree) 4 = 3 ∧ gangsOf s 4 = [] ∧
    (∀ st ∈ [0, 2, 3], spFind (sg st).gangs 7 = some (gangOf st false)) ∧ (∀ c ∈ (gangOf 0 false).cores, (coreAt (sg 0) c).halted = false) ∧
    (gangOf 3 false).saved = [] ∧ spFind s.gangs 7 = none := by decide +kernel

theorem witness_DoorbellsSlotsAndRecords : let s := sQ 0 (recB 0 0) qIdle kFree
    let t := fun (st : Nat) (r : List Byte) => sQ st r { qIdle with slot := some 0 } kFree
    let u := fun (r : List Byte) => sQ 0 r (qHeld r false) kFree
    ownerOf s (qAsid s 4) = 0 ∧ ownerOf s (qAsid s 4) ≠ 1 ∧ qTail s 4 = 3 ∧ qHead s 4 = 2 ∧ qRlog s 4 = 4 ∧
    qActive s 4 = true ∧ (qsOf s 4).slot = none ∧ (qSlotted s).length < 64 ∧ qActive s 5 = false ∧
    (qsOf s 4).bound = true ∧ qTake s 4 < qTail s 4 ∧ (qsOf s 4).head = none ∧ qState (t 1 (recB 0 0)) 4 = 1 ∧ qState (t 0 (recB 0 0)) 4 = 0 ∧
    (qsOf (t 0 (recB 0 0)) 4).slot ≠ none ∧ recBad (qSet (t 0 (recB 0 0x80)) 4 4 3) 4 (ringRead (t 0 (recB 0 0x80)) 4 2) = some 1 ∧
    recBad (qSet (t 0 (recB 0 0)) 4 4 3) 4 (ringRead (t 0 (recB 0 0)) 4 2) = none ∧ (qsOf s 5).bound = false ∧
    (qsOf (u (recB 1 0)) 4).head = some (recHeld (recB 1 0) false) ∧ rplMode (u (recB 1 0)) = 0 ∧
    ((recDeps (recB 1 0)).map fun d => (depState (u (recB 1 0)) 4 (recHeld (recB 1 0) false) d).1) = [0] ∧
    ((recDeps (recB 2 0)).map fun d => (depState (u (recB 2 0)) 4 (recHeld (recB 2 0) false) d).1) = [2] ∧
    ((recDeps (recB 4 0)).map fun d => (depState (u (recB 4 0)) 4 (recHeld (recB 4 0) false) d).1) = [3] := by decide +kernel

theorem witness_DoorbellsSlotsAndRecords_shape : let u := fun (r : List Byte) => sQ 0 r (qHeld r false) kFree
    (recShape (u (recB 0 0)) 4 (recB 0 0) matches .inr _) = true ∧ (recShape (u (recBad')) 4 (recBad') matches .inl _) = true := by
  decide +kernel

theorem witness_PlacementQuantumAndStops : let r := recB 0 0
    let s := sQ 0 r (qHeld r true) kFree
    let full := sQ 0 r (qHeld r true) { kFree with bind := some ⟨0, 0, 1, 0, [0], 1, 0, false, false⟩ }
    let low := { s with qs := [(4, { qHeld r true with slot := none })] }
    let off := barWr s 0x00050000 0
    let asks := { s with drl := { s.drl with reqs := [⟨4, 1, [1], 4, 2⟩] } }
    (qsOf (sQ 0 r qIdle kFree) 4).head = none ∧ (qsOf s 4).head = some (recHeld r true) ∧ servesQueues s = true ∧ reqOf s 4 = none ∧
    mayDispatch s 4 = true ∧ mayDispatch low 4 = false ∧ ctxOf s (qAsid s 4) (qPart s 4) = some 0 ∧ (freeGangId s).isSome = true ∧
    (match recShape s 4 r with
     | .inr (img, ls) => placeGang (partCores s 0) (freeOrder s 0 0 4 []) ls == some [1] && placeGang (partCores full 0) (freeOrder full 0 0 4 []) ls == none &&
         !(recForce r img).2 && (recForce (recB 0 0x18) img).2
     | _ => false) = true ∧
    (recShape (sQ 0 (recBad') (qHeld (recBad') true) kFree) 4 (recBad') matches .inl _) = true ∧
    drlEn s = true ∧ drlEn off = false ∧ (reqOf asks 4).map RampReq.lack = some 2 ∧
    (∀ b : Bool, (qsOf (sQ 0 r { qIdle with turn := some 1, lapsed := b } kFree) 4).turn = some (0 + 1) ∧
      (qsOf (sQ 0 r { qIdle with turn := some 1, lapsed := b } kFree) 4).lapsed = b) ∧
    (let x := { qIdle with turn := some 1 }
     s.dev < 0 + nsDev (1000 * qQuantum (sQ 0 r x kFree) 4) ∧ 0 + nsDev (1000 * qQuantum (sQ 0 r x kFree) 4) ≤ nsDev (1000 * 65535)) ∧
    (∀ q ∈ [0, 1, 4], (coreAt (sT { kT with q := { kT.q with stopReq := q } }) 0).q.running = true) := by decide +kernel

/-- Core 1 as a member of gang 7: stopped, or halted and done. -/
def kMember (stopped : Bool) : Core := { Core.reset with
  bind := some ⟨7, 0, 1, 0, [], 1, 0, false, false⟩
  q := if stopped then { Seqr.reset with stopped := true } else { Seqr.reset with running := true, hold := .halt } }

theorem witness_SavingRestoringAndRetiring : let r := recB 0 0
    let s := fun (st : Nat) (trap stopped : Bool) => { sQ 0 r qIdle (kMember stopped) with gangs := [(7, gangOf st trap)] }
    let w := { sQ 0 r qIdle kFree with gangs := [(7, { gangOf 2 false with saved := [] })] }
    let pinned := { (s 0 false false) with cores := [(1, { kMember false with bind := some ⟨7, 0, 1, 0, [], 1, 0, true, false⟩ })]
                                           bar := [(0x00050000, 2 ^ 63 + 2 ^ 62)], drl := { Drl.reset with enf := true } }
    rplMode (s 0 true true) = 0 ∧ rplMode pinned = 0 ∧ spFind (s 0 true true).gangs 7 = some (gangOf 0 true) ∧ bit (recWord (gangOf 0 true).bytes 0) 5 = false ∧
    (∀ c ∈ (gangOf 0 true).cores, savable (s 0 true true) c = true ∧ (coreAt (s 0 true true) c).halted = false ∧ (coreAt (s 0 true true) c).q.retired = false) ∧
    savable (s 0 true false) 1 = false ∧ (gangOf 0 true).killed = false ∧
    (∀ fast : Bool, let since := ((gangOf 0 true).cores.map fun c => (coreAt (s 0 true true) c).q.stopT).foldl max 0 + swapTime fast 1
     (s 0 true true).dev < since ∧ since ≤ nsDev 8000) ∧ (gangOf 2 false).filler = false ∧
    (gangOf 2 false).state = 2 ∧ (gangOf 2 false).state ≠ 1 ∧ qState w (gangOf 2 false).queue ≤ 1 ∧ servesQueues w = true ∧ (∀ h ∈ w.gangs, h.2.aside ≠ some 7) ∧
    reqOf w (65536 + 7) = none ∧ mayRestore w 7 (gangOf 2 false) = true ∧
    placeKept (partCores w 0) (gangOf 2 false).levels (diesOf (gangOf 2 false).cores) (freeOrder w 0 0 (65536 + 7) []) ≠ none ∧ w.handed = [] ∧ (gangOf 2 false).isSealed = false ∧
    sealOk w (gangOf 2 false) = true ∧ upRefused w 1 = false ∧ upRefused { pinned with gangs := [] } 1 = true ∧ diesOf [1] = diesOf (gangOf 2 false).cores ∧
    (let f := { w with cores := [(0, kW), (1, kW)] }
     placeKept (partCores f 0) (gangOf 2 false).levels (diesOf (gangOf 2 false).cores) (freeOrder f 0 0 (65536 + 7) []) = none) ∧ drlEn (barWr w 0x00050000 0) = false ∧
    (coreAt (s 0 false false) 1).bind = some ⟨7, 0, 1, 0, [], 1, 0, false, false⟩ ∧ haltDone (coreAt (s 0 false false) 1) = true ∧ haltDone (coreAt (s 0 true true) 1) = false ∧
    (gangOf 0 false).cores = [1] ∧ membersOf (s 0 false false) 1 = [1] ∧ downRefused pinned (slotsPer pinned 7) = true := by decide +kernel

/-! ### The rest of the package -/

/-- The package with one device register as given. -/
def sBar (off : Nat) (v : Word) : State := { State.reset with bar := [(off, v)] }

theorem witness_GovernorAndTelemetry : let due := { State.reset with dev := 100000 * 19000000 }
    let off := { due with bar := [(0x00050000, 0)] }
    let enf := { due with bar := [(0x00050000, 2 ^ 63 + 2 ^ 62 + 200 * 2 ^ 50 + 200 * 2 ^ 38)] }
    let tlm := { due with bar := [(0x00050050, 2 ^ 63 + 4096)] }
    (∀ e ∈ [(9, 200, false), (10, 10, true), (2000, 2000, true), (2001, 10, false), (10, 9, false), (10, 2001, false)],
      let v := e.1 * 2 ^ 50 + e.2.1 * 2 ^ 38
      (10 ≤ bits v 61 50 ∧ bits v 61 50 ≤ 2000 ∧ 10 ≤ bits v 49 38 ∧ bits v 49 38 ≤ 2000 ↔ e.2.2 = true) ∧ bit v 63 = false) ∧
    bit (2 ^ 63) 63 = true ∧ (barRd State.reset 0x00050000).getLsbD 63 = true ∧ (barRd off 0x00050000).getLsbD 63 = false ∧
    devNs State.reset / 10000 ≤ State.reset.drl.evals ∧ off.drl.evals < devNs off / 10000 ∧ enf.drl.evals < devNs enf / 10000 ∧
    (barRd enf 0x00050000).getLsbD 62 = true ∧ bits (barRd enf 0x00050000).toNat 37 30 = 0 ∧ devNs State.reset / 100000 ≤ State.reset.time.tlm ∧
    due.time.tlm < devNs due / 100000 ∧ bit (barRd due 0x00050050).toNat 63 = false ∧ bit (barRd tlm 0x00050050).toNat 63 = true ∧
    0 < bits (barRd tlm 0x00050050).toNat 47 0 / 4096 * 4096 := by decide +kernel

/-- Time with an edge at 0, messages ignored so far, and whether the clock has locked. -/
def timeOf (heard locked : Bool) : TimeIn := { TimeIn.reset with edge := some 0, heard := heard, everLocked := locked }

theorem witness_TimeDiscipline : let s := fun t => { State.reset with time := t }
    let good := (5 :: List.replicate 14 0) ++ [5]
    (s TimeIn.reset).time.edge = none ∧ (s (timeOf true false)).time.heard = true ∧ (s (timeOf false false)).time.edge = some 0 ∧
    (s (timeOf false false)).time.heard = false ∧ ([] ++ [1, 2].map (BitVec.ofNat 8)).length < 16 ∧ todGood ((good.map (BitVec.ofNat 8)).take 16) = true ∧
    16 ≤ good.length ∧ (s (timeOf false false)).dev ≤ 0 + 500000000 * 19000000 ∧ timeSrc (s TimeIn.reset) = 0 ∧ timeSrc (sBar 0x00050040 (2 ^ 62)) = 1 ∧
    (sBar 0x00050040 (2 ^ 62)).time.everLocked = false ∧ (sBar 0x00050040 (2 ^ 62)).time.served = false ∧ (s (timeOf false true)).time.everLocked = true := by
  decide +kernel

/-- Core 0 in a debug session for ASID 1, selecting a space and index, halted or not; no session with 0. -/
def sDbg (ctl : Word) (sp idx : Nat) (halted : Bool) : State := { sT { kT with halted := halted } with
  issue := none
  bar := [(dbgOff 0 0, ctl), (dbgOff 0 0x30, BitVec.ofNat 64 (sp * 2 ^ 56 + idx)), (dbgOff 0 0x48, 2 ^ 63 + 2 ^ 49)] }

theorem witness_DebugWindowSamplesAndCounters : let on : Word := 2 ^ 63 + 2 ^ 62 + 2 ^ 32
    (0 : Nat) < 192 ∧ 191 < 192 ∧ dbgOn (sDbg 0 1 0 true) 0 = false ∧ dbgOn (sDbg on 1 0 true) 0 = true ∧
    (barRd (sDbg 0 1 0 true) (dbgOff 0 0)).getLsbD 63 = false ∧ (barRd (sDbg on 1 0 true) (dbgOff 0 0)).getLsbD 63 = true ∧
    (coreAt (sDbg on 1 0 false) 0).halted = false ∧ (coreAt (sDbg on 1 0 true) 0).halted = true ∧
    (∀ i ∈ [0, 63], dbgSpace (sDbg on 1 i true) 0 = 1 ∧ dbgIndex (sDbg on 1 i true) 0 = i ∧ (dbgGet (sDbg on 1 i true) 0 1 i).isSome = true ∧
      (dbgPut (sDbg on 1 i true) 0 1 i 5).isSome = true) ∧
    samplePeriod (sDbg on 1 0 true) 0 = some 2048 ∧ samplePeriod State.reset 0 = none ∧
    (let s := fun now => { sBar 0x00048000 (2 ^ 63 + 2 ^ 61) with now := now, rpl := { Replay.reset with waiting := [(3, 0, 1, 2)] } }
     (∀ x ∈ State.reset.rpl.waiting, x.1 ≠ 3) ∧ (s 0).rpl.waiting.find? (fun x => x.1 == 3) = some (3, 0, 1, 2) ∧ rplMode (s 0) = 2 ∧ (s 0).rpl.parted = false ∧ (s 1023).now < 0 + rplWindow (s 1023) ∧
     0 + rplWindow (s 1024) ≤ (s 1024).now ∧ bit (rplCtl (s 0)) 61 = true) := by decide +kernel

theorem witness_TranslationCommands : let s := { sW kW 0 0 with issue := none }
    let busy := barWr s 0x00020020 (2 ^ 63)
    let waits := { s with hub := { Hub.reset with pend := [(4, ⟨0, 0, 3, 0, none⟩)] } }
    s.sec.recovery = false ∧ (barRd s 0x00020020).getLsbD 63 = false ∧ (barRd busy 0x00020020).getLsbD 63 = true ∧
    (∀ c, c ∈ s.cores → c.2.f.comb = []) ∧ tagsOf s 1 = [] ∧ tagsOf waits 1 = [4] ∧ s.sec.locked.contains 1 = false ∧
    winTgt ((winWords s 1 3)) = 1 ∧ winPkg (winWords s 1 3) = pkgNo s ∧ winTgt (winWords s 1 4095) ≠ 1 ∧ (4095 : Nat) < 4096 ∧
    bit (regionWord s 0) 255 = true ∧ bits (regionWord s 0) 254 241 = 1 ∧ bit (regionWord s 1023) 255 = false ∧ (1023 : Nat) < 1024 := by decide +kernel

/-- VF 2 owns ASID 1; its staged entry begins with the word given. -/
def sVf (b : Nat) : State := { sQ 0 (recB 0 0) { qIdle with bound := true } kFree with
  sec := { Sec.reset with owner := [(1, 2)] }
  gangs := [(7, gangOf 3 false)]
  bar := spSet (sQ 0 (recB 0 0) qIdle kFree).bar (2 * 2 ^ 40 + 0x40) (BitVec.ofNat 64 b) }

theorem witness_FunctionCommands : let s := sVf (2 ^ 35)
    let sts := 2 * 2 ^ 40 + 8
    s.sec.recovery = false ∧ (1 : Nat) ≤ 2 ∧ 64 ≤ 64 ∧ (barRd s sts).getLsbD 63 = false ∧ (barRd (barWr s sts (2 ^ 63)) sts).getLsbD 63 = true ∧
    ownerOf s 1 = 2 ∧ ownerOf s 3 ≠ 2 ∧ qAsid s 4 = 1 ∧ (4 : Nat) < 65536 ∧ qAsid s 5 ≠ 1 ∧ (spFind s.gangs 7).map Gang.asid = some 1 ∧ spFind s.gangs 8 = none ∧
    vfNames s 1 4 5 = false ∧ vfNames s 1 6 0 = true ∧ vfNames s 1 1 9 = true ∧ (qsOf s 5).bound = false ∧ bits (leNat (vfEntry s 2)) 48 35 = 1 ∧
    bits (leNat (vfEntry (sVf 0) 2)) 48 35 ≠ 1 ∧ bit (regionWord s 1023) 255 = false ∧
    bit (memNat s ((barRd s 0x00020008).toNat + 32 * (2 ^ 20 - 1)) 8) 63 = false := by decide +kernel

/-- A trunk in a state on lanes 0 to 3. -/
def trunkOf (st : Nat) (nrz : Bool) : Trunk := { Trunk.reset with state := st, lanes := [0, 1, 2, 3], aimNrz := nrz, replay := some (0, 16), rxExp := 7 }

def sTrunk (t : Trunk) (dev : Nat) : State := { sBar 0x00031000 (2 ^ 63 + 2 ^ 61) with
  dev := dev
  hub := { Hub.reset with trunks := [(0, t)], holds := [(9, 5, [])] } }

theorem witness_TrunksAndRoutes : (0 : Nat) < 144 ∧ (sTrunk (trunkOf 1 false) 0).hub.cmd = none ∧ 143 < 144 ∧ (barRd (sTrunk (trunkOf 1 false) 0) (0x00031000 + 8 * 0)).getLsbD 63 = true ∧
    (barRd (sTrunk (trunkOf 1 false) 0) (0x00031000 + 8 * 143)).getLsbD 63 = false ∧
    4 ∉ (trunkOf 1 false).lanes ∧ (trunkOf 0 false).state = 0 ∧ 3 ∈ (trunkOf 1 false).lanes ∧ ({ trunkOf 1 false with lanes := [3] } : Trunk).lanes.length = 1 ∧
    (trunkOf 1 false).lanes.length ≠ 1 ∧ (trunkOf 3 true).state = 3 ∧ (trunkOf 4 true).state = 4 ∧ (trunkOf 2 true).since + nsDev 20000 = 20000 * 19000000 ∧
    (trunkOf 2 false).aimNrz = false ∧ (16384 : Nat) ≤ 16384 ∧ 16383 < 16384 ∧
    (∀ e ∈ (sTrunk (trunkOf 1 false) 0).hub.holds, e.1 ≠ 16383) ∧ (sTrunk (trunkOf 1 false) 0).hub.holds.find? (fun e => e.1 == 9) = some (9, 5, []) := by decide +kernel

/-- The number of a flit of a type, sequence number and credit count on channel 0. -/
def flitOf (typ seq crcnt : Nat) : Nat := (seq * 2 ^ 36 + crcnt * 2 ^ 11 + typ * 2 ^ 4) * 2 ^ 1888

theorem witness_FlitsArrive : ¬((trunkOf 0 false).state = 1 ∨ (trunkOf 0 false).state = 3 ∨ (trunkOf 0 false).state = 4) ∧ (trunkOf 0 false).state ≠ 2 ∧
    (trunkOf 1 false).state = 1 ∧ (trunkOf 2 false).state = 2 ∧
    (∀ e ∈ [(0, 7, 0), (0, 7, 3), (1, 7, 0), (2, 8, 0), (3, 0, 0), (4, 0, 0)], let f := readFlit (flitOf e.1 e.2.1 e.2.2)
      f.typ = e.1 ∧ f.seq = e.2.1 ∧ f.crcnt = e.2.2 ∧ f.typ ≤ 4 ∧ f.vc ≤ 9 ∧ bits (flitOf e.1 e.2.1 e.2.2) 1891 1888 = 0) ∧
    ¬ (readFlit (flitOf 5 0 0)).typ ≤ 4 ∧ (let s := sTrunk (trunkOf 1 false) (nsDev 1000)
      (trunkAt (modTrunk s 0 fun t => t.acked 0) 0).rxExp = 7 ∧ (trunkAt s 0).replay = some (0, 16) ∧ 0 + nsDev 1000 ≤ s.dev) ∧
    Trunk.reset.replay = none := by decide +kernel

/-! ### Arrivals at the hub

Keys 1 to 4 of ASID 1: ordinary memory, a handle, a counter file, versioned memory; key 5 a page that stages. -/

def keyBytes (tgt base limit : Nat) : List Byte := toBytes (2 ^ 63 + 15 * 2 ^ 59 + tgt * 2 ^ 57 + 2 ^ 31) 8 ++ toBytes base 8 ++ toBytes limit 8 ++ toBytes 0 8

/-- A packet from package 5 on lane 3. -/
def pktOf (op key addr aux : Nat) (rsp : Bool) (len : Nat) (data : List Byte) : Packet := ⟨0, 5, 3, 0, rsp, op, len, key * 4096, addr, 77, 0, aux, [], data, 999, 0⟩

/-- The package with arrivals, around core 0 of ASID 1 with h7 valid. -/
def sHub (l : List Packet) : State := let s := sW { kH 0 with tlbR := tlbRanges, tlbP := tlbPages } 2 0
  { s with
    issue := none
    mem := memPutBytes s.mem 0x180020 (keyBytes 0 0x40000 0x40000 ++ keyBytes 1 0 32768 ++ keyBytes 2 0 4096 ++ keyBytes 0 0x80000 4096 ++ keyBytes 0 0x8000000 4096)
    hub := { Hub.reset with rx := l } }

theorem witness_WritesReadsAndAtomicsArrive : let at_ := fun (p : Packet) => keyCheck (sHub [p]) p.key (if bit p.aux 5 then 1 else 0) rW p.addr p.data.length
    let w := pktOf 1 1 0 0 false 8 (toBytes 7 8)
    let h := pktOf 1 2 32760 (2 ^ 5 + 7 * 2 ^ 10 + 1 * 2 ^ 6) false 8 (toBytes 7 8)
    let r := pktOf 2 1 0x3FFF8 0 false 8 []
    let a := pktOf 3 1 0 9 false 16 (toBytes 7 8 ++ toBytes 0 8)
    let parked := { sHub [w] with hub := { (sHub [w]).hub with parked := [⟨999, 1, 0x8000000, w⟩] } }
    rplMode (sHub [w]) = 0 ∧ (∀ p ∈ [w, h, r, a], (sHub [p]).hub.rx[0]? = some p ∧ p.rsp = false ∧ (∀ q ∈ (sHub [p]).hub.rx.take 0, ¬(q.spkg = p.spkg ∧ q.lane = p.lane ∧ q.rsp = false)) ∧
      (∀ k ∈ (sHub [p]).hub.parked, ¬(k.pkt.spkg = p.spkg ∧ k.pkt.lane = p.lane))) ∧
    (∃ q, q ∈ (sHub [w, r]).hub.rx.take 1 ∧ q.spkg = r.spkg ∧ q.lane = r.lane ∧ q.rsp = false) ∧ (∃ k, k ∈ parked.hub.parked ∧ k.pkt.spkg = w.spkg ∧ k.pkt.lane = w.lane) ∧
    at_ w = some (1, 0x40000) ∧ at_ (pktOf 1 6 0 0 false 8 (toBytes 7 8)) = none ∧ at_ (pktOf 1 1 0x3FFF9 0 false 8 (toBytes 7 8)) = none ∧
    at_ h = some (1, 32760) ∧ h.ggen = 0 ∧ 0x400000 + 8 ≤ hbmSize ∧ pktCore h = 0 ∧ pktHnd h = 7 ∧ pktGen h = 1 ∧
    writeAt (sHub [w]) 1 0x40000 8 = .ok ∧ writeAt (sHub [w]) 1 0x80000 8 = .drop ∧
    xlat (sHub []) 0 1 0x40000 = .loc 0x400000 3 14 0x40000 true false ∧
    keyCheck (sHub []) r.key 0 rR r.addr r.len = some (1, 0x7FFF8) ∧ keyCheck (sHub []) (6 * 4096) 0 rR 0 8 = none ∧
    xlat (sHub []) 0 1 0x7FFF8 = .loc 0x43FFF8 3 14 8 true false ∧ r.data = [] ∧ 0 < r.len ∧ (hbmRead (sHub []) 1 0x43FFF8 8).1.length = 8 ∧
    keyCheck (sHub []) (4 * 4096) 0 rR 0 8 = some (1, 0x80000) ∧ (xlat (sHub []) 0 1 0x80000 matches .loc _ 4 ..) = true ∧
    keyCheck (sHub []) a.key 0 rA a.addr 8 = some (1, 0x40000) ∧ 0x40000 % 8 = 0 ∧ hasRight 14 rA = true ∧ hasRight 14 rR = true ∧ hasRight 6 rR = false := by
  refine ⟨by decide +kernel, by decide +kernel, ⟨_, List.mem_cons_self, by decide +kernel⟩, ⟨_, List.mem_cons_self, by decide +kernel⟩, by decide +kernel⟩

/-- A copy record whose completion counter is on the page that stages. -/
def stageRec : List Byte := recOf 1 0 (0x07 * 2 ^ 56 + 64) (0x07 * 2 ^ 56 + 4088) 16 (2 ^ 63) (2 ^ 62 + 0x8000000) 0

/-- A package with nothing but ASID 1, its page table and core 0 with that record's command; a write to the page that stages has arrived. -/
def sStage : State := let w := pktOf 1 5 0 0 false 8 (toBytes 7 8)
  { sW (kE stageRec (cmdOf 1 [] false [] [])) 0 0 with
    issue := none
    mem := memPutBytes (memPutBytes (memPutBytes (memPutBytes [] 0x100040 (toBytes (2 ^ 63) 8 ++ toBytes 0x300000 8 ++ toBytes 0x310000 8))
      0x1800A0 (keyBytes 0 0x8000000 4096)) 0x310000 (toBytes (2 ^ 62 + 0x320000) 8)) 0x320000 (toBytes (2 ^ 63 + 3 * 2 ^ 59 + 2 ^ 53) 8)
    hub := { Hub.reset with rx := [w] } }

/-- The page that stages parks the write, and a command whose completion counter lies there: the clauses of WritesReadsAndAtomicsArrive and of
EngineCommandStarts, in one theorem because the lookup's scan of the window table is long. -/
theorem witness_PageThatStages : let w := pktOf 1 5 0 0 false 8 (toBytes 7 8)
    sStage.hub.rx[0]? = some w ∧ w.op = 1 ∧ keyCheck sStage w.key 0 rW 0 8 = some (1, 0x8000000) ∧ writeAt sStage 1 0x8000000 8 = .park 0x8000000 ∧
    cmdAt sStage 0 0 = some (cmdOf 1 [] false [] []) ∧ rplMode sStage = 0 ∧
    (startRec sStage 0 1 (cmdOf 1 [] true stageRec []) 0 false matches .stop (.park 0x8000000)) = true := by decide +kernel

theorem witness_CountersVersionsAndResponsesArrive : let c := fun fn => pktOf 4 3 4080 fn false 8 (toBytes 7 8)
    let v := fun fn ver => pktOf 5 4 0 fn false 16 (toBytes ver 8 ++ toBytes 9 8)
    let r := fun op what => let p := pktOf op 0 0 3 true 8 (toBytes 7 8)
      (p, { sHub [p] with hub := { (sHub [p]).hub with pend := [(77, ⟨what, 0, 3, 8, none⟩)] } })
    (∀ fn ∈ [0, 1, 2, 4], rplMode (sHub [c fn]) = 0 ∧ (sHub [c fn]).hub.rx[0]? = some (c fn) ∧ bits (c fn).aux 4 0 = fn ∧ (c fn).rsp = false ∧
      keyCheck (sHub []) (c fn).key 2 (if fn = 2 then rR else rA) (c fn).addr 8 = some (1, 4080)) ∧ 4080 % 8 = 0 ∧ 4080 / 8 < 511 ∧ pktCore (c 0) < 192 ∧
    keyCheck (sHub []) (6 * 4096) 2 rA 0 8 = none ∧
    (let p := pktOf 4 2 4088 (2 ^ 5 + 5) false 8 (toBytes 7 8)
     bits p.aux 4 0 = 5 ∧ bit p.aux 5 = true ∧ keyCheck (sHub []) p.key 1 rW 0 0 ≠ none ∧ p.addr / 8 < 512 ∧ spGet 0 (sHub [p]).hub.skip (16 * 5 + 3) = 0 ∧
     spGet 0 ({ (sHub [p]).hub with skip := [(83, 1)] } : Hub).skip (16 * 5 + 3) = 1) ∧
    verReach (sHub []) 0 1 0x80000 8 rR = .here [(0x1000, 0, 0, 8, 0)] ∧ (v 0 0).data.length ≤ 16 ∧ keyCheck (sHub []) (v 0 0).key 0 rR (v 0 0).addr 8 = some (1, 0x80000) ∧
    (verTry (sHub []) false [(0x1000, 0, 0, 8, 0)] 2 9 matches .done ..) = true ∧ (verTry (sHub []) true [(0x1000, 0, 0, 8, 0)] 3 9 matches .done ..) = true ∧
    (verTry (sHub []) true [(0x1000, 0, 0, 8, 0)] 2 9 matches .fault 0x14) = true ∧
    (∀ e ∈ [(0x20, 1), (0x20, 3), (0x21, 0), (0x24, 0), (0x24, 1)], let x := r e.1 e.2
      x.2.hub.rx[0]? = some x.1 ∧ x.1.rsp = true ∧ spFind x.2.hub.pend x.1.tag = some ⟨e.2, 0, 3, 8, none⟩) ∧
    spFind (sHub []).hub.pend 77 = none ∧ (pktOf 0x30 0 0 0 false 8 []).op = 0x30 := by decide +kernel

/-- A group of two members at 0x600000 (packages 5 and 6) with SEQ 9 closed, and an open reduction of it. -/
def groupT : Group := ⟨true, 1, 1, 100, 0x600000, 2, 0, 9, 1⟩

def redT (form : List Nat) : Red := ⟨2, 1, 10, form, [], [], 0, false⟩

/-- A contribution to that group: contributor, contributors, length in units of 4 bytes, SEQ, first element, FP32 in the default mode. -/
def redPkt (k n units seq first gen : Nat) (data : List Byte) : Packet := ⟨0, 5, 3, 0, false, 6, 8, 0, 2 * 2 ^ 32 + first, 77, gen, seq, [k, n, units], data, 999, 0⟩

def sRed (p : Packet) (reds : List Red) : State := let s := sHub [p]
  { s with mem := memPutBytes s.mem 0x600000 (toBytes 5 2 ++ toBytes 6 2), hub := { s.hub with groups := [(2, groupT)], reds := reds } }

theorem witness_Reductions : let p := redPkt 0 2 2 10 0 1 (toBytes 0 8)
    let fm := [0, 0, 0, 0, 2, 2]
    let x := cmdOf 7 [] true (recOf 7 0 (0x07 * 2 ^ 56) 0 4 (2 ^ 63) (2 ^ 63) 0) [1, 5, 0, 1]
    let rsp := pktOf 0x22 0 0 0 true 8 (toBytes 0 8)
    let waits := { sE [] x with hub := { Hub.reset with rx := [rsp], pend := [(77, ⟨7, 0, 1, 8, none⟩)] } }
    (sRed p []).hub.rx[0]? = some p ∧ p.op = 6 ∧ p.rsp = false ∧ spFind (sHub [p]).hub.groups 2 = none ∧ spFind (sRed p []).hub.groups 2 = some groupT ∧
    groupT.valid = true ∧ groupT.gen = p.ggen ∧ groupT.gen ≠ (redPkt 0 2 2 10 0 2 []).ggen ∧
    memNat (sRed p []) (0x600000 + 2 * 0) 2 % 16384 = p.spkg ∧ memNat (sRed p []) (0x600000 + 2 * 1) 2 % 16384 ≠ p.spkg ∧ p.pre.getD 1 0 = groupT.nmem ∧
    seqClosed groupT 9 = true ∧ seqClosed groupT 10 = false ∧ p.data.length % redElem 0 = 0 ∧ 0 * 4 + p.data.length ≤ 4 * p.pre.getD 2 0 ∧
    ¬ 1 * 4 + p.data.length ≤ 4 * p.pre.getD 2 0 ∧
    ((sRed p [redT [1, 0, 0, 0, 2, 2]]).hub.reds.find? fun r => r.group == 2 && r.ggen == 1 && r.seq == 10) = some (redT [1, 0, 0, 0, 2, 2]) ∧ [1, 0, 0, 0, 2, 2] ≠ fm ∧
    entriesUsed (sRed p []) + entriesOf 0 2 ≤ 8192 ∧ 8192 < entriesUsed (sRed p [redT [0, 0, 0, 0, 8388608, 2]]) + entriesOf 0 2 ∧ bits p.aux 20 19 ≠ 1 ∧
    waits.hub.rx[0]? = some rsp ∧ rsp.rsp = true ∧ rsp.op = 0x22 ∧ spFind waits.hub.pend 77 = some ⟨7, 0, 1, 8, none⟩ ∧ redCmd waits ⟨7, 0, 1, 8, none⟩ = some x ∧
    redCmd (sHub [rsp]) ⟨7, 0, 1, 8, none⟩ = none ∧ spFind (sHub [rsp]).hub.pend 77 = none ∧
    (sRed p [redT fm]).hub.reds[0]? = some (redT fm) ∧ (redT fm).asked = false ∧ ptmoOf (sRed p [redT fm]) (redT fm) = 100000 * 19000000 ∧
    (let r := { redT fm with parts := [(0, 0, toBytes 0 8), (1, 0, toBytes 0 8)], who := [(0, 5, 77), (1, 6, 78)] }
     ∀ k, k < r.n → k ∈ r.arrived) ∧
    (sRed p []).hub.cmd = none ∧ (4096 : Nat) ≤ 4096 ∧ 4095 < 4096 ∧ (∀ r ∈ (sRed p []).hub.reds, r.group ≠ 2) := by decide +kernel

/-- Each place of a session. What a good signature is, nothing can evaluate (log 13): the clauses of a good image and a good FINISH speak of that
constant and hold whichever it is. -/
theorem witness_BootAndSessions : let s := fun st => { State.reset with sec := { Sec.reset with spdm := [(2, st)] } }
    let rec' := { State.reset with sec := { Sec.reset with recovery := true } }
    (s 0).sec.recovery = false ∧ rec'.sec.recovery = true ∧ (0 : Nat) ≤ 64 ∧ 64 ≤ 64 ∧ imgOk State.reset 0 [] = false ∧ bootOk State.reset [] = false ∧ (3 : Nat) < 4 ∧
    (∀ st ∈ [0, 1, 2, 3, 4, 5], spGet 0 (s st).sec.spdm 2 = st) ∧ ([0] : List Nat).headD 0 % 16 = 0 := by decide +kernel

theorem witness_KeysStreamsAndInterfaces : let s := { State.reset with sec := { Sec.reset with spdm := [(2, 5)], tdi := [(2, 2)], owner := [(1, 2)], locked := [1] } }
    let b := [1, 3, 255, 3, 1, 0, 0, 0] ++ List.replicate 36 0
    let other := { s with sec := { s.sec with slots := [(1024 * 3 + 1023, ⟨true, 4, 0, 0, 0⟩)] } }
    s.sec.recovery = false ∧ (2 : Nat) ≤ 64 ∧ spGet 0 s.sec.spdm 2 = 5 ∧ spGet 0 s.sec.spdm 3 ≠ 5 ∧ b.headD 0 = 1 ∧ 44 ≤ b.length ∧ b.getD 1 0 ≤ 3 ∧
    leNat (slice (natBytes b) 2 2) = 1023 ∧ leNat (slice (natBytes b) 4 2) = 1 ∧ leNat (slice (natBytes b) 6 2) = 0 ∧ spGet 0 s.sec.tdi 2 = 2 ∧ 1 ∈ lockedOf s 2 ∧
    (spGet ⟨false, 0, 0, 0, 0⟩ s.sec.slots (1024 * 3 + 1023)).valid = false ∧ (spGet ⟨false, 0, 0, 0, 0⟩ other.sec.slots (1024 * 3 + 1023)).valid = true ∧
    (spGet ⟨false, 0, 0, 0, 0⟩ other.sec.slots (1024 * 3 + 1023)).asid ≠ 1 ∧ spGet 0 State.reset.sec.tdi 2 = 0 ∧ (1 : Nat) ≤ 2 := by decide +kernel

theorem witness_RegisterWrites : let op := fun k => k * 2 ^ 56 + 5 * 2 ^ 32
    (2 ^ 64 - 1 : Nat) < 2 ^ 64 ∧ State.reset.sec.recovery = false ∧ (4 : Nat) % 8 ≠ 0 ∧ 64 < 65 ∧ (∃ c, c < 4096 ∧ ctxValid (sQ 0 [] qIdle kFree) c = true) ∧
    (∀ k ∈ [1, 2, 3, 4, 5, 6, 7, 0x11, 0x20], bits (op k) 63 56 = k ∧ bits (op k) 49 48 = 0 ∧ op k < 2 ^ 64) ∧ (143 : Nat) < 144 ∧ (191 : Nat) < 192 ∧
    State.reset.hub.cmd = none ∧ rplMode State.reset = 0 ∧ 0x0000FFF8 % 8 = 0 ∧ 0x0000FFF8 < 0x00010000 ∧ (64 : Nat) ≤ 64 ∧ 0x80 ≤ 0x80 := by
  refine ⟨by decide, by decide +kernel, by decide, by decide, ⟨0, by decide, by decide +kernel⟩, by decide +kernel, by decide, by decide +kernel, by decide, by decide, by decide, by decide, by decide, by decide⟩

theorem witness_CounterArithmetic : let p := fun (x : Word) => x.getLsbD 63
    p 0x8000000000000000 = true ∧ p 0x7FFFFFFFFFFFFFFF = false ∧ 2 ^ 63 - 1 < 0x7FFFFFFFFFFFFFFF + 1 ∧ 0x7FFFFFFFFFFFFFFE + 1 ≤ 2 ^ 63 - 1 ∧ 2 ^ 63 ≤ 2 ^ 63 ∧
    2 ^ 63 - 1 < 2 ^ 63 := by decide +kernel

/-- A core of the address space with a program, whose table gives HENTRY 0 and lets cause 05 go to the task. -/
def sTrap (inHandler : Bool) : State := let s := sW { kW with prog := { Prog.reset with code := [0] }, q := { kW.q with inHandler := inHandler } } 0 0
  { s with mem := memPutBytes s.mem 0x100060 (toBytes (2 ^ 5) 8) }

theorem witness_TrapEntryAndReturn : (coreAt (sTrap false) 0).bind = some ⟨0, 0, 1, 0, [0], 1, 0, false, false⟩ ∧ causeToTask 0x05 0 false = true ∧
    bit (memNat (sTrap false) (0x100000 + 64 * 1 + 32) 8) 0x05 = true ∧ bits (memNat (sTrap false) (0x100000 + 64 * 1) 8) 47 24 < (coreAt (sTrap false) 0).prog.code.length ∧
    (coreAt (sTrap false) 0).q.inHandler = false ∧ (coreAt (sTrap false) 0).q.newPass = none ∧ (coreAt (sTrap true) 0).q.inHandler = true ∧ causeToTask 0x1B 0 false = false ∧ 2 ^ 32 - 1 < 2 ^ 32 := by decide +kernel

/-- The first step after reset with `li s8, 5` placed: the fetch, its check and its launch; an event on the agenda; the end of a round. -/
theorem witness_StepRunsDecoded : let w := 0x1F * 2 ^ 18 + 8 * 2 ^ 12 + 5
    let s := State.reset.withFetchWord 28 w
    let k := coreAt s 0
    ({ s with agenda := [.ppsEdge] }).agenda = .ppsEdge :: [] ∧ s.agenda = [] ∧ s.turn < 192 ∧ 192 ≤ ({ s with turn := 192 }).turn ∧ s.issue = none ∧ k.q.last ≤ s.now ∧
    rplMode s ≠ 2 ∧ 192 ≤ 192 ∧ ({ s with now := 0, cores := [(0, { k with q := { k.q with last := 1 } })] }).now < 1 ∧
    (10, SlotClass.s, 324, 28) ∈ slotTable ∧ 0 < w ∧ w < 2 ^ 28 ∧ decodeSlot .s w = .ok (.li 0 8 5) ∧ progOk k (.li 0 8 5) = true ∧ bundleFault [(10, .li 0 8 5)] = none ∧
    (match nextBundle (2 ^ 64) s 0 with
     | .go u _ _ _ ops => (match launchDue (fun _ => true) 9 u 0 with | (.ok, v) => rplMode v == 0 && (coreAt v 0).q.skipMask == 0 && ops == [(10, .li 0 8 5)] | _ => false)
     | _ => false) = true ∧
    (let j : Issue := { buT k with todo := [(10, .li 0 8 5)] }
     ({ s with issue := some j }).issue = some j ∧ j.todo = (10, .li 0 8 5) :: []) := by decide +kernel

theorem witness_NopInEverySlot : (0 : Nat) < 16 ∧ 15 < 16 ∧ 0 < 2 ^ 15 ∧ 2 ^ 15 - 1 < 2 ^ 15 ∧ 2 ^ 37 - 1 < 2 ^ 37 ∧ 15 ≠ 0 ∧
    slotField (BitVec.ofNat 384 (15 * 2 ^ 20 * 2 ^ 352)) 352 24 = 15 * 2 ^ (24 - 4) := by decide +kernel

/-- Good and bad token lists at each count. -/
theorem witness_TokensOfAsynchronousOperations : (15 : Nat) < 16 ∧ 3 < 4 ∧ (7 : Nat) ≠ 0 ∧
    (let ends := fun (n a b c : Nat) => (n < 1 → a = 0) ∧ (n < 2 → b = 0) ∧ (n < 3 → c = 0)
     let other := fun (r n a b c : Nat) => ¬ r ∈ [a, b, c].take n
     (ends 0 0 0 0 ∧ other 0 0 0 0 0) ∧ (ends 3 15 1 2 ∧ other 0 3 15 1 2) ∧ ¬ ends 1 5 5 0 ∧ ¬ other 5 1 5 0 0 ∧ ¬ other 2 3 15 1 2) := by decide +kernel

/-! ### Commits, holds, rows, probes and pieces -/

/-- What a bundle at address 6 of one word leaves for its end. -/
def carryOf (re : Option (Nat × Nat)) (call : Option Nat) (noLoop : Bool) (trap : Option Nat) : Carry :=
  ⟨6, re, call, noLoop, none, trap, false, 1, false, 0, 10, 3, true⟩

/-- The core in levels 1 and 0 whose bundle at the body end of level 1 has issued, in pass `j` of it, at a depth of the return stack. -/
def kEnd (x : Carry) (j d : Nat) : Core := { kLoop with
  r := { kLoop.r with lc := [(1, j)], depth := d, rstack := List.replicate (min d 16) 9 }
  q := { kLoop.q with carry := some x, newPass := some 1, pc := 6 } }

/-- Faults on record or none; held or not; a body end passed over by a transfer or a call, at depths 15 and 16, and met in its last pass but one
and its last of the five; a trap that follows; a bundle issued anew with its C slot completed. -/
theorem witness_BundleCommit : let s := fun (k : Core) => { sT k with issue := none }
    let hit : Issue := { buT kP with faults := [⟨6, 0x0B, 3, 0⟩] }
    let x := carryOf none none false none
    (sT kP).issue = some (buT kP) ∧ (buT kP).faults ++ (launchNow (s kP) (buT kP)).2 = [] ∧ hit.faults ++ (launchNow (s kP) hit).2 ≠ [] ∧
    (coreAt (s (kEnd x 4 0)) 0).q.free = true ∧ (coreAt (s (kEnd x 4 0)) 0).q.carry = some x ∧ x.held = true ∧
    (coreAt (s { kEnd x 4 0 with q := { (kEnd x 4 0).q with hold := .halt } }) 0).q.free = false ∧ x.trapAfter = none ∧ x.stageSet = none ∧
    dbgOn (s kP) 0 = false ∧ (dbgRd (s kP) 0 0x48).getLsbD 63 = false ∧ (carryOf (some (2, 1)) none true none).noLoop = true ∧
    (carryOf (some (2, 1)) (some 2) true none).calls ≠ none ∧ (kEnd x 4 15).r.depth < 16 ∧ 16 ≤ (kEnd x 4 16).r.depth ∧
    (kEnd x 4 16).r.rstack.getLast? = some 9 ∧ ((kEnd x 4 0).r.loops.find? fun l => (levelOf (kEnd x 4 0) l).bend == 6) = some 1 ∧
    spGet 0 (kEnd x 3 0).r.lc 1 + 1 < 3 + 3 - 1 ∧ 3 + 3 - 1 ≤ spGet 0 (kEnd x 4 0).r.lc 1 + 1 ∧
    (∀ m ∈ (kEnd x 4 0).r.loops, m ≠ 1 → (levelOf (kEnd x 4 0) m).bend ≠ 6) ∧ (kEnd x 4 0).q.newPass = some 1 ∧
    (carryOf none none false (some 7)).trapAfter = some 7 ∧ kP.q.carry = none ∧
    (let k := { kEnd x 4 0 with q := { (kEnd x 4 0).q with skipMask := 0x800 } }
     k.q.carry = some x ∧ x.pc = (beginPass k).q.pc ∧ (beginPass k).q.skipMask ≠ 0 ∧ (beginPass k).q.skipMask.getLsbD 11 = true) := by decide +kernel

/-- A core held as given, with tokens, a PBC count, and its counter 511. -/
def kHeld (h g : Hold) (tok : BitVec 16) (pbc : Nat) (v : Word) : Core := { kP with
  r := { kP.r with tok := tok, pbc := pbc }
  q := { kP.q with hold := h, holdG := g }, ct := [(511, v)] }

/-- Each stage of a superstep with its work done and not; a gang of one and no gang; a member that retired early; a fence whose stores are out and
one with an access left; a handler that returns and one that waits; tokens pending and not. -/
theorem witness_HoldsEnd : let s := fun (k : Core) => { sT k with issue := none }
    let st := fun (n : Nat) (t : BitVec 16) (pbc : Nat) (v : Word) => s (kHeld (.sstep n) .none t pbc v)
    let wr : Cmd := ⟨1, 3, 0x11, 2, [], 0, 1, 0, 0, 4, true, [], [], 0, 0, 0, [], none, [], 0, [], false, 0, 0⟩
    (let k := coreAt (st 1 0 0 0) 0
     k.q.holdG = .none ∧ k.q.holdO = .none ∧ parkedG k = none ∧ k.q.running = true) ∧
    drained1 (coreAt (flushComb (st 1 0 0 0) 0 fun _ => true) 0) = true ∧ drained1 (coreAt (flushComb (st 1 4 0 0) 0 fun _ => true) 0) = false ∧
    (coreAt (st 2 0 0 0) 0).r.pbc = 0 ∧ (coreAt (st 2 0 8 0) 0).r.pbc ≠ 0 ∧
    (let b := barrierOf (st 4 0 0 1) 0
     b.1 = 0 ∧ b.2.1 * 1 ≤ (ctGet (coreAt (st 4 0 0 1) 0) 511).toNat ∧ (ctGet (coreAt (st 4 0 0 0) 0) 511).toNat < b.2.1 * 1 ∧
     (ctGet (coreAt (st 4 0 0 (2 ^ 63)) 0) 511).getLsbD 63 = true) ∧ Core.reset.bind = none ∧
    (let g := { sQ 0 (recB 0 0) qIdle (kMember false) with gangs := [(7, gangOf 0 false)] }
     (coreAt g 1).bind = some ⟨7, 0, 1, 0, [], 1, 0, false, false⟩ ∧ gangAt g 7 = some (gangOf 0 false)) ∧
    (let t := lookSstep (modCore (st 2 0 0 0) 0 id) 0 2
     trappedSince (coreAt (st 2 0 0 0) 0) t 0 = false ∧ (coreAt t 0).q.free = false ∧
     (coreAt (lookSstep (modCore (st 4 0 0 1) 0 id) 0 4) 0).q.free = true) ∧
    (let f := s (kHeld .none (.fence 4) 0 0 0)
     (coreAt f 0).q.holdG = .fence 4 ∧ parkedG (coreAt f 0) = none ∧ (coreAt f 0).f.gq = [] ∧ storesOut f 0 true = false ∧ (coreAt f 0).f.fill = none) ∧
    (kHeld .tret .none 0 0 0).q.hold = .tret ∧ (kHeld .tret .none 0 0 0).f.cmds = [] ∧
    (let k := { kHeld .tret .none 0 0 0 with f := { Flight.reset with cmds := [wr] } }
     wr ∈ k.f.cmds ∧ wr.op = 0x11 ∧ needPending k = none) ∧
    (∀ t ∈ (foot (.tkwait 0 16 17 18)).tk, (kHeld .none .none 0b1000 0 0).r.tok.getLsbD t = false) ∧
    (2 ∈ (foot (.tkwait 0 16 17 18)).tk ∧ (kHeld .none .none 0b100 0 0).r.tok.getLsbD 2 = true) ∧ kP.q.skipMask = 0 ∧ kP.q.xwait = none ∧ kP.r.check = 0 := by
  decide +kernel

/-- A session with the brk bit armed and none; in and out of a handler; a bundle in memory behind a wheel wait. -/
theorem witness_SequencerOperations_sessions : let on : Word := 2 ^ 63 + 2 ^ 62 + 2 ^ 32
    dbgOn (sDbg on 1 0 true) 0 = true ∧ (dbgRd (sDbg on 1 0 true) 0 0).getLsbD 62 = true ∧ dbgOn (sDbg 0 1 0 true) 0 = false ∧
    (dbgRd (sDbg (2 ^ 63 + 2 ^ 32) 1 0 true) 0 0).getLsbD 62 = false ∧ kP.q.inHandler = false ∧
    ({ kP with q := { kP.q with inHandler := true } } : Core).q.inHandler = true ∧
    (let s := State.reset.withFetchWord 28 (0x1F * 2 ^ 18 + 8 * 2 ^ 12 + 5)
     let k := coreAt s 0
     k.f.deferred = [] ∧ k.q.landed = false ∧ k.q.newPass = none ∧ k.q.ready ≤ k.q.act ∧
     (match bundleAt k k.q.pc with
      | some (b, dx, _) => dx != 0xFFFF && (match checkBundle k b with | .inr ops => ops == [(10, .li 0 8 5)] | _ => false)
      | none => false) = true ∧ ({ k.q with wheel := some 255 } : Seqr).wheel = some 255 ∧ (0 + 256 - 255) % 256 ≠ s.now % 256 ∧
     (0 + 256 - 0) % 256 = s.now % 256) := by decide +kernel

/-- An access of its core's queue in the HBM window, the COUNTER and the HANDLE window, ordinary memory, and where nothing is mapped. -/
def gAt (kind : GKind) (va : Nat) : GOp := ⟨3, 0, kind, 0, 8, BitVec.ofNat 64 va, 0, 7, 0, 0, 5, 0, 0, 2, .ready⟩

def sAt (kind : GKind) (va : Nat) : State := sW { kW with f := { Flight.reset with gq := [gAt kind va] } } 0 0

/-- Ordinary memory that may not be read, and a window without the write right. -/
def tlbBare : List XEnt := [⟨1, 0, 0, 0x40000, 0x80000, [2 ^ 63 + 3 * 2 ^ 60 + 6 * 2 ^ 56, 0x40000, 0x40000, 0x400000]⟩,
  ⟨1, 1, 0, 0x100000, 0x140000, [2 ^ 63 + 8 * 2 ^ 57 + 2 ^ 56 + 0x100000, 0x40000, 5 * 2 ^ 50, 0x1000 * 2 ^ 32]⟩,
  ⟨1, 1, 5, 0x200000, 0x240000, [2 ^ 63 + 15 * 2 ^ 57 + 2 ^ 56 + 0x200000, 0x40000, 0, 0x1000 * 2 ^ 32]⟩]

theorem witness_ProbesAndWindowAccesses : let p := sAt .probe 0x40000
    let bare := sW { kW with tlbR := tlbBare } 0 0
    let r := fun (s : State) (va : Nat) => (xlat s 0 1 va).bounded 8
    let hub := { sHub [] with cores := [(0, { kH 0 with tlbR := tlbBare })] }
    (coreAt p 0).f.gq[0]? = some (gAt .probe 0x40000) ∧ (gAt .probe 0x40000).hub ≠ 1 ∧ asidOf (coreAt p 0) = 1 ∧
    r p 0x4000000 = .fail 5 ∧ (xlook p 0 1 0x40000 matches .hit _) = true ∧ (r p 0x40000 matches .loc 0x400000 3 14 ..) = true ∧ hasRight 14 rR = true ∧
    (r bare 0x40000 matches .loc 0x400000 3 6 ..) = true ∧ hasRight 6 rR = false ∧ (xlook p 0 1 0x180000 matches .hit _) = true ∧
    (match r p 0x180000 with | .win _ w o _ => winTgt w == 1 && decide (winKind p w o < 8) | _ => false) = true ∧
    (match r hub 0x200000 with | .win _ w o _ => winTgt w == 0 && decide (0 < winKind hub w o) && decide (winKind hub w o < 8) | _ => false) = true ∧
    (∀ kind ∈ [GKind.load, .loadAcq, .amo, .store, .storeRel], ∀ e ∈ [(0x100000, 0), (0x100078, 0), (0x140000, 2), (0x180000, 1)],
      let s := sAt kind e.1
      let g := gAt kind e.1
      (coreAt s 0).f.gq[0]? = some g ∧ (coreAt s 0).f.comb.any (leavesFor s 0 g) = false ∧ gMay s 0 0 = true ∧ g.lo % 128 + g.size ≤ 128 ∧
      (match xlatFill s 0 1 g.lo with
       | (.win _ w _ sp, t) => decide (winTgt w = e.2 ∧ hasRight (winRights w) g.kind.right = true ∧ g.size ≤ sp) && decide (t = s)
       | _ => false) = true) ∧
    (match xlatFill bare 0 1 0x100000 with | (.win _ w _ _, _) => !hasRight (winRights w) rW | _ => false) = true ∧
    (coreAt (sAt .store 0x100000) 0).f.comb = [] ∧ winTgt [2 ^ 63 + 15 * 2 ^ 57 + 2 ^ 56 + 0x100000, 0x40000, 5 * 2 ^ 50, 0x1000 * 2 ^ 32] = 0 := by
  decide +kernel

/-- Each kind of row: the first and the last due, one not due, and one that the next cycle makes due; a masked lane and one that is not. -/
theorem witness_MatrixRows : let f : XRow := ⟨127, ⟨0, 0, 0⟩, 0⟩
    let go := fun (op done : Nat) => { xOf op true done with fly := [f] }
    (∀ op ∈ [2, 3, 4, 5, 6, 7, 9, 10, 11], ∀ d ∈ [0, 127], (kX (go op d) .full 1).f.xops = [go op d] ∧ (go op d).launched = true ∧ (go op d).fly = f :: []) ∧
    (∀ op ∈ [3, 4, 5, 6, 7], mmaDue (go op 127) 0 = true ∧ mmaDue { go op 0 with age := 0 } 0 = false) ∧
    (let v := cview 9
     let a := depthL v.fmt - 1
     mmaDue { go 4 0 with age := a } 0 = false ∧ mmaDue { go 4 0 with age := a } 1 = true) ∧
    127 + (go 9 127).slip ≤ (go 9 127).age ∧ (stream 0).tgt = false ∧ (stream (2 ^ 247)).tgt = true ∧ unsentRows (kX (go 11 0) .full 1) < 8 ∧
    8 ≤ unsentRows { kX (go 11 0) .full 1 with f := { Flight.reset with drainq := List.replicate 8 ⟨3, [], 0, [], 0, 0, false, 0, false⟩ } } ∧
    (let v := cview 0
     ((0 : Nat) : Int) + v.diag < ((127 : Nat) : Int) ∧ ¬((127 : Nat) : Int) + v.diag < ((127 : Nat) : Int)) ∧
    (∃ m, (cview m).out = true ∧ (cview m).sat = true) ∧ (∃ m, (cview m).out = true ∧ (cview m).sat = false) ∧ (cview 0).out = false := by
  refine ⟨by decide +kernel, by decide +kernel, by decide +kernel, by decide +kernel, by decide +kernel, by decide +kernel, by decide +kernel, by decide +kernel,
    by decide +kernel, ?_, ?_, by decide +kernel⟩
  · exact ⟨0xFFFFFFFFFFFFFFFF, by decide +kernel, by decide +kernel⟩
  · exact ⟨0x20, by decide +kernel, by decide +kernel⟩
/-- Test case 13 of the published AES-GCM test vectors: key and IV zero, no text. -/
theorem test_gcm_empty : gcmTag (aesKeys (List.replicate 32 0)) (List.replicate 12 0) [] =
    [0x53, 0x0F, 0x8A, 0xFB, 0xC7, 0x45, 0x36, 0xB9, 0xA9, 0x63, 0xB4, 0xF1, 0xC4, 0xCB, 0x73, 0x8B] := by decide +kernel

/-- A command of an opcode over one row index, source and destination as given, started, with the record as read. -/
def cmdRec (op arg src dst len land aux : Nat) (more : List Byte) : Cmd :=
  { cmdOf op [] true (recOf op arg src dst len land (2 ^ 63) aux ++ more) [] with gens := [(0, 7, 1)] }

/-- Pieces within a line and over two; gather and scatter with a good index and a bad handle for it. -/
theorem witness_EnginePieces_rows : let h := 0x07 * 2 ^ 56
    let s := fun (x : Cmd) => sE [] x
    (piecesOf (s (cmdOf 1 [] true [] [])) 0 0 (h + 510) 0 [1, 2, 3] none).length = 2 ∧ (piecesOf (s (cmdOf 1 [] true [] [])) 0 1 126 0 [1, 2] none).length = 1 ∧
    (∀ op ∈ [2, 3], ∀ code ∈ [0, 0x0A], let x := { cmdRec op 16 (h + 64) (h + 4096) (2 ^ 40 + 16 * 2 ^ 20) (2 ^ 63) (h + 1024) [] with code := code }
      cmdAt (s x) 0 0 = some x ∧ x.started = true ∧ x.parked = none ∧ x.pieces = [] ∧ x.waits = [] ∧ x.prog.getD 0 0 < bits x.len 63 40 ∧ x.arg = 16 ∧
      (match endRead (s x) x 0 1 0 x.aux 0 4 with
       | .ok (k, t) => leNat k == 3 && (let e := if op = 2 then (48, 0) else (0, 48)
          (endRead t x 0 1 x.sk x.src e.1 16 matches .ok _) && (endCheck t x 0 1 x.dk x.dst e.2 16 matches .ok _))
       | _ => false) = true) ∧
    (let x := cmdRec 2 16 (h + 64) (h + 4096) (2 ^ 40 + 16 * 2 ^ 20) (2 ^ 63) (6 * 2 ^ 56) []
     (endRead (s x) x 0 1 0 x.aux 0 4 matches .stop (.bad _)) = true) := by decide +kernel

/-- A multicast to two cores, one of which has no such handle; a store through the window; loads from ordinary memory and through the window. -/
theorem witness_EnginePieces_moves : let h := 0x07 * 2 ^ 56
    let s := fun (x : Cmd) => sE [] x
    (let x := cmdRec 4 0 h (h + 64) 16 5 0 []
     let x := { x with recb := recOf 4 (3 * 2 ^ 39) h (h + 64) 16 5 (2 ^ 63) 0 }
     x.drop = 0 ∧ x.done = 2 ^ 63 ∧ x.len = 16 ∧ x.op = 4 ∧ x.w 1 = 4 * 2 ^ 58 + 0 * 2 ^ 57 + 0 * 2 ^ 56 + 3 * 2 ^ 39 ∧ x.land < 511 ∧ x.aux = 0 ∧
     (endRead (s x) x 0 1 0 x.src 0 16 matches .ok _) = true ∧ (engWord (s x) x 0 1 x.dst 0 16 matches .ok _) = true ∧
     (engWord (s x) x 1 1 x.dst 0 16 matches .ok _) = false ∧ ∀ i, i < 4 → (engWord (s x) x i 1 x.dst 0 16 matches .stop (.bad 4)) = false) ∧
    (∀ e ∈ [(0, h), (1, 0x40000)], let x := { cmdRec 5 0 e.2 0x100000 16 (2 ^ 63) 0 [] with recb := recOf 5 (e.1 * 2 ^ 57 + 2 ^ 56) e.2 0x100000 16 (2 ^ 63) (2 ^ 63) 0 }
     x.w 1 = 5 * 2 ^ 58 + e.1 * 2 ^ 57 + 1 * 2 ^ 56 + 0 * 2 ^ 39 ∧ x.land = 2 ^ 63 ∧
     (match xlat (s x) 0 1 x.dst with | .win _ w _ sp => winTgt w != 2 && hasRight (winRights w) rW && decide (16 ≤ sp) | _ => false) = true ∧
     (endRead (s x) x 0 1 e.1 x.src 0 16 matches .ok _) = true) ∧
    (∀ e ∈ [(0, h + 64, 0x40000), (1, 0x40080, 0x40000), (0, h + 64, 0x100000)],
     let x := { cmdRec 6 0 e.2.2 e.2.1 16 (2 ^ 63) 0 [] with recb := recOf 6 (2 ^ 57 + e.1 * 2 ^ 56) e.2.2 e.2.1 16 (2 ^ 63) (2 ^ 63) 0 }
     let t := flushComb (s x) 0 fun y => (16 : Nat) != 0 && x.src / 128 ≤ y.line && y.line ≤ (x.src + 16 - 1) / 128
     x.w 1 = 6 * 2 ^ 58 + 1 * 2 ^ 57 + e.1 * 2 ^ 56 + 0 * 2 ^ 39 ∧ (endCheck (s x) x 0 1 e.1 x.dst 0 16 matches .ok _) = true ∧
     (match xsplit (s x) 0 1 17 x.src 0 16 with
      | [(a, 0, 16, .loc pa kd rt ..)] => a == x.src && kd != kVERSIONED && kd != kCOUNTER && hasRight rt rR && (engRead t 0 1 x.src [(pa, 16)] matches .ok _)
      | [(a, 0, 16, .win _ w _ sp)] => a == x.src && winTgt w == 0 && hasRight (winRights w) rR && decide (16 ≤ sp ∧ x.src % 128 + 16 ≤ 128)
      | _ => false) = true) := by decide +kernel

/-- The package with a key slot as given, around a ccpy of one byte under counter 1, its ciphertext and tag in ordinary memory. -/
def sCrypt (k : List (Nat × KeySlot)) (tag : Nat) (hnd : Nat) : State × Cmd :=
  let x := { cmdRec 0x0B 0 0x40000 (hnd * 2 ^ 56) 1 (2 ^ 63) 1 [] with recb := recOf 0x0B (2 ^ 57) 0x40000 (hnd * 2 ^ 56) 1 (2 ^ 63) (2 ^ 63) 1 ++ toBytes (1023 * 2 ^ 48) 8 }
  let s := sE [] x
  ({ s with mem := memPutBytes s.mem 0x400000 (toBytes (tag * 256) 17), sec := { s.sec with slots := k } }, x)

def slotOk : KeySlot := ⟨true, 1, 0, 0, 0⟩

/-- No slot, a slot erased, of another address space, an invalid handle, a counter used already, a wrong tag and the right one. -/
theorem witness_EnginePieces_ccpy : let one := fun (k : KeySlot) => [(1023, k)]
    let good := sCrypt (one slotOk) 295592673653351665904863592096786510259 7
    let x := good.2
    x.drop = 0 ∧ x.done = 2 ^ 63 ∧ x.len = 1 ∧ x.op = 0x0B ∧ x.w 1 = 0x0B * 2 ^ 58 + 1 * 2 ^ 57 + 0 * 2 ^ 56 + 0 * 2 ^ 39 ∧ x.land = 2 ^ 63 ∧ x.w 8 = 1023 * 2 ^ 48 ∧
    1 ≤ (handle (coreAt good.1 0) (bits x.dst 63 56)).size ∧ dieOf 0 * 1024 + 1023 = 1023 ∧ spFind (sCrypt [] 0 7).1.sec.slots 1023 = none ∧
    spFind good.1.sec.slots 1023 = some slotOk ∧ slotOk.valid = true ∧ slotOk.asid = 1 ∧ slotOk.lastCtr < x.aux ∧ ({ slotOk with valid := false } : KeySlot).valid = false ∧
    ({ slotOk with asid := 2 } : KeySlot).asid ≠ 1 ∧ x.aux ≤ ({ slotOk with lastCtr := 1 } : KeySlot).lastCtr ∧
    (engWord good.1 x 0 1 x.dst 0 1 matches .ok _) = true ∧ (let b := sCrypt (one slotOk) 0 6; (engWord b.1 b.2 0 1 b.2.dst 0 1 matches .stop _) = true) ∧
    (∀ e ∈ [(0, false), (295592673653351665904863592096786510259, true)], let b := sCrypt (one slotOk) e.1 7
     (match endRead (setHeld b.1 0 7 1) b.2 0 1 1 b.2.src 0 17 with
      | .ok (l, _) => (gcmTag (aesKeys (beBytes slotOk.key.toNat 32)) (beBytes slotOk.salt.toNat 4 ++ beBytes 1 8) ((l.take 1).map BitVec.toNat) ==
          (l.drop 1).map BitVec.toNat) == e.2
      | _ => false) = true) ∧
    (∀ p ∈ [0, 1], let k := { good.2 with code := if p = 1 then 8 else 0, prog := [1023, 1, p] }
     let u := setHeld (sE [] k) 0 7 1
     cmdAt u 0 0 = some k ∧ spGet 0 (coreAt u 0).m.hheld 7 = 1 ∧ k.prog.getD 2 0 = p ∧ (handle (coreAt u 0) 7).valid = true) := by decide +kernel
/-! ### Further clauses of the statements above -/

/-- Core 137 in a task of ASID 5, and the highest core without one. -/
theorem witness_ControlRegisters : (137 : Nat) < 192 ∧ 191 < 192 ∧ (255 : Nat) < 256 ∧
    ({ kT with bind := some ⟨0, 0, 5, 0, [0], 1, 0, false, false⟩ } : Core).bind.map Bind.asid = some 5 ∧ 5 < 2 ^ 14 ∧ Core.reset.bind = none ∧
    (sT kP).issue = some (buT kP) ∧ guardOf (sT kP) 1 = true := by decide +kernel

/-- A walk that meets an uncorrectable line; no fill that reads before a release, and one that does. -/
theorem witness_EngineCommandStarts_walks : let s := { sStage with bad := [0x320000 / 128] }
    (startRec s 0 1 (cmdOf 1 [] true stageRec []) 0 false matches .stop (.walk _)) = true ∧ fillBefore (coreAt sStage 0) 3 = false ∧
    fillBefore { kP with f := { Flight.reset with fill := some ⟨1, 2, 0, 0, 1, none, 0, 2⟩ } } 3 = true := by decide +kernel

/-- A piece whose banks are free and one whose banks another requester has; a gather that ended on a failed check. -/
theorem witness_EngineCommandsComplete_banks : let q : Piece := ⟨0, false, 7, 1, 4088, [1, 2], none, 0⟩
    let x := { cmdOf 1 [] true (recOf 1 0 0 0 16 40 (2 ^ 63) 0) [] with pieces := [q] }
    let s := sE cpyRec x
    let busy := { s with cores := [(0, { kE cpyRec x with q := { (kE cpyRec x).q with last := 1 }, lines := (pieceLines s q).map fun l => (0, l + 1) })] }
    (bankTry s 0 x.requester (pieceLines s q)).1 = true ∧ (bankTry busy 0 x.requester (pieceLines busy q)).1 = false ∧ q.hub ≠ 1 ∧ q.core = 0 ∧ rplMode s = 0 ∧
    (5 : Nat) ≠ 0 ∧ 5 ≠ 0x0A ∧ (1 : Nat) ≤ x.prog.getD 0 1 := by decide +kernel

/-- Every hardware slot taken, by queues that may be evicted and by queues of a higher priority; an unlocked clock that must lock first. -/
theorem witness_DoorbellsSlotsAndRecords_slots : let s := { sQ 0 (recB 0 0) qIdle kFree with mem := memPutBytes [] 0x500100 (toBytes (2 ^ 63 + 2 ^ 57 + 7 * 2 ^ 54 +
      4 * 2 ^ 49 + 2 ^ 35 + 2 ^ 26) 8 ++ toBytes 0x530000 8 ++ toBytes 0 8 ++ toBytes 3 8 ++ toBytes 2 8 ++ toBytes 2 8) }
    let all := { s with qs := (4, qIdle) :: (List.range 64).map fun i => (100 + i, { qIdle with slot := some 0 }) }
    (qSlotted all).length = 64 ∧ qActive all 4 = true ∧ (qsOf all 4).slot = none ∧ qVictim all 4 = some 100 ∧
    qVictim { all with qs := all.qs.map fun e => if e.1 = 4 then (200, qIdle) else (if e.1 = 100 then 4 else e.1, e.2) } 200 ≠ none ∧
    servesQueues (barWr s 0x00050040 (2 ^ 62)) = false ∧ servesQueues s = true := by decide +kernel

/-- All 65,536 gang ids in use. -/
theorem witness_PlacementQuantumAndStops_ids : freeGangId { State.reset with gangs := (List.range 65536).map fun n => (n, gangOf 0 false) } = none := by
  have h : ∀ (m a n : Nat), a ≤ n → n < a + m → (spFind ((List.range' a m).map fun n => (n, gangOf 0 false)) n).isSome = true := by
    intro m
    induction m with
    | zero => intro a n _ _; omega
    | succ m ih =>
      intro a n ha hb
      by_cases e : a = n
      · simp [List.range'_succ, spFind, e]
      · have := ih (a + 1) n (by omega) (by omega)
        simp [List.range'_succ, spFind, e, show ¬ n < a by omega, this]
  unfold freeGangId
  rw [List.find?_eq_none]
  intro n hn
  have hm : n < 65536 := by simpa [upTo] using hn
  have := h 65536 0 n (Nat.zero_le n) (by omega)
  rw [← List.range_eq_range'] at this
  simp [gangAt, Option.isNone_iff_eq_none, Option.ne_none_iff_isSome, this]

/-- A request outstanding and one granted; another context in the way or not; a level with a further ready queue and with none. -/
theorem witness_PlacementQuantumAndStops_turns : let r := recB 0 0
    let s := sQ 0 r (qHeld r true) kFree
    let asks := fun (n : Nat) => { s with drl := { s.drl with reqs := [⟨4, 1, [1], 4, n⟩] } }
    (reqOf (asks 0) 4).map RampReq.lack = some 0 ∧ otherBlocks s 0 0 = false ∧
    (let u := { s with mem := memPutBytes (memPutBytes s.mem 0x520000 (toBytes (2 ^ 63 + 2 ^ 32) 8)) 0x520040 (toBytes (2 ^ 63 + 2 ^ 61 + 2 * 2 ^ 32) 8)
                       gangs := [(7, { gangOf 0 false with ctx := 1 })] }
     ctxOf u 1 0 = some 0 ∧ otherBlocks u 0 0 = true) ∧ (freeGangId s).isSome = true ∧
    readyQs s 0 = [4] ∧ nextAfter 4 [4] = some 4 ∧ nextAfter 4 [4, 9] = some 9 ∧ nextAfter 4 [] = none := by decide +kernel

/-- Drain rows and requests that hold a translation on their way; a handle of another package of which the firmware has told, and none. -/
theorem witness_TranslationCommands_waits : let s := { sW kW 0 0 with issue := none }
    let d : DrainRow := ⟨3, [], 0, [], 0, 0, false, 0, false⟩
    let waits := { s with cores := [(0, { kW with f := { Flight.reset with drainq := [d] } })] }
    drainsOf s 1 = [] ∧ drainsOf waits 1 = [(0, 3)] ∧ tagsPast s 5 = [] ∧
    tagsPast { s with hub := { Hub.reset with pend := [(4, ⟨6, 0, 3, 0, some (pktOf 2 5 0 0 false 8 [])⟩)] } } 5 = [4] ∧ (2 ^ 20 - 1 : Nat) < 2 ^ 20 ∧
    s.hub.far = [] ∧ spFind [(5 * 2 ^ 16 + 7, 17)] (5 * 2 ^ 16 + 7) = some 17 ∧ winPkg [0, 0, 5 * 2 ^ 50, 0] ≠ pkgNo s ∧ winTgt [2 ^ 63 + 2 ^ 61, 0, 0, 0] = 1 ∧
    s.sec.locked.contains 0 = false ∧ ({ Sec.reset with locked := [1] } : Sec).locked.contains 1 = true := by decide +kernel

/-- Entries in use by another address space, bound, live, and staged bytes that name another address space. -/
theorem witness_FunctionCommands_entries : let s := sVf (2 ^ 35)
    let key := (barRd s 0x00020008).toNat
    let held := { s with mem := memPutBytes s.mem (key + 32 * 9) (toBytes (2 ^ 63 + 2 * 2 ^ 31) 8) }
    (qsOf s 4).bound = true ∧ qAsid s 4 = 1 ∧ (qsOf s 5).bound = false ∧ qValid s 5 = false ∧ bit (memNat held (key + 32 * 9) 8) 63 = true ∧
    bits (memNat held (key + 32 * 9) 8) 44 31 ≠ 1 ∧ bit (memNat s (key + 32 * 8) 8) 63 = false ∧ bits (leNat (vfEntry s 2)) 44 31 ≠ 1 ∧
    bits (leNat (vfEntry (sVf (2 ^ 31)) 2)) 44 31 = 1 ∧ (65536 : Nat) ≤ 65536 ∧ 1024 ≤ 1024 ∧ (2 ^ 20 : Nat) ≤ 2 ^ 20 := by decide +kernel

/-- Good and bad flits, a corrected symbol on lane 3, requests for replay below and at their limit. -/
theorem witness_FlitsArrive_inputs : let s := sTrunk (trunkOf 1 false) 0
    let f := readFlit (flitOf 3 0 0)
    let acked := modTrunk s 0 fun t => t.acked f.ack
    let again := modTrunk acked 0 fun t => t.resend (leNat (f.payload.take 2) % 4096)
    (0 : Nat) ≠ 1 ∧ 5 ≠ 1 ∧ 2 ≤ 5 ∧ (trunkAt again 0).asked.2 < 16 ∧
    (let s := sTrunk { trunkOf 1 false with asked := (0, 15), txAck := 0 } 0
     16 ≤ (trunkAt (modTrunk (modTrunk s 0 fun t => t.acked f.ack) 0 fun t => t.resend 0) 0).asked.2) ∧
    (sTrunk { trunkOf 1 false with replay := some (0, 16) } 0 |> fun s => (trunkAt s 0).replay) = some (0, 16) := by decide +kernel

/-- A write into a handle whose banks its core has in this cycle; a counter refused to an engine, and one added to; a landing add behind a forwarded
write; a version that waits. -/
theorem witness_ArrivalsThatWait : let h := pktOf 1 2 32760 (2 ^ 5 + 7 * 2 ^ 10 + 1 * 2 ^ 6) false 8 (toBytes 7 8)
    let s := sHub [h]
    let ls := ingressLines s 0 h
    let busy := { s with cores := s.cores.map fun e => (e.1, { e.2 with q := { e.2.q with last := 1 }, lines := ls.map fun l => (0, l + 1) }) }
    let v := pktOf 5 4 0 0 false 16 (toBytes 3 8 ++ toBytes 9 8)
    (bankTry s 0 5 ls).1 = true ∧ (coreAt s 0).q.last ≠ s.now + 1 ∧ (bankTry busy 0 5 ls).1 = false ∧ (addOrPoison (2 ^ 63 - 1) 1).2 = true ∧ (addOrPoison 5 1).2 = false ∧
    2 ≤ spGet 0 ({ (sHub []).hub with skip := [(83, 79)] } : Hub).skip (16 * 5 + 3) ∧ bits (2 ^ 5 + 6) 4 0 = 6 ∧
    (verTry (sHub []) false [(0x1000, 0, 0, 8, 0)] 3 9 matches .wait [0]) = true ∧ v.pre = [] ∧ ({ v with pre := [0] } : Packet).pre = 0 :: [] ∧
    (sHub []).dev < 0 + nsDev (1000 * bits (regionWord (sHub []) 0) 231 200) ∧
    0 + nsDev (1000 * bits (regionWord (sHub []) 0) 231 200) ≤ ({ sHub [] with dev := nsDev 1000 } : State).dev ∧
    (∀ what ∈ [1, 3], (spFind [(77, (⟨what, 0, 3, 8, none⟩ : Pend))] 77) = some ⟨what, 0, 3, 8, none⟩) ∧ bit (2 ^ 25) 25 = true := by decide +kernel

/-- A contribution that has come before, in part, and one that has not; a request that a started command answers to, and one that none does. -/
theorem witness_Reductions_again : let p := redPkt 0 2 2 10 0 1 (toBytes 0 8)
    let again := fun (r : Red) => r.parts.any fun e => e.1 == 0 && decide (e.2.1 < 0 + p.data.length / 4 ∧ 0 < e.2.1 + e.2.2.length / 4)
    let ask : Packet := ⟨0, 5, 3, 0, false, 7, 1, 0, 2 * 2 ^ 32, 0, 1, 10, [], [], 999, 0⟩
    let x := cmdOf 7 [] true (recOf 7 0 (0x07 * 2 ^ 56) 0 (10 * 2 ^ 48 + 5 * 2 ^ 34 + 2 * 2 ^ 22 + 2 ^ 14 + 4) (2 ^ 63) (2 ^ 63) 0) [1, 5, 0, 1]
    again { redT [0, 0, 0, 0, 2, 2] with parts := [(0, 1, toBytes 0 4)] } = true ∧ again (redT [0, 0, 0, 0, 2, 2]) = false ∧
    (bits x.len 47 34 == ask.spkg && bits x.len 33 22 == bits ask.addr 43 32 && bits x.len 21 14 == ask.ggen && bits x.len 63 48 == bits ask.aux 15 0 &&
      bits x.aux 31 0 == bits ask.addr 31 0 && x.op == 7 && x.started && x.drop == 0 && !x.prog.isEmpty) = true ∧
    (endTake (sE [] x) x 0 1 x.sk x.src 0 16 rRED matches .ok _) = true ∧ (kH 0).f.cmds = [] := by decide +kernel

/-- Requests that lack slots; ENF as the evaluation found it; bytes of a time message more than a millisecond apart; a locked address space's session. -/
theorem witness_GovernorTimeAndSessions : let lacks := { State.reset with drl := { Drl.reset with reqs := [⟨4, 1, [1], 4, 2⟩] } }
    let late := { State.reset with dev := 1000000 * 19000000 + 1, time := { timeOf false false with got := [1], lastByte := 0 } }
    (∀ r ∈ lacks.drl.reqs, r.lack ≠ 0) ∧ (∀ r ∈ State.reset.drl.reqs, r.lack ≠ 0) ∧ ({ Drl.reset with enf := true } : Drl).enf = true ∧ Drl.reset.upFirst = none ∧
    Drl.reset.dnFirst = none ∧ ({ Drl.reset with upFirst := some (5, 6) } : Drl).upFirst = some (5, 6) ∧ (5 : Int) < 6 ∧ drlFillwait (barWr State.reset 0x00050000 0) = 0 ∧
    late.time.got ≠ [] ∧ late.time.heard = false ∧ late.time.lastByte + 1000000 * 19000000 < late.dev ∧ ¬ (0 : Nat) + 1000000 * 19000000 < 1000000 * 19000000 ∧
    bits (2 ^ 63 + 2 ^ 32) 45 32 = 1 ∧ ({ Sec.reset with locked := [1] } : Sec).locked.contains 1 = true ∧
    (∃ m e, ({ timeOf false false with tai := some 9 } : TimeIn).tai = some m ∧ (timeOf false false).edge = some e) := by
  refine ⟨by decide +kernel, by decide +kernel, by decide +kernel, by decide +kernel, by decide +kernel, by decide +kernel, by decide +kernel, by decide +kernel,
    by decide +kernel, by decide +kernel, by decide +kernel, by decide +kernel, by decide +kernel, by decide +kernel, 9, 0, rfl, rfl⟩

/-- A core that runs, one that is halted, and one whose turn of this cycle is over. -/
theorem witness_StepRunsDecoded_cycle : let s := State.reset.withFetchWord 28 (0x1F * 2 ^ 18 + 8 * 2 ^ 12 + 5)
    let t := modCore s 0 fun k =>
      let k := ratBegin (fillFinish (xRetire k))
      { k with lines := if 0 < k.q.bankHold then k.lines else [], q := { k.q with last := s.now + 1, heldBy := 0 } }
    s.issue = none ∧ (coreAt s 0).q.last ≤ s.now ∧ rplMode s ≠ 2 ∧ (coreAt t 0).q.running = true ∧ (coreAt t 0).halted = false ∧ (coreAt t 0).q.wake ≤ t.dev ∧
    (coreAt t 1).q.running = false ∧ s.now < (coreAt t 0).q.last ∧ (coreAt s 0).q.skipMask = 0 := by decide +kernel

/-- Reset in the statement's values that a table gives. -/
theorem witness_ResetState : (trunkAt State.reset 0).credS = 512 ∧ (trunkAt State.reset 143).credS = 512 ∧
    barRd State.reset 0x00050000 = BitVec.ofNat 64 (2 ^ 63 + 200 * 2 ^ 50 + 200 * 2 ^ 38 + 2 * 2 ^ 30) ∧ barRd State.reset 0x00050008 = 0x4B382C2018100804#64 := by
  decide +kernel
end Sys2Proof.Tests
end

section
/-! PROOFS. Register writes: what a write to a BAR0 register does, by function and offset (R6), and that the row of a taken
command carries it out with BUSY clear (R332, R371). -/

namespace Sys2Proof.Proofs

open Sys2Proof Sys2Proof.Machine

/-! ## Device registers -/

theorem barRd_barWr_other (s : State) {off o : Nat} (w : Word) (h : o ≠ off) : barRd (barWr s off w) o = barRd s o :=
  spGet_spSet_other _ _ _ _ _ h

/-- An answer with a next state is that of the state it leaves. -/
theorem next_stateOf {a : Ans} (s : State) (h : ∃ t, a = .next t) : Host.Outcome.next (stateOf s a) = a := by
  obtain ⟨t, rfl⟩ := h
  rfl

theorem anyContext_iff (s : State) : anyContext s = true ↔ ∃ c, c < 4096 ∧ ctxValid s c = true := by
  simp [anyContext, upTo]

/-! ## Who a write reaches -/

theorem exec_registerWrite_ignored (s : State) (f off v : Nat) (h : s.sec.recovery = true ∨ off % 8 ≠ 0 ∨ 64 < f) :
    exec (.registerWrite f off v) s = .next s := by
  have hc : (s.sec.recovery || off % 8 != 0 || decide (f > 64)) = true := by simpa [or_assoc] using h
  simp only [exec_registerWrite, execRegisterWrite, hc, if_true]

theorem exec_registerWrite_pf (s : State) {off v : Nat} (hr : s.sec.recovery = false) (ha : off % 8 = 0) (hv : v < 2 ^ 64) :
    exec (.registerWrite 0 off v) s = .next (pfWrite s off v) := by
  rw [exec_registerWrite, execRegisterWrite, Nat.mod_eq_of_lt hv]
  simp [hr, ha]

theorem exec_registerWrite_vf (s : State) {f off v : Nat} (hr : s.sec.recovery = false) (ha : off % 8 = 0) (hv : v < 2 ^ 64)
    (h1 : 1 ≤ f) (h64 : f ≤ 64) : exec (.registerWrite f off v) s = .next (vfBar s f off v) := by
  have hf : ¬ 64 < f := by omega
  have h0 : f ≠ 0 := by omega
  rw [exec_registerWrite, execRegisterWrite, Nat.mod_eq_of_lt hv]
  simp [hr, ha, hf, h0]

/-! ## The pages of the PF's BAR0 -/

theorem pfWrite_pkg (s : State) (off v : Nat) (h : off / 0x10000 = 1) : pfWrite s off v = pkgRegs s off v := by
  have hd : ¬ 0x00100000 ≤ off := by omega
  simp [pfWrite, hd, h]

theorem pfWrite_xlat (s : State) (off v : Nat) (h : off / 0x10000 = 2) : pfWrite s off v = xlatRegs s off v := by
  have hd : ¬ 0x00100000 ≤ off := by omega
  simp [pfWrite, hd, h]

theorem pfWrite_hub (s : State) (off v : Nat) (h : off / 0x10000 = 3) : pfWrite s off v = hubRegs s off v := by
  have hd : ¬ 0x00100000 ≤ off := by omega
  simp [pfWrite, hd, h]

theorem pfWrite_misc (s : State) (off v : Nat) (h : off / 0x10000 = 0 ∨ 4 ≤ off / 0x10000 ∧ off / 0x10000 < 16) :
    pfWrite s off v = miscRegs s off v := by
  have hd : ¬ 0x00100000 ≤ off := by omega
  have h1 : off / 0x10000 ≠ 1 := by omega
  have h2 : off / 0x10000 ≠ 2 := by omega
  have h3 : off / 0x10000 ≠ 3 := by omega
  simp [pfWrite, hd, h1, h2, h3]

theorem pfWrite_dbg (s : State) {n o : Nat} (v : Nat) (hn : n < 192) (ho : o < 0x1000) :
    pfWrite s (0x00100000 + 0x1000 * n + o) v = dbgBlock s n o v := by
  have hlo : 0x00100000 ≤ 0x00100000 + 0x1000 * n + o := by omega
  have hhi : 0x00100000 + 0x1000 * n + o < 0x001C0000 := by omega
  have hcore : (0x00100000 + 0x1000 * n + o - 0x00100000) / 0x1000 = n := by omega
  have hreg : (0x00100000 + 0x1000 * n + o) % 0x1000 = o := by omega
  simp only [pfWrite, hlo, hhi, hcore, hreg, decide_true, Bool.and_true, if_true]

/-! ## Registers that keep bits, or clear them -/

/-- Registers of which a write keeps bits hi:lo: offset, hi, lo. -/
def keptFields : List (Nat × Nat × Nat) :=
  [(0x00010000, 38, 22), (0x00010008, 38, 0), (0x00010010, 38, 0), (0x00020000, 38, 20), (0x00020008, 38, 25), (0x00020010, 38, 15),
   (0x00020028, 63, 0), (0x00030008, 31, 0), (0x00030010, 38, 17), (0x00030018, 38, 17), (0x00048008, 38, 12), (0x00048010, 47, 0),
   (0x00050008, 63, 0), (0x00050048, 38, 12), (0x00060080, 63, 0)]

/-- Registers of which a write of 1 clears the bits of a mask: offset, mask. -/
def clearedFields : List (Nat × Nat) :=
  [(0x00010020, 2 ^ 62), (0x00020020, 2 ^ 62), (0x00030028, 2 ^ 62), (0x00050010, 2 ^ 63), (0x00060000, 0x1FF)]

/-- STACKING and the bases of placement, which a write changes only while no context exists: offset, hi, lo. -/
def contextFields : List (Nat × Nat × Nat) := [(0x00010100, 63, 63), (0x00010108, 38, 18), (0x00010110, 38, 18)]

theorem pfWrite_keptFields (s : State) (v : Nat) : ∀ e ∈ keptFields, pfWrite s e.1 v = keepBits s e.1 v e.2.1 e.2.2 := by
  simp [keptFields, pfWrite_pkg, pfWrite_xlat, pfWrite_hub, pfWrite_misc, pkgRegs, xlatRegs, hubRegs, miscRegs]

theorem pfWrite_clearedFields (s : State) (v : Nat) : ∀ e ∈ clearedFields, pfWrite s e.1 v = w1c s e.1 v e.2 := by
  simp [clearedFields, pfWrite_pkg, pfWrite_xlat, pfWrite_hub, pfWrite_misc, pkgRegs, xlatRegs, hubRegs, miscRegs]

theorem pfWrite_contextFields (s : State) (v : Nat) : ∀ e ∈ contextFields,
    pfWrite s e.1 v = if anyContext s then s else keepBits s e.1 v e.2.1 e.2.2 := by
  simp [contextFields, pfWrite_pkg, pkgRegs]

theorem fields_aligned : (∀ e ∈ keptFields, e.1 % 8 = 0) ∧ (∀ e ∈ clearedFields, e.1 % 8 = 0) ∧ ∀ e ∈ contextFields, e.1 % 8 = 0 := by
  decide

/-! ## Commands of the scheduler (R332) -/

/-- The rows of the scheduler's commands: OP, mode and row. -/
noncomputable def schedRows (n : Nat) : List (Nat × Nat × Instr) :=
  [(1, 0, .ctxCreate n), (2, 0, .ctxDestroy n), (3, 0, .qBind n), (4, 0, .qTeardownDrain n), (4, 1, .qTeardownKill n),
   (4, 2, .qTeardownFreeze n), (5, 0, .qRestore n), (6, 0, .preempt n), (7, 0, .resume n)]

theorem exec_schedRows (n : Nat) : ∀ e ∈ schedRows n, ∀ s, exec e.2.2 s = .next (schedCmd s e.1 e.2.1 n) := by
  simp [schedRows, execCtxCreate, execCtxDestroy, execQBind, execQTeardownDrain, execQTeardownKill, execQTeardownFreeze, execQRestore,
    execPreempt, execResume]

theorem rplMode_schedBusy (s : State) (c : Option (Nat × Nat × Nat)) : rplMode (schedBusy s c) = rplMode s :=
  congrArg (fun w : Word => bits w.toNat 63 62) (barRd_barWr_other s (off := schedSts) (o := 0x00048000) _ (by decide))

/-- With the log off, no decision holds a KILL back. -/
theorem checkGate_logOff (s : State) (q choice : Nat) (h : rplMode s = 0) : checkGate s q choice = (true, s) := by
  unfold checkGate
  cases (qsOf s q).head with
  | none => rfl
  | some r => simp [rplGate_off, h]

theorem schedNow_logOff (s : State) (op mode t : Nat) (h : rplMode s = 0) :
    schedNow s op mode t = schedDo (schedBusy s none) op mode t := by
  simp [schedNow, checkGate_logOff s _ _ h]

/-- The row of the command that the scheduler has taken does what it does with BUSY clear and no command taken. -/
theorem schedCmd_taken (s : State) {op mode t : Nat} (h : s.sched = some (op, mode, t)) (hlog : rplMode s = 0) :
    schedCmd s op mode t = schedCmd (schedBusy s none) op mode t := by
  have hfree : (schedBusy s none).sched = none := rfl
  simp [schedCmd, h, hfree, schedNow_logOff s _ _ _ hlog]

theorem exec_schedRows_taken (s : State) {n : Nat} {e : Nat × Nat × Instr} (he : e ∈ schedRows n) (h : s.sched = some (e.1, e.2.1, n))
    (hlog : rplMode s = 0) : exec e.2.2 s = exec e.2.2 (schedBusy s none) := by
  rw [exec_schedRows n e he, exec_schedRows n e he, schedCmd_taken s h hlog]

theorem schedTake_free (s : State) (op mode t : Nat) (hr : s.sec.recovery = false) (h : s.sched = none) :
    schedTake s op mode t = schedBusy s (some (op, mode, t)) := by
  simp [schedTake, hr, h]

theorem schedTake_busy (s : State) (op mode t : Nat) (hr : s.sec.recovery = false) (h : s.sched ≠ none) :
    schedTake s op mode t = setHealth (barWr s schedSts (barRd s schedSts ||| (1#64 <<< 62))) 0 := by
  have hs : s.sched.isSome = true := Option.isSome_iff_ne_none.mpr h
  simp [schedTake, hr, hs]

theorem pfWrite_schedCmd (s : State) (v : Nat) : pfWrite s 0x00010018 v = schedTake s (bits v 63 56) (bits v 49 48) (bits v 47 32) := by
  simp [pfWrite_pkg, pkgRegs, schedWrite]

/-! ## Commands of the hub (R371) -/

/-- The rows of the hub's commands: OP and row. -/
noncomputable def hubRows (n : Nat) : List (Nat × Instr) := [(1, .routeWr n), (2, .grpSet n), (3, .grpClear n), (4, .trunkTrain n)]

theorem exec_hubRows (n : Nat) : ∀ e ∈ hubRows n, ∃ act, ∀ s, exec e.2 s = .next (hubCmd s e.1 n act) := by
  simp only [hubRows, List.forall_mem_cons]
  exact ⟨⟨routeWr n, fun _ => rfl⟩, ⟨grpSet n, fun _ => rfl⟩, ⟨grpClear n, fun _ => rfl⟩, ⟨trunkTrain n, fun _ => rfl⟩, by simp⟩

/-- The row of the command that the hub has taken does what it does with BUSY clear and no command taken. -/
theorem hubCmd_taken (s : State) {op t : Nat} (act : State → State) (hr : s.sec.recovery = false) (h : s.hub.cmd = some (op, t)) :
    hubCmd s op t act = hubCmd (hubBusy s none) op t act := by
  have hfree : (hubBusy s none).hub.cmd = none := rfl
  have hr' : (hubBusy s none).sec.recovery = false := hr
  simp [hubCmd, h, hr, hfree, hr']

theorem exec_hubRows_taken (s : State) {n : Nat} {e : Nat × Instr} (he : e ∈ hubRows n) (hr : s.sec.recovery = false)
    (h : s.hub.cmd = some (e.1, n)) : exec e.2 s = exec e.2 (hubBusy s none) := by
  obtain ⟨act, hrow⟩ := exec_hubRows n e he
  rw [hrow, hrow, hubCmd_taken s act hr h]

theorem hubTake_free (s : State) (op t : Nat) (hr : s.sec.recovery = false) (h : s.hub.cmd = none) :
    hubTake s op t = hubBusy s (some (op, t)) := by
  simp [hubTake, hr, h]

theorem hubTake_busy (s : State) (op t : Nat) (hr : s.sec.recovery = false) (h : s.hub.cmd ≠ none) :
    hubTake s op t = barWr s hubSts (barRd s hubSts ||| (1#64 <<< 62)) := by
  have hs : s.hub.cmd.isSome = true := Option.isSome_iff_ne_none.mpr h
  simp [hubTake, hr, hs]

theorem pfWrite_hubCmd (s : State) (v : Nat) : pfWrite s 0x00030020 v = hubTake s (bits v 63 56) (bits v 47 32) := by
  simp [pfWrite_hub, hubRegs, hubWrite]

/-! ## Registers whose write is a row of its own -/

theorem pfWrite_trunkCfg (s : State) {n : Nat} (v : Nat) (hn : n < 144) :
    pfWrite s (0x00031000 + 8 * n) v = stateOf s (execTrunkCfgWrite n v s) := by
  have hhi : 0x00031000 + 8 * n < 0x00031480 := by omega
  rw [pfWrite_hub _ _ _ (by omega)]
  have hne : ∀ o ∈ [0x00030000, 0x00030008, 0x00030010, 0x00030018, 0x00030020, 0x00030028], 0x00031000 + 8 * n ≠ o := by
    intro o ho
    simp only [List.mem_cons, List.not_mem_nil, or_false] at ho
    omega
  simp only [List.forall_mem_cons] at hne
  simp [hubRegs, hne, hhi]

theorem execTrunkCfgWrite_next (n v : Nat) (s : State) : ∃ t, execTrunkCfgWrite n v s = .next t := by
  unfold execTrunkCfgWrite
  split
  · exact ⟨_, rfl⟩
  · split <;> exact ⟨_, rfl⟩

theorem execPmcCtlWrite_next (n v : Nat) (s : State) : ∃ t, execPmcCtlWrite n v s = .next t := by
  unfold execPmcCtlWrite
  split <;> exact ⟨_, rfl⟩

theorem execDbgDataWrite_next (n v : Nat) (s : State) : ∃ t, execDbgDataWrite n v s = .next t := by
  unfold execDbgDataWrite
  split
  · exact ⟨_, rfl⟩
  · split <;> exact ⟨_, rfl⟩

theorem pfWrite_pmcCtl (s : State) {n : Nat} (v : Nat) (hn : n < 192) :
    pfWrite s (0x00100100 + 0x1000 * n) v = stateOf s (execPmcCtlWrite n v s) := by
  rw [show 0x00100100 + 0x1000 * n = 0x00100000 + 0x1000 * n + 0x100 by omega, pfWrite_dbg s v hn (by decide)]
  simp [dbgBlock]

theorem pfWrite_dbgData (s : State) {n : Nat} (v : Nat) (hn : n < 192) :
    pfWrite s (0x00100038 + 0x1000 * n) v = stateOf s (execDbgDataWrite n v s) := by
  rw [show 0x00100038 + 0x1000 * n = 0x00100000 + 0x1000 * n + 0x38 by omega, pfWrite_dbg s v hn (by decide)]
  simp [dbgBlock]

theorem pfWrite_drlCtl (s : State) (v : Nat) : pfWrite s 0x00050000 v = startGranted (drlWrite s v) := by
  simp [pfWrite_misc, miscRegs]

theorem pfWrite_hubPkg (s : State) (v : Nat) :
    pfWrite s 0x00030000 v = keepBits { s with flashPkg := BitVec.ofNat 64 (bits v 13 0) } 0x00030000 v 13 0 := by
  simp [pfWrite_hub, hubRegs]

theorem pfWrite_reserved (s : State) {off : Nat} (v : Nat) (h : off < 0x00010000) : pfWrite s off v = s := by
  have hne : ∀ o ∈ [0x00048000, 0x00048008, 0x00048010, 0x00050000, 0x00050008, 0x00050010, 0x00050040, 0x00050048, 0x00050050,
      0x00060000, 0x00060080], off ≠ o := by
    intro o ho
    simp only [List.mem_cons, List.not_mem_nil, or_false] at ho
    omega
  simp only [List.forall_mem_cons] at hne
  rw [pfWrite_misc _ _ _ (by omega)]
  simp [miscRegs, hne]

/-! ## The command block of a VF (R404) -/

theorem barRead_vf (s : State) {f : Nat} (o : Nat) (hr : s.sec.recovery = false) (h1 : 1 ≤ f) (h64 : f ≤ 64) :
    barRead s f o = if o = 0x08 ∨ o = 0x10 then barRd s (f * 2 ^ 40 + o) else 0 := by
  have hf : ¬ 64 < f := by omega
  have h0 : f ≠ 0 := by omega
  simp [barRead, hr, hf, h0, vfRead, vfReg]

theorem vfBar_arg (s : State) (f v : Nat) : vfBar s f 0x10 v = keepBits s (vfReg f 0x10) v 63 0 := by
  simp [vfBar]

theorem vfBar_beyond (s : State) (f : Nat) {off : Nat} (v : Nat) (h : 0x80 ≤ off) : vfBar s f off v = s := by
  have h0 : off ≠ 0 := by omega
  have h8 : off ≠ 0x08 := by omega
  have h10 : off ≠ 0x10 := by omega
  have hhi : ¬ off < 0x80 := by omega
  simp [vfBar, h0, h8, h10, hhi]

theorem vfSched_next (s : State) (f a op mode n : Nat) : ∃ t, vfSched s f a op mode n = .next t := by
  unfold vfSched
  split
  · exact ⟨_, rfl⟩
  · split <;> exact ⟨_, rfl⟩

theorem vfXlat_next (s : State) (f a op n : Nat) : ∃ t, vfXlat s f a op n = .next t := by
  unfold vfXlat
  split
  · exact ⟨_, rfl⟩
  split
  · exact ⟨_, rfl⟩
  split <;> exact ⟨_, rfl⟩

theorem execEntryWr_next (f a sel n : Nat) (s : State) : ∃ t, execEntryWr f a sel n s = .next t := by
  unfold execEntryWr
  split
  · exact ⟨_, rfl⟩
  · split <;> exact ⟨_, rfl⟩

/-- Q_BIND has no mode. -/
theorem vfSched_qBind (s : State) (f a mode n : Nat) : vfSched s f a 3 mode n = execVfQBind f a n s := by
  simp [execVfQBind, vfSched, schedOp]

theorem vfBar_qBind (s : State) (f : Nat) {v : Nat} (h : bits v 63 56 = 3) :
    .next (vfBar s f 0 v) = execVfQBind f (bits v 49 36) (bits v 35 0) s := by
  rw [← vfSched_qBind s f _ (bits v 55 54), ← next_stateOf s (vfSched_next s f _ 3 _ _)]
  simp [vfBar, vfWrite, h]

theorem vfBar_invAsid (s : State) (f : Nat) {v : Nat} (h : bits v 63 56 = 0x11) :
    .next (vfBar s f 0 v) = execVfInvAsid f (bits v 49 36) (bits v 35 0) s := by
  rw [execVfInvAsid, ← next_stateOf s (vfXlat_next s f _ 1 _)]
  simp [vfBar, vfWrite, h]

theorem vfBar_entryWr (s : State) (f : Nat) {v : Nat} (h : bits v 63 56 = 0x20) :
    .next (vfBar s f 0 v) = execEntryWr f (bits v 49 36) (bits v 53 50) (bits v 35 0) s := by
  rw [← next_stateOf s (execEntryWr_next f _ _ _ s)]
  simp [vfBar, vfWrite, h]

/-! ## The obligation -/

/-- Settles O51, offset by offset: the function and the alignment pick `pfWrite` or `vfBar`, the offset its register, and the row of a
taken command meets BUSY clear as the command itself would. -/
theorem registerWrites : Obligations.RegisterWrites := by
  unfold Obligations.RegisterWrites
  intro s f off v hv keep clear contexts op
  refine ⟨exec_registerWrite_ignored s f off v, fun hr => ?_⟩
  have pf {o : Nat} (ha : o % 8 = 0) := exec_registerWrite_pf s hr ha hv
  obtain ⟨hkept, hcleared, hcontext⟩ := fields_aligned
  refine ⟨?kept, ?cleared, ?context, ?hubPkg, ?drlCtl, ?sched, ?hub, ?trunk, ?core, ?reserved, ?vf⟩
  case kept =>
    rintro e he rfl
    rw [pf (hkept e he), pfWrite_keptFields s v e he]
    rfl
  case cleared =>
    rintro e he rfl
    rw [pf (hcleared e he), pfWrite_clearedFields s v e he]
    rfl
  case context =>
    rintro e he rfl
    rw [pf (hcontext e he), pfWrite_contextFields s v e he]
    refine ⟨fun h => ?_, fun h => ?_⟩
    · rw [if_pos ((anyContext_iff s).mpr h)]
    · rw [if_neg (mt (anyContext_iff s).mp h)]
      rfl
  case hubPkg =>
    rw [pf (by decide), pfWrite_hubPkg]
    rfl
  case drlCtl =>
    rw [pf (by decide), pfWrite_drlCtl, exec_drlCtlWrite, execDrlCtlWrite, hr]
    rfl
  case sched =>
    intro n taken
    have htaken : taken = schedBusy s (some (op, bits v 49 48, n)) := rfl
    refine ⟨fun h => ?_, fun h => ?_, fun e he hop hmode hlog => ?_⟩
    · rw [pf (by decide), pfWrite_schedCmd, schedTake_free s _ _ _ hr h, htaken]
    · rw [pf (by decide), pfWrite_schedCmd, schedTake_busy s _ _ _ hr h]
      rfl
    · have hcmd : taken.sched = some (e.1, e.2.1, n) := by rw [← hop, ← hmode]
      have hlog' : rplMode taken = 0 := by rw [htaken, rplMode_schedBusy, hlog]
      exact exec_schedRows_taken taken he hcmd hlog'
  case hub =>
    intro n sts busy taken free
    refine ⟨fun h => ?_, fun h => ?_, fun e he hop => ?_⟩
    · rw [pf (by decide), pfWrite_hubCmd, hubTake_free s _ _ hr h]
      rfl
    · rw [pf (by decide), pfWrite_hubCmd, hubTake_busy s _ _ hr h]
      rfl
    · have hcmd : taken.hub.cmd = some (e.1, n) := by rw [← hop]
      exact exec_hubRows_taken taken he hr hcmd
  case trunk =>
    intro n hn
    rw [pf (by omega), pfWrite_trunkCfg s v hn, next_stateOf s (execTrunkCfgWrite_next n v s), exec_trunkCfgWrite]
  case core =>
    intro n hn
    refine ⟨?_, ?_⟩
    · rw [pf (by omega), pfWrite_pmcCtl s v hn, next_stateOf s (execPmcCtlWrite_next n v s), exec_pmcCtlWrite]
    · rw [pf (by omega), pfWrite_dbgData s v hn, next_stateOf s (execDbgDataWrite_next n v s), exec_dbgDataWrite]
  case reserved =>
    intro ha h
    rw [pf ha, pfWrite_reserved s v h]
  case vf =>
    intro h1 h64
    have vf {o : Nat} (ha : o % 8 = 0) := exec_registerWrite_vf s hr ha hv h1 h64
    refine ⟨fun o => barRead_vf s o hr h1 h64, ?_, fun ha h => ?_, fun h => ?_, fun h => ?_, fun h => ?_⟩
    · rw [vf (by decide), vfBar_arg]
      rfl
    · rw [vf ha, vfBar_beyond s f v h]
    · rw [vf (by decide), vfBar_qBind s f h, exec_vfQBind]
    · rw [vf (by decide), vfBar_invAsid s f h, exec_vfInvAsid]
    · rw [vf (by decide), vfBar_entryWr s f h, exec_entryWr]

end Sys2Proof.Proofs
end

section
/-! PROOFS. Every step answers: no meaning of an operation or event ends in a fault or a refusal (log 2), and what a step
leaves listed in memory lies within HBM (R12, log 95). -/

namespace Sys2Proof.Proofs

open Sys2Proof Sys2Proof.Machine

/-- An answer that is a next state: neither a fault nor a refusal. -/
def Answers (a : Ans) : Prop := ∃ t, a = .next t

theorem answers_next (s : State) : Answers (.next s) := ⟨s, rfl⟩

theorem answers_ite {c : Prop} [Decidable c] {a b : Ans} (ha : Answers a) (hb : Answers b) : Answers (if c then a else b) := by
  split
  · exact ha
  · exact hb

/-- A condition under which an event moves the state, and leaves it alone otherwise. -/
theorem answers_ite_next {c : Prop} [Decidable c] (s t : State) : Answers (if c then .next s else .next t) :=
  answers_ite (answers_next s) (answers_next t)

/-! ## Cores: matrix unit, global accesses, waits, stops -/

theorem execXOpLaunch_answers (c : Nat) (s : State) : Answers (execXOpLaunch c s) := by
  refine answers_ite (answers_next s) ?_
  split <;> exact answers_next _

theorem execDrainRowPlaced_answers (c i : Nat) (s : State) : Answers (execDrainRowPlaced c i s) := by
  unfold execDrainRowPlaced
  extract_lets
  split
  · exact answers_ite_next _ _
  · exact answers_next s

theorem execTranslationWalk_answers (i : Nat) (s : State) : Answers (execTranslationWalk i s) := by
  unfold execTranslationWalk
  split
  · exact answers_next s
  · refine answers_ite (answers_next s) ?_
    extract_lets
    split <;> exact answers_next _

theorem execGLoadReturn_answers (c i : Nat) (s : State) : Answers (execGLoadReturn c i s) := by
  unfold execGLoadReturn
  split
  · exact answers_ite_next _ _
  · exact answers_next s

theorem execPlacementAck_answers (c i : Nat) (s : State) : Answers (execPlacementAck c i s) := by
  unfold execPlacementAck
  extract_lets
  split
  · exact answers_ite_next _ _
  · split
    · exact answers_ite_next _ _
    · exact answers_next s

theorem execAmoScPerform_answers (c i : Nat) (s : State) : Answers (execAmoScPerform c i s) := by
  unfold execAmoScPerform
  split
  · split
    · exact answers_ite_next _ _
    · exact answers_next s
  · exact answers_next s

theorem execCombiningEntryAgeFlush_answers (c i : Nat) (s : State) : Answers (execCombiningEntryAgeFlush c i s) := by
  unfold execCombiningEntryAgeFlush
  split
  · exact answers_ite_next _ _
  · exact answers_next s

theorem execCounterWaitSatisfied_answers (c : Nat) (s : State) : Answers (execCounterWaitSatisfied c s) := by
  unfold execCounterWaitSatisfied
  split <;> exact answers_next _

theorem execCounterWaitTimeout_answers (c : Nat) (s : State) : Answers (execCounterWaitTimeout c s) := by
  unfold execCounterWaitTimeout
  split
  · refine answers_ite (answers_next s) ?_
    split <;> exact answers_next _
  · exact answers_next s

theorem execMonitorPoll_answers (c : Nat) (s : State) : Answers (execMonitorPoll c s) := by
  unfold execMonitorPoll
  split
  · refine answers_ite (answers_next s) ?_
    extract_lets
    split <;> exact answers_next _
  · exact answers_next s

theorem execDeferredTrap_answers (c : Nat) (s : State) : Answers (execDeferredTrap c s) := by
  unfold execDeferredTrap
  extract_lets
  split
  · exact answers_ite_next _ _
  · exact answers_next s

theorem execBundleFetch_answers (c : Nat) (s : State) : Answers (execBundleFetch c s) := answers_ite_next _ _

/-! ## Engines -/

theorem execEngineCommandStart_answers (c i h e : Nat) (s : State) : Answers (execEngineCommandStart c i h e s) := by
  unfold execEngineCommandStart
  split
  · exact answers_next s
  · refine answers_ite (answers_next s) ?_
    extract_lets
    split
    refine answers_ite (answers_next _) (answers_ite (answers_next _) (answers_ite (answers_next _) (answers_ite (answers_next _) ?_)))
    split
    · exact answers_next _
    · extract_lets
      split <;> exact answers_next _

theorem execCollTransfer_answers (c i : Nat) (s : State) : Answers (execCollTransfer c i s) := by
  unfold execCollTransfer
  split
  · exact answers_next s
  · extract_lets
    refine answers_ite (answers_next s) ?_
    extract_lets
    refine answers_ite (answers_next _) ?_
    extract_lets
    split
    · exact answers_next _
    · refine answers_ite (answers_next _) (answers_ite (answers_next _) ?_)
      split <;> exact answers_next _

theorem execDispClaim_answers (c i : Nat) (s : State) : Answers (execDispClaim c i s) := by
  unfold execDispClaim
  split
  · exact answers_next s
  · refine answers_ite (answers_next s) (answers_ite (answers_next _) ?_)
    split
    · exact answers_next _
    · extract_lets
      split
      · exact answers_next _
      · refine answers_ite (answers_next _) (answers_ite (answers_next _) ?_)
        split <;> exact answers_next _

/-- A command with pieces open places one; one with none and nothing to wait for ends or goes on, by its opcode. -/
theorem execEngineCommandComplete_answers (c i k : Nat) (s : State) : Answers (execEngineCommandComplete c i k s) := by
  unfold execEngineCommandComplete
  split
  · exact answers_next s
  · refine answers_ite (answers_next s) ?_
    extract_lets
    refine answers_ite ?pieces (answers_ite (answers_next s) ?opcode)
    case pieces =>
      refine answers_ite (answers_next s) ?_
      split
      · exact answers_next s
      · split
        · exact answers_next s
        · refine answers_ite (answers_next s) (answers_ite (answers_next _) ?_)
          split <;> exact answers_next _
    case opcode =>
      split
      -- `gat` and `sct` go on row by row (R273)
      case h_1 | h_2 =>
        refine answers_ite (answers_next _) ?_
        split <;> exact answers_next _
      -- `rflush`
      case h_4 => exact answers_ite (answers_ite_next _ _) (answers_next _)
      -- `disp` writes its status row
      case h_6 =>
        refine answers_ite (answers_next s) (answers_ite (answers_next _) ?_)
        split <;> exact answers_next _
      -- `task`
      case h_8 => exact answers_ite_next _ _
      all_goals exact answers_next _

theorem execRredRetry_answers (c i : Nat) (s : State) : Answers (execRredRetry c i s) := by
  unfold execRredRetry
  split
  · exact answers_ite_next _ _
  · exact answers_next s

theorem execRredTimeout_answers (c i : Nat) (s : State) : Answers (execRredTimeout c i s) := by
  unfold execRredTimeout
  split
  · exact answers_ite_next _ _
  · exact answers_next s

/-! ## The scheduler and the Derailleur -/

theorem execDoorbellWrite_answers (f q v : Nat) (s : State) : Answers (execDoorbellWrite f q v s) :=
  answers_ite (answers_next s) (answers_ite_next _ _)

theorem execQueueSlotRequest_answers (q : Nat) (s : State) : Answers (execQueueSlotRequest q s) := by
  refine answers_ite (answers_next s) (answers_ite (answers_next _) ?_)
  split <;> exact answers_next _

theorem execRecordRead_answers (q h : Nat) (s : State) : Answers (execRecordRead q h s) := by
  refine answers_ite (answers_next s) (answers_ite (answers_next s) (answers_ite (answers_next _) ?_))
  split <;> exact answers_next _

theorem execDependencesMet_answers (q : Nat) (s : State) : Answers (execDependencesMet q s) := by
  unfold execDependencesMet
  split
  · exact answers_next s
  · refine answers_ite (answers_next s) ?_
    extract_lets
    split
    refine answers_ite (answers_next _) (answers_ite (answers_next _) (answers_ite (answers_next _) (answers_ite ?_ (answers_ite_next _ _))))
    split
    · exact answers_next _
    · exact answers_ite_next _ _

theorem execQuantumExpiry_answers (q : Nat) (s : State) : Answers (execQuantumExpiry q s) := by
  unfold execQuantumExpiry
  split
  · refine answers_ite (answers_next s) ?_
    extract_lets
    split <;> exact answers_next _
  · exact answers_next s

theorem execTileTaskRetire_answers (c : Nat) (s : State) : Answers (execTileTaskRetire c s) := by
  unfold execTileTaskRetire
  extract_lets
  split
  · exact answers_next s
  · split
    · exact answers_next s
    · refine answers_ite (answers_next s) ?_
      split
      refine answers_ite (answers_next _) ?_
      split
      refine answers_ite (answers_next _) (answers_ite (answers_next _) ?_)
      extract_lets
      split <;> exact answers_next _

theorem execContextSave_answers (g : Nat) (s : State) : Answers (execContextSave g s) := by
  unfold execContextSave
  split
  · exact answers_next s
  · exact answers_ite_next _ _

theorem execDerailleurEvaluation_answers (s : State) : Answers (execDerailleurEvaluation s) :=
  answers_ite (answers_next s) (answers_ite_next _ _)

/-! ## Time, telemetry, trace and debug -/

theorem execTodMessage_answers (b : List Nat) (s : State) : Answers (execTodMessage b s) := by
  unfold execTodMessage
  split
  · exact answers_next s
  · exact answers_ite (answers_next s) (answers_ite (answers_next _) (answers_ite (answers_next _) (answers_ite_next _ _)))

theorem execTodDeadline_answers (s : State) : Answers (execTodDeadline s) := by
  unfold execTodDeadline
  split
  · exact answers_next s
  · exact answers_ite_next _ _

theorem execTimeLock_answers (t : Nat) (p : Int) (s : State) : Answers (execTimeLock t p s) := by
  unfold execTimeLock
  split <;> exact answers_next _

theorem execTelemetryRecord_answers (s : State) : Answers (execTelemetryRecord s) :=
  answers_ite (answers_next s) (answers_ite_next _ _)

theorem execTraceSample_answers (c : Nat) (s : State) : Answers (execTraceSample c s) := by
  unfold execTraceSample
  split
  · exact answers_next s
  · exact answers_ite_next _ _

theorem execReplayParting_answers (c : Nat) (s : State) : Answers (execReplayParting c s) := by
  unfold execReplayParting
  split
  · exact answers_next s
  · exact answers_ite_next _ _

theorem execDbgDataRead_answers (n : Nat) (s : State) : Answers (execDbgDataRead n s) := by
  refine answers_ite (answers_next _) ?_
  split <;> exact answers_next _

/-! ## Trunks, routes and packets -/

theorem execReplayReqRepeat_answers (n : Nat) (s : State) : Answers (execReplayReqRepeat n s) := by
  unfold execReplayReqRepeat
  extract_lets
  split
  · exact answers_ite (answers_next s) (answers_ite_next _ _)
  · exact answers_next s

theorem execRouteHoldExpiry_answers (d : Nat) (s : State) : Answers (execRouteHoldExpiry d s) := by
  unfold execRouteHoldExpiry
  split
  · exact answers_ite_next _ _
  · exact answers_next s

/-- Whatever a request does once it is let in. -/
theorem onRequest_answers (s : State) (i op : Nat) (f : State → Packet → State) : Answers (onRequest s i op f) := by
  unfold onRequest
  split
  · exact answers_next s
  · refine answers_ite (answers_next _) ?_
    split <;> exact answers_next _

/-- Whatever a response does, late or in time. -/
theorem onResponse_answers (s : State) (i op : Nat) (late : State → Packet → State) (f : State → Packet → Pend → State) :
    Answers (onResponse s i op late f) := by
  unfold onResponse
  split
  · exact answers_next s
  · extract_lets
    split <;> exact answers_next _

theorem execMgmt_answers (i : Nat) (s : State) : Answers (execMgmt i s) := by
  unfold execMgmt
  split <;> exact answers_next _

theorem execPtmoExpiry_answers (i : Nat) (s : State) : Answers (execPtmoExpiry i s) := by
  unfold execPtmoExpiry
  split
  · exact answers_ite_next _ _
  · exact answers_next s

theorem execPtmoHalfRereq_answers (i : Nat) (s : State) : Answers (execPtmoHalfRereq i s) := by
  unfold execPtmoHalfRereq
  split
  · exact answers_next s
  · refine answers_ite (answers_next s) ?_
    split <;> exact answers_next _

theorem execCombiningUncorrectable_answers (i : Nat) (s : State) : Answers (execCombiningUncorrectable i s) := by
  unfold execCombiningUncorrectable
  split <;> exact answers_next _

/-! ## Security -/

theorem spdmReq_answers (s : State) (f lo hi code next : Nat) (b : List Byte) : Answers (spdmReq s f lo hi code next b) :=
  answers_ite (answers_next s) (answers_ite_next _ _)

theorem tdispReq_answers (s : State) (f : Nat) (sts : List Nat) (code : Nat) (b : List Byte) (k : State → State) :
    Answers (tdispReq s f sts code b k) :=
  answers_ite (answers_next s) (answers_ite_next _ _)

theorem execGetDeviceInterfaceReport_answers (f : Nat) (s : State) : Answers (execGetDeviceInterfaceReport f s) := by
  unfold execGetDeviceInterfaceReport
  extract_lets
  exact tdispReq_answers s f _ _ _ _

theorem keyRequest_answers (s : State) (f : Nat) (b : List Nat) (op len : Nat) : Answers (keyRequest s f b op len) :=
  answers_ite (answers_next s) <| answers_ite (answers_next _) <| answers_ite (answers_next _) <| answers_ite (answers_next _) <|
    answers_ite_next _ _

/-! ## Every operation and event -/

/-- No row of the opcode table is refused, and none faults: what branches has its lemma above, the others are a next state as they stand. -/
theorem exec_answers (i : Instr) (s : State) : Answers (exec i s) := by
  cases i with
  | xOpLaunch c => exact execXOpLaunch_answers c s
  | drainRowPlaced c i => exact execDrainRowPlaced_answers c i s
  | translationWalk i => exact execTranslationWalk_answers i s
  | gLoadReturn c i => exact execGLoadReturn_answers c i s
  | placementAck c i => exact execPlacementAck_answers c i s
  | amoScPerform c i => exact execAmoScPerform_answers c i s
  | combiningEntryAgeFlush c i => exact execCombiningEntryAgeFlush_answers c i s
  | counterWaitSatisfied c => exact execCounterWaitSatisfied_answers c s
  | counterWaitTimeout c => exact execCounterWaitTimeout_answers c s
  | monitorPoll c => exact execMonitorPoll_answers c s
  | deferredTrap c => exact execDeferredTrap_answers c s
  | bundleFetch c => exact execBundleFetch_answers c s
  | preemptForcedStop c => exact answers_ite_next _ _
  | fillerStopTimeout c => exact answers_ite_next _ _
  | pmcRotation c => exact answers_ite_next _ _
  | pmcCtlWrite c v => exact execPmcCtlWrite_next c v s
  | engineCommandStart c i h e => exact execEngineCommandStart_answers c i h e s
  | engineCommandComplete c i k => exact execEngineCommandComplete_answers c i k s
  | collTransfer c i => exact execCollTransfer_answers c i s
  | dispClaim c i => exact execDispClaim_answers c i s
  | rredRetry c i => exact execRredRetry_answers c i s
  | rredTimeout c i => exact execRredTimeout_answers c i s
  | doorbellWrite f q v => exact execDoorbellWrite_answers f q v s
  | queueSlotRequest q => exact execQueueSlotRequest_answers q s
  | recordRead q h => exact execRecordRead_answers q h s
  | dependencesMet q => exact execDependencesMet_answers q s
  | quantumExpiry q => exact execQuantumExpiry_answers q s
  | tileTaskRetire c => exact execTileTaskRetire_answers c s
  | contextSave g => exact execContextSave_answers g s
  | derailleurEvaluation => exact execDerailleurEvaluation_answers s
  | todMessage b => exact execTodMessage_answers b s
  | todByteGap => exact answers_ite_next _ _
  | todDeadline => exact execTodDeadline_answers s
  | timeLock t p => exact execTimeLock_answers t p s
  | timeSourceLoss => exact answers_ite_next _ _
  | telemetryRecord => exact execTelemetryRecord_answers s
  | traceSample c => exact execTraceSample_answers c s
  | replayParting c => exact execReplayParting_answers c s
  | dbgSessionWrite n v => exact answers_ite (answers_next s) (answers_ite_next _ _)
  | dbgDataRead n => exact execDbgDataRead_answers n s
  | dbgDataWrite n v => exact execDbgDataWrite_next n v s
  | registerWrite f off v => exact answers_ite (answers_next s) (answers_ite_next _ _)
  | trunkCfgWrite n v => exact execTrunkCfgWrite_next n v s
  | trainingDone n ok => exact answers_ite (answers_next s) (answers_ite_next _ _)
  | probationExpiry n => exact answers_ite_next _ _
  | replayReqRepeat n => exact execReplayReqRepeat_answers n s
  | routeHoldExpiry d => exact execRouteHoldExpiry_answers d s
  | wr i | rd i | amo i | ctr i | ver i | red i | rereq i => exact onRequest_answers s i _ _
  | ackpl i => rw [exec_ackpl]; exact onResponse_answers s i _ _ _
  | data i => rw [exec_data]; exact onResponse_answers s i _ _ _
  | result i => rw [exec_result]; exact onResponse_answers s i _ _ _
  | partialRelease i => rw [exec_partialRelease]; exact onResponse_answers s i _ _ _
  | nack i => rw [exec_nack]; exact onResponse_answers s i _ _ _
  | mgmt i => exact execMgmt_answers i s
  | ptmoExpiry i => exact execPtmoExpiry_answers i s
  | ptmoHalfRereq i => exact execPtmoHalfRereq_answers i s
  | combiningUncorrectable i => exact execCombiningUncorrectable_answers i s
  | getVersion f b | getCapabilities f b | negotiateAlgorithms f b | getDigests f b | challenge f b | getMeasurements f b
  | keyExchange f b | heartbeat f b | keyUpdate f b | endSession f b => exact spdmReq_answers s f _ _ _ _ _
  | getCertificate f b => exact answers_ite (spdmReq_answers s f _ _ _ _ _) (spdmReq_answers s f _ _ _ _ _)
  | finish f b => exact answers_ite (answers_next _) (spdmReq_answers s f _ _ _ _ _)
  | unsupportedRequest f b => exact answers_ite_next _ _
  | keyProg f b | keyErase f b => exact keyRequest_answers s f b _ _
  | ideKm f b => exact answers_ite (answers_next s) (answers_ite_next _ _)
  | ideIntegrityFailure f => exact answers_ite_next _ _
  | getDeviceInterfaceState f => rw [exec_getDeviceInterfaceState]; exact tdispReq_answers s f _ _ _ _
  | lockInterfaceRequest f => rw [exec_lockInterfaceRequest]; exact tdispReq_answers s f _ _ _ _
  | getDeviceInterfaceReport f => exact execGetDeviceInterfaceReport_answers f s
  | startInterfaceRequest f => rw [exec_startInterfaceRequest]; exact tdispReq_answers s f _ _ _ _
  | stopInterfaceRequest f => rw [exec_stopInterfaceRequest]; exact tdispReq_answers s f _ _ _ _
  | vfQBind f a n | vfQTeardownDrain f a n | vfQTeardownKill f a n | vfQTeardownFreeze f a n | vfQRestore f a n | vfPreempt f a n
  | vfResume f a n => exact vfSched_next s f a _ _ n
  | vfInvAsid f a n | vfInvPage f a n | vfInvWindow f a n | vfInvKey f a n | vfWinMake f a n | vfRegionSet f a n
  | vfRegionClear f a n | vfParkResume f a n | vfParkDrop f a n => exact vfXlat_next s f a _ n
  | entryWr f a sel n => exact execEntryWr_next f a sel n s
  | _ => exact answers_next _

/-! ## A step -/

/-- The slots of a bundle run to the last (R110). -/
theorem runSlots_answers (k : Nat) (s : State) : Answers (runSlots k s) := by
  induction k generalizing s with
  | zero => exact answers_next s
  | succ k ih =>
    unfold runSlots
    split
    · exact answers_next s
    next b _ =>
      split
      · exact answers_next s
      next n i l _ =>
        obtain ⟨t, ht⟩ := exec_answers i { s with issue := some { b with todo := l, slot := n } }
        rw [ht]
        exact ih t

theorem runBundle_answers (s : State) : Answers (runBundle s) := by
  unfold runBundle
  split
  · exact answers_next s
  · obtain ⟨t, ht⟩ := runSlots_answers (slotsLeft s) s
    rw [ht]
    exact answers_next _

/-- What follows a next state ends with what lies beyond HBM cut off (R12). -/
theorem close_next (s : State) : close (.next s) = .next (clip (settle s)) := rfl

theorem run_eq_clip (i : Instr) (s : State) : ∃ u, run i s = .next (clip u) := by
  obtain ⟨t, ht⟩ := exec_answers i s
  obtain ⟨u, hu⟩ := runBundle_answers t
  refine ⟨settle u, ?_⟩
  simp only [run, ht, hu, close_next]

/-- A step answers, and cutting off at the end of HBM is the last thing it does. -/
theorem step_eq_clip (s : State) : ∃ u, step s = .next (clip u) := by
  unfold step
  split
  · exact run_eq_clip _ _
  · unfold defaultStep
    split
    · exact run_eq_clip _ _
    · exact ⟨_, close_next _⟩

/-- HBM is the 2^39 bytes of R12. -/
theorem mem_clip_lt (s : State) : ∀ e ∈ (clip s).mem, e.1 < 2 ^ 39 := by
  intro e he
  have hlt : e.1 < hbmSize := by simpa using (List.mem_filter.mp he).2
  exact hlt

/-- Settles O59: every branch of every meaning is a next state, slots and bundle pass it on, and a step ends by cutting off what lies
beyond HBM. -/
theorem everyStepAnswers : Obligations.EveryStepAnswers := by
  unfold Obligations.EveryStepAnswers
  refine ⟨exec_answers, fun s => ?_⟩
  obtain ⟨u, hu⟩ := step_eq_clip s
  exact ⟨clip u, hu, mem_clip_lt u⟩

end Sys2Proof.Proofs
end

section
/-! PROOFS. A false guard: every slot operation acts under the guard that its encoding names (R41). -/

namespace Sys2Proof.Proofs

open Sys2Proof Sys2Proof.Machine

theorem guarded_id (s : State) (p : Nat) : guarded s p id = s := ite_self s

theorem vBin_eq_guarded (lat : Nat) (f : Nat → Nat → Nat) (p w d a b : Nat) (s : State) :
    vBin lat f p w d a b s = guarded s p fun s => vPut s lat d (packLanes (vW w) (List.zipWith f (vLanes s w a) (vLanes s w b))) := rfl

theorem vUn_eq_guarded (lat : Nat) (f : Nat → Nat) (p w d a : Nat) (s : State) :
    vUn lat f p w d a s = guarded s p fun s => vPut s lat d (packLanes (vW w) ((vLanes s w a).map f)) := rfl

/-- R41, once for all classes: what a slot operation does, it does under the guard that its encoding names. -/
theorem exec_eq_guarded (i : Instr) (hi : i.slotClass.isSome = true) (s : State) :
    ∃ f, exec i s = .next (guarded s (foot i).guard f) := by
  cases i with
  | cNop | tkwait | sNop | lNop | wNop | gNop | xNop | vNop | pNop | uNop | aNop => exact ⟨id, congrArg Host.Outcome.next (guarded_id s _).symm⟩
  | pbr | pbrS | br | brN | call | ret | loop | loopSwp | lbrk | ctwait | ctwaitT | ctwaitG | ctwaitGt | sstep | yield | halt | brk | trap | tret
  | sysrd | syswr | wheel | pwrHint | add | sub | mul | mulh | mulhu | div | divu | rem | remu | and | or | xor | andn | sll | srl | sra | slli
  | srli | srai | min | max | minu | maxu | popc | clz | cmpEq | cmpLt | cmpLtu | cmpLe | cmpLeu | plog | sel | addi | li | lic | kconst | hmk | hsz
  | hrow | mfpr | mtpr | mflc | mfb | mtb | stsetF | stsetZ | stsetCp | mtmm | mfmm | fadd | fsub | fmul | fdiv | fsqrt | fmin | fmax | fcmpEq
  | fcmpLt | fcmpLe | fcmpUn | fcvtD2l | fcvtL2d | fcvtD2s | fcvtS2d | fabs | fneg | fsGcd | fsMk | fsMed | fsNear | fsNum | fsDen | fsClass
  | fsCanon | fsCvtF32 | fsCvtE8 | fsPack32 | fsUnpk32 | vld32 | vld16 | qld | ldsB | ldsH | ldsW | ldsD | ofill | halloc | hfree | vst32 | vst16
  | qst | stsB | stsH | stsW | stsD | oclaim | orel | ldB | ldH | ldW | ldD | stB | stH | stW | stD | ldAcqW | ldAcqD | stRelW | stRelD | ldV | stV
  | amoAdd | amoMax | amoMaxu | amoMin | amoMinu | amoAnd | amoOr | amoXor | amoSwap | amoCas | amoScAdd | amoScSwap | amoScCas | amoScMax | amoScMin
  | fenceCore | fenceQuad | fenceDie | fencePackage | fenceFabric | pf | wprobe | mwld | mtrans | mma | mmaAcc | mmaTri | mmaTriAcc | mmaP | mzero
  | mdrain | mdrainSp | mdrainFab | vaddF | vsubF | vmulF | vfma | vminF | vmaxF | vabs | vneg | vcmpEqF | vcmpLtF | vcmpLeF | vrsumF | vrmax | vrmin
  | vexp2 | vlog2 | vrcp | vrsq | vtanh | vsilu | vand | vor | vxor | vshl | vshr | vsra | vcmpEqI | vcmpLtI
  | vrsumI | vsel | vmov | vbcast | vperm | vrot | vrev | vcvtN | vcvtFi | vcvtIf | vcvtNi | vcvtWi | pkMxint8Mm14 | pkMxint8Mm15
  | pkMxint6Mm14 | pkMxint6Mm15 | pkMxint4Mm14 | pkMxint4Mm15 | pkE4m3Mm14 | pkE4m3Mm15 | pkE5m2Mm14 | pkE5m2Mm15 | pkFp6Mm14 | pkFp6Mm15
  | pkE2m1Mm14 | pkE2m1Mm15 | unpkMxint8Mm14 | unpkMxint8Mm15 | unpkMxint6Mm14 | unpkMxint6Mm15 | unpkMxint4Mm14 | unpkMxint4Mm15 | unpkE4m3Mm14
  | unpkE4m3Mm15 | unpkE5m2Mm14 | unpkE5m2Mm15 | unpkFp6Mm14 | unpkFp6Mm15 | unpkE2m1Mm14 | unpkE2m1Mm15 | cpy | gat | sct | mcastQ | rst | rld
  | rred | rflush | coll | disp | ccpy | task | ctadd | ctraise | ctpoll | frecRd | frecWr => exact ⟨_, rfl⟩
  | vaddI | vsubI | vmulI | vminI | vmaxI => exact ⟨_, congrArg Host.Outcome.next (vBin_eq_guarded ..)⟩
  | vcvtW => exact ⟨_, congrArg Host.Outcome.next (vUn_eq_guarded ..)⟩
  | _ => exact absurd hi Bool.false_ne_true

/-- Settles O1: under a false guard nothing is left of an operation that acts under it. -/
theorem guardOffChangesNothing : Obligations.GuardOffChangesNothing := by
  unfold Obligations.GuardOffChangesNothing
  intro s i hi hoff
  obtain ⟨f, hf⟩ := exec_eq_guarded i hi s
  rw [hf, guarded_false s _ f hoff]

end Sys2Proof.Proofs
end

section
/-! PROOFS. The commit of a bundle: its faults (R447), its end by the loop rule (R38, R39, R167), the call (R166), the trap after it (R176)
and the reissue. -/

namespace Sys2Proof.Proofs

open Sys2Proof Sys2Proof.Machine

/-! ## What the bundle's end reads and leaves -/

/-- A fold whose steps keep a projection keeps it. -/
theorem foldl_keeps {α β γ : Type} (g : β → γ) (f : β → α → β) (h : ∀ s a, g (f s a) = g s) (l : List α) (s : β) :
    g (l.foldl f s) = g s := by
  induction l generalizing s with
  | nil => rfl
  | cons a l ih => exact (ih _).trans (h s a)

/-- A fold whose steps leave where it starts alone stays there. -/
theorem foldl_stays {α β : Type} (f : β → α → β) (s : β) (h : ∀ a, f s a = s) (l : List α) : l.foldl f s = s := by
  induction l with
  | nil => rfl
  | cons a l ih => rw [List.foldl_cons, h, ih]

/-- A change of cores that keeps a part of a core keeps that part of every core. -/
theorem coreAt_modCore_keeps {γ : Type} (g : Core → γ) (s : State) (c n : Nat) (f : Core → Core) (h : g (f (coreAt s c)) = g (coreAt s c)) :
    g (coreAt (modCore s c f) n) = g (coreAt s n) := by
  by_cases hn : n = c
  · subst hn; rw [coreAt_modCore_same, h]
  · rw [coreAt_modCore_other s c n f hn]

/-- A stop asked for at a breakpoint keeps what the request keeps (R414). -/
theorem coreAt_breakAt_keeps {γ : Type} (g : Core → γ) (hg : ∀ k kind t d, g (Core.askedFor k kind t d) = g k) (s : State) (c kind x n : Nat) :
    g (coreAt (breakAt s c kind x) n) = g (coreAt s n) := by
  unfold breakAt askStop
  split
  · rfl
  · split
    · exact foldl_keeps (fun s => g (coreAt s n)) _ (fun s m => coreAt_modCore_keeps g s m n _ (hg _ _ _ _)) _ s
    · rfl

theorem coreAt_breakPasses_keeps {γ : Type} (g : Core → γ) (hg : ∀ k kind t d, g (Core.askedFor k kind t d) = g k) (s : State) (c n : Nat) (b : Core) :
    g (coreAt (breakPasses s c b) n) = g (coreAt s n) := by
  refine foldl_keeps (fun s => g (coreAt s n)) _ (fun s l => ?_) _ s
  dsimp only
  split
  · exact coreAt_breakAt_keeps g hg s c _ _ n
  · rfl

/-- A request to stop changes neither registers nor the place of fetch. -/
theorem askedFor_r (k : Core) (kind t : Nat) (d : Option Nat) : (k.askedFor kind t d).r = k.r := by
  unfold Core.askedFor; split
  · split <;> rfl
  · split <;> rfl

theorem askedFor_pc (k : Core) (kind t : Nat) (d : Option Nat) : (k.askedFor kind t d).q.pc = k.q.pc := by
  unfold Core.askedFor; split
  · split <;> rfl
  · split <;> rfl

theorem breakPasses_r (s : State) (c n : Nat) (b : Core) : (coreAt (breakPasses s c b) n).r = (coreAt s n).r :=
  coreAt_breakPasses_keeps Core.r askedFor_r s c n b

theorem breakPasses_pc (s : State) (c n : Nat) (b : Core) : (coreAt (breakPasses s c b) n).q.pc = (coreAt s n).q.pc :=
  coreAt_breakPasses_keeps (fun k => k.q.pc) askedFor_pc s c n b

/-- Without a debug session no breakpoint is met (R414). -/
theorem breakPasses_of_off {s : State} {c : Nat} (b : Core) (h : dbgOn s c = false) : breakPasses s c b = s := by
  have hb : ∀ kind x, breakAt s c kind x = s := fun kind x => by simp [breakAt, h]
  exact foldl_stays _ s (fun l => by simp only [hb, ite_self]) _

/-! ## Stage predicates -/

/-- p8 to p15 set beside p0 to p7. -/
theorem getLsbD_stages (p : BitVec 16) (w : BitVec 8) (i : Nat) (hi : i < 16) :
    ((p &&& 0xFF#16) ||| (w.setWidth 16 <<< 8)).getLsbD i = if i < 8 then p.getLsbD i else w.getLsbD (i - 8) := by
  have h8 : (0xFF#16).getLsbD i = decide (i < 8) := by
    have : ∀ j : Fin 16, (0xFF#16).getLsbD j = decide (j.val < 8) := by decide
    exact this ⟨i, hi⟩
  rw [BitVec.getLsbD_or, BitVec.getLsbD_and, h8, BitVec.getLsbD_shiftLeft, BitVec.getLsbD_setWidth]
  by_cases h : i < 8
  · simp [h]
  · simp [h, hi]; omega

theorem preg_stageForced (w : BitVec 8) (c : Core) (j : Nat) (hj : j < 8) : preg (stageForced (some w) c) (8 + j) = w.getLsbD j := by
  have h0 : (8 + j == 0) = false := by rw [beq_eq_false_iff_ne]; omega
  simp only [preg, stageForced, h0, Bool.false_or]
  rw [getLsbD_stages _ _ _ (by omega), if_neg (by omega), Nat.add_sub_cancel_left]

/-- A sum of different powers of two has the bits that they name. -/
theorem testBit_sum_two_pow (f : Nat → Bool) (n : Nat) : (((List.range n).filter f).map (2 ^ ·)).sum < 2 ^ n ∧
    ∀ k, k < n → (((List.range n).filter f).map (2 ^ ·)).sum.testBit k = f k := by
  induction n with
  | zero => exact ⟨Nat.one_pos, fun k hk => absurd hk (Nat.not_lt_zero k)⟩
  | succ n ih =>
    obtain ⟨hlt, hbits⟩ := ih
    rw [List.range_succ, List.filter_append, List.map_append, List.sum_append, Nat.pow_succ]
    generalize (((List.range n).filter f).map (2 ^ ·)).sum = x at hlt hbits
    have hnew : ((List.filter f [n]).map (2 ^ ·)).sum = if f n then 2 ^ n else 0 := by
      by_cases hf : f n = true
      · rw [List.filter_cons_of_pos hf, if_pos hf]
        exact Nat.add_zero _
      · rw [List.filter_cons_of_neg hf, if_neg hf]
        rfl
    rw [hnew]
    cases hf : f n
    · refine ⟨by simp only [Bool.false_eq_true, if_false]; omega, fun k hk => ?_⟩
      simp only [Bool.false_eq_true, if_false, Nat.add_zero]
      rcases Nat.lt_succ_iff_lt_or_eq.mp hk with hk | hk
      · exact hbits k hk
      · rw [hk, hf, Nat.testBit_lt_two_pow hlt]
    · refine ⟨by simp only [if_true]; omega, fun k hk => ?_⟩
      simp only [if_true]
      rw [Nat.add_comm]
      rcases Nat.lt_succ_iff_lt_or_eq.mp hk with hk | hk
      · rw [Nat.testBit_two_pow_add_gt hk, hbits k hk]
      · rw [hk, Nat.testBit_two_pow_add_eq, hf, Nat.testBit_lt_two_pow hlt]
        rfl

/-- The stages of pass `j` of a level of bound `B` (R39). -/
theorem getLsbD_passPreds (B j k : Nat) (hk : k < 8) : (passPreds B j).getLsbD k = decide (k ≤ j ∧ j - k < B) := by
  have hbit := (testBit_sum_two_pow (fun k => k ≤ j && j - k < B) 8).2 k hk
  rw [passPreds, upTo, BitVec.getLsbD_ofNat, decide_eq_true hk, Bool.true_and, hbit, Bool.decide_and]

/-- The predicates with which a pass begins (R39). -/
theorem preg_beginPass (c : Core) (l : Nat) (h : c.q.newPass = some l) (i : Nat) (hi : i < 16) : preg (beginPass c) i =
    if i < 8 then preg c i else decide (i - 8 ≤ spGet 0 c.r.lc l ∧ spGet 0 c.r.lc l - (i - 8) < (levelOf c l).bound) := by
  simp only [preg, beginPass, h]
  rw [getLsbD_stages _ _ _ hi]
  by_cases h8 : i < 8
  · simp only [h8, if_true]
  · have h0 : (i == 0) = false := by rw [beq_eq_false_iff_ne]; omega
    simp only [h8, if_false, h0, Bool.false_or]
    exact getLsbD_passPreds _ _ _ (by omega)

/-! ## Commit (R447) -/

theorem getLsbD_foldl_or (l : List Nat) (m : BitVec 12) (n : Nat) (hn : n < 12) :
    (l.foldl (fun m i => m ||| (1#12 <<< i)) m).getLsbD n = (m.getLsbD n || decide (n ∈ l)) := by
  induction l generalizing m with
  | nil => simp
  | cons i l ih =>
    have hbit : (1#12 <<< i).getLsbD n = decide (n = i) := by
      rw [BitVec.getLsbD_shiftLeft, BitVec.getLsbD_one]
      by_cases h : n = i
      · simp [h]; omega
      · simp [h]; omega
    rw [List.foldl_cons, ih, BitVec.getLsbD_or, hbit]
    by_cases h : n = i <;> simp [h]

theorem getLsbD_faultBits (l : List Nat) (n : Nat) (hn : n < 12) : (faultBits l).getLsbD n = decide (n ∈ l) := by
  rw [faultBits, getLsbD_foldl_or l _ n hn]
  simp

/-- A fold that goes over to what has a higher slot ends at one of the highest slot. -/
theorem foldl_highest (step : Option SlotFault → SlotFault → Option SlotFault)
    (h : ∀ g a, step (some g) a = if g.slot < a.slot then some a else some g) (l : List SlotFault) (g : SlotFault) :
    ∃ f, l.foldl step (some g) = some f ∧ f ∈ g :: l ∧ ∀ x ∈ g :: l, x.slot ≤ f.slot := by
  induction l generalizing g with
  | nil => exact ⟨g, rfl, List.mem_singleton.mpr rfl, fun x hx => Nat.le_of_eq (congrArg SlotFault.slot (List.mem_singleton.mp hx))⟩
  | cons a l ih =>
    rw [List.foldl_cons, h]
    by_cases hlt : g.slot < a.slot
    · obtain ⟨f, hf, hmem, hmax⟩ := ih a
      rw [if_pos hlt]
      refine ⟨f, hf, List.mem_cons_of_mem g hmem, fun x hx => ?_⟩
      rcases List.mem_cons.mp hx with hx | hx
      · have := hmax a List.mem_cons_self
        rw [hx]; omega
      · exact hmax x hx
    · obtain ⟨f, hf, hmem, hmax⟩ := ih g
      rw [if_neg hlt]
      refine ⟨f, hf, ?_, fun x hx => ?_⟩
      · rcases List.mem_cons.mp hmem with hx | hx
        · exact List.mem_cons.mpr (.inl hx)
        · exact List.mem_cons_of_mem g (List.mem_cons_of_mem a hx)
      · have hg := hmax g List.mem_cons_self
        rcases List.mem_cons.mp hx with hx | hx
        · rw [hx]; exact hg
        · rcases List.mem_cons.mp hx with hx | hx
          · rw [hx]; omega
          · exact hmax x (List.mem_cons_of_mem g hx)

/-- Of faults there is one of the highest slot, and it is the one reported. -/
theorem topFault_spec (l : List SlotFault) (h : l ≠ []) : ∃ f, topFault l = some f ∧ f ∈ l ∧ ∀ g ∈ l, g.slot ≤ f.slot := by
  cases l with
  | nil => exact absurd rfl h
  | cons a l => exact foldl_highest _ (fun _ _ => rfl) l a

/-- Whether the X operation of a bundle is not launched yet as it commits. -/
def xWaiting (b : Issue) (k : Core) : Bool := k.f.xops.any fun x => !x.launched && x.seq == b.before.q.seq

/-- The completion mask of a bundle some of whose slots have faulted. -/
def faultMask (b : Issue) (all : List SlotFault) (k : Core) : BitVec 12 :=
  ~~~(faultBits (all.map SlotFault.slot ++ heldSlots k.q ++ (if xWaiting b k then [5] else [])))

/-- The core of such a bundle, with what its C slot chose kept for the reissue. -/
def keptForReissue (b : Issue) (mask : BitVec 12) (gone : Bool) (c : Core) : Core :=
  let c := undoHold (voidStages b c)
  { c with q := { c.q with carry := some (b.carry c.q.act gone false), lastPc := b.pc, lastDx := b.dx, lastMask := mask, skipMask := mask, ready := c.q.act + 1 } }

theorem commitFault_eq (s : State) (b : Issue) (all : List SlotFault) (f : SlotFault) :
    let k := coreAt s b.core
    let mask := faultMask b all k
    commitFault s b all f = takeTrap (issueActive (modCore s b.core (keptForReissue b mask (xWaiting b k))) b) b.core
      ⟨f.cause, f.detail, f.slot, f.addr, b.pc, b.dx, mask, 0⟩ false none := rfl

theorem getLsbD_faultMask (b : Issue) (all : List SlotFault) (k : Core) (n : Nat) (hn : n < 12) :
    (faultMask b all k).getLsbD n = true ↔ n ∉ all.map SlotFault.slot ∧ n ∉ heldSlots k.q ∧ ¬(n = 5 ∧ xWaiting b k = true) := by
  rw [faultMask, BitVec.getLsbD_not, getLsbD_faultBits _ n hn]
  cases xWaiting b k <;> simp [hn]

theorem voidStages_q (b : Issue) (c : Core) : (voidStages b c).q = c.q := by unfold voidStages; split <;> rfl
theorem voidStages_r (b : Issue) (c : Core) : (voidStages b c).r = c.r := by unfold voidStages; split <;> rfl

/-- Undoing what a bundle began to hold the line for lets go of the line, and of the rest of the sequencer changes nothing. -/
theorem undoHold_q (c : Core) : (undoHold c).q = c.q.release := by
  unfold undoHold
  dsimp only
  split
  · split <;> rfl
  · split <;> rfl

theorem keptForReissue_q (b : Issue) (mask : BitVec 12) (gone : Bool) (c : Core) : (keptForReissue b mask gone c).q =
    { c.q.release with carry := some (b.carry c.q.act gone false), lastPc := b.pc, lastDx := b.dx, lastMask := mask, skipMask := mask,
                       ready := c.q.act + 1 } := by
  simp only [keptForReissue, undoHold_q, voidStages_q]
  rfl

theorem commitBundle_eq (s : State) (b : Issue) (h : s.issue = some b) :
    let l := launchNow { s with issue := none } b
    commitBundle s = ((topFault (b.faults ++ l.2)).map (commitFault l.1 b (b.faults ++ l.2))).getD (commitOk l.1 b) := by
  simp only [commitBundle, h]
  cases topFault _ <;> rfl

theorem commitBundle_faulted (s : State) (b : Issue) (h : s.issue = some b) :
    let l := launchNow { s with issue := none } b
    let all := b.faults ++ l.2
    let k := coreAt l.1 b.core
    let gone := k.f.xops.any fun x => !x.launched && x.seq == b.before.q.seq
    all ≠ [] → ∃ f v mask, f ∈ all ∧ (∀ g ∈ all, g.slot ≤ f.slot) ∧
      commitBundle s = takeTrap (issueActive v b) b.core ⟨f.cause, f.detail, f.slot, f.addr, b.pc, b.dx, mask, 0⟩ false none ∧
      (∀ n, n < 12 → (mask.getLsbD n = true ↔ n ∉ all.map SlotFault.slot ∧ n ∉ heldSlots k.q ∧ ¬(n = 5 ∧ gone = true))) ∧
      OnlyCore l.1 v b.core ∧ (coreAt v b.core).q.skipMask = mask ∧ (coreAt v b.core).q.hold = .none ∧ (coreAt v b.core).q.holdG = .none ∧
      (coreAt v b.core).q.holdO = .none ∧ (coreAt v b.core).q.carry = some (b.carry k.q.act gone false) := by
  intro l all k gone hne
  obtain ⟨f, htop, hf, hmax⟩ := topFault_spec all hne
  have hq : (coreAt (modCore l.1 b.core (keptForReissue b (faultMask b all k) gone)) b.core).q = _ :=
    (congrArg Core.q (coreAt_modCore_same ..)).trans (keptForReissue_q ..)
  refine ⟨f, _, faultMask b all k, hf, hmax, ?_, fun n hn => getLsbD_faultMask b all k n hn,
    onlyCore_modCore l.1 b.core (keptForReissue b (faultMask b all k) gone), ?_⟩
  · rw [commitBundle_eq s b h, htop]
    exact commitFault_eq l.1 b all f
  · rw [hq]
    exact ⟨rfl, rfl, rfl, rfl, rfl⟩

/-- The state in which the issue cycle of a bundle without a fault ends. -/
def commitKept (s : State) (b : Issue) : State :=
  modCore (breakPasses (modCore s b.core fun c => voidStages b (stageForced b.stageSet c)) b.core b.before) b.core fun c =>
    { c with q := { c.q with carry := some (b.carry c.q.act false true), lastPc := b.pc, lastDx := b.dx, lastMask := 0xFFF } }

theorem commitOk_eq (s : State) (b : Issue) : commitOk s b = settleCommit (issueActive (commitKept s b) b) b.core := rfl

theorem commitKept_carry (s : State) (b : Issue) :
    (coreAt (commitKept s b) b.core).q.carry = some (b.carry (coreAt (commitKept s b) b.core).q.act false true) := by
  rw [commitKept, coreAt_modCore_same]

theorem commitKept_r (s : State) (b : Issue) : (coreAt (commitKept s b) b.core).r = (stageForced b.stageSet (coreAt s b.core)).r := by
  rw [commitKept, coreAt_modCore_same]
  exact (breakPasses_r ..).trans (by rw [coreAt_modCore_same, voidStages_r])

theorem commitBundle_ok (s : State) (b : Issue) (h : s.issue = some b) (hno : b.faults ++ (launchNow { s with issue := none } b).2 = []) :
    ∃ v, commitBundle s = settleCommit (issueActive v b) b.core ∧
      (coreAt v b.core).q.carry = some (b.carry (coreAt v b.core).q.act false true) ∧
      ∀ w, b.stageSet = some w → ∀ j, j < 8 → preg (coreAt v b.core) (8 + j) = w.getLsbD j := by
  refine ⟨commitKept (launchNow { s with issue := none } b).1 b, ?_, commitKept_carry _ b, fun w hw j hj => ?_⟩
  · rw [commitBundle_eq s b h, hno]
    exact commitOk_eq _ b
  · rw [preg, commitKept_r, hw]
    exact preg_stageForced w _ j hj

theorem settleCommit_cases (s : State) (n : Nat) :
    ((coreAt s n).q.free = true → ∀ k, (coreAt s n).q.carry = some k → k.held = true → settleCommit s n = finishCommit s n) ∧
    ((coreAt s n).q.free = false → settleCommit s n = s) := by
  unfold settleCommit
  refine ⟨fun hf k hk hh => ?_, fun hf => ?_⟩
  · simp [hf, hk, hh]
  · simp [hf]

/-! ## The end of a bundle (R110, R163, R166, R167) -/

/-- What the loop rule leaves of a bundle's end: the state, and where a further pass begins (R38, R167). -/
def looped (k : Carry) (s : State) (n : Nat) : State × Option Nat :=
  if k.noLoop then (modCore s n (stageForced k.stageSet), none) else bodyEnd 9 (modCore s n (stageForced k.stageSet)) n k.pc

/-- Where fetch goes from a bundle's end, and with how many bubbles (R163, R312). -/
def nextFetch (k : Carry) (pass : Option Nat) (c : Core) : Nat × Nat :=
  match k.redirect with
  | some (t, b) => (t, literalBubble c t b)
  | none => (pass.getD (k.pc + k.words), if pass.isSome then literalBubble c (pass.getD (k.pc + k.words)) 0 else 0)

/-- Fetch set on from a bundle's end (R300). -/
def fetchOn (k : Carry) (pass : Option Nat) (c : Core) : Core :=
  { c with q := { c.q with pc := (nextFetch k pass c).1, ready := k.at_ + max (k.stall + 1) (1 + (nextFetch k pass c).2), landed := k.ib,
                           skipMask := 0, carry := none } }

/-- The call of a bundle's end, where it has one (R166). -/
def called (k : Carry) (pass : Option Nat) (c : Core) : Core := if k.calls.isSome then pushReturn c (pass.getD (k.pc + k.words)) else c

/-- The end of a bundle but for the trap that may follow it. -/
def endBundle (k : Carry) (s : State) (n : Nat) : State :=
  breakPasses (modCore (looped k s n).1 n fun c => fetchOn k (looped k s n).2 (called k (looped k s n).2 c)) n (coreAt s n)

/-- A change made where a condition holds, and another after it, are one change. -/
theorem modCore_ite_modCore (p : Prop) [Decidable p] (s : State) (n : Nat) (f g : Core → Core) :
    modCore (if p then modCore s n f else s) n g = modCore s n fun c => g (if p then f c else c) := by
  split
  · exact modCore_modCore s n f g
  · rfl

theorem endBundle_eq (k : Carry) (s : State) (n : Nat) :
    endBundle k s n = breakPasses (modCore (if k.calls.isSome then modCore (looped k s n).1 n fun c =>
      pushReturn c ((looped k s n).2.getD (k.pc + k.words)) else (looped k s n).1) n (fetchOn k (looped k s n).2)) n (coreAt s n) := by
  rw [modCore_ite_modCore]
  rfl

theorem endBundle_pc (k : Carry) (s : State) (n : Nat) : (coreAt (endBundle k s n) n).q.pc = (nextFetch k (looped k s n).2
    (coreAt (if k.calls.isSome then modCore (looped k s n).1 n fun c => pushReturn c ((looped k s n).2.getD (k.pc + k.words)) else
      (looped k s n).1) n)).1 := by
  rw [endBundle_eq, breakPasses_pc, coreAt_modCore_same]
  rfl

/-- The trap that a trap operation takes once its bundle has ended: at the next bundle (R176). -/
def trapAfterEnd (u : State) (n d : Nat) : State :=
  takeTrap u n ⟨0x1A, d, 11, 0, (coreAt u n).q.pc, dxAt (coreAt u n) (coreAt u n).q.pc, 0, 0⟩ false none

theorem finishCommit_eq (s : State) (n : Nat) (k : Carry) (h : (coreAt s n).q.carry = some k) :
    finishCommit s n = k.trapAfter.elim (endBundle k s n) (trapAfterEnd (endBundle k s n) n) := by
  have hend := endBundle_eq k s n
  have hpc := endBundle_pc k s n
  unfold finishCommit
  simp only [h, ← looped.eq_1]
  generalize endBundle k s n = e at *
  generalize looped k s n = l at *
  generalize (if k.calls.isSome then modCore l.1 n fun c => pushReturn c (l.2.getD (k.pc + k.words)) else l.1) = t at *
  cases k.trapAfter with
  | none => exact hend.symm
  | some d =>
    simp only [Option.elim, trapAfterEnd, hpc]
    subst hend
    rfl

/-! ## The loop rule at a body end (R38, R167) -/

/-- The core of level `l` at its body end, with a further pass to come. -/
def nextPass (l : Nat) (c : Core) : Core :=
  { c with r := { c.r with lc := spSet c.r.lc l (spGet 0 c.r.lc l + 1) }
           q := { c.q with newPass := if (levelOf c l).stages > 1 then some l else c.q.newPass } }

/-- The core of level `l`, which has a number of stages, at its body end after its last pass. -/
def levelLeft (stages l : Nat) (c : Core) : Core :=
  { c with r := { c.r with loops := c.r.loops.filter (· != l), p := if stages > 1 then c.r.p &&& 0xFF#16 else c.r.p }
           q := { c.q with pfinal := if stages > 1 then c.q.pfinal.filter (fun kv => kv.1 < 8) else c.q.pfinal } }

theorem bodyEnd_of_none (i : Nat) {s : State} {n pc : Nat} (h : ∀ l ∈ (coreAt s n).r.loops, (levelOf (coreAt s n) l).bend ≠ pc) :
    bodyEnd (i + 1) s n pc = (s, none) := by
  have hf : (coreAt s n).r.loops.find? (fun l => (levelOf (coreAt s n) l).bend == pc) = none :=
    List.find?_eq_none.mpr fun l hl => by simpa using h l hl
  rw [bodyEnd, hf]

theorem bodyEnd_of_pass (i : Nat) {s : State} {n pc l : Nat}
    (h : (coreAt s n).r.loops.find? (fun l => (levelOf (coreAt s n) l).bend == pc) = some l)
    (hj : spGet 0 (coreAt s n).r.lc l + 1 < (levelOf (coreAt s n) l).bound + (levelOf (coreAt s n) l).stages - 1) :
    bodyEnd (i + 1) s n pc = (modCore s n (nextPass l), some (levelOf (coreAt s n) l).bstart) := by
  rw [bodyEnd, h]
  exact if_pos hj

theorem bodyEnd_of_last (i : Nat) {s : State} {n pc l : Nat}
    (h : (coreAt s n).r.loops.find? (fun l => (levelOf (coreAt s n) l).bend == pc) = some l)
    (hj : (levelOf (coreAt s n) l).bound + (levelOf (coreAt s n) l).stages - 1 ≤ spGet 0 (coreAt s n).r.lc l + 1) :
    bodyEnd (i + 1) s n pc = bodyEnd i (modCore (loopExit s n l pc) n (levelLeft (levelOf (coreAt s n) l).stages l)) n pc := by
  rw [bodyEnd, h]
  exact if_neg (Nat.not_lt.mpr hj)

/-- With tracing off a level's end is recorded nowhere (R420). -/
theorem loopExit_of_off {s : State} {n : Nat} (l pc : Nat) (h : (dbgRd s n 0x48).getLsbD 63 = false) : loopExit s n l pc = s := by
  have hb : bit (dbgRd s n 0x48).toNat 63 = false := h
  simp [loopExit, hb]

/-! ## The end of a bundle outside debug and trace -/

theorem dbgOn_modCore_keepBind (s : State) (n : Nat) (f : Core → Core) (h : (f (coreAt s n)).bind = (coreAt s n).bind) :
    dbgOn (modCore s n f) n = dbgOn s n := by
  simp only [dbgOn, coreAt_modCore_same, h]
  rfl

/-- What a bundle's end leaves alone of a core, whatever its loops and calls. -/
def SameAside (c c' : Core) : Prop := c'.f = c.f ∧ c'.ct = c.ct ∧ c'.prog = c.prog ∧ c'.bind = c.bind

/-- Writes into a handle change memories only. -/
theorem spadWrite_eq (e : HEnt) (l : List Byte) : ∀ (c : Core) (o : Nat), spadWrite c e o l = { c with m := (spadWrite c e o l).m } := by
  induction l with
  | nil => exact fun _ _ => rfl
  | cons b l ih =>
    intro c o
    rw [spadWrite, ih]
    rfl

theorem pushReturn_shallow (c : Core) (a : Nat) (h : c.r.depth < 16) :
    pushReturn c a = { c with r := { c.r with rstack := (BitVec.ofNat 24 a :: c.r.rstack).take 16, depth := c.r.depth + 1 } } := by
  simp only [pushReturn, h, if_true]

/-- The seventeenth return address and those after it spill the oldest one held to h255 (R166). -/
theorem pushReturn_deep (c : Core) (a : Nat) (h : 16 ≤ c.r.depth) :
    pushReturn c a = { c with r := { c.r with rstack := (BitVec.ofNat 24 a :: c.r.rstack).take 16, depth := c.r.depth + 1 }
                              m := (spadWrite c (handle c 255) (4 * (c.r.depth - 16)) (toBytes ((c.r.rstack.getLast?.map BitVec.toNat).getD 0) 4)).m } := by
  simp only [pushReturn, Nat.not_lt.mpr h, if_false]
  rw [spadWrite_eq]

theorem pushReturn_sameAside (c : Core) (a : Nat) : SameAside c (pushReturn c a) := by
  rcases Nat.lt_or_ge c.r.depth 16 with h | h
  · rw [pushReturn_shallow c a h]; exact ⟨rfl, rfl, rfl, rfl⟩
  · rw [pushReturn_deep c a h]; exact ⟨rfl, rfl, rfl, rfl⟩

theorem pushReturn_r (c : Core) (a : Nat) :
    (pushReturn c a).r = { c.r with rstack := (BitVec.ofNat 24 a :: c.r.rstack).take 16, depth := c.r.depth + 1 } := by
  rcases Nat.lt_or_ge c.r.depth 16 with h | h
  · rw [pushReturn_shallow c a h]
  · rw [pushReturn_deep c a h]

theorem called_sameAside (k : Carry) (pass : Option Nat) (c : Core) : SameAside c (called k pass c) := by
  unfold called
  split
  · exact pushReturn_sameAside c _
  · exact ⟨rfl, rfl, rfl, rfl⟩

theorem SameAside.trans {a b c : Core} (h : SameAside a b) (h' : SameAside b c) : SameAside a c := by
  obtain ⟨h1, h2, h3, h4⟩ := h
  obtain ⟨g1, g2, g3, g4⟩ := h'
  exact ⟨g1.trans h1, g2.trans h2, g3.trans h3, g4.trans h4⟩

/-- Where fetch goes depends on the program only. -/
theorem nextFetch_congr (k : Carry) (pass : Option Nat) {c c' : Core} (h : c'.prog = c.prog) : nextFetch k pass c' = nextFetch k pass c := by
  simp only [nextFetch, literalBubble, h]

/-- The bundle has ended, fetch goes to `pc` after that many bubbles, and what stands aside of the end is as it was. -/
def EndsAt (s t : State) (n : Nat) (k : Carry) (pc bubble : Nat) : Prop :=
  let c := coreAt s n
  let u := coreAt t n
  OnlyCore s t n ∧ u.q.pc = pc ∧ u.q.ready = k.at_ + max (k.stall + 1) (1 + bubble) ∧ u.q.carry = none ∧
    u.q.skipMask = 0 ∧ u.q.landed = k.ib ∧ u.f = c.f ∧ u.ct = c.ct

section
variable {k : Carry} {s : State} {n : Nat} {f : Core → Core} {pass : Option Nat}

/-- Outside debug the end of a bundle changes its core only: the loop rule, the call, fetch. -/
theorem endBundle_of_looped (hd : dbgOn s n = false) (hl : looped k s n = (modCore s n f, pass)) (hf : SameAside (coreAt s n) (f (coreAt s n))) :
    endBundle k s n = modCore s n fun c => fetchOn k pass (called k pass (f c)) := by
  obtain ⟨-, -, -, hb⟩ := hf.trans (called_sameAside k pass _)
  rw [endBundle, hl, modCore_modCore, breakPasses_of_off]
  rw [dbgOn_modCore_keepBind, hd]
  exact hb

theorem coreAt_endBundle (hd : dbgOn s n = false) (hl : looped k s n = (modCore s n f, pass)) (hf : SameAside (coreAt s n) (f (coreAt s n))) :
    coreAt (endBundle k s n) n = fetchOn k pass (called k pass (f (coreAt s n))) := by
  rw [endBundle_of_looped hd hl hf, coreAt_modCore_same]

theorem endsAt_endBundle (hd : dbgOn s n = false) (hl : looped k s n = (modCore s n f, pass)) (hf : SameAside (coreAt s n) (f (coreAt s n))) :
    EndsAt s (endBundle k s n) n k (nextFetch k pass (coreAt s n)).1 (nextFetch k pass (coreAt s n)).2 := by
  obtain ⟨h1, h2, h3, -⟩ := hf.trans (called_sameAside k pass _)
  rw [EndsAt, coreAt_endBundle hd hl hf, ← nextFetch_congr k pass h3]
  exact ⟨endBundle_of_looped hd hl hf ▸ onlyCore_modCore s n _, rfl, rfl, rfl, rfl, rfl, h1, h2⟩

end

theorem looped_of_none {k : Carry} {s : State} {n : Nat} (hst : k.stageSet = none)
    (h : k.noLoop = true ∨ ∀ l ∈ (coreAt s n).r.loops, (levelOf (coreAt s n) l).bend ≠ k.pc) : looped k s n = (modCore s n id, none) := by
  have hs : stageForced k.stageSet = id := by rw [hst]; rfl
  rw [looped, hs]
  split
  · rfl
  next hno =>
    refine bodyEnd_of_none 8 ?_
    rw [coreAt_modCore_same]
    exact h.resolve_left hno

theorem looped_of_pass {k : Carry} {s : State} {n l : Nat} (hst : k.stageSet = none) (hno : k.noLoop = false)
    (h : (coreAt s n).r.loops.find? (fun l => (levelOf (coreAt s n) l).bend == k.pc) = some l)
    (hj : spGet 0 (coreAt s n).r.lc l + 1 < (levelOf (coreAt s n) l).bound + (levelOf (coreAt s n) l).stages - 1) :
    looped k s n = (modCore s n (nextPass l), some (levelOf (coreAt s n) l).bstart) := by
  have hs : stageForced k.stageSet = id := by rw [hst]; rfl
  have hc : coreAt (modCore s n id) n = coreAt s n := coreAt_modCore_same s n id
  rw [looped, hs, hno, if_neg Bool.false_ne_true, bodyEnd_of_pass 8 (by rw [hc]; exact h) (by rw [hc]; exact hj), modCore_modCore, hc]
  rfl

theorem looped_of_last {k : Carry} {s : State} {n l : Nat} (hst : k.stageSet = none) (hno : k.noLoop = false)
    (htr : (dbgRd s n 0x48).getLsbD 63 = false)
    (h : (coreAt s n).r.loops.find? (fun l => (levelOf (coreAt s n) l).bend == k.pc) = some l)
    (hj : (levelOf (coreAt s n) l).bound + (levelOf (coreAt s n) l).stages - 1 ≤ spGet 0 (coreAt s n).r.lc l + 1)
    (hone : ∀ m ∈ (coreAt s n).r.loops, m ≠ l → (levelOf (coreAt s n) m).bend ≠ k.pc) :
    looped k s n = (modCore s n (levelLeft (levelOf (coreAt s n) l).stages l), none) := by
  have hs : stageForced k.stageSet = id := by rw [hst]; rfl
  have hc : coreAt (modCore s n id) n = coreAt s n := coreAt_modCore_same s n id
  rw [looped, hs, hno, if_neg Bool.false_ne_true,
    bodyEnd_of_last 8 (s := modCore s n id) (by rw [hc]; exact h) (by rw [hc]; exact hj), hc, loopExit_of_off _ _ (by exact htr), modCore_modCore]
  refine bodyEnd_of_none 7 ?_
  rw [coreAt_modCore_same]
  intro m hm
  obtain ⟨hm, hne⟩ := List.mem_filter.mp hm
  exact hone m hm (by simpa using hne)

/-- Fetch without a body end in play: at the redirect, or behind the bundle (R163). -/
theorem endBundle_noPass {k : Carry} {s : State} {n : Nat} (hst : k.stageSet = none) (hd : dbgOn s n = false)
    (h : k.noLoop = true ∨ ∀ l ∈ (coreAt s n).r.loops, (levelOf (coreAt s n) l).bend ≠ k.pc) :
    EndsAt s (endBundle k s n) n k (nextFetch k none (coreAt s n)).1 (nextFetch k none (coreAt s n)).2 ∧
    coreAt (endBundle k s n) n = fetchOn k none (called k none (coreAt s n)) :=
  have hl := looped_of_none hst h
  have hf : SameAside (coreAt s n) (id (coreAt s n)) := ⟨rfl, rfl, rfl, rfl⟩
  ⟨endsAt_endBundle hd hl hf, coreAt_endBundle hd hl hf⟩

/-- A call at such an end (R166). -/
theorem called_some {k : Carry} {a : Nat} (h : k.calls = some a) (c : Core) : called k none c = pushReturn c (k.pc + k.words) := by
  simp [called, h]

theorem called_none {k : Carry} (h : k.calls = none) (pass : Option Nat) (c : Core) : called k pass c = c := by
  simp [called, h]

/-- The end of a bundle at no body end: fetch, and the call (R163, R166). -/
theorem finishCommit_noBodyEnd {s : State} {n : Nat} {k : Carry} (hk : (coreAt s n).q.carry = some k) (hta : k.trapAfter = none)
    (hst : k.stageSet = none) (hd : dbgOn s n = false)
    (h : k.noLoop = true ∨ ∀ l ∈ (coreAt s n).r.loops, (levelOf (coreAt s n) l).bend ≠ k.pc) :
    let c := coreAt s n
    let t := finishCommit s n
    let u := coreAt t n
    let nx := k.pc + k.words
    (k.redirect = none → EndsAt s t n k nx 0) ∧
    (∀ a m, k.redirect = some (a, m) → EndsAt s t n k a (literalBubble c a m)) ∧
    (k.calls = none → u.r = c.r ∧ u.m = c.m) ∧
    (k.calls ≠ none → u.r = { c.r with rstack := (BitVec.ofNat 24 nx :: c.r.rstack).take 16, depth := c.r.depth + 1 } ∧
      (c.r.depth < 16 → u.m = c.m) ∧
      (∀ e, 16 ≤ c.r.depth → c.r.rstack.getLast? = some e →
        u.m = (spadWrite c (handle c 255) (4 * (c.r.depth - 16)) (toBytes e.toNat 4)).m)) := by
  intro c t u nx
  have ht : t = endBundle k s n := by simp only [t, finishCommit_eq s n k hk, hta, Option.elim]
  obtain ⟨hends, hu⟩ := endBundle_noPass hst hd h
  rw [← ht] at hends hu
  refine ⟨fun hr => ?_, fun a m hr => ?_, fun hc => ?_, fun hc => ?_⟩
  · simpa [nextFetch, hr] using hends
  · simpa [nextFetch, hr] using hends
  · rw [called_none hc] at hu
    exact ⟨(congrArg Core.r hu :), (congrArg Core.m hu :)⟩
  · obtain ⟨a, ha⟩ := Option.ne_none_iff_exists'.mp hc
    rw [called_some ha] at hu
    refine ⟨(congrArg Core.r hu).trans (pushReturn_r c nx), fun hlt => ?_, fun e hge he => ?_⟩
    · exact (congrArg Core.m hu).trans (by rw [fetchOn, pushReturn_shallow _ _ hlt])
    · exact (congrArg Core.m hu).trans (by rw [fetchOn, pushReturn_deep _ _ hge]; simp only [he, c]; rfl)

/-- The end of a bundle at the body end of a level: a further pass, or the level's end (R38, R39, R167). -/
theorem finishCommit_bodyEnd {s : State} {n l : Nat} {k : Carry} (hk : (coreAt s n).q.carry = some k) (hta : k.trapAfter = none)
    (hst : k.stageSet = none) (hd : dbgOn s n = false) (htr : (dbgRd s n 0x48).getLsbD 63 = false)
    (hno : k.noLoop = false) (hre : k.redirect = none) (hca : k.calls = none)
    (hl : ((coreAt s n).r.loops.find? fun l => (levelOf (coreAt s n) l).bend == k.pc) = some l) :
    let c := coreAt s n
    let t := finishCommit s n
    let u := coreAt t n
    let lv := levelOf c l
    let j := spGet 0 c.r.lc l
    (j + 1 < lv.bound + lv.stages - 1 → EndsAt s t n k lv.bstart (literalBubble c lv.bstart 0) ∧ u.r = { c.r with lc := spSet c.r.lc l (j + 1) } ∧
      u.q.newPass = if 1 < lv.stages then some l else c.q.newPass) ∧
    (lv.bound + lv.stages - 1 ≤ j + 1 → (∀ m ∈ c.r.loops, m ≠ l → (levelOf c m).bend ≠ k.pc) → EndsAt s t n k (k.pc + k.words) 0 ∧
      u.r = { c.r with loops := c.r.loops.filter (· != l), p := if 1 < lv.stages then c.r.p &&& 0x00FF#16 else c.r.p }) := by
  intro c t u lv j
  have ht : t = endBundle k s n := by simp only [t, finishCommit_eq s n k hk, hta, Option.elim]
  refine ⟨fun hj => ?_, fun hj hone => ?_⟩
  · have hloop := looped_of_pass hst hno hl hj
    have hf : SameAside c (nextPass l c) := ⟨rfl, rfl, rfl, rfl⟩
    have hends := endsAt_endBundle hd hloop hf
    have hu := coreAt_endBundle hd hloop hf
    rw [← ht] at hends hu
    rw [called_none hca] at hu
    exact ⟨by simpa [nextFetch, hre] using hends, congrArg Core.r hu, congrArg (fun c => c.q.newPass) hu⟩
  · have hloop := looped_of_last hst hno htr hl hj hone
    have hf : SameAside c (levelLeft lv.stages l c) := ⟨rfl, rfl, rfl, rfl⟩
    have hends := endsAt_endBundle hd hloop hf
    have hu := coreAt_endBundle hd hloop hf
    rw [← ht] at hends hu
    rw [called_none hca] at hu
    exact ⟨by simpa [nextFetch, hre] using hends, congrArg Core.r hu⟩

/-! ## The trap that a trap operation takes (R176) -/

/-- A core's bundle end with another choice of its C slot in store. -/
def setCarry (x : Option Carry) (c : Core) : Core := { c with q := { c.q with carry := x } }

theorem ite_modCore (p : Prop) [Decidable p] (s t : State) (n : Nat) (f : Core → Core) :
    (if p then modCore s n f else modCore t n f) = modCore (if p then s else t) n f := by
  split
  · rfl
  · rfl

theorem dbgWr_modCore (s : State) (m n o : Nat) (f : Core → Core) (v : Word) : dbgWr (modCore s m f) n o v = modCore (dbgWr s n o v) m f := rfl

theorem hbmWrite_modCore (s : State) (m a : Nat) (f : Core → Core) (b : List Byte) : hbmWrite (modCore s m f) a b = modCore (hbmWrite s a b) m f := rfl

/-- A record written into the trace looks at no core (R418). -/
theorem traceWrite_modCore (s : State) (m n : Nat) (f : Core → Core) (r : List Byte) :
    traceWrite (modCore s m f) n r = modCore (traceWrite s n r) m f := by
  have hrd : ∀ o, dbgRd (modCore s m f) n o = dbgRd s n o := fun _ => rfl
  simp only [traceWrite, hrd, hbmWrite_modCore, dbgWr_modCore, ite_modCore]

theorem loopExit_setCarry (s : State) (n l pc : Nat) (x : Option Carry) :
    loopExit (modCore s n (setCarry x)) n l pc = modCore (loopExit s n l pc) n (setCarry x) := by
  have hrd : ∀ o, dbgRd (modCore s n (setCarry x)) n o = dbgRd s n o := fun _ => rfl
  have hhead : traceHead (modCore s n (setCarry x)) n = traceHead s n := by
    funext kind units loop iter stage caddr
    rw [traceHead, coreAt_modCore_same]
    rfl
  unfold loopExit
  simp only [hrd, hhead, coreAt_modCore_same]
  split
  · rfl
  · rw [traceWrite_modCore, modCore_modCore, modCore_modCore]
    rfl

theorem bodyEnd_setCarry (x : Option Carry) (i : Nat) : ∀ (s : State) (n pc : Nat),
    bodyEnd i (modCore s n (setCarry x)) n pc = (modCore (bodyEnd i s n pc).1 n (setCarry x), (bodyEnd i s n pc).2) := by
  induction i with
  | zero => exact fun _ _ _ => rfl
  | succ i ih =>
    intro s n pc
    let c := coreAt s n
    have hc : coreAt (modCore s n (setCarry x)) n = setCarry x c := coreAt_modCore_same ..
    cases hf : c.r.loops.find? fun l => (levelOf c l).bend == pc with
    | none =>
      have hnone : ∀ l ∈ c.r.loops, (levelOf c l).bend ≠ pc := fun l hl => by simpa using List.find?_eq_none.mp hf l hl
      rw [bodyEnd_of_none i hnone, bodyEnd_of_none i (by rw [hc]; exact hnone)]
    | some l =>
      rcases Nat.lt_or_ge (spGet 0 c.r.lc l + 1) ((levelOf c l).bound + (levelOf c l).stages - 1) with hj | hj
      · rw [bodyEnd_of_pass i hf hj, bodyEnd_of_pass i (by rw [hc]; exact hf) (by rw [hc]; exact hj), modCore_modCore, modCore_modCore, hc]
        rfl
      · rw [bodyEnd_of_last i hf hj, bodyEnd_of_last i (by rw [hc]; exact hf) (by rw [hc]; exact hj), loopExit_setCarry, hc, ← ih,
          modCore_modCore, modCore_modCore]
        rfl

theorem looped_setCarry (k : Carry) (s : State) (n : Nat) (x : Option Carry) :
    looped k (modCore s n (setCarry x)) n = (modCore (looped k s n).1 n (setCarry x), (looped k s n).2) := by
  have hst : modCore (modCore s n (setCarry x)) n (stageForced k.stageSet) = modCore (modCore s n (stageForced k.stageSet)) n (setCarry x) := by
    rw [modCore_modCore, modCore_modCore]
    cases k.stageSet <;> rfl
  rw [looped, looped, hst, bodyEnd_setCarry]
  split <;> rfl

theorem spadWrite_setCarry (x : Option Carry) (e : HEnt) (l : List Byte) :
    ∀ (c : Core) (o : Nat), spadWrite (setCarry x c) e o l = setCarry x (spadWrite c e o l) := by
  induction l with
  | nil => exact fun _ _ => rfl
  | cons b l ih => exact fun c o => ih (spadPut c e o b) (o + 1)

theorem called_setCarry (k : Carry) (pass : Option Nat) (x : Option Carry) (c : Core) :
    called k pass (setCarry x c) = setCarry x (called k pass c) := by
  unfold called
  split
  · rcases Nat.lt_or_ge c.r.depth 16 with h | h
    · rw [pushReturn_shallow c _ h, pushReturn_shallow (setCarry x c) _ h]
      rfl
    · rw [pushReturn_deep c _ h, pushReturn_deep (setCarry x c) _ h, spadWrite_setCarry]
      rfl
  · rfl

/-- The end of a bundle looks at no stored choice but that with which it was called. -/
theorem endBundle_setCarry (k : Carry) (s : State) (n : Nat) (x : Option Carry) : endBundle k (modCore s n (setCarry x)) n = endBundle k s n := by
  have hb : ∀ t, breakPasses t n (setCarry x (coreAt s n)) = breakPasses t n (coreAt s n) := fun _ => rfl
  have hfetch : ∀ pass c, fetchOn k pass (called k pass (setCarry x c)) = fetchOn k pass (called k pass c) := fun pass c => by
    rw [called_setCarry]
    rfl
  rw [endBundle, looped_setCarry, modCore_modCore, coreAt_modCore_same, hb]
  simp only [hfetch]
  rfl

/-- A bundle's trap operation traps where its end without the trap leads (R176). -/
theorem finishCommit_trap {s : State} {n d : Nat} {k : Carry} (hk : (coreAt s n).q.carry = some k) (ht : k.trapAfter = some d) :
    let u := finishCommit (modCore s n fun c => { c with q := { c.q with carry := some { k with trapAfter := none } } }) n
    let pc := (coreAt u n).q.pc
    finishCommit s n = takeTrap u n ⟨0x1A, d, 11, 0, pc, dxAt (coreAt u n) pc, 0, 0⟩ false none := by
  intro u pc
  have hc : (coreAt (modCore s n (setCarry (some { k with trapAfter := none }))) n).q.carry = some { k with trapAfter := none } := by
    rw [coreAt_modCore_same]
    rfl
  have hu : u = endBundle k s n :=
    calc u = endBundle { k with trapAfter := none } (modCore s n (setCarry (some { k with trapAfter := none }))) n :=
          finishCommit_eq _ n _ hc
      _ = endBundle { k with trapAfter := none } s n := endBundle_setCarry ..
      _ = endBundle k s n := rfl
  rw [finishCommit_eq s n k hk, ht, ← hu]
  rfl

/-! ## The reissue after a fault (R447) -/

/-- A bundle that begins to issue puts up its slots that are not completed, with what its C slot chose if that has completed. -/
theorem beginIssue_slots (s : State) (n dx words : Nat) (c0 : Core) (b : BitVec 384) (ops : List SlotOp) :
    let c := beginPass (coreAt s n)
    let put := fun (drop : Nat → Bool) => [11, 10, 9, 4, 3, 2, 8, 7, 6, 5, 1, 0].filterMap fun i => if drop i then none else ops.find? fun o => o.1 == i
    ∃ j, (beginIssue s n c0 b dx words ops).issue = some j ∧ j.core = n ∧ j.mask = c.q.skipMask ∧ j.pc = c.q.pc ∧
      (c.q.carry = none → j.todo = put fun i => c.q.skipMask.getLsbD i) ∧
      (∀ k, c.q.carry = some k → k.pc = c.q.pc → c.q.skipMask ≠ 0 →
        j.todo = put (fun i => c.q.skipMask.getLsbD i || (i == 5 && k.xgone)) ∧
        (c.q.skipMask.getLsbD 11 = true → j.redirect = k.redirect ∧ j.calls = k.calls ∧ j.noLoop = k.noLoop ∧ j.stageSet = k.stageSet ∧
          j.trapAfter = k.trapAfter)) := by
  intro c put
  refine ⟨_, rfl, rfl, rfl, rfl, fun hc => ?_, fun k hk hpc hm => ⟨?_, fun h11 => ?_⟩⟩
  · simp only [c] at hc
    simp only [hc, Bool.and_false, Bool.or_false]
    rfl
  · simp only [c, ← bne_iff_ne] at hk hpc hm
    simp only [hk, hpc, hm, decide_true, Bool.and_self, if_true]
    rfl
  · simp only [c, ← bne_iff_ne] at hk hpc hm h11
    simp only [hk, hpc, hm, h11, decide_true, Bool.and_self, if_true]
    exact ⟨rfl, rfl, rfl, rfl, rfl⟩

/-- Settles O12: the commit with and without a fault, the end of the bundle by its loop rule, the begin of a pass, the trap after the
end, and the reissue, each by its lemma. -/
theorem bundleCommit : Obligations.BundleCommit := by
  unfold Obligations.BundleCommit
  refine ⟨fun s b h => ⟨commitBundle_faulted s b h, commitBundle_ok s b h⟩, fun _ _ _ _ => rfl, settleCommit_cases, ?_,
    fun c l h i hi => preg_beginPass c l h i hi, fun s n d k hk ht => finishCommit_trap hk ht,
    fun s n dx words c0 b ops => beginIssue_slots s n dx words c0 b ops⟩
  intro s n k hk hta hst hd htr
  exact ⟨finishCommit_noBodyEnd hk hta hst hd, fun l hno hre hca hl => finishCommit_bodyEnd hk hta hst hd htr hno hre hca hl⟩

end Sys2Proof.Proofs
end

section
/-! PROOFS. What a held line finds in a cycle: the stages of sstep (R29, R31, R173), fences (R115), tret (R287), and a tkwait before its bundle
issues (R33, R172). -/

namespace Sys2Proof.Proofs

open Sys2Proof Sys2Proof.Machine

/-! ## The combining buffer leaves the sequencer alone (R118) -/

theorem landSent_q (s : State) (c n : Nat) (w : List Nat) (l : Word) (lane bytes : Nat) :
    (coreAt (landSent s c w l lane bytes).2 n).q = (coreAt s n).q := by
  unfold landSent
  split
  · rfl
  · exact (coreAt_modCore_keeps Core.q _ c n _ rfl).trans (coreAt_modCore_keeps Core.q _ c n _ rfl)

theorem sendWrite_q (s : State) (c n : Nat) (w : List Nat) (va o : Nat) (b : List Byte) (k : Nat) (mask : Option Nat) (land : Option Word)
    (lb : Nat) (eng : Option Nat) : (coreAt (sendWrite s c w va o b k mask land lb eng) n).q = (coreAt s n).q := by
  have hcount : (coreAt (addPbc (newTag s ⟨1, c, 0, k, none⟩).2 c k) n).q = (coreAt s n).q := coreAt_modCore_keeps Core.q _ c n _ rfl
  unfold sendWrite
  cases land with
  | none =>
    refine Eq.trans ?_ hcount
    exact coreAt_modCore_keeps Core.q _ c n (fun k => { k with f := { k.f with unacked := _ } }) rfl
  | some l =>
    refine (landSent_q ..).trans (Eq.trans ?_ hcount)
    exact coreAt_modCore_keeps Core.q _ c n (fun k => { k with f := { k.f with unacked := _ } }) rfl

theorem sendEntry_q (s : State) (c n : Nat) (e : CombEntry) : (coreAt (sendEntry s c e) n).q = (coreAt s n).q := by
  unfold sendEntry
  split
  · rfl
  · exact sendWrite_q ..

theorem flushComb_q (s : State) (c n : Nat) (sel : CombEntry → Bool) : (coreAt (flushComb s c sel) n).q = (coreAt s n).q :=
  (foldl_keeps (fun s => (coreAt s n).q) _ (fun s e => sendEntry_q s c n e) _ _).trans (coreAt_modCore_keeps Core.q s c n _ rfl)

/-! ## The stages of sstep (R29, R31, R173) -/

theorem alone_iff (k : Core) : alone k = true ↔ k.q.holdG = .none ∧ k.q.holdO = .none := by
  simp [alone]

theorem lookSstep_one_held {s : State} {c : Nat} (h : ¬((coreAt s c).q.holdG = .none ∧ (coreAt s c).q.holdO = .none)) : lookSstep s c 1 = s := by
  have ha : alone (coreAt s c) = false := by rw [← Bool.not_eq_true, alone_iff]; exact h
  simp [lookSstep, ha]

/-- A core whose sequencer is as it was has not trapped. -/
theorem trappedSince_of_q {k : Core} {s : State} {c : Nat} (hq : (coreAt s c).q = k.q) (hr : k.q.running = true) : trappedSince k s c = false := by
  simp [trappedSince, hq, hr]

theorem lookSstep_one {s : State} {c : Nat} (hfree : (coreAt s c).q.holdG = .none ∧ (coreAt s c).q.holdO = .none)
    (hp : parkedG (coreAt s c) = none) (hr : (coreAt s c).q.running = true) :
    let t := flushComb s c fun _ => true
    lookSstep s c 1 = if drained1 (coreAt t c) then setHold t c (.sstep 2) else t := by
  intro t
  have hstage : stageOne s c = t := by rw [stageOne, hp]
  have htr : trappedSince (coreAt s c) t c = false := trappedSince_of_q (flushComb_q ..) hr
  simp [lookSstep, (alone_iff _).mpr hfree, hstage, htr]

theorem drained1_iff (k : Core) : drained1 k = true ↔ k.f.xops = [] ∧ k.f.wb = [] ∧ k.f.ratHead = none ∧ k.f.fill = none ∧ k.f.gq = [] ∧
    k.f.drainq = [] ∧ k.f.comb = [] ∧ k.r.tok = 0 := by
  simp [drained1, and_assoc]

theorem ctGet_ctSet (k : Core) (m n : Nat) (v : Word) : ctGet (ctSet k m v) n = if n = m then v else ctGet k n := spGet_spSet ..

/-- The barrier's counter as a gang's core meets it in stage 3. -/
def barrierAdd (late : Bool) (k : Core) : Core :=
  ctSet k 511 (addOrPoison (if late then ctrPoison (ctGet k 511) else ctGet k 511) 1).1

theorem ctSet_ctSet (k : Core) (n : Nat) (v w : Word) : ctSet (ctSet k n v) n w = ctSet k n w := by
  simp only [ctSet, spSet_spSet]

theorem lookSstep_three (s : State) (c : Nat) : lookSstep s c 3 =
    modCore (modCore s (barrierOf s c).1 (barrierAdd (barrierOf s c).2.2)) c fun k => { k with q := { k.q with hold := .sstep 4, waitT := s.dev } } := by
  have hadd : ∀ late b, modCore (if late then modCore s b fun k => ctSet k 511 (ctrPoison (ctGet k 511)) else s) b
      (fun k => ctSet k 511 (addOrPoison (ctGet k 511) 1).1) = modCore s b (barrierAdd late) := fun late b => by
    rw [modCore_ite_modCore]
    congr 1
    funext k
    cases late <;> simp [barrierAdd, ctSet_ctSet, ctGet_ctSet]
  rw [← hadd]
  simp only [lookSstep]
  generalize barrierOf s c = b
  obtain ⟨b, g, late⟩ := b
  cases late <;> rfl

/-- Stage 3: the barrier's counter one higher, the core at stage 4, and nothing else different. -/
theorem lookSstep_three_spec (s : State) (c : Nat) :
    let k := coreAt s c
    let b := (barrierOf s c).1
    let late := (barrierOf s c).2.2
    let sum := addOrPoison (if late = true then ctrPoison (ctGet (coreAt s b) 511) else ctGet (coreAt s b) 511) 1
    let t := lookSstep s c 3
    { t with cores := s.cores } = s ∧ (coreAt t c).q = { k.q with hold := .sstep 4, waitT := s.dev } ∧
      (coreAt t c).r = k.r ∧ (∀ n, ctGet (coreAt t b) n = if n = 511 then sum.1 else ctGet (coreAt s b) n) ∧
      ∀ n, n ≠ b → n ≠ c → coreAt t n = coreAt s n := by
  intro k b late sum t
  have ht : t = _ := lookSstep_three s c
  have hq : (coreAt (modCore s b (barrierAdd late)) c).q = k.q := coreAt_modCore_keeps Core.q s b c _ rfl
  have hr : (coreAt (modCore s b (barrierAdd late)) c).r = k.r := coreAt_modCore_keeps Core.r s b c _ rfl
  rw [ht]
  refine ⟨rfl, ?_, ?_, fun n => ?_, fun n hb hc => ?_⟩
  · rw [coreAt_modCore_same, ← hq]
  · rw [coreAt_modCore_same, ← hr]
  · rw [coreAt_modCore_keeps (fun k => ctGet k n) _ c b _ rfl, coreAt_modCore_same]
    exact ctGet_ctSet ..
  · rw [coreAt_modCore_other _ _ _ _ hc, coreAt_modCore_other _ _ _ _ hb]

/-- Stage 4: what the barrier's counter says. -/
theorem lookSstep_four (s : State) (c : Nat) :
    let k := coreAt s c
    let x := ctGet (coreAt s (barrierOf s c).1) 511
    (x.getLsbD 63 = true → lookSstep s c 4 = heldFault (setHold s c .none) c 11 0x11 0 0) ∧
    (x.getLsbD 63 = false → (barrierOf s c).2.1 * (k.r.ssn.toNat + 1) ≤ x.toNat → lookSstep s c 4 = modCore s c fun k => { k with
      q := { k.q with hold := .none }, r := { k.r with ssn := k.r.ssn + 1 } }) ∧
    (x.getLsbD 63 = false → x.toNat < (barrierOf s c).2.1 * (k.r.ssn.toNat + 1) → lookSstep s c 4 = s) := by
  intro k x
  refine ⟨fun hx => if_pos hx, fun hx hle => ?_, fun hx hlt => ?_⟩
  · exact (if_neg (Bool.eq_false_iff.mp hx)).trans (if_pos hle)
  · exact (if_neg (Bool.eq_false_iff.mp hx)).trans (if_neg (Nat.not_le.mpr hlt))

theorem barrierOf_none {s : State} {c : Nat} (h : (coreAt s c).bind = none) : barrierOf s c = (c, 1, false) := by
  simp [barrierOf, h]

theorem barrierOf_some {s : State} {c : Nat} {y : Bind} {g : Gang} (h : (coreAt s c).bind = some y) (hg : gangAt s y.gang = some g) :
    let b := barrierOf s c
    b.1 = g.cores.headD c ∧ b.2.1 = y.size ∧ (b.2.2 = true ↔
      ∃ m, m ∈ membersOf s c ∧ m ≠ c ∧ (coreAt s m).q.retired = true ∧ (coreAt s m).r.ssn.toNat < (coreAt s c).r.ssn.toNat + 1) := by
  simp [barrierOf, h, hg, and_assoc]

theorem lookO_of_none {k : Core} (h : k.q.holdO = .none) : lookO k = k := by simp [lookO, h]

/-- A held cycle whose hold is a stage of sstep alone, and ends in it. -/
theorem holdCycle_sstep {s : State} {c n : Nat} (hrun : (coreAt s c).q.running = true)
    (hfree : (coreAt s c).q.holdG = .none ∧ (coreAt s c).q.holdO = .none) (hh : (coreAt s c).q.hold = .sstep n) :
    let t := lookSstep (modCore s c id) c n
    trappedSince (coreAt s c) t c = false → (coreAt t c).q.free = true → holdCycle s c = t := by
  intro t htr hfr
  obtain ⟨hG, hO⟩ := hfree
  have hlookG : lookG s c = s := by simp [lookG, hG]
  have hlookO : modCore s c lookO = modCore s c id := by simp only [modCore, lookO_of_none hO, id]
  have hlookC : lookC (modCore s c id) c = t := by
    have hh' : (coreAt (modCore s c id) c).q.hold = .sstep n := by rw [coreAt_modCore_same]; exact hh
    simp only [lookC, hh', t]
  have hnot : trappedSince (coreAt s c) s c = false := trappedSince_of_q rfl hrun
  simp [holdCycle, hlookG, hlookO, hlookC, hnot, htr, hfr]

/-! ## Fences (R115) -/

theorem fenceDone_iff (t : State) (c f : Nat) :
    let k := coreAt t c
    fenceDone t c f = true ↔ k.f.gq = [] ∧ storesOut t c (f == 4) = false ∧ (∀ y, k.f.fill = some y → y.reads = false) ∧
      ∀ o r, k.q.holdO ≠ .opslot (some o) r := by
  intro k
  have hfill : k.f.fill.any Fill.reads = false ↔ ∀ y, k.f.fill = some y → y.reads = false := by
    cases k.f.fill <;> simp
  simp only [fenceDone, Bool.and_eq_true, and_assoc, List.isEmpty_iff, Bool.not_eq_true', ← hfill]
  refine and_congr_right fun _ => and_congr_right fun _ => and_congr_right fun _ => ?_
  split
  next o r h => exact ⟨fun hf => absurd hf Bool.false_ne_true, fun hne => absurd h (hne o r)⟩
  next h => exact ⟨fun _ => h, fun _ => rfl⟩

theorem lookG_fence {s : State} {c f : Nat} (h : (coreAt s c).q.holdG = .fence f) (hp : parkedG (coreAt s c) = none) :
    let t := fenceFlush s c f
    lookG s c = if fenceDone t c f then freeG t c else t := by
  simp only [lookG, h, hp]

/-! ## tret (R287) -/

theorem frecBusy_iff (k : Core) : frecBusy k = true ↔ ∃ x, x ∈ k.f.cmds ∧ x.op = 0x11 := by
  simp [frecBusy]

theorem lookC_tret {s : State} {c : Nat} (h : (coreAt s c).q.hold = .tret) (hfree : (coreAt s c).q.holdG = .none ∧ (coreAt s c).q.holdO = .none) :
    ((∀ x ∈ (coreAt s c).f.cmds, x.op ≠ 0x11) → lookC s c = modCore s c trapReturn) ∧
    ((∃ x, x ∈ (coreAt s c).f.cmds ∧ x.op = 0x11) → needPending (coreAt s c) = none → lookC s c = s) := by
  have ha : alone (coreAt s c) = true := (alone_iff _).mpr hfree
  refine ⟨fun hno => ?_, fun hb hn => ?_⟩
  · have hf : frecBusy (coreAt s c) = false := by
      rw [← Bool.not_eq_true, frecBusy_iff]
      exact fun ⟨x, hx, ho⟩ => hno x hx ho
    simp [lookC, h, ha, hf]
  · have hf : frecBusy (coreAt s c) = true := (frecBusy_iff _).mpr hb
    simp [lookC, h, hf, hn]

/-! ## tkwait alone in its bundle (R33, R172) -/

/-- A bundle that holds a `tkwait` under p0 and nothing else. -/
def onlyTkwait (x y z : Nat) : List SlotOp := [(11, .tkwait 0 x y z)]

section
variable (c : Core) (x y z : Nat)

theorem onOps_onlyTkwait : onOps c (onlyTkwait x y z) = [.tkwait 0 x y z] := rfl

theorem liveNames_onlyTkwait (f : Foot → List Nat) : liveNames c (onlyTkwait x y z) f = f (foot (.tkwait 0 x y z)) := List.append_nil _

theorem touchesS_onlyTkwait (n : Nat) : touchesS c (onlyTkwait x y z) n = false := by
  simp only [touchesS, liveNames_onlyTkwait]
  exact Bool.and_false _

theorem touchesP_onlyTkwait (n : Nat) : touchesP c (onlyTkwait x y z) n = false := by
  simp only [touchesP, liveNames_onlyTkwait]
  exact Bool.and_false _

/-- It needs no result (R182). -/
theorem interlocked_onlyTkwait : interlocked c (onlyTkwait x y z) = false := by
  simp [interlocked, touchesS_onlyTkwait, touchesP_onlyTkwait]

theorem unitsHeld_onlyTkwait : unitsHeld c (onlyTkwait x y z) = [] := by simp [unitsHeld, onlyTkwait]

theorem slotWaits_tkwait : slotWaits c [.tkwait 0 x y z] = ([], false) := by
  cases h : c.f.fill <;> simp [slotWaits, wHandle, h]

theorem wantsPort_tkwait (l : List (Nat × Bool)) : wantsPort [.tkwait 0 x y z] l = false := rfl

theorem rowHeld_tkwait : rowHeld c [.tkwait 0 x y z] = false := rfl

theorem freeHeld_tkwait : freeHeld c [.tkwait 0 x y z] = false := rfl

theorem engineHeld_tkwait : engineHeld c [.tkwait 0 x y z] = false := rfl

theorem xOpOf_tkwait : xOpOf (.tkwait 0 x y z) = none := rfl

theorem scHeld_tkwait : scHeld c [.tkwait 0 x y z] = false := Bool.and_false _

theorem queueFull_tkwait : queueFull c [.tkwait 0 x y z] = false := Bool.and_false _

theorem tokensOf_tkwait : tokensOf [.tkwait 0 x y z] = (foot (.tkwait 0 x y z)).tk := by
  rw [tokensOf, List.flatMap_singleton]
  exact List.append_nil _

theorem tokenHeld_tkwait : tokenHeld c [.tkwait 0 x y z] = (foot (.tkwait 0 x y z)).tk.any fun t => c.r.tok.getLsbD t := by
  rw [tokenHeld, tokensOf_tkwait]

end

/-- Such a bundle waits for nothing but its tokens: it is issued once none of them is pending, and holds until then. -/
theorem preIssue_onlyTkwait {s : State} {c : Core} {n dx words x y z : Nat} {b : BitVec 384} (hm : c.q.skipMask = 0) (hx : c.q.xwait = none)
    (hp : parkedG c = none) (hchk : c.r.check = 0) :
    preIssue s n c b dx words (onlyTkwait x y z) =
      if tokenHeld c [.tkwait 0 x y z] then .ends (resultHeld s n 0x09 false (fun _ => false) fun e => (tokensOf [.tkwait 0 x y z]).contains e.tok)
      else .go s b dx words (onlyTkwait x y z) := by
  have htodo : ∀ f : SlotOp → Bool, f (11, .tkwait 0 x y z) = true → (onlyTkwait x y z).filter f = onlyTkwait x y z := fun f hf =>
    List.filter_cons_of_pos hf
  have hneed : needed s n c (onlyTkwait x y z) = none := by simp [needed, hp]
  have hund : undersized c (onlyTkwait x y z) = none := by simp [undersized, hchk]
  have hfp : (onlyTkwait x y z).any (fun o => (foot o.2).fp) = false := rfl
  unfold preIssue
  rw [htodo _ (by rw [hm]; rfl)]
  simp only [onOps_onlyTkwait, hneed, hund, hfp, hx, interlocked_onlyTkwait, unitsHeld_onlyTkwait, slotWaits_tkwait, scHeld_tkwait, queueFull_tkwait,
    wantsPort_tkwait, rowHeld_tkwait, freeHeld_tkwait, engineHeld_tkwait, xOpOf_tkwait, List.any_cons, List.any_nil, List.isEmpty_nil, Option.isSome_none,
    Bool.not_true, Bool.or_false, Bool.false_and, Bool.and_false, Bool.false_eq_true, if_false]

theorem preIssue_tkwait {s : State} {c : Core} {n dx words x y z : Nat} {b : BitVec 384} (hm : c.q.skipMask = 0) (hx : c.q.xwait = none)
    (hp : parkedG c = none) (hchk : c.r.check = 0) :
    let i := Instr.tkwait 0 x y z
    ((∀ t ∈ (foot i).tk, c.r.tok.getLsbD t = false) → preIssue s n c b dx words [(11, i)] = .go s b dx words [(11, i)]) ∧
    ((∃ t, t ∈ (foot i).tk ∧ c.r.tok.getLsbD t = true) → ∃ u, preIssue s n c b dx words [(11, i)] = .ends u) := by
  intro i
  have hpre : preIssue s n c b dx words [(11, i)] = _ := preIssue_onlyTkwait hm hx hp hchk
  rw [hpre, tokenHeld_tkwait]
  refine ⟨fun hno => if_neg ?_, fun hsome => ⟨_, if_pos (List.any_eq_true.mpr hsome)⟩⟩
  rw [Bool.not_eq_true, List.any_eq_false]
  exact fun t ht => Bool.eq_false_iff.mp (hno t ht)

/-- Settles O13: the stages of sstep, fences, tret and tkwait, each by the lemma on what the held cycle finds. -/
theorem holdsEnd : Obligations.HoldsEnd := by
  unfold Obligations.HoldsEnd
  refine ⟨fun s c => ?_, fun s c f h hp => ?_, fun s c h hG hO => lookC_tret h ⟨hG, hO⟩, fun s n dx words x y z b hm hx hp hchk =>
    preIssue_tkwait hm hx hp hchk⟩
  · intro k hold free b late sum x
    obtain ⟨hpoison, hfull, hwait⟩ := lookSstep_four s c
    refine ⟨fun hfree hp hr => ?_, lookSstep_one_held, drained1_iff k, fun h => if_pos h, fun h => if_neg h,
      ⟨_, rfl, lookSstep_three_spec s c⟩, hpoison, hfull, hwait, fun h => ?_,
      fun y g h hg => barrierOf_some h hg, fun n hr hfree hh => holdCycle_sstep hr hfree hh⟩
    · have hone := lookSstep_one hfree hp hr
      exact ⟨flushComb_q .., fun hd => hone.trans (if_pos hd), fun hd => hone.trans (if_neg (Bool.eq_false_iff.mp hd))⟩
    · have hb := barrierOf_none h
      simp [b, late, hb]
  · have hdone := fenceDone_iff (fenceFlush s c f) c f
    exact ⟨fun he => (lookG_fence h hp).trans (if_pos (hdone.mpr he)), fun he => (lookG_fence h hp).trans (if_neg fun hd => he (hdone.mp hd))⟩

end Sys2Proof.Proofs
end

section
/-! PROOFS. The 64-bit counter word (R99): VALUE and POISON of a word, and what add, raise, poll and the poison of an overflow do to them
(R101, R103). -/

namespace Sys2Proof.Proofs

open Sys2Proof Sys2Proof.Machine

/-! ## POISON and VALUE of a word (R99) -/

theorem poison_eq_decide (c : Word) : c.getLsbD 63 = decide (2 ^ 63 ≤ c.toNat) :=
  (BitVec.msb_eq_getLsbD_last c).symm.trans (BitVec.msb_eq_decide c)

theorem toNat_lt_of_unpoisoned {c : Word} (h : c.getLsbD 63 = false) : c.toNat < 2 ^ 63 := by
  rw [poison_eq_decide, decide_eq_false_iff_not] at h
  exact Nat.not_le.mp h

/-- Without POISON the word is its VALUE. -/
theorem value_of_unpoisoned {c : Word} (h : c.getLsbD 63 = false) : c.toNat % 2 ^ 63 = c.toNat :=
  Nat.mod_eq_of_lt (toNat_lt_of_unpoisoned h)

theorem value_ofNat {n : Nat} (h : n < 2 ^ 63) : (BitVec.ofNat 64 n).toNat % 2 ^ 63 = n := by
  rw [BitVec.toNat_ofNat]
  omega

theorem poison_ofNat {n : Nat} (h : n < 2 ^ 63) : (BitVec.ofNat 64 n).getLsbD 63 = false := by
  rw [poison_eq_decide, BitVec.toNat_ofNat, decide_eq_false_iff_not]
  omega

theorem value_ctrPoison (c : Word) : (ctrPoison c).toNat % 2 ^ 63 = c.toNat % 2 ^ 63 := by
  rw [ctrPoison, BitVec.toNat_or, Nat.or_mod_two_pow]
  exact Nat.or_zero _

theorem poison_ctrPoison (c : Word) : (ctrPoison c).getLsbD 63 = true := by
  simp [ctrPoison]

/-! ## Add, raise and poll (R101) -/

theorem ctrAdd_poisoned {c : Word} (a : Nat) (h : c.getLsbD 63 = true) : ctrAdd c a = (c, false) := if_pos h

theorem ctrAdd_overflow {c : Word} {a : Nat} (h : c.getLsbD 63 = false) (ha : 2 ^ 63 - 1 < c.toNat + a) : ctrAdd c a = (c, true) := by
  rw [ctrAdd, h, if_neg Bool.false_ne_true, if_pos ha]

theorem ctrAdd_fits {c : Word} {a : Nat} (h : c.getLsbD 63 = false) (ha : c.toNat + a ≤ 2 ^ 63 - 1) :
    ctrAdd c a = (BitVec.ofNat 64 (c.toNat + a), false) := by
  rw [ctrAdd, h, if_neg Bool.false_ne_true, if_neg (Nat.not_lt.mpr ha)]

theorem ctrRaise_overflow (c : Word) {a : Nat} (ha : 2 ^ 63 ≤ a) : ctrRaise c a = (c, true) := if_pos ha

theorem ctrRaise_poisoned {c : Word} {a : Nat} (h : c.getLsbD 63 = true) (ha : a < 2 ^ 63) : ctrRaise c a = (c, false) := by
  rw [ctrRaise, if_neg (Nat.not_le.mpr ha), if_pos h]

theorem ctrRaise_fits {c : Word} {a : Nat} (h : c.getLsbD 63 = false) (ha : a < 2 ^ 63) :
    ctrRaise c a = (BitVec.ofNat 64 (max c.toNat a), false) := by
  rw [ctrRaise, h, if_neg (Nat.not_le.mpr ha), if_neg Bool.false_ne_true]
  by_cases hlt : a > c.toNat
  · rw [if_pos hlt, Nat.max_eq_right (Nat.le_of_lt hlt)]
  · rw [if_neg hlt, Nat.max_eq_left (Nat.not_lt.mp hlt), BitVec.ofNat_toNat, BitVec.setWidth_eq]

/-- No add lowers VALUE (R103). -/
theorem value_le_ctrAdd (c : Word) (a : Nat) : c.toNat % 2 ^ 63 ≤ (ctrAdd c a).1.toNat % 2 ^ 63 := by
  cases h : c.getLsbD 63 with
  | true => simp only [ctrAdd_poisoned a h, Nat.le_refl]
  | false =>
    by_cases ha : 2 ^ 63 - 1 < c.toNat + a
    · simp only [ctrAdd_overflow h ha, Nat.le_refl]
    · rw [ctrAdd_fits h (Nat.not_lt.mp ha), value_ofNat (by omega), value_of_unpoisoned h]
      exact Nat.le_add_right _ _

/-- No raise lowers VALUE (R103). -/
theorem value_le_ctrRaise (c : Word) (a : Nat) : c.toNat % 2 ^ 63 ≤ (ctrRaise c a).1.toNat % 2 ^ 63 := by
  by_cases ha : 2 ^ 63 ≤ a
  · simp only [ctrRaise_overflow c ha, Nat.le_refl]
  · have ha : a < 2 ^ 63 := Nat.not_le.mp ha
    cases h : c.getLsbD 63 with
    | true => simp only [ctrRaise_poisoned h ha, Nat.le_refl]
    | false =>
      rw [ctrRaise_fits h ha, value_ofNat (Nat.max_lt.mpr ⟨toNat_lt_of_unpoisoned h, ha⟩), value_of_unpoisoned h]
      exact Nat.le_max_left _ _

theorem ctrReached_iff (c : Word) (a : Nat) : ctrReached c a = true ↔ c.getLsbD 63 = false ∧ a ≤ c.toNat % 2 ^ 63 := by
  rw [ctrReached, Bool.and_eq_true, Bool.not_eq_true', decide_eq_true_eq]

/-! ## An add by another party than a core (R101, R103) -/

theorem addOrPoison_of_overflow {c v : Word} {a : Nat} (h : ctrAdd c a = (v, true)) : addOrPoison c a = (ctrPoison c, true) := by
  rw [addOrPoison, h]
  rfl

theorem addOrPoison_of_fits {c v : Word} {a : Nat} (h : ctrAdd c a = (v, false)) : addOrPoison c a = (v, false) := by
  rw [addOrPoison, h]
  rfl

/-- Settles O52: the cases of R101, each by what the operation answers there. -/
theorem counterArithmetic : Obligations.CounterArithmetic := by
  unfold Obligations.CounterArithmetic
  intro c a v p
  refine ⟨fun h => ?_, fun h ha => ?_, ctrRaise_overflow c, fun h ha => ?_, fun h ha => ?_, value_le_ctrAdd c a, value_le_ctrRaise c a,
    value_ctrPoison c, poison_ctrPoison c, ctrReached_iff c a⟩
  · have hadd := ctrAdd_poisoned a h
    exact ⟨hadd, ctrRaise_poisoned h, addOrPoison_of_fits hadd⟩
  · have hv : v c = c.toNat := value_of_unpoisoned h
    have hadd := ctrAdd_overflow h (hv ▸ ha)
    rw [addOrPoison_of_overflow hadd]
    exact ⟨hadd, rfl, poison_ctrPoison c, value_ctrPoison c⟩
  · have hv : v c = c.toNat := value_of_unpoisoned h
    have hsum : c.toNat + a < 2 ^ 63 := by omega
    have hadd := ctrAdd_fits h (Nat.le_pred_of_lt hsum)
    rw [addOrPoison_of_fits hadd, hadd, hv]
    exact ⟨rfl, value_ofNat hsum, poison_ofNat hsum, rfl⟩
  · have hmax : max c.toNat a < 2 ^ 63 := Nat.max_lt.mpr ⟨toNat_lt_of_unpoisoned h, ha⟩
    have hv : v c = c.toNat := value_of_unpoisoned h
    rw [ctrRaise_fits h ha, hv]
    exact ⟨rfl, value_ofNat hmax, poison_ofNat hmax⟩

end Sys2Proof.Proofs
end

section
/-! PROOFS. The package right after reset: every table of State.reset lists nothing, so that what reads it finds the reset value. -/

namespace Sys2Proof.Proofs

open Sys2Proof Sys2Proof.Machine

/-! ## What readers find after reset -/

theorem bit_zero (i : Nat) : bit 0 i = false := Nat.zero_testBit i

theorem coreAt_reset (c : Nat) : coreAt State.reset c = Core.reset := rfl

theorem sreg_reset (n : Nat) : sreg Core.reset n = 0 := ite_self 0

/-- Of the predicates p0 alone is true after reset (R41). -/
theorem preg_reset (n : Nat) : preg Core.reset n = true ↔ n = 0 := by
  simp [preg, Core.reset, Regs.reset]

/-- A handle table without entries names no valid handle (R50). -/
theorem handle_reset_valid (h : Nat) : (handle Core.reset h).valid = false := by
  have hword0 : hword Core.reset h = 0 := rfl
  rw [handle, hword0]
  exact bit_zero 63

/-- A hub that was told no routes has none (R381). -/
theorem routeHops_reset (d : Nat) : routeHops State.reset d = none := by
  have hroute : spGet 0 State.reset.hub.routes d = 0#64 := rfl
  have hvalid : bit (0#64).toNat 63 = false := bit_zero 63
  simp only [routeHops, hroute, hvalid, Bool.false_and, Bool.false_eq_true, if_false]

theorem trunkAt_reset (n : Nat) : trunkAt State.reset n = Trunk.reset := rfl

theorem barRd_reset (off : Nat) : barRd State.reset off = barReset off := rfl

/-- Settles O54: by what each reader finds in the reset state. -/
theorem resetState : Obligations.ResetState := by
  unfold Obligations.ResetState
  refine ⟨rfl, rfl, rfl, rfl, rfl, rfl, rfl, rfl, fun c => ?core, routeHops_reset, fun n => ?trunk, ?drlCtl, ?drlClass, fun _ => rfl,
    fun _ h => nomatch h⟩
  case core =>
    rw [coreAt_reset]
    exact ⟨rfl, rfl, rfl, rfl, rfl, rfl, rfl, rfl, rfl, rfl, rfl, fun _ => rfl, sreg_reset, fun n _ => preg_reset n, handle_reset_valid⟩
  case trunk =>
    rw [trunkAt_reset]
    exact ⟨rfl, rfl⟩
  case drlCtl =>
    rw [barRd_reset]
    simp [barReset]
  case drlClass =>
    rw [barRd_reset]
    simp [barReset]

end Sys2Proof.Proofs
end

section
/-! PROOFS. Decode and encode agree on every slot operation (R138, R145). -/

namespace Sys2Proof.Proofs

open Sys2Proof Sys2Proof.Laws

/-- An event stands in no slot, so there is no word of it to decode. -/
theorem roundTrip_of_noSlot {i : Instr} (h : i.slotClass = none) : RoundTrip.Statement i :=
  fun _ hk _ => nomatch h.symm.trans hk

/-- Settles O60: the round trip of each slot operation's word, in the order of the opcode table; events have no word. -/
theorem decodeEncodeAgree : Obligations.DecodeEncodeAgree := by
  unfold Obligations.DecodeEncodeAgree
  intro i
  cases i with
  | cNop p => exact RoundTrip.cNop p | pbr p b r => exact RoundTrip.pbr p b r | pbrS p b a => exact RoundTrip.pbrS p b a
  | br p b q => exact RoundTrip.br p b q | brN p b q => exact RoundTrip.brN p b q | call p b => exact RoundTrip.call p b
  | ret p => exact RoundTrip.ret p | loop p i => exact RoundTrip.loop p i | loopSwp p i => exact RoundTrip.loopSwp p i
  | lbrk p i => exact RoundTrip.lbrk p i | ctwait p c a => exact RoundTrip.ctwait p c a | ctwaitT p c a => exact RoundTrip.ctwaitT p c a
  | ctwaitG p a => exact RoundTrip.ctwaitG p a | ctwaitGt p a => exact RoundTrip.ctwaitGt p a | tkwait p x y z => exact RoundTrip.tkwait p x y z
  | sstep p => exact RoundTrip.sstep p | yield p => exact RoundTrip.yield p | halt p => exact RoundTrip.halt p
  | brk p n => exact RoundTrip.brk p n | trap p n => exact RoundTrip.trap p n | tret p => exact RoundTrip.tret p
  | sysrd p d r => exact RoundTrip.sysrd p d r | syswr p a r => exact RoundTrip.syswr p a r | wheel p n => exact RoundTrip.wheel p n
  | pwrHint p n => exact RoundTrip.pwrHint p n | sNop p => exact RoundTrip.sNop p | add p d a b => exact RoundTrip.add p d a b
  | sub p d a b => exact RoundTrip.sub p d a b | mul p d a b => exact RoundTrip.mul p d a b | mulh p d a b => exact RoundTrip.mulh p d a b
  | mulhu p d a b => exact RoundTrip.mulhu p d a b | div p d a b => exact RoundTrip.div p d a b | divu p d a b => exact RoundTrip.divu p d a b
  | rem p d a b => exact RoundTrip.rem p d a b | remu p d a b => exact RoundTrip.remu p d a b | and p d a b => exact RoundTrip.and p d a b
  | or p d a b => exact RoundTrip.or p d a b | xor p d a b => exact RoundTrip.xor p d a b | andn p d a b => exact RoundTrip.andn p d a b
  | sll p d a b => exact RoundTrip.sll p d a b | srl p d a b => exact RoundTrip.srl p d a b | sra p d a b => exact RoundTrip.sra p d a b
  | slli p d a n => exact RoundTrip.slli p d a n | srli p d a n => exact RoundTrip.srli p d a n | srai p d a n => exact RoundTrip.srai p d a n
  | min p d a b => exact RoundTrip.min p d a b | max p d a b => exact RoundTrip.max p d a b | minu p d a b => exact RoundTrip.minu p d a b
  | maxu p d a b => exact RoundTrip.maxu p d a b | popc p d a => exact RoundTrip.popc p d a | clz p d a => exact RoundTrip.clz p d a
  | cmpEq p k0 a b => exact RoundTrip.cmpEq p k0 a b | cmpLt p k0 a b => exact RoundTrip.cmpLt p k0 a b
  | cmpLtu p k0 a b => exact RoundTrip.cmpLtu p k0 a b | cmpLe p k0 a b => exact RoundTrip.cmpLe p k0 a b
  | cmpLeu p k0 a b => exact RoundTrip.cmpLeu p k0 a b | plog p d a b t => exact RoundTrip.plog p d a b t
  | sel p k0 d a b => exact RoundTrip.sel p k0 d a b | addi p d i => exact RoundTrip.addi p d i | li p d i => exact RoundTrip.li p d i
  | lic p d i => exact RoundTrip.lic p d i | kconst p d i => exact RoundTrip.kconst p d i | hmk p d i => exact RoundTrip.hmk p d i
  | hsz p d i => exact RoundTrip.hsz p d i | hrow p d i => exact RoundTrip.hrow p d i | mfpr p d => exact RoundTrip.mfpr p d
  | mtpr p a => exact RoundTrip.mtpr p a | mflc p d n => exact RoundTrip.mflc p d n | mfb p d n => exact RoundTrip.mfb p d n
  | mtb p n a => exact RoundTrip.mtb p n a | stsetF p t s a => exact RoundTrip.stsetF p t s a | stsetZ p t => exact RoundTrip.stsetZ p t
  | stsetCp p t m => exact RoundTrip.stsetCp p t m | mtmm p n a => exact RoundTrip.mtmm p n a | mfmm p d n => exact RoundTrip.mfmm p d n
  | fadd p d a b => exact RoundTrip.fadd p d a b | fsub p d a b => exact RoundTrip.fsub p d a b | fmul p d a b => exact RoundTrip.fmul p d a b
  | fdiv p d a b => exact RoundTrip.fdiv p d a b | fsqrt p d a => exact RoundTrip.fsqrt p d a | fmin p d a b => exact RoundTrip.fmin p d a b
  | fmax p d a b => exact RoundTrip.fmax p d a b | fcmpEq p k0 a b => exact RoundTrip.fcmpEq p k0 a b
  | fcmpLt p k0 a b => exact RoundTrip.fcmpLt p k0 a b | fcmpLe p k0 a b => exact RoundTrip.fcmpLe p k0 a b
  | fcmpUn p k0 a b => exact RoundTrip.fcmpUn p k0 a b | fcvtD2l p d a => exact RoundTrip.fcvtD2l p d a
  | fcvtL2d p d a => exact RoundTrip.fcvtL2d p d a | fcvtD2s p d a => exact RoundTrip.fcvtD2s p d a
  | fcvtS2d p d a => exact RoundTrip.fcvtS2d p d a | fabs p d a => exact RoundTrip.fabs p d a | fneg p d a => exact RoundTrip.fneg p d a
  | fsGcd p d a b => exact RoundTrip.fsGcd p d a b | fsMk p d a b => exact RoundTrip.fsMk p d a b
  | fsMed p d a b => exact RoundTrip.fsMed p d a b | fsNear p d a b => exact RoundTrip.fsNear p d a b
  | fsNum p d a => exact RoundTrip.fsNum p d a | fsDen p d a => exact RoundTrip.fsDen p d a | fsClass p d a => exact RoundTrip.fsClass p d a
  | fsCanon p d a => exact RoundTrip.fsCanon p d a | fsCvtF32 p d a => exact RoundTrip.fsCvtF32 p d a
  | fsCvtE8 p d a => exact RoundTrip.fsCvtE8 p d a | fsPack32 p d a => exact RoundTrip.fsPack32 p d a
  | fsUnpk32 p d a => exact RoundTrip.fsUnpk32 p d a | lNop p => exact RoundTrip.lNop p | vld32 p v0 t => exact RoundTrip.vld32 p v0 t
  | vld16 p v0 t => exact RoundTrip.vld16 p v0 t | qld p q t => exact RoundTrip.qld p q t | ldsB p d a v0 k0 => exact RoundTrip.ldsB p d a v0 k0
  | ldsH p d a v0 k0 => exact RoundTrip.ldsH p d a v0 k0 | ldsW p d a v0 k0 => exact RoundTrip.ldsW p d a v0 k0
  | ldsD p d a v0 k0 => exact RoundTrip.ldsD p d a v0 k0 | ofill p s t v0 k0 => exact RoundTrip.ofill p s t v0 k0
  | halloc p h d a => exact RoundTrip.halloc p h d a | hfree p h => exact RoundTrip.hfree p h | wNop p => exact RoundTrip.wNop p
  | vst32 p v0 t => exact RoundTrip.vst32 p v0 t | vst16 p v0 t => exact RoundTrip.vst16 p v0 t | qst p q t => exact RoundTrip.qst p q t
  | stsB p d a v0 k0 => exact RoundTrip.stsB p d a v0 k0 | stsH p d a v0 k0 => exact RoundTrip.stsH p d a v0 k0
  | stsW p d a v0 k0 => exact RoundTrip.stsW p d a v0 k0 | stsD p d a v0 k0 => exact RoundTrip.stsD p d a v0 k0
  | oclaim p s => exact RoundTrip.oclaim p s | orel p s => exact RoundTrip.orel p s | gNop p => exact RoundTrip.gNop p
  | ldB p d a v0 t w u => exact RoundTrip.ldB p d a v0 t w u | ldH p d a v0 t w u => exact RoundTrip.ldH p d a v0 t w u
  | ldW p d a v0 t w u => exact RoundTrip.ldW p d a v0 t w u | ldD p d a v0 t w u => exact RoundTrip.ldD p d a v0 t w u
  | stB p d a v0 t w u => exact RoundTrip.stB p d a v0 t w u | stH p d a v0 t w u => exact RoundTrip.stH p d a v0 t w u
  | stW p d a v0 t w u => exact RoundTrip.stW p d a v0 t w u | stD p d a v0 t w u => exact RoundTrip.stD p d a v0 t w u
  | ldAcqW p d a v0 t w u => exact RoundTrip.ldAcqW p d a v0 t w u | ldAcqD p d a v0 t w u => exact RoundTrip.ldAcqD p d a v0 t w u
  | stRelW p d a v0 t w u => exact RoundTrip.stRelW p d a v0 t w u | stRelD p d a v0 t w u => exact RoundTrip.stRelD p d a v0 t w u
  | ldV p d a b => exact RoundTrip.ldV p d a b | stV p d a b => exact RoundTrip.stV p d a b | amoAdd p d a b => exact RoundTrip.amoAdd p d a b
  | amoMax p d a b => exact RoundTrip.amoMax p d a b | amoMaxu p d a b => exact RoundTrip.amoMaxu p d a b
  | amoMin p d a b => exact RoundTrip.amoMin p d a b | amoMinu p d a b => exact RoundTrip.amoMinu p d a b
  | amoAnd p d a b => exact RoundTrip.amoAnd p d a b | amoOr p d a b => exact RoundTrip.amoOr p d a b
  | amoXor p d a b => exact RoundTrip.amoXor p d a b | amoSwap p d a b => exact RoundTrip.amoSwap p d a b
  | amoCas p d a b => exact RoundTrip.amoCas p d a b | amoScAdd p d a b => exact RoundTrip.amoScAdd p d a b
  | amoScSwap p d a b => exact RoundTrip.amoScSwap p d a b | amoScCas p d a b => exact RoundTrip.amoScCas p d a b
  | amoScMax p d a b => exact RoundTrip.amoScMax p d a b | amoScMin p d a b => exact RoundTrip.amoScMin p d a b
  | fenceCore p => exact RoundTrip.fenceCore p | fenceQuad p => exact RoundTrip.fenceQuad p | fenceDie p => exact RoundTrip.fenceDie p
  | fencePackage p => exact RoundTrip.fencePackage p | fenceFabric p => exact RoundTrip.fenceFabric p | pf p a => exact RoundTrip.pf p a
  | wprobe p d a => exact RoundTrip.wprobe p d a | xNop p => exact RoundTrip.xNop p | mwld p l s m => exact RoundTrip.mwld p l s m
  | mtrans p l s m => exact RoundTrip.mtrans p l s m | mma p l t s m => exact RoundTrip.mma p l t s m
  | mmaAcc p l t s m => exact RoundTrip.mmaAcc p l t s m | mmaTri p l t s m => exact RoundTrip.mmaTri p l t s m
  | mmaTriAcc p l t s m => exact RoundTrip.mmaTriAcc p l t s m | mmaP p l s m => exact RoundTrip.mmaP p l s m
  | mzero p l t => exact RoundTrip.mzero p l t | mdrain p l t m => exact RoundTrip.mdrain p l t m
  | mdrainSp p l m => exact RoundTrip.mdrainSp p l m | mdrainFab p l m => exact RoundTrip.mdrainFab p l m | vNop p => exact RoundTrip.vNop p
  | vaddF p w t d a b => exact RoundTrip.vaddF p w t d a b | vsubF p w t d a b => exact RoundTrip.vsubF p w t d a b
  | vmulF p w t d a b => exact RoundTrip.vmulF p w t d a b | vfma p w t d a b => exact RoundTrip.vfma p w t d a b
  | vminF p w t d a b => exact RoundTrip.vminF p w t d a b | vmaxF p w t d a b => exact RoundTrip.vmaxF p w t d a b
  | vabs p w t d a => exact RoundTrip.vabs p w t d a | vneg p w t d a => exact RoundTrip.vneg p w t d a
  | vcmpEqF p w t d a b => exact RoundTrip.vcmpEqF p w t d a b | vcmpLtF p w t d a b => exact RoundTrip.vcmpLtF p w t d a b
  | vcmpLeF p w t d a b => exact RoundTrip.vcmpLeF p w t d a b | vrsumF p w t d a => exact RoundTrip.vrsumF p w t d a
  | vrmax p w t d a => exact RoundTrip.vrmax p w t d a | vrmin p w t d a => exact RoundTrip.vrmin p w t d a
  | vexp2 p w t d a => exact RoundTrip.vexp2 p w t d a | vlog2 p w t d a => exact RoundTrip.vlog2 p w t d a
  | vrcp p w t d a => exact RoundTrip.vrcp p w t d a | vrsq p w t d a => exact RoundTrip.vrsq p w t d a
  | vtanh p w t d a => exact RoundTrip.vtanh p w t d a | vsilu p w t d a => exact RoundTrip.vsilu p w t d a
  | vaddI p w t d a b => exact RoundTrip.vaddI p w t d a b | vsubI p w t d a b => exact RoundTrip.vsubI p w t d a b
  | vmulI p w t d a b => exact RoundTrip.vmulI p w t d a b | vminI p w t d a b => exact RoundTrip.vminI p w t d a b
  | vmaxI p w t d a b => exact RoundTrip.vmaxI p w t d a b | vand p w d a b => exact RoundTrip.vand p w d a b
  | vor p w d a b => exact RoundTrip.vor p w d a b | vxor p w d a b => exact RoundTrip.vxor p w d a b
  | vshl p w d a b => exact RoundTrip.vshl p w d a b | vshr p w d a b => exact RoundTrip.vshr p w d a b
  | vsra p w d a b => exact RoundTrip.vsra p w d a b | vcmpEqI p w d a b => exact RoundTrip.vcmpEqI p w d a b
  | vcmpLtI p w d a b => exact RoundTrip.vcmpLtI p w d a b | vrsumI p w t d a => exact RoundTrip.vrsumI p w t d a
  | vsel p w d a b => exact RoundTrip.vsel p w d a b | vmov p w d a => exact RoundTrip.vmov p w d a
  | vbcast p w d a n => exact RoundTrip.vbcast p w d a n | vperm p w d a b => exact RoundTrip.vperm p w d a b
  | vrot p w d a n => exact RoundTrip.vrot p w d a n | vrev p w d a => exact RoundTrip.vrev p w d a
  | vcvtN p t d a h r => exact RoundTrip.vcvtN p t d a h r | vcvtW p t d a h => exact RoundTrip.vcvtW p t d a h
  | vcvtFi p w t d a r => exact RoundTrip.vcvtFi p w t d a r | vcvtIf p w t d a r => exact RoundTrip.vcvtIf p w t d a r
  | vcvtNi p d a h => exact RoundTrip.vcvtNi p d a h | vcvtWi p d a h => exact RoundTrip.vcvtWi p d a h | pNop p => exact RoundTrip.pNop p
  | pkMxint8Mm14 p q k0 r => exact RoundTrip.pkMxint8Mm14 p q k0 r | pkMxint8Mm15 p q k0 r => exact RoundTrip.pkMxint8Mm15 p q k0 r
  | pkMxint6Mm14 p q k0 r => exact RoundTrip.pkMxint6Mm14 p q k0 r | pkMxint6Mm15 p q k0 r => exact RoundTrip.pkMxint6Mm15 p q k0 r
  | pkMxint4Mm14 p q k0 r => exact RoundTrip.pkMxint4Mm14 p q k0 r | pkMxint4Mm15 p q k0 r => exact RoundTrip.pkMxint4Mm15 p q k0 r
  | pkE4m3Mm14 p q k0 r => exact RoundTrip.pkE4m3Mm14 p q k0 r | pkE4m3Mm15 p q k0 r => exact RoundTrip.pkE4m3Mm15 p q k0 r
  | pkE5m2Mm14 p q k0 r => exact RoundTrip.pkE5m2Mm14 p q k0 r | pkE5m2Mm15 p q k0 r => exact RoundTrip.pkE5m2Mm15 p q k0 r
  | pkFp6Mm14 p q k0 r => exact RoundTrip.pkFp6Mm14 p q k0 r | pkFp6Mm15 p q k0 r => exact RoundTrip.pkFp6Mm15 p q k0 r
  | pkE2m1Mm14 p q k0 r => exact RoundTrip.pkE2m1Mm14 p q k0 r | pkE2m1Mm15 p q k0 r => exact RoundTrip.pkE2m1Mm15 p q k0 r
  | uNop p => exact RoundTrip.uNop p | unpkMxint8Mm14 p q k0 r => exact RoundTrip.unpkMxint8Mm14 p q k0 r
  | unpkMxint8Mm15 p q k0 r => exact RoundTrip.unpkMxint8Mm15 p q k0 r | unpkMxint6Mm14 p q k0 r => exact RoundTrip.unpkMxint6Mm14 p q k0 r
  | unpkMxint6Mm15 p q k0 r => exact RoundTrip.unpkMxint6Mm15 p q k0 r | unpkMxint4Mm14 p q k0 r => exact RoundTrip.unpkMxint4Mm14 p q k0 r
  | unpkMxint4Mm15 p q k0 r => exact RoundTrip.unpkMxint4Mm15 p q k0 r | unpkE4m3Mm14 p q k0 r => exact RoundTrip.unpkE4m3Mm14 p q k0 r
  | unpkE4m3Mm15 p q k0 r => exact RoundTrip.unpkE4m3Mm15 p q k0 r | unpkE5m2Mm14 p q k0 r => exact RoundTrip.unpkE5m2Mm14 p q k0 r
  | unpkE5m2Mm15 p q k0 r => exact RoundTrip.unpkE5m2Mm15 p q k0 r | unpkFp6Mm14 p q k0 r => exact RoundTrip.unpkFp6Mm14 p q k0 r
  | unpkFp6Mm15 p q k0 r => exact RoundTrip.unpkFp6Mm15 p q k0 r | unpkE2m1Mm14 p q k0 r => exact RoundTrip.unpkE2m1Mm14 p q k0 r
  | unpkE2m1Mm15 p q k0 r => exact RoundTrip.unpkE2m1Mm15 p q k0 r | aNop p => exact RoundTrip.aNop p
  | cpy p r n a b c x => exact RoundTrip.cpy p r n a b c x | gat p r n a b c x => exact RoundTrip.gat p r n a b c x
  | sct p r n a b c x => exact RoundTrip.sct p r n a b c x | mcastQ p r n a b c x => exact RoundTrip.mcastQ p r n a b c x
  | rst p r n a b c x => exact RoundTrip.rst p r n a b c x | rld p r n a b c x => exact RoundTrip.rld p r n a b c x
  | rred p r n a b c x => exact RoundTrip.rred p r n a b c x | rflush p r n a b c => exact RoundTrip.rflush p r n a b c
  | coll p r n a b c x => exact RoundTrip.coll p r n a b c x | disp p r n a b c x => exact RoundTrip.disp p r n a b c x
  | ccpy p r n a b c x => exact RoundTrip.ccpy p r n a b c x | task p r n a b c x => exact RoundTrip.task p r n a b c x
  | ctadd p r n a b y x => exact RoundTrip.ctadd p r n a b y x | ctraise p r n a b y x => exact RoundTrip.ctraise p r n a b y x
  | ctpoll p r n a d y x => exact RoundTrip.ctpoll p r n a d y x | frecRd p r n a b c x => exact RoundTrip.frecRd p r n a b c x
  | frecWr p r n a b c x => exact RoundTrip.frecWr p r n a b c x
  | _ => exact roundTrip_of_noSlot rfl

end Sys2Proof.Proofs
end

section
/-! PROOFS. A bundle of which one slot alone is occupied (R138, R146). -/

namespace Sys2Proof.Proofs

open Sys2Proof Sys2Proof.Machine

/-! ## The fields of a bundle that holds one word -/

theorem toNat_ofNat_of_lt {w v : Nat} (h : v < 2 ^ w) : (BitVec.ofNat w v).toNat = v := (BitVec.toNat_ofNat v w).trans (Nat.mod_eq_of_lt h)

theorem slotField_eq (b : BitVec 384) (lo w : Nat) : slotField b lo w = b.toNat / 2 ^ lo % 2 ^ w := by
  rw [slotField, BitVec.extractLsb'_toNat, Nat.shiftRight_eq_div_pow]

section
variable {x lo w : Nat} (hx : x < 2 ^ w) (hw : lo + w ≤ 384)
include hx

theorem shifted_lt {n : Nat} (hn : lo + w ≤ n) : x * 2 ^ lo < 2 ^ n := by
  calc x * 2 ^ lo < 2 ^ w * 2 ^ lo := Nat.mul_lt_mul_of_pos_right hx (Nat.two_pow_pos lo)
    _ = 2 ^ (lo + w) := by rw [Nat.pow_add, Nat.mul_comm]
    _ ≤ 2 ^ n := Nat.pow_le_pow_right (by decide) hn

include hw

theorem slotField_word (off v : Nat) : slotField (BitVec.ofNat 384 (x * 2 ^ lo)) off v = x * 2 ^ lo / 2 ^ off % 2 ^ v := by
  rw [slotField_eq, toNat_ofNat_of_lt (shifted_lt hx hw)]

/-- The slot that holds the word. -/
theorem slotField_own : slotField (BitVec.ofNat 384 (x * 2 ^ lo)) lo w = x := by
  rw [slotField_word hx hw, Nat.mul_div_cancel _ (Nat.two_pow_pos _), Nat.mod_eq_of_lt hx]

/-- A field that begins where the word has ended. -/
theorem slotField_above {off v : Nat} (h : lo + w ≤ off) : slotField (BitVec.ofNat 384 (x * 2 ^ lo)) off v = 0 := by
  rw [slotField_word hx hw, Nat.div_eq_of_lt (shifted_lt hx h), Nat.zero_mod]

/-- A field that ends before the word begins. -/
theorem slotField_below {off v : Nat} (h : off + v ≤ lo) : slotField (BitVec.ofNat 384 (x * 2 ^ lo)) off v = 0 := by
  obtain ⟨d, rfl⟩ := Nat.exists_eq_add_of_le h
  have hsplit : x * 2 ^ (off + v + d) = x * 2 ^ d * 2 ^ v * 2 ^ off := by
    rw [Nat.pow_add, Nat.pow_add, Nat.mul_comm (2 ^ off * 2 ^ v), Nat.mul_comm (2 ^ off), ← Nat.mul_assoc, ← Nat.mul_assoc]
  rw [slotField_word hx hw, hsplit, Nat.mul_div_cancel _ (Nat.two_pow_pos _), Nat.mul_mod_left]

end

/-! ## Its slots decoded and checked -/

/-- The slots of the table follow one another downwards, below the three bits from 376 on (R138). -/
theorem slotTable_apart : slotTable.Pairwise fun d e => e.2.2.1 + e.2.2.2 ≤ d.2.2.1 := by decide

theorem slotTable_le : ∀ e ∈ slotTable, e.2.2.1 + e.2.2.2 ≤ 376 := by decide

/-- Slots that are not occupied are passed over (R42). -/
theorem decodeSlots_append_of_zero (c : Core) (b : BitVec 384) (l l' : List (Nat × SlotClass × Nat × Nat)) (acc : List SlotOp)
    (h : ∀ e ∈ l, slotField b e.2.2.1 e.2.2.2 = 0) : decodeSlots c b (l ++ l') acc = decodeSlots c b l' acc := by
  induction l with
  | nil => rfl
  | cons e l ih =>
    rw [List.forall_mem_cons] at h
    rw [List.cons_append, decodeSlots, if_pos h.1, ih h.2]

/-- An occupied slot that holds an operation within the kernel's own limits stands among the operations of its bundle. -/
theorem decodeSlots_cons_ok {c : Core} {b : BitVec 384} {n lo w : Nat} {k : SlotClass} {i : Instr} (h0 : slotField b lo w ≠ 0)
    (hd : decodeSlot k (slotField b lo w) = .ok i) (hi : progOk c i = true) (l : List (Nat × SlotClass × Nat × Nat)) (acc : List SlotOp) :
    decodeSlots c b ((n, k, lo, w) :: l) acc = decodeSlots c b l ((n, i) :: acc) := by
  simp only [decodeSlots, h0, if_false, hd, hi, if_true]

/-- An occupied slot that holds no instruction is the one that the decoding ends with (R146). -/
theorem decodeSlots_cons_err {c : Core} {b : BitVec 384} {n lo w : Nat} {k : SlotClass} {r : DecodeError} (h0 : slotField b lo w ≠ 0)
    (hd : decodeSlot k (slotField b lo w) = .err r) (l : List (Nat × SlotClass × Nat × Nat)) (acc : List SlotOp) :
    decodeSlots c b ((n, k, lo, w) :: l) acc = .inl n := by
  simp only [decodeSlots, h0, if_false, hd]

section
variable (c : Core) {n lo w x : Nat} {k : SlotClass} (he : (n, k, lo, w) ∈ slotTable) (h0 : x ≠ 0) (hx : x < 2 ^ w)
include he hx

theorem slotField_own_of_mem : slotField (BitVec.ofNat 384 (x * 2 ^ lo)) lo w = x :=
  slotField_own hx (Nat.le_trans (slotTable_le _ he) (by decide))

/-- The slots before the one that holds the word are passed over, and those after it are not occupied. -/
theorem decodeSlots_word : ∃ l, decodeSlots c (BitVec.ofNat 384 (x * 2 ^ lo)) slotTable [] =
      decodeSlots c (BitVec.ofNat 384 (x * 2 ^ lo)) ((n, k, lo, w) :: l) [] ∧
    ∀ d ∈ l, slotField (BitVec.ofNat 384 (x * 2 ^ lo)) d.2.2.1 d.2.2.2 = 0 := by
  have hw : lo + w ≤ 384 := Nat.le_trans (slotTable_le _ he) (by decide)
  obtain ⟨before, after, htable⟩ := List.append_of_mem he
  obtain ⟨-, hbelow, habove⟩ := List.pairwise_append.mp (htable ▸ slotTable_apart)
  refine ⟨after, ?_, fun d hd => slotField_below hx hw ((List.pairwise_cons.mp hbelow).1 d hd)⟩
  rw [htable]
  exact decodeSlots_append_of_zero c _ before _ _ fun d hd => slotField_above hx hw (habove d hd _ List.mem_cons_self)

include h0

theorem decodeSlots_word_ok {i : Instr} (hd : decodeSlot k x = .ok i) (hi : progOk c i = true) :
    decodeSlots c (BitVec.ofNat 384 (x * 2 ^ lo)) slotTable [] = .inr [(n, i)] := by
  have hown := slotField_own_of_mem he hx
  obtain ⟨after, hgo, hzero⟩ := decodeSlots_word c he hx
  rw [hgo, decodeSlots_cons_ok (hown.symm ▸ h0) (hown.symm ▸ hd) hi, ← List.append_nil after, decodeSlots_append_of_zero c _ after [] _ hzero]
  rfl

theorem decodeSlots_word_err {r : DecodeError} (hd : decodeSlot k x = .err r) :
    decodeSlots c (BitVec.ofNat 384 (x * 2 ^ lo)) slotTable [] = .inl n := by
  have hown := slotField_own_of_mem he hx
  obtain ⟨after, hgo, -⟩ := decodeSlots_word c he hx
  rw [hgo, decodeSlots_cons_err (hown.symm ▸ h0) (hown.symm ▸ hd)]

omit h0 in
/-- The three reserved bits lie above every slot (R138). -/
theorem reserved_word : ((BitVec.ofNat 384 (x * 2 ^ lo)).extractLsb' 376 3 != 0) = false := by
  have hfield : slotField (BitVec.ofNat 384 (x * 2 ^ lo)) 376 3 = 0 :=
    slotField_above hx (Nat.le_trans (slotTable_le _ he) (by decide)) (slotTable_le _ he)
  rw [bne_eq_false_iff_eq]
  exact BitVec.eq_of_toNat_eq hfield

/-- A bundle with one word that decodes, and which the checks let pass, gives the one operation in its slot (R145). -/
theorem checkBundle_word_ok {i : Instr} (hd : decodeSlot k x = .ok i) (hi : progOk c i = true) (hb : bundleFault [(n, i)] = none) :
    checkBundle c (BitVec.ofNat 384 (x * 2 ^ lo)) = .inr [(n, i)] := by
  simp only [checkBundle, reserved_word he hx, Bool.false_eq_true, if_false, decodeSlots_word_ok c he h0 hx hd hi, hb]

/-- A bundle with one word that is no instruction is ILLEGAL_SLOT at its slot (R146). -/
theorem checkBundle_word_err {r : DecodeError} (hd : decodeSlot k x = .err r) :
    checkBundle c (BitVec.ofNat 384 (x * 2 ^ lo)) = .inl (0x01, n) := by
  simp only [checkBundle, reserved_word he hx, Bool.false_eq_true, if_false, decodeSlots_word_err c he h0 hx hd]

end

end Sys2Proof.Proofs
end

section
/-! PROOFS. Opcode 0 is the nop of every class of slot (R140). -/

namespace Sys2Proof.Proofs

open Sys2Proof Sys2Proof.Machine

/-! ## The three parts of a word with opcode 0 -/

section
variable {lo m p y : Nat} (hy : y < 2 ^ lo) (hp : p < 16)

/-- The predicate stands a multiple of the low part's size up. -/
theorem word_eq_mul_add (lo m p y : Nat) : p * 2 ^ (lo + m) + y = 2 ^ lo * (p * 2 ^ m) + y := by
  rw [Nat.pow_add, Nat.mul_left_comm]

include hy

theorem word_div_low : (p * 2 ^ (lo + m) + y) / 2 ^ lo = p * 2 ^ m := by
  rw [word_eq_mul_add, Nat.mul_add_div (Nat.two_pow_pos lo), Nat.div_eq_of_lt hy, Nat.add_zero]

theorem fld_low (hlo : 0 < lo) : fld (p * 2 ^ (lo + m) + y) (lo - 1) 0 = y := by
  have hwidth : lo - 1 - 0 + 1 = lo := by omega
  rw [fld, hwidth, Nat.pow_zero, Nat.div_one, word_eq_mul_add, Nat.mul_add_mod, Nat.mod_eq_of_lt hy]

theorem fld_opcode (hm : 0 < m) : fld (p * 2 ^ (lo + m) + y) (lo + m - 1) lo = 0 := by
  have hwidth : lo + m - 1 - lo + 1 = m := by omega
  rw [fld, hwidth, word_div_low hy, Nat.mul_mod_left]

include hp

theorem fld_guard : fld (p * 2 ^ (lo + m) + y) (lo + m + 3) (lo + m) = p := by
  have hwidth : lo + m + 3 - (lo + m) + 1 = 4 := by omega
  have hdiv : (p * 2 ^ (lo + m) + y) / 2 ^ (lo + m) = p := by
    rw [Nat.pow_add 2 lo m, ← Nat.div_div_eq_div_mul, ← Nat.pow_add, word_div_low hy, Nat.mul_div_cancel _ (Nat.two_pow_pos _)]
  rw [fld, hwidth, hdiv]
  exact Nat.mod_eq_of_lt hp

theorem word_lt : p * 2 ^ (lo + m) + y < 2 ^ (lo + m + 4) := by
  have hlow : y < 2 ^ (lo + m) := Nat.lt_of_lt_of_le hy (Nat.pow_le_pow_right (by decide) (by omega))
  calc p * 2 ^ (lo + m) + y < (p + 1) * 2 ^ (lo + m) := by rw [Nat.add_mul, Nat.one_mul]; omega
    _ ≤ 16 * 2 ^ (lo + m) := Nat.mul_le_mul_right _ hp
    _ = 2 ^ (lo + m + 4) := by rw [Nat.pow_add 2 (lo + m) 4, Nat.mul_comm]

end

/-! ## The nop of a class -/

/-- A class of slots of `lo + m + 4` bits, the opcode in the `m` bits above the low `lo`, reads opcode 0 as its nop. -/
structure ReadsNop (k : SlotClass) (lo m : Nat) (nop : Nat → Instr) : Prop where
  low_pos : 0 < lo
  opcode_pos : 0 < m
  decode : ∀ w, w < 2 ^ (lo + m + 4) → fld w (lo + m - 1) lo = 0 →
    decodeSlot k w = decForm (fld w (lo - 1) 0 == 0) (nop (fld w (lo + m + 3) (lo + m)))
  wf : ∀ p, p < 16 → (nop p).wf = true
  prog : ∀ c p, progOk c (nop p) = true
  exec : ∀ p s, exec (nop p) s = .next s
  guard : ∀ p, (foot (nop p)).guard = p

theorem readsNop_c : ReadsNop .c 15 5 .cNop :=
  ⟨by decide, by decide, fun w hw hop => (if_neg (Nat.not_le.mpr hw)).trans (congrArg (decCOp · w) hop), fun _ => decide_eq_true, fun _ _ => rfl,
    fun _ _ => rfl, fun _ => rfl⟩

theorem readsNop_s : ReadsNop .s 18 6 .sNop :=
  ⟨by decide, by decide, fun w hw hop => (if_neg (Nat.not_le.mpr hw)).trans (congrArg (decSOp · w) hop), fun _ => decide_eq_true, fun _ _ => rfl,
    fun _ _ => rfl, fun _ => rfl⟩

theorem readsNop_l : ReadsNop .l 19 5 .lNop :=
  ⟨by decide, by decide, fun w hw hop => (if_neg (Nat.not_le.mpr hw)).trans (congrArg (decLOp · w) hop), fun _ => decide_eq_true, fun _ _ => rfl,
    fun _ _ => rfl, fun _ => rfl⟩

theorem readsNop_w : ReadsNop .w 19 5 .wNop :=
  ⟨by decide, by decide, fun w hw hop => (if_neg (Nat.not_le.mpr hw)).trans (congrArg (decWOp · w) hop), fun _ => decide_eq_true, fun _ _ => rfl,
    fun _ _ => rfl, fun _ => rfl⟩

theorem readsNop_g : ReadsNop .g 22 6 .gNop :=
  ⟨by decide, by decide, fun w hw hop => (if_neg (Nat.not_le.mpr hw)).trans (congrArg (decGOp · w) hop), fun _ => decide_eq_true, fun _ _ => rfl,
    fun _ _ => rfl, fun _ => rfl⟩

theorem readsNop_x : ReadsNop .x 23 5 .xNop :=
  ⟨by decide, by decide, fun w hw hop => (if_neg (Nat.not_le.mpr hw)).trans (congrArg (decXOp · w) hop), fun _ => decide_eq_true, fun _ _ => rfl,
    fun _ _ => rfl, fun _ => rfl⟩

theorem readsNop_v : ReadsNop .v 37 7 .vNop :=
  ⟨by decide, by decide, fun w hw hop => (if_neg (Nat.not_le.mpr hw)).trans (congrArg (decVOp · w) hop), fun _ => decide_eq_true, fun _ _ => rfl,
    fun _ _ => rfl, fun _ => rfl⟩

theorem readsNop_p : ReadsNop .p 16 4 .pNop :=
  ⟨by decide, by decide, fun w hw hop => (if_neg (Nat.not_le.mpr hw)).trans (congrArg (decPOp · w) hop), fun _ => decide_eq_true, fun _ _ => rfl,
    fun _ _ => rfl, fun _ => rfl⟩

theorem readsNop_u : ReadsNop .u 16 4 .uNop :=
  ⟨by decide, by decide, fun w hw hop => (if_neg (Nat.not_le.mpr hw)).trans (congrArg (decUOp · w) hop), fun _ => decide_eq_true, fun _ _ => rfl,
    fun _ _ => rfl, fun _ => rfl⟩

theorem readsNop_a : ReadsNop .a 22 6 .aNop :=
  ⟨by decide, by decide, fun w hw hop => (if_neg (Nat.not_le.mpr hw)).trans (congrArg (decAOp · w) hop), fun _ => decide_eq_true, fun _ _ => rfl,
    fun _ _ => rfl, fun _ => rfl⟩

/-- A word with opcode 0 is decoded by what lies below its predicate. -/
theorem decodeSlot_nop {k : SlotClass} {lo m p y : Nat} {nop : Nat → Instr} (hk : ReadsNop k lo m nop) (hp : p < 16) (hy : y < 2 ^ lo) :
    decodeSlot k (p * 2 ^ (lo + m) + y) = decForm (y == 0) (nop p) := by
  rw [hk.decode _ (word_lt hy hp) (fld_opcode hy hk.opcode_pos), fld_low hy hk.low_pos, fld_guard hy hp]

/-- What R140 says of the nop of a class. -/
theorem nop_of_readsNop {k : SlotClass} {lo m p y : Nat} {nop : Nat → Instr} (hk : ReadsNop k lo m nop) (hp : p < 16) (hy : y < 2 ^ lo) :
    (y = 0 → decodeSlot k (p * 2 ^ (lo + m) + y) = .ok (nop p)) ∧
    (y ≠ 0 → ∃ r, decodeSlot k (p * 2 ^ (lo + m) + y) = .err r) ∧
    (∀ s, exec (nop p) s = .next s) ∧ (foot (nop p)).guard = p ∧
    (∀ (c : Core) (b : BitVec 384) (n off : Nat) (l : List (Nat × SlotClass × Nat × Nat)) (acc : List SlotOp), p ≠ 0 →
      slotField b off (lo + m + 4) = p * 2 ^ (lo + m) →
      decodeSlots c b ((n, k, off, lo + m + 4) :: l) acc = decodeSlots c b l ((n, nop p) :: acc)) := by
  have hzero : decodeSlot k (p * 2 ^ (lo + m)) = .ok (nop p) :=
    (decodeSlot_nop (y := 0) hk hp (Nat.two_pow_pos lo)).trans (Laws.RoundTrip.decForm_ok rfl (hk.wf p hp))
  refine ⟨fun h0 => ?_, fun h0 => ⟨.nonzeroField, ?_⟩, hk.exec p, hk.guard p, fun c b n off l acc hp0 hf => ?_⟩
  · rw [h0]
    exact hzero
  · rw [decodeSlot_nop hk hp hy, beq_false_of_ne h0]
    rfl
  · have hne : slotField b off (lo + m + 4) ≠ 0 := by
      rw [hf]
      exact Nat.mul_ne_zero hp0 (Nat.ne_of_gt (Nat.two_pow_pos _))
    exact decodeSlots_cons_ok hne (hf ▸ hzero) (hk.prog c p) l acc

/-- Settles O57: each class reads opcode 0 as its nop, whose meaning is to change nothing. -/
theorem nopInEverySlot : Obligations.NopInEverySlot := by
  unfold Obligations.NopInEverySlot
  intro p y hp
  simp only [List.forall_mem_cons]
  exact ⟨nop_of_readsNop readsNop_c hp, nop_of_readsNop readsNop_s hp, nop_of_readsNop readsNop_l hp, nop_of_readsNop readsNop_w hp,
    nop_of_readsNop readsNop_g hp, nop_of_readsNop readsNop_x hp, nop_of_readsNop readsNop_v hp, nop_of_readsNop readsNop_p hp,
    nop_of_readsNop readsNop_u hp, nop_of_readsNop readsNop_a hp, fun _ h => nomatch h⟩

end Sys2Proof.Proofs
end

section
/-! PROOFS. Tokens of the asynchronous operations (R160 to R162). -/

namespace Sys2Proof.Proofs

open Sys2Proof Sys2Proof.Machine

/-! ## A word of the A map -/

/-- The fields of an A operation within their widths (R160). -/
structure AFields (p r n a b c x : Nat) : Prop where
  p_lt : p < 16
  r_lt : r < 16
  n_lt : n < 4
  a_lt : a < 16
  b_lt : b < 16
  c_lt : c < 16
  x_lt : x < 16

/-- A word of the A map by its fields (R160). -/
def aWord (op p r n a b c x : Nat) : Nat := p * 2 ^ 28 + op * 2 ^ 22 + r * 2 ^ 18 + n * 2 ^ 16 + a * 2 ^ 12 + b * 2 ^ 8 + c * 2 ^ 4 + x

section
variable {op p r n a b c x : Nat} (h : AFields p r n a b c x) (hop : op < 64)
include h hop

theorem aWord_lt : aWord op p r n a b c x < 2 ^ 32 := by
  obtain ⟨hp, hr, hn, ha, hb, hc, hx⟩ := h
  unfold aWord
  omega

omit h hop in
theorem aWord_ne_zero (hop0 : op ≠ 0) : aWord op p r n a b c x ≠ 0 := by
  unfold aWord
  omega

/-- Each field of the word is read where it stands. -/
theorem fld_aWord : let w := aWord op p r n a b c x
    fld w 31 28 = p ∧ fld w 27 22 = op ∧ fld w 21 18 = r ∧ fld w 17 16 = n ∧ fld w 15 12 = a ∧ fld w 11 8 = b ∧ fld w 7 4 = c ∧ fld w 3 0 = x := by
  obtain ⟨hp, hr, hn, ha, hb, hc, hx⟩ := h
  unfold aWord fld
  omega

theorem decodeSlot_aWord : decodeSlot .a (aWord op p r n a b c x) = decAOp op (aWord op p r n a b c x) := by
  obtain ⟨-, hfld, -⟩ := fld_aWord h hop
  have hmap : decodeSlot .a (aWord op p r n a b c x) = decAOp (fld (aWord op p r n a b c x) 27 22) (aWord op p r n a b c x) :=
    if_neg (Nat.not_le.mpr (aWord_lt h hop))
  rw [hmap, hfld]

end

/-! ## The token lists that a count allows (R162) -/

theorem tokList1_iff (n a r : Nat) (hn : n ≤ 1) : tokList1 n a r = true ↔ (n < 1 → a = 0) ∧ ¬r ∈ [a].take n := by
  obtain rfl | rfl : n = 0 ∨ n = 1 := by omega
  all_goals simp [tokList1, @eq_comm _ r]

theorem tokList2_iff (n a b r : Nat) (hn : n ≤ 2) :
    tokList2 n a b r = true ↔ (n < 1 → a = 0) ∧ (n < 2 → b = 0) ∧ ¬r ∈ [a, b].take n := by
  obtain rfl | rfl | rfl : n = 0 ∨ n = 1 ∨ n = 2 := by omega
  all_goals simp [tokList2, @eq_comm _ r, and_comm]

theorem tokList3_iff (n a b c r : Nat) (hn : n ≤ 3) :
    tokList3 n a b c r = true ↔ ((n < 1 → a = 0) ∧ (n < 2 → b = 0) ∧ (n < 3 → c = 0)) ∧ ¬r ∈ [a, b, c].take n := by
  obtain rfl | rfl | rfl | rfl : n = 0 ∨ n = 1 ∨ n = 2 ∨ n = 3 := by omega
  all_goals simp [tokList3, @eq_comm _ r, and_assoc, and_comm]

/-! ## Decoded or refused -/

/-- A word whose slot is refused, and the bundle that holds it alone with it, as ILLEGAL_SLOT at slot 0 (R146). -/
def ARefused (w : Nat) : Prop := (∃ e, decodeSlot .a w = .err e) ∧ ∀ k, checkBundle k (BitVec.ofNat 384 w) = .inl (0x01, 0)

/-- The form of seven fields that the A map gives an opcode. -/
def AForm (op : Nat) (f : Nat → Nat → Nat → Nat → Nat → Nat → Nat → Instr) : Prop :=
  ∀ w, decAOp op w = decForm true (f (fld w 31 28) (fld w 21 18) (fld w 17 16) (fld w 15 12) (fld w 11 8) (fld w 7 4) (fld w 3 0))

theorem aForm_cpy : AForm 0x01 .cpy := fun _ => rfl
theorem aForm_gat : AForm 0x02 .gat := fun _ => rfl
theorem aForm_sct : AForm 0x03 .sct := fun _ => rfl
theorem aForm_mcastQ : AForm 0x04 .mcastQ := fun _ => rfl
theorem aForm_rst : AForm 0x05 .rst := fun _ => rfl
theorem aForm_rld : AForm 0x06 .rld := fun _ => rfl
theorem aForm_rred : AForm 0x07 .rred := fun _ => rfl
theorem aForm_coll : AForm 0x09 .coll := fun _ => rfl
theorem aForm_disp : AForm 0x0A .disp := fun _ => rfl
theorem aForm_ccpy : AForm 0x0B .ccpy := fun _ => rfl
theorem aForm_task : AForm 0x0C .task := fun _ => rfl
theorem aForm_ctadd : AForm 0x0D .ctadd := fun _ => rfl
theorem aForm_ctraise : AForm 0x0E .ctraise := fun _ => rfl
theorem aForm_ctpoll : AForm 0x0F .ctpoll := fun _ => rfl
theorem aForm_frecRd : AForm 0x10 .frecRd := fun _ => rfl
theorem aForm_frecWr : AForm 0x11 .frecWr := fun _ => rfl

section
variable {op p r n a b c x : Nat} (h : AFields p r n a b c x) (hop : op < 64) (hop0 : op ≠ 0)
include h hop hop0

/-- A form is decoded exactly when its fields keep their limits. -/
theorem ok_or_refused {i : Instr} {P : Prop} (hd : decAOp op (aWord op p r n a b c x) = decForm true i) (hwf : i.wf = true ↔ P) :
    (P → decodeSlot .a (aWord op p r n a b c x) = .ok i) ∧ (¬P → ARefused (aWord op p r n a b c x)) := by
  have hslot := (decodeSlot_aWord h hop).trans hd
  refine ⟨fun hP => hslot.trans (Laws.RoundTrip.decForm_ok rfl (hwf.mpr hP)), fun hP => ?_⟩
  have herr : decodeSlot .a (aWord op p r n a b c x) = .err .fieldLimit := hslot.trans (if_neg (mt hwf.mp hP))
  refine ⟨⟨_, herr⟩, fun k => ?_⟩
  have hmem : (0, SlotClass.a, 0, 32) ∈ slotTable := by decide
  have hcheck := checkBundle_word_err k hmem (aWord_ne_zero hop0) (aWord_lt h hop) herr
  rwa [Nat.pow_zero, Nat.mul_one] at hcheck

variable {f : Nat → Nat → Nat → Nat → Nat → Nat → Nat → Instr} (hf : AForm op f)
include hf

theorem ok_or_refused_of_aForm {P : Prop} (hwf : (f p r n a b c x).wf = true ↔ P) :
    (P → decodeSlot .a (aWord op p r n a b c x) = .ok (f p r n a b c x)) ∧ (¬P → ARefused (aWord op p r n a b c x)) := by
  obtain ⟨hp, -, hr, hn, ha, hb, hc, hx⟩ := fld_aWord h hop
  refine ok_or_refused h hop hop0 ?_ hwf
  rw [hf, hp, hr, hn, ha, hb, hc, hx]

/-- A form with three token fields. -/
theorem threeTokens
    (hwf : (f p r n a b c x).wf = decide (p < 16 ∧ r < 16 ∧ n < 4 ∧ a < 16 ∧ b < 16 ∧ c < 16 ∧ x < 16 ∧ tokList3 n a b c r = true)) :
    let ends := (n < 1 → a = 0) ∧ (n < 2 → b = 0) ∧ (n < 3 → c = 0)
    let other := ¬r ∈ [a, b, c].take n
    (ends → other → decodeSlot .a (aWord op p r n a b c x) = .ok (f p r n a b c x)) ∧ (¬(ends ∧ other) → ARefused (aWord op p r n a b c x)) := by
  obtain ⟨hp, hr, hn, ha, hb, hc, hx⟩ := h
  have hlimits : (f p r n a b c x).wf = true ↔ tokList3 n a b c r = true := by
    simp only [hwf, decide_eq_true_eq, hp, hr, hn, ha, hb, hc, hx, true_and]
  have hall := ok_or_refused_of_aForm ⟨hp, hr, hn, ha, hb, hc, hx⟩ hop hop0 hf (hlimits.trans (tokList3_iff n a b c r (Nat.le_of_lt_succ hn)))
  exact ⟨fun he ho => hall.1 ⟨he, ho⟩, hall.2⟩

/-- A form with two token fields, whose count is at most 2. -/
theorem twoTokens
    (hwf : (f p r n a b c x).wf = decide (p < 16 ∧ r < 16 ∧ n < 4 ∧ a < 16 ∧ b < 16 ∧ c < 16 ∧ x < 16 ∧ n ≤ 2 ∧ tokList2 n a b r = true)) :
    let good := n ≤ 2 ∧ (n < 1 → a = 0) ∧ (n < 2 → b = 0) ∧ ¬r ∈ [a, b].take n
    (good → decodeSlot .a (aWord op p r n a b c x) = .ok (f p r n a b c x)) ∧ (¬good → ARefused (aWord op p r n a b c x)) := by
  obtain ⟨hp, hr, hn, ha, hb, hc, hx⟩ := h
  refine ok_or_refused_of_aForm ⟨hp, hr, hn, ha, hb, hc, hx⟩ hop hop0 hf ?_
  simp only [hwf, decide_eq_true_eq, hp, hr, hn, ha, hb, hc, hx, true_and]
  exact and_congr_right (tokList2_iff n a b r)

end

theorem wf_ctpoll (p r n a d y x : Nat) : (Instr.ctpoll p r n a d y x).wf =
    decide (p < 16 ∧ r < 16 ∧ n < 4 ∧ a < 16 ∧ d < 16 ∧ y < 16 ∧ x < 16 ∧ n ≤ 1 ∧ tokList1 n a r = true ∧ 1 ≤ d) := rfl

/-- `ctpoll`, with one token field, whose count is at most 1, and a predicate other than p0. -/
theorem ctpoll_tokens {p r n a d y x : Nat} (h : AFields p r n a d y x) (hd : d ≠ 0) :
    let w := aWord 0x0F p r n a d y x
    let good := n ≤ 1 ∧ (n < 1 → a = 0) ∧ ¬r ∈ [a].take n
    (good → decodeSlot .a w = .ok (.ctpoll p r n a d y x)) ∧ (¬good → ARefused w) := by
  obtain ⟨hp, hr, hn, ha, hb, hc, hx⟩ := h
  refine ok_or_refused_of_aForm ⟨hp, hr, hn, ha, hb, hc, hx⟩ (by decide) (by decide) aForm_ctpoll ?_
  simp only [wf_ctpoll, decide_eq_true_eq, hp, hr, hn, ha, hb, hc, hx, Nat.one_le_iff_ne_zero.mpr hd, true_and, and_true]
  exact and_congr_right (tokList1_iff n a r)

theorem decAOp_rflush (w : Nat) : decAOp 0x08 w =
    decForm (fld w 3 0 == 0) (.rflush (fld w 31 28) (fld w 21 18) (fld w 17 16) (fld w 15 12) (fld w 11 8) (fld w 7 4)) := rfl

theorem wf_rflush (p r n a b c : Nat) : (Instr.rflush p r n a b c).wf =
    decide (p < 16 ∧ r < 16 ∧ n < 4 ∧ a < 16 ∧ b < 16 ∧ c < 16 ∧ tokList3 n a b c r = true) := rfl

/-- `rflush`, with three token fields and the lowest field zero. -/
theorem rflush_tokens {p r n a b c : Nat} (h : AFields p r n a b c 0) :
    let w := aWord 0x08 p r n a b c 0
    let ends := (n < 1 → a = 0) ∧ (n < 2 → b = 0) ∧ (n < 3 → c = 0)
    let other := ¬r ∈ [a, b, c].take n
    (ends → other → decodeSlot .a w = .ok (.rflush p r n a b c)) ∧ (¬(ends ∧ other) → ARefused w) := by
  intro w ends other
  obtain ⟨hfp, -, hfr, hfn, hfa, hfb, hfc, hfx⟩ := fld_aWord h (op := 0x08) (by decide)
  have hd : decAOp 0x08 w = decForm true (.rflush p r n a b c) := by
    rw [decAOp_rflush, hfp, hfr, hfn, hfa, hfb, hfc, hfx, beq_self_eq_true]
  have hlimits : (Instr.rflush p r n a b c).wf = true ↔ tokList3 n a b c r = true := by
    simp only [wf_rflush, decide_eq_true_eq, h.p_lt, h.r_lt, h.n_lt, h.a_lt, h.b_lt, h.c_lt, true_and]
  have hall := ok_or_refused h (by decide) (by decide) hd (hlimits.trans (tokList3_iff n a b c r (Nat.le_of_lt_succ h.n_lt)))
  exact ⟨fun he ho => hall.1 ⟨he, ho⟩, hall.2⟩

/-! ## A token named twice -/

theorem mayStart_eraseDups (s : State) (c : Nat) (x : Cmd) : mayStart s c { x with cons := x.cons.eraseDups } = mayStart s c x := by
  have hall : ∀ q : Nat → Bool, x.cons.eraseDups.all q = x.cons.all q := fun q => by
    rw [Bool.eq_iff_iff, List.all_eq_true, List.all_eq_true]
    simp only [List.mem_eraseDups]
  simp only [mayStart, startable, hall]
  rfl

/-- Settles O58: each form of the A map by its count of token fields, what a command waits for, and the nop. -/
theorem tokensOfAsynchronousOperations : Obligations.TokensOfAsynchronousOperations := by
  unfold Obligations.TokensOfAsynchronousOperations
  refine ⟨fun p r n a b c x hp hr hn ha hb hc hx => ?_, mayStart_eraseDups, fun _ _ => rfl⟩
  have h : AFields p r n a b c x := ⟨hp, hr, hn, ha, hb, hc, hx⟩
  have three := fun {op f} (hop : op < 64 ∧ op ≠ 0) (hf : AForm op f) => threeTokens h hop.1 hop.2 hf
  have two := fun {op f} (hop : op < 64 ∧ op ≠ 0) (hf : AForm op f) => twoTokens h hop.1 hop.2 hf
  have hflush := rflush_tokens { h with x_lt := by decide }
  simp only [aWord, Nat.add_zero] at hflush
  intro head refused ends other
  refine ⟨?_, hflush, ?_, fun hb0 => ctpoll_tokens h hb0⟩
  · simp only [List.forall_mem_cons]
    exact ⟨three (by decide) aForm_cpy rfl, three (by decide) aForm_gat rfl, three (by decide) aForm_sct rfl, three (by decide) aForm_mcastQ rfl,
      three (by decide) aForm_rst rfl, three (by decide) aForm_rld rfl, three (by decide) aForm_rred rfl, three (by decide) aForm_coll rfl,
      three (by decide) aForm_disp rfl, three (by decide) aForm_ccpy rfl, three (by decide) aForm_task rfl, three (by decide) aForm_frecRd rfl,
      three (by decide) aForm_frecWr rfl, fun _ he => nomatch he⟩
  · simp only [List.forall_mem_cons]
    exact ⟨two (by decide) aForm_ctadd rfl, two (by decide) aForm_ctraise rfl, fun _ he => nomatch he⟩

end Sys2Proof.Proofs
end

section
/-! PROOFS. A step runs what the agenda names or what comes by default, and fetch puts up what a bundle's slots decode to (R141 to R145). -/

namespace Sys2Proof.Proofs

open Sys2Proof Sys2Proof.Machine

/-! ## A step -/

theorem step_agenda {s : State} {i : Instr} {l : List Instr} (h : s.agenda = i :: l) : step s = run i { s with agenda := l } := by
  simp only [step, h]

theorem step_turn {s : State} (h : s.agenda = []) (ht : s.turn < 192) : step s = run (.bundleFetch s.turn) { s with turn := s.turn + 1 } := by
  simp only [step, h, defaultStep, ht, if_true]

theorem step_clock {s : State} (h : s.agenda = []) (ht : 192 ≤ s.turn) : step s = close (.next (clockEdge (firstChange s (ownEvents s)))) := by
  simp only [step, h, defaultStep, Nat.not_lt.mpr ht, if_false]

/-! ## The cycle of a core -/

/-- What a cycle begins with: what has finished retires (R231), and the cycle is counted as had. -/
def cycleBegins (s : State) (c : Nat) : State :=
  modCore s c fun k =>
    let k := ratBegin (fillFinish (xRetire k))
    { k with lines := if 0 < k.q.bankHold then k.lines else [], q := { k.q with last := s.now + 1, heldBy := 0 } }

theorem bundleFetch_idle {s : State} {c : Nat} (h : 192 ≤ c ∨ s.issue ≠ none ∨ s.now < (coreAt s c).q.last) : exec (.bundleFetch c) s = .next s := by
  have hidle : (192 ≤ c || s.issue.isSome || s.now < (coreAt s c).q.last) = true := by
    simpa [Option.isSome_iff_ne_none, or_assoc] using h
  simp only [exec_bundleFetch, execBundleFetch, hidle, if_true]

/-- A core's cycle begins without a word to the decision log. -/
theorem rplMode_modCore (s : State) (c : Nat) (f : Core → Core) : rplMode (modCore s c f) = rplMode s := rfl

theorem bundleFetch_cycle {s : State} {c : Nat} (hc : c < 192) (hi : s.issue = none) (hl : (coreAt s c).q.last ≤ s.now) (hr : rplMode s ≠ 2) :
    let t := cycleBegins s c
    let runs := (coreAt t c).q.running = true ∧ (coreAt t c).halted = false ∧ (coreAt t c).q.wake ≤ t.dev
    (runs → exec (.bundleFetch c) s = .next (countPower (runCycle t c) c)) ∧ (¬runs → exec (.bundleFetch c) s = .next (countPower t c)) := by
  intro t runs
  have hgo : (192 ≤ c || s.issue.isSome || s.now < (coreAt s c).q.last) = false := by simp [hi, hc, hl]
  have hfree : (rplMode s == 2) = false := beq_false_of_ne hr
  have hruns : ((coreAt t c).q.running && !(coreAt t c).halted && (coreAt t c).q.wake ≤ t.dev) = true ↔ runs := by simp [runs, and_assoc]
  have hexec : exec (.bundleFetch c) s =
      .next (countPower (if (coreAt t c).q.running && !(coreAt t c).halted && (coreAt t c).q.wake ≤ t.dev then runCycle t c else t) c) := by
    simp only [exec_bundleFetch, execBundleFetch, hgo, rplMode_modCore, hfree, Bool.false_and, Bool.false_eq_true, if_false]
    rfl
  refine ⟨fun h => ?_, fun h => ?_⟩
  · rw [hexec, if_pos (hruns.mpr h)]
  · rw [hexec, if_neg (mt hruns.mp h)]

/-! ## The slots that fetch puts up -/

theorem issueCycle_go {s v u : State} {c dx words : Nat} {b : BitVec 384} {ops : List SlotOp}
    (hgo : nextBundle (2 ^ 64) s c = .go u b dx words ops) (hl : launchDue (fun _ => true) 9 u c = (.ok, v)) (hr : rplMode v = 0) :
    issueCycle s c = beginIssue v c (coreAt u c) b dx words ops := by
  simp only [issueCycle, hgo, hl, bankGate, hr, if_true]

theorem beginPass_skipMask (k : Core) : (beginPass k).q.skipMask = k.q.skipMask := by
  unfold beginPass
  split <;> rfl

/-- With no slot completed before, a bundle that begins to issue puts up all its operations, each to read the core as it stands. -/
theorem beginIssue_slots_fresh (v : State) (c dx words : Nat) (c0 : Core) (b : BitVec 384) (ops : List SlotOp) (h : (coreAt v c).q.skipMask = 0) :
    let k := beginPass (coreAt v c)
    ∃ j, (beginIssue v c c0 b dx words ops).issue = some j ∧ j.core = c ∧ j.pc = k.q.pc ∧ j.before.q = k.q ∧ j.before.f = k.f ∧
        j.before.ct = k.ct ∧ j.before.r = { k.r with st := c0.r.st } ∧ j.before.m = { k.m with spad := j.before.m.spad, spadEp := j.before.m.spadEp } ∧
        j.todo = [11, 10, 9, 4, 3, 2, 8, 7, 6, 5, 1, 0].filterMap fun n => ops.find? fun o => o.1 == n := by
  intro k
  refine ⟨_, rfl, rfl, rfl, rfl, rfl, rfl, rfl, rfl, ?_⟩
  have hmask : (beginPass (coreAt v c)).q.skipMask = 0 := by rw [beginPass_skipMask, h]
  cases (beginPass (coreAt v c)).q.carry with
  | none => simp only [hmask, Bool.and_false, Bool.or_false]; rfl
  | some _ => simp only [hmask, bne_self_eq_false, Bool.and_false, Bool.false_eq_true, if_false, Bool.or_false]; rfl

/-! ## The slots run -/

theorem runBundle_todo {s : State} {j : Issue} {n : Nat} {i : Instr} {l : List SlotOp} (hj : s.issue = some j) (ht : j.todo = (n, i) :: l) :
    runBundle s = match exec i { s with issue := some { j with todo := l, slot := n } } with
      | .next t => (match runSlots l.length t with | .next u => .next (commitBundle u) | r => r)
      | r => r := by
  have hleft : slotsLeft s = l.length + 1 := by simp [slotsLeft, hj, ht]
  simp only [runBundle, hj, hleft, runSlots, ht]
  cases exec i { s with issue := some { j with todo := l, slot := n } } <;> rfl

/-- Settles O55: a step by the agenda, the turn and the clock; the cycle of a core; the check of a bundle with one word; the slots that a
bundle let go puts up; and the first of them run. -/
theorem stepRunsDecoded : Obligations.StepRunsDecoded := by
  unfold Obligations.StepRunsDecoded
  refine ⟨fun s i l h => step_agenda h, fun s h ht => step_turn h ht, fun s h ht => step_clock h ht,
    fun s c hc hi hl hr => bundleFetch_cycle hc hi hl hr, fun s c h => bundleFetch_idle h, ?oneWord, fun s v u c dx words b ops hgo hl hr => ?slots,
    fun s j n i l hj ht => runBundle_todo hj ht⟩
  case oneWord =>
    rintro k x i ⟨n, cls, lo, w⟩ he h0 hx hd hi hb
    exact checkBundle_word_ok k he (Nat.ne_of_gt h0) hx hd hi hb
  case slots =>
    have hbegin := issueCycle_go hgo hl hr
    refine ⟨hbegin, fun hm => ?_⟩
    rw [hbegin]
    exact beginIssue_slots_fresh v c dx words (coreAt u c) b ops hm

end Sys2Proof.Proofs
end

section
/-! PROOFS. The words that the spec works out (R148 to R162), decoded. -/

namespace Sys2Proof.Proofs

open Sys2Proof Sys2Proof.Machine Sys2Proof.Laws

/-- Settles O56: the words worked out bit by bit are those of their operations, whose round trip is known; each other word is refused for
the reason named. -/
theorem sampleWordsDecode : Obligations.SampleWordsDecode := by
  unfold Obligations.SampleWordsDecode
  have hadd : decodeSlot .s 0x0048209 = .ok (.add 0 8 8 9) := RoundTrip.add 0 8 8 9 .s rfl rfl
  have hvfma : decodeSlot .v 0x312104B0A00E = .ok (.vfma 3 1 0 0x082 0x585 0x007) := RoundTrip.vfma 3 1 0 0x082 0x585 0x007 .v rfl rfl
  simp only [List.forall_mem_cons]
  refine ⟨⟨hadd, hvfma, RoundTrip.cpy 0 2 2 0 5 0 1 .a rfl rfl, RoundTrip.cpy 0 1 0 0 0 0 1 .a rfl rfl, RoundTrip.ctadd 0 3 1 1 0 3 2 .a rfl rfl,
    RoundTrip.ctpoll 0 4 0 0 6 4 0 .a rfl rfl, RoundTrip.tret 0 .c rfl rfl, fun _ h => nomatch h⟩, ?sWord, ?vWord, ?refused⟩
  case sWord => simp [decodeTableWord, tableClasses, decodeFirst, hadd]
  case vWord => simp [decodeTableWord, tableClasses, decodeFirst, hvfma]
  case refused =>
    have reserved : ∀ {k w}, decodeSlot k w = .err .reservedOpcode → ∃ r, decodeSlot k w = .err r := fun h => ⟨_, h⟩
    exact ⟨reserved rfl, reserved rfl, reserved rfl, reserved rfl, reserved rfl, reserved rfl, reserved rfl, reserved rfl, reserved rfl, reserved rfl,
      ⟨.nonzeroField, rfl⟩, ⟨.fieldLimit, rfl⟩, ⟨.fieldLimit, rfl⟩, ⟨.fieldLimit, rfl⟩, fun _ h => nomatch h⟩

end Sys2Proof.Proofs
end

section
/-! PROOFS. What a slot operation finds and leaves while its bundle issues (R110): the core it acts on, its place in the bundle, and what
trace records, breakpoints and counts of ECC errors leave alone. -/

namespace Sys2Proof.Proofs

open Sys2Proof Sys2Proof.Machine

variable {s : State} {bu : Issue}

theorem hereNo_of_issue (h : s.issue = some bu) : hereNo s = bu.core := by simp only [hereNo, h]

theorem wr_of_issue (h : s.issue = some bu) (f : Core → Core) : wr s f = modCore s bu.core f := by rw [wr, hereNo_of_issue h]

/-- A slot operation that acts under its guard, run under a true one (R41). -/
theorem exec_of_guarded {p : Nat} {i : Instr} {g : State → State} {t : State} (hg : guardOf s p = true)
    (hi : exec i s = .next (guarded s p g)) (ht : g s = t) : exec i s = .next t :=
  hi.trans (congrArg Host.Outcome.next ((guarded_true s p g hg).trans ht))

/-- A taken transfer of the bundle that issues (R163). -/
theorem redirect_of_issue (h : s.issue = some bu) (target bubble : Nat) (keep : Bool) :
    redirect s target bubble keep = { s with issue := some { bu with redirect := some (target, bubble), noLoop := !keep || bu.noLoop } } := by
  simp only [redirect, h]

/-- p8 to p15 as a loop operation of the bundle that issues sets them (R39). -/
theorem stagePreds_of_issue (h : s.issue = some bu) (v : BitVec 8) :
    stagePreds s v = { s with issue := some { bu with stageSet := some v } } := by
  simp only [stagePreds, h]

/-! ## Trace records and breakpoints -/

theorem traceWrite_issue (s : State) (n : Nat) (r : List Byte) : (traceWrite s n r).issue = s.issue := by
  simp only [traceWrite, apply_ite State.issue, dbgWr, barWr_issue, hbmWrite, ite_self]

theorem traceWrite_cores (s : State) (n : Nat) (r : List Byte) : (traceWrite s n r).cores = s.cores := by
  simp only [traceWrite, apply_ite State.cores, dbgWr, barWr_cores, hbmWrite, ite_self]

/-- The end of a level leaves the bundle that issues alone (R420). -/
theorem loopExit_issue (s : State) (n l a : Nat) : (loopExit s n l a).issue = s.issue := by
  simp only [loopExit, apply_ite State.issue, modCore_issue, traceWrite_issue, ite_self]

/-- The record of a level's end leaves the registers of every core alone (R420). -/
theorem loopExit_r (s : State) (n l a m : Nat) : (coreAt (loopExit s n l a) m).r = (coreAt s m).r := by
  unfold loopExit
  dsimp only
  split
  · rfl
  · refine (coreAt_modCore_keeps Core.r _ n m (fun c => { c with conf := [] }) rfl).trans ?_
    simp only [coreAt, traceWrite_cores]

theorem askStop_issue (s : State) (l : List Nat) (kind : Nat) (d : Option Nat) : (askStop s l kind d).issue = s.issue :=
  foldl_keeps State.issue (fun t n => modCore t n fun c => c.askedFor kind t.dev d) (fun _ _ => rfl) l s

/-- A breakpoint that is met leaves the bundle that issues alone (R414). -/
theorem breakAt_issue (s : State) (n kind x : Nat) : (breakAt s n kind x).issue = s.issue := by
  unfold breakAt
  split
  · rfl
  · split
    · exact askStop_issue ..
    · rfl

end Sys2Proof.Proofs
end

section
/-! PROOFS. loop, loop.swp and lbrk (R168, R169): the levels that end, the level that begins, its counter, the stage predicates (R39). -/

namespace Sys2Proof.Proofs

open Sys2Proof Sys2Proof.Machine

/-- Whether ending level `i` ends a level that uses stages (R39). -/
def endsStaged (c : Core) (i : Nat) : Bool := (endedLevels c.r.loops i).any fun k => (levelOf c k).stages > 1

theorem endsStaged_iff (c : Core) (i : Nat) : endsStaged c i = true ↔
    c.r.loops.contains i = true ∧ ∃ j, (j = i ∨ j ∈ c.r.loops.takeWhile (· != i)) ∧ 1 < (levelOf c j).stages := by
  unfold endsStaged endedLevels
  split
  · rename_i hon
    simp only [hon, true_and, List.any_append, List.any_cons, List.any_nil, Bool.or_false, Bool.or_eq_true, List.any_eq_true, decide_eq_true_eq]
    constructor
    · rintro (⟨j, hj, hst⟩ | hst)
      · exact ⟨j, .inr hj, hst⟩
      · exact ⟨i, .inl rfl, hst⟩
    · rintro ⟨j, rfl | hj, hst⟩
      · exact .inr hst
      · exact .inl ⟨j, hj, hst⟩
  · rename_i hoff
    simp only [hoff, false_and, List.any_nil, Bool.false_eq_true]

/-- The state in which the levels that end have left their records and the list of active levels. -/
def levelsLeft (s : State) (i : Nat) : State :=
  wr ((endedLevels (here s).r.loops i).foldl (fun s k => loopExit s (hereNo s) k (bundlePc s)) s)
    fun k => { k with r := { k.r with loops := endLevels (here s).r.loops i } }

theorem leaveLevels_eq (s : State) (i : Nat) :
    leaveLevels s i = if endsStaged (here s) i then stagePreds (levelsLeft s i) 0 else levelsLeft s i := rfl

theorem levelsLeft_issue (s : State) (i : Nat) : (levelsLeft s i).issue = s.issue :=
  foldl_keeps State.issue _ (fun _ _ => loopExit_issue ..) _ s

variable {s : State} {bu : Issue}

theorem levelsLeft_r (h : s.issue = some bu) (i : Nat) :
    (coreAt (levelsLeft s i) bu.core).r = { (coreAt s bu.core).r with loops := endLevels (here s).r.loops i } := by
  have hfold := foldl_keeps (fun t => (coreAt t bu.core).r) (fun s k => loopExit s (hereNo s) k (bundlePc s))
    (fun t k => loopExit_r t _ k _ _) (endedLevels (here s).r.loops i) s
  have hi := (foldl_keeps State.issue (fun s k => loopExit s (hereNo s) k (bundlePc s)) (fun _ _ => loopExit_issue ..)
    (endedLevels (here s).r.loops i) s).trans h
  rw [levelsLeft, wr_of_issue hi, coreAt_modCore_same, ← hfold]

/-- The levels that end are what changes of the registers, and of the bundle p8 to p15 where one of them used stages (R38, R39). -/
theorem leaveLevels_issue (h : s.issue = some bu) (i : Nat) :
    (leaveLevels s i).issue = some { bu with stageSet := if endsStaged (here s) i then some 0 else bu.stageSet } := by
  have hl := (levelsLeft_issue s i).trans h
  rw [leaveLevels_eq]
  split
  · rw [stagePreds_of_issue hl]
  · exact hl

theorem leaveLevels_r (h : s.issue = some bu) (i : Nat) :
    (coreAt (leaveLevels s i) bu.core).r = { (coreAt s bu.core).r with loops := endLevels (here s).r.loops i } := by
  rw [leaveLevels_eq]
  split
  · rw [stagePreds_of_issue ((levelsLeft_issue s i).trans h)]
    exact levelsLeft_r h i
  · exact levelsLeft_r h i

/-- Of pass 0 stage 0 alone is on (R39). -/
theorem passPreds_zero {B : Nat} (h : 0 < B) : passPreds B 0 = 1 := by
  refine BitVec.eq_of_getLsbD_eq fun k hk => ?_
  rw [getLsbD_passPreds B 0 k hk, Nat.zero_sub]
  simp [h, BitVec.getLsbD_one]

theorem loopOp_atZero {p i : Nat} (h : s.issue = some bu) (hg : guardOf s p = true) (h0 : (levelOf (here s) i).bound = 0) :
    ∃ bubble, loopOp p i s = { leaveLevels s i with issue := some { bu with
      stageSet := if endsStaged (here s) i then some 0 else bu.stageSet
      redirect := some (afterBody (here s) i, bubble), noLoop := true } } := by
  rw [loopOp, guarded_true s p _ hg]
  simp only [h0, if_true]
  exact ⟨_, redirect_of_issue (leaveLevels_issue h i) ..⟩

/-- Level `i` begun with its counter at 0, before its stage predicates (R168). -/
def levelStarted (s : State) (i : Nat) : State :=
  wr (leaveLevels s i) fun k => { k with r := { k.r with lc := spSet k.r.lc i 0, loops := i :: endLevels (here s).r.loops i } }

/-- Level `i` begun with its pass 0, but for where fetch goes (R39, R168). -/
def levelBegun (s : State) (i : Nat) : State :=
  let lv := levelOf (here s) i
  let u := if lv.stages > 1 then stagePreds (levelStarted s i) (passPreds lv.bound 0) else levelStarted s i
  breakAt u (hereNo u) 1 (i * 2 ^ 40)

theorem levelStarted_issue (h : s.issue = some bu) (i : Nat) : (levelStarted s i).issue = some { bu with
    stageSet := if endsStaged (here s) i then some 0 else bu.stageSet } := leaveLevels_issue h i

theorem levelStarted_r (h : s.issue = some bu) (i : Nat) : (coreAt (levelStarted s i) bu.core).r =
    { (coreAt s bu.core).r with lc := spSet (coreAt s bu.core).r.lc i 0, loops := i :: endLevels (here s).r.loops i } := by
  rw [levelStarted, wr_of_issue (leaveLevels_issue h i), coreAt_modCore_same, leaveLevels_r h i]

theorem levelBegun_issue {i : Nat} (h : s.issue = some bu) (h0 : 0 < (levelOf (here s) i).bound) : (levelBegun s i).issue = some { bu with
    stageSet := if 1 < (levelOf (here s) i).stages then some 1 else if endsStaged (here s) i then some 0 else bu.stageSet } := by
  rw [levelBegun, breakAt_issue]
  split
  · rw [stagePreds_of_issue (levelStarted_issue h i), passPreds_zero h0]
  · exact levelStarted_issue h i

theorem levelBegun_r (h : s.issue = some bu) (i : Nat) : (coreAt (levelBegun s i) bu.core).r =
    { (coreAt s bu.core).r with lc := spSet (coreAt s bu.core).r.lc i 0, loops := i :: endLevels (here s).r.loops i } := by
  rw [levelBegun, coreAt_breakAt_keeps Core.r askedFor_r]
  split
  · rw [stagePreds_of_issue (levelStarted_issue h i)]
    exact levelStarted_r h i
  · exact levelStarted_r h i

theorem loopOp_begins {p i : Nat} (h : s.issue = some bu) (hg : guardOf s p = true) (h0 : 0 < (levelOf (here s) i).bound) :
    ∃ bubble, loopOp p i s = { levelBegun s i with issue := some { bu with
      stageSet := if 1 < (levelOf (here s) i).stages then some 1 else if endsStaged (here s) i then some 0 else bu.stageSet
      redirect := some ((levelOf (here s) i).bstart, bubble), noLoop := true } } := by
  rw [loopOp, guarded_true s p _ hg]
  simp only [Nat.ne_of_gt h0, if_false]
  exact ⟨_, redirect_of_issue (levelBegun_issue h h0) ..⟩

theorem lbrkOp_on {p i : Nat} (h : s.issue = some bu) (hg : guardOf s p = true) (hon : (here s).r.loops.contains i = true) :
    lbrkOp p i s = { leaveLevels s i with issue := some { bu with
      stageSet := if endsStaged (here s) i then some 0 else bu.stageSet
      redirect := some (afterBody (here s) i, 2), noLoop := true } } := by
  rw [lbrkOp, guarded_true s p _ hg]
  simp only [hon, Bool.not_true, Bool.false_eq_true, if_false]
  exact redirect_of_issue (leaveLevels_issue h i) ..

theorem lbrkOp_off {p i : Nat} (hg : guardOf s p = true) (hoff : (here s).r.loops.contains i = false) : lbrkOp p i s = s := by
  rw [lbrkOp, guarded_true s p _ hg]
  simp only [hoff, Bool.not_false, if_true]

/-- What `loop` and `loop.swp` do alike (R168). -/
theorem loopOp_spec {p i : Nat} (h : s.issue = some bu) (hg : guardOf s p = true) :
    let c := here s
    let lv := levelOf c i
    ∃ j, (loopOp p i s).issue = some j ∧ j.noLoop = true ∧
      j.redirect.map Prod.fst = some (if lv.bound = 0 then afterBody c i else lv.bstart) ∧
      (coreAt (loopOp p i s) bu.core).r = { (coreAt s bu.core).r with
        loops := if lv.bound = 0 then endLevels c.r.loops i else i :: endLevels c.r.loops i
        lc := if lv.bound = 0 then (coreAt s bu.core).r.lc else spSet (coreAt s bu.core).r.lc i 0 } ∧
      j.stageSet = if 0 < lv.bound ∧ 1 < lv.stages then some 1 else if endsStaged c i then some 0 else bu.stageSet := by
  intro c lv
  by_cases h0 : lv.bound = 0
  · obtain ⟨bubble, he⟩ := loopOp_atZero h hg h0
    simp only [he, h0, if_true]
    exact ⟨_, rfl, rfl, rfl, leaveLevels_r h i, by simp [c]⟩
  · obtain ⟨bubble, he⟩ := loopOp_begins h hg (Nat.pos_of_ne_zero h0)
    simp only [he, h0, if_false]
    exact ⟨_, rfl, rfl, rfl, levelBegun_r h i, by simp [Nat.pos_of_ne_zero h0, c, lv]⟩

/-- Settles O9: what the two loop operations and lbrk do to the levels, read off in the terms of R168 and R169. -/
theorem loopOperations : Obligations.LoopOperations := by
  unfold Obligations.LoopOperations
  intro s bu p i h hg c lv on kept staged past
  have hst : endsStaged c i = true ↔ staged := endsStaged_iff c i
  refine ⟨fun op hop => ?loop, fun hoff => ?lbrkOff, fun hon => ?lbrkOn⟩
  case loop =>
    have hexec : exec op s = .next (loopOp p i s) := by
      simp only [List.mem_cons, List.not_mem_nil, or_false] at hop
      rcases hop with rfl | rfl <;> rfl
    obtain ⟨j, hj, hno, hredirect, hr, hstage⟩ := loopOp_spec (i := i) h hg
    refine ⟨_, j, hexec, hj, hno, hredirect, hr, fun hb hs => ?_, fun hs hb => ?_, fun hs hb => ?_⟩
    · rw [hstage, if_pos ⟨hb, hs⟩]
    · rw [hstage, if_neg hb, if_pos (hst.mpr hs)]
    · rw [hstage, if_neg hb, if_neg (fun he => hs (hst.mp he))]
  case lbrkOff => exact congrArg Host.Outcome.next (lbrkOp_off hg hoff)
  case lbrkOn =>
    refine ⟨_, _, congrArg Host.Outcome.next (lbrkOp_on h hg hon), rfl, rfl, rfl, leaveLevels_r h i, fun hs => ?_, fun hs => ?_⟩
    · exact if_pos (hst.mpr hs)
    · exact if_neg fun he => hs (hst.mp he)

end Sys2Proof.Proofs
end

section
/-! PROOFS. Scalar integer forms (R184 to R191): latency-1 results, and multiplies and divides in their latency classes (R302). -/

namespace Sys2Proof.Proofs

open Sys2Proof Sys2Proof.Machine

variable {s : State} {p d : Nat}

/-- A form that puts a latency-1 result under its guard completes with it (R41, R184). -/
theorem completes_putS {i : Instr} {v w : Word} (hg : guardOf s p = true)
    (hi : exec i s = .next (if guardOf s p then putS s d v else s)) (hv : v = w) : ∃ t, exec i s = .next t ∧ ScalarStep s t d w :=
  ⟨_, hi.trans (by rw [if_pos hg, hv]), scalarStep_putS s d w⟩

/-- A form that puts a later result under its guard completes, and leaves all as it is for s0 (R184, R299). -/
theorem completes_lateS {i : Instr} {lat l : Nat} {v w : Word} (hg : guardOf s p = true)
    (hi : exec i s = .next (if guardOf s p then lateS s lat d v else s)) (hlat : lat = l) (hv : v = w) :
    ∃ t, exec i s = .next t ∧ if d = 0 then t = s else LateStep s t l [.sreg d w] := by
  refine ⟨_, hi.trans (by rw [if_pos hg, hlat, hv]), ?_⟩
  unfold lateS
  split
  · rfl
  · exact lateStep_putLate s _ _

theorem clz64_eq (x : Word) : clz64 x = if x = 0 then 64 else 63 - x.toNat.log2 := by
  have h0 : x.toNat = 0 ↔ x = 0 := BitVec.toNat_inj (y := 0)
  unfold clz64 bitlen
  simp only [h0]
  split
  · rfl
  · omega

/-- The one quotient that does not fit: the most negative number over -1 (R186). -/
theorem divCorner_iff (x y : Word) : x.toInt = -(2 ^ 63) ∧ y.toInt = -1 ↔ x = BitVec.ofNat 64 (2 ^ 63) ∧ y = BitVec.ofInt 64 (-1) := by
  have hx : (BitVec.ofNat 64 (2 ^ 63)).toInt = -(2 ^ 63) := by decide
  have hy : (BitVec.ofInt 64 (-1)).toInt = -1 := by decide
  exact and_congr (hx ▸ BitVec.toInt_inj) (hy ▸ BitVec.toInt_inj)

theorem divS_eq (x y : Word) : divS x y = if y = 0 then BitVec.ofInt 64 (-1) else
    if x = BitVec.ofNat 64 (2 ^ 63) ∧ y = BitVec.ofInt 64 (-1) then x else BitVec.ofInt 64 (x.toInt.tdiv y.toInt) := by
  simp only [divS, Bool.and_eq_true, decide_eq_true_eq, divCorner_iff]

theorem remS_eq (x y : Word) : remS x y = if y = 0 then x else
    if x = BitVec.ofNat 64 (2 ^ 63) ∧ y = BitVec.ofInt 64 (-1) then 0 else BitVec.ofInt 64 (x.toInt - y.toInt * x.toInt.tdiv y.toInt) := by
  simp only [remS, Bool.and_eq_true, decide_eq_true_eq, divCorner_iff]

/-- The latency class of a signed divide (R302). -/
theorem divLatS_eq (x y : Word) : divLatS x y = if y = 0 ∨ (x = BitVec.ofNat 64 (2 ^ 63) ∧ y = BitVec.ofInt 64 (-1)) ∨
    ((-(2 ^ 31) ≤ x.toInt ∧ x.toInt < 2 ^ 31) ∧ -(2 ^ 31) ≤ y.toInt ∧ y.toInt < 2 ^ 31) then 12 else 20 := by
  simp only [divLatS, Bool.or_eq_true, Bool.and_eq_true, decide_eq_true_eq, divCorner_iff, or_assoc]

/-- The latency class of an unsigned divide (R302). -/
theorem divLatU_eq (x y : Word) : divLatU x y = if y = 0 ∨ (x.toNat < 2 ^ 32 ∧ y.toNat < 2 ^ 32) then 12 else 20 := by
  simp only [divLatU, Bool.or_eq_true, Bool.and_eq_true, decide_eq_true_eq]

/-- Settles O2: every form puts its result under its guard, and its value and latency are those of the tables. -/
theorem integerResults : Obligations.IntegerResults := by
  unfold Obligations.IntegerResults
  refine ⟨fun s p d a b n k hg => ?oneCycle, fun s p d a b hg => ?later⟩
  case oneCycle =>
    intro x y
    have done {i : Instr} {v : Word} (hi : exec i s = .next (if guardOf s p then putS s d v else s)) := completes_putS hg hi rfl
    simp only [List.forall_mem_cons]
    refine ⟨done rfl, done rfl, done rfl, done rfl, done rfl, done rfl, done rfl, done rfl, done rfl, done rfl, done rfl, done rfl, done rfl,
      done rfl, done rfl, done rfl, done rfl, ?clz, done rfl, done rfl, done rfl, done rfl, done rfl, done rfl, done rfl, done rfl,
      done rfl, done rfl, done rfl, done rfl, done rfl, fun _ h => nomatch h⟩
    exact completes_putS hg rfl (congrArg (BitVec.ofNat 64) (clz64_eq x))
  case later =>
    intro x y corner small latS latU
    have hS : divLatS x y = latS := divLatS_eq x y
    have hU : divLatU x y = latU := divLatU_eq x y
    simp only [List.forall_mem_cons]
    exact ⟨completes_lateS hg rfl rfl rfl, completes_lateS hg rfl rfl rfl, completes_lateS hg rfl rfl rfl,
      completes_lateS hg rfl hS (divS_eq x y), completes_lateS hg rfl hU rfl, completes_lateS hg rfl hS (remS_eq x y),
      completes_lateS hg rfl hU rfl, fun _ h => nomatch h⟩

end Sys2Proof.Proofs
end

section
/-! PROOFS. Control registers (R179 to R183): what sysrd reads, what syswr writes. -/

namespace Sys2Proof.Proofs

open Sys2Proof Sys2Proof.Machine

/-- CORE_STATUS before it is taken apart (R181). -/
theorem sysRead_coreStatus (s : State) (c : Nat) (k : Core) : sysRead s c k 1 =
    BitVec.ofNat 64 (asidOf k * 2 ^ 32 + 0xB1 * 2 ^ 24 + c / 48 * 2 ^ 16 + c % 48 / 4 * 2 ^ 12 + c % 4 * 2 ^ 10 + c) := rfl

/-- The fields of CORE_STATUS, each in its place (R181). -/
theorem coreStatus_fields (s : State) {c : Nat} (k : Core) (hc : c < 192) (ha : asidOf k < 2 ^ 14) :
    let v := (sysRead s c k 1).toNat
    bits v 63 46 = 0 ∧ bits v 45 32 = asidOf k ∧ bits v 31 24 = 0xB1 ∧ bits v 23 18 = 0 ∧
    bits v 17 16 = c / 48 ∧ bits v 15 12 = c % 48 / 4 ∧ bits v 11 10 = c % 4 ∧ bits v 9 8 = 0 ∧ bits v 7 0 = c := by
  intro v
  have hv : v = asidOf k * 2 ^ 32 + 0xB1 * 2 ^ 24 + c / 48 * 2 ^ 16 + c % 48 / 4 * 2 ^ 12 + c % 4 * 2 ^ 10 + c := by
    rw [show v = _ from congrArg BitVec.toNat (sysRead_coreStatus s c k), toNat_ofNat_of_lt]
    omega
  have hdie : c / 48 < 4 := by omega
  have hquad : c % 48 / 4 < 12 := by omega
  have hcore : c % 4 < 4 := by omega
  generalize asidOf k = a, c / 48 = die, c % 48 / 4 = quad, c % 4 = core at *
  have hlt : v < 2 ^ 46 := by omega
  have htop : bits v 63 46 = 0 := by rw [bits, Nat.div_eq_of_lt hlt, Nat.zero_mod]
  unfold bits at htop ⊢
  refine ⟨htop, ?_, ?_, ?_, ?_, ?_, ?_, ?_, ?_⟩ <;> omega

theorem sysRead_htab (s : State) (c : Nat) (k : Core) {h : Nat} (hh : h < 256) : sysRead s c k (0x100 + h) = spGet 0 k.m.htab h := by
  have hlo : 0x100 ≤ 0x100 + h := Nat.le_add_right _ _
  have hhi : 0x100 + h ≤ 0x1FF := by omega
  have hne : ∀ r, r < 0x100 → 0x100 + h ≠ r := by omega
  unfold sysRead
  rw [if_neg (hne 0 (by decide)), if_neg (hne 1 (by decide)), if_neg (hne 2 (by decide)), if_neg (hne 3 (by decide)), if_neg (hne 4 (by decide)),
    if_neg (hne 5 (by decide)), if_neg (hne 6 (by decide)), if_neg (hne 7 (by decide)), if_neg (hne 8 (by decide)), if_neg (hne 9 (by decide)),
    if_neg (hne 10 (by decide)), if_pos (by simp [hlo, hhi]), Nat.add_sub_cancel_left, hword]

/-- SCR is refused a reserved FRND, and else written without its reserved bits (R180). -/
theorem scrWritten_eq (v : Word) : scrWritten v =
    if v.toNat / 512 % 8 = 4 ∨ 6 ≤ v.toNat / 512 % 8 then none else some (v &&& 0xFE7F#64) := by
  simp only [scrWritten, Bool.or_eq_true, decide_eq_true_eq, ge_iff_le]
  rfl

/-- Settles O3: each register read by its number; CORE_STATUS taken apart field by field; each write run under its guard. -/
theorem controlRegisters : Obligations.ControlRegisters := by
  unfold Obligations.ControlRegisters
  refine ⟨fun s c k => ⟨rfl, fun hc hb => ?coreStatus, rfl, rfl, rfl, rfl, rfl, rfl, rfl, rfl, rfl, fun h hh => sysRead_htab s c k hh⟩,
    fun s bu p a h hg => ?writes⟩
  case coreStatus =>
    refine coreStatus_fields s k hc ?_
    unfold asidOf
    split
    · exact hb _ ‹_›
    · exact Nat.two_pow_pos 14
  case writes =>
    intro v set frnd
    have hx (r : Nat) : exec (.syswr p a r) s = .next (sysWrite s r v) := exec_of_guarded hg rfl rfl
    refine ⟨(hx 0).trans (congrArg Host.Outcome.next ?scr), hx 2, (hx 5).trans (congrArg Host.Outcome.next ?rngs), hx 6, hx 7⟩
    case scr =>
      simp only [sysWrite, if_true, scrWritten_eq]
      by_cases hf : frnd = 4 ∨ 6 ≤ frnd
      · rw [if_pos hf, if_pos hf]
        exact raise_issue s bu h 11 1 0 0
      · rw [if_neg hf, if_neg hf]
    case rngs =>
      simp only [sysWrite, h]
      rfl

end Sys2Proof.Proofs
end

section
/-! PROOFS. Compares and plog (R187, R188), and the forms that write other registers (R191, R192). -/

namespace Sys2Proof.Proofs

open Sys2Proof Sys2Proof.Machine

/-- A compare: the condition and its negation in a pair of predicates (R187). -/
theorem predStep_cmpOp {s : State} {p : Nat} (hg : guardOf s p = true) (f : Word → Word → Bool) (k a b : Nat) {t : Bool}
    (ht : f (sreg (here s) a) (sreg (here s) b) = t) :
    PredStep s (cmpOp f p k a b s) fun n => if n = 2 * k then some t else if n = 2 * k + 1 then some (!t) else none := by
  have hrun : cmpOp f p k a b s = putP (putP s (2 * k) t) (2 * k + 1) (!t) := by rw [cmpOp, guarded_true s p _ hg, ht]
  rw [hrun]
  refine predStep_congr (predStep_trans (predStep_putP s _ _) (predStep_putP _ _ _)) fun n _ _ => ?_
  by_cases h : n = 2 * k
  · have hne : n ≠ 2 * k + 1 := by omega
    simp [h]
  · by_cases h' : n = 2 * k + 1 <;> simp [h, h']

/-- Settles O4: a compare is two predicates written in turn, plog one. -/
theorem predicateResults : Obligations.PredicateResults := by
  unfold Obligations.PredicateResults
  intro s p k d a b i j tt hg _ _ _ x y
  simp only [List.forall_mem_cons]
  refine ⟨⟨⟨_, rfl, predStep_cmpOp hg _ k a b rfl⟩, ⟨_, rfl, predStep_cmpOp hg _ k a b rfl⟩, ⟨_, rfl, predStep_cmpOp hg _ k a b rfl⟩,
    ⟨_, rfl, predStep_cmpOp hg _ k a b rfl⟩, ⟨_, rfl, predStep_cmpOp hg _ k a b rfl⟩, fun _ h => nomatch h⟩, ?plog⟩
  have hbit (q : Bool) : (if q then 1 else 0) = q.toNat := by cases q <;> rfl
  refine ⟨_, congrArg Host.Outcome.next (guarded_true s p _ hg), ?_⟩
  simp only [hbit]
  exact predStep_putP s d _

end Sys2Proof.Proofs
end

section
/-! PROOFS. The forms that write predicates, branch targets, mode registers and streams (R191, R192, R62 to R64). -/

namespace Sys2Proof.Proofs

open Sys2Proof Sys2Proof.Machine

/-- Writing no predicate is nothing. -/
theorem predStep_refl (s : State) : PredStep s s fun _ => none := by
  refine ⟨onlyCore_refl s _, fun n _ => ?_, fun _ he => he, rfl⟩
  by_cases h0 : n = 0
  · simp [h0, preg]
  · simp [h0, live]

/-- p1 to p`n` written in turn (R191). -/
theorem predStep_foldl_putP (s : State) (v : Word) (n : Nat) :
    PredStep s ((upTo n).foldl (fun s k => putP s (k + 1) (v.getLsbD (k + 1))) s) fun m =>
      if 1 ≤ m ∧ m ≤ n then some (v.getLsbD m) else none := by
  induction n with
  | zero => exact predStep_congr (predStep_refl s) fun m _ _ => (if_neg (by omega)).symm
  | succ n ih =>
    rw [upTo, List.range_succ, List.foldl_append]
    refine predStep_congr (predStep_trans ih (predStep_putP _ _ _)) fun m _ hm => ?_
    by_cases h : m = n + 1
    · simp [h]
    · have hle : (1 ≤ m ∧ m ≤ n) ↔ (1 ≤ m ∧ m ≤ n + 1) := by omega
      simp only [h, if_false, Option.none_or, hle]

/-- The low bits of a value, by which alone it enters a field. -/
theorem getLsbD_and_low (len : Nat) (v : BitVec 256) {i : Nat} (hi : i < 256) :
    (v &&& BitVec.ofNat 256 (2 ^ len - 1)).getLsbD i = (v.getLsbD i && decide (i < len)) := by
  rw [BitVec.getLsbD_and, BitVec.getLsbD_ofNat, Nat.testBit_two_pow_sub_one]
  simp [hi]

/-- A field takes of a value its low bits alone. -/
theorem setBits_congr (x : BitVec 256) (off len : Nat) {v w : BitVec 256} (h : ∀ i, i < 256 → i < len → v.getLsbD i = w.getLsbD i) :
    setBits x off len v = setBits x off len w := by
  have hlow : v &&& BitVec.ofNat 256 (2 ^ len - 1) = w &&& BitVec.ofNat 256 (2 ^ len - 1) := by
    refine BitVec.eq_of_getLsbD_eq fun i hi => ?_
    rw [getLsbD_and_low _ _ hi, getLsbD_and_low _ _ hi]
    by_cases hl : i < len
    · rw [h i hi hl]
    · simp [hl]
  simp only [setBits, hlow]

/-- Selector 0: the handle from bits 7:0, the target from bit 8 (R62, R192). -/
theorem stPut_zero (x : BitVec 256) (v : Word) : stPut x 0 v =
    setBits (setBits x 248 8 ((v &&& 0xFF#64).setWidth 256)) 247 1 (BitVec.ofNat 256 (v.toNat / 256 % 2)) := by
  have hhandle : setBits x 248 8 (v.setWidth 256) = setBits x 248 8 ((v &&& 0xFF#64).setWidth 256) := by
    refine setBits_congr x 248 8 fun i hi h8 => ?_
    have hmask : (0xFF#64).getLsbD i = true := by
      have : ∀ j : Fin 8, (0xFF#64).getLsbD j = true := by decide
      exact this ⟨i, h8⟩
    rw [BitVec.getLsbD_setWidth, BitVec.getLsbD_setWidth, BitVec.getLsbD_and, hmask, Bool.and_true]
  rw [stPut, if_pos rfl, hhandle]
  refine setBits_congr _ 247 1 fun i _ h1 => ?_
  have h0 : i = 0 := by omega
  subst h0
  rw [BitVec.getLsbD_setWidth, BitVec.getLsbD_ushiftRight, BitVec.getLsbD_ofNat, BitVec.getLsbD, Nat.testBit_eq_decide_div_mod_eq,
    Nat.testBit_zero, Nat.mod_mod]

/-- The other fields of `stset.f`: selector, lowest bit, width (R149, R62). -/
def streamFields : List (Nat × Nat × Nat) :=
  [(1, 242, 5), (2, 240, 2), (3, 237, 3), (4, 212, 22), (5, 196, 16), (6, 173, 23), (7, 157, 16), (8, 134, 23),
    (9, 118, 16), (10, 95, 23), (11, 73, 22), (12, 56, 17), (13, 32, 16), (14, 16, 16), (15, 0, 16)]

/-- A field written; an index is brought to at most its count (R62, R192). -/
theorem stPut_field (x : BitVec 256) (v : Word) : ∀ e ∈ streamFields, stPut x e.1 v =
    let y := setBits x e.2.1 e.2.2 (v.setWidth 256)
    if e.1 < 13 then y else setBits y e.2.1 16 (BitVec.ofNat 256 (if e.1 = 13 then (stream y).i0 % ((stream y).cnt0 + 1)
      else if e.1 = 14 then (stream y).i1 % ((stream y).cnt1 + 1) else (stream y).i2 % ((stream y).cnt2 + 1))) := by
  simp [streamFields, stPut, stField, stReduceAt]

/-- The format codes above 0x14 are reserved (R49). -/
theorem fmtBits_reserved {n : Nat} (h : n < 32) : (fmtBits n).isNone = decide (0x14 < n) := by
  have : ∀ m < 32, (fmtBits m).isNone = decide (0x14 < m) := by decide
  exact this n h

variable {s : State} {bu : Issue}

/-- A stream register set by the bundle that issues, which notes it (R64). -/
theorem putStream_of_issue (h : s.issue = some bu) (n : Nat) (x : BitVec 256) : putStream s n x =
    wr { s with issue := some { bu with stWr := n :: bu.stWr } } fun k => { k with r := { k.r with st := spSet k.r.st n x } } := by
  simp only [putStream, h]

theorem stsetF_of_issue (h : s.issue = some bu) (n f a : Nat) : stsetF n f a s =
    if f = 1 ∧ 0x14 < (sreg (here s) a).toNat % 32 then recorded s bu 0x01 0 0
    else if f = 3 ∧ rmode ((sreg (here s) a).toNat % 8) = none then recorded s bu 0x01 0 0
    else putStream s n (stPut (stReg (here s) n) f (sreg (here s) a)) := by
  simp only [stsetF, fmtBits_reserved (Nat.mod_lt _ (by decide : 32 > 0)), Bool.and_eq_true, decide_eq_true_eq, Option.isNone_iff_eq_none,
    raise_issue s bu h]

theorem movToB_of_issue (h : s.issue = some bu) (n : Nat) (v : Word) : movToB n v s =
    if v.toNat < 2 ^ 24 then wr s fun k => { k with r := { k.r with b := spSet k.r.b n (v.setWidth 24), bprep := spDel k.r.bprep n } }
    else recorded s bu 0x02 0 0 := by
  rw [movToB, raise_issue s bu h]
  by_cases hv : v.toNat < 2 ^ 24
  · rw [if_pos hv, if_neg (Nat.not_le_of_lt hv)]
  · rw [if_neg hv, if_pos (Nat.le_of_not_lt hv)]

/-- Settles O5: each form run under its guard, by what it writes; of `stset.f`, the field of its selector. -/
theorem writesOfOtherRegisters : Obligations.WritesOfOtherRegisters := by
  unfold Obligations.WritesOfOtherRegisters
  intro s bu p n m a f h hg v st noted
  have run {i : Instr} {g : State → State} {t : State} := exec_of_guarded (i := i) (g := g) (t := t) hg
  have hput (x : BitVec 256) : putStream s n x = noted x := putStream_of_issue h n x
  refine ⟨⟨_, run rfl rfl, ?mtpr⟩, run rfl (movToB_of_issue h n v), run rfl rfl, run rfl (hput 0), run rfl (hput (stReg (here s) m)),
    run rfl ?handle, fun lo w he => ?field⟩
  case mtpr => exact predStep_congr (predStep_foldl_putP s v 15) fun k hk h0 => if_pos (by omega)
  case handle =>
    rw [stsetF_of_issue h, if_neg (fun hf => nomatch hf.1), if_neg (fun hf => nomatch hf.1), hput, stPut_zero]
  case field =>
    refine run rfl ?_
    have hx := stPut_field st v (f, lo, w) he
    rw [stsetF_of_issue h, hput, hx]
    simp only [apply_ite noted]
    rfl

end Sys2Proof.Proofs
end

section
/-! PROOFS. FP64 forms while SCR.RM is 0 (R193 to R195): value, sticky bits, latency (R302). -/

namespace Sys2Proof.Proofs

open Sys2Proof Sys2Proof.Machine

/-- A core after an FP64 form: sticky bits in, the datapath taken, the result set out (R180, R302). -/
def afterFp (lat d : Nat) (r : Word × Word) (k : Core) : Core :=
  { k with
    r := { k.r with scr := k.r.scr ||| r.2 }
    f := { k.f with fpBusy := k.q.act + lat,
                    wb := if d = 0 then k.f.wb else k.f.wb ++ [⟨k.q.act + lat - 1, k.q.seq, .sreg d r.1⟩] } }

theorem fpEffects_eq (s : State) (lat d : Nat) (v st : Word) : orSticky (takeFp (lateS s lat d v) lat) st = wr s (afterFp lat d (v, st)) := by
  unfold orSticky takeFp lateS putLate afterFp
  by_cases hd : d = 0
  · simp only [hd, if_true, wr_wr]
  · simp only [hd, if_false, wr_wr]

variable {s : State} {p : Nat}

/-- An FP64 form with a register result: its function's value and sticky bits, at its latency (R193). -/
theorem fpOp_fp64 (hg : guardOf s p = true) (hrm : scrRM (here s).r.scr = false) (op fn lat d a b : Nat)
    (f : Word → Word → Word → Word × Word) :
    fpOp op fn lat f p d a b s = wr s (afterFp lat d (f (here s).r.scr (sreg (here s) a) (sreg (here s) b))) := by
  rw [fpOp, guarded_true s p _ hg]
  simp only [hrm, Bool.false_eq_true, if_false]
  exact fpEffects_eq ..

/-- A core after an FP64 compare: the condition and its negation set out, 2 active cycles on (R194). -/
def afterFcmp (k : Nat) (t : Bool) (c : Core) : Core :=
  { c with f := { c.f with
      fpBusy := c.q.act + 2
      wb := c.f.wb ++ [⟨c.q.act + 1, c.q.seq, .pred (2 * k) t⟩, ⟨c.q.act + 1, c.q.seq, .pred (2 * k + 1) (!t)⟩] } }

theorem fcmpEffects_eq (s : State) (k : Nat) (t : Bool) :
    takeFp (putLate (putLate s 2 (.pred (2 * k) t)) 2 (.pred (2 * k + 1) (!t))) 2 = wr s (afterFcmp k t) := by
  unfold takeFp putLate afterFcmp
  simp only [wr_wr, List.append_assoc, List.singleton_append]
  rfl

theorem fcmpOp_fp64 (hg : guardOf s p = true) (hrm : scrRM (here s).r.scr = false) (fn k a b : Nat) (f : FpVal → FpVal → Bool) :
    fcmpOp fn f p k a b s = wr s (afterFcmp k (f (fpRead fp64 (sreg (here s) a).toNat) (fpRead fp64 (sreg (here s) b).toNat))) := by
  rw [fcmpOp, guarded_true s p _ hg]
  simp only [hrm, Bool.false_eq_true, if_false]
  exact fcmpEffects_eq ..

/-- Nothing is below NaN, and NaN is below nothing (R194). -/
theorem fpLt_nan (z : Bool) {x y : FpVal} (h : (x.isNan || y.isNan) = true) : fpLt z x y = false := by
  cases x with
  | nan => rfl
  | inf | fin => cases y with
    | nan => rfl
    | inf | fin => exact absurd h Bool.false_ne_true

theorem fLt_eq (x y : FpVal) : fLt x y = (!(x.isNan || y.isNan) && fpLt false x y) := by
  cases h : x.isNan || y.isNan
  · rfl
  · exact fpLt_nan false h

theorem fEq_eq (x y : FpVal) : fEq x y = (!(x.isNan || y.isNan) && !fpLt false x y && !fpLt false y x) := by
  rw [fEq, Bool.not_or]

theorem fLe_eq (x y : FpVal) : fLe x y = (!(x.isNan || y.isNan) && !fpLt false y x) := by
  rw [fLe, Bool.not_or]

/-- Settles O6: each form is its function under the guard while SCR.RM is 0; compares are their conditions, NaN taken apart. -/
theorem fp64Forms : Obligations.Fp64Forms := by
  unfold Obligations.Fp64Forms
  refine ⟨fun s p d a b hg hrm => ?results, fun s p k a b hg hrm => ?compares⟩
  case results =>
    intro x y scr rm fx fy round
    have form {i : Instr} {op fn lat a b : Nat} {f : Word → Word → Word → Word × Word} {r : Word × Word}
        (hi : exec i s = .next (fpOp op fn lat f p d a b s)) (hr : f (here s).r.scr (sreg (here s) a) (sreg (here s) b) = r) :
        exec i s = .next (wr s (afterFp lat d r)) := by rw [hi, fpOp_fp64 hg hrm, hr]
    change ∀ e ∈ (_ : List (Instr × Nat × Word × Word)), exec e.1 s = .next (wr s (afterFp e.2.1 d e.2.2))
    simp only [List.forall_mem_cons]
    exact ⟨form rfl rfl, form rfl rfl, form rfl rfl, form rfl rfl, form rfl rfl, form rfl rfl, form rfl rfl, form rfl rfl, form rfl rfl,
      form rfl rfl, form rfl rfl, form rfl rfl, form rfl rfl, fun _ h => nomatch h⟩
  case compares =>
    intro x y nan
    have form {i : Instr} {fn : Nat} {f : FpVal → FpVal → Bool} {t : Bool} (hi : exec i s = .next (fcmpOp fn f p k a b s)) (ht : f x y = t) :
        exec i s = .next (wr s (afterFcmp k t)) := by rw [hi, fcmpOp_fp64 hg hrm, ht]
    change ∀ e ∈ (_ : List (Instr × Bool)), exec e.1 s = .next (wr s (afterFcmp k e.2))
    simp only [List.forall_mem_cons]
    exact ⟨form rfl (fEq_eq x y), form rfl (fLt_eq x y), form rfl (fLe_eq x y), form rfl rfl, fun _ h => nomatch h⟩

end Sys2Proof.Proofs
end

section
/-! PROOFS. Branches and calls (R163 to R167): branch targets, redirects, the return stack. -/

namespace Sys2Proof.Proofs

open Sys2Proof Sys2Proof.Machine

variable {s : State} {bu : Issue}

theorem bundlePc_of_issue (h : s.issue = some bu) : bundlePc s = bu.pc := by simp only [bundlePc, h]

/-- A code address in a register, or the fault of R163. -/
theorem codeAddr_of_issue (h : s.issue = some bu) (v : Word) (f : BitVec 24 → State) :
    codeAddr s v f = if v.toNat < 2 ^ 24 then f (v.setWidth 24) else recorded s bu 0x02 0 0 := by
  rw [codeAddr, raise_issue s bu h]
  by_cases hv : v.toNat < 2 ^ 24
  · rw [if_pos hv, if_neg (Nat.not_le_of_lt hv)]
  · rw [if_neg hv, if_pos (Nat.le_of_not_lt hv)]

/-- Why h255 cannot take, or give back, entry `n` of those spilled (R166). -/
def spillFault (c : Core) (n : Nat) : Option Nat := handleFault (handle c 255) (4 * n : Nat) 4

section
variable {p : Nat} (h : s.issue = some bu) (hg : guardOf s p = true)
include h hg

/-- A call with room for its return address (R166). -/
theorem callOp_fits (b : Nat) (hroom : (here s).r.depth < 16 ∨ spillFault (here s) ((here s).r.depth - 16) = none) :
    callOp p b s = { s with issue := some { bu with
      redirect := some ((bReg (here s) b).toNat, bubbleOf (here s) b), calls := some (bReg (here s) b).toNat } } := by
  have hnone : (if (here s).r.depth < 16 then none else spillFault (here s) ((here s).r.depth - 16)) = none := by
    rcases hroom with hlt | hf
    · exact if_pos hlt
    · rw [hf, ite_self]
  rw [callOp, guarded_true s p _ hg]
  dsimp only
  rw [← spillFault, hnone, h]

/-- A call whose spilled entry h255 does not take (R166). -/
theorem callOp_faults (b : Nat) {f : Nat} (hd : 16 ≤ (here s).r.depth) (hf : spillFault (here s) ((here s).r.depth - 16) = some f) :
    callOp p b s = recorded s bu f 0 0 := by
  rw [callOp, guarded_true s p _ hg]
  dsimp only
  rw [← spillFault, hf, if_neg (Nat.not_lt.mpr hd)]
  exact raise_issue s bu h ..

theorem retOp_empty (hd : (here s).r.depth = 0) : retOp p s = recorded s bu 0x0A 0 0 := by
  rw [retOp, guarded_true s p _ hg]
  dsimp only
  rw [if_pos hd]
  exact raise_issue s bu h ..

/-- A return whose stack is held whole (R166). -/
theorem retOp_held (h1 : 1 ≤ (here s).r.depth) (hd : (here s).r.depth ≤ 16) : retOp p s =
    { wr s fun k => { k with r := { k.r with rstack := k.r.rstack.drop 1, depth := (here s).r.depth - 1 } } with
      issue := some { bu with redirect := some (((here s).r.rstack.headD 0).toNat, 2), noLoop := true } } := by
  rw [retOp, guarded_true s p _ hg]
  dsimp only
  rw [if_neg (Nat.ne_of_gt h1)]
  simp only [hd, if_true, List.append_nil]
  exact redirect_of_issue (s := wr s _) h ..

/-- A return that takes an entry back from h255 (R166). -/
theorem retOp_spilled (hd : 16 < (here s).r.depth) (hf : spillFault (here s) ((here s).r.depth - 17) = none) : retOp p s =
    { wr s fun k => { k with r := { k.r with
        rstack := k.r.rstack.drop 1 ++ [BitVec.ofNat 24 (leNat (spadRead (here s) (handle (here s) 255) (4 * ((here s).r.depth - 17)) 4))]
        depth := (here s).r.depth - 1 } } with
      issue := some { bu with redirect := some (((here s).r.rstack.headD 0).toNat, 4), noLoop := true } } := by
  rw [retOp, guarded_true s p _ hg]
  dsimp only
  rw [if_neg (by omega), ← spillFault, hf]
  simp only [Nat.not_le.mpr hd, if_false]
  exact redirect_of_issue (s := wr s _) h ..

/-- A return whose entry h255 does not give back (R166). -/
theorem retOp_faults {f : Nat} (hd : 16 < (here s).r.depth) (hf : spillFault (here s) ((here s).r.depth - 17) = some f) :
    retOp p s = recorded s bu f 0 0 := by
  rw [retOp, guarded_true s p _ hg]
  dsimp only
  rw [if_neg (by omega), ← spillFault, hf, if_neg (Nat.not_le.mpr hd)]
  exact raise_issue s bu h ..

end

/-- Settles O8: each transfer run under its guard; a call and a return by the depth of the stack and by what h255 allows. -/
theorem branchesAndCalls : Obligations.BranchesAndCalls := by
  unfold Obligations.BranchesAndCalls
  intro s bu p b q a r h hg c v put go d spill
  have run {i : Instr} {g : State → State} {t : State} := exec_of_guarded (i := i) (g := g) (t := t) hg
  have hgo (target bubble : Nat) : redirect s target bubble false = go s target bubble := redirect_of_issue h target bubble false
  refine ⟨run rfl ?pbr, run rfl (codeAddr_of_issue h v _), run rfl ?br, run rfl ?brN,
    fun hroom => congrArg Host.Outcome.next (callOp_fits h hg b hroom), fun f hd hf => congrArg Host.Outcome.next (callOp_faults h hg b hd hf),
    fun hd => congrArg Host.Outcome.next (retOp_empty h hg hd), fun h1 hd => congrArg Host.Outcome.next (retOp_held h hg h1 hd),
    fun hd hf => congrArg Host.Outcome.next (retOp_spilled h hg hd hf), fun f hd hf => congrArg Host.Outcome.next (retOp_faults h hg hd hf)⟩
  case pbr => exact congrArg (fun pc : Nat => put (BitVec.ofInt 24 ((pc : Int) + sextN 12 r))) (bundlePc_of_issue h)
  case br => exact congrArg (fun t => if preg c q = true then t else s) (hgo _ _)
  case brN => exact congrArg (fun t => if preg c q = true then s else t) (hgo _ _)

end Sys2Proof.Proofs
end

section
/-! PROOFS. The sequencer's operations (R172 to R178; tret, R287): what each asks of the line, the gang and the next bundle. -/

namespace Sys2Proof.Proofs

open Sys2Proof Sys2Proof.Machine

/-- A change made to each core of a list, and made twice the same as once. -/
theorem coreAt_foldl_modCore (f : Core → Core) (hf : ∀ k, f (f k) = f k) (l : List Nat) (s : State) (c : Nat) :
    coreAt (l.foldl (fun s n => modCore s n f) s) c = if c ∈ l then f (coreAt s c) else coreAt s c := by
  induction l generalizing s with
  | nil => simp
  | cons n l ih =>
    rw [List.foldl_cons, ih]
    by_cases hn : c = n
    · subst hn
      simp [coreAt_modCore_same, hf]
    · simp [coreAt_modCore_other _ _ _ _ hn, hn]

theorem foldl_modCore_frame (f : Core → Core) (l : List Nat) (s : State) :
    { l.foldl (fun s n => modCore s n f) s with cores := s.cores } = s := by
  induction l generalizing s with
  | nil => rfl
  | cons n l ih =>
    have hstep := congrArg (fun t : State => { t with cores := s.cores }) (ih (modCore s n f))
    exact hstep

/-- A member whose slice is used up (R174). -/
def sliceUsed (k : Core) : Core := { k with q := { k.q with yielded := true } }

/-- halt sets the loop rule of a body end aside (R167). -/
theorem noLoopRule_of_issue {s : State} {bu : Issue} (h : s.issue = some bu) :
    noLoopRule s = { s with issue := some { bu with noLoop := true } } := by simp only [noLoopRule, h]

/-- A bundle that a wheel position is awaited for does not begin (R177). -/
theorem nextBundle_wheel {s : State} {n m f dx words : Nat} {b : BitVec 384} {ops : List SlotOp}
    (hdef : (coreAt s n).f.deferred = []) (hland : (coreAt s n).q.landed = false) (hpass : (coreAt s n).q.newPass = none)
    (hready : (coreAt s n).q.ready ≤ (coreAt s n).q.act) (hb : bundleAt (coreAt s n) (coreAt s n).q.pc = some (b, dx, words))
    (hok : checkBundle (coreAt s n) b = .inr ops) (hdx : dx ≠ 0xFFFF) (hw : (coreAt s n).q.wheel = some m)
    (hne : (n + 256 - m) % 256 ≠ s.now % 256) :
    nextBundle (f + 1) s n = .ends (stillCycle s n 0x08) := by
  have hwait : (coreAt s n).q.wheel.any (fun m => (n + 256 - m) % 256 != s.now % 256) = true := by
    simp [hw, hne]
  rw [nextBundle]
  simp only [hdef, hland, Bool.false_eq_true, if_false, beginPass_of_none _ hpass, Bool.false_and, Nat.not_lt.mpr hready, hb, hok, hdx,
    decide_false, Bool.and_false, hwait, if_true]

/-- Settles O11: each operation run under its guard; then the bundle that waits for the wheel. -/
theorem sequencerOperations : Obligations.SequencerOperations := by
  unfold Obligations.SequencerOperations
  intro s bu p n x y z h hg hn hold
  have run {i : Instr} {g : State → State} {t : State} := exec_of_guarded (i := i) (g := g) (t := t) hg
  have hcn : hereNo s = bu.core := hereNo_of_issue h
  refine ⟨?empty, run rfl ?wheel, run rfl rfl, ⟨_, run rfl rfl, foldl_modCore_frame sliceUsed _ s, ?yield⟩, run rfl rfl,
    run rfl (noLoopRule_of_issue (s := hold .halt) h),
    fun hon harm => run rfl ?brkArmed, fun hoff => run rfl ?brkOff, run rfl ?trap, fun hin => run rfl ?tret, fun hout => run rfl ?tretOut,
    fun t c m f dx words b ops hdef hland hpass hready hb hok hdx hw hne => nextBundle_wheel hdef hland hpass hready hb hok hdx hw hne⟩
  case empty =>
    simp only [List.forall_mem_cons]
    exact ⟨rfl, rfl, rfl, rfl, rfl, rfl, rfl, rfl, rfl, rfl, rfl, fun _ h => nomatch h⟩
  case wheel => rw [Nat.mod_eq_of_lt hn]
  case yield => rw [hcn]; exact coreAt_foldl_modCore sliceUsed (fun _ => rfl) _ s
  case brkArmed => simp only [hcn, hon, harm, Bool.and_self, if_true]
  case brkOff =>
    have hno : (dbgOn s bu.core && (dbgRd s bu.core 0).getLsbD 62) = false := by
      rcases hoff with hoff | hoff
      · rw [hoff, Bool.false_and]
      · rw [hoff, Bool.and_false]
    simp only [hcn, hno, Bool.false_eq_true, if_false]
  case trap => simp only [h]
  case tret => exact if_neg (by simp [hin])
  case tretOut => simp only [hout, Bool.not_false, if_true, raise_issue s bu h]

end Sys2Proof.Proofs
end

section
/-! PROOFS. Counter waits (R108, R109, R170, R171): one look as the wait issues, and how a line held in a wait is let go. -/

namespace Sys2Proof.Proofs

open Sys2Proof Sys2Proof.Machine

/-! ## What is counted of a read leaves the bundle that issues alone (R369, R442, R443) -/

theorem setHealth_issue (s : State) (k : Nat) : (setHealth s k).issue = s.issue := by
  unfold setHealth
  dsimp only
  split
  · rfl
  · rw [post_issue, barWr_issue]

theorem stackCount_issue (s : State) (off k : Nat) : (stackCount s off k).issue = s.issue := by
  unfold stackCount
  dsimp only
  split
  · rfl
  · split
    · rw [setHealth_issue, barWr_issue]
    · rw [barWr_issue]

theorem ueCount_issue (s : State) (pa n : Nat) : (ueCount s pa n).issue = s.issue :=
  foldl_keeps State.issue (fun s a => stackCount s (0x00060108 + 16 * stackOf s a) 8) (fun _ _ => stackCount_issue ..) _ s

theorem ceCount_issue (s : State) (pa n : Nat) : (ceCount s pa n).issue = s.issue := by
  refine foldl_keeps State.issue _ (fun t a => ?_) _ s
  dsimp only
  split
  · rw [setHealth_issue, stackCount_issue]
  · rw [stackCount_issue]

theorem bumpErr_issue (s : State) (asid : Nat) : (bumpErr s asid).issue = s.issue := by
  unfold bumpErr
  dsimp only
  split
  · rfl
  · rw [setHealth_issue, memSetNat_issue]

theorem readErrors_issue (s : State) (asid pa n : Nat) : (readErrors s asid pa n).issue = s.issue :=
  (foldl_keeps State.issue (fun s _ => bumpErr s asid) (fun _ _ => bumpErr_issue ..) _ _).trans
    ((ceCount_issue ..).trans (ueCount_issue ..))

theorem ctrSeen_issue (s : State) (asid : Nat) (k : CtrAt) : (ctrSeen s asid k).issue = s.issue := by
  cases k with
  | file c n => rfl
  | hbm pa => exact readErrors_issue s asid pa 8

theorem ctrUe_issue (s : State) (k : CtrAt) : (ctrUe s k).issue = s.issue := by
  cases k with
  | file c n => rfl
  | hbm pa => exact ueCount_issue s pa 8

theorem walkNote_issue (s : State) (asid va reason : Nat) : (walkNote s asid va reason).issue = s.issue := by
  unfold walkNote
  dsimp only
  split
  · rfl
  · rw [setHealth_issue]
    split
    · exact ueCount_issue ..
    · rfl

theorem postPage_issue (s : State) (asid va reason : Nat) : (postPage s asid va reason).issue = s.issue := by
  unfold postPage
  split
  · exact post_issue ..
  · exact walkNote_issue ..

/-! ## A wait as it issues (R170, R171) -/

variable {s : State} {bu : Issue}

/-- A fault of the bundle that issues, from a state in which something has been counted already. -/
theorem raise_counted {t : State} (h : s.issue = some bu) (ht : t.issue = s.issue) (dflt cause detail : Nat) (addr : Word) :
    raise t (slotNow s dflt) cause detail addr = recorded t bu cause detail addr := by
  have hs : slotNow s dflt = slotNow t dflt := by simp only [slotNow, ht]
  rw [hs, raise_issue t bu (ht.trans h)]

/-- A counter that is not poisoned has reached a threshold when its word has (R101). -/
theorem ctrReached_of_unpoisoned {x : Word} (v : Nat) (h : x.getLsbD 63 = false) : ctrReached x v = decide (v ≤ x.toNat) := by
  rw [ctrReached, h, value_of_unpoisoned h, Bool.not_false, Bool.true_and]

/-- The line held for a wait that has begun in this bundle (R108, R109). -/
def waitHeld (bu : Issue) (own : Bool) (ct a p : Nat) (va thr tmo : Word) (trap : Bool) (w : WaitPlace) (u : State) : State :=
  modCore u bu.core fun c => { c with q := { c.q with
    hold := .counter own ct a va w (thr.toNat % 2 ^ 63) tmo.toNat u.dev p trap (regs u bu.core w) (u.dev + nsDev 64) 64 } }

/-- Where the counter of a wait stands: in the core's own file, or where its address leads. -/
def waitPlace (s : State) (cn : Nat) (own : Bool) (ct : Nat) (va : Word) : WaitAt :=
  if own then .at_ (.near (.file cn ct)) else waitAt s cn va.toNat

variable {own : Bool} {ct a p : Nat} {va thr tmo : Word} {trap : Bool}

/-- A wait on a counter of this package looks at it once (R108, R369). -/
theorem waitOp_near (h : s.issue = some bu) {k : CtrAt} (hk : waitPlace s bu.core own ct va = .at_ (.near k)) :
    let x := ctrRead s k
    let u := ctrSeen s (asidOf (here s)) k
    waitOp own ct a va thr tmo trap p s =
      if ctrStrict s (asidOf (here s)) k = true then recorded (ctrUe s k) bu 0x1C 0 va
      else if x.getLsbD 63 = true then (if trap = true then recorded u bu 0x11 0 0 else putP u p false)
      else if thr.toNat % 2 ^ 63 ≤ x.toNat then u
      else if tmo = 0 then putP u p false else waitHeld bu own ct a p va thr tmo trap (.near k) u := by
  intro x u
  have hu : u.issue = s.issue := ctrSeen_issue ..
  simp only [waitOp, hereNo_of_issue h]
  rw [← waitPlace, hk]
  dsimp only
  rw [raise_counted h (ctrUe_issue s k), raise_issue u bu (hu.trans h)]
  cases hx : (ctrRead s k).getLsbD 63 with
  | true => rfl
  | false =>
    rw [ctrReached_of_unpoisoned _ hx]
    simp only [decide_eq_true_eq]
    rfl

/-- A wait on a counter of another package holds the line for the poll (R109). -/
theorem waitOp_far (h : s.issue = some bu) {w : List Nat} {v o : Nat} (hk : waitPlace s bu.core own ct va = .at_ (.far w v o)) :
    waitOp own ct a va thr tmo trap p s = waitHeld bu own ct a p va thr tmo trap (.far w v o) s := by
  simp only [waitOp, hereNo_of_issue h]
  rw [← waitPlace, hk]
  rfl

/-- A wait whose address leads to no counter faults at its bundle (R171). -/
theorem waitOp_fault (h : s.issue = some bu) {f d : Nat} (hk : waitPlace s bu.core own ct va = .fault f d) :
    waitOp own ct a va thr tmo trap p s =
      recorded (if f = 0x0B then postPage s (asidOf (here s)) va.toNat d else s) bu f d va := by
  simp only [waitOp, hereNo_of_issue h]
  rw [← waitPlace, hk]
  refine raise_counted h ?_ 11 f d va
  split
  · exact postPage_issue ..
  · rfl

/-! ## A core held in a wait (R108, R109) -/

/-- The wait let go. -/
def waitFreed (k : Core) : Core := { k with q := { k.q with hold := .none } }

/-- What a held wait makes of its counter's word, with what follows where it is neither poisoned nor reached (R108). -/
def waitSaw (u : State) (c v g : Nat) (tr : Bool) (x : Word) (rest : State) : State :=
  if x.getLsbD 63 = true then
    if tr = true then heldFault (modCore u c waitFreed) c 11 0x11 0 0 else modCore u c fun k => setP (waitFreed k) g false
  else if v ≤ x.toNat then modCore u c waitFreed else rest

theorem seeWait_eq (u : State) (c v g : Nat) (tr : Bool) (x : Word) : seeWait u c x v g tr = waitSaw u c v g tr x u := by
  unfold seeWait waitSaw
  cases hx : x.getLsbD 63 with
  | true => rfl
  | false =>
    simp only [ctrReached_of_unpoisoned _ hx, decide_eq_true_eq, Bool.false_eq_true, if_false]
    rfl

/-- The wait that looks once more before it goes on otherwise (R108). -/
theorem seeWait_else (u : State) (c v g : Nat) (tr : Bool) (x : Word) (rest : State) :
    (if (x.getLsbD 63 || ctrReached x v) = true then seeWait u c x v g tr else rest) = waitSaw u c v g tr x rest := by
  rw [seeWait_eq]
  unfold waitSaw
  cases hx : x.getLsbD 63 with
  | true => rfl
  | false =>
    rw [ctrReached_of_unpoisoned v hx]
    by_cases hv : v ≤ x.toNat <;> simp [hv]

/-- The look of a held wait at a counter of this package (R108, R369). -/
def waitLook (s : State) (c : Nat) (k : CtrAt) (va : Word) (v g : Nat) (tr : Bool) (rest : State → State) : State :=
  let u := ctrSeen s (asidOf (coreAt s c)) k
  if ctrStrict s (asidOf (coreAt s c)) k = true then heldFault (modCore (ctrUe s k) c waitFreed) c 11 0x1C 0 va
  else waitSaw u c v g tr (ctrRead s k) (rest u)

theorem lookWait_seeWait (s : State) (c : Nat) (k : CtrAt) (va : Word) (v g : Nat) (tr : Bool) :
    lookWait s c k va (fun s x => seeWait s c x v g tr) = waitLook s c k va v g tr id := by
  simp only [lookWait, seeWait_eq]
  rfl

theorem lookWait_else (s : State) (c : Nat) (k : CtrAt) (va : Word) (v g : Nat) (tr : Bool) (rest : State → State) :
    (lookWait s c k va fun s x => if (x.getLsbD 63 || ctrReached x v) = true then seeWait s c x v g tr else rest s) =
      waitLook s c k va v g tr rest := by
  simp only [lookWait, seeWait_else]
  rfl

/-- The clauses of R108 for a held wait's event that is such a look. -/
theorem waitLook_cases {s : State} {out : Ans} {c v g : Nat} {k : CtrAt} {tr : Bool} {rest : State → State}
    (ho : out = .next (waitLook s c k va v g tr rest)) :
    let x := ctrRead s k
    let u := ctrSeen s (asidOf (coreAt s c)) k
    let strict := ctrStrict s (asidOf (coreAt s c)) k = true
    (strict → out = .next (heldFault (modCore (ctrUe s k) c waitFreed) c 11 0x1C 0 va)) ∧
    (¬strict → x.getLsbD 63 = false → v ≤ x.toNat → out = .next (modCore u c waitFreed)) ∧
    (¬strict → x.getLsbD 63 = true → tr = false → out = .next (modCore u c fun k => setP (waitFreed k) g false)) ∧
    (¬strict → x.getLsbD 63 = true → tr = true → out = .next (heldFault (modCore u c waitFreed) c 11 0x11 0 0)) ∧
    (¬strict → x.getLsbD 63 = false → x.toNat < v → out = .next (rest u)) := by
  unfold waitLook waitSaw at ho
  refine ⟨fun h => ?_, fun h hx hv => ?_, fun h hx ht => ?_, fun h hx ht => ?_, fun h hx hv => ?_⟩
  · rw [ho, if_pos h]
  · rw [ho, if_neg h, if_neg (Bool.eq_false_iff.mp hx), if_pos hv]
  · rw [ho, if_neg h, if_pos hx, if_neg (Bool.eq_false_iff.mp ht)]
  · rw [ho, if_neg h, if_pos hx, if_pos ht]
  · rw [ho, if_neg h, if_neg (Bool.eq_false_iff.mp hx), if_neg (Nat.not_le.mpr hv)]

section
variable {c v t0 g poll ivl t : Nat} {tr reg : Bool} {w : WaitPlace}

/-- COUNTER_WAIT_SATISFIED of a registered wait is a look (R109). -/
theorem counterWaitSatisfied_near {k : CtrAt} (hw : (coreAt s c).q.hold = .counter own ct a va (.near k) v t t0 g tr true poll ivl) :
    exec (.counterWaitSatisfied c) s = .next (waitLook s c k va v g tr id) := by
  rw [exec_counterWaitSatisfied, execCounterWaitSatisfied, hw, ← lookWait_seeWait]

variable (hw : (coreAt s c).q.hold = .counter own ct a va w v t t0 g tr reg poll ivl)
include hw

/-- Before its time-out a wait goes on (R108). -/
theorem counterWaitTimeout_early (hd : s.dev < t0 + nsDev t) : exec (.counterWaitTimeout c) s = .next s := by
  rw [exec_counterWaitTimeout, execCounterWaitTimeout, hw]
  exact if_pos hd

/-- At its time-out a wait on a counter of this package looks once more, and else ends with false (R108, R170). -/
theorem counterWaitTimeout_near {k : CtrAt} (hk : w = .near k) (hd : t0 + nsDev t ≤ s.dev) :
    exec (.counterWaitTimeout c) s = .next (waitLook s c k va v g tr fun u => modCore u c fun k => setP (waitFreed k) g false) := by
  rw [exec_counterWaitTimeout, execCounterWaitTimeout, hw, hk]
  exact (if_neg (Nat.not_lt.mpr hd)).trans (congrArg Host.Outcome.next (lookWait_else ..))

/-- At its time-out a wait on another package's counter ends with false, but for one that waits for its one poll (R108). -/
theorem counterWaitTimeout_far {x : List Nat} {y o : Nat} (hk : w = .far x y o) (hd : t0 + nsDev t ≤ s.dev) :
    exec (.counterWaitTimeout c) s = .next (if t = 0 then s else modCore s c fun k => setP (waitFreed k) g false) := by
  rw [exec_counterWaitTimeout, execCounterWaitTimeout, hw, hk]
  exact if_neg (Nat.not_lt.mpr hd)

end

/-- The next poll of a wait: after twice the interval, at most 4 µs, with an entry of the monitor table if there is one (R109). -/
def pollLater (c : Nat) (own : Bool) (ct a : Nat) (va : Word) (w : WaitPlace) (v t t0 g : Nat) (tr : Bool) (ivl : Nat) (u : State) : State :=
  modCore u c fun k => { k with q := { k.q with
    hold := .counter own ct a va w v t t0 g tr (regs u c w) (u.dev + nsDev (min 4000 (2 * ivl))) (min 4000 (2 * ivl)) } }

section
variable {c v t0 g poll ivl t : Nat} {tr : Bool} {w : WaitPlace}
  (hw : (coreAt s c).q.hold = .counter own ct a va w v t t0 g tr false poll ivl)
include hw

theorem monitorPoll_early (hd : s.dev < poll) : exec (.monitorPoll c) s = .next s := by
  rw [exec_monitorPoll, execMonitorPoll, hw]
  exact if_pos hd

/-- A poll of a counter of this package is a look (R109). -/
theorem monitorPoll_near {k : CtrAt} (hk : w = .near k) (hd : poll ≤ s.dev) :
    exec (.monitorPoll c) s = .next (waitLook s c k va v g tr (pollLater c own ct a va w v t t0 g tr ivl)) := by
  rw [exec_monitorPoll, execMonitorPoll, hw, hk]
  exact (if_neg (Nat.not_lt.mpr hd)).trans (congrArg Host.Outcome.next (lookWait_else ..))

/-- A poll of another package's counter sends the next read (R109, R380). -/
theorem monitorPoll_far {x : List Nat} {y o : Nat} (hk : w = .far x y o) (hd : poll ≤ s.dev) :
    exec (.monitorPoll c) s = .next (pollLater c own ct a va w v t t0 g tr ivl (pollSend s c x y o)) := by
  rw [exec_monitorPoll, execMonitorPoll, hw, hk]
  exact if_neg (Nat.not_lt.mpr hd)

end

/-- The clauses of R108 and R170 for a wait as it issues, from what the look leaves. -/
theorem issue_look_cases {out : Ans} {v : Nat} {strict : Bool} {x : Word} {ue poisoned off reached held : State}
    (ho : out = .next (if strict = true then ue else if x.getLsbD 63 = true then (if trap = true then poisoned else off)
      else if v ≤ x.toNat then reached else if tmo = 0 then off else held)) :
    (strict = true → out = .next ue) ∧
    (¬strict = true → x.getLsbD 63 = false → v ≤ x.toNat → out = .next reached) ∧
    (¬strict = true → x.getLsbD 63 = true → trap = true → out = .next poisoned) ∧
    (¬strict = true → x.getLsbD 63 = true → trap = false → out = .next off) ∧
    (¬strict = true → x.getLsbD 63 = false → x.toNat < v → tmo = 0 → out = .next off) ∧
    (¬strict = true → x.getLsbD 63 = false → x.toNat < v → tmo ≠ 0 → out = .next held) := by
  refine ⟨fun h => ?_, fun h hx hv => ?_, fun h hx ht => ?_, fun h hx ht => ?_, fun h hx hv ht => ?_, fun h hx hv ht => ?_⟩
  · rw [ho, if_pos h]
  · rw [ho, if_neg h, if_neg (Bool.eq_false_iff.mp hx), if_pos hv]
  · rw [ho, if_neg h, if_pos hx, if_pos ht]
  · rw [ho, if_neg h, if_pos hx, if_neg (Bool.eq_false_iff.mp ht)]
  · rw [ho, if_neg h, if_neg (Bool.eq_false_iff.mp hx), if_neg (Nat.not_le.mpr hv), if_pos ht]
  · rw [ho, if_neg h, if_neg (Bool.eq_false_iff.mp hx), if_neg (Nat.not_le.mpr hv), if_neg ht]

/-- Settles O10: a wait as it issues by where its counter stands, a held wait by what its look finds. -/
theorem counterWaits : Obligations.CounterWaits := by
  unfold Obligations.CounterWaits
  refine ⟨fun s bu p ct a h hg => ?issues, fun s c ct a v tmo t0 g poll ivl own tr reg va w hw => ?held⟩
  case issues =>
    intro r held waits
    have run {i : Instr} {g : State → State} {t : State} := exec_of_guarded (i := i) (g := g) (t := t) hg
    refine ⟨issue_look_cases (run rfl (waitOp_near h rfl)), issue_look_cases (run rfl (waitOp_near h rfl)), ?_⟩
    rintro ⟨op, tr⟩ he
    have hop : exec op s = .next (waitOp false 0 a (r 0) (r 1) (r 2) tr p s) := by
      simp only [List.mem_cons, List.not_mem_nil, or_false, Prod.mk.injEq] at he
      rcases he with ⟨rfl, rfl⟩ | ⟨rfl, rfl⟩
      · exact run rfl rfl
      · exact run rfl rfl
    have does {t : State} (ht : waitOp false 0 a (r 0) (r 1) (r 2) tr p s = t) := hop.trans (congrArg Host.Outcome.next ht)
    refine ⟨fun k hk => issue_look_cases (does (waitOp_near h hk)), fun w v o hk => does (waitOp_far h hk),
      fun f d hk hf => does ((waitOp_fault (own := false) h hk).trans ?_), fun d hk => does (waitOp_fault (own := false) h hk)⟩
    rw [if_neg hf]
  case held =>
    intro free i later no sees
    refine ⟨fun k hk hr => ?satisfied, counterWaitTimeout_early hw, fun hd => ⟨fun k hk => waitLook_cases (counterWaitTimeout_near hw hk hd),
      fun x y o hk ht => ?oneRead, fun x y o hk ht => ?farEnds⟩, fun hr hd => ?pollEarly, fun hr hd => ?poll⟩
    case satisfied =>
      rw [hk, hr] at hw
      exact waitLook_cases (counterWaitSatisfied_near hw)
    case oneRead => exact (counterWaitTimeout_far hw hk hd).trans (congrArg Host.Outcome.next (if_pos ht))
    case farEnds => exact (counterWaitTimeout_far hw hk hd).trans (congrArg Host.Outcome.next (if_neg ht))
    case pollEarly =>
      rw [hr] at hw
      exact monitorPoll_early hw hd
    case poll =>
      rw [hr] at hw
      exact ⟨fun k hk => waitLook_cases (monitorPoll_near hw hk hd), fun x y o hk => monitorPoll_far hw hk hd⟩

end Sys2Proof.Proofs
end

section
/-! PROOFS. Rational operations (R196 to R205): the start in a scalar slot, which operation can meet a zero denominator (R200), the
landing (R198), and the values that the tables of R202, R204 and R205 give. -/

namespace Sys2Proof.Proofs

open Sys2Proof Sys2Proof.Machine

/-! ## What an operation computes -/

@[simp] theorem ratPlain_zd (v : Word) (bad : Bool) : (ratPlain v bad).zd = false := rfl
@[simp] theorem ratNar_zd (bad nv : Bool) : (ratNar bad nv).zd = false := rfl
@[simp] theorem ratRound_zd (scr : Word) (bad neg : Bool) (x : FsExact) : (ratRound scr bad neg x).zd = false := rfl

@[simp] theorem toI64_zd (neg : Bool) (q : Nat) (nx bad : Bool) : (toI64 neg q nx bad).zd = false := by
  simp only [toI64, apply_ite RatOut.zd, ite_self]

@[simp] theorem ratAdd_zd (scr : Word) (bad : Bool) (x y : FsVal) : (ratAdd scr bad x y).zd = false := by
  cases x with
  | nar => rfl
  | inf a => cases y with
    | nar | fin => rfl
    | inf b => simp only [ratAdd, apply_ite RatOut.zd, ratPlain_zd, ratNar_zd, ite_self]
  | fin => cases y <;> rfl

@[simp] theorem ratMul_zd (scr : Word) (bad : Bool) (x y : FsVal) : (ratMul scr bad x y).zd = false := by
  cases x with
  | nar => rfl
  | inf a => cases y with
    | nar | inf => rfl
    | fin => simp only [ratMul, apply_ite RatOut.zd, ratPlain_zd, ratNar_zd, ite_self]
  | fin => cases y with
    | nar | fin => rfl
    | inf => simp only [ratMul, apply_ite RatOut.zd, ratPlain_zd, ratNar_zd, ite_self]

@[simp] theorem ratSqrt_zd (scr : Word) (bad : Bool) (x : FsVal) : (ratSqrt scr bad x).zd = false := by
  cases x with
  | nar => rfl
  | inf | fin => simp only [ratSqrt, apply_ite RatOut.zd, ratPlain_zd, ratNar_zd, ratRound_zd, ite_self]

@[simp] theorem ratCvt_zd (scr : Word) (fn : Nat) (a : Word) : (ratCvt scr fn a).zd = false := by
  unfold ratCvt
  split
  case h_1 => dsimp only; split <;> simp only [toI64_zd]
  case h_2 => rfl
  case h_3 => dsimp only; split <;> rfl
  case h_4 => split <;> rfl

@[simp] theorem ratMed_zd (scr : Word) (bad : Bool) (x y : FsVal) : (ratMed scr bad x y).zd = false := by
  simp only [ratMed, apply_ite RatOut.zd, ratPlain_zd, ratNar_zd, ratRound_zd, ite_self]

@[simp] theorem ratNear_zd (bad : Bool) (x : FsVal) (b : Word) : (ratNear bad x b).zd = false := by cases x <;> rfl

@[simp] theorem ratUnary_zd (scr : Word) (fn : Nat) (a : Word) : (ratUnary scr fn a).zd = false := by
  unfold ratUnary
  dsimp only
  split
  case h_1 | h_2 | h_3 | h_4 | h_8 => rfl
  case h_5 =>
    split
    · rfl
    · rfl
    · split <;> rfl
  case h_6 =>
    split
    · rfl
    · split <;> rfl
    · split <;> rfl
  case h_7 => split <;> rfl

/-- Of all operations only a quotient and `fs.mk` by 0 meet a zero denominator (R200). -/
theorem ratEval_zd {r : RatOp} (hdiv : r.op ≠ 0x33) (hmk : r.op = 0x3C → r.b ≠ 0) : (ratEval r).zd = false := by
  unfold ratEval
  dsimp only
  split
  case h_4 h => exact absurd h hdiv
  case h_13 h => rw [if_neg (hmk h), ratRound_zd]
  all_goals simp only [ratAdd_zd, ratMul_zd, ratSqrt_zd, ratPlain_zd, ratCvt_zd, ratMed_zd, ratNear_zd, ratUnary_zd]

theorem ratEval_gcd {r : RatOp} (h : r.op = 0x3B) : ratEval r = ratPlain (BitVec.ofNat 64 (Nat.gcd r.a.toNat r.b.toNat)) false := by
  simp only [ratEval, h]

theorem ratEval_mk {r : RatOp} (h : r.op = 0x3C) : ratEval r =
    if r.b = 0 then ratZero false (r.a == 0) r.a.msb else ratRound r.scr false r.a.msb ⟨r.a.toInt.natAbs, r.b.toNat, false⟩ := by
  simp only [ratEval, h]

/-- `fs.mk` meets a zero denominator exactly when its denominator operand is 0 (R200). -/
theorem ratEval_mk_zd {r : RatOp} (h : r.op = 0x3C) : (ratEval r).zd = decide (r.b = 0) := by
  rw [ratEval_mk h, apply_ite RatOut.zd, ratRound_zd]
  by_cases hb : r.b = 0
  · rw [if_pos hb, decide_eq_true hb]; rfl
  · rw [if_neg hb, decide_eq_false hb]

theorem ratEval_med {r : RatOp} (h : r.op = 0x3D) :
    ratEval r = ratMed r.scr ((fsRead r.a).2 || (fsRead r.b).2) (fsRead r.a).1 (fsRead r.b).1 := by
  simp only [ratEval, h]

theorem ratEval_neg {r : RatOp} (h : r.op = 0x3A) : ratEval r = ratPlain (fsPat (fsNeg (fsRead r.a).1)) (fsRead r.a).2 := by
  simp only [ratEval, h]

theorem ratUnary_num (scr a : Word) : (ratUnary scr 0 a).v = fsNumWord (fsRead a).1 := rfl
theorem ratUnary_den (scr a : Word) : (ratUnary scr 1 a).v = fsDenWord (fsRead a).1 := rfl
theorem ratUnary_class (scr a : Word) : (ratUnary scr 2 a).v = fsClassBits a := rfl
theorem ratUnary_canon (scr a : Word) : (ratUnary scr 3 a).v = fsPat (fsRead a).1 := rfl

theorem ratEval_unary {r : RatOp} (h : r.op = 0x3F) : ratEval r = ratUnary r.scr r.fn r.a := by
  simp only [ratEval, h]

/-- The mediant of finite fractions: the sum of the numerators over that of the denominators, rounded (R204). -/
theorem ratMed_fin (scr : Word) (bad g h : Bool) {m n j k : Nat} (hj : j ≠ 0) :
    let top : Int := (if g then -(m : Int) else m) + (if h then -(n : Int) else n)
    ratMed scr bad (.fin g m j) (.fin h n k) = ratRound scr bad (decide (top < 0)) ⟨top.natAbs, j + k, false⟩ := by
  simp only [ratMed, FsVal.isNar, fsFraction, Bool.or_self, Bool.false_eq_true, if_false, hj, decide_false, Bool.false_and]
  rfl

/-! ## The start (R196, R198, R200) -/

/-- A core after the start of a rational operation: it is in flight and has the scalar floating datapath (R198, R303). -/
def withRat (r : RatOp) (k : Core) : Core :=
  { k with f := { k.f with
      rat := some { r with land := k.q.act + ratLatency r - 1, lat := ratLatency r }
      fpBusy := k.q.act + ratLatency r } }

/-- The operation that a slot starts: its operands and SCR as they stood before the bundle (R196, R199). -/
def ratIssued (s : State) (p op fn d a b : Nat) : RatOp :=
  ⟨op, fn, d, sreg (here s) a, sreg (here s) b, (here s).r.scr, 0, false, 0, ratWord p op fn d a b⟩

/-- The start of such an operation from slot S0 or S1. -/
def startIssued (s : State) (p op fn d a b : Nat) : State :=
  ratStart s 10 op fn d (ratWord p op fn d a b) (sreg (here s) a) (sreg (here s) b)

section
variable {s : State} {bu : Issue} {p op fn d a b : Nat}

theorem startIssued_inFlight (hz : (ratEval (ratIssued s p op fn d a b)).zd = false ∨ scrZDT (here s).r.scr = false) :
    startIssued s p op fn d a b = wr s (withRat (ratIssued s p op fn d a b)) := by
  have hno : ((ratEval (ratIssued s p op fn d a b)).zd && scrZDT (here s).r.scr) = false := by
    rcases hz with h | h
    · rw [h, Bool.false_and]
    · rw [h, Bool.and_false]
  exact if_neg (Bool.eq_false_iff.mp hno)

/-- A zero denominator under ZDT: ZD is set and the trap is on record, nothing is in flight (R200). -/
theorem startIssued_traps (h : s.issue = some bu) (hz : (ratEval (ratIssued s p op fn d a b)).zd = true) (ht : scrZDT (here s).r.scr = true) :
    startIssued s p op fn d a b = recorded (orSticky s 0x40) bu 0x17 0 0 := by
  have hyes : ((ratEval (ratIssued s p op fn d a b)).zd && scrZDT (here s).r.scr) = true := by rw [hz, ht, Bool.and_self]
  exact (if_pos hyes).trans (raise_counted h (orSticky_issue s _) ..)

theorem startIssued_inFlight_of_op (hop : op ≠ 0x33 ∧ op ≠ 0x3C) :
    startIssued s p op fn d a b = wr s (withRat (ratIssued s p op fn d a b)) :=
  startIssued_inFlight (.inl (ratEval_zd hop.1 fun h => absurd h hop.2))

theorem ratOp_start (hg : guardOf s p = true) : ratOp op fn p d a b s = startIssued s p op fn d a b := guarded_true s p _ hg

theorem fpOp_start (hg : guardOf s p = true) (hrm : scrRM (here s).r.scr = true) (lat : Nat) (f : Word → Word → Word → Word × Word) :
    fpOp op fn lat f p d a b s = startIssued s p op fn d a b := by
  rw [fpOp, guarded_true s p _ hg]
  exact if_pos hrm

theorem fcmpOp_start (hg : guardOf s p = true) (hrm : scrRM (here s).r.scr = true) (f : FpVal → FpVal → Bool) :
    fcmpOp fn f p d a b s = startIssued s p 0x37 fn d a b := by
  rw [fcmpOp, guarded_true s p _ hg]
  exact if_pos hrm

end

/-! ## The landing (R198) -/

theorem modCore_congr {s : State} {c : Nat} {f g : Core → Core} (h : f (coreAt s c) = g (coreAt s c)) : modCore s c f = modCore s c g := by
  simp only [modCore, h]

theorem preg_setP (c : Core) (d : Nat) (v : Bool) {n : Nat} (hn : n < 16) :
    preg (setP c d v) n = if n = 0 then true else if n = d then v else preg c n :=
  preg_setPBit c.r.p d n v hn

@[simp] theorem sreg_setP (c : Core) (d : Nat) (v : Bool) (n : Nat) : sreg (setP c d v) n = sreg c n := rfl

theorem setS_scr (c : Core) (n : Nat) (v : Word) : (setS c n v).r.scr = c.r.scr := by unfold setS; split <;> rfl
theorem setS_p (c : Core) (n : Nat) (v : Word) : (setS c n v).r.p = c.r.p := by unfold setS; split <;> rfl

/-- A core whose rational operation has ended, with its sticky bits in SCR and its result yet to write. -/
def ratEnded (r : RatOp) (k : Core) : Core :=
  { k with f := { k.f with rat := none }, r := { k.r with scr := k.r.scr ||| (ratEval r).sticky } }

section
variable {k : Core} {r : RatOp}

theorem ratFinish_register (h : k.f.rat = some r) (hop : r.op ≠ 0x37) : ratFinish k = setS (ratEnded r k) r.d (ratEval r).v := by
  simp only [ratFinish, h, hop, decide_false, Bool.false_and, Bool.false_eq_true, if_false, ratEnded]

theorem ratFinish_void (h : k.f.rat = some r) (hop : r.op = 0x37) (hv : r.void = true) : ratFinish k = ratEnded r k := by
  simp only [ratFinish, h, hop, hv, decide_true, Bool.and_self, if_true, ratEnded]

theorem ratFinish_compare (h : k.f.rat = some r) (hop : r.op = 0x37) (hv : r.void = false) :
    ratFinish k = setP (setP (ratEnded r k) (2 * r.d) (ratEval r).cond) (2 * r.d + 1) (!(ratEval r).cond) := by
  simp only [ratFinish, h, hop, hv, Bool.and_false, Bool.false_eq_true, if_false, if_true, ratEnded]

/-- What every landing leaves: nothing in flight, the sticky bits in, the memories as they were (R198). -/
theorem ratFinish_common (h : k.f.rat = some r) : (ratFinish k).f = { k.f with rat := none } ∧
    (ratFinish k).r.scr = k.r.scr ||| (ratEval r).sticky ∧ (ratFinish k).m = k.m := by
  by_cases hop : r.op = 0x37
  · cases hv : r.void with
    | true => rw [ratFinish_void h hop hv]; exact ⟨rfl, rfl, rfl⟩
    | false => rw [ratFinish_compare h hop hv]; exact ⟨rfl, rfl, rfl⟩
  · rw [ratFinish_register h hop]
    exact ⟨setS_f .., setS_scr .., setS_m ..⟩

theorem ratFinish_registers (h : k.f.rat = some r) (hop : r.op ≠ 0x37) : (ratFinish k).r.p = k.r.p ∧
    ∀ n, sreg (ratFinish k) n = if n = r.d ∧ n ≠ 0 then (ratEval r).v else sreg k n := by
  rw [ratFinish_register h hop]
  refine ⟨setS_p .., fun n => ?_⟩
  rw [sreg_setS]
  by_cases hn : n = r.d
  · subst hn
    by_cases h0 : r.d = 0
    · simp [h0, sreg]
    · simp [h0]
  · simp only [hn, if_false, false_and]
    rfl

theorem ratFinish_predicates (h : k.f.rat = some r) (hop : r.op = 0x37) : (∀ n, sreg (ratFinish k) n = sreg k n) ∧
    ∀ n, n < 16 → preg (ratFinish k) n = if n = 0 then true else if r.void = true then preg k n else if n = 2 * r.d then (ratEval r).cond
      else if n = 2 * r.d + 1 then !(ratEval r).cond else preg k n := by
  cases hv : r.void with
  | true =>
    rw [ratFinish_void h hop hv]
    refine ⟨fun _ => rfl, fun n _ => ?_⟩
    by_cases h0 : n = 0
    · subst h0; rfl
    · simp only [h0, if_false, if_true]; rfl
  | false =>
    rw [ratFinish_compare h hop hv]
    refine ⟨fun _ => rfl, fun n hn => ?_⟩
    rw [preg_setP _ _ _ hn, preg_setP _ _ _ hn]
    by_cases heven : n = 2 * r.d
    · simp [heven]
    · simp only [heven, if_false, Bool.false_eq_true]
      split <;> rfl

theorem ratDue_early (h : k.f.rat = some r) (hl : k.q.act ≤ r.land) : ratDue k = k := by
  simp only [ratDue, h, Nat.not_lt.mpr hl, if_false]

theorem ratDue_landed (h : k.f.rat = some r) (hl : r.land < k.q.act) : ratDue k = ratFinish k := by
  simp only [ratDue, h, hl, if_true]

end

/-! ## The statement -/

/-- Settles O7: a form starts its operation under its guard, zero denominators apart; a landing by the kind of its result; the values by
the opcode's equation. -/
theorem rationalOperations : Obligations.RationalOperations := by
  unfold Obligations.RationalOperations
  refine ⟨fun s bu p d a b h hg => ?starts, fun s c r hr => ⟨fun hl => ?early, fun hl => ?lands, fun hop => ?gcd, fun hop hb => ?mk,
    fun hop m n j k g h ha hb hj => ?med, fun hop => ?neg, fun hop => ?unary⟩⟩
  case starts =>
    intro x y scr flight zero byZero
    have flies {i : Instr} {op fn b : Nat} {t : State} (hi : exec i s = .next t) (ht : t = startIssued s p op fn d a b)
        (hop : op ≠ 0x33 ∧ op ≠ 0x3C) : exec i s = .next (flight op fn x (sreg (here s) b) b) := by
      rw [hi, ht, startIssued_inFlight_of_op hop]; rfl
    have hmk : exec (.fsMk p d a b) s = .next (startIssued s p 0x3C 0 d a b) := congrArg Host.Outcome.next (ratOp_start hg)
    have unary {i : Instr} {fn : Nat} (hi : exec i s = .next (ratOp 0x3F fn p d a 0 s)) : exec i s = .next (flight 0x3F fn x 0 0) :=
      flies hi (ratOp_start hg) (by decide)
    refine ⟨flies rfl (ratOp_start hg) (by decide), flies rfl (ratOp_start hg) (by decide), flies rfl (ratOp_start hg) (by decide),
      fun hy => hmk.trans (congrArg Host.Outcome.next (startIssued_inFlight (hy.imp_left fun h0 => (ratEval_mk_zd rfl).trans (decide_eq_false h0)))),
      fun hy ht => hmk.trans (congrArg Host.Outcome.next (startIssued_traps h ((ratEval_mk_zd rfl).trans (decide_eq_true hy)) ht)),
      ?unaries, fun hrm => ?underRM⟩
    case unaries =>
      simp only [List.forall_mem_cons]
      exact ⟨unary rfl, unary rfl, unary rfl, unary rfl, unary rfl, unary rfl, unary rfl, unary rfl, fun _ h => nomatch h⟩
    case underRM =>
      have hdiv : exec (.fdiv p d a b) s = .next (startIssued s p 0x33 0 d a b) := congrArg Host.Outcome.next (fpOp_start hg hrm 20 fdivF)
      have form {i : Instr} {op fn b lat : Nat} {f : Word → Word → Word → Word × Word} (hi : exec i s = .next (fpOp op fn lat f p d a b s))
          (hop : op ≠ 0x33 ∧ op ≠ 0x3C) : exec i s = .next (flight op fn x (sreg (here s) b) b) := flies hi (fpOp_start hg hrm lat f) hop
      have form1 {i : Instr} {op fn lat : Nat} {f : Word → Word → Word → Word × Word} (hi : exec i s = .next (fpOp op fn lat f p d a 0 s))
          (hop : op ≠ 0x33 ∧ op ≠ 0x3C) : exec i s = .next (flight op fn x 0 0) := form hi hop
      have compare {i : Instr} {fn : Nat} {f : FpVal → FpVal → Bool} (hi : exec i s = .next (fcmpOp fn f p d a b s)) :
          exec i s = .next (flight 0x37 fn x y b) := flies hi (fcmpOp_start hg hrm f) (by decide)
      simp only [List.forall_mem_cons]
      exact ⟨⟨form rfl (by decide), form rfl (by decide), form rfl (by decide), form rfl (by decide), form rfl (by decide),
          compare rfl, compare rfl, compare rfl, compare rfl, fun _ h => nomatch h⟩,
        fun hz => hdiv.trans (congrArg Host.Outcome.next (startIssued_inFlight hz)),
        fun hz ht => hdiv.trans (congrArg Host.Outcome.next (startIssued_traps h hz ht)),
        form1 rfl (by decide), form1 rfl (by decide), form1 rfl (by decide), form1 rfl (by decide), form1 rfl (by decide),
        form1 rfl (by decide), form1 rfl (by decide), fun _ h => nomatch h⟩
  case early => exact congrArg Host.Outcome.next (modCore_congr (ratDue_early hr hl))
  case lands =>
    refine ⟨_, rfl, onlyCore_modCore s c ratDue, ?_⟩
    rw [coreAt_modCore_same, ratDue_landed hr hl]
    obtain ⟨hf, hscr, hm⟩ := ratFinish_common hr
    refine ⟨hf, hscr, hm, ratFinish_registers hr, fun hop => ?_⟩
    obtain ⟨hs, hp⟩ := ratFinish_predicates hr hop
    exact ⟨hs, fun n hn _ => hp n hn⟩
  case gcd => rw [ratEval_gcd hop]; exact ⟨rfl, rfl⟩
  case mk => rw [ratEval_mk hop, if_neg hb]; rfl
  case med => rw [ratEval_med hop, ha, hb, ratMed_fin _ _ _ _ hj]; rfl
  case neg => rw [ratEval_neg hop]; rfl
  case unary =>
    rw [ratEval_unary hop]
    refine ⟨fun hfn => ?num, fun hfn => ?den, fun hfn => ?classBits, fun hfn => ?canon⟩
    case num => rw [hfn, ratUnary_num]; cases (fsRead r.a).1 <;> rfl
    case den => rw [hfn, ratUnary_den]; cases (fsRead r.a).1 <;> rfl
    case classBits => rw [hfn, ratUnary_class]
    case canon => rw [hfn, ratUnary_canon]

end Sys2Proof.Proofs
end

section
/-! PROOFS. The scratchpad through handles (R51, R55, R210) and streams (R62 to R64, R207, R209): which access faults, what it reads, the bytes
that it stores, and what a store leaves alone. -/

namespace Sys2Proof.Proofs

open Sys2Proof Sys2Proof.Machine

/-! ## Handles -/

/-- Writes into a handle change the scratchpad only. -/
theorem spadWrite_onlySpad (e : HEnt) (b : List Byte) : ∀ (c : Core) (o : Nat),
    spadWrite c e o b = { c with m := { c.m with spad := (spadWrite c e o b).m.spad } } := by
  induction b with
  | nil => exact fun _ _ => rfl
  | cons x b ih =>
    intro c o
    rw [spadWrite, ih]
    rfl

/-- A line in which a handle places none of the bytes written keeps what it holds (R51). -/
theorem spFind_spadWrite_other (e : HEnt) (l : Nat) (b : List Byte) : ∀ (c : Core) (o : Nat),
    (∀ i, i < b.length → e.place ((o + i) / 512) ≠ l) → spFind (spadWrite c e o b).m.spad l = spFind c.m.spad l := by
  induction b with
  | nil => exact fun _ _ _ => rfl
  | cons x b ih =>
    intro c o h
    have first : l ≠ e.place (o / 512) := (h 0 (Nat.succ_pos _)).symm
    have rest : ∀ i, i < b.length → e.place ((o + 1 + i) / 512) ≠ l := fun i hi => by
      have := h (i + 1) (Nat.succ_lt_succ hi)
      rwa [show o + (i + 1) = o + 1 + i by omega] at this
    rw [spadWrite, ih _ _ rest]
    exact (spFind_spSet ..).trans (if_neg first)

/-- The parts of a handle-offset word (R152). -/
theorem handleWord_eq (x : Word) : handleWord x = (x.toNat / 2 ^ 56, x.toNat % 2 ^ 32, x.toNat / 2 ^ 32 % 2 ^ 24 == 0) := by
  have h : x.toNat / 2 ^ 56 < 2 ^ 8 := Nat.div_lt_of_lt_mul x.isLt
  simp only [handleWord, bits, Nat.reduceAdd, Nat.reduceSub, Nat.mod_eq_of_lt h, Nat.pow_zero, Nat.div_one]

/-- Why a scalar access of `n` bytes at a handle-offset word is refused (R55, R210). -/
def wordFault (c : Core) (x : Word) (n : Nat) : Option Nat :=
  let h := handle c (x.toNat / 2 ^ 56)
  if x.toNat / 2 ^ 32 % 2 ^ 24 ≠ 0 then some 0x07 else if h.valid = false then some 0x05
  else if h.shadow = true ∨ h.held = true then some 0x06 else if h.size < x.toNat % 2 ^ 32 + n then some 0x07 else none

theorem handleFault_nat (e : HEnt) (o n : Nat) : handleFault e o n = if e.valid = false then some 0x05
    else if e.shadow = true ∨ e.held = true then some 0x06 else if e.size < o + n then some 0x07 else none := by
  have range : ((o : Int) < 0 || (o : Int) + n > (e.size : Int)) = decide (e.size < o + n) := by
    rw [decide_eq_false (by omega : ¬(o : Int) < 0), Bool.false_or]
    exact decide_eq_decide.mpr (by omega)
  simp only [handleFault, range, Bool.not_eq_true', Bool.or_eq_true, decide_eq_true_eq]

/-- What a scalar access does with its word (R210): a fault of the word or of R55, or else the access. -/
theorem wordFault_eq {α : Type} (c : Core) (x : Word) (n : Nat) (refuse : Nat → α) (access : HEnt → Nat → α) :
    (let (h, o, ok) := handleWord x
     if !ok then refuse 0x07 else match handleFault (handle c h) o n with
      | some f => refuse f
      | none => access (handle c h) o) =
    match wordFault c x n with
    | some f => refuse f
    | none => access (handle c (x.toNat / 2 ^ 56)) (x.toNat % 2 ^ 32) := by
  by_cases hok : x.toNat / 2 ^ 32 % 2 ^ 24 = 0
  · simp only [-Nat.reducePow, handleWord_eq, handleFault_nat, wordFault, hok, beq_self_eq_true, Bool.not_true, Bool.false_eq_true, if_false,
      ne_eq, not_true_eq_false]
  · simp only [-Nat.reducePow, handleWord_eq, wordFault, ne_eq, hok, not_false_eq_true, if_true, beq_eq_false_iff_ne.mpr hok, Bool.not_false]

/-! ## Scalar access (R210) -/

variable {s : State} {bu : Issue} {p : Nat}

theorem ldsOp_of_issue (h : s.issue = some bu) (hg : guardOf s p = true) (n d a : Nat) : ldsOp n p d a s =
    match wordFault (here s) (sreg (here s) a) n with
    | some f => recorded s bu f 0 0
    | none => if d = 0 then s else putLate s 3 (.sreg d (BitVec.ofNat 64 (leNat (spadRead (here s)
        (handle (here s) ((sreg (here s) a).toNat / 2 ^ 56)) ((sreg (here s) a).toNat % 2 ^ 32) n)))) := by
  rw [ldsOp, guarded_true s p _ hg]
  simp only [raise_issue s bu h]
  exact wordFault_eq (here s) (sreg (here s) a) n (fun f => recorded s bu f 0 0) fun e o =>
    if d = 0 then s else putLate s 3 (.sreg d (BitVec.ofNat 64 (leNat (spadRead (here s) e o n))))

theorem stsOp_of_issue (h : s.issue = some bu) (hg : guardOf s p = true) (n d a : Nat) : stsOp n p d a s =
    match wordFault (here s) (sreg (here s) a) n with
    | some f => recorded s bu f 0 0
    | none => wr s fun k => spadWrite k (handle (here s) ((sreg (here s) a).toNat / 2 ^ 56)) ((sreg (here s) a).toNat % 2 ^ 32)
        (toBytes (sreg (here s) d).toNat n) := by
  rw [stsOp, guarded_true s p _ hg]
  simp only [raise_issue s bu h]
  exact wordFault_eq (here s) (sreg (here s) a) n (fun f => recorded s bu f 0 0) fun e o =>
    wr s fun k => spadWrite k e o (toBytes (sreg (here s) d).toNat n)

/-- Settles O15: each size by the access of its byte count, faults and all; the bytes written one after another. -/
theorem scratchpadAccesses : Obligations.ScratchpadAccesses := by
  unfold Obligations.ScratchpadAccesses
  refine ⟨fun s bu p d a v k h hg => ?_, fun c e o b => ⟨spadWrite_onlySpad e b c o, fun l hl => spFind_spadWrite_other e l b c o hl⟩⟩
  intro c w o e bad
  have load {i : Instr} {n : Nat} (hi : exec i s = .next (ldsOp n p d a s)) :
      (∀ f, bad n = some f → exec i s = .next (recorded s bu f 0 0)) ∧
      (bad n = none → exec i s = .next (if d = 0 then s else putLate s 3 (.sreg d (BitVec.ofNat 64 (leNat (spadRead c e o n)))))) := by
    rw [hi, ldsOp_of_issue h hg]
    exact ⟨fun f (hf : wordFault c (sreg c a) n = some f) => by rw [hf], fun (hf : wordFault c (sreg c a) n = none) => by rw [hf]⟩
  have store {i : Instr} {n : Nat} (hi : exec i s = .next (stsOp n p d a s)) :
      (∀ f, bad n = some f → exec i s = .next (recorded s bu f 0 0)) ∧
      (bad n = none → exec i s = .next (wr s fun k => spadWrite k e o (toBytes (sreg c d).toNat n))) := by
    rw [hi, stsOp_of_issue h hg]
    exact ⟨fun f (hf : wordFault c (sreg c a) n = some f) => by rw [hf], fun (hf : wordFault c (sreg c a) n = none) => by rw [hf]⟩
  simp only [List.forall_mem_cons]
  exact ⟨⟨load rfl, load rfl, load rfl, load rfl, fun _ h => nomatch h⟩, store rfl, store rfl, store rfl, store rfl, fun _ h => nomatch h⟩

/-! ## Access through streams (R207, R209) -/

/-- A use of a stream steps it at the end of the bundle, unless the bundle sets it (R64). -/
theorem advance_of_issue (h : s.issue = some bu) (n : Nat) (x : BitVec 256) : advance s n x =
    if n ∈ bu.stWr then s else wr s fun k => { k with r := { k.r with st := spSet k.r.st n x } } := by
  simp only [advance, h, List.contains_iff_mem]

/-- A draw from RNGS is the bundle's next random word (R84). -/
theorem drawRng_issue (h : s.issue = some bu) : (drawRng s).2.issue = some { bu with rng := rngNext bu.rng } := by
  simp only [drawRng, h]
  split <;> rfl

variable {t f : Nat} {is16 : Bool}

theorem vldOp_faults (h : s.issue = some bu) (hg : guardOf s p = true) (v : Nat)
    (hf : vecFault (here s) (stream (stReg (here s) t)) is16 = some f) : vldOp is16 p v t s = recorded s bu f 0 0 := by
  rw [vldOp, guarded_true s p _ hg]
  simp only [hf]
  exact raise_issue s bu h ..

theorem vstOp_faults (h : s.issue = some bu) (hg : guardOf s p = true) (v : Nat)
    (hf : vecFault (here s) (stream (stReg (here s) t)) is16 = some f) : vstOp is16 p v t s = recorded s bu f 0 0 := by
  rw [vstOp, guarded_true s p _ hg]
  simp only [hf]
  exact raise_issue s bu h ..

theorem qldOp_faults (h : s.issue = some bu) (hg : guardOf s p = true) (q : Nat)
    (hf : qFault (here s) (stream (stReg (here s) t)) = some f) : qldOp p q t s = recorded s bu f 0 0 := by
  rw [qldOp, guarded_true s p _ hg]
  simp only [hf]
  exact raise_issue s bu h ..

theorem qstOp_faults (h : s.issue = some bu) (hg : guardOf s p = true) (q : Nat)
    (hf : qFault (here s) (stream (stReg (here s) t)) = some f) : qstOp p q t s = recorded s bu f 0 0 := by
  rw [qstOp, guarded_true s p _ hg]
  simp only [hf]
  exact raise_issue s bu h ..

variable {n eb total : Nat}

theorem vldOp_loads (hg : guardOf s p = true) (v : Nat) (hf : vecFault (here s) (stream (stReg (here s) t)) is16 = none)
    (hs : vecShape is16 (stream (stReg (here s) t)).fmt = some (n, eb, total)) :
    let x := stReg (here s) t
    vldOp is16 p v t s = advance (putLate s 3 (.vop v (vecLoad is16 (stream x).fmt eb
      (spadRead (here s) (handle (here s) (stream x).hnd) (stAddr (stream x)).toNat total)))) t (stStep x) := by
  rw [vldOp, guarded_true s p _ hg]
  simp only [hf, hs, Option.getD_some]

/-- A vector store at the place of its stream, from the random word that it draws where it rounds stochastically (R84, R207). -/
theorem vstOp_stores (hg : guardOf s p = true) (v : Nat) (hf : vecFault (here s) (stream (stReg (here s) t)) is16 = none)
    (hs : vecShape is16 (stream (stReg (here s) t)).fmt = some (n, eb, total)) :
    let x := stReg (here s) t
    let draws := is16 = false ∧ ((stream x).fmt = 0x02 ∨ (stream x).fmt = 0x03) ∧ stMode (stream x) = .sr
    let d := if draws then drawRng s else (0, s)
    vstOp is16 p v t s = advance (wr d.2 fun k => spadWrite k (handle (here s) (stream x).hnd) (stAddr (stream x)).toNat
      (vecStore is16 (stream x).fmt eb total (stMode (stream x)) d.1 (readView (here s) v))) t (stStep x) := by
  rw [vstOp, guarded_true s p _ hg]
  simp only [hf, hs, Option.getD_some, Bool.and_eq_true, Bool.not_eq_true', Bool.or_eq_true, beq_iff_eq, and_assoc]

theorem qldOp_loads (hg : guardOf s p = true) (q : Nat) {w e : Nat} (hf : qFault (here s) (stream (stReg (here s) t)) = none)
    (hs : qShape (stream (stReg (here s) t)).fmt = some (w, e, total)) :
    let c := here s
    let st := stream (stReg c t)
    qldOp p q t s = advance (putLate (putLate s 3 (.qbits q 0 4096 (BitVec.ofNat 4096 (leNat (spadRead c (handle c st.hnd) (stAddr st).toNat total))))) 3
      (.qcomp q 0 256 (BitVec.ofNat 256 (leNat (spadRead c (handle c st.hnd) (stScale st e).toNat (qScales st e) ++
        List.replicate (32 - qScales st e) 0x7F))))) t (stStep (stReg c t)) := by
  rw [qldOp, guarded_true s p _ hg]
  simp only [hf, hs, Option.getD_some]

theorem qstOp_stores (hg : guardOf s p = true) (q : Nat) {w e : Nat} (hf : qFault (here s) (stream (stReg (here s) t)) = none)
    (hs : qShape (stream (stReg (here s) t)).fmt = some (w, e, total)) :
    let c := here s
    let st := stream (stReg c t)
    qstOp p q t s = advance (wr s fun k =>
      let k' := spadWrite k (handle c st.hnd) (stAddr st).toNat (toBytes (qReg c q).toNat total)
      if qScales st e = 0 then k' else spadWrite k' (handle c st.hnd) (stScale st e).toNat (toBytes (qComp c q).toNat (qScales st e)))
      t (stStep (stReg c t)) := by
  rw [qstOp, guarded_true s p _ hg]
  simp only [hf, hs, Option.getD_some]
  by_cases h0 : qScales (stream (stReg (here s) t)) e = 0
  · simp only [h0, if_true]
  · simp only [h0, if_false, wr_wr]

/-- Settles O14: each form by its fault, or by the access at its stream's place and the step of the stream. -/
theorem streamAccesses : Obligations.StreamAccesses := by
  unfold Obligations.StreamAccesses
  refine ⟨fun s bu p v q t h hg => ?_, fun s bu p v t h hg => ?_⟩
  · intro c x st e stepped late
    have hstep {u : State} (hu : u.issue = some bu) : advance u t (stStep x) = stepped u := advance_of_issue hu ..
    have load {i : Instr} {is16 : Bool} (hi : exec i s = .next (vldOp is16 p v t s)) :
        (∀ f, vecFault c st is16 = some f → exec i s = .next (recorded s bu f 0 0)) ∧
        (∀ n eb total, vecFault c st is16 = none → vecShape is16 st.fmt = some (n, eb, total) →
          exec i s = .next (stepped (late [.vop v (vecLoad is16 st.fmt eb (spadRead c e (stAddr st).toNat total))]))) := by
      rw [hi]
      exact ⟨fun f hf => by rw [vldOp_faults h hg v hf],
        fun n eb total hf hs => by rw [vldOp_loads hg v hf hs]; exact congrArg Host.Outcome.next (hstep h)⟩
    have store {i : Instr} {is16 : Bool} (hi : exec i s = .next (vstOp is16 p v t s)) :
        (∀ f, vecFault c st is16 = some f → exec i s = .next (recorded s bu f 0 0)) ∧
        (∀ n eb total, vecFault c st is16 = none → vecShape is16 st.fmt = some (n, eb, total) → stMode st ≠ .sr →
          exec i s = .next (stepped (wr s fun k =>
            spadWrite k e (stAddr st).toNat (vecStore is16 st.fmt eb total (stMode st) 0 (readView c v))))) := by
      rw [hi]
      refine ⟨fun f hf => by rw [vstOp_faults h hg v hf], fun n eb total hf hs hsr => ?_⟩
      rw [vstOp_stores hg v hf hs, if_neg fun hd => hsr hd.2.2]
      exact congrArg Host.Outcome.next (hstep h)
    simp only [List.forall_mem_cons]
    refine ⟨⟨load rfl, load rfl, fun _ h => nomatch h⟩, ⟨store rfl, store rfl, fun _ h => nomatch h⟩, fun f hf => ⟨?_, ?_⟩,
      fun w m total hf hs => ⟨?_, ?_⟩⟩
    · exact congrArg Host.Outcome.next (qldOp_faults h hg q hf)
    · exact congrArg Host.Outcome.next (qstOp_faults h hg q hf)
    · refine congrArg Host.Outcome.next ((qldOp_loads hg q hf hs).trans ((hstep (by exact h)).trans ?_))
      simp only [putLate, wr_wr, late, List.map_cons, List.map_nil, List.append_assoc, List.cons_append, List.nil_append]
      rfl
    · exact congrArg Host.Outcome.next ((qstOp_stores hg q hf hs).trans (hstep (by exact h)))
  · intro c x st d stepped put hsr
    refine ⟨fun n eb total hf hs hfmt => ?_, fun n eb total hf hs => ?_⟩
    · refine congrArg Host.Outcome.next ((vstOp_stores hg v hf hs).trans ?_)
      rw [if_pos ⟨rfl, hfmt, hsr⟩, show stMode (stream (stReg (here s) t)) = .sr from hsr]
      exact advance_of_issue (bu := { bu with rng := rngNext bu.rng }) (by exact drawRng_issue h) ..
    · refine congrArg Host.Outcome.next ((vstOp_stores hg v hf hs).trans ?_)
      rw [if_neg fun hd => Bool.noConfusion hd.1, show stMode (stream (stReg (here s) t)) = .sr from hsr]
      exact advance_of_issue (by exact h) ..

end Sys2Proof.Proofs
end

section
/-! PROOFS. The handle table (R50 to R54, R211 to R213) and the operand slots (R57, R58, R214 to R216): what allocates, what frees, what faults. -/

namespace Sys2Proof.Proofs

open Sys2Proof Sys2Proof.Machine

variable {s : State} {bu : Issue} {p : Nat}

/-- A handle installed holds its entry under the next GEN (R50). -/
theorem hword_installHandle (s : State) (cn h : Nat) (old : Word) (e : HEnt) :
    hword (coreAt (installHandle s cn h old e) cn) h = hentWord { e with gen := (bits old.toNat 3 0 + 1) % 16 } := by
  have entered (u : State) (v : Word) : hword (coreAt (modCore u cn fun c => { c with m := { c.m with htab := spSet c.m.htab h v } }) cn) h = v := by
    rw [coreAt_modCore_same]
    exact spGet_spSet_same ..
  unfold installHandle
  dsimp only
  split
  · exact entered ..
  · rw [coreAt_modCore_same]
    exact entered ..

theorem hallocOp_of_issue (h : s.issue = some bu) (hg : guardOf s p = true) (n d a : Nat) :
    let c := here s
    let sh := shapeOf (sreg c a)
    hallocOp p n d a s = if n = 255 ∨ (handle c n).valid = true then recorded s bu 0x06 0 0
      else if sh.2.2 = true then recorded s bu 0x01 0 0
      else (placeHandle s bu.core c sh.1 sh.2.1).elim (putP s d false) fun e => putP (installHandle s bu.core n (hword c n) e) d true := by
  rw [hallocOp, guarded_true s p _ hg]
  simp only [raise_issue s bu h, hereNo_of_issue h, Bool.or_eq_true, decide_eq_true_eq]
  cases placeHandle s bu.core (here s) (shapeOf (sreg (here s) a)).1 (shapeOf (sreg (here s) a)).2.1 <;> rfl

theorem hfreeOp_of_issue (h : s.issue = some bu) (hg : guardOf s p = true) (n : Nat) : hfreeOp p n s =
    if n = 255 ∨ (handle (here s) n).valid = false then recorded s bu 0x06 0 0 else wr s fun k => { k with m := { k.m with
      htab := spSet k.m.htab n (hword k n &&& 0x7FFFFFFFFFFFFFFF#64), hheld := spDel k.m.hheld n } } := by
  rw [hfreeOp, guarded_true s p _ hg]
  simp only [raise_issue s bu h, Bool.or_eq_true, decide_eq_true_eq, Bool.not_eq_true']
  rfl

theorem oclaimOp_of_issue (h : s.issue = some bu) (hg : guardOf s p = true) (os : Nat) : oclaimOp p os s =
    if (slotOf (here s) os).st = .free
    then wr { s with fresh := s.fresh + 1 } fun k => setSlot k os ⟨.claimed, 0, 128, [], s.fresh + 1⟩ else recorded s bu 0x09 0 0 := by
  rw [oclaimOp, guarded_true s p _ hg]
  cases hst : (slotOf (here s) os).st
  case free => rfl
  all_goals exact (raise_issue s bu h ..).trans (if_neg SlotState.noConfusion).symm

/-- Whether the bundle's own X operation reads a slot (R216). -/
theorem xReads_of_issue (h : s.issue = some bu) (os : Nat) : xReads s os = decide (bu.xslot = some os) := by
  simp only [xReads, h]
  exact Bool.eq_iff_iff.mpr (beq_iff_eq.trans decide_eq_true_iff.symm)

theorem orelOp_of_issue (h : s.issue = some bu) (hg : guardOf s p = true) (os : Nat) : orelOp p os s =
    if (slotOf (here s) os).st = .free then recorded s bu 0x09 0 0
    else if bu.xslot = some os then wr s (deferSlot none (some os)) else wr s fun k => setSlot k os { slotOf k os with st := .free } := by
  rw [orelOp, guarded_true s p _ hg]
  simp only [xReads_of_issue h, decide_eq_true_eq]
  cases hst : (slotOf (here s) os).st
  case free => exact raise_issue s bu h ..
  all_goals exact (if_neg SlotState.noConfusion).symm

theorem ofillOp_faults (h : s.issue = some bu) (hg : guardOf s p = true) {os n f : Nat} (hf : fillFault (here s) (stReg (here s) n) os = some f) :
    ofillOp p os n s = recorded s bu f 0 0 := by
  rw [ofillOp, guarded_true s p _ hg]
  simp only [hf]
  exact raise_issue s bu h ..

theorem ofillOp_fills (h : s.issue = some bu) (hg : guardOf s p = true) {os n : Nat} (hf : fillFault (here s) (stReg (here s) n) os = none) :
    let x := stReg (here s) n
    ofillOp p os n s = advance (if bu.xslot = some os then wr s (deferSlot (some (os, n, x)) none) else wr s fun k => startFill k os n x) n
      (stSteps 128 x) := by
  rw [ofillOp, guarded_true s p _ hg]
  simp only [hf, xReads_of_issue h, decide_eq_true_eq]

/-- A fill whose time is over leaves its slot FULL (R215). -/
theorem fillFinish_over {k : Core} {f : Fill} (h : k.f.fill = some f) (ht : f.fullAt = some 0) :
    fillFinish k = { setSlot k f.os { slotOf k f.os with st := .full } with f := { k.f with fill := none } } := by
  simp only [fillFinish, h, ht, if_true]

theorem fillFinish_early {k : Core} {f : Fill} (h : k.f.fill = some f) (ht : f.fullAt ≠ some 0) : fillFinish k = k := by
  simp only [fillFinish, h, ht, if_false]

/-- Settles O16: each operation by its cases as the bundle issues. -/
theorem handlesAndOperandSlots : Obligations.HandlesAndOperandSlots := by
  unfold Obligations.HandlesAndOperandSlots
  intro s bu p h d a n os v k hi hg c sh taken x slot waits
  have halloc : exec (.halloc p h d a) s = .next _ := congrArg Host.Outcome.next (hallocOp_of_issue hi hg h d a)
  have hfree : exec (.hfree p h) s = .next _ := congrArg Host.Outcome.next (hfreeOp_of_issue hi hg h)
  have oclaim : exec (.oclaim p os) s = .next _ := congrArg Host.Outcome.next (oclaimOp_of_issue hi hg os)
  have orel : exec (.orel p os) s = .next _ := congrArg Host.Outcome.next (orelOp_of_issue hi hg os)
  refine ⟨fun ht => ?_, fun ht hb => ?_, fun ht hb hp => ?_, fun e ht hb hp => ⟨?_, hword_installHandle ..⟩, fun hf => ?_, fun h255 hv => ?_, oclaim,
    fun hst => ?_, fun hst hw => ?_, fun hst hw => ?_, fun f hf => ?_, fun hf => ?_, fun cn f hf => ⟨fun ht => ?_, fun ht => ?_⟩⟩
  · rw [halloc, if_pos ht]
  · rw [halloc, if_neg ht, if_pos hb]
  · rw [halloc, if_neg ht, if_neg (Bool.eq_false_iff.mp hb), hp, Option.elim_none]
  · rw [halloc, if_neg ht, if_neg (Bool.eq_false_iff.mp hb), hp, Option.elim_some]
  · rw [hfree, if_pos hf]
  · rw [hfree, if_neg (not_or.mpr ⟨h255, ne_false_of_eq_true hv⟩)]
  · rw [orel, if_pos hst]
  · rw [orel, if_neg hst, if_neg hw]
  · rw [orel, if_neg hst, if_pos hw]
  · exact congrArg Host.Outcome.next (ofillOp_faults hi hg hf)
  · exact congrArg Host.Outcome.next ((ofillOp_fills hi hg hf).trans (advance_of_issue (by split <;> exact hi) ..))
  · exact congrArg Host.Outcome.next (modCore_congr (fillFinish_over hf ht))
  · exact congrArg Host.Outcome.next (modCore_congr (fillFinish_early hf ht))

end Sys2Proof.Proofs
end

section
/-! PROOFS. Loads, stores and atomics of the G slot at issue: what faults precisely, what joins the queue of the core (R218, R219, R221, R222). -/

namespace Sys2Proof.Proofs

open Sys2Proof Sys2Proof.Machine

variable {s : State} {bu : Issue} {p : Nat}

/-! ## Loads, stores and atomics -/

theorem gMem_faults (h : s.issue = some bu) (hg : guardOf s p = true) {kind : GKind} {size d a word f : Nat}
    (hf : kindFault ((gParts s bu.core (asidOf (here s)) (sreg (here s) a).toNat size).map fun x => x.2.2.2) = some f) :
    gMem kind size p d a word s = recorded s bu f 0 (sreg (here s) a) := by
  rw [gMem, guarded_true s p _ hg]
  simp only [hereNo_of_issue h, hf]
  exact raise_issue s bu h ..

/-- The bytes of an access that go through no window: those that a store counts in PBC from its issue (R107). -/
def bytesInPlace (units : List (Nat × Nat × Nat × XRes)) : Nat :=
  ((units.filter fun x => match x.2.2.2 with | .win .. => false | _ => true).map fun x => x.2.2.1).sum

theorem gMem_joins (h : s.issue = some bu) (hg : guardOf s p = true) {kind : GKind} {size d a word : Nat}
    (hf : kindFault ((gParts s bu.core (asidOf (here s)) (sreg (here s) a).toNat size).map fun x => x.2.2.2) = none) :
    let c := here s
    let va := sreg c a
    let st := !kind.writesReg
    let units := gUnits va.toNat size (gParts s bu.core (asidOf c) va.toNat size)
    gMem kind size p d a word s = gEnqueue (if st then addPbc s bu.core (bytesInPlace units) else s)
      ⟨c.q.seq, word, kind, 0, size, va, 0, if st then sreg c d else 0, 0, 0, if st then 0 else d, s.dev, 0, 0, .ready⟩ units := by
  refine (guarded_true s p _ hg).trans ?_
  simp only [hereNo_of_issue h, hf]
  rfl

/-- Whether the wheel does not take an atomic whose address translates so: a window leads it to another package, or to a wrong kind (R222). -/
def offWheel (s : State) (cn : Nat) (g : GOp) : XRes → Bool
  | .win _ w _ _ => winPkg w != pkgNo s || (kindFault [scTarget s cn g]).isSome
  | _ => false

theorem offWheel_iff (s : State) (cn : Nat) (g : GOp) (r : XRes) : offWheel s cn g r = true ↔
    ∃ n w o sp, r = .win n w o sp ∧ (winPkg w ≠ pkgNo s ∨ ∃ f, kindFault [scTarget s cn g] = some f) := by
  cases r with
  | win n w o sp =>
    rw [offWheel, Bool.or_eq_true, bne_iff_ne, Option.isSome_iff_exists]
    refine ⟨fun h => ⟨n, w, o, sp, rfl, h⟩, ?_⟩
    rintro ⟨_, _, _, _, ⟨⟩, h⟩
    exact h
  | loc => exact ⟨fun h => absurd h Bool.false_ne_true, fun ⟨_, _, _, _, h, _⟩ => nomatch h⟩
  | fail => exact ⟨fun h => absurd h Bool.false_ne_true, fun ⟨_, _, _, _, h, _⟩ => nomatch h⟩

theorem gAmo_of_issue (h : s.issue = some bu) (hg : guardOf s p = true) (kind : GKind) (fn d a b word : Nat) :
    let c := here s
    let va := sreg c a
    let r := xlat s bu.core (asidOf c) va.toNat
    let g : GOp := ⟨c.q.seq, word, kind, fn, 8, va, 0, sreg c b, sreg c d, 0, d, s.dev, 0, 0, .ready⟩
    gAmo kind fn p d a b word s = if va.toNat % 8 ≠ 0 then recorded s bu 0x0D 0 va
      else (kindFault [r]).elim
        (if kind = .amoSc ∧ offWheel s bu.core g r = true then recorded s bu 0x0D 0 va else gEnqueue s g [(va.toNat, 0, 8, r)])
        fun f => recorded s bu f 0 va := by
  refine (guarded_true s p _ hg).trans ?_
  simp only [hereNo_of_issue h, raise_issue s bu h, bne_iff_ne, Bool.and_eq_true, beq_iff_eq]
  cases kindFault [xlat s bu.core (asidOf (here s)) (sreg (here s) a).toNat] <;> rfl

/-- How an access stands as it joins the queue (R218, R358, R359): parked where its address is not canonical, on its way to the wheel, ready, or
waiting for a walk. -/
def statAtIssue (s : State) (cn asid va : Nat) (g : GOp) : GStat :=
  if va ≥ 2 ^ 56 then .parked 0x0B 0x01 else
    match g.kind with
    | .amoSc => .wheel ((here s).q.act + 3) none
    | _ => if (cached s cn asid va).isSome then .ready else .walk

/-- An access of one part at the end of the queue. -/
def queuedAs (s : State) (g : GOp) (va : Nat) (r : XRes) (st : GStat) : State :=
  wr s fun k => { k with f := { k.f with gq := k.f.gq ++
    [{ g.part va 0 g.size st with cnt := match r with | .win .. => 0 | _ => if g.kind.writesReg = true then 0 else g.size }] } }

/-- A part that has joined the queue; one that waits for a walk starts it, or joins the walk of its page (R359). -/
def joined (s : State) (bu : Issue) (g : GOp) (va : Nat) (r : XRes) (st : GStat) : State :=
  match st with
  | .walk => startWalk (queuedAs s g va r st) bu.core (asidOf (here s)) va (some g.seq)
  | _ => queuedAs s g va r st

theorem gEnqueue_part (h : s.issue = some bu) (g : GOp) (va : Nat) (r : XRes) :
    gEnqueue s g [(va, 0, g.size, r)] = joined s bu g va r (statAtIssue s bu.core (asidOf (here s)) va g) := by
  simp only [gEnqueue, List.foldl_cons, List.foldl_nil, hereNo_of_issue h, joined, queuedAs, wr_of_issue h]
  rfl

theorem statAtIssue_eq (s : State) (cn asid va : Nat) {g : GOp} (hk : g.kind ≠ .amoSc) : statAtIssue s cn asid va g =
    if 2 ^ 56 ≤ va then .parked 0x0B 0x01 else if (cached s cn asid va).isSome then .ready else .walk := by
  unfold statAtIssue
  cases hkind : g.kind
  case amoSc => exact absurd hkind hk
  all_goals rfl

/-- Settles O17: an access by its faults or the queue it joins, an entry of one part by its translation. -/
theorem globalAccessIssue : Obligations.GlobalAccessIssue := by
  unfold Obligations.GlobalAccessIssue
  intro s bu p d a b v t w u h hg c va asid
  refine ⟨?mem, ?amo, fun g r _ hk => ?entry⟩
  case mem =>
    have mem {i : Instr} {kind : GKind} {size word : Nat} (hi : exec i s = .next (gMem kind size p d a word s)) :=
      And.intro (fun f (hf : kindFault ((gParts s bu.core asid va.toNat size).map fun x => x.2.2.2) = some f) =>
          hi.trans (congrArg Host.Outcome.next (gMem_faults h hg hf)))
        (fun (hf : kindFault ((gParts s bu.core asid va.toNat size).map fun x => x.2.2.2) = none) =>
          hi.trans (congrArg Host.Outcome.next (gMem_joins h hg hf)))
    simp only [List.forall_mem_cons]
    exact ⟨mem rfl, mem rfl, mem rfl, mem rfl, mem rfl, mem rfl, mem rfl, mem rfl, mem rfl, mem rfl, mem rfl, mem rfl, fun _ h => nomatch h⟩
  case amo =>
    intro e he r g away
    have hexec : exec e.1 s = .next (gAmo e.2.1 e.2.2.1 p d a b (gaWord e.2.2.2.1 p d a b e.2.2.2.2) s) := by
      revert e
      simp only [List.forall_mem_cons]
      exact ⟨rfl, rfl, rfl, rfl, rfl, rfl, rfl, rfl, rfl, rfl, rfl, rfl, rfl, rfl, rfl, fun _ h => nomatch h⟩
    rw [hexec, gAmo_of_issue h hg]
    have kindOf {o : Option Nat} (hf : kindFault [r] = o) : kindFault [xlat s bu.core (asidOf (here s)) (sreg (here s) a).toNat] = o := hf
    refine ⟨fun h8 => ?_, fun f h8 hf => ?_, fun h8 hf hnear => ?_, fun n w o sp h8 hf hsc hr haway => ?_⟩
    · rw [if_pos h8]
    · rw [if_neg (not_not_intro h8), kindOf hf, Option.elim_some]
    · rw [if_neg (not_not_intro h8), kindOf hf, Option.elim_none, if_neg]
      rintro ⟨hsc, hoff⟩
      obtain ⟨n, w, o, sp, hr, haway⟩ := (offWheel_iff ..).mp hoff
      rcases hnear with hamo | hnear
      · exact GKind.noConfusion (hamo.symm.trans hsc)
      · exact hnear n w o sp hr haway
    · rw [if_neg (not_not_intro h8), kindOf hf, Option.elim_none, if_pos ⟨hsc, (offWheel_iff ..).mpr ⟨n, w, o, sp, hr, haway⟩⟩]
  case entry =>
    intro entry
    have joins (st : GStat) (hst : (if 2 ^ 56 ≤ va.toNat then .parked 0x0B 0x01 else if (cached s bu.core asid va.toNat).isSome then .ready
        else .walk) = st) : gEnqueue s g [(va.toNat, 0, g.size, r)] = joined s bu g va.toNat r st := by
      rw [gEnqueue_part h, ← hst, ← statAtIssue_eq _ _ _ _ hk]
    by_cases h56 : 2 ^ 56 ≤ va.toNat
    · exact (joins _ (if_pos h56)).trans (if_pos h56).symm
    · rw [if_neg h56]
      by_cases hc : (cached s bu.core asid va.toNat).isSome = true
      · exact (joins .ready (by rw [if_neg h56, if_pos hc])).trans (if_pos hc).symm
      · exact (joins .walk (by rw [if_neg h56, if_neg hc])).trans (if_neg hc).symm

end Sys2Proof.Proofs
end

section
/-! PROOFS. Versioned accesses, fences, prefetches and probes as their bundle issues (R220, R223 to R225). -/

namespace Sys2Proof.Proofs

open Sys2Proof Sys2Proof.Machine

variable {s : State} {bu : Issue} {p : Nat}

/-! ## Versioned accesses (R220) -/

/-- A versioned access as it stands at issue. -/
def verOp (s : State) (st : Bool) (p d a b : Nat) : GOp :=
  let c := here s
  ⟨c.q.seq, gaWord (if st then 14 else 13) p d a b 0, if st then .stv else .ldv, 0, 8, sreg c a, 0,
    if st then sreg c d else 0, 0, (sreg c b).toNat % 2 ^ 32, if st then 0 else d, s.dev, 0, 0, .ready⟩

/-- The queue with a versioned access at its end, and the line held for it. -/
def verQueued (s : State) (bu : Issue) (g : GOp) : State :=
  modCore s bu.core fun k => { k with f := { k.f with gq := k.f.gq ++ [g] }, q := { k.q with holdG := .ver (here s).q.seq s.dev } }

/-- A versioned access of its own package: performed, refused, or waiting as the version rules say (R121, R122). -/
def verTried (s : State) (bu : Issue) (st : Bool) (d : Nat) (g : GOp) (ps : List VPart) : VRes → State
  | .done x t => if st then verPort t bu.core ps else gResult (verPort t bu.core ps) bu.core d x
  | .fault f => recorded s bu f 0 g.va
  | .wait _ => verQueued s bu g

/-- Whether an access of the queue goes before one that joins it (R113, R116). -/
def goesLate (s : State) (bu : Issue) (g : GOp) : Bool := (coreAt s bu.core).f.gq.any fun x => gAfter s bu.core x g

/-- A versioned access by what it reaches. -/
def verIssued (s : State) (bu : Issue) (st : Bool) (d : Nat) (g : GOp) : VReach → State
  | .fault f r => recorded (walkNote s (asidOf (here s)) g.va.toNat (if f = 0x0B then r else 0)) bu f r g.va
  | .window w o two => if goesLate s bu g then verQueued s bu g else verSend (verQueued s bu g) bu.core (coreAt s bu.core).f.gq.length g w o two
  | .here ps => if goesLate s bu g then verQueued s bu g else verTried s bu st d g ps (verTry s st ps g.ver g.data)

theorem gVer_of_issue (h : s.issue = some bu) (hg : guardOf s p = true) (st : Bool) (d a b : Nat) :
    gVer st p d a b (gaWord (if st then 14 else 13) p d a b 0) s = verIssued s bu st d (verOp s st p d a b)
      (verReach s bu.core (asidOf (here s)) (sreg (here s) a).toNat 8 (if st then rW else rR)) := by
  have noted (va r cause detail : Nat) (v : Word) : raise (walkNote s (asidOf (here s)) va r) (slotNow s 6) cause detail v =
      recorded (walkNote s (asidOf (here s)) va r) bu cause detail v := raise_counted h (walkNote_issue ..) ..
  refine (guarded_true s p _ hg).trans ?_
  cases st
  all_goals
    simp only [hereNo_of_issue h, noted, raise_issue s bu h]
    rfl

/-- A versioned access through one window: version and data (R125). -/
theorem verSend_one (s : State) (cn i : Nat) (g : GOp) (w : List Nat) (o : Nat) : verSend s cn i g w o none =
    gSend (flushLine s cn g) cn i g w o 0x05 (if g.kind = .stv then 1 else 0) 16 (toBytes g.ver 8 ++ toBytes g.data.toNat 8) := by
  simp only [verSend, List.append_nil, List.length_nil, Nat.add_zero]

/-! ## Fences, prefetches and probes (R223 to R225) -/

theorem gFence_of_issue (h : s.issue = some bu) (hg : guardOf s p = true) (scope : Nat) : gFence scope p s =
    flushComb (modCore s bu.core fun k => { k with q := { k.q with holdG := .fence scope } }) bu.core fun e =>
      scope == 4 || combLocal (modCore s bu.core fun k => { k with q := { k.q with holdG := .fence scope } }) e := by
  rw [gFence, guarded_true s p _ hg, hereNo_of_issue h, fenceFlush]

variable {a : Nat}

theorem gPf_beyond (hg : guardOf s p = true) (hva : 2 ^ 56 ≤ (sreg (here s) a).toNat) : gPf p a s = wr s fun k => countEv k 0x0F 1 := by
  rw [gPf, guarded_true s p _ hg]
  exact if_pos hva

theorem gPf_misses (h : s.issue = some bu) (hg : guardOf s p = true) (hva : (sreg (here s) a).toNat < 2 ^ 56)
    (hc : cached s bu.core (asidOf (here s)) (sreg (here s) a).toNat = none) :
    gPf p a s = startWalk s bu.core (asidOf (here s)) (sreg (here s) a).toNat none := by
  rw [gPf, guarded_true s p _ hg]
  simp only [hereNo_of_issue h, ge_iff_le, Nat.not_le.mpr hva, if_false, hc]

theorem gPf_fails (h : s.issue = some bu) (hg : guardOf s p = true) (hva : (sreg (here s) a).toNat < 2 ^ 56) {x : XEnt} {f : Nat}
    (hc : cached s bu.core (asidOf (here s)) (sreg (here s) a).toNat = some x) (hx : entRes x (sreg (here s) a).toNat = .fail f) :
    gPf p a s = wr s fun k => countEv k 0x0F 1 := by
  rw [gPf, guarded_true s p _ hg]
  simp only [hereNo_of_issue h, ge_iff_le, Nat.not_le.mpr hva, if_false, hc, hx]

theorem gPf_fills (h : s.issue = some bu) (hg : guardOf s p = true) (hva : (sreg (here s) a).toNat < 2 ^ 56) {x : XEnt}
    (hc : cached s bu.core (asidOf (here s)) (sreg (here s) a).toNat = some x) (hx : ∀ f, entRes x (sreg (here s) a).toNat ≠ .fail f) :
    gPf p a s = fillCaches s bu.core x := by
  rw [gPf, guarded_true s p _ hg]
  simp only [hereNo_of_issue h, ge_iff_le, Nat.not_le.mpr hva, if_false, hc]

/-- Settles O18: a versioned access by what it reaches, whether it goes late, and what the version rules answer; the others by one case each. -/
theorem versionedFencesProbesIssue : Obligations.VersionedFencesProbesIssue := by
  unfold Obligations.VersionedFencesProbesIssue
  intro s bu p d a b h hg c va asid ver op queue
  refine ⟨fun e he => ?versioned, ?fences, fun hva => congrArg Host.Outcome.next (gPf_beyond hg hva),
    fun hva hc => congrArg Host.Outcome.next (gPf_misses h hg hva hc),
    fun x hva hc => ⟨fun f hf => congrArg Host.Outcome.next (gPf_fails h hg hva hc hf),
      fun hf => congrArg Host.Outcome.next (gPf_fills h hg hva hc hf)⟩,
    congrArg Host.Outcome.next (guarded_true s p _ hg)⟩
  case versioned =>
    intro reach late try_
    have hexec : exec e.1 s = .next (verIssued s bu e.2 d (op e.2) reach) := by
      simp only [List.mem_cons, List.not_mem_nil, or_false] at he
      rcases he with rfl | rfl
      · exact congrArg Host.Outcome.next (gVer_of_issue h hg false d a b)
      · exact congrArg Host.Outcome.next (gVer_of_issue h hg true d a b)
    have stores : (if (op e.2).kind = .stv then 1 else 0) = if e.2 then 1 else 0 := by cases e.2 <;> rfl
    have isLate (hl : late = true) : goesLate s bu (op e.2) = true := hl
    have notLate (hl : late = false) : ¬goesLate s bu (op e.2) = true := Bool.eq_false_iff.mp hl
    have tried {ps : List VPart} {o : VRes} (hr : reach = .here ps) (hl : late = false) (ho : try_ ps = o) :
        exec e.1 s = .next (verTried s bu e.2 d (op e.2) ps o) := by
      rw [hexec, hr, verIssued, if_neg (notLate hl)]
      exact congrArg (fun o => Host.Outcome.next (verTried s bu e.2 d (op e.2) ps o)) ho
    refine ⟨fun f r hr => ?_, fun hl hr => ?_, fun ps x t hl hr ho => tried hr hl ho, fun ps f hl hr ho => tried hr hl ho,
      fun ps l hl hr ho => tried hr hl ho, fun w o hl hr => ?_, fun w o m w2 o2 hl hr => ?_⟩
    · rw [hexec, hr]
      rfl
    · rw [hexec]
      cases hreach : reach with
      | fault f r => exact absurd hreach (hr f r)
      | window w o two => exact congrArg Host.Outcome.next (if_pos (isLate hl))
      | here ps => exact congrArg Host.Outcome.next (if_pos (isLate hl))
    · rw [hexec, hr, verIssued, if_neg (notLate hl), verSend_one, stores]
      rfl
    · rw [hexec, hr, verIssued, if_neg (notLate hl)]
      rfl
  case fences =>
    have fence {i : Instr} {n : Nat} (hi : exec i s = .next (gFence n p s)) := hi.trans (congrArg Host.Outcome.next (gFence_of_issue h hg n))
    simp only [List.forall_mem_cons]
    exact ⟨fence rfl, fence rfl, fence rfl, fence rfl, fence rfl, fun _ h => nomatch h⟩

end Sys2Proof.Proofs
end

section
/-! PROOFS. Performing an entry of a core's queue (R107, R111 to R118, R218 to R222): when its order lets it, how it translates, what local memory
gives and takes. -/

namespace Sys2Proof.Proofs

open Sys2Proof Sys2Proof.Machine

variable {s t : State} {c i : Nat} {g : GOp}

/-! ## The order of the queue -/

theorem gTry_eq (hq : (coreAt s c).f.gq[i]? = some g) : gTry s c i = if g.hub = 1 ∨ gClear s c i = false then s else
    let u := if (coreAt s c).f.comb.any (leavesFor s c g) = true then flushComb s c (leavesFor s c g) else s
    if gMay u c i = true then gPerform u c i else u := by
  simp only [gTry, hq, Bool.or_eq_true, decide_eq_true_eq, Bool.not_eq_true']

/-- An entry that may be performed is kept back by none before it. -/
theorem gClear_of_gMay (h : gMay s c i = true) : gClear s c i = true := by
  unfold gMay at h
  split at h
  · exact absurd h Bool.false_ne_true
  · exact (Bool.and_eq_true_iff.mp h).1

theorem gTry_performs (hq : (coreAt s c).f.gq[i]? = some g) (hh : g.hub ≠ 1) (hl : (coreAt s c).f.comb.any (leavesFor s c g) = false)
    (hm : gMay s c i = true) : gTry s c i = gPerform s c i := by
  rw [gTry_eq hq, if_neg (not_or.mpr ⟨hh, ne_false_of_eq_true (gClear_of_gMay hm)⟩)]
  simp only [hl, Bool.false_eq_true, if_false, hm, if_true]

/-- What an event answers that tries an entry: nothing where something before it holds it or its order does; the buffered stores that leave
before it leave first (R118). -/
theorem gTry_answers {e : Instr} (hq : (coreAt s c).f.gq[i]? = some g) (he : exec e s = .next (gTry s c i)) :
    let leave := (coreAt s c).f.comb.any (leavesFor s c g)
    (g.hub = 1 → exec e s = .next s) ∧ (g.hub ≠ 1 →
      (gClear s c i = false → exec e s = .next s) ∧ (leave = false → gMay s c i = false → exec e s = .next s) ∧
      (gClear s c i = true → leave = true →
        let u := flushComb s c (leavesFor s c g)
        (gMay u c i = true → exec e s = .next (gPerform u c i)) ∧ (gMay u c i = false → exec e s = .next u))) := by
  intro leave
  rw [he, gTry_eq hq]
  refine ⟨fun hh => by rw [if_pos (.inl hh)], fun hh => ⟨fun hc => by rw [if_pos (.inr hc)], fun hl hm => ?_, fun hc hl => ?_⟩⟩
  · simp only [show (coreAt s c).f.comb.any (leavesFor s c g) = false from hl, Bool.false_eq_true, if_false, hm, ite_self]
  · have notHeld : ¬(g.hub = 1 ∨ gClear s c i = false) := not_or.mpr ⟨hh, ne_false_of_eq_true hc⟩
    rw [if_neg notHeld]
    simp only [show (coreAt s c).f.comb.any (leavesFor s c g) = true from hl, if_true]
    exact ⟨fun hm => by rw [if_pos hm], fun hm => by rw [if_neg (Bool.eq_false_iff.mp hm)]⟩

theorem exec_gLoadReturn (hq : (coreAt s c).f.gq[i]? = some g) (hk : g.kind = .load ∨ g.kind = .loadAcq ∨ g.kind = .amo ∨ g.kind = .probe)
    (hst : g.st = .ready) : exec (.gLoadReturn c i) s = .next (gTry s c i) := by
  show execGLoadReturn c i s = _
  rw [execGLoadReturn, hq]
  rcases hk with hk | hk | hk | hk <;> simp only [hk, hst] <;> rfl

theorem exec_placementAck (hq : (coreAt s c).f.gq[i]? = some g) (hk : g.kind = .store ∨ g.kind = .storeRel) (hst : g.st = .ready) :
    exec (.placementAck c i) s = .next (gTry s c i) := by
  show execPlacementAck c i s = _
  rw [execPlacementAck, hq]
  rcases hk with hk | hk <;> simp only [hk, hst] <;> rfl

theorem exec_amoScPerform {a w : Nat} (hq : (coreAt s c).f.gq[i]? = some g) (hst : g.st = .wheel a (some w)) :
    exec (.amoScPerform c i) s = .next (if w ≤ s.now ∧ wheelOwned s c = true then gTry s c i else s) := by
  show execAmoScPerform c i s = _
  simp only [execAmoScPerform, hq, hst, Bool.and_eq_true, decide_eq_true_eq]
  split <;> rfl

/-! ## Translation -/

/-- Filling the caches does not change what an address translates to. -/
theorem xlat_of_xlatFill {asid va : Nat} {r : XRes} (h : xlatFill s c asid va = (r, t)) : xlat s c asid va = r := by
  have hx : (xlatFill s c asid va).1 = xlat s c asid va := by
    unfold xlatFill xlat xlook
    cases (if va ≥ 2 ^ 56 then none else cached s c asid va) with
    | some e => rfl
    | none => cases tableLook s asid va <;> rfl
  rw [← hx, h]

/-- An access that what it matches holds whole is not split (R114). -/
theorem xsplit_whole {asid k va off n : Nat} {r : XRes} (hr : (xlat s c asid va).bounded n = r) (hf : ∀ f, r ≠ .fail f) (hn : n ≤ r.span) :
    xsplit s c asid (k + 1) va off n = [(va, off, n, r)] := by
  subst hr
  unfold xsplit
  dsimp only
  split
  · rfl
  · rw [if_pos hn]

theorem bounded_loc {pa k rt sp n : Nat} {y x : Bool} (hn : n ≤ sp) (h : pa + n ≤ hbmSize) :
    (XRes.loc pa k rt sp y x).bounded n = .loc pa k rt sp y x := by
  rw [XRes.bounded, Nat.min_eq_right hn, if_neg (Nat.not_lt.mpr h)]

theorem gParts_loc {asid va n pa k rt sp : Nat} {y x : Bool} (hx : xlat s c asid va = .loc pa k rt sp y x) (hn : n ≤ sp)
    (h : pa + n ≤ hbmSize) : gParts s c asid va n = [(va, 0, n, .loc pa k rt sp y x)] := by
  rw [gParts, xsplit_whole (r := .loc pa k rt sp y x) (by rw [hx, bounded_loc hn h]) (fun f => XRes.noConfusion) hn]
  rfl

/-- An access within one line and one window is not split (R114, R117). -/
theorem gParts_win {asid va n m o sp : Nat} {w : List Nat} (hx : xlat s c asid va = .win m w o sp) (hn : n ≤ sp) (hl : va % 128 + n ≤ 128) :
    gParts s c asid va n = [(va, 0, n, .win m w o sp)] := by
  rw [gParts, xsplit_whole (r := .win m w o sp) (by rw [hx]; rfl) (fun f => XRes.noConfusion) hn]
  simp only [List.flatMap_cons, List.flatMap_nil, List.append_nil, if_neg (by omega : ¬128 - va % 128 < n)]

/-- A kind of access that is performed where its own address translates: no probe and no atomic of the wheel. -/
def Direct (g : GOp) : Prop := g.kind ≠ .probe ∧ g.kind ≠ .amoSc

theorem direct_of_value (h : g.kind = .load ∨ g.kind = .loadAcq ∨ g.kind = .amo) : Direct g := by
  rcases h with h | h | h <;> simp only [Direct, h] <;> decide

theorem direct_of_store (h : g.kind = .store ∨ g.kind = .storeRel) : Direct g := by
  rcases h with h | h <;> simp only [Direct, h] <;> decide

theorem gPerform_loc {pa k rt n : Nat} {y x : Bool} (hq : (coreAt s c).f.gq[i]? = some g) (hd : Direct g)
    (hx : xlatFill s c (asidOf (coreAt s c)) g.lo = (.loc pa k rt n y x, t)) (hn : g.size ≤ n) (h : pa + g.size ≤ hbmSize) :
    gPerform s c i = gLocal t c i g pa k rt := by
  have hp := gParts_loc (xlat_of_xlatFill hx) hn h
  simp only [gPerform, hq, hd.1, hd.2, if_false, hp, hx, bounded_loc hn h, List.length_singleton, Nat.lt_irrefl, gt_iff_lt]

theorem gPerform_win {n o sp : Nat} {w : List Nat} (hq : (coreAt s c).f.gq[i]? = some g) (hd : Direct g)
    (hx : xlatFill s c (asidOf (coreAt s c)) g.lo = (.win n w o sp, t)) (hn : g.size ≤ sp) (hl : g.lo % 128 + g.size ≤ 128) :
    gPerform s c i = gWindow t c i g n w o := by
  have hp := gParts_win (xlat_of_xlatFill hx) hn hl
  simp only [gPerform, hq, hd.1, hd.2, if_false, hp, hx, XRes.bounded, List.length_singleton, Nat.lt_irrefl, gt_iff_lt]

theorem gPerform_wheel {pa k rt n : Nat} {y x : Bool} (hq : (coreAt s c).f.gq[i]? = some g) (hk : g.kind = .amoSc)
    (hx : scTarget s c g = .loc pa k rt n y x) : gPerform s c i = gLocal s c i g pa k rt := by
  simp only [gPerform, hq, hk, hx, if_true, if_false, reduceCtorEq]

/-! ## Local memory -/

/-- No line of a read is one that ECC corrects (R443). -/
theorem ceCount_of_clean {pa n : Nat} (h : softSpan s pa n = false) : ceCount s pa n = s := by
  have noSoft : (linesIn pa n).filter (fun a => s.soft.contains (a / 128)) = [] :=
    List.filter_eq_nil_iff.mpr fun a ha hs => Bool.false_ne_true (h ▸ List.any_eq_true.mpr ⟨a, ha, hs⟩)
  rw [ceCount, noSoft]
  rfl

/-- A read that ECC does not touch gives the bytes as they stand. -/
theorem hbmRead_of_clean {pa n asid : Nat} (hn : n ≠ 0) (hb : badSpan s pa n = false) (hs : softSpan s pa n = false) :
    hbmRead s asid pa n = (memBytes s.mem pa n, s) := by
  simp only [hbmRead, hn, if_false, hb, Bool.false_eq_true, ceCount_of_clean hs, ite_self]

/-- An access of local memory that its page lets through, on lines that ECC does not touch (R355, R369). -/
structure Plain (t : State) (g : GOp) (pa k rt : Nat) : Prop where
  unversioned : k ≠ kVERSIONED
  uncounted : k ≠ kCOUNTER
  right : hasRight rt g.kind.right = true
  clean : badSpan t pa g.size = false
  uncorrected : softSpan t pa g.size = false

/-- An access that takes its way to a stack of another die (R12, log 79). -/
def takesWay (t : State) (c : Nat) (g : GOp) (pa : Nat) : Bool :=
  g.kind != .amoSc && g.hub != 2 && (farStack t c pa || farStack t c (pa + g.size - 1))

variable {pa k rt : Nat}

theorem gLocal_away (h : Plain t g pa k rt) (hw : takesWay t c g pa = true) : gLocal t c i g pa k rt = gHub t c i g := by
  unfold takesWay at hw
  simp only [gLocal, h.unversioned, h.uncounted, decide_false, Bool.or_self, Bool.false_eq_true, if_false, h.right, Bool.not_true, h.clean,
    Bool.and_false, Bool.false_and, hw, if_true]

theorem gLocal_load (h : Plain t g pa k rt) (hw : takesWay t c g pa = false) (hk : g.kind = .load ∨ g.kind = .loadAcq) (hn : g.size ≠ 0) :
    gLocal t c i g pa k rt = gLoaded t c i g (leNat (memBytes t.mem pa g.size)) := by
  unfold takesWay at hw
  simp only [gLocal, h.unversioned, h.uncounted, decide_false, Bool.or_self, Bool.false_eq_true, if_false, h.right, Bool.not_true, h.clean,
    Bool.and_false, Bool.false_and, hw, hbmRead_of_clean hn h.clean h.uncorrected]
  rcases hk with hk | hk <;> simp only [hk]

theorem gLocal_store (h : Plain t g pa k rt) (hw : takesWay t c g pa = false) (hk : g.kind = .store ∨ g.kind = .storeRel) :
    gLocal t c i g pa k rt = gStored (hbmWrite t pa (toBytes g.data.toNat g.size)) c i g := by
  unfold takesWay at hw
  simp only [gLocal, h.unversioned, h.uncounted, decide_false, Bool.or_self, Bool.false_eq_true, if_false, h.right, Bool.not_true, h.clean,
    Bool.and_false, Bool.false_and, hw]
  rcases hk with hk | hk <;> simp only [hk]

/-- The function of an atomic on memory: the old value goes to its register, the new one in its place, but for a compare that fails (R221). -/
def atomicDone (t : State) (c i : Nat) (g : GOp) (fn pa : Nat) : State :=
  let old := BitVec.ofNat 64 (leNat (memBytes t.mem pa 8))
  gResult (gRemove (if fn = 9 ∧ old ≠ g.cmp then t else hbmWrite t pa (toBytes (amoFn fn old g.data g.cmp).toNat 8)) c i) c g.dst old

theorem gLocal_atomic (h : Plain t g pa k rt) (hw : takesWay t c g pa = false) (hk : g.kind = .amo ∨ g.kind = .amoSc) (hn : g.size = 8) :
    gLocal t c i g pa k rt = atomicDone t c i g (if g.kind = .amoSc then scFn g.fn else g.fn) pa := by
  unfold takesWay at hw
  have hread := hbmRead_of_clean (asid := asidOf (coreAt t c)) (by decide) (hn ▸ h.clean) (hn ▸ h.uncorrected)
  simp only [gLocal, h.unversioned, h.uncounted, decide_false, Bool.or_self, Bool.false_eq_true, if_false, h.right, Bool.not_true, h.clean,
    Bool.and_false, Bool.false_and, hw, hread]
  rcases hk with hk | hk <;> simp only [hk, atomicDone, Bool.and_eq_true, decide_eq_true_eq, bne_iff_ne]

/-! ## A load's register -/

theorem findIdxFrom_none {α : Type} (q : α → Bool) (l : List α) : ∀ n, (∀ x ∈ l, q x = false) → findIdxFrom q n l = none := by
  induction l with
  | nil => exact fun _ _ => rfl
  | cons x l ih =>
    intro n h
    rw [findIdxFrom, if_neg (Bool.eq_false_iff.mp (h x List.mem_cons_self)), ih _ fun y hy => h y (List.mem_cons_of_mem _ hy)]

/-- The last part of a load writes its register (R114, R218). -/
theorem gLoaded_last (v : Nat) (hlast : ∀ h ∈ (coreAt (gRemove t c i) c).f.gq, ¬(h.seq = g.seq ∧ h.dst = g.dst)) (hd : g.data = 0)
    (ho : g.off = 0) : gLoaded t c i g v = gResult (gRemove t c i) c g.dst (BitVec.ofNat 64 v) := by
  have noOther : findIdxOf (fun (h : GOp) => h.seq == g.seq && h.dst == g.dst) (coreAt (gRemove t c i) c).f.gq = none :=
    findIdxFrom_none _ _ _ fun h hh => Bool.eq_false_iff.mpr fun he => hlast h hh (by simpa using he)
  simp only [gLoaded, noOther, hd, ho, Nat.mul_zero, Nat.pow_zero, Nat.mul_one, BitVec.zero_or (w := 64), show (0 : Word) = 0#64 from rfl]

/-- Settles O19: each access by its order, its translation and what local memory answers. -/
theorem queuedAccessesPerformed : Obligations.QueuedAccessesPerformed := by
  unfold Obligations.QueuedAccessesPerformed
  refine ⟨fun s c i g hq => ?entry, fun s c j u hu => ?acked⟩
  case entry =>
    intro asid leave may gone old put amo answers value store
    have tried {e : Instr} (he : exec e s = .next (gTry s c i)) : answers e := gTry_answers hq he
    have returns (hv : value) (hst : g.st = .ready) := exec_gLoadReturn hq (hv.imp_right (Or.imp_right .inl)) hst
    refine ⟨fun hst => ⟨fun hv => tried (returns hv hst), fun hs => tried (exec_placementAck hq hs hst)⟩,
      fun a w hst hw ho => tried ((exec_amoScPerform hq hst).trans ?_), fun a w hst hno => (exec_amoScPerform hq hst).trans ?_, ?memory,
      fun t v hlast hd ho => gLoaded_last v hlast hd ho, ?wheel⟩
    · rw [if_pos ⟨hw, ho⟩]
    · rw [if_neg]
      rintro ⟨hw, ho⟩
      rcases hno with hno | hno
      · omega
      · exact Bool.false_ne_true (hno ▸ ho)
    case memory =>
      intro pa k rt n y x t hmay hhub hx _ hkv hkc hr hb hs hst h0 hn hpa away
      have hp : Plain t g pa k rt := ⟨hkv, hkc, hr, hb, hs⟩
      have performs (hd : Direct g) : gTry s c i = gLocal t c i g pa k rt :=
        (gTry_performs hq hhub hmay.1 hmay.2).trans (gPerform_loc hq hd hx hn hpa)
      have hway (hd : Direct g) : takesWay t c g pa = true ↔ away := by
        simp only [takesWay, Bool.and_eq_true, bne_iff_ne, Bool.or_eq_true]
        exact ⟨fun h => ⟨h.1.2, h.2⟩, fun h => ⟨⟨hd.2, h.1⟩, h.2⟩⟩
      have stays (hd : Direct g) (hn : ¬away) : takesWay t c g pa = false := Bool.eq_false_iff.mpr fun h => hn ((hway hd).mp h)
      refine ⟨fun ha hv => ?_, fun ha hv => ?_, fun ha => ⟨fun hv => ?_, fun hv => ?_, fun hv h8 => ?_⟩⟩
      · rw [returns hv hst, performs (direct_of_value hv), gLocal_away hp ((hway (direct_of_value hv)).mpr ha)]
      · rw [exec_placementAck hq hv hst, performs (direct_of_store hv), gLocal_away hp ((hway (direct_of_store hv)).mpr ha)]
      · have hv' : value := hv.imp_right .inl
        rw [returns hv' hst, performs (direct_of_value hv'), gLocal_load hp (stays (direct_of_value hv') ha) hv (Nat.ne_of_gt h0)]
      · rw [exec_placementAck hq hv hst, performs (direct_of_store hv), gLocal_store hp (stays (direct_of_store hv) ha) hv]
        rfl
      · have hv' : value := .inr (.inr hv)
        rw [returns hv' hst, performs (direct_of_value hv'), gLocal_atomic hp (stays (direct_of_value hv') ha) (.inl hv) h8, hv]
        rfl
    case wheel =>
      intro a w pa k rt n y x hmay hhub hst hw ho hk h8 hx hkv hkc hr hb hs
      have hp : Plain s g pa k rt := ⟨hkv, hkc, hk ▸ hr, h8 ▸ hb, h8 ▸ hs⟩
      have stays : takesWay s c g pa = false := by rw [takesWay, hk]; rfl
      rw [exec_amoScPerform hq hst, if_pos ⟨hw, ho⟩, gTry_performs hq hhub hmay.1 hmay.2, gPerform_wheel hq hk hx,
        gLocal_atomic hp stays (.inr hk) h8, if_pos hk]
      rfl
  case acked =>
    show execPlacementAck c _ s = _
    have hout : (coreAt s c).f.gq[(coreAt s c).f.gq.length + j]? = none := List.getElem?_eq_none (Nat.le_add_right ..)
    simp only [execPlacementAck, hout, Nat.add_sub_cancel_left, hu]
    split
    · exact congrArg Host.Outcome.next (modCore_congr (by simp only [Nat.add_sub_cancel_left]))
    · rfl

end Sys2Proof.Proofs
end

section
/-! PROOFS. Probes (R225), and accesses through windows as they are performed (R118, R218, R221, R363): what parks, the request that goes out, the
entry of the combining buffer that a store makes. -/

namespace Sys2Proof.Proofs

open Sys2Proof Sys2Proof.Machine

variable {s t : State} {c i : Nat} {g : GOp}

/-! ## Probes -/

/-- Nothing holds a probe back, and no buffered store leaves before it (R225). -/
theorem gTry_probe (hq : (coreAt s c).f.gq[i]? = some g) (hk : g.kind = .probe) (hh : g.hub ≠ 1) : gTry s c i =
    gResult (gRemove s c i) c g.dst (probeWord s c g.lo) := by
  have hafter (e : GOp) : gAfter s c e g = false := by simp only [gAfter, hk, bne_self_eq_false, Bool.and_false, Bool.false_and]
  have hclear : gClear s c i = true := by
    simp only [gClear, hq, hafter, List.any_eq_false.mpr fun _ _ => Bool.false_ne_true, Bool.not_false]
  have hleave : (coreAt s c).f.comb.any (leavesFor s c g) = false :=
    List.any_eq_false.mpr fun e _ => by simp only [leavesFor, hk, Bool.false_eq_true, not_false_eq_true]
  have hmay : gMay s c i = true := by simp only [gMay, hq, hclear, hk, beq_self_eq_true, Bool.true_or, Bool.and_self]
  rw [gTry_performs hq hh hleave hmay]
  simp only [gPerform, hq, hk, if_true]

/-- A probe's word as a number, from its fields: KIND, TARGET, RIGHTS, BYRANGE and SPAN (R225). -/
def probeBits (kind tgt rights byRange span : Nat) : Nat := 2 ^ 63 + kind * 2 ^ 60 + tgt * 2 ^ 58 + rights * 2 ^ 54 + byRange * 2 ^ 53 + span

theorem probeBits_fields {k tgt r y n : Nat} (hk : k < 8) (ht : tgt < 4) (hr : r < 16) (hy : y < 2) (hn : n < 2 ^ 48) :
    let v := (BitVec.ofNat 64 (probeBits k tgt r y n)).toNat
    bit v 63 = true ∧ bits v 62 60 = k ∧ bits v 59 58 = tgt ∧ bits v 57 54 = r ∧ bits v 53 48 = 32 * y ∧ bit v 53 = decide (y = 1) ∧
      bits v 52 48 = 0 ∧ bits v 47 0 = n := by
  intro v
  have hv : v = 2 ^ 63 + k * 2 ^ 60 + tgt * 2 ^ 58 + r * 2 ^ 54 + y * 2 ^ 53 + n := toNat_ofNat_of_lt (by unfold probeBits; omega)
  have h53 : v / 2 ^ 53 % 2 = y := by omega
  simp only [bit, bits, Nat.testBit_eq_decide_div_mod_eq, h53, decide_eq_true_eq, Nat.reduceAdd, Nat.reduceSub]
  refine ⟨?_, ?_, ?_, ?_, ?_, trivial, ?_, ?_⟩ <;> omega

theorem probeWord_fail {va f : Nat} (h : (xlat s c (asidOf (coreAt s c)) va).bounded 8 = .fail f) : probeWord s c va = BitVec.ofNat 64 f := by
  simp only [probeWord, h]

theorem probeWord_unreadable {va pa k rt n : Nat} {y x : Bool} (h : (xlat s c (asidOf (coreAt s c)) va).bounded 8 = .loc pa k rt n y x)
    (hr : hasRight rt rR = false) : probeWord s c va = 0x04 := by
  simp only [probeWord, h, hr, Bool.false_eq_true, if_false]

theorem probeWord_loc {va pa k rt n : Nat} {y x : Bool} {e : XEnt} (he : xlook s c (asidOf (coreAt s c)) va = .hit e)
    (h : (xlat s c (asidOf (coreAt s c)) va).bounded 8 = .loc pa k rt n y x) (hr : hasRight rt rR = true) : probeWord s c va =
    BitVec.ofNat 64 (probeBits k 0 rt y.toNat (min (entEnd e - va) (2 ^ 48 - 1))) := by
  have byRange : (if y = true then 2 ^ 53 else 0) = y.toNat * 2 ^ 53 := by cases y <;> rfl
  rw [probeBits, Nat.zero_mul, Nat.add_zero, ← byRange]
  simp only [probeWord, he, h, hr, if_true]

/-- The kind that a probe reports behind a window: a free value where R225 states none (log 77). -/
def kindBehind (s : State) (w : List Nat) (o : Nat) : Nat :=
  let k := if winTgt w = 0 then winKind s w o else 0
  if k = 0 then (Config.farKind (winPkg w) (winKey w) ((winRoff w + o) / 2 ^ 18)).toNat else k

theorem kindBehind_lt {w : List Nat} {o : Nat} (h : winKind s w o < 8) : kindBehind s w o < 8 := by
  have far : (Config.farKind (winPkg w) (winKey w) ((winRoff w + o) / 2 ^ 18)).toNat < 8 := BitVec.isLt _
  unfold kindBehind
  dsimp only
  split <;> split <;> omega

theorem kindBehind_known {w : List Nat} {o : Nat} (h0 : winTgt w = 0) (h : 0 < winKind s w o) : kindBehind s w o = winKind s w o := by
  simp only [kindBehind, h0, if_true, Nat.ne_of_gt h, if_false]

theorem probeWord_win {va n o sp : Nat} {w : List Nat} {e : XEnt} (he : xlook s c (asidOf (coreAt s c)) va = .hit e)
    (h : (xlat s c (asidOf (coreAt s c)) va).bounded 8 = .win n w o sp) : probeWord s c va =
    BitVec.ofNat 64 (probeBits (kindBehind s w o) (winTgt w + 1) (winRights w) 0 (min (entEnd e - va) (2 ^ 48 - 1))) := by
  rw [probeBits, Nat.zero_mul, Nat.add_zero]
  simp only [probeWord, he, h, kindBehind]

/-! ## Requests through a window -/

theorem gPark_of_kind {cause : Nat} (h : cause ≠ 0x0B) : gPark t c i g cause 0 = gSet t c i { g with st := .parked cause 0 } := by
  rw [gPark, gParkAt, if_neg h]
  rfl

variable {n o : Nat} {w : List Nat}

theorem gWindow_counter (h : winTgt w = 2) : gWindow t c i g n w o = gSet t c i { g with st := .parked 0x0D 0 } := by
  rw [gWindow, if_pos h, gPark_of_kind (by decide)]

theorem gWindow_handle (h : winTgt w = 1) (hk : g.kind.writesReg = true) : gWindow t c i g n w o = gSet t c i { g with st := .parked 0x0C 0 } := by
  simp only [gWindow, h, hk, gPark_of_kind (by decide : 0x0C ≠ 0x0B)]
  rfl

theorem gWindow_noRight (h : winTgt w ≠ 2) (hr : hasRight (winRights w) g.kind.right = false) :
    gWindow t c i g n w o = gSet t c i { g with st := .parked 0x0C 0 } := by
  simp only [gWindow, h, hr, if_false, Bool.not_false, if_true, ite_self, gPark_of_kind (by decide : 0x0C ≠ 0x0B)]

theorem gWindow_store (h : winTgt w ≠ 2) (hr : hasRight (winRights w) g.kind.right = true) (hk : g.kind = .store ∨ g.kind = .storeRel) :
    gWindow t c i g n w o = gStored (combStore t c n w g.lo (toBytes g.data.toNat g.size) none) c i g := by
  have hw : g.kind.writesReg = false := by rcases hk with hk | hk <;> rw [hk] <;> rfl
  simp only [gWindow, h, hr, hw, if_false, Bool.not_true, Bool.and_false, Bool.false_eq_true]
  rcases hk with hk | hk <;> simp only [hk]

theorem gWindow_load (h : winTgt w = 0) (hr : hasRight (winRights w) g.kind.right = true) (hk : g.kind = .load ∨ g.kind = .loadAcq) :
    gWindow t c i g n w o = gSend t c i { g with ver := (combOver (coreAt t c) g).1, cmp := BitVec.ofNat 64 (combOver (coreAt t c) g).2 }
      w o 0x02 (g.size - 1) g.size [] := by
  have hbm : winTgt w ≠ 1 ∧ winTgt w ≠ 2 := by omega
  simp only [gWindow, hbm.1, hbm.2, hr, decide_false, if_false, Bool.not_true, Bool.false_and, Bool.false_eq_true]
  rcases hk with hk | hk <;> simp only [hk]

theorem gWindow_atomic (h : winTgt w = 0) (hr : hasRight (winRights w) g.kind.right = true) (hk : g.kind = .amo) :
    gWindow t c i g n w o = gSend (flushLine t c g) c i g w o 0x03 g.fn 16 (toBytes g.data.toNat 8 ++ toBytes g.cmp.toNat 8) := by
  have hbm : winTgt w ≠ 1 ∧ winTgt w ≠ 2 := by omega
  simp only [gWindow, hbm.1, hbm.2, hr, decide_false, if_false, Bool.not_true, Bool.false_and, Bool.false_eq_true]
  simp only [hk]

/-! ## Bytes in a new entry of the combining buffer -/

theorem length_toBytes (n : Nat) : ∀ v, (toBytes v n).length = n := by
  induction n with
  | zero => exact fun _ => rfl
  | succ n ih => exact fun v => congrArg Nat.succ (ih _)

/-- A bit of a little-endian number is that of its byte (R5). -/
theorem testBit_leNat (b : List Byte) : ∀ {j k : Nat} (hj : j < b.length), k < 8 → (leNat b).testBit (8 * j + k) = b[j].getLsbD k := by
  induction b with
  | nil => exact fun hj => absurd hj (Nat.not_lt_zero _)
  | cons x b ih =>
    intro j k hj hk
    have split : leNat (x :: b) = 2 ^ 8 * leNat b + x.toNat := Nat.add_comm ..
    rw [split, Nat.testBit_two_pow_mul_add _ x.isLt]
    cases j with
    | zero => rw [if_pos (by omega), Nat.mul_zero, Nat.zero_add]; rfl
    | succ j =>
      rw [if_neg (by omega), show 8 * (j + 1) + k - 8 = 8 * j + k by omega]
      exact ih (Nat.lt_of_succ_lt_succ hj) hk

/-- The entry that a store of bytes at an address makes in a line that has none (R118). -/
def newEntry (va win : Nat) (w : List Nat) (b : List Byte) (land : Option Word) (now ord : Nat) : CombEntry :=
  ⟨va / 128, win, w, BitVec.ofNat 128 ((2 ^ b.length - 1) * 2 ^ (va % 128)),
    setBits 0#1024 (8 * (va % 128)) (8 * b.length) (BitVec.ofNat 1024 (leNat b)), land, now, ord, false⟩

theorem newEntry_mask {va win : Nat} {b : List Byte} {land : Option Word} {now ord j : Nat} (hj : j < 128) :
    (newEntry va win w b land now ord).mask.getLsbD j = true ↔ va % 128 ≤ j ∧ j < va % 128 + b.length := by
  simp only [newEntry, BitVec.getLsbD_ofNat, hj, decide_true, Bool.true_and, Nat.testBit_mul_two_pow, Nat.testBit_two_pow_sub_one,
    Bool.and_eq_true, decide_eq_true_eq]
  omega

theorem newEntry_byte {va win : Nat} {b : List Byte} {land : Option Word} {now ord j : Nat} (hj : j < b.length) (hb : va % 128 + b.length ≤ 128) :
    (newEntry va win w b land now ord).data.extractLsb' (8 * (va % 128 + j)) 8 = b[j] := by
  refine BitVec.eq_of_getLsbD_eq fun k hk => ?_
  have place : 8 * (va % 128 + j) + k - 8 * (va % 128) = 8 * j + k := by omega
  have inLine : 8 * (va % 128 + j) + k < 1024 ∧ 8 * j + k < 1024 := by omega
  have written : 8 * j + k < 8 * b.length ∧ ¬8 * (va % 128 + j) + k < 8 * (va % 128) := by omega
  simp only [newEntry, setBits, BitVec.getLsbD_extractLsb', hk, BitVec.getLsbD_or, BitVec.zero_and, Nat.zero_testBit, BitVec.getLsbD_shiftLeft,
    BitVec.getLsbD_and, BitVec.getLsbD_ofNat, place, Nat.testBit_two_pow_sub_one, written.1, written.2, inLine.1, inLine.2,
    testBit_leNat b hj hk, decide_true, decide_false, Bool.not_false, Bool.and_false, Bool.true_and, Bool.and_true, Bool.false_or]

/-- Nothing leaves a combining buffer in which nothing is named. -/
theorem flushComb_of_none {sel : CombEntry → Bool} (h : ∀ e ∈ (coreAt t c).f.comb, sel e = false) :
    flushComb t c sel = modCore t c fun k => { k with f := { k.f with comb := (coreAt t c).f.comb } } := by
  have kept : ((coreAt t c).f.comb.filter fun e => !sel e) = (coreAt t c).f.comb :=
    List.filter_eq_self.mpr fun e he => by rw [h e he]; rfl
  have gone : (coreAt t c).f.comb.filter sel = [] := List.filter_eq_nil_iff.mpr fun e he => Bool.eq_false_iff.mp (h e he)
  simp only [flushComb, kept, gone, List.foldl_nil]

/-- A store into a line that the combining buffer does not hold, while it has room, makes an entry of its bytes (R118). -/
theorem combPut_newLine {va win : Nat} {b : List Byte} {land : Option Word} (hline : ∀ e ∈ (coreAt t c).f.comb, e.line ≠ va / 128)
    (hroom : (coreAt t c).f.comb.length < 64) : ∃ ord,
    (coreAt (combPut t c win w va b land) c).f.comb = (coreAt t c).f.comb ++ [newEntry va win w b land t.now ord] := by
  have hfind : findIdxOf (fun e : CombEntry => e.line == va / 128) (coreAt t c).f.comb = none :=
    findIdxFrom_none _ _ _ fun e he => beq_eq_false_iff_ne.mpr (hline e he)
  have hflush := flushComb_of_none (sel := fun e => e.line == va / 128 && (e.land != land || e.win != win || e.w != w)) fun e he => by
    rw [beq_eq_false_iff_ne.mpr (hline e he), Bool.false_and]
  simp only [combPut, hflush, coreAt_modCore_same, hroom, decide_true, Bool.or_true, if_true, hfind]
  exact ⟨_, rfl⟩

/-- Bytes within a line are one store (R118). -/
theorem combStore_inLine {va win : Nat} {b : List Byte} {land : Option Word} (hb : b ≠ []) (hl : va % 128 + b.length ≤ 128) :
    combStore t c win w va b land = combPut t c win w va b land := by
  have lines (k : Nat) : byLines (k + 1) va b = [(va, b)] := by
    have htake : b.take (128 - va % 128) = b := List.take_of_length_le (by omega)
    have hdrop : b.drop (128 - va % 128) = [] := List.drop_eq_nil_of_le (by omega)
    rw [byLines, if_neg (by simpa using hb)]
    simp only [htake, hdrop]
    cases k <;> rfl
  rw [combStore, lines]
  rfl

/-- A store that leaves the queue leaves the combining buffer alone. -/
theorem gStored_comb : (coreAt (gStored t c i g) c).f.comb = (coreAt t c).f.comb := by
  simp only [gStored, gRemove, coreAt_modCore_same]

/-- Settles O21: a probe by the fields of its word, an access by what its window lets through, a store by the entry of its line. -/
theorem probesAndWindowAccesses : Obligations.ProbesAndWindowAccesses := by
  unfold Obligations.ProbesAndWindowAccesses
  refine ⟨fun s c i g hq hk hst hh => ?probe, fun s c va => ?word, fun s t c i n o sp w g hq hst hh hl hm h0 hline hsp hx => ?window,
    fun s va o op aux len tag w b h0 => ?request⟩
  case probe => rw [exec_gLoadReturn hq (.inr (.inr (.inr hk))) hst, gTry_probe hq hk hh]; rfl
  case word =>
    intro v r
    refine ⟨fun f hr hf => ?_, fun pa k rt n y x hr hright => ?_, fun e pa k rt n y x he hr hright hk hrt => ?_,
      fun e n w o sp he hr ht hk => ?_⟩
    · rw [show v = (BitVec.ofNat 64 f).toNat from congrArg BitVec.toNat (probeWord_fail hr), toNat_ofNat_of_lt (by omega)]
    · rw [show v = (0x04 : Word).toNat from congrArg BitVec.toNat (probeWord_unreadable hr hright)]
      rfl
    · obtain ⟨h63, hkind, htgt, hrights, -, hby, hlow, hspan⟩ := probeBits_fields (tgt := 0) hk (by decide) hrt (Bool.toNat_lt y)
        (n := min (entEnd e - va) (2 ^ 48 - 1)) (by omega)
      rw [show v = _ from congrArg BitVec.toNat (probeWord_loc he hr hright)]
      refine ⟨h63, hkind, htgt, hrights, hby.trans (by cases y <;> rfl), hlow, hspan⟩
    · have hrights : winRights w < 16 := Nat.mod_lt _ (by decide)
      obtain ⟨h63, hk62, htgt, hrt, hlow, -, -, hspan⟩ := probeBits_fields (tgt := winTgt w + 1) (kindBehind_lt hk) (by omega) hrights
        (y := 0) (by decide) (n := min (entEnd e - va) (2 ^ 48 - 1)) (by omega)
      rw [show v = _ from congrArg BitVec.toNat (probeWord_win he hr)]
      exact ⟨h63, htgt, hrt, hlow, hspan, fun h0 hpos => hk62.trans (kindBehind_known h0 hpos)⟩
  case window =>
    intro value store parks stops right sends line
    have performs (hd : Direct g) : gTry s c i = gWindow t c i g n w o :=
      (gTry_performs hq hh hl hm).trans (gPerform_win hq hd hx hsp hline)
    have returns (hv : value) : exec (.gLoadReturn c i) s = .next (gWindow t c i g n w o) :=
      (exec_gLoadReturn hq (hv.imp_right (Or.imp_right .inl)) hst).trans (congrArg Host.Outcome.next (performs (direct_of_value hv)))
    have places (hv : store) : exec (.placementAck c i) s = .next (gWindow t c i g n w o) :=
      (exec_placementAck hq hv hst).trans (congrArg Host.Outcome.next (performs (direct_of_store hv)))
    have parked {cause : Nat} (h : gWindow t c i g n w o = parks cause) : stops cause :=
      ⟨fun hv => h ▸ returns hv, fun hv => h ▸ places hv⟩
    refine ⟨fun h2 => parked (gWindow_counter h2), fun h1 hv => parked (gWindow_handle h1 ?_), fun h2 hr => parked (gWindow_noRight h2 hr),
      fun ht hr hk => ?_, fun ht hr hk => ?_, fun h2 hr hk => ⟨_, places hk, gWindow_store h2 hr hk, fun hnew hroom => ?_⟩⟩
    · rcases hv with hv | hv | hv <;> rw [hv] <;> rfl
    · rw [returns (hk.imp_right .inl), gWindow_load ht hr hk]
      rfl
    · rw [returns (.inr (.inr hk)), gWindow_atomic ht hr hk]
      rfl
    · have hlen := length_toBytes g.size g.data.toNat
      have hfits := hlen.symm ▸ hline
      have hb : toBytes g.data.toNat g.size ≠ [] := fun h => by rw [h] at hlen; exact absurd hlen (Nat.ne_of_lt h0)
      obtain ⟨ord, hcomb⟩ := combPut_newLine (va := g.lo) (win := n) (w := w) (b := toBytes g.data.toNat g.size) (land := none) hnew hroom
      refine ⟨newEntry g.lo n w (toBytes g.data.toNat g.size) none t.now ord, ?_, rfl, rfl, rfl, rfl, rfl,
        fun j hj => (newEntry_mask hj).trans (by rw [hlen]), fun j hj => ?_⟩
      · rw [gWindow_store h2 hr hk, gStored_comb, combStore_inLine hb hfits, hcomb]
      · have hj' := hlen.symm ▸ hj
        rw [List.getElem?_eq_getElem hj', newEntry_byte hj' hfits]
  case request =>
    simp only [winRequest, h0, if_true, Nat.zero_add, and_self]

end Sys2Proof.Proofs
end

section
/-! PROOFS. The words of a product (R89, R90, R93): a lane of a row written word by word, the sum of products, wrapped or saturated. -/

namespace Sys2Proof.Proofs

open Sys2Proof Sys2Proof.Machine

/-! ## Lanes of a row -/

/-- A digit of digits of `w` bits put one above the other. -/
theorem foldr_digits (w : Nat) (l : List Nat) (j : Nat) :
    l.foldr (fun x acc => acc * 2 ^ w + x % 2 ^ w) 0 / 2 ^ (w * j) % 2 ^ w = l.getD j 0 % 2 ^ w := by
  induction l generalizing j with
  | nil => simp
  | cons x l ih =>
    rw [List.foldr_cons]
    cases j with
    | zero => simp
    | succ j =>
      have hx : x % 2 ^ w < 2 ^ w := Nat.mod_lt _ (Nat.two_pow_pos w)
      rw [Nat.mul_succ, Nat.add_comm (w * j), Nat.pow_add, ← Nat.div_div_eq_div_mul, Nat.mul_comm _ (2 ^ w), Nat.mul_add_div (Nat.two_pow_pos w),
        Nat.div_eq_of_lt hx, Nat.add_zero, ih, List.getD_cons_succ]

theorem extractLsb'_ofNat_row {a w : Nat} (h : a + w ≤ 4096) (n : Nat) :
    (BitVec.ofNat 4096 n).extractLsb' a w = BitVec.ofNat w (n / 2 ^ a) := by
  refine BitVec.eq_of_getLsbD_eq fun i hi => ?_
  have hrow : a + i < 4096 := by omega
  simp only [BitVec.getLsbD_extractLsb', BitVec.getLsbD_ofNat, Nat.testBit_div_two_pow, hi, hrow, decide_true, Bool.true_and, Nat.add_comm]

/-- A lane of a row is the word put there. -/
theorem lane_packLanes {w j : Nat} (h : w * j + w ≤ 4096) (l : List Nat) :
    (packLanes w l).extractLsb' (w * j) w = BitVec.ofNat w (l.getD j 0) := by
  rw [packLanes, extractLsb'_ofNat_row h]
  exact BitVec.eq_of_toNat_eq (by rw [BitVec.toNat_ofNat, BitVec.toNat_ofNat, foldr_digits])

/-! ## Sums of products (R90) -/

theorem dotRun_eq_sum (fmt lo : Nat) (a b : MxRow) (n : Nat) :
    dotRun fmt lo a b n = ((List.range n).map fun i => a.elem fmt (lo + i) * b.elem fmt (lo + i)).sum := by
  induction n with
  | zero => rfl
  | succ n ih => rw [dotRun, ih, List.range_succ, List.map_append, List.sum_append, List.map_singleton, List.sum_singleton]

theorem sextN_toNat (x : BitVec 32) : sextN 32 x.toNat = x.toInt := by
  have hx := x.isLt
  rw [sextN, BitVec.toInt_eq_toNat_cond, Nat.mod_eq_of_lt hx]
  split <;> split <;> omega

theorem ofNat_toPat (w : Nat) (v : Int) : BitVec.ofNat w (toPat w v) = BitVec.ofInt w v := by
  have hpos : (0 : Int) < 2 ^ w := Int.pow_pos (by decide)
  have hlt : (v % 2 ^ w).toNat < 2 ^ w := by
    rw [Int.toNat_lt (Int.emod_nonneg v (Int.ne_of_gt hpos)), Int.natCast_pow]
    exact Int.emod_lt_of_pos v hpos
  refine BitVec.eq_of_toNat_eq ?_
  rw [BitVec.toNat_ofNat, BitVec.toNat_ofInt, toPat, Nat.mod_eq_of_lt hlt, Int.natCast_pow]
  rfl

theorem satI_eq_clamp {lo hi : Int} (h : lo ≤ hi) (x : Int) : satI x lo hi = max lo (min hi x) := by
  unfold satI
  split
  · omega
  · split <;> omega

/-- The INT32 word of a product: the sum, wrapped or saturated (R90). -/
theorem ofNat_dotInt (sat : Bool) (old : Nat) (t : Int) : BitVec.ofNat 32 (dotInt sat old t) =
    BitVec.ofInt 32 (if sat then max (-2147483648) (min 2147483647 (sextN 32 old + t)) else sextN 32 old + t) := by
  simp only [dotInt, ofNat_toPat, satI_eq_clamp (by decide : (-2147483648 : Int) ≤ 2147483647)]

/-- The mask word, as the word of a lane (R93). -/
theorem ofNat_maskWord (v : CView) : BitVec.ofNat 32 (maskWord v) =
    if v.mask = 0 then 0xFF800000#32 else if v.mask = 1 then 0 else BitVec.ofNat 32 v.mimm := by
  rw [maskWord, apply_ite (BitVec.ofNat 32), apply_ite (BitVec.ofNat 32)]
  rfl

/-! ## A row of a product (R235, R237) -/

section

variable {v : CView} {tri acc : Bool} {i j : Nat} (ablk : Nat) (p : Plane) (a : MxRow) (old : BitVec 4096)

/-- A word right of the diagonal is the mask word (R93). -/
theorem productRow_masked (hj : j < 128) (h : tri = true ∧ (i : Int) + v.diag < (j : Int)) :
    (productRow v tri acc ablk p i a old).extractLsb' (32 * j) 32 = BitVec.ofNat 32 (maskWord v) := by
  rw [productRow, lane_packLanes (by omega)]
  simp [upTo, hj, h]

/-- A word that is no mask is a product (R89, R90). -/
theorem productRow_word (hj : j < 128) (h : ¬(tri = true ∧ (i : Int) + v.diag < (j : Int))) :
    (productRow v tri acc ablk p i a old).extractLsb' (32 * j) 32 = BitVec.ofNat 32 (
      if v.out then dotInt v.sat (if acc then (old.extractLsb' (32 * j) 32).toNat else 0) (dotRun v.fmt 0 a (p.col j) (mxPerRow v.fmt))
      else dotFp (if acc then some (old.extractLsb' (32 * j) 32).toNat else none) (contributions v.fmt ablk p.blk a (p.col j))) := by
  rw [productRow, lane_packLanes (by omega)]
  simp [upTo, hj, h]

/-- An INT32 word of a product is the sum of products, wrapped or saturated (R90). -/
theorem productRow_int (hj : j < 128) (h : ¬(tri = true ∧ (i : Int) + v.diag < (j : Int))) (hout : v.out = true) :
    let r := (if acc then (old.extractLsb' (32 * j) 32).toInt else 0) +
      ((List.range (mxPerRow v.fmt)).map fun n => a.elem v.fmt n * (p.col j).elem v.fmt n).sum
    (productRow v tri acc ablk p i a old).extractLsb' (32 * j) 32 =
      BitVec.ofInt 32 (if v.sat then max (-2147483648) (min 2147483647 r) else r) := by
  have hold : sextN 32 (if acc then (old.extractLsb' (32 * j) 32).toNat else 0) =
      if acc then (old.extractLsb' (32 * j) 32).toInt else 0 := by
    rw [apply_ite (sextN 32), sextN_toNat]
    rfl
  rw [productRow_word ablk p a old hj h, if_pos hout, ofNat_dotInt, hold, dotRun_eq_sum]
  simp only [Nat.zero_add]

end

end Sys2Proof.Proofs
end

section
/-! PROOFS. A matrix operation alone in flight (R231): what one cycle of it comes to, form by form (R233 to R243). -/

namespace Sys2Proof.Proofs

open Sys2Proof Sys2Proof.Machine

/-! ## The stores of the matrix engine -/

@[simp] theorem countEv_r (c : Core) (ev n : Nat) : (countEv c ev n).r = c.r := by unfold countEv; split <;> rfl
@[simp] theorem countEv_m (c : Core) (ev n : Nat) : (countEv c ev n).m = c.m := by unfold countEv; split <;> rfl
@[simp] theorem countEv_f (c : Core) (ev n : Nat) : (countEv c ev n).f = c.f := by unfold countEv; split <;> rfl

@[simp] theorem putX_r (c : Core) (x : XOp) : (putX c x).r = c.r := rfl
@[simp] theorem putX_m (c : Core) (x : XOp) : (putX c x).m = c.m := rfl
@[simp] theorem putX_q (c : Core) (x : XOp) : (putX c x).q = c.q := rfl

theorem putX_alone {c : Core} {x y : XOp} (h : c.f.xops = [x]) (hs : y.seq = x.seq) : (putX c y).f.xops = [y] := by
  simp only [putX, h, List.map_singleton, hs, if_true]

@[simp] theorem setAcc_m (c : Core) (r : Nat) (w : BitVec 4096) : (setAcc c r w).m = { c.m with acc := spSet c.m.acc r w } := rfl
@[simp] theorem setAcc_f (c : Core) (r : Nat) (w : BitVec 4096) : (setAcc c r w).f = c.f := rfl

theorem accRow_congr {c c' : Core} (h : c'.m = c.m) (r : Nat) : accRow c' r = accRow c r := by simp only [accRow, h]

theorem accRow_setAcc (c : Core) (r n : Nat) (w : BitVec 4096) : accRow (setAcc c r w) n = if n = r then w else accRow c n := by
  have hfind : spFind (setAcc c r w).m.acc n = if n = r then some w else spFind c.m.acc n := spFind_spSet ..
  by_cases h : n = r
  · rw [accRow, hfind, if_pos h, if_pos h]
  · rw [accRow, hfind, if_neg h, if_neg h]
    rfl

theorem drainRow_congr {c c' : Core} (h : c'.m = c.m) (r : Nat) : drainRow c' r = drainRow c r := by simp only [drainRow, h]

theorem slotOf_setSlot (c : Core) (n m : Nat) (o : OSlot) : slotOf (setSlot c n o) m = if m = n then o else slotOf c m :=
  spGet_spSet ..

/-! ## An operation alone in flight -/

section

variable {k : Core} {x : XOp}

/-- Alone, only a row for a full drain queue waits (R237, R243). -/
theorem xWaits_alone (k : Core) (x : XOp) : xWaits k [] x =
    (x.op == 11 && x.done < 128 && x.done + x.slip ≤ x.age && unsentRows k ≥ 8) := by
  simp [xWaits, xBlockers]

/-- Alone and with nothing to wait for, an operation takes the step of its form. -/
theorem xAdvance_alone (hx : k.f.xops = [x]) (hl : x.launched = true) (h11 : x.op ≠ 11 ∨ unsentRows k < 8) :
    xAdvance (fun _ => true) [] k = (stepX [] k [] k x).1 := by
  have hw : xWaits k [] x = false := by
    rw [xWaits_alone]
    rcases h11 with h | h
    · simp [h]
    · simp [Nat.not_le_of_lt h]
  simp [xAdvance, hx, xAdvanceList, hl, hw]

theorem xAdvance_waits (hx : k.f.xops = [x]) (h : x.op = 11) (hd : x.done < 128) (ha : x.done + x.slip ≤ x.age) (hq : 8 ≤ unsentRows k) :
    xAdvance (fun _ => true) [] k = k := by
  have hw : xWaits k [] x = true := by simp [xWaits_alone, *]
  simp [xAdvance, hx, xAdvanceList, hw]

/-- An operation that has done its last row leaves flight (R231). -/
theorem xRetire_alone {t : Core} {y : XOp} (h : t.f.xops = [y]) (hl : y.launched = true) (hd : xTotal y ≤ y.done) (hop : y.op ≠ 10) :
    (xRetire t).f.xops = [] := by
  simp [xRetire, h, hl, hd, hop]

end

/-! ## Which step an operation takes -/

section

variable {x : XOp} (gone : List Nat) (pre : Core) (ports : List (Nat × Bool)) (c : Core)

theorem stepX_past (h : xTotal x ≤ x.done) : stepX gone pre ports c x = (putX c { x with age := x.age + 1 }, ports) := if_pos h

theorem stepX_load (h : x.op = 1 ∨ x.op = 2) (hd : x.done < 128) : stepX gone pre ports c x = (stepLoad c x, ports) := by
  rcases h with h | h <;> simp [stepX, xTotal, isLoad, h, Nat.not_le_of_lt hd]

theorem stepX_mma (h : 3 ≤ x.op ∧ x.op ≤ 7) (hd : x.done < 128) : stepX gone pre ports c x = stepMma pre ports c x := by
  have h8 : x.op ≠ 8 := by omega
  have h1 : x.op ≠ 1 := by omega
  have h2 : x.op ≠ 2 := by omega
  simp [stepX, xTotal, isLoad, isMma, h, h1, h2, h8, Nat.not_le_of_lt hd]

theorem stepX_zero (h : x.op = 8) (hd : x.done < 32) : stepX gone pre ports c x = stepZero ports c x := by
  simp [stepX, xTotal, isLoad, isMma, h, Nat.not_le_of_lt hd]

theorem stepX_drain (h : 9 ≤ x.op) (hd : x.done < 128) (ha : x.done + x.slip ≤ x.age) : stepX gone pre ports c x =
    if x.op = 9 then stepDrain ports c x else if x.op = 10 then (stepSp (gone.contains x.seq) c x, ports) else (stepFab c x, ports) := by
  have h1 : x.op ≠ 1 := by omega
  have h2 : x.op ≠ 2 := by omega
  have h7 : ¬x.op ≤ 7 := by omega
  have h8 : x.op ≠ 8 := by omega
  simp [stepX, xTotal, isLoad, isMma, h1, h2, h7, h8, Nat.not_le_of_lt hd, Nat.not_lt_of_le ha]

end

/-! ## Products (R235 to R237) -/

/-- A core with the registers, the stores and the operations in flight of another. -/
def SameFiles (c c' : Core) : Prop := c'.r = c.r ∧ c'.m = c.m ∧ c'.f = c.f

/-- A row of A that enters follows those in the array; nothing but an event counter changes (R235, R236). -/
theorem enterRow_spec (c : Core) (x : XOp) :
    ∃ c' n l, enterRow c x = (c', { x with entered := n, fly := x.fly ++ l }) ∧ SameFiles c c' := by
  unfold enterRow
  dsimp only
  split
  · refine ⟨_, _, _, rfl, ?_⟩
    split
    · exact ⟨countEv_r .., countEv_m .., countEv_f ..⟩
    · exact ⟨rfl, rfl, rfl⟩
  · exact ⟨c, x.entered, [], by rw [List.append_nil], rfl, rfl, rfl⟩

section

variable {k : Core} {x : XOp} {f : XRow} {l : List XRow}

/-- The row due of a product into a tile is written there (R235). -/
theorem stepMma_tile (hop : x.op ≠ 7) (hf : x.fly = f :: l) (hdue : mmaDue x 0 = true) : ∃ c n fly, SameFiles k c ∧
    (stepMma k [] k x).1 = putX (setAcc c (128 * x.t + f.i)
        (productRow (cview x.mode) (isTri x.op (cview x.mode)) (isAcc x.op) x.ablk x.wts f.i f.a f.old))
      { x with age := x.age + 1, entered := n, fly := fly, done := x.done + 1 } := by
  obtain ⟨c, n, r, he, hc⟩ := enterRow_spec k x
  have hdue' : mmaDue { x with entered := n, fly := f :: (l ++ r) } 0 = true := hdue
  have hread : [(x.t, true)].contains (x.t, false) = false := by simp
  simp only [stepMma, he, hf, List.cons_append, hdue', if_true]
  simp only [bne_iff_ne.mpr hop, hread, List.contains_nil, Bool.and_false, hop, decide_false, Bool.false_and, Bool.or_false, if_true, if_false,
    Bool.false_eq_true]
  split
  · exact ⟨c, n, _, hc, rfl⟩
  · exact ⟨c, n, _, hc, rfl⟩

/-- The row due of `mma.p` is written into the drain buffer, whose kind its first row sets (R237). -/
theorem stepMma_buffer (hop : x.op = 7) (hf : x.fly = f :: l) (hdue : mmaDue x 0 = true) :
    let v := cview x.mode
    ∃ c n fly, SameFiles k c ∧ (stepMma k [] k x).1 = putX { c with m := { c.m with
        drain := spSet c.m.drain f.i (productRow v v.ptri v.pacc x.ablk x.wts f.i f.a (drainRow k f.i))
        drainInt := if x.done = 0 then v.out else c.m.drainInt } }
      { x with age := x.age + 1, entered := n, fly := fly, done := x.done + 1 } := by
  obtain ⟨c, n, r, he, hc⟩ := enterRow_spec k x
  have hdue' : mmaDue { x with entered := n, fly := f :: (l ++ r) } 0 = true := hdue
  refine ⟨c, n, l ++ r, hc, ?_⟩
  simp only [stepMma, he, hf, List.cons_append, hdue', if_true]
  simp [hop, isAcc, isTri]

/-- With no row due, an accumulating form reads the row that is due next; nothing is written (R235). -/
theorem stepMma_between (hf : x.fly = f :: l) (hdue : mmaDue x 0 = false) : ∃ c n fly, SameFiles k c ∧
    (isAcc x.op = true → mmaDue x 1 = true → fly.head? = some { f with old := accRow k (128 * x.t + f.i) }) ∧
    (stepMma k [] k x).1 = putX c { x with age := x.age + 1, entered := n, fly := fly } := by
  obtain ⟨c, n, r, he, hc⟩ := enterRow_spec k x
  have hdue' : mmaDue { x with entered := n, fly := f :: (l ++ r) } 0 = false := hdue
  have hnext : mmaDue { x with entered := n, fly := f :: (l ++ r) } 1 = mmaDue x 1 := rfl
  by_cases hread : isAcc x.op = true ∧ mmaDue x 1 = true
  · refine ⟨c, n, { f with old := accRow k (128 * x.t + f.i) } :: (l ++ r), hc, fun _ _ => rfl, ?_⟩
    simp [stepMma, he, hf, hdue', hnext, hread]
  · refine ⟨c, n, f :: (l ++ r), hc, fun h h' => absurd ⟨h, h'⟩ hread, ?_⟩
    simp [stepMma, he, hf, hdue', hnext, hread]

end

/-! ## Weight loads (R233, R234) -/

section

variable {k : Core} {x : XOp}

/-- `mwld` places the slot row that it reads as a column of its plane (R233). -/
theorem stepLoad_column (hop : x.op = 1) : stepLoad k x = { putX k { x with age := x.age + 1, done := x.done + 1, fly := [] } with
    m := { k.m with planes := spSet k.m.planes x.plane { planeAt k x.plane with
      cols := spSet (planeAt k x.plane).cols x.done ((slotOf k x.os).row x.os x.done), loaded := x.done == 127 } } } := by
  simp [stepLoad, hop]

/-- `mtrans` keeps the slot rows before the last (R234). -/
theorem stepLoad_keeps (hop : x.op = 2) (hd : x.done < 127) : stepLoad k x = putX k { x with
    age := x.age + 1, done := x.done + 1, fly := x.fly ++ [⟨x.done, (slotOf k x.os).row x.os x.done, 0⟩] } := by
  simp [stepLoad, hop, Nat.ne_of_lt hd]

/-- The columns that `mtrans` makes of the rows it has kept and the last, and the elements that changed (R234). -/
def madeOf (k : Core) (x : XOp) : List MxRow × Nat :=
  transposed (x.fly.map XRow.a ++ [(slotOf k x.os).row x.os x.done]) x.ablk (cview x.mode).fmt (blkSize (cview x.mode).kblk)

/-- With the last row `mtrans`, alone in flight, makes the columns of its plane (R234). -/
theorem stepLoad_makes (hop : x.op = 2) (hx : k.f.xops = [x]) (hd : x.done = 127) :
    (stepLoad k x).m = { k.m with planes := spSet k.m.planes x.plane { planeAt k x.plane with
      cols := (madeOf k x).1.zipIdx.map fun e => (e.2, e.1), loaded := true } } ∧
    (stepLoad k x).r = { k.r with alnLoss := satAdd64 k.r.alnLoss (madeOf k x).2 } := by
  have alone (y : XOp) (hy : y.seq = x.seq) : (putX k y).f.xops.reverse.takeWhile (fun z => z.seq != x.seq) = [] := by
    simp [putX_alone hx hy, hy]
  have h1 : ¬(2 : Nat) = 1 := by decide
  simp only [stepLoad, madeOf, hop, hd, alone, List.map_append, List.map_cons, List.map_nil, List.any_nil, Bool.false_eq_true,
    h1, if_false, if_true]
  exact ⟨rfl, rfl⟩

end

/-- A sparse map listed in the order of its keys. -/
theorem spFind_zipIdx {α : Type} (l : List α) : ∀ n j, spFind ((l.zipIdx n).map fun e => (e.2, e.1)) (n + j) = l[j]? := by
  induction l with
  | nil => exact fun _ _ => rfl
  | cons a l ih =>
    intro n j
    cases j with
    | zero => exact if_pos rfl
    | succ j =>
      have hne : ¬n = n + (j + 1) := by omega
      have hlt : ¬n + (j + 1) < n := by omega
      have hkey : n + (j + 1) = n + 1 + j := by omega
      rw [List.zipIdx_cons, List.map_cons, spFind, if_neg hne, if_neg hlt, hkey, ih, List.getElem?_cons_succ]

theorem col_zipIdx (p : Plane) (l : List MxRow) (j : Nat) :
    ({ p with cols := l.zipIdx.map fun e => (e.2, e.1), loaded := true } : Plane).col j = l.getD j ⟨0, 0, 0⟩ := by
  have hfind := spFind_zipIdx l 0 j
  rw [Nat.zero_add] at hfind
  rw [Plane.col, spGet, hfind, List.getD_eq_getElem?_getD]

/-! ## mzero and the drains (R238 to R243) -/

section

variable (k : Core) (x : XOp)

theorem drainOut_fst (f : Nat) (s : Int) (mode : RMode) (i : Nat) : (drainOut k f s mode i).1 =
    (lanes32 (drainRow k i)).map fun w => (drainConv k.m.drainInt f s mode w).1 := by
  simp [drainOut]

/-- `mzero` writes its next four rows (R238). -/
theorem stepZero_eq : (stepZero [] k x).1 = putX ((upTo 4).foldl (fun c i => setAcc c (128 * x.t + 4 * x.done + i) 0) k)
    { x with age := x.age + 1, done := x.done + 1 } := rfl

theorem accRow_zeroed (c : Core) (a r : Nat) : accRow ((upTo 4).foldl (fun c i => setAcc c (a + i) 0) c) r =
    if a ≤ r ∧ r < a + 4 then 0 else accRow c r := by
  simp only [upTo, List.range_succ, List.range_zero, List.nil_append, List.cons_append, List.foldl_cons, List.foldl_nil, accRow_setAcc]
  grind

theorem stepDrain_eq : (stepDrain [] k x).1 =
    let o := drainOut k (if k.m.drainInt then 0x0F else 0x01) (dview x.mode).scale ((rmode (dview x.mode).rnd).getD .ne) x.done
    putX (addCvt (setAcc k (128 * x.t + x.done) (packLanes 32 o.1)) o.2) { x with age := x.age + 1, done := x.done + 1 } := rfl

/-- A row of `mdrain.sp` goes to its place in the handle (R241). -/
theorem stepSp_handle (h : (stream x.str).tgt = false) : ∃ y n, stepSp false k x =
    let w := (fmtBits (stream x.str).fmt).getD 8
    let l := (drainOut k (stream x.str).fmt (dview x.mode).scale ((rmode (stream x.str).rnd).getD .ne) x.done).1
    putX (addCvt (spadWrite k (handle k (stream x.str).hnd) (stAddr (stream (stSteps x.done x.str))).toNat (packElems w l (16 * w))) n) y := by
  simp only [stepSp, h, Bool.false_eq_true, if_false, spBytes]
  exact ⟨_, _, rfl⟩

/-- A row of `mdrain.sp` is aligned into the operand slot, FULL with the last (R242). -/
theorem stepSp_slot (h : (stream x.str).tgt = true) : ∃ y, stepSp false k x =
    let n := (stream x.str).hnd % 16
    let made := alignRow 0 (blkSize (stream x.str).blk) 254 ((lanes32 (drainRow k x.done)).map (drainVal (dview x.mode).scale))
    putX (addAln (setSlot k n { slotOf k n with rows := spSet (slotOf k n).rows x.done made.1, st := if x.done = 127 then .full else (slotOf k n).st })
      made.2) y := by
  simp only [stepSp, h, if_true]
  exact ⟨_, rfl⟩

/-- A row of `mdrain.fab` joins the drain queue (R243). -/
theorem stepFab_eq : ∃ y n, stepFab k x =
    let f := dfmtCode (dview x.mode).dfmt
    let w := (fmtBits f).getD 8
    let b := packElems w (drainOut k f (dview x.mode).scale ((rmode (dview x.mode).rnd).getD .ne) x.done).1 (16 * w)
    putX (addCvt { k with f := { k.f with drainq := k.f.drainq ++ [⟨x.seq, x.win, fabOff (dview x.mode) x.done, b, (dview x.mode).lct,
      (24 + b.length + 235) / 236 + 1, false, 0, false⟩] } } n) y := ⟨_, _, rfl⟩

theorem spadWrite_r (c : Core) (e : HEnt) (o : Nat) (b : List Byte) : (spadWrite c e o b).r = c.r := by rw [spadWrite_onlySpad]

end

end Sys2Proof.Proofs
end

section
/-! PROOFS. The rows that the matrix operations write (R234 to R243), and the words of a product (R89, R90, R93). -/

namespace Sys2Proof.Proofs

open Sys2Proof Sys2Proof.Machine

/-- The products into a tile: opcode, triangular, accumulating (R235). -/
def tileForms : List (Nat × Bool × Bool) := [(3, false, false), (4, false, true), (5, true, false), (6, true, true)]

theorem tileForms_spec (v : CView) : ∀ e ∈ tileForms, 3 ≤ e.1 ∧ e.1 ≤ 6 ∧ isTri e.1 v = e.2.1 ∧ isAcc e.1 = e.2.2 := by
  simp [tileForms, isTri, isAcc]

theorem mmaDue_lt {x : XOp} {n : Nat} (h : mmaDue x n = true) : x.done < 128 := by
  simp only [mmaDue, Bool.and_eq_true, decide_eq_true_eq] at h
  exact h.1

section

variable {k t : Core} {x : XOp} {f : XRow} {l : List XRow}

/-- A product into a tile whose row is due writes that row and no other (R235). -/
theorem tileRow_written (ht : t = (stepX [] k [] k x).1) (hop : 3 ≤ x.op ∧ x.op ≤ 6) (hf : x.fly = f :: l) (hdue : mmaDue x 0 = true) :
    (t.r = k.r ∧ t.m = { k.m with acc := t.m.acc } ∧ ∀ r, accRow t r = if r = 128 * x.t + f.i
      then productRow (cview x.mode) (isTri x.op (cview x.mode)) (isAcc x.op) x.ablk x.wts f.i f.a f.old else accRow k r) ∧
    ∃ n fly, t.f.xops = (putX k { x with age := x.age + 1, entered := n, fly := fly, done := x.done + 1 }).f.xops := by
  obtain ⟨c, n, fly, ⟨hr, hm, hfl⟩, hs⟩ := stepMma_tile (k := k) (by omega) hf hdue
  rw [stepX_mma [] k [] k ⟨hop.1, by omega⟩ (mmaDue_lt hdue), hs] at ht
  subst ht
  refine ⟨⟨hr, by rw [putX_m, setAcc_m, hm], fun r => ?_⟩, n, fly, by simp only [putX, setAcc_f, hfl]⟩
  rw [accRow_congr (putX_m ..), accRow_setAcc, accRow_congr hm]

/-- A product with no row due writes nothing; an accumulating form reads the row due next (R235). -/
theorem tileRow_awaited (ht : t = (stepX [] k [] k x).1) (hx : k.f.xops = [x]) (hop : 3 ≤ x.op ∧ x.op ≤ 6) (hf : x.fly = f :: l)
    (hdue : mmaDue x 0 = false) : (t.r = k.r ∧ t.m = k.m) ∧ (isAcc x.op = true → mmaDue x 1 = true →
      ∃ y, t.f.xops = [y] ∧ y.done = x.done ∧ y.fly.head? = some { f with old := accRow k (128 * x.t + f.i) }) := by
  by_cases hd : x.done < 128
  · obtain ⟨c, n, fly, ⟨hr, hm, hfl⟩, hread, hs⟩ := stepMma_between (k := k) hf hdue
    rw [stepX_mma [] k [] k ⟨hop.1, by omega⟩ hd, hs] at ht
    subst ht
    have hcx : c.f.xops = [x] := by rw [hfl, hx]
    exact ⟨⟨hr, hm⟩, fun ha h1 => ⟨_, putX_alone hcx rfl, rfl, hread ha h1⟩⟩
  · have hpast : xTotal x ≤ x.done := by rw [xTotal, if_neg (by omega)]; omega
    rw [stepX_past [] k [] k hpast] at ht
    subst ht
    exact ⟨⟨rfl, rfl⟩, fun _ h1 => absurd (mmaDue_lt h1) hd⟩

/-- `mma.p` whose row is due writes that row of the drain buffer and no other (R237). -/
theorem bufferRow_written (ht : t = (stepX [] k [] k x).1) (hop : x.op = 7) (hf : x.fly = f :: l) (hdue : mmaDue x 0 = true) :
    let v := cview x.mode
    t.r = k.r ∧ t.m = { k.m with drain := t.m.drain, drainInt := if x.done = 0 then v.out else k.m.drainInt } ∧
      ∀ r, drainRow t r = if r = f.i then productRow v v.ptri v.pacc x.ablk x.wts f.i f.a (drainRow k f.i) else drainRow k r := by
  intro v
  obtain ⟨c, n, fly, ⟨hr, hm, -⟩, hs⟩ := stepMma_buffer (k := k) hop hf hdue
  rw [stepX_mma [] k [] k ⟨by omega, by omega⟩ (mmaDue_lt hdue), hs] at ht
  subst ht
  refine ⟨hr, by simp only [putX_m, hm, v], fun r => ?_⟩
  rw [← drainRow_congr hm r]
  exact spGet_spSet ..

/-- `mtrans` keeps a slot row and writes nothing, before the last (R234). -/
theorem transRow_kept (ht : t = (stepX [] k [] k x).1) (hx : k.f.xops = [x]) (hop : x.op = 2) (hd : x.done < 127) :
    t.m = k.m ∧ t.r = k.r ∧ ∃ y, t.f.xops = [y] ∧ y.done = x.done + 1 ∧
      y.fly.map XRow.a = x.fly.map XRow.a ++ [(slotOf k x.os).row x.os x.done] := by
  rw [stepX_load [] k [] k (.inr hop) (by omega), stepLoad_keeps hop hd] at ht
  subst ht
  exact ⟨rfl, rfl, _, putX_alone hx rfl, rfl, List.map_append⟩

/-- With its last row `mtrans` makes the columns of its plane, and counts the elements that changed (R234). -/
theorem transRow_last (ht : t = (stepX [] k [] k x).1) (hx : k.f.xops = [x]) (hop : x.op = 2) (hd : x.done = 127) :
    (∀ j, (planeAt t x.plane).col j = (madeOf k x).1.getD j ⟨0, 0, 0⟩) ∧ (planeAt t x.plane).loaded = true ∧
    (planeAt t x.plane).fmt = (planeAt k x.plane).fmt ∧ (planeAt t x.plane).blk = (planeAt k x.plane).blk ∧
    (∀ n, n ≠ x.plane → planeAt t n = planeAt k n) ∧ t.m = { k.m with planes := t.m.planes } ∧
    t.r = { k.r with alnLoss := satAdd64 k.r.alnLoss (madeOf k x).2 } := by
  obtain ⟨hm, hr⟩ := stepLoad_makes hop hx hd
  rw [stepX_load [] k [] k (.inr hop) (by omega)] at ht
  have hplane (n : Nat) : planeAt t n = if n = x.plane then { planeAt k x.plane with
      cols := (madeOf k x).1.zipIdx.map fun e => (e.2, e.1), loaded := true } else planeAt k n := by
    rw [planeAt, ht, hm]
    exact spGet_spSet ..
  have hsame := (hplane x.plane).trans (if_pos rfl)
  refine ⟨fun j => ?_, by rw [hsame], by rw [hsame], by rw [hsame], fun n hn => (hplane n).trans (if_neg hn), by rw [ht, hm], by rw [ht, hr]⟩
  rw [hsame, col_zipIdx]

/-- `mdrain` writes one converted row of its tile and no other (R240). -/
theorem drainRow_toTile (ht : t = (stepX [] k [] k x).1) (hop : x.op = 9) (hd : x.done < 128) (ha : x.done + x.slip ≤ x.age) :
    t.m = { k.m with acc := t.m.acc } ∧ t.r = { k.r with cvtLoss := t.r.cvtLoss } ∧ ∀ r, accRow t r = if r = 128 * x.t + x.done
      then packLanes 32 (drainOut k (if k.m.drainInt then 0x0F else 0x01) (dview x.mode).scale ((rmode (dview x.mode).rnd).getD .ne) x.done).1
      else accRow k r := by
  rw [stepX_drain [] k [] k (by omega) hd ha, if_pos hop, stepDrain_eq] at ht
  subst ht
  exact ⟨rfl, rfl, fun r => accRow_setAcc k (128 * x.t + x.done) r _⟩

theorem stepX_sp (hop : x.op = 10) (hd : x.done < 128) (ha : x.done + x.slip ≤ x.age) : (stepX [] k [] k x).1 = stepSp false k x := by
  rw [stepX_drain [] k [] k (by omega) hd ha, if_neg (by omega), if_pos hop, List.contains_nil]

theorem stepX_fab (hop : x.op = 11) (hd : x.done < 128) (ha : x.done + x.slip ≤ x.age) : (stepX [] k [] k x).1 = stepFab k x := by
  rw [stepX_drain [] k [] k (by omega) hd ha, if_neg (by omega), if_neg (by omega)]

/-- `mdrain.sp` writes one row into the handle that its stream walks (R241). -/
theorem drainRow_toHandle (ht : t = (stepX [] k [] k x).1) (hop : x.op = 10) (hd : x.done < 128) (ha : x.done + x.slip ≤ x.age)
    (htgt : (stream x.str).tgt = false) : t.r = { k.r with cvtLoss := t.r.cvtLoss } ∧ t.m =
      let w := (fmtBits (stream x.str).fmt).getD 8
      let l := (drainOut k (stream x.str).fmt (dview x.mode).scale ((rmode (stream x.str).rnd).getD .ne) x.done).1
      (spadWrite k (handle k (stream x.str).hnd) (stAddr (stream (stSteps x.done x.str))).toNat (packElems w l (16 * w))).m := by
  obtain ⟨y, n, hs⟩ := stepSp_handle k x htgt
  rw [stepX_sp hop hd ha, hs] at ht
  subst ht
  refine ⟨?_, rfl⟩
  simp only [putX_r, addCvt, spadWrite_r]

/-- `mdrain.sp` writes one aligned row of the operand slot of its stream, FULL with the last (R242). -/
theorem drainRow_toSlot (ht : t = (stepX [] k [] k x).1) (hop : x.op = 10) (hd : x.done < 128) (ha : x.done + x.slip ≤ x.age)
    (htgt : (stream x.str).tgt = true) :
    let n := (stream x.str).hnd % 16
    let made := alignRow 0 (blkSize (stream x.str).blk) 254 ((lanes32 (drainRow k x.done)).map (drainVal (dview x.mode).scale))
    slotOf t n = { slotOf k n with rows := spSet (slotOf k n).rows x.done made.1, st := if x.done = 127 then .full else (slotOf k n).st } ∧
    (∀ m, m ≠ n → slotOf t m = slotOf k m) ∧ t.m = { k.m with slots := t.m.slots } ∧
    t.r = { k.r with alnLoss := satAdd64 k.r.alnLoss made.2 } := by
  intro n made
  obtain ⟨y, hs⟩ := stepSp_slot k x htgt
  rw [stepX_sp hop hd ha, hs] at ht
  subst ht
  exact ⟨(slotOf_setSlot k n n _).trans (if_pos rfl), fun m hm => (slotOf_setSlot k n m _).trans (if_neg hm), rfl, rfl⟩

/-- `mdrain.fab` puts one row into the drain queue (R243). -/
theorem drainRow_toQueue (ht : t = (stepX [] k [] k x).1) (hop : x.op = 11) (hd : x.done < 128) (ha : x.done + x.slip ≤ x.age) :
    let f := dfmtCode (dview x.mode).dfmt
    let w := (fmtBits f).getD 8
    let b := packElems w (drainOut k f (dview x.mode).scale ((rmode (dview x.mode).rnd).getD .ne) x.done).1 (16 * w)
    t.m = k.m ∧ t.r = { k.r with cvtLoss := t.r.cvtLoss } ∧ t.f.drainq = k.f.drainq ++
      [⟨x.seq, x.win, fabOff (dview x.mode) x.done, b, (dview x.mode).lct, (24 + b.length + 235) / 236 + 1, false, 0, false⟩] := by
  intro f w b
  obtain ⟨y, n, hs⟩ := stepFab_eq k x
  rw [stepX_fab hop hd ha, hs] at ht
  subst ht
  exact ⟨rfl, rfl, rfl⟩

end

/-- Settles O28: alone in flight, an operation takes the step of its form; each form writes its row, and a product's words are those of R89,
R90 and R93. -/
theorem matrixRows : Obligations.MatrixRows := by
  unfold Obligations.MatrixRows
  refine ⟨fun k x hx hl => ?rows, fun v tri acc ablk i j p a old hj => ?words⟩
  case rows =>
    intro t v d conv
    have step (h : x.op ≠ 11 ∨ unsentRows k < 8) : t = (stepX [] k [] k x).1 := xAdvance_alone hx hl h
    have waits := xAdvance_waits (k := k) hx
    have hconv (f rnd : Nat) : conv f rnd = (drainOut k f d.scale ((rmode rnd).getD .ne) x.done).1 := (drainOut_fst ..).symm
    simp only [hconv]
    refine ⟨fun f l hf => ⟨fun e he hop => ?tile, fun hop hdue => bufferRow_written (step (.inl (by omega))) hop hf hdue⟩, fun hop => ?trans,
      fun hop hd ha => drainRow_toTile (step (.inl (by omega))) hop hd ha, fun hop hd ha => ?sp,
      fun hop hd ha => ⟨fun hq => drainRow_toQueue (step (.inr hq)) hop hd ha, waits hop hd ha⟩⟩
    case tile =>
      obtain ⟨h3, h6, htri, hacc⟩ := tileForms_spec v e he
      rw [← hop] at h3 h6 htri hacc
      have hstep := step (.inl (by omega))
      rw [← htri, ← hacc]
      refine ⟨fun hdue => (tileRow_written hstep ⟨h3, h6⟩ hf hdue).1, fun hdue => (tileRow_awaited hstep hx ⟨h3, h6⟩ hf hdue).1,
        fun ha hdue h1 => (tileRow_awaited hstep hx ⟨h3, h6⟩ hf hdue).2 ha h1⟩
    case trans =>
      have hstep := step (.inl (by omega))
      refine ⟨fun hd => transRow_kept hstep hx hop hd, fun hd => ?_⟩
      obtain ⟨hcol, hrest⟩ := transRow_last hstep hx hop hd
      exact ⟨fun j _ => hcol j, hrest⟩
    case sp =>
      have hstep := step (.inl (by omega))
      exact ⟨drainRow_toHandle hstep hop hd ha, drainRow_toSlot hstep hop hd ha⟩
  case words =>
    intro w o masked
    refine ⟨fun h => (productRow_masked ablk p a old hj h).trans (ofNat_maskWord v), fun h hout => ?int, fun h hout => ?fp⟩
    case int =>
      have hw := productRow_int (acc := acc) ablk p a old hj h hout
      exact ⟨fun hs => hw.trans (by rw [hs]; rfl), fun hs => hw.trans (by rw [hs]; rfl)⟩
    case fp => rw [show w = _ from productRow_word ablk p a old hj h, if_neg (Bool.eq_false_iff.mp hout)]

end Sys2Proof.Proofs
end

section
/-! PROOFS. Matrix operations issued (R156, R231), launched or refused (R231, R232), and leaving flight (R231, R243, R245). -/

namespace Sys2Proof.Proofs

open Sys2Proof Sys2Proof.Machine

/-! ## Issue -/

/-- Under a true guard an X operation joins the end of the list in flight (R231). -/
theorem xIssue_joins {s : State} {p : Nat} (hg : guardOf s p = true) (l op t os mm word : Nat) : Host.Outcome.next (xIssue p l op t os mm word s) =
    (.next (wr s fun k => { k with f := { k.f with xops := k.f.xops ++ [xNew k.q.seq l op t os mm word] } }) : Ans) :=
  congrArg Host.Outcome.next (guarded_true s p _ hg)

/-- Settles O26: each form is one call of the issue they share. -/
theorem matrixOperationsIssue : Obligations.MatrixOperationsIssue := by
  unfold Obligations.MatrixOperationsIssue
  intro s p l t o m hg
  have joins := xIssue_joins hg l
  simp only [List.forall_mem_cons]
  exact ⟨joins .., joins .., joins .., joins .., joins .., joins .., joins .., joins .., joins .., joins .., joins .., fun _ h => nomatch h⟩

/-! ## Launch -/

theorem mem_insertLaunched (x : XOp) (l : List XOp) : x ∈ insertLaunched x l := by
  induction l with
  | nil => exact List.mem_singleton_self x
  | cons y l ih =>
    rw [insertLaunched]
    split
    · exact List.mem_cons_of_mem y ih
    · exact List.mem_cons_self

theorem xLaunch_xops (v : Core) (w keep : List Nat) (x : XOp) (c : Core) :
    (xLaunch v w keep x c).f.xops = insertLaunched (xSet v w x) (c.f.xops.filter fun y => y.seq != x.seq) := by
  unfold xLaunch
  dsimp only
  repeat' split
  all_goals rfl

section

variable {s : State} {c : Nat} {x : XOp} {l : List XOp}

theorem execXOpLaunch_held (h : lineLow (coreAt s c) = false) : execXOpLaunch c s = .next s := by
  rw [execXOpLaunch, h]
  rfl

theorem execXOpLaunch_none (h : dueX (coreAt s c) = []) : execXOpLaunch c s = .next s := by
  rw [execXOpLaunch, h]
  exact ite_self _

theorem execXOpLaunch_due (hx : dueX (coreAt s c) = x :: l) (h : lineLow (coreAt s c) = true) :
    execXOpLaunch c s = .next (launchOne s c (coreAt s c) x).2 := by
  rw [execXOpLaunch, h, hx]
  rfl

theorem launchOne_ok (h : xCheck s (coreAt s c) x = .ok) :
    (launchOne s c (coreAt s c) x).2 = modCore s c (xLaunch (coreAt s c) (xWords s (coreAt s c) x) [] x) := by
  rw [launchOne, h]

theorem launchOne_hold (h : xCheck s (coreAt s c) x = .hold) : (launchOne s c (coreAt s c) x).2 = s := by
  rw [launchOne, h]

/-- A fault found at launch, between bundles, is taken at the core with the mode value as read (R231). -/
theorem launchOne_fault {f : Nat} (h : xCheck s (coreAt s c) x = .fault f) (hb : (coreAt s c).q.between = true) :
    (launchOne s c (coreAt s c) x).2 = takeTrap (modCore (modCore s c fun k => putX k { x with mode := mmReg (coreAt s c) x.mm }) c undoHold) c
      ⟨f, 0, 5, 0, (coreAt s c).q.pc, dxAt (coreAt s c) (coreAt s c).q.pc, 0, 0⟩ false none := by
  have hcore : coreAt (modCore s c fun k => putX k { x with mode := mmReg (coreAt s c) x.mm }) c =
      putX (coreAt s c) { x with mode := mmReg (coreAt s c) x.mm } := coreAt_modCore_same ..
  simp only [launchOne, h, hcore, putX_q, hb, if_true]
  rfl

end

/-- The checks of an operand slot under a good mode value, in their order (R58, R232). -/
theorem xCheck_slot {s : State} {k : Core} {x : XOp} (h1 : 1 ≤ x.op) (h7 : x.op ≤ 7) (hf : (cview (mmReg k x.mm)).fmt ≤ 3)
    (hm : (cview (mmReg k x.mm)).mask ≠ 3) (hk : (cview (mmReg k x.mm)).kblk ≠ 0) :
    ∃ rest, xCheck s k x = XCheck.andThen (slotCheck k x.os (cview (mmReg k x.mm)).fmt) rest := by
  have h8 : x.op ≠ 8 := by omega
  have hreads : readsSlot x.op = true := by
    simp only [readsSlot, isLoad, isMma, Bool.or_eq_true, Bool.and_eq_true, beq_iff_eq, decide_eq_true_eq]
    omega
  have hgood : (decide ((cview (mmReg k x.mm)).fmt > 3) || (isTri x.op (cview (mmReg k x.mm)) && decide ((cview (mmReg k x.mm)).mask = 3)) ||
      (x.op == 2 && decide ((cview (mmReg k x.mm)).kblk = 0))) = false := by
    simp [hf, hm, hk]
  exact ⟨_, by simp only [xCheck, h8, if_false, hreads, if_true, hgood, Bool.false_eq_true, XCheck.andThen]; rfl⟩

/-! ## The last row (R231) -/

section

variable {k : Core} {x : XOp}

/-- The last four rows of `mzero` (R238). -/
theorem zeroed_last (hx : k.f.xops = [x]) (hl : x.launched = true) (hop : x.op = 8) (hd : x.done = 31) :
    let t := xRetire (xAdvance (fun _ => true) [] k)
    t.f.xops = [] ∧ ∀ r, accRow t r = if 128 * x.t + 124 ≤ r ∧ r < 128 * x.t + 128 then 0 else accRow k r := by
  have hs : xAdvance (fun _ => true) [] k = _ := (xAdvance_alone hx hl (.inl (by omega))).trans
    ((congrArg Prod.fst (stepX_zero [] k [] k hop (by omega))).trans (stepZero_eq k x))
  have h10 : x.op ≠ 10 := by omega
  rw [hs, hd]
  refine ⟨xRetire_alone (putX_alone hx rfl) hl (Nat.le_of_eq (if_pos hop)) h10, fun r => ?_⟩
  rw [accRow_congr (xRetire_frame _).2.1, accRow_congr (putX_m ..), accRow_zeroed]

/-- The last column of `mwld` (R233). -/
theorem column_last (hx : k.f.xops = [x]) (hl : x.launched = true) (hop : x.op = 1) (hd : x.done = 127) :
    let t := xRetire (xAdvance (fun _ => true) [] k)
    t.f.xops = [] ∧ planeAt t x.plane = { planeAt k x.plane with
      cols := spSet (planeAt k x.plane).cols 127 ((slotOf k x.os).row x.os 127), loaded := true } := by
  have hs : xAdvance (fun _ => true) [] k = _ := (xAdvance_alone hx hl (.inl (by omega))).trans
    ((congrArg Prod.fst (stepX_load [] k [] k (.inl hop) (by omega))).trans (stepLoad_column hop))
  have h8 : x.op ≠ 8 := by omega
  have h10 : x.op ≠ 10 := by omega
  rw [hs, hd]
  exact ⟨xRetire_alone (putX_alone hx rfl) hl (Nat.le_of_eq (if_neg h8)) h10, spGet_spSet_same ..⟩

/-- The last row of `mma` (R235). -/
theorem product_last {f : XRow} (hx : k.f.xops = [x]) (hl : x.launched = true) (hop : x.op = 3) (hd : x.done = 127) (hf : x.fly = [f])
    (hdue : mmaDue x 0 = true) :
    let t := xRetire (xAdvance (fun _ => true) [] k)
    t.f.xops = [] ∧ ∀ r, accRow t r =
      if r = 128 * x.t + f.i then productRow (cview x.mode) false false x.ablk x.wts f.i f.a f.old else accRow k r := by
  have htri : isTri x.op (cview x.mode) = false := by rw [hop]; rfl
  have hacc : isAcc x.op = false := by rw [hop]; rfl
  obtain ⟨⟨-, -, hrow⟩, n, fly, hxs⟩ := tileRow_written (xAdvance_alone hx hl (.inl (by omega))) (by omega) hf hdue
  have h8 : x.op ≠ 8 := by omega
  have h10 : x.op ≠ 10 := by omega
  rw [htri, hacc] at hrow
  rw [hd] at hxs
  exact ⟨xRetire_alone (hxs.trans (putX_alone hx rfl)) hl (Nat.le_of_eq (if_neg h8)) h10,
    fun r => (accRow_congr (xRetire_frame _).2.1 r).trans (hrow r)⟩

end

theorem xPlaced_eq (n : Nat) (l : List XOp) :
    xPlaced n l = l.map fun x => if x.seq = n ∧ x.op = 11 then { x with placed := x.placed + 1 } else x := by
  simp only [xPlaced, Bool.and_eq_true, decide_eq_true_eq, beq_iff_eq]

/-- Settles O27: what a launch meets, check by check; the last row of an operation alone in flight; rows acknowledged. -/
theorem matrixLaunchAndFinish : Obligations.MatrixLaunchAndFinish := by
  unfold Obligations.MatrixLaunchAndFinish
  refine ⟨fun s c x l hx => ?launch, fun s c hx => execXOpLaunch_none hx, fun s k x => ⟨fun h8 => if_pos h8, fun h1 h7 hf hm hk => ?slot⟩,
    fun k x hx hl => ⟨zeroed_last hx hl, column_last hx hl, fun f hop hd _ => product_last hx hl hop hd⟩, fun s c => rfl,
    fun s c i r hr => ?placed⟩
  case launch =>
    have due := execXOpLaunch_due hx
    refine ⟨execXOpLaunch_held, fun hlow hok => ⟨?ok, xSet (coreAt s c) (xWords s (coreAt s c) x) x, ?mem, rfl, rfl, rfl⟩,
      fun hlow hh => ?hold, fun f hlow hb hf => ?fault⟩
    case ok => exact (due hlow).trans (congrArg Host.Outcome.next (launchOne_ok hok))
    case mem => rw [xLaunch_xops]; exact mem_insertLaunched ..
    case hold => exact (due hlow).trans (congrArg Host.Outcome.next (launchOne_hold hh))
    case fault => exact (due hlow).trans (congrArg Host.Outcome.next (launchOne_fault hf hb))
  case slot =>
    obtain ⟨rest, hcheck⟩ := xCheck_slot (s := s) h1 h7 hf hm hk
    rw [hcheck, slotCheck]
    refine ⟨fun h => by rw [h]; rfl, fun h => by rw [h]; rfl, fun h => by rw [h]; rfl, fun h hne => ?_⟩
    simp only [h, bne_iff_ne.mpr hne, if_true, XCheck.andThen]
  case placed =>
    intro placed
    have hplaced (l : List XOp) : xPlaced r.op l = placed l := xPlaced_eq r.op l
    simp only [exec_drainRowPlaced, execDrainRowPlaced, hr]
    refine ⟨fun ha => ?_, fun ha => by rw [ha]; rfl⟩
    simp only [ha, if_true, hplaced]

end Sys2Proof.Proofs
end

section
/-! PROOFS. Vector forms (R246 to R254): under a true guard each puts one row on its way and takes its unit for two active cycles. -/

namespace Sys2Proof.Proofs

open Sys2Proof Sys2Proof.Machine

variable {s : State} {bu : Issue} {p : Nat}

theorem slotNow_of_issue (h : s.issue = some bu) (dflt : Nat) : slotNow s dflt = bu.slot := by simp only [slotNow, h]

/-- A unit taken for `n` active cycles by the bundle that issues (R307). -/
theorem occupy_of_issue (h : s.issue = some bu) (dflt n : Nat) :
    occupy s dflt n = wr s fun k => { k with f := { k.f with busy := spSet k.f.busy bu.slot (k.q.act + n) } } := by
  rw [occupy, slotNow_of_issue h]

/-- A core after a V operation of unit `slot`: its row on its way, its unit taken (R305). -/
def rowSetOut (slot lat d : Nat) (x : BitVec 4096) (k : Core) : Core :=
  { k with f := { k.f with
      wb := k.f.wb ++ [⟨k.q.act + lat - 1, k.q.seq, .vop d x⟩]
      busy := spSet k.f.busy slot (k.q.act + 2) } }

theorem vPut_of_issue (h : s.issue = some bu) (lat d : Nat) (x : BitVec 4096) : vPut s lat d x = wr s (rowSetOut bu.slot lat d x) := by
  rw [vPut, occupy_of_issue (by exact h), putLate, wr_wr]
  rfl

/-- Every V form that draws no random word completes with the row that it makes of the state before it (R246). -/
theorem completes_vPut {i : Instr} {lat d : Nat} {row : State → BitVec 4096} (h : s.issue = some bu) (hg : guardOf s p = true)
    (hi : exec i s = .next (guarded s p fun s => vPut s lat d (row s))) : exec i s = .next (wr s (rowSetOut bu.slot lat d (row s))) :=
  exec_of_guarded hg hi (vPut_of_issue h ..)

/-- Settles O22: each form is a lane-by-lane operation or a reduction, by the function that it has for a lane or for all of them. -/
theorem vectorFloatForms : Obligations.VectorFloatForms := by
  unfold Obligations.VectorFloatForms
  intro s bu p w t d a b h hg f W n lanes out rd rn mask eq lt
  have binary {i : Instr} {lat : Nat} {g : Nat → Nat → Nat} (hi : exec i s = .next (vBin lat g p w d a b s)) :
      exec i s = .next (out lat (List.zipWith g (lanes a) (lanes b))) := completes_vPut h hg hi
  have unary {i : Instr} {lat : Nat} {g : Nat → Nat} (hi : exec i s = .next (vUn lat g p w d a s)) :
      exec i s = .next (out lat ((lanes a).map g)) := completes_vPut h hg hi
  have reduction {i : Instr} {g : List Nat → Nat} (hi : exec i s = .next (vRed g p w d a s)) :
      exec i s = .next (out 8 (List.replicate n (g (lanes a)))) := completes_vPut h hg hi
  have fused : exec (.vfma p w t d a b) s = .next (vTri 5 (laneFma f) p w d a b s) := rfl
  simp only [List.forall_mem_cons]
  refine ⟨⟨binary rfl, binary rfl, binary rfl, binary rfl, binary rfl, binary rfl, binary rfl, binary rfl, fun _ h => nomatch h⟩,
    completes_vPut h hg fused,
    ⟨unary rfl, unary rfl, unary rfl, unary rfl, unary rfl, unary rfl, unary rfl, unary rfl, fun _ h => nomatch h⟩,
    reduction (g := redSum f) rfl, reduction (g := redExt true f) rfl, reduction (g := redExt false f) rfl, fun _ h => nomatch h⟩

end Sys2Proof.Proofs
end

section
/-! PROOFS. Integer, logic, shift, select and lane-moving vector forms (R250, R252 to R254). -/

namespace Sys2Proof.Proofs

open Sys2Proof Sys2Proof.Machine

/-- The lanes of an operand taken by place, whether they are held as a list or as an array. -/
theorem map_getD_toArray (l places : List Nat) (place : Nat → Nat) :
    (places.map fun k => l.toArray.getD (place k) 0) = places.map fun k => l.getD (place k) 0 := by
  simp only [Array.getD_eq_getD_getElem?, List.getElem?_toArray, List.getD_eq_getElem?_getD]

/-- Settles O23: each form is a lane-by-lane operation, a move of lanes by their place, or the sum over the lanes. -/
theorem vectorIntegerForms : Obligations.VectorIntegerForms := by
  unfold Obligations.VectorIntegerForms
  intro s bu p w t d a b i h hg W n lanes out sg fit mask
  have binary {i : Instr} {g : Nat → Nat → Nat} (hi : exec i s = .next (vBin 3 g p w d a b s)) :
      exec i s = .next (out 3 (List.zipWith g (lanes a) (lanes b))) := completes_vPut h hg hi
  have byPlace {i : Instr} {l : List Nat} {place : Nat → Nat}
      (hi : exec i s = .next (out 3 (l.map fun k => (lanes a).toArray.getD (place k) 0))) :
      exec i s = .next (out 3 (l.map fun k => (lanes a).getD (place k) 0)) := by rwa [map_getD_toArray] at hi
  have move {i : Instr} {place : Nat → Nat} (hi : exec i s = .next (vMove place p w d a s)) :
      exec i s = .next (out 3 ((List.range n).map fun k => (lanes a).getD (place k) 0)) := byPlace (completes_vPut h hg hi)
  have select : exec (.vsel p w d a b) s = .next (vTri 3 (fun z x y => if z = 0 then y else x) p w d a b s) := rfl
  have copy : exec (.vmov p w d a) s = .next (vUn 3 (fun x => x) p w d a s) := rfl
  have permute : exec (.vperm p w d a b) s = .next (vPerm p w d a b s) := rfl
  have sum : exec (.vrsumI p w t d a) s = .next (vRed (redSumI w t) p w d a s) := rfl
  have reverse : exec (.vrev p w d a) s = .next (vMove (fun k => n - 1 - k) p w d a s) := by
    have hn : n - 1 = if w = 1 then 255 else 127 := by simp only [n]; split <;> rfl
    rw [hn]
    rfl
  simp only [List.forall_mem_cons]
  refine ⟨⟨binary rfl, binary rfl, binary rfl, binary rfl, binary rfl, binary rfl, binary rfl, binary rfl, binary rfl, binary rfl, binary rfl,
    binary rfl, binary rfl, fun _ h => nomatch h⟩, completes_vPut h hg select, ?mov, ⟨move rfl, move rfl, move reverse, fun _ h => nomatch h⟩,
    byPlace (completes_vPut h hg permute), completes_vPut h hg sum⟩
  case mov =>
    have hmov := completes_vPut h hg copy
    rwa [List.map_id'] at hmov

end Sys2Proof.Proofs
end

section
/-! PROOFS. Vector conversions (R255), with the random word that one of them draws (R84), and results that land (R299, R308). -/

namespace Sys2Proof.Proofs

open Sys2Proof Sys2Proof.Machine

variable {s : State} {bu : Issue} {p : Nat}

/-- The random word of a conversion, and the state after it: one draw where it rounds stochastically (R84). -/
def randomFor (mode : RMode) (s : State) : Word × State := if mode = .sr then drawRng s else (0, s)

theorem vRng_eq (r : Nat) (s : State) : vRng r s = randomFor (vMode r) s := by
  simp only [vRng, randomFor, beq_iff_eq]

/-- Of the bundle that issues a draw changes the random word alone (R84). -/
theorem randomFor_issue (h : s.issue = some bu) (mode : RMode) : ∃ x, (randomFor mode s).2.issue = some { bu with rng := x } := by
  unfold randomFor
  split
  · exact ⟨_, drawRng_issue h⟩
  · exact ⟨bu.rng, h⟩

/-- A draw is no change of what the operations of the bundle read (R110). -/
theorem here_randomFor (h : s.issue = some bu) (mode : RMode) : here (randomFor mode s).2 = here s := by
  obtain ⟨x, hx⟩ := randomFor_issue h mode
  simp only [here, hx, h]

theorem vPut_randomFor (h : s.issue = some bu) (mode : RMode) (lat d : Nat) (x : BitVec 4096) :
    vPut (randomFor mode s).2 lat d x = wr (randomFor mode s).2 (rowSetOut bu.slot lat d x) := by
  obtain ⟨_, hx⟩ := randomFor_issue h mode
  exact vPut_of_issue hx lat d x

theorem halfOf_eq (h x : Nat) : halfOf h x = if h = 1 then x / 65536 % 65536 else x % 65536 := by
  unfold halfOf
  split
  · rfl
  · rw [Nat.div_one]

section

variable (h : s.issue = some bu) (hg : guardOf s p = true) (w t d a r : Nat)
include h hg

/-- `vcvt.n` rounds the lanes of a as they stood before the bundle (R255). -/
theorem vcvtNOp_of_issue (half : Nat) : vcvtNOp p t d a half r s = wr (randomFor (vMode r) s).2 (rowSetOut bu.slot 4 d
    (mergeHalf half (viewLanes (here s) false d) ((viewLanes (here s) false a).zipIdx.map fun e =>
      (fpConvert fp32 (vFmt 1 t) (vMode r) (rngR16 (randomFor (vMode r) s).1 e.2) e.1).1))) := by
  rw [vcvtNOp, guarded_true s p _ hg]
  simp only [vRng_eq, vLanes, here_randomFor h, vPut_randomFor h]
  rfl

theorem vcvtIfOp_of_issue : vcvtIfOp p w t d a r s = wr (randomFor (vMode r) s).2 (rowSetOut bu.slot 4 d
    (packLanes (vW w) ((viewLanes (here s) (w == 1) a).zipIdx.map fun e =>
      laneFromInt (vFmt w t) w (vMode r) (rngR16 (randomFor (vMode r) s).1 e.2) e.1))) := by
  rw [vcvtIfOp, guarded_true s p _ hg]
  simp only [vRng_eq, vLanes, here_randomFor h, vPut_randomFor h]

end

/-- The lanes that `vcvt.fi` makes, each with whether CVT_LOSS counts it (R255). -/
def lanesToInt (s : State) (w t a r : Nat) : List (Nat × Bool) :=
  (viewLanes (here s) (w == 1) a).zipIdx.map fun e => laneToInt (vFmt w t) w (vMode r) (rngR16 (randomFor (vMode r) s).1 e.2) e.1

/-- `vcvt.fi` counts first, and then sets out its row (R255). -/
theorem vcvtFiOp_of_issue (h : s.issue = some bu) (hg : guardOf s p = true) (w t d a r : Nat) : vcvtFiOp p w t d a r s =
    wr (wr (randomFor (vMode r) s).2 fun k => addCvt k ((lanesToInt s w t a r).filter Prod.snd).length)
      (rowSetOut bu.slot 4 d (packLanes (vW w) ((lanesToInt s w t a r).map Prod.fst))) := by
  obtain ⟨x, hx⟩ := randomFor_issue h (vMode r)
  rw [vcvtFiOp, guarded_true s p _ hg]
  simp only [vRng_eq, vLanes, here_randomFor h, lanesToInt]
  exact vPut_of_issue (bu := { bu with rng := x }) (by exact hx) ..

/-- Settles O24: each conversion by its row, after the draw of its rounding code; what lands is `landUpTo` the active cycle. -/
theorem vectorConversions : Obligations.VectorConversions := by
  unfold Obligations.VectorConversions
  refine ⟨fun s bu p w t d a h r hs hg => ?_, fun s c => rfl⟩
  intro f f16 W mode g l32 lw out half keep toI
  have hhalf : halfOf h = half := funext (halfOf_eq h)
  have widen : exec (.vcvtW p t d a h) s = .next (vUn 4 (fun x => (fpConvert f16 fp32 .ne 0 (half x)).1) p 0 d a s) := by rw [← hhalf]; rfl
  have extend : exec (.vcvtWi p d a h) s = .next (vUn 4 (fun x => toPat 32 (sextN 16 (half x))) p 0 d a s) := by rw [← hhalf]; rfl
  have narrow : exec (.vcvtNi p d a h) s = .next (vcvtNiOp p d a h s) := rfl
  refine ⟨congrArg Host.Outcome.next (vcvtNOp_of_issue hs hg t d a r h), completes_vPut hs hg widen, completes_vPut hs hg narrow,
    completes_vPut hs hg extend, congrArg Host.Outcome.next (vcvtIfOp_of_issue hs hg w t d a r), ?toInt⟩
  case toInt =>
    refine congrArg Host.Outcome.next ((vcvtFiOp_of_issue hs hg w t d a r).trans ?_)
    simp only [lanesToInt, List.map_map]
    rfl

end Sys2Proof.Proofs
end

section
/-! PROOFS. Packs and unpacks (R256 to R260): refused at a reserved mode value, or else the parts, scales and rows that they set out. -/

namespace Sys2Proof.Proofs

open Sys2Proof Sys2Proof.Machine

variable {s : State} {bu : Issue} {p : Nat}

/-- The scales that a pack gives the blocks of its part, of which the first is the companion's byte `cb` (R258). -/
def packedScales (c : Core) (f : PkFmt) (m : PkMode) (q cb : Nat) (v : List FpVal) : List Nat :=
  (chunksOf (pkBlk m) 16 v).zipIdx.map fun x => pkScale f m ((qComp c q).extractLsb' (8 * (cb + x.2)) 8).toNat x.1

/-- The elements that a pack makes under scales, each with whether CVT_LOSS counts it (R258). -/
def packedElems (f : PkFmt) (m : PkMode) (mode : RMode) (scales : List Nat) (rng : Word) (v : List FpVal) : List (Nat × Bool) :=
  v.zipIdx.map fun x => pkElem f mode (scales.getD (x.2 / pkBlk m) 0) (rngR16 rng x.2) x.1

/-- A core after a pack of unit `slot`: what CVT_LOSS counts counted, the part and its scales on their way, the unit taken (R258, R305). -/
def packSetOut (slot q part : Nat) (f : PkFmt) (m : PkMode) (scales : List Nat) (el : List (Nat × Bool)) (k : Core) : Core :=
  let k := addCvt k (el.filter Prod.snd).length
  let late := fun (d : WbDest) => (⟨k.q.act + (if m.lw = true then 3 else 2) - 1, k.q.seq, d⟩ : WbEntry)
  { k with f := { k.f with
      wb := k.f.wb ++ [late (.qbits q (256 * part * f.bits) (256 * f.bits) (packLanes f.bits (el.map Prod.fst)))] ++
        (if f.bits = 6 then [late (.qbits q 3072 1024 0)] else []) ++
        [late (.qcomp q (8 * (256 * part / pkBlk m)) (8 * scales.length) (BitVec.ofNat 256 (scales.foldr (fun z acc => acc * 256 + z) 0)))]
      busy := spSet k.f.busy slot (k.q.act + if m.lw = true then 2 else 1) } }

/-- What a pack sets out one after another is one change of its core (R258). -/
theorem packEffects_eq (h : s.issue = some bu) (q part : Nat) (f : PkFmt) (m : PkMode) (scales : List Nat) (el : List (Nat × Bool)) :
    let lat := if m.lw = true then 3 else 2
    let counted := wr s fun k => addCvt k (el.filter Prod.snd).length
    let sent := putLate counted lat (.qbits q (256 * part * f.bits) (256 * f.bits) (packLanes f.bits (el.map Prod.fst)))
    occupy (putLate (if f.bits = 6 then putLate sent lat (.qbits q 3072 1024 0) else sent) lat
      (.qcomp q (8 * (256 * part / pkBlk m)) (8 * scales.length) (BitVec.ofNat 256 (scales.foldr (fun z acc => acc * 256 + z) 0)))) 2
      (if m.lw = true then 2 else 1) = wr s (packSetOut bu.slot q part f m scales el) := by
  intro lat counted sent
  by_cases h6 : f.bits = 6
  · rw [if_pos h6, occupy_of_issue (by exact h)]
    simp only [sent, counted, putLate, wr_wr]
    refine congrArg (wr s) (funext fun k => ?_)
    simp only [packSetOut, if_pos h6]
    rfl
  · rw [if_neg h6, occupy_of_issue (by exact h)]
    simp only [sent, counted, putLate, wr_wr]
    refine congrArg (wr s) (funext fun k => ?_)
    simp only [packSetOut, if_neg h6, List.append_nil]
    rfl

/-- A core after an unpack of unit `slot`: its lanes on their way, in the wide form in two rows, and the unit taken (R259, R305). -/
def unpackSetOut (slot row : Nat) (wide : Bool) (l : List Nat) (k : Core) : Core :=
  { k with f := { k.f with
      wb := k.f.wb ++ if wide = true
        then [⟨k.q.act + 1, k.q.seq, .vop row (packLanes 32 (l.take 128))⟩,
          ⟨k.q.act + 2, k.q.seq, .vop (row + 1) (packLanes 32 (l.drop 128))⟩]
        else [⟨k.q.act + 1, k.q.seq, .vop row (packLanes 16 l)⟩]
      busy := spSet k.f.busy slot (k.q.act + if wide = true then 2 else 1) } }

theorem unpackEffects_eq (h : s.issue = some bu) (row : Nat) (wide : Bool) (l : List Nat) :
    occupy (if wide = true then putLate (putLate s 2 (.vop row (packLanes 32 (l.take 128)))) 3 (.vop (row + 1) (packLanes 32 (l.drop 128)))
      else putLate s 2 (.vop row (packLanes 16 l))) 1 (if wide = true then 2 else 1) = wr s (unpackSetOut bu.slot row wide l) := by
  cases wide with
  | true =>
    simp only [if_true]
    rw [occupy_of_issue (by exact h)]
    simp only [putLate, wr_wr, List.append_assoc, List.singleton_append]
    rfl
  | false =>
    simp only [Bool.false_eq_true, if_false]
    rw [occupy_of_issue (by exact h)]
    simp only [putLate, wr_wr]
    rfl

/-- The rounding of an unpack, which draws no random word (R259). -/
def unpkRounding (m : PkMode) : RMode := if rmode m.rnd = some .sr then .ne else (rmode m.rnd).getD .ne

theorem unpkRounding_eq (m : PkMode) : (match rmode m.rnd with | some .sr => RMode.ne | some r => r | none => .ne) = unpkRounding m := by
  unfold unpkRounding
  split
  · rename_i hsr
    rw [if_pos hsr]
  · rename_i r hne hr
    rw [if_neg (fun hsr => hne (Option.some.inj (hr.symm.trans hsr))), hr, Option.getD_some]
  · rename_i hnone
    simp [hnone]

section

variable (h : s.issue = some bu) (hg : guardOf s p = true) {k mm q part row : Nat}
include h hg

/-- A pack is refused what its mode register does not allow (R260). -/
theorem pkOp_refused (hbad : pkBad (pkMode (mmReg (here s) mm)) row true = true) : pkOp k mm p q part row s = recorded s bu 0x01 0 0 := by
  rw [pkOp, guarded_true s p _ hg]
  simp only [hbad, if_true]
  exact raise_issue s bu h ..

/-- A pack that its mode register allows (R258). -/
theorem pkOp_packs {m : PkMode} (hm : pkMode (mmReg (here s) mm) = m) (hgood : pkBad m row true = false) :
    let f := pkFmt k m
    let mode := (rmode m.rnd).getD .ne
    let v := (pkLanes (here s) m row).map (fpRead (pkLane m))
    let scales := packedScales (here s) f m q (256 * part / pkBlk m) v
    pkOp k mm p q part row s =
      wr (randomFor mode s).2 (packSetOut bu.slot q part f m scales (packedElems f m mode scales (randomFor mode s).1 v)) := by
  intro f mode v scales
  obtain ⟨x, hx⟩ := randomFor_issue h mode
  rw [pkOp, guarded_true s p _ hg]
  simp only [hm, hgood, Bool.false_eq_true, if_false, beq_iff_eq]
  exact packEffects_eq hx q part f m scales _

theorem unpkOp_refused (hbad : pkBad (pkMode (mmReg (here s) mm)) row false = true) : unpkOp k mm p q part row s = recorded s bu 0x01 0 0 := by
  rw [unpkOp, guarded_true s p _ hg]
  simp only [hbad, if_true]
  exact raise_issue s bu h ..

/-- An unpack that its mode register allows (R259). -/
theorem unpkOp_unpacks {m : PkMode} (hm : pkMode (mmReg (here s) mm) = m) (hgood : pkBad m row false = false) :
    let f := pkFmt k m
    unpkOp k mm p q part row s = wr s (unpackSetOut bu.slot row m.lw ((List.range 256).map fun i =>
      unpkLane f (pkLane m) (unpkRounding m) ((qComp (here s) q).extractLsb' (8 * ((256 * part + i) / pkBlk m)) 8).toNat
        ((qReg (here s) q).toNat / 2 ^ (f.bits * (256 * part + i)) % 2 ^ f.bits))) := by
  intro f
  rw [unpkOp, guarded_true s p _ hg]
  simp only [hm, hgood, Bool.false_eq_true, if_false]
  rw [← unpkRounding_eq]
  exact unpackEffects_eq h ..

end

/-- Settles O25: every pack, and every unpack, is one operation of its format code and mode register. -/
theorem packedConversions : Obligations.PackedConversions := by
  unfold Obligations.PackedConversions
  intro s bu p q part row h hg c
  refine ⟨fun e he => ?pack, fun e he => ?unpack⟩
  case pack =>
    intro m f mode g v cb scales el lat
    have hexec : exec e.1 s = .next (pkOp e.2.1 e.2.2 p q part row s) := by
      simp only [List.mem_cons, List.not_mem_nil, or_false] at he
      rcases he with rfl | rfl | rfl | rfl | rfl | rfl | rfl | rfl | rfl | rfl | rfl | rfl | rfl | rfl <;> rfl
    rw [hexec]
    exact ⟨fun hbad => congrArg Host.Outcome.next (pkOp_refused h hg hbad),
      fun hgood => congrArg Host.Outcome.next (pkOp_packs h hg rfl hgood)⟩
  case unpack =>
    intro m f mode l
    have hexec : exec e.1 s = .next (unpkOp e.2.1 e.2.2 p q part row s) := by
      simp only [List.mem_cons, List.not_mem_nil, or_false] at he
      rcases he with rfl | rfl | rfl | rfl | rfl | rfl | rfl | rfl | rfl | rfl | rfl | rfl | rfl | rfl <;> rfl
    rw [hexec]
    exact ⟨fun hbad => congrArg Host.Outcome.next (unpkOp_refused h hg hbad),
      fun hgood => congrArg Host.Outcome.next (unpkOp_unpacks h hg rfl hgood)⟩

end Sys2Proof.Proofs
end

section
/-! PROOFS. Records and pieces of engine commands: the fields of a control word (R262, R263), an absent counter (R267), endpoints in handles
(R55, R271), and bytes cut at the lines of their destination (R264). -/

namespace Sys2Proof.Proofs

open Sys2Proof Sys2Proof.Machine

variable {s t : State} {c asid h : Nat} {e : Bool} {x : Cmd}

@[simp] theorem eresBind_ok {α β : Type} (v : α) (f : α → Eres β) : (Eres.ok v).bind f = f v := rfl
@[simp] theorem eresBind_stop {α β : Type} (r : Stop) (f : α → Eres β) : (Eres.stop r).bind f = .stop r := rfl
@[simp] theorem need_true {β : Type} (code : Nat) (k : Eres β) : Eres.need true code k = k := rfl
@[simp] theorem check_none {β : Type} (k : Eres β) : CName.none.check k = k := rfl

theorem eresBind_eq_ok {α β : Type} {r : Eres α} {f : α → Eres β} {v : β} (h : r.bind f = .ok v) : ∃ u, r = .ok u ∧ f u = .ok v := by
  cases r with
  | ok u => exact ⟨u, rfl, h⟩
  | stop e => exact nomatch h

/-! ## The fields of a record -/

/-- The control word of a record that names an opcode, the kinds of its endpoints and a mask of cores, all else zero (R262). -/
def controlWord (op sk dk mask : Nat) : Nat := op * 2 ^ 58 + sk * 2 ^ 57 + dk * 2 ^ 56 + mask * 2 ^ 39

section

variable {op sk dk mask : Nat}

theorem controlWord_fields (hw : x.w 1 = controlWord op sk dk mask) (hop : op < 64) (hs : sk < 2) (hd : dk < 2) (hm : mask < 16) :
    bits (x.w 1) 63 58 = op ∧ x.sk = sk ∧ x.dk = dk ∧ x.sfmt = 0 ∧ x.dfmt = 0 ∧ x.rnd = 0 ∧ x.mask = mask ∧ x.red = 0 ∧ x.arg = 0 := by
  simp only [Cmd.sk, Cmd.dk, Cmd.sfmt, Cmd.dfmt, Cmd.rnd, Cmd.mask, Cmd.red, Cmd.arg, hw, controlWord, bits]
  refine ⟨?_, ?_, ?_, ?_, ?_, ?_, ?_, ?_, ?_⟩ <;> omega

theorem length_whole {n : Nat} (hn : n < 2 ^ 40) : bits n 39 0 = n ∧ bits n 63 40 = 0 := by
  simp only [bits]
  omega

/-- A name of KIND 10 names no counter (R267). -/
theorem cname_absent {cn w need core : Nat} (hw : bits w 63 62 = 2) : cname s cn asid w need core = .none := by
  simp only [cname, hw]

theorem cname_file {cn w need core : Nat} (hw : bits w 63 62 = 0) : cname s cn asid w need core = .at_ (.file core (bits w 8 0)) := by
  simp only [cname, hw]

theorem kind_two_pow : bits (2 ^ 63) 63 62 = 2 := by decide

theorem nameBadRec_two_pow : nameBadRec (2 ^ 63) = false := by decide

theorem nameBadRec_file {w : Nat} (hw : w < 511) : nameBadRec w = false := by
  have hkind : bits w 63 62 = 0 ∧ bits w 61 59 = 0 ∧ bits w 58 56 = 0 ∧ bits w 55 9 = 0 ∧ bits w 8 0 ≠ 511 := by
    simp only [bits]
    omega
  obtain ⟨h1, h2, h3, h4, h5⟩ := hkind
  simp [nameBadRec, nameBad, h1, h2, h3, h4, h5]

/-- A record whose control word is plain and whose completion counter is absent passes what every record is checked for (R263). -/
theorem recOk_plain (hw : x.w 1 = controlWord x.op sk dk mask) (hop : x.op < 64) (hs : sk < 2) (hd : dk < 2) (hm : mask < 16)
    (hdone : x.done = 2 ^ 63) (hland : nameBadRec x.land = false) : recOk x = true := by
  obtain ⟨hopc, -, -, hsf, hdf, hr, -, -, -⟩ := controlWord_fields hw hop hs hd hm
  simp only [recOk, hopc, hsf, hdf, hr, hdone, hland, nameBadRec_two_pow, beq_self_eq_true]
  rfl

/-- A record that passes the common checks starts as its opcode says (R262). -/
theorem startRec_ofOp (hdrop : x.op = 0x0B → x.drop = 0) (hok : recOk x = true) (hdone : x.done = 2 ^ 63) :
    (x.op = 1 → startRec s c asid x h e = startCpy s c asid x) ∧ (x.op = 4 → startRec s c asid x h e = startMcast s c asid x) ∧
    (x.op = 5 → startRec s c asid x h e = startRst s c asid x) ∧ (x.op = 6 → startRec s c asid x h e = startRld s c asid x) ∧
    (x.op = 0x0B → startRec s c asid x h e = startCcpy s c asid x h e) := by
  have hname : cname s c asid x.done rA c = .none := cname_absent (by rw [hdone]; exact kind_two_pow)
  have fresh : (decide (x.op = 0x0B) && decide (x.drop = 1)) = false := by
    by_cases hop : x.op = 0x0B
    · simp [hdrop hop]
    · simp [hop]
  refine ⟨?_, ?_, ?_, ?_, ?_⟩ <;> intro hop <;>
    simp only [startRec, fresh, Bool.false_eq_true, if_false, hok, need_true, hname, check_none] <;> simp only [hop]

theorem landName_absent {core : Nat} (hland : x.land = 2 ^ 63) : landName s c core x = .none :=
  cname_absent (by rw [hland]; exact kind_two_pow)

end

/-! ## Endpoints in handles -/

theorem length_spadRead (k : Core) (en : HEnt) (n : Nat) : ∀ o, (spadRead k en o n).length = n := by
  induction n with
  | zero => exact fun _ => rfl
  | succ n ih => exact fun o => congrArg Nat.succ (ih _)

theorem length_hRead (en : HEnt) (o n : Nat) : (hRead s c en o n).length = n := by
  unfold hRead
  split
  · simp [upTo]
  · exact length_spadRead ..

/-- A handle that a command may reach: valid, free of engine holds, long enough, of the GEN that the command carries, and not another address
space's (R55, R213, R271, R409). -/
theorem engWord_ok {w off n : Nat} (hw : bits w 55 32 = 0) (hv : (handle (coreAt s c) (bits w 63 56)).valid = true)
    (hh : (handle (coreAt s c) (bits w 63 56)).held = false) (hsh : x.reachesShadow = true)
    (hsz : bits w 31 0 + off + n ≤ (handle (coreAt s c) (bits w 63 56)).size)
    (hconf : spGet 0 (coreAt s c).m.hheld (bits w 63 56) ≠ 3)
    (hgen : ∀ g ∈ x.gens, g.1 = c → g.2.2 = (handle (coreAt s c) g.2.1).gen) :
    engWord s x c asid w off n = .ok (handle (coreAt s c) (bits w 63 56)) := by
  have same : x.otherGen c (bits w 63 56) (handle (coreAt s c) (bits w 63 56)).gen = false := by
    refine List.any_eq_false.mpr fun g hg => ?_
    simp only [Bool.and_eq_true, beq_iff_eq, bne_iff_ne, not_and, not_not]
    rintro ⟨hc, hn⟩
    exact hn ▸ hgen g hg hc
  simp [engWord, engHandle, hw, hv, hh, hsh, same, Nat.not_lt.mpr hsz, hconf]

/-- What a command reads through a handle leaves the package as it is. -/
theorem endRead_handle {w off n : Nat} {b : List Byte} (hr : endRead s x c asid 0 w off n = .ok (b, t)) :
    t = s ∧ b.length = n ∧ ∃ en, engWord s x c asid w off n = .ok en := by
  obtain ⟨en, hen, hb⟩ := eresBind_eq_ok hr
  cases hb
  exact ⟨rfl, length_hRead .., en, hen⟩

/-! ## Bytes cut at lines -/

section

variable {sz : Nat}

theorem cutLines_nil (k a : Nat) : cutLines sz k a [] = [] := by cases k <;> rfl

theorem cutLines_succ {k a : Nat} {b : List Byte} (hb : b ≠ []) : cutLines sz (k + 1) a b =
    (a, b.take (sz - a % sz)) :: cutLines sz k (a + (sz - a % sz)) (b.drop (sz - a % sz)) := by
  rw [cutLines, if_neg (by simpa using hb)]

theorem cutLines_data (hsz : 0 < sz) : ∀ (k a : Nat) (b : List Byte), b.length ≤ k → (cutLines sz k a b).flatMap Prod.snd = b := by
  intro k
  induction k with
  | zero => exact fun a b hb => (List.length_eq_zero_iff.mp (Nat.le_zero.mp hb)).symm
  | succ k ih =>
    intro a b hb
    by_cases hnil : b = []
    · rw [hnil, cutLines_nil]; rfl
    · have hstep : 0 < sz - a % sz := Nat.sub_pos_of_lt (Nat.mod_lt a hsz)
      rw [cutLines_succ hnil, List.flatMap_cons, ih _ _ (by rw [List.length_drop]; omega), List.take_append_drop]

theorem cutLines_inLine (hsz : 0 < sz) : ∀ (k a : Nat) (b : List Byte), ∀ q ∈ cutLines sz k a b, q.1 % sz + q.2.length ≤ sz := by
  intro k
  induction k with
  | zero => exact fun a b q hq => absurd hq List.not_mem_nil
  | succ k ih =>
    intro a b q hq
    by_cases hnil : b = []
    · rw [hnil, cutLines_nil] at hq
      exact absurd hq List.not_mem_nil
    · rw [cutLines_succ hnil] at hq
      rcases List.mem_cons.mp hq with rfl | hq
      · have hlt : a % sz < sz := Nat.mod_lt a hsz
        have htake : (b.take (sz - a % sz)).length ≤ sz - a % sz := List.length_take_le ..
        show a % sz + (b.take (sz - a % sz)).length ≤ sz
        omega
      · exact ih _ _ q hq

theorem cutLines_place : ∀ (k a : Nat) (b : List Byte) (n : Nat) (q : Nat × List Byte), (cutLines sz k a b)[n]? = some q →
    q.1 = a + (((cutLines sz k a b).take n).flatMap Prod.snd).length := by
  intro k
  induction k with
  | zero => exact fun a b n q hq => nomatch hq
  | succ k ih =>
    intro a b n q hq
    by_cases hnil : b = []
    · rw [hnil, cutLines_nil] at hq
      exact nomatch hq
    · rw [cutLines_succ hnil] at hq ⊢
      cases n with
      | zero =>
        cases hq
        rfl
      | succ n =>
        rw [List.getElem?_cons_succ] at hq
        have more : b.drop (sz - a % sz) ≠ [] := fun hd => by
          rw [hd, cutLines_nil] at hq
          exact nomatch hq
        have whole : (b.take (sz - a % sz)).length = sz - a % sz :=
          List.length_take_of_le (Nat.le_of_lt (List.length_lt_of_drop_ne_nil more))
        rw [ih _ _ n q hq, List.take_succ_cons, List.flatMap_cons, List.length_append, whole, Nat.add_assoc]

/-- Bytes within one line are one piece. -/
theorem cutLines_one {k a : Nat} {b : List Byte} (hb : b ≠ []) (hl : a % sz + b.length ≤ sz) : cutLines sz (k + 1) a b = [(a, b)] := by
  have htake : b.take (sz - a % sz) = b := List.take_of_length_le (by omega)
  have hdrop : b.drop (sz - a % sz) = [] := List.drop_eq_nil_of_le (by omega)
  rw [cutLines_succ hb, htake, hdrop, cutLines_nil]

end

/-- Pieces that lay bytes out from a place on, in order, none over the end of a line of `sz` bytes. -/
def LaidOut (sz start : Nat) (b : List Byte) (l : List Piece) : Prop :=
  l.flatMap Piece.data = b ∧ (∀ q ∈ l, q.at_ % sz + q.data.length ≤ sz) ∧
  ∀ n q, l[n]? = some q → q.at_ = start + ((l.take n).flatMap Piece.data).length

theorem laidOut_map_cutLines {sz : Nat} (hsz : 0 < sz) (start : Nat) (b : List Byte) (mk : Nat × List Byte → Piece)
    (hat : ∀ e, (mk e).at_ = e.1) (hdata : ∀ e, (mk e).data = e.2) :
    LaidOut sz start b ((cutLines sz (b.length + 1) start b).map mk) := by
  have datas (l : List (Nat × List Byte)) : (l.map mk).flatMap Piece.data = l.flatMap Prod.snd := by
    rw [List.flatMap_map]
    exact congrArg (fun f => l.flatMap f) (funext hdata)
  refine ⟨(datas _).trans (cutLines_data hsz _ _ _ (Nat.le_succ _)), fun q hq => ?_, fun n q hq => ?_⟩
  · obtain ⟨e, he, rfl⟩ := List.mem_map.mp hq
    rw [hat, hdata]
    exact cutLines_inLine hsz _ _ _ e he
  · rw [List.getElem?_map] at hq
    obtain ⟨e, he, rfl⟩ := Option.map_eq_some_iff.mp hq
    rw [hat, ← List.map_take, datas]
    exact cutLines_place _ _ _ n e he

section

variable {w off : Nat} {b : List Byte} {tag : Option Nat}

theorem piecesOf_handle : piecesOf s c 0 w off b tag = (cutLines 512 (b.length + 1) (bits w 31 0 + off) b).map fun e =>
    ⟨c, false, bits w 63 56, (handle (coreAt s c) (bits w 63 56)).gen, e.1, e.2, tag, 0⟩ := rfl

theorem piecesOf_memory : piecesOf s c 1 w off b tag = (cutLines 128 (b.length + 1) (w + off) b).map fun e =>
    ⟨c, true, 0, 0, e.1, e.2, tag, 0⟩ := rfl

theorem piecesOf_handle_laidOut : LaidOut 512 (bits w 31 0 + off) b (piecesOf s c 0 w off b tag) :=
  laidOut_map_cutLines (by decide) _ _ _ (fun _ => rfl) fun _ => rfl

theorem piecesOf_memory_laidOut : LaidOut 128 (w + off) b (piecesOf s c 1 w off b tag) :=
  laidOut_map_cutLines (by decide) _ _ _ (fun _ => rfl) fun _ => rfl

theorem piecesOf_handle_place : ∀ q ∈ piecesOf s c 0 w off b tag, q.core = c ∧ q.isVa = false ∧ q.tag = tag ∧ q.h = bits w 63 56 ∧
    q.gen = (handle (coreAt s c) (bits w 63 56)).gen := by
  intro q hq
  obtain ⟨e, -, rfl⟩ := List.mem_map.mp (piecesOf_handle ▸ hq)
  exact ⟨rfl, rfl, rfl, rfl, rfl⟩

theorem piecesOf_memory_place : ∀ q ∈ piecesOf s c 1 w off b tag, q.core = c ∧ q.isVa = true ∧ q.tag = tag := by
  intro q hq
  obtain ⟨e, -, rfl⟩ := List.mem_map.mp (piecesOf_memory ▸ hq)
  exact ⟨rfl, rfl, rfl⟩

end

/-! ## The copy -/

/-- A copy between handles without conversion and without a landing counter sets out what it reads (R271, R272). -/
theorem startCpy_plain {b : List Byte} (hw : x.w 1 = controlWord 1 0 0 0) (hlen : x.len < 2 ^ 40) (haux : x.aux = 0) (hland : x.land = 2 ^ 63)
    (hr : endRead s x c asid 0 x.src 0 x.len = .ok (b, s)) (hd : endCheck s x c asid 0 x.dst 0 b.length = .ok ()) :
    ∃ t, startCpy s c asid x = .ok ({ x with pieces := piecesOf s c 0 x.dst 0 b none }, t) := by
  obtain ⟨-, hsk, hdk, hsf, hdf, hrnd, hmask, hred, harg⟩ := controlWord_fields hw (by decide) (by decide) (by decide) (by decide)
  obtain ⟨hn, hhigh⟩ := length_whole hlen
  have whole : 8 * x.len % (fmtBits 0).getD 8 = 0 := Nat.mul_mod_right 8 x.len
  refine ⟨pbcPieces (modCore s c fun k => addCvt k 0) c (piecesOf s c 0 x.dst 0 b none), ?_⟩
  simp only [startCpy, hsk, hdk, hsf, hdf, hrnd, hmask, hred, harg, hn, hhigh, haux, landName_absent hland, whole, hr, check_none, eresBind_ok, if_true,
    hd]
  rfl

/-- Settles O31: both endpoints pass, the bytes are those of the source, and the pieces are laid out from the destination's offset on. -/
theorem copyBetweenHandles : Obligations.CopyBetweenHandles := by
  unfold Obligations.CopyBetweenHandles
  intro s c asid h b x hop hw hlen haux hland hdone hsrc hdst ok hokSrc hokDst hgen bytes
  have hctl : x.w 1 = controlWord x.op 0 0 0 := by rw [hw, hop]; rfl
  have hshadow : x.reachesShadow = true := by simp [Cmd.reachesShadow, hop]
  have reach {w : Nat} (hw : bits w 55 32 = 0) (hok : ok w) :
      engWord s x c asid w 0 x.len = .ok (handle (coreAt s c) (bits w 63 56)) := by
    obtain ⟨hv, hh, hsz, hconf⟩ := hok
    exact engWord_ok hw hv hh hshadow hsz hconf hgen
  have hread : endRead s x c asid 0 x.src 0 x.len = .ok (bytes, s) := by
    simp only [endRead, endTake, if_true, reach hsrc hokSrc, eresBind_ok]
    rfl
  have hcheck : endCheck s x c asid 0 x.dst 0 bytes.length = .ok () := by
    rw [show bytes.length = x.len from length_hRead ..]
    simp only [endCheck, if_true, reach hdst hokDst, eresBind_ok]
  obtain ⟨t, ht⟩ := startCpy_plain (by rw [hctl, hop]) hlen haux hland hread hcheck
  have hok : recOk x = true :=
    recOk_plain hctl (by omega) (by decide) (by decide) (by decide) hdone (by rw [hland]; exact nameBadRec_two_pow)
  obtain ⟨hcpy, -⟩ := startRec_ofOp (s := s) (c := c) (asid := asid) (h := h) (e := b) (by omega) hok hdone
  obtain ⟨hdata, hline, hplace⟩ : LaidOut 512 (bits x.dst 31 0) bytes (piecesOf s c 0 x.dst 0 bytes none) := piecesOf_handle_laidOut
  refine ⟨_, t, (hcpy hop).trans ht, rfl, hdata, fun q hq => ?_, hplace⟩
  obtain ⟨hcore, hva, htag, hh, -⟩ := piecesOf_handle_place q hq
  exact ⟨hcore, hva, hh, hline q hq, htag⟩

end Sys2Proof.Proofs
end

section
/-! PROOFS. Engine commands as their bundle issues (R262, R267 to R269, R279): what a record or a counter name faults with, and the command that
joins the list of its core. -/

namespace Sys2Proof.Proofs

open Sys2Proof Sys2Proof.Machine

variable {s : State} {bu : Issue} {p r x y op : Nat} {cons : List Nat}

/-- The issue check of a record, in its order (R262). -/
theorem recFault_eq (s : State) (cn op : Nat) (w : Word) : recFault s cn op w =
    let en := handle (here s) (bits w.toNat 63 56)
    let o := bits w.toNat 31 0
    if bits w.toNat 55 32 ≠ 0 ∨ o % 8 ≠ 0 then some 0x07
    else if en.valid = false then some 0x05 else if en.shadow = true ∨ en.held = true then some 0x06
    else if en.size < o + 64 ∨ en.size < o + recSize s cn op w then some 0x07 else none := by
  simp only [recFault, Bool.or_eq_true, bne_iff_ne, Bool.not_eq_true', decide_eq_true_eq, gt_iff_lt]

section

variable (h : s.issue = some bu) (hg : guardOf s p = true)
include h hg

theorem aRecord_faults {f : Nat} (hf : recFault s bu.core op (sreg (here s) (48 + x)) = some f) :
    aRecord op p r cons x s = recorded s bu f 0 0 := by
  rw [aRecord, guarded_true s p _ hg]
  simp only [hereNo_of_issue h, hf]
  exact raise_issue s bu h ..

theorem aRecord_joins (hf : recFault s bu.core op (sreg (here s) (48 + x)) = none) :
    aRecord op p r cons x s = aPush op r cons (sreg (here s) (48 + x)) 0 0 0 s := by
  rw [aRecord, guarded_true s p _ hg]
  simp only [hereNo_of_issue h, hf]

theorem aCounter_faults {pd f d : Nat} {va : Word} (hf : ctrFault s bu.core op (sreg (here s) (48 + x)) (sreg (here s) (48 + y)) = some (f, d, va)) :
    aCounter op p r cons pd y x s = recorded (walkNote s (asidOf (here s)) va.toNat (if f = 0x0B then d else 0)) bu f d va := by
  rw [aCounter, guarded_true s p _ hg]
  simp only [hereNo_of_issue h, hf]
  exact raise_counted h (walkNote_issue ..) ..

theorem aCounter_joins {pd : Nat} (hf : ctrFault s bu.core op (sreg (here s) (48 + x)) (sreg (here s) (48 + y)) = none) :
    aCounter op p r cons pd y x s = aPush op r cons 0 (sreg (here s) (48 + x)) (sreg (here s) (48 + y)) pd s := by
  rw [aCounter, guarded_true s p _ hg]
  simp only [hereNo_of_issue h, hf]

end

/-! ## Names that a counter command refuses (R267, R268) -/

section

variable {cn : Nat} {w v : Word} (hname : nameBad w.toNat = false) (hkind : bits w.toNat 63 62 = 0) (hop : op ≠ 0x0F)
include hname hkind hop

theorem ctrFault_reserved (hct : bits w.toNat 8 0 = 511) : ctrFault s cn op w v = some (0x10, 0, 0) := by
  simp [ctrFault, hname, hkind, hop, hct]

theorem ctrFault_overflow (hct : bits w.toNat 8 0 ≠ 511) (hv : v.getLsbD 63 = true) : ctrFault s cn op w v = some (0x0F, 0, 0) := by
  simp [ctrFault, hname, hkind, hop, hct, hv]

end

/-- Settles O29: an operation with a record by the outcomes of its check, in their order; rflush and the counter commands likewise. -/
theorem engineCommandsIssue : Obligations.EngineCommandsIssue := by
  unfold Obligations.EngineCommandsIssue
  intro s bu p r n a b c d x y h hg w v push en off size
  refine ⟨fun o ho => ?record, exec_of_guarded hg rfl rfl, fun o ho => ?counter⟩
  case record =>
    have hexec : exec o.1 s = .next (aRecord o.2 p r ([a, b, c].take n) x s) := by
      simp only [List.mem_cons, List.not_mem_nil, or_false] at ho
      rcases ho with rfl | rfl | rfl | rfl | rfl | rfl | rfl | rfl | rfl | rfl | rfl | rfl | rfl <;> rfl
    have check := recFault_eq s bu.core o.2 w
    have faults {f : Nat} (hf : recFault s bu.core o.2 w = some f) : exec o.1 s = .next (recorded s bu f 0 0) :=
      hexec.trans (congrArg Host.Outcome.next (aRecord_faults h hg hf))
    refine ⟨fun hbad => faults (check.trans (if_pos hbad)), fun hres hoff => ?_⟩
    have aligned : ¬(bits w.toNat 55 32 ≠ 0 ∨ off % 8 ≠ 0) := fun hbad => hbad.elim (absurd hres) (absurd hoff)
    have check := check.trans (if_neg aligned)
    refine ⟨fun hv => faults (check.trans (if_pos hv)), fun hv hsh => faults ?_, fun hv hsh hh => ⟨fun hsz => faults ?_, fun h64 hsz => ?_⟩⟩
    case refine_1 => exact check.trans ((if_neg (Bool.not_eq_false _ ▸ hv)).trans (if_pos hsh))
    all_goals
      have mine : ¬(en.shadow = true ∨ en.held = true) := fun hbad => hbad.elim (Bool.eq_false_iff.mp hsh) (Bool.eq_false_iff.mp hh)
      have check := check.trans ((if_neg (Bool.not_eq_false _ ▸ hv)).trans (if_neg mine))
    case refine_2 => exact check.trans (if_pos hsz)
    case refine_3 =>
      have fits : ¬(en.size < off + 64 ∨ en.size < off + size o.2) := by omega
      exact hexec.trans (congrArg Host.Outcome.next (aRecord_joins h hg (check.trans (if_neg fits))))
  case counter =>
    have hexec : exec o.1 s = .next (aCounter o.2.1 p r o.2.2.1 o.2.2.2 y x s) := by
      simp only [List.mem_cons, List.not_mem_nil, or_false] at ho
      rcases ho with rfl | rfl | rfl <;> rfl
    refine ⟨fun f g va hf => hexec.trans (congrArg Host.Outcome.next (aCounter_faults h hg hf)),
      fun hf => hexec.trans (congrArg Host.Outcome.next (aCounter_joins h hg hf)),
      fun hname hkind hop hct => ctrFault_reserved hname hkind hop hct,
      fun hname hkind hop hct hv => ctrFault_overflow hname hkind hop hct hv⟩

end Sys2Proof.Proofs
end

section
/-! PROOFS. Engine commands that start (R261 to R263, R266, R268, R279): what keeps one from starting, and what each does once it may. -/

namespace Sys2Proof.Proofs

open Sys2Proof Sys2Proof.Machine

variable {s : State} {c i h e : Nat} {x : Cmd}

/-! ## The list of commands -/

/-- Two changes of one command, the first of which keeps its number, are one. -/
theorem modCmd_modCmd (s : State) (c id : Nat) {f : Cmd → Cmd} (g : Cmd → Cmd) (hf : ∀ y, y.id = id → (f y).id = id) :
    modCmd (modCmd s c id f) c id g = modCmd s c id fun y => g (f y) := by
  have each (y : Cmd) : (if (if y.id = id then f y else y).id = id then g (if y.id = id then f y else y) else (if y.id = id then f y else y)) =
      if y.id = id then g (f y) else y := by
    by_cases hy : y.id = id
    · simp only [hy, hf y hy, if_true]
    · simp only [hy, if_false]
  simp only [modCmd, modCore_modCore, List.map_map]
  refine congrArg (modCore s c) (funext fun k => ?_)
  simp only [Function.comp_def, each]

/-! ## Translation asks the caches of one core and the tables in memory (R354, R359) -/

theorem rangeLook_cores (s : State) (l : List (Nat × Core)) (asid va r k : Nat) : ∀ i, rangeLook { s with cores := l } asid va r k i = rangeLook s asid va r k i := by
  induction k with
  | zero => exact fun _ => rfl
  | succ k ih =>
    intro i
    simp only [rangeLook, ih]
    rfl

theorem winLook_cores (s : State) (l : List (Nat × Core)) (asid va k : Nat) : ∀ i, winLook { s with cores := l } asid va k i = winLook s asid va k i := by
  induction k with
  | zero => exact fun _ => rfl
  | succ k ih =>
    intro i
    simp only [winLook, ih]
    rfl

theorem ptWalk_cores (s : State) (l : List (Nat × Core)) (asid va k : Nat) : ∀ a, ptWalk { s with cores := l } asid va k a = ptWalk s asid va k a := by
  induction k with
  | zero => exact fun _ => rfl
  | succ k ih =>
    intro a
    simp only [ptWalk, ih]
    rfl

theorem tableLook_cores (s : State) (l : List (Nat × Core)) (asid va : Nat) : tableLook { s with cores := l } asid va = tableLook s asid va := by
  simp only [tableLook, tableFind, rangeLook_cores, winLook_cores, ptWalk_cores]
  rfl

/-- Commands stand in no table of translation. -/
theorem xlat_modCmd (s : State) (c id : Nat) (f : Cmd → Cmd) (asid va : Nat) : xlat (modCmd s c id f) c asid va = xlat s c asid va := by
  have same : coreAt (modCmd s c id f) c = { coreAt s c with f := { (coreAt s c).f with cmds := (coreAt s c).f.cmds.map fun y => if y.id = id then f y else y } } :=
    coreAt_modCore_same ..
  have hcached : cached (modCmd s c id f) c asid va = cached s c asid va := by
    simp only [cached, cachedOwn, same]
    rfl
  have htables : tableLook (modCmd s c id f) asid va = tableLook s asid va := tableLook_cores ..
  simp only [xlat, xlook, hcached, htables]

/-! ## What keeps a command from starting (R35, R261, R266) -/

theorem mayStart_of_notStartable (hx : startable (coreAt s c) x = false) : mayStart s c x = false := by
  rw [mayStart, hx, Bool.false_and]

theorem not_startable {k : Core} (hno : x.started = true ∨ k.q.stopped = true ∨ k.halted = true ∨ ∃ t, t ∈ x.cons ∧ k.r.tok.getLsbD t = true) :
    startable k x = false := by
  rcases hno with hst | hst | hst | ⟨t, ht, htok⟩
  · simp [startable, hst]
  · simp [startable, hst]
  · simp [startable, hst]
  · have pending : (x.cons.all fun t => !k.r.tok.getLsbD t) = false :=
      List.all_eq_false.mpr ⟨t, ht, by simp [htok]⟩
    simp [startable, pending]

/-- A command that nothing of its own keeps from starting, behind no access of its core (R36). -/
theorem startable_of_clear {k : Core} (hst : x.started = false) (hstop : k.q.stopped = false) (hhalt : k.halted = false) (hpark : x.parked = none)
    (htok : ∀ t ∈ x.cons, k.r.tok.getLsbD t = false) (hq : ∀ g ∈ k.f.gq, x.seq ≤ g.seq)
    (hfill : x.op = 0x0D ∨ x.op = 0x0E → fillBefore k x.seq = false) : startable k x = true := by
  have done : (x.cons.all fun t => !k.r.tok.getLsbD t) = true := List.all_eq_true.mpr fun t ht => by simp [htok t ht]
  have behind : (k.f.gq.all fun g => decide (g.seq ≥ x.seq)) = true := List.all_eq_true.mpr fun g hg => decide_eq_true (hq g hg)
  have behindStores : (k.f.gq.all fun g => decide (g.seq ≥ x.seq) || g.kind.writesReg || (match g.st with | .parked _ _ => true | _ => false)) = true :=
    List.all_eq_true.mpr fun g hg => by simp [hq g hg]
  simp only [startable, hst, hstop, hhalt, hpark, done, behind, Option.isNone_none, Bool.not_false, Bool.true_and]
  split
  next hrel =>
    by_cases h8 : x.op = 8
    · simp [h8]
    · have hfill := hfill (by simpa [h8] using hrel)
      simp [hfill]
  next => exact behindStores

/-- With no log, the choice among commands is free (R424). -/
theorem startGate_off (asid : Nat) (hlog : rplMode s = 0) : startGate s c asid x = (true, s) := by
  unfold startGate
  extract_lets en l
  split
  · exact rplGate_off _ _ _ _ _ hlog
  · rfl

theorem exec_start_held (hx : cmdAt s c i = some x) (hm : mayStart s c x = false) : exec (.engineCommandStart c i h e) s = .next s := by
  simp only [exec_engineCommandStart, execEngineCommandStart, hx, hm]
  rfl

/-! ## What each command does at its start -/

/-- A command that starts with its record read, and with the GENs of its handles as they stand (R262, R213). -/
def recRead (s : State) (c : Nat) (x : Cmd) (en : HEnt) : Cmd :=
  let y := { x with started := true, recb := hRead s c en (bits x.recw.toNat 31 0) (recSize s c x.op x.recw) }
  { y with gens := gensNow s c y }

/-- What the answer of a command's start comes to (R263). -/
def begun (s : State) (c : Nat) (y : Cmd) : Eres (Cmd × State) → Out
  | .ok (z, t) => .next (modCmd t c y.id fun _ => z)
  | .stop (.bad 9) => .next (defer (modCmd s c y.id fun _ => { y with code := 9 }) c 0x18 y)
  | .stop (.park a) => .next (engPark (modCmd s c y.id fun _ => { y with started := false }) c y.id (asidOf (coreAt s c)) a)
  | .stop f => .next (engStop (modCmd s c y.id fun _ => y) c y.id (asidOf (coreAt s c)) f)

theorem begun_bad {y : Cmd} {f : Nat} (hf : f ≠ 9) : begun s c y (.stop (.bad f)) = .next (modCmd s c y.id fun _ => { y with code := f }) := by
  have plain : begun s c y (.stop (.bad f)) = .next (engStop (modCmd s c y.id fun _ => y) c y.id (asidOf (coreAt s c)) (.bad f)) := by
    unfold begun
    split
    case h_2 heq => cases heq; exact absurd rfl hf
    case h_4 heq => cases heq; rfl
    all_goals next heq => exact nomatch heq
  rw [plain, engStop, modCmd_modCmd s c y.id _ fun _ _ => rfl]

theorem begun_walk {y : Cmd} {a : Nat} : begun s c y (.stop (.walk a)) =
    .next (walkNote (modCmd s c y.id fun _ => { y with code := 3 }) (asidOf (coreAt s c)) a 8) := by
  have plain : begun s c y (.stop (.walk a)) = .next (engStop (modCmd s c y.id fun _ => y) c y.id (asidOf (coreAt s c)) (.walk a)) := rfl
  rw [plain, engStop, modCmd_modCmd s c y.id _ fun _ _ => rfl]

section

variable (hx : cmdAt s c i = some x) (hm : mayStart s c x = true) (hlog : rplMode s = 0)
include hx hm hlog

theorem exec_start_rflush (hop : x.op = 0x08) : exec (.engineCommandStart c i h e) s =
    .next (modCmd (flushComb s c fun _ => true) c x.id fun y => { y with started := true, prog := [0] }) := by
  simp only [exec_engineCommandStart, execEngineCommandStart, hx, hm, startGate_off _ hlog, hop]
  rfl

theorem exec_start_release (hop : x.op = 0x0D ∨ x.op = 0x0E) :
    let fab := relFabric s c x
    let t := flushComb s c fun en => fab || combLocal s en
    exec (.engineCommandStart c i h e) s = .next (modCmd t c x.id fun y =>
      { y with started := true, prog := (writesBefore (coreAt t c) x fab).map Unacked.tag }) := by
  have not8 : x.op ≠ 8 := by omega
  have isRel : (decide (x.op = 0x0D) || decide (x.op = 0x0E)) = true := by simpa using hop
  simp only [exec_engineCommandStart, execEngineCommandStart, hx, hm, startGate_off _ hlog, not8, isRel]
  rfl

theorem exec_start_poll (hop : x.op = 0x0F) : exec (.engineCommandStart c i h e) s =
    .next (modCmd s c x.id fun y => { y with started := true }) := by
  simp only [exec_engineCommandStart, execEngineCommandStart, hx, hm, startGate_off _ hlog, hop]
  rfl

variable (hop : x.op ∉ [0x08, 0x0D, 0x0E, 0x0F])
include hop

theorem exec_start_noRecord (hrec : recHere s c x = none) : exec (.engineCommandStart c i h e) s =
    .next (tokenDone (modCore s c fun k => countEv k 0x10 1) c x) := by
  simp only [List.mem_cons, List.not_mem_nil, or_false, not_or] at hop
  obtain ⟨h8, hD, hE, hF⟩ := hop
  simp only [exec_engineCommandStart, execEngineCommandStart, hx, hm, startGate_off _ hlog, h8, hD, hE, hF, hrec]
  rfl

/-- A command whose record is where it was goes on with its record read and the GENs of its handles taken (R262, R213). -/
theorem exec_start_record {en : HEnt} (hcrypt : x.op ≠ 0x0B) (hrec : recHere s c x = some en) (hb : x.recb = []) (hgens : x.gens = []) :
    exec (.engineCommandStart c i h e) s = begun s c (recRead s c x en) (startRec s c (asidOf (coreAt s c)) (recRead s c x en) h (e != 0)) := by
  simp only [List.mem_cons, List.not_mem_nil, or_false, not_or] at hop
  obtain ⟨h8, hD, hE, hF⟩ := hop
  have size : (if x.op = 9 then recSize s c 9 x.recw else recSize s c x.op x.recw) = recSize s c x.op x.recw := by
    split
    next h9 => rw [h9]
    next => rfl
  simp only [exec_engineCommandStart, execEngineCommandStart, hx, hm, startGate_off _ hlog, h8, hD, hE, hF, hrec, hb, hgens, hcrypt, size,
    List.isEmpty_nil, if_true, if_false]
  rfl

end

/-- A command that parks at a page that is not resident asks its driver for it (R263, R360). -/
theorem engPark_absentPage {asid a : Nat} (id : Nat) (hxl : xlat s c asid a = .fail 3) : engPark s c id asid a =
    post (modCmd s c id fun z => { z with parked := some (asid, a) }) (driverOf s asid) 1 [asid, a] := by
  simp only [engPark, xlat_modCmd, hxl]
  rfl

/-- Settles O30: what keeps a command from starting, then each kind of command as it starts. -/
theorem engineCommandStarts : Obligations.EngineCommandStarts := by
  unfold Obligations.EngineCommandStarts
  intro s c i h e x hx k asid fab some'
  refine ⟨fun hno => exec_start_held hx (mayStart_of_notStartable (not_startable hno)), fun hop hturn => exec_start_held hx ?turn,
    fun hst hstop hhalt hpark htok hq hlog hcrypt => ?starts⟩
  case turn => simp [mayStart, hop, hturn]
  case starts =>
    have starts (hfill : x.op = 0x0D ∨ x.op = 0x0E → fillBefore k x.seq = false) : mayStart s c x = true := by
      rw [mayStart, startable_of_clear hst hstop hhalt hpark htok hq hfill]
      simp [hcrypt]
    have mayGo (hop : x.op ∉ [0x08, 0x0D, 0x0E, 0x0F]) : mayStart s c x = true :=
      starts fun hr => absurd (show x.op ∈ [0x08, 0x0D, 0x0E, 0x0F] by rcases hr with hr | hr <;> simp [hr]) hop
    refine ⟨fun hop => exec_start_rflush hx (starts (by omega)) hlog hop, fun hop hfill => exec_start_release hx (starts fun _ => hfill) hlog hop,
      fun hop => exec_start_poll hx (starts (by omega)) hlog hop, ?noRecord, ?record⟩
    case noRecord => exact fun hop hrec => exec_start_noRecord hx (mayGo hop) hlog hop hrec
    case record =>
      intro en hop hrec hb hgens y0 y
      have answer {r : Eres (Cmd × State)} (hr : startRec s c asid y h (e != 0) = r) :
          exec (.engineCommandStart c i h e) s = begun s c y r :=
        (exec_start_record hx (mayGo hop) hlog hop hcrypt hrec hb hgens).trans (congrArg (begun s c y) hr)
      exact ⟨fun z t hr => answer hr, fun f hr hf => (answer hr).trans (begun_bad hf), fun a hr => (answer hr).trans begun_walk, fun a hr => answer hr,
        fun a hxl => ⟨_, engPark_absentPage _ hxl, rfl⟩⟩

end Sys2Proof.Proofs
end

section
/-! PROOFS. What gat, sct, mcast.q, rst and rld set out to write (R273 to R276): rows, copies for the cores of the quad, bytes for the combining
buffer, requests. -/

namespace Sys2Proof.Proofs

open Sys2Proof Sys2Proof.Machine

variable {s t u : State} {c i n asid h : Nat} {e : Bool} {x : Cmd} {b k : List Byte}

/-! ## Rows (R273) -/

theorem rowsLeft (hcode : x.code = 0 ∨ x.code = 0x0A) (hrow : x.prog.getD 0 0 < bits x.len 63 40) :
    ((x.code != 0 && x.code != 0x0A) || decide (x.prog.getD 0 0 ≥ bits x.len 63 40)) = false := by
  rw [decide_eq_false (Nat.not_le.mpr hrow), Bool.or_false]
  rcases hcode with hc | hc <;> rw [hc] <;> rfl

section

variable (hx : cmdAt s c i = some x) (hst : x.started = true) (hpark : x.parked = none) (hp : x.pieces = []) (hw : x.waits = [])
  (hop : x.op = 2 ∨ x.op = 3) (hcode : x.code = 0 ∨ x.code = 0x0A) (hrow : x.prog.getD 0 0 < bits x.len 63 40)
include hx hst hpark hp hw hop hcode hrow

theorem exec_complete_row {z : Cmd} (hr : gatRow s c (asidOf (coreAt s c)) x = .ok (z, t)) :
    exec (.engineCommandComplete c i n) s = .next (modCmd t c x.id fun _ => z) := by
  have more := rowsLeft hcode hrow
  rcases hop with hop | hop <;>
    simp only [exec_engineCommandComplete, execEngineCommandComplete, hx, hst, hpark, hp, hw, hop, more, hr] <;> rfl

theorem exec_complete_rowFails {f : Nat} (hr : gatRow s c (asidOf (coreAt s c)) x = .stop (.bad f)) :
    exec (.engineCommandComplete c i n) s = .next (modCmd s c x.id fun y => { y with code := f }) := by
  have more := rowsLeft hcode hrow
  rcases hop with hop | hop <;>
    simp only [exec_engineCommandComplete, execEngineCommandComplete, hx, hst, hpark, hp, hw, hop, more, hr] <;> rfl

end

/-- A row whose index and bytes are read and whose place may be written (R273). -/
theorem gatRow_ok {so d : Nat} (hidx : endRead s x c asid 0 x.aux (4 * x.prog.getD 0 0) 4 = .ok (k, t))
    (hso : so = if x.op = 2 then leNat k * x.arg else x.prog.getD 0 0 * bits x.len 39 20)
    (hd : d = if x.op = 2 then x.prog.getD 0 0 * bits x.len 39 20 else leNat k * x.arg)
    (hread : endRead t x c asid x.sk x.src so (bits x.len 39 20) = .ok (b, u))
    (hcheck : endCheck u x c asid x.dk x.dst d (bits x.len 39 20) = .ok ()) :
    gatRow s c asid x = .ok ({ x with pieces := piecesOf u c x.dk x.dst d b none, prog := [x.prog.getD 0 0 + 1] },
      pbcPieces u c (piecesOf u c x.dk x.dst d b none)) := by
  subst hso hd
  simp only [gatRow, hidx, eresBind_ok, hread, hcheck]

theorem gatRow_noIndex {f : Stop} (hidx : endRead s x c asid 0 x.aux (4 * x.prog.getD 0 0) 4 = .stop f) : gatRow s c asid x = .stop f := by
  simp only [gatRow, hidx, eresBind_stop]

/-! ## Copies for a quad (R274) -/

/-- Whether an endpoint word of a command names a handle of a core that it may reach. -/
def reaches (s : State) (x : Cmd) (cn asid w n : Nat) : Bool := match engWord s x cn asid w 0 n with | .ok _ => true | _ => false

theorem reaches_iff {w : Nat} : reaches s x c asid w n = true ↔ ∃ en, engWord s x c asid w 0 n = .ok en := by
  unfold reaches
  split
  next en hen => exact ⟨fun _ => ⟨en, hen⟩, fun _ => rfl⟩
  next hno => exact ⟨fun h => absurd h Bool.false_ne_true, fun ⟨en, hen⟩ => absurd hen (hno en)⟩

/-- The cores of a mask, by their places in the quad. -/
def maskCores (mask : Nat) : List Nat := (upTo 4).filter (bit mask)

theorem mem_maskCores {mask : Nat} : i ∈ maskCores mask ↔ i < 4 ∧ bit mask i = true := by
  rw [maskCores, List.mem_filter, upTo, List.mem_range]

/-- The cores of a command's mask whose handle it may reach. -/
def goodCores (s : State) (x : Cmd) (c asid n : Nat) : List Nat := (maskCores x.mask).filter fun i => reaches s x (c / 4 * 4 + i) asid x.dst n

/-- The others, as a mask. -/
def droppedCores (s : State) (x : Cmd) (c asid n : Nat) : Nat :=
  (((upTo 4).filter fun i => bit x.mask i && !reaches s x (c / 4 * 4 + i) asid x.dst n).map (2 ^ ·)).sum

theorem bit_droppedCores (hi : i < 4) : bit (droppedCores s x c asid n) i = (bit x.mask i && !reaches s x (c / 4 * 4 + i) asid x.dst n) :=
  (testBit_sum_two_pow _ 4).2 i hi

theorem mem_goodCores (hi : i < 4) : i ∈ goodCores s x c asid n ↔ bit x.mask i = true ∧ bit (droppedCores s x c asid n) i = false := by
  rw [bit_droppedCores hi, goodCores, List.mem_filter, mem_maskCores]
  cases bit x.mask i <;> cases reaches s x (c / 4 * 4 + i) asid x.dst n <;> simp [hi]

/-- The marks of the copies that are dropped: of the mask's cores those that are not among the good ones. -/
theorem droppedCores_eq : (((maskCores x.mask).filter fun i => !(goodCores s x c asid n).contains i).map fun i => 2 ^ i).sum =
    droppedCores s x c asid n := by
  refine congrArg (fun l : List Nat => (l.map fun i => 2 ^ i).sum) ?_
  rw [maskCores, List.filter_filter]
  refine List.filter_congr fun i hi => ?_
  have good : (goodCores s x c asid n).contains i = (bit x.mask i && reaches s x (c / 4 * 4 + i) asid x.dst n) := by
    rw [Bool.eq_iff_iff, List.contains_iff_mem, goodCores, List.mem_filter, mem_maskCores, Bool.and_eq_true]
    simp only [List.mem_range.mp hi, true_and]
  rw [good]
  cases bit x.mask i <;> simp

/-- Of the pieces for several cores, those for one. -/
theorem filter_core_flatMap (q0 : Nat) (f : Nat → List Piece) (hf : ∀ j, ∀ q ∈ f j, q.core = q0 + j) (l : List Nat) (hl : l.Nodup) :
    (l.flatMap f).filter (fun q => q.core == q0 + i) = if i ∈ l then f i else [] := by
  have own (j : Nat) : (f j).filter (fun q => q.core == q0 + i) = if i = j then f i else [] := by
    split
    next h =>
      subst h
      exact List.filter_eq_self.mpr fun q hq => beq_iff_eq.mpr (hf _ q hq)
    next h =>
      exact List.filter_eq_nil_iff.mpr fun q hq hcore => h (Nat.add_left_cancel ((beq_iff_eq.mp hcore).symm.trans (hf j q hq)))
  induction l with
  | nil => rfl
  | cons j l ih =>
    obtain ⟨hj, hl⟩ := List.nodup_cons.mp hl
    rw [List.flatMap_cons, List.filter_append, ih hl, own]
    by_cases h : i = j
    · subst h
      simp [hj]
    · simp [h]

/-- Whether an endpoint word of a command names no handle with data of another address space (R409). -/
def confFree (s : State) (x : Cmd) (cn asid w n : Nat) : Bool := match engWord s x cn asid w 0 n with | .stop (.bad f) => f != 0x04 | _ => true

theorem confFree_of_ne {w : Nat} (hw : engWord s x c asid w 0 n ≠ .stop (.bad 4)) : confFree s x c asid w n = true := by
  unfold confFree
  split
  next f hf => exact bne_iff_ne.mpr fun h4 => hw (h4 ▸ hf)
  next => rfl

/-- What a multicast of the bytes read sets out: copies for the cores that it reaches, marks for the others (R274). -/
def mcastSetOut (s : State) (c asid : Nat) (x : Cmd) (n : Nat) (b : List Byte) : Cmd × State :=
  let ps := (goodCores s x c asid n).flatMap fun i => piecesOf s (c / 4 * 4 + i) 0 x.dst 0 b none
  let gone := (maskCores x.mask).filter fun i => !(goodCores s x c asid n).contains i
  let far := (maskCores x.mask).filter fun i => !(goodCores s x c asid n).contains i && c / 4 * 4 + i != c
  ({ x with pieces := ps, drop := (gone.map fun i => 2 ^ i).sum, count := n }, addPbc (pbcPieces s c ps) c (n * far.length))

theorem mcastSetOut_drop : (mcastSetOut s c asid x n b).1.drop = droppedCores s x c asid n := droppedCores_eq

theorem mcastSetOut_pieces_filter : (mcastSetOut s c asid x n b).1.pieces.filter (fun q => q.core == c / 4 * 4 + i) =
    if i ∈ goodCores s x c asid n then piecesOf s (c / 4 * 4 + i) 0 x.dst 0 b none else [] :=
  filter_core_flatMap (c / 4 * 4) (fun i => piecesOf s (c / 4 * 4 + i) 0 x.dst 0 b none) (fun _ q hq => (piecesOf_handle_place q hq).1) _
    ((List.nodup_range.filter _).filter _)

/-- The start of a multicast whose bytes are read and whose cores hold no data of another address space (R274, R409). -/
theorem startMcast_plain {mask : Nat} (hc : x.w 1 = controlWord 4 0 0 mask) (hm0 : 0 < mask) (hm : mask < 16) (hn : n < 2 ^ 40) (hlen : x.len = n)
    (hland : x.land < 511) (haux : x.aux = 0) (hread : endRead s x c asid 0 x.src 0 n = .ok (b, s))
    (hconf : ∀ i, i < 4 → bit mask i = true → engWord s x (c / 4 * 4 + i) asid x.dst 0 n ≠ .stop (.bad 4)) :
    startMcast s c asid x = .ok (mcastSetOut s c asid x n b) := by
  obtain ⟨-, hsk, hdk, hsf, hdf, hrnd, hmask, hred, harg⟩ := controlWord_fields hc (by decide) (by decide) (by decide) hm
  obtain ⟨hlow, hhigh⟩ := length_whole hn
  have hkind : bits x.land 63 62 = 0 := by simp only [bits]; omega
  have named : (x.mask != 0) = true := bne_iff_ne.mpr (hmask ▸ Nat.ne_of_gt hm0)
  have mine : ((maskCores x.mask).all fun i => confFree s x (c / 4 * 4 + i) asid x.dst n) = true := List.all_eq_true.mpr fun i hi => by
    obtain ⟨hi, hbit⟩ := mem_maskCores.mp hi
    exact confFree_of_ne (hconf i hi (hmask ▸ hbit))
  have form : startMcast s c asid x = .need true 1 (.need ((maskCores x.mask).all fun i => confFree s x (c / 4 * 4 + i) asid x.dst n) 4
      (.ok (mcastSetOut s c asid x n b))) := by
    simp only [startMcast, hlen, hlow, hhigh, hsk, hdk, hsf, hdf, hrnd, hred, harg, haux, hkind, named, hread, eresBind_ok]
    rfl
  rw [form, mine, need_true, need_true]

/-! ## Stores and loads through windows (R275, R276) -/

theorem startRst_absent {sk wn o sp : Nat} {w : List Nat} (hc : x.w 1 = controlWord 5 sk 1 0) (hs : sk < 2) (hn : n < 2 ^ 40) (hlen : x.len = n)
    (hland : x.land = 2 ^ 63) (haux : x.aux = 0) (hxl : xlat s c asid x.dst = .win wn w o sp) (htgt : winTgt w ≠ 2)
    (hr : hasRight (winRights w) rW = true) (hsp : n ≤ sp) (hread : endRead s x c asid sk x.src 0 n = .ok (b, t)) :
    startRst s c asid x = .ok ({ x with count := n }, combStore t c wn w x.dst b none) := by
  obtain ⟨-, hsk, hdk, hsf, hdf, hrnd, hmask, hred, harg⟩ := controlWord_fields hc (by decide) hs (by decide) (by decide)
  obtain ⟨hlow, hhigh⟩ := length_whole hn
  have fits : (!hasRight (winRights w) rW || decide (n > sp)) = false := by simp [hr, hsp]
  simp only [startRst, hlen, hlow, hhigh, hsk, hdk, hsf, hdf, hrnd, hmask, hred, harg, haux, hland, kind_two_pow, hxl, htgt, fits, if_false,
    Bool.false_eq_true, eresBind_ok, hread]
  rfl

section

variable {dk : Nat} {r : XRes} (hc : x.w 1 = controlWord 6 1 dk 0) (hd : dk < 2) (hn : n < 2 ^ 40) (hlen : x.len = n) (hland : x.land = 2 ^ 63)
  (haux : x.aux = 0) (hsplit : xsplit s c asid (n + 1) x.src 0 n = [(x.src, 0, n, r)]) (hcheck : endCheck s x c asid dk x.dst 0 n = .ok ())

/-- The buffered lines of an `rld`'s source leave (R276). -/
def rldFlushed (s : State) (c : Nat) (x : Cmd) (n : Nat) : State :=
  flushComb s c fun y => n != 0 && x.src / 128 ≤ y.line && y.line ≤ (x.src + n - 1) / 128

include hc hd hn hlen hland haux hsplit hcheck

theorem startRld_local {pa kd rt sp : Nat} {y z : Bool} (hloc : r = .loc pa kd rt sp y z) (hv : kd ≠ kVERSIONED) (hct : kd ≠ kCOUNTER)
    (hr : hasRight rt rR = true) (hread : engRead (rldFlushed s c x n) c asid x.src [(pa, n)] = .ok (b, u)) :
    startRld s c asid x = .ok ({ x with pieces := x.pieces ++ piecesOf u c dk x.dst 0 b none }, pbcPieces u c (piecesOf u c dk x.dst 0 b none)) := by
  obtain ⟨-, hsk, hdk, hsf, hdf, hrnd, hmask, hred, harg⟩ := controlWord_fields hc (by decide) (by decide) hd (by decide)
  obtain ⟨hlow, hhigh⟩ := length_whole hn
  have parts : rldParts s c asid x n = .ok [(x.src, 0, n, r)] := by
    simp [rldParts, hsplit, hloc, hv, hct, hr]
  subst hloc
  simp only [startRld, hlen, hlow, hhigh, hsk, hdk, hsf, hdf, hrnd, hmask, hred, harg, haux, landName_absent hland, check_none, parts, hcheck,
    eresBind_ok, List.foldl_cons, List.foldl_nil]
  rw [rldFlushed] at hread
  simp only [hread, eresBind_ok]
  rfl

theorem startRld_window {wn o sp : Nat} {w : List Nat} (hwin : r = .win wn w o sp) (htgt : winTgt w = 0) (hr : hasRight (winRights w) rR = true)
    (hsp : n ≤ sp) (h0 : 0 < n) (hline : x.src % 128 + n ≤ 128) :
    let l := newTag (rldFlushed s c x n) ⟨2, c, x.id, n, none⟩
    startRld s c asid x = .ok ({ x with pieces := x.pieces ++ piecesOf l.2 c dk x.dst 0 (List.replicate n 0) (some l.1) },
      coreSend l.2 c (winRequest l.2 w x.src o 0x02 (n - 1) n l.1 [])) := by
  obtain ⟨-, hsk, hdk, hsf, hdf, hrnd, hmask, hred, harg⟩ := controlWord_fields hc (by decide) (by decide) hd (by decide)
  obtain ⟨hlow, hhigh⟩ := length_whole hn
  have parts : rldParts s c asid x n = .ok [(x.src, 0, n, r)] := by
    simp [rldParts, hsplit, hwin, htgt, hr, hsp]
  have one : cutLines 128 (n + 1) x.src (List.replicate n 0) = [(x.src, List.replicate n 0)] :=
    cutLines_one (by simpa using Nat.ne_of_gt h0) (by simpa using hline)
  subst hwin
  simp only [startRld, hlen, hlow, hhigh, hsk, hdk, hsf, hdf, hrnd, hmask, hred, harg, haux, landName_absent hland, check_none, parts, hcheck,
    eresBind_ok, List.foldl_cons, List.foldl_nil, one, List.length_replicate, Nat.sub_self, Nat.add_zero]
  rfl

end

end Sys2Proof.Proofs
end

section
/-! PROOFS. The confidential copy (R284, R407 to R409): the checks of its start in their order, decryption, the handle at its end; and the pieces
of the engine commands together. -/

namespace Sys2Proof.Proofs

open Sys2Proof Sys2Proof.Machine

variable {s t : State} {c i n asid h : Nat} {e : Bool} {x : Cmd}

/-! ## The checks of its start -/

/-- What a `ccpy` with a good record does from the contents of its key slot on (R407). -/
def ccpyFrom (s : State) (c asid : Nat) (x : Cmd) (slotNo h : Nat) (e : Bool) : Option KeySlot → Eres (Cmd × State)
  | none => .bad 0x01
  | some k =>
    if k.valid = false then .bad 0x01 else if k.asid ≠ asid then .bad 0x04 else
    (engWord s x c asid x.dst 0 (bits x.len 39 0)).bind fun en =>
    if en.shadow = true then .bad 0x02 else if x.aux ≤ k.lastCtr then .bad 0x09
    else .ok (runCcpy (setHeld s c (bits x.dst 63 56) 1) c asid x slotNo k.key.toNat k.salt.toNat h e)

theorem startCcpy_eq {ix : Nat} (hix : ix < 1024) (hc : x.w 1 = controlWord 0x0B 1 0 0) (hdrop : x.drop = 0) (hn : n < 2 ^ 40) (hlen : x.len = n)
    (hland : x.land = 2 ^ 63) (hslot : x.w 8 = ix * 2 ^ 48) (h1 : 1 ≤ n) (hsz : n ≤ (handle (coreAt s c) (bits x.dst 63 56)).size) :
    startCcpy s c asid x h e = ccpyFrom s c asid x (dieOf c * 1024 + ix) h e (spFind s.sec.slots (dieOf c * 1024 + ix)) := by
  obtain ⟨-, hsk, hdk, hsf, hdf, hrnd, hmask, hred, harg⟩ := controlWord_fields hc (by decide) (by decide) (by decide) (by decide)
  obtain ⟨hlow, hhigh⟩ := length_whole hn
  obtain ⟨hsl, hz⟩ : bits (x.w 8) 63 48 = ix ∧ bits (x.w 8) 47 0 = 0 := by
    simp only [bits, hslot]
    omega
  have good : (x.sk == 1 && x.dk == 0 && x.sfmt == 0 && x.dfmt == 0 && x.rnd == 0 && x.mask == 0 && x.red == 0 && bits x.arg 31 1 == 0 &&
      decide (n ≥ 1) && bits n 63 40 == 0 && bits (x.w 8) 47 0 == 0 && decide (ix < 1024) &&
      (!(handle (coreAt s c) (bits x.dst 63 56)).valid || decide (n ≤ (handle (coreAt s c) (bits x.dst 63 56)).size))) = true := by
    have noArg : bits x.arg 31 1 = 0 := by rw [harg]; rfl
    simp [hsk, hdk, hsf, hdf, hrnd, hmask, hred, noArg, h1, hhigh, hz, hix, hsz]
  simp only [startCcpy, hdrop, hlen, hlow, hsl, landName_absent hland, check_none]
  rw [if_neg (by decide), good, need_true]
  cases spFind s.sec.slots (dieOf c * 1024 + ix) with
  | none => rfl
  | some k => simp only [ccpyFrom, hlen, hlow, Bool.not_eq_true', bne_iff_ne]

/-- Only the copy, gather and scatter engines reach SHADOW handles (R55, R261). -/
theorem shadow_of_engWord {en : HEnt} {w off : Nat} (hsh : x.reachesShadow = false) (hen : engWord s x c asid w off n = .ok en) : en.shadow = false := by
  unfold engWord at hen
  split at hen
  next => exact nomatch hen
  next =>
    simp only [engHandle] at hen
    split at hen
    next => exact nomatch hen
    next hgood =>
      split at hen
      next => exact nomatch hen
      next =>
        cases hen
        simp only [hsh, Bool.not_false, Bool.and_true, Bool.or_eq_true, not_or] at hgood
        obtain ⟨⟨⟨-, hshadow⟩, -⟩, -⟩ := hgood
        exact Bool.eq_false_iff.mpr hshadow

section

variable {k : KeySlot} {no : Nat} (hv : k.valid = true)

theorem ccpyFrom_erased (hv : k.valid = false) : ccpyFrom s c asid x no h e (some k) = .stop (.bad 0x01) := if_pos hv

include hv

theorem ccpyFrom_foreign (ha : k.asid ≠ asid) : ccpyFrom s c asid x no h e (some k) = .stop (.bad 0x04) := by
  rw [ccpyFrom, if_neg (fun hno => Bool.false_ne_true (hno.symm.trans hv)), if_pos ha]
  rfl

variable (ha : k.asid = asid) (hlow : bits x.len 39 0 = n)
include ha hlow

theorem ccpyFrom_own : ccpyFrom s c asid x no h e (some k) = (engWord s x c asid x.dst 0 n).bind fun en =>
    if en.shadow = true then .bad 0x02 else if x.aux ≤ k.lastCtr then .bad 0x09
    else .ok (runCcpy (setHeld s c (bits x.dst 63 56) 1) c asid x no k.key.toNat k.salt.toNat h e) := by
  rw [ccpyFrom, if_neg (fun hno => Bool.false_ne_true (hno.symm.trans hv)), if_neg (not_not_intro ha), hlow]

theorem ccpyFrom_noHandle {f : Stop} (hf : engWord s x c asid x.dst 0 n = .stop f) :
    ccpyFrom s c asid x no h e (some k) = .stop f := by
  rw [ccpyFrom_own hv ha hlow, hf, eresBind_stop]

variable {en : HEnt} (hen : engWord s x c asid x.dst 0 n = .ok en) (hsh : x.reachesShadow = false)
include hen hsh

theorem ccpyFrom_reused (hctr : x.aux ≤ k.lastCtr) : ccpyFrom s c asid x no h e (some k) = .stop (.bad 0x09) := by
  rw [ccpyFrom_own hv ha hlow, hen, eresBind_ok, if_neg (Bool.eq_false_iff.mp (shadow_of_engWord hsh hen)), if_pos hctr]
  rfl

theorem ccpyFrom_runs (hctr : k.lastCtr < x.aux) : ccpyFrom s c asid x no h e (some k) =
    .ok (runCcpy (setHeld s c (bits x.dst 63 56) 1) c asid x no k.key.toNat k.salt.toNat h e) := by
  rw [ccpyFrom_own hv ha hlow, hen, eresBind_ok, if_neg (Bool.eq_false_iff.mp (shadow_of_engWord hsh hen)), if_neg (Nat.not_le.mpr hctr)]

end

/-! ## Decryption (R407) -/

/-- A hold on a handle is no part of its table entry (R408). -/
theorem handle_gen_setHeld (hn v m : Nat) : (handle (coreAt (setHeld s c hn v) c) m).gen = (handle (coreAt s c) m).gen := by
  rw [setHeld, coreAt_modCore_same]
  rfl

section

variable {slotNo key salt : Nat} {b : List Byte} (harg : x.arg = 0) (hn : n < 2 ^ 40) (hlen : x.len = n)
  (hread : endRead s x c asid 1 x.src 0 (n + 16) = .ok (b, t))
include harg hn hlen hread

theorem runCcpy_wrongTag (htag : gcmTag (aesKeys (beBytes key 32)) (beBytes salt 4 ++ beBytes x.aux 8) ((b.take n).map BitVec.toNat) ≠
      (b.drop n).map BitVec.toNat) :
    runCcpy s c asid x slotNo key salt h e = ({ x with code := 0x08, prog := [slotNo, x.aux, 1] }, t) := by
  simp only [runCcpy, harg, bit_zero, hlen, (length_whole hn).1, hread, bne_iff_ne, ne_eq, htag, Bool.false_eq_true, if_false, not_false_eq_true, if_true]

theorem runCcpy_rightTag (htag : gcmTag (aesKeys (beBytes key 32)) (beBytes salt 4 ++ beBytes x.aux 8) ((b.take n).map BitVec.toNat) =
      (b.drop n).map BitVec.toNat) :
    runCcpy s c asid x slotNo key salt h e = ({ x with
      prog := [slotNo, x.aux, 0]
      pieces := [⟨c, false, bits x.dst 63 56, (handle (coreAt s c) (bits x.dst 63 56)).gen, bits x.dst 31 0,
        (gcmText (aesKeys (beBytes key 32)) (beBytes salt 4 ++ beBytes x.aux 8) ((b.take n).map BitVec.toNat)).map (BitVec.ofNat 8), none, 0⟩] }, t) := by
  simp only [runCcpy, harg, bit_zero, hlen, (length_whole hn).1, hread, htag, bne_self_eq_false, Bool.false_eq_true, if_false]

end

/-! ## The end of a `ccpy` (R407 to R409) -/

theorem exec_complete_ccpy (hx : cmdAt s c i = some x) (hst : x.started = true) (hpark : x.parked = none) (hp : x.pieces = []) (hw : x.waits = [])
    (hop : x.op = 0x0B) : exec (.engineCommandComplete c i n) s =
    .next (finishCmd (endCcpy s c x) c (if x.code = 0 then x else { x with count := 0 })) := by
  simp only [exec_engineCommandComplete, execEngineCommandComplete, hx, hst, hpark, hp, hw, hop]
  rfl

theorem endCcpy_ok (hheld : spGet 0 (coreAt s c).m.hheld (bits x.dst 63 56) = 1) (hcode : x.code = 0) (hprog : x.prog.getD 2 0 ≠ 1) :
    endCcpy s c x = setHeld s c (bits x.dst 63 56) 3 := by
  simp only [endCcpy, hheld, bne_self_eq_false, Bool.false_eq_true, if_false, hprog, hcode, if_true]

theorem endCcpy_failed (hheld : spGet 0 (coreAt s c).m.hheld (bits x.dst 63 56) = 1) (hprog : x.prog.getD 2 0 = 1)
    (hv : (handle (coreAt s c) (bits x.dst 63 56)).valid = true) :
    endCcpy s c x = setHeld (hWrite s c (handle (coreAt s c) (bits x.dst 63 56)) 0
      (List.replicate (handle (coreAt s c) (bits x.dst 63 56)).size 0)) c (bits x.dst 63 56) 2 := by
  simp only [endCcpy, hheld, bne_self_eq_false, Bool.false_eq_true, if_false, hprog, hv, if_true]

/-! ## The obligation -/

/-- Settles O34: the layout of pieces, rows, each start by its checks in order, and the end of a ccpy. -/
theorem enginePieces : Obligations.EnginePieces := by
  unfold Obligations.EnginePieces
  refine ⟨?layout, ?rows, ?starts, ?ends⟩
  case layout =>
    intro s c w off b tag k hk l
    simp only [List.mem_cons, List.not_mem_nil, or_false] at hk
    rcases hk with rfl | rfl
    · obtain ⟨hdata, hline, hplace⟩ : LaidOut 512 (bits w 31 0 + off) b l := piecesOf_handle_laidOut
      refine ⟨hdata, fun q hq => ?_, hplace⟩
      obtain ⟨hcore, hva, htag, hh, hgen⟩ := piecesOf_handle_place q hq
      exact ⟨hcore, hva, htag, hline q hq, fun _ => ⟨hh, hgen⟩⟩
    · obtain ⟨hdata, hline, hplace⟩ : LaidOut 128 (w + off) b l := piecesOf_memory_laidOut
      refine ⟨hdata, fun q hq => ?_, hplace⟩
      obtain ⟨hcore, hva, htag⟩ := piecesOf_memory_place q hq
      exact ⟨hcore, hva, htag, hline q hq, fun h => absurd h Nat.one_ne_zero⟩
  case rows =>
    intro s c i n x hx hst hpark hop hp hw hcode hrow asid j rowb idx
    refine ⟨fun f hf => exec_complete_rowFails hx hst hpark hp hw hop hcode hrow (gatRow_noIndex hf), fun k t hk e he hxe b u hread hcheck => ?_⟩
    refine exec_complete_row hx hst hpark hp hw hop hcode hrow (gatRow_ok hk ?_ ?_ hread hcheck)
    all_goals
      simp only [List.mem_cons, List.not_mem_nil, or_false] at he
      rcases he with rfl | rfl <;> simp only [hxe] <;> rfl
  case starts =>
    intro s c asid h n e x hdrop hdone hn hlen ctl
    have plain {op sk dk mask : Nat} (hc : ctl op sk dk mask) (hop : op < 64) (hs : sk < 2) (hd : dk < 2) (hm : mask < 16)
        (hland : nameBadRec x.land = false) : recOk x = true := by
      obtain ⟨rfl, hc⟩ := hc
      exact recOk_plain hc hop hs hd hm hdone hland
    have noLanding (hland : x.land = 2 ^ 63) : nameBadRec x.land = false := by rw [hland]; exact nameBadRec_two_pow
    refine ⟨?mcast, ?rst, ?rld, ?ccpy⟩
    case mcast =>
      intro mask b t hc h0 hm hland haux hread at_ hconf
      obtain ⟨rfl, -, -⟩ := endRead_handle hread
      obtain ⟨-, startsMcast, -⟩ := startRec_ofOp (s := t) (c := c) (asid := asid) (h := h) (e := e) (fun _ => hdrop)
        (plain hc (by decide) (by decide) (by decide) hm (nameBadRec_file hland)) hdone
      obtain ⟨-, -, -, -, -, -, hmask, -⟩ := controlWord_fields hc.2 (by decide) (by decide) (by decide) hm
      refine ⟨(mcastSetOut t c asid x n b).1, (mcastSetOut t c asid x n b).2, (startsMcast hc.1).trans (startMcast_plain hc.2 h0 hm hn hlen hland haux hread hconf), rfl, fun i hi => ?_, fun i hi => ?_⟩
      · rw [mcastSetOut_drop, bit_droppedCores hi, hmask, Bool.and_eq_true, Bool.not_eq_true', Bool.eq_false_iff, ne_eq, reaches_iff, not_exists]
      · rw [mcastSetOut_drop, mcastSetOut_pieces_filter, ← hmask]
        simp only [mem_goodCores hi]
    case rst =>
      intro sk w wn o sp b t hs hc hland haux hxl htgt hr hsp hread
      obtain ⟨-, -, startsRst, -⟩ := startRec_ofOp (s := s) (c := c) (asid := asid) (h := h) (e := e) (fun _ => hdrop)
        (plain hc (by decide) hs (by decide) (by decide) (noLanding hland)) hdone
      exact (startsRst hc.1).trans (startRst_absent hc.2 hs hn hlen hland haux hxl htgt hr hsp hread)
    case rld =>
      intro dk r hd hc hland haux hsplit hcheck t
      obtain ⟨-, -, -, startsRld, -⟩ := startRec_ofOp (s := s) (c := c) (asid := asid) (h := h) (e := e) (fun _ => hdrop)
        (plain hc (by decide) (by decide) hd (by decide) (noLanding hland)) hdone
      refine ⟨fun pa kd rt sp y z b u hloc hv hct hr hread => (startsRld hc.1).trans ?_, fun wn w o sp hwin htgt hr hsp h0 hline => (startsRld hc.1).trans ?_⟩
      · exact startRld_local hc.2 hd hn hlen hland haux hsplit hcheck hloc hv hct hr hread
      · exact startRld_window hc.2 hd hn hlen hland haux hsplit hcheck hwin htgt hr hsp h0 hline
    case ccpy =>
      intro ix hix hc hland hslot h1 hsz no hn'
      obtain ⟨-, -, -, -, startsCcpy⟩ := startRec_ofOp (s := s) (c := c) (asid := asid) (h := h) (e := e) (fun _ => hdrop)
        (plain hc (by decide) (by decide) (by decide) (by decide) (noLanding hland)) hdone
      have start {o : Option KeySlot} (ho : spFind s.sec.slots no = o) : startRec s c asid x h e = ccpyFrom s c asid x no h e o :=
        ho ▸ (startsCcpy hc.1).trans (startCcpy_eq hix hc.2 hdrop hn hlen hland hslot h1 hsz)
      have hlow : bits x.len 39 0 = n := hlen ▸ (length_whole hn).1
      have noShadow : x.reachesShadow = false := by rw [Cmd.reachesShadow, hc.1]; rfl
      obtain ⟨-, -, -, -, -, -, -, -, harg⟩ := controlWord_fields hc.2 (by decide) (by decide) (by decide) (by decide)
      refine ⟨start, fun k hk => ?_⟩
      rw [start hk]
      refine ⟨ccpyFrom_erased, ccpyFrom_foreign, fun f hv ha hf => ccpyFrom_noHandle hv ha hlow hf,
        fun en hv ha hen hctr => ccpyFrom_reused hv ha hlow hen noShadow hctr, fun en b t hv ha hen hctr hread => ?_⟩
      rw [ccpyFrom_runs hv ha hlow hen noShadow hctr, ← handle_gen_setHeld (bits x.dst 63 56) 1]
      exact ⟨fun htag => congrArg Eres.ok (runCcpy_wrongTag harg hn hlen hread htag),
        fun htag => congrArg Eres.ok (runCcpy_rightTag harg hn hlen hread htag)⟩
  case ends =>
    intro s c i n x hx hst hpark hop hp hw hn e hheld
    have ends := exec_complete_ccpy (n := n) hx hst hpark hp hw hop
    refine ⟨fun hcode hprog => ?_, fun hcode hprog hv => ?_⟩
    · rw [ends, endCcpy_ok hheld hcode hprog, if_pos hcode]
    · rw [ends, endCcpy_failed hheld hprog hv, if_neg hcode]

end Sys2Proof.Proofs
end

section
/-! PROOFS. Transfers of a collective (R280, R281), claims of a dispatch (R282, R283), retries and time-outs of a reduction (R277, R386), and deferred
traps (R265). -/

namespace Sys2Proof.Proofs

open Sys2Proof Sys2Proof.Machine

variable {s t u : State} {c i : Nat} {x : Cmd} {b : List Byte}

/-! ## Writes through windows -/

/-- A window that a row or transfer up to a place may be written through (R281, R283, R361). -/
def OpenTo (w : List Nat) (span : Nat) : Prop :=
  winLive w = true ∧ winTgt w = 1 ∧ winKey w ≠ 0 ∧ hasRight (winRights w) rW = true ∧ (winSize w = 0 ∨ span ≤ winSize w)

theorem openTo_rights {w : List Nat} {span : Nat} (h : OpenTo w span) :
    (!winLive w || winTgt w != 1 || decide (winKey w = 0) || !hasRight (winRights w) rW) = false := by
  obtain ⟨hlive, htgt, hkey, hright, -⟩ := h
  simp [hlive, htgt, hkey, hright]

theorem openTo_fits {w : List Nat} {span : Nat} (h : OpenTo w span) : (winSize w = 0) ∨ (span > winSize w) = False := by
  obtain ⟨-, -, -, -, hsize⟩ := h
  exact hsize.imp_right fun hfits => eq_false (Nat.not_lt.mpr hfits)

/-- The landing counter that the writes of a `coll` or `disp` name, where they name one (R280, R282). -/
def landingOf (x : Cmd) : Option Word := if bits x.land 63 62 = 0 then some (BitVec.ofNat 64 x.land) else none

/-- Bytes sent through a window from an offset on, line by line of the target (R281, R283). -/
def sentTo (s : State) (c : Nat) (x : Cmd) (w : List Nat) (dst : Nat) (b : List Byte) : State :=
  sendLines s c x.tok w dst (landingOf x) ((cutLines 128 (b.length + 1) (winBase w + dst) b).map fun e => (e.1 - (winBase w + dst), e.2, e.2.length))

/-! ## Collectives (R281) -/

/-- The sum over the levels of iteration number times a stride of the record (R281). -/
def strideSum (x : Cmd) (k off n : Nat) : Int :=
  ((collIter k (collBounds x)).zipIdx.map fun e => sextN (8 * n) (leNat (slice (collLevel x e.2) off n)) * (e.1 : Int)).sum

/-- The place in the peer table of a transfer's peer (R281). -/
def peerPlace (x : Cmd) (k : Nat) : Nat :=
  ((strideSum x k 24 2 + ((upTo (bits x.arg 31 29)).map fun l => sextN 16 (leNat (slice (collLevel x l) 26 2))).sum) %
    (bits x.len 63 48 : Int)).toNat

/-- The bytes of a transfer (R280). -/
def chunkOf (x : Cmd) : Nat := leNat (slice (collLevel x (bits x.arg 31 29 - 1)) 0 4)

section

variable (hx : cmdAt s c i = some x)
include hx

theorem exec_coll_over (hk : collTotal x ≤ x.prog.getD 0 0) : exec (.collTransfer c i) s = .next s := by
  have past : decide (x.prog.getD 0 0 ≥ collTotal x) = true := decide_eq_true hk
  simp only [exec_collTransfer, execCollTransfer, hx, past, Bool.or_true, Bool.true_or, if_true]

variable (hop : x.op = 0x09) (hst : x.started = true) (hpark : x.parked = none) (hcode : x.code = 0) (hprog : x.prog ≠ [])
  (hstop : (coreAt s c).q.stopped = false) (hhalt : (coreAt s c).halted = false) (hk : x.prog.getD 0 0 < collTotal x)
include hop hst hpark hcode hprog hstop hhalt hk

omit hx in
theorem collGoes : (x.op != 9 || !x.started || x.parked.isSome || x.code != 0 || x.prog.isEmpty || decide (x.prog.getD 0 0 ≥ collTotal x) ||
    (coreAt s c).q.stopped || (coreAt s c).halted) = false := by
  rw [decide_eq_false (Nat.not_le.mpr hk)]
  simp [hop, hst, hpark, hcode, hprog, hstop, hhalt]

theorem exec_coll_waits (hchan : bit x.arg 28 = true) (hd : collDepth x < x.prog.getD 0 0 + 1)
    (hct : ctrReached (ctGet (coreAt s c) (bits x.arg 21 13)) (x.prog.getD 0 0 + 1 - collDepth x) = false) :
    exec (.collTransfer c i) s = .next (engWait s c x) := by
  have goes := collGoes hop hst hpark hcode hprog hstop hhalt hk
  simp only [exec_collTransfer, execCollTransfer, hx, goes, hchan, hct, decide_eq_true hd, Bool.false_eq_true, if_false, Bool.and_false, Bool.not_false,
    Bool.and_true, gt_iff_lt, if_true]

theorem exec_coll_sends {pe : List Byte} {dst : Int} (hchan : bit x.arg 28 = false) (hdst : dst = (x.dst : Int) + strideSum x (x.prog.getD 0 0) 16 8)
    (hpe : endRead s x c (asidOf (coreAt s c)) 0 x.aux (2 * peerPlace x (x.prog.getD 0 0)) 2 = .ok (pe, t)) (hwn : leNat pe < 4096) (h0 : 0 ≤ dst)
    (hopen : OpenTo (winWords t (asidOf (coreAt s c)) (leNat pe)) (dst.toNat + chunkOf x))
    (hread : endRead t x c (asidOf (coreAt s c)) x.sk ((((x.src : Int) + strideSum x (x.prog.getD 0 0) 8 8) % 2 ^ 64).toNat) 0 (chunkOf x) = .ok (b, u))
    (hlen : b.length = chunkOf x) :
    exec (.collTransfer c i) s = .next (modCmd (sentTo u c x (winWords t (asidOf (coreAt s c)) (leNat pe)) dst.toNat b) c x.id fun y =>
      { y with prog := [x.prog.getD 0 0 + 1], count := y.count + 1, reg := false, poll := 0, ivl := 0 }) := by
  have goes := collGoes hop hst hpark hcode hprog hstop hhalt hk
  have hmay := openTo_rights hopen
  have hsize := openTo_fits hopen
  simp only [strideSum, peerPlace, chunkOf] at hdst hpe hread hlen hsize
  simp only [exec_collTransfer, execCollTransfer, hx, goes, hchan, Bool.false_eq_true, if_false, Bool.false_and, hpe, ← hdst, Nat.mod_eq_of_lt hwn,
    ge_iff_le, Nat.not_le.mpr hwn, hmay, decide_eq_false (Int.not_lt.mpr h0), Bool.or_false, Bool.false_or, hread]
  rw [sentTo, hlen]
  rcases hsize with hsize | hsize <;>
    simp only [hsize, bne_self_eq_false, Bool.false_and, decide_false, Bool.and_false, Bool.false_eq_true, if_false] <;> rfl

end

/-! ## Dispatch (R283) -/

section

variable (hx : cmdAt s c i = some x)
include hx

theorem exec_disp_idle (hidle : bits (x.w 4) 43 24 ≤ x.prog.getD 0 0 ∨ x.prog.getD 2 0 = 1) : exec (.dispClaim c i) s = .next s := by
  have idle : (decide (x.prog.getD 0 0 ≥ bits (x.w 4) 43 24) || decide (x.prog.getD 2 0 = 1)) = true := by
    simpa only [Bool.or_eq_true, decide_eq_true_eq] using hidle
  have idles : (x.op != 0x0A || !x.started || x.parked.isSome || x.code != 0 || x.prog.isEmpty || decide (x.prog.getD 0 0 ≥ bits (x.w 4) 43 24) ||
      decide (x.prog.getD 2 0 = 1) || (coreAt s c).q.stopped || (coreAt s c).halted) = true := by
    rw [Bool.or_assoc _ (decide _) (decide _), idle, Bool.or_true]
    rfl
  simp only [exec_dispClaim, execDispClaim, hx, idles, if_true]

variable (hop : x.op = 0x0A) (hst : x.started = true) (hpark : x.parked = none) (hcode : x.code = 0) (hprog : x.prog ≠ [])
  (hstop : (coreAt s c).q.stopped = false) (hhalt : (coreAt s c).halted = false) (ht : x.prog.getD 0 0 < bits (x.w 4) 43 24)
include hop hst hpark hcode hprog hstop hhalt ht

omit hx in
theorem dispGoes {v : Nat} (hv : x.prog.getD 2 0 = v) (h1 : v ≠ 1) :
    (x.op != 0x0A || !x.started || x.parked.isSome || x.code != 0 || x.prog.isEmpty || decide (x.prog.getD 0 0 ≥ bits (x.w 4) 43 24) ||
      decide (x.prog.getD 2 0 = 1) || (coreAt s c).q.stopped || (coreAt s c).halted) = false := by
  rw [decide_eq_false (Nat.not_le.mpr ht), hv, decide_eq_false h1]
  simp [hop, hst, hpark, hcode, hprog, hstop, hhalt]

/-- The fuel of the choices that a claim may move on over (R283). -/
def dispFuel (x : Cmd) : Nat := (bits (x.w 4) 43 24 + 1) * (bits (x.w 4) 7 4 + 1)

theorem exec_disp_first (h0 : x.prog.getD 2 0 = 0) : exec (.dispClaim c i) s = .next (dispNext (dispFuel x) s c x) := by
  have goes := dispGoes hop hst hpark hcode hprog hstop hhalt ht h0 (by decide)
  simp only [exec_dispClaim, execDispClaim, hx, goes, Bool.false_eq_true, if_false]
  simp only [h0, if_true]
  rfl

variable {ch : List Byte} {wn cap off cl : Nat} (h2 : x.prog.getD 2 0 = 2)
  (hch : endRead s x c (asidOf (coreAt s c)) 0 (x.w 3) (8 * (x.prog.getD 0 0 * bits (x.w 4) 7 4 + x.prog.getD 1 0)) 8 = .ok (ch, t))
  (hexp : dispExpert s c (asidOf (coreAt s c)) x (bits (leNat ch) 63 48) = .ok (wn, cap, off, cl))
include h2 hch hexp

theorem exec_disp_full (hcap : cap ≤ x.prog.getD 3 0) : exec (.dispClaim c i) s =
    .next (dispNext (dispFuel x) s c { x with prog := (x.prog.set 2 0).set 1 (x.prog.getD 1 0 + 1) }) := by
  have goes := dispGoes hop hst hpark hcode hprog hstop hhalt ht h2 (by decide)
  simp only [exec_dispClaim, execDispClaim, hx, goes, Bool.false_eq_true, if_false]
  simp only [h2, OfNat.ofNat_ne_zero, if_false, hch, hexp, ge_iff_le, hcap, if_true]
  rfl

/-- The header of a row: id, expert, rank, choice entry, and where it comes from (R283). -/
def dispHeader (x : Cmd) (ch : List Byte) (pkg c : Nat) : List Byte :=
  toBytes (x.w 9 + x.prog.getD 0 0) 4 ++ toBytes (bits (leNat ch) 63 48) 2 ++ toBytes (x.prog.getD 1 0) 1 ++ toBytes 0 1 ++ toBytes (leNat ch) 4 ++
    toBytes pkg 2 ++ toBytes c 2

omit hx hop hst hpark hcode hprog hstop hhalt ht h2 hch hexp in
theorem length_dispHeader (pkg : Nat) : (dispHeader x ch pkg c).length = 16 := by
  simp only [dispHeader, List.length_append, length_toBytes]

theorem exec_disp_sends (hcap : x.prog.getD 3 0 < cap)
    (hopen : OpenTo (winWords s (asidOf (coreAt s c)) wn) (off + x.prog.getD 3 0 * (16 + bits (x.w 4) 63 44) + 16 + bits (x.w 4) 63 44))
    (hrow : endRead s x c (asidOf (coreAt s c)) x.sk (x.w 2) (x.prog.getD 0 0 * bits (x.w 4) 63 44) (bits (x.w 4) 63 44) = .ok (b, u))
    (hlen : b.length = bits (x.w 4) 63 44) :
    exec (.dispClaim c i) s = .next (dispNext (dispFuel x)
      (sentTo u c x (winWords s (asidOf (coreAt s c)) wn) (off + x.prog.getD 3 0 * (16 + bits (x.w 4) 63 44)) (dispHeader x ch (pkgNo u) c ++ b)) c
      { x with
        prog := (((x.prog.set 2 0).set 0 (x.prog.getD 0 0 + 1)).set 1 0).set (5 + x.prog.getD 1 0) (x.prog.getD (5 + x.prog.getD 1 0) 0 + 1)
        count := x.count + 1 }) := by
  have goes := dispGoes hop hst hpark hcode hprog hstop hhalt ht h2 (by decide)
  have hmay := openTo_rights hopen
  have ranks : (x.prog.set 2 0).getD (5 + x.prog.getD 1 0) 0 = x.prog.getD (5 + x.prog.getD 1 0) 0 := by
    have apart : 2 ≠ 5 + x.prog.getD 1 0 := by omega
    rw [List.getD_eq_getElem?_getD, List.getElem?_set_ne apart, ← List.getD_eq_getElem?_getD]
  have bytes : (dispHeader x ch (pkgNo u) c ++ b).length = bits (x.w 4) 63 44 + 16 := by
    rw [List.length_append, length_dispHeader, hlen, Nat.add_comm]
  simp only [exec_dispClaim, execDispClaim, hx, goes, Bool.false_eq_true, if_false]
  simp only [h2, OfNat.ofNat_ne_zero, hch, hexp, ge_iff_le, Nat.not_le.mpr hcap, hmay, if_false, Bool.false_or, hrow, ranks]
  rw [sentTo, bytes]
  rcases openTo_fits hopen with hsize | hsize <;>
    simp only [hsize, bne_self_eq_false, Bool.false_and, decide_false, Bool.and_false, Bool.false_eq_true, if_false] <;> rfl

end

/-! ## Reductions (R277, R386) -/

/-- An `rred` whose back-off is over, with the next one doubled (R386). -/
def backedOff (s : State) (c : Nat) (x : Cmd) : State :=
  modCmd s c x.id fun y => { y with prog := (y.prog.set 2 0).set 3 (min 64 (2 * y.prog.getD 3 1)) }

section

variable (hx : cmdAt s c i = some x)
include hx

theorem exec_retry_early (hback : x.prog.getD 2 0 = 0 ∨ s.dev < x.prog.getD 2 0) : exec (.rredRetry c i) s = .next s := by
  have early : (x.prog.getD 2 0 != 0 && decide (x.prog.getD 2 0 ≤ s.dev)) = false := by
    rcases hback with h0 | hlt
    · rw [h0]; rfl
    · rw [decide_eq_false (Nat.not_le.mpr hlt), Bool.and_false]
  simp only [exec_rredRetry, execRredRetry, hx, Bool.and_assoc, early, Bool.and_false, Bool.false_eq_true, if_false]

theorem exec_timeout_early (hearly : s.dev < x.prog.getD 1 0) : exec (.rredTimeout c i) s = .next s := by
  simp only [exec_rredTimeout, execRredTimeout, hx, decide_eq_false (Nat.not_le.mpr hearly), Bool.and_false, Bool.false_eq_true, if_false]

variable (hop : x.op = 0x07) (hst : x.started = true) (hdrop : x.drop = 0)
include hop hst hdrop

theorem exec_timeout_ends (hprog : x.prog ≠ []) (hlate : x.prog.getD 1 0 ≤ s.dev) : exec (.rredTimeout c i) s =
    .next (modCmd (pbcDone s c x.pieces) c x.id fun y => { y with code := 0x0C, drop := 1, waits := [], pieces := [] }) := by
  have ends : (decide (x.op = 7) && x.started && decide (x.drop = 0) && !x.prog.isEmpty && decide (x.prog.getD 1 0 ≤ s.dev)) = true := by
    rw [decide_eq_true hlate]
    simp [hop, hst, hdrop, hprog]
  simp only [exec_rredTimeout, execRredTimeout, hx, ends, if_true]

variable (hpark : x.parked = none) (hb : x.prog.getD 2 0 ≠ 0) (hlate : x.prog.getD 2 0 ≤ s.dev)
include hpark hb hlate

theorem exec_retry_again : exec (.rredRetry c i) s = .next (rredAgain (backedOff s c x) c x) := by
  have goes : (decide (x.op = 7) && x.started && x.parked.isNone && decide (x.drop = 0) && x.prog.getD 2 0 != 0 &&
      decide (x.prog.getD 2 0 ≤ s.dev)) = true := by
    rw [decide_eq_true hlate, bne_iff_ne.mpr hb]
    simp [hop, hst, hdrop, hpark]
  simp only [exec_rredRetry, execRredRetry, hx, goes, if_true]
  rfl

end

/-! ## Deferred traps (R265) -/

/-- Settles O33: a transfer, a claim, a retry and a time-out each by what holds it back and by what it does; deferred traps. -/
theorem walkerDispatchAndTimers : Obligations.WalkerDispatchAndTimers := by
  unfold Obligations.WalkerDispatchAndTimers
  refine ⟨?engines, ?reductions, ?traps⟩
  case engines =>
    intro s c i x hx hst hpark hcode hprog hstop hhalt asid good landing send n
    refine ⟨?coll, ?disp⟩
    case coll =>
      intro hop it sum peer chunk dst
      exact ⟨exec_coll_over hx, fun hk => exec_coll_waits hx hop hst hpark hcode hprog hstop hhalt hk,
        fun pe b t u hk hchan hpe hwn h0 hopen hread hlen =>
          exec_coll_sends hx hop hst hpark hcode hprog hstop hhalt hk hchan rfl hpe hwn h0 hopen hread hlen⟩
    case disp =>
      intro hop shape r v rowb fuel
      refine ⟨exec_disp_idle hx, fun ht => exec_disp_first hx hop hst hpark hcode hprog hstop hhalt ht,
        fun ch t wn cap off cl ht h2 hch hexp => ⟨?_, ?_⟩⟩
      · exact exec_disp_full hx hop hst hpark hcode hprog hstop hhalt ht h2 hch hexp
      · exact fun row u hcap hopen hrow hlen => exec_disp_sends hx hop hst hpark hcode hprog hstop hhalt ht h2 hch hexp hcap hopen hrow hlen
  case reductions =>
    intro s c i x hx hop hst hpark hdrop back u
    refine ⟨fun b t hb hlate hread => (exec_retry_again hx hop hst hdrop hpark hb hlate).trans ?_,
      fun f hb hlate hread => (exec_retry_again hx hop hst hdrop hpark hb hlate).trans ?_, exec_retry_early hx,
      exec_timeout_ends hx hop hst hdrop, exec_timeout_early hx⟩
    all_goals
      show Host.Outcome.next (rredAgain u c x) = _
      simp only [rredAgain, hread]
    rfl
  case traps =>
    intro s c f d l hdef k
    refine ⟨fun hrun hbetween hiss => ?_, fun hno => ?_⟩
    · simp [execDeferredTrap, hdef, hrun, hbetween, hiss, k]
    · have held : (!k.q.running || !k.q.between || s.issue.isSome) = true := by
        rcases hno with h | h | h
        · rw [h]; rfl
        · rw [h, Bool.not_false, Bool.or_true, Bool.true_or]
        · rw [Option.isSome_iff_ne_none.mpr h, Bool.or_true]
      simp only [exec_deferredTrap, execDeferredTrap, hdef]
      exact if_pos held

end Sys2Proof.Proofs
end

section
/-! PROOFS. Two engine commands that share a number, and what placing a piece of one of them leaves of the other (R264). -/

namespace Sys2Proof.Proofs

open Sys2Proof Sys2Proof.Machine

/-- A piece of two bytes for the start of handle 7 of core 0. -/
def twoBytes : Piece := { core := 0, isVa := false, h := 7, gen := 1, at_ := 0, data := [1, 2], tag := none, hub := 0 }

/-- A started copy of number 1 with that piece left to place and no landing counter (word 5 of its record is 2^63). -/
def lastPieceCmd : Cmd :=
  { id := 1, seq := 1, op := 1, tok := 2, cons := [], recw := 0x0700000000000000, recGen := 1, x := 0, y := 0, pd := 0, started := true
    recb := toBytes 0 40 ++ toBytes (2 ^ 63) 8, pieces := [twoBytes], code := 0, count := 0, drop := 0, waits := [], parked := none, prog := []
    t0 := 0, gens := [], reg := false, poll := 0, ivl := 0 }

/-- Core 0 with handle 7 in the scratchpad and two commands of number 1: the copy, and one with two pieces left. -/
def sharedNumberCore : Core :=
  { Core.reset with
    m := { Mems.reset with htab := [(7, hentWord ⟨true, false, 1, 64, 512, 15, 0, 1, false⟩)] }
    f := { Flight.reset with cmds := [lastPieceCmd, { lastPieceCmd with pieces := [twoBytes, twoBytes] }] } }

/-- The package at reset but for that core. -/
def sharedNumber : State := { State.reset with cores := [(0, sharedNumberCore)] }

/-- The numbers of pieces left of the commands of core 0. -/
def piecesLeft (o : Out) : List Nat :=
  match o with
  | .next s => (coreAt s 0).f.cmds.map fun y => y.pieces.length
  | _ => []

/-- The model leaves no piece of either command: the one placed is the last of the command chosen, and both have its number. -/
theorem piecesLeft_sharedNumber : piecesLeft (exec (.engineCommandComplete 0 0 0) sharedNumber) = [0, 0] := by decide +kernel

/-- Refutes O32: a command of the same number with two pieces left keeps one by the statement and none by the model. -/
theorem not_engineCommandsComplete : ¬ Obligations.EngineCommandsComplete := by
  unfold Obligations.EngineCommandsComplete
  intro h
  obtain ⟨placing, -⟩ := h sharedNumber 0 0 0 lastPieceCmd (by decide +kernel) rfl rfl
  obtain ⟨-, granted⟩ := placing twoBytes rfl rfl rfl rfl (by decide) (by decide +kernel) (by decide)
  obtain ⟨uncounted, -⟩ := granted (by decide +kernel) (by decide) (by decide) (by decide +kernel) (by decide +kernel) (by decide +kernel)
    (by decide +kernel) (by decide +kernel)
  have claimed := congrArg piecesLeft (uncounted (by decide +kernel))
  rw [piecesLeft_sharedNumber] at claimed
  revert claimed
  decide +kernel

end Sys2Proof.Proofs
end

section
/-! PROOFS. Taking a trap and returning from one (R365, R367, R368, R287): the record's bytes, what delivery to the task and to the
driver leave, and where the return goes on. -/

namespace Sys2Proof.Proofs

open Sys2Proof Sys2Proof.Machine

/-! ## Numbers in bytes (R5) -/

theorem leNat_toBytes (n : Nat) : ∀ v, leNat (toBytes v n) = v % 256 ^ n := by
  induction n with
  | zero => exact fun v => (Nat.mod_one v).symm
  | succ n ih =>
    intro v
    have hlow : (BitVec.ofNat 8 v).toNat = v % 256 := BitVec.toNat_ofNat v 8
    rw [toBytes, leNat, ih, hlow, Nat.pow_succ, Nat.mul_comm (256 ^ n), Nat.mod_mul]

/-! ## Maps that keep keys -/

/-- A table of which every value is mapped in place lists the mapped values. -/
theorem spFind_map {α β : Type} {g : Nat × α → Nat × β} (hkey : ∀ e, (g e).1 = e.1) (k : Nat) :
    ∀ m : Sp α, spFind (m.map g) k = (spFind m k).map fun v => (g (k, v)).2
  | [] => rfl
  | (j, v) :: m => by
    have hj := hkey (j, v)
    have hg : g (j, v) = (j, (g (j, v)).2) := Prod.ext hj rfl
    rw [List.map_cons, hg, spFind, spFind]
    by_cases h : j = k
    · subst h
      simp
    · simp only [h, if_false]
      split
      · rfl
      · exact spFind_map hkey k m

theorem coreAt_map_same {s : State} {g : Nat × Core → Nat × Core} (hkey : ∀ e, (g e).1 = e.1) {n : Nat} (hn : ∀ k, g (n, k) = (n, k)) :
    coreAt { s with cores := s.cores.map g } n = coreAt s n := by
  have hfind : spFind (s.cores.map g) n = spFind s.cores n := by
    rw [spFind_map hkey]
    simp [hn]
  exact congrArg (Option.getD · Core.reset) hfind

/-! ## The record (R365) -/

/-- Code address, dictionary index, mask, cause, detail and slot are the first bytes of the record. -/
theorem faultRecord_starts (k : Core) (t : TrapInfo) (g : Option GOp) : ∃ l, faultRecord k t g =
    toBytes t.caddr 4 ++ (toBytes t.dindex 2 ++ (toBytes t.mask.toNat 2 ++ (toBytes t.cause 1 ++ (toBytes t.detail 1 ++ (toBytes t.slot 1 ++ l))))) := by
  unfold faultRecord
  simp only [List.append_assoc]
  exact ⟨_, rfl⟩

theorem faultRecord_caddr (k : Core) (t : TrapInfo) (g : Option GOp) : (faultRecord k t g).take 4 = toBytes t.caddr 4 := by
  obtain ⟨l, h⟩ := faultRecord_starts k t g
  rw [h]
  rfl

theorem faultRecord_mask (k : Core) (t : TrapInfo) (g : Option GOp) : slice (faultRecord k t g) 6 2 = toBytes t.mask.toNat 2 := by
  obtain ⟨l, h⟩ := faultRecord_starts k t g
  rw [h]
  rfl

theorem faultRecord_cause (k : Core) (t : TrapInfo) (g : Option GOp) :
    slice (faultRecord k t g) 8 3 = toBytes t.cause 1 ++ toBytes t.detail 1 ++ toBytes t.slot 1 := by
  obtain ⟨l, h⟩ := faultRecord_starts k t g
  rw [h]
  rfl

/-! ## Delivery (R346, R368) -/

/-- What both deliveries leave of the core: registers, memories, counters and binding, with nothing held. -/
structure Delivered (k k' : Core) : Prop where
  r : k'.r = k.r
  m : k'.m = k.m
  ct : k'.ct = k.ct
  bind : k'.bind = k.bind
  hold : k'.q.hold = .none
  holdG : k'.q.holdG = .none
  holdO : k'.q.holdO = .none

theorem coreAt_trapToTask (s : State) (c : Nat) (t : TrapInfo) (g : Option GOp) (e : Nat) : coreAt (trapToTask s c t g e) c =
    { setAside (coreAt s c) g with q := { (setAside (coreAt s c) g).q.release with
        tbuf := faultRecord (coreAt s c) { t with flags := t.flags + 64 } g, inHandler := true, pc := e, skipMask := 0
        ready := (setAside (coreAt s c) g).q.act + 1, wheel := none } } :=
  coreAt_modCore_same ..

theorem delivered_trapToTask (s : State) (c : Nat) (t : TrapInfo) (g : Option GOp) (e : Nat) :
    Delivered (coreAt s c) (coreAt (trapToTask s c t g e) c) := by
  rw [coreAt_trapToTask]
  exact ⟨rfl, rfl, rfl, rfl, rfl, rfl, rfl⟩

/-- The place that the record of a trap to the driver names, or where the core stands when the record names none (R144). -/
def driverResume (k : Core) (t : TrapInfo) : Nat × BitVec 12 := if t.caddr = 0xFFFFFFFF then (k.q.pc, k.q.skipMask) else (t.caddr, t.mask)

/-- The core that a trap to the driver stops. -/
def driverStopped (k : Core) (t : TrapInfo) (g : Option GOp) (dev : Nat) : Core :=
  { setAside k g with q := { (setAside k g).q.release with
      frec := faultRecord k t g, running := false, stopped := true, stopT := dev, pc := (driverResume k t).1, skipMask := (driverResume k t).2 } }

theorem coreAt_trapToDriver (s : State) (c : Nat) (t : TrapInfo) (g : Option GOp) :
    coreAt (trapToDriver s c t g) c = driverStopped (coreAt s c) t g s.dev := by
  refine (coreAt_map_same (n := c) (fun e => ?_) (fun k => ?_)).trans ((coreAt_modCore_same ..).trans ?_)
  · dsimp only
    split <;> rfl
  · simp
  · unfold driverStopped driverResume
    split <;> rfl

theorem delivered_trapToDriver (s : State) (c : Nat) (t : TrapInfo) (g : Option GOp) :
    Delivered (coreAt s c) (coreAt (trapToDriver s c t g) c) := by
  rw [coreAt_trapToDriver]
  exact ⟨rfl, rfl, rfl, rfl, rfl, rfl, rfl⟩

theorem posted_trapToDriver {s : State} {c : Nat} {b : Bind} (t : TrapInfo) (g : Option GOp) (hb : (coreAt s c).bind = some b) :
    (trapToDriver s c t g).posted = (driverOf s b.asid, 0, [t.cause, c, b.gang]) :: s.posted := by
  simp only [trapToDriver, hb]
  rfl

/-! ## Taking a trap (R367, R39) -/

/-- The core as it stands once the pass that begins with its bundle has passBegun. -/
def passBegun (k : Core) : Core := beginPass (xRetire k)

theorem passBegun_frame (k : Core) : (passBegun k).m = k.m ∧ (passBegun k).ct = k.ct ∧ (passBegun k).bind = k.bind ∧ (k.q.newPass = none → (passBegun k).r = k.r) := by
  obtain ⟨-, hm, hq, hct, hbind⟩ := xRetire_frame k
  obtain ⟨hm', -, hct', hbind', -⟩ := beginPass_frame (xRetire k)
  refine ⟨hm'.trans hm, hct'.trans hct, hbind'.trans hbind, fun h => ?_⟩
  rw [passBegun, beginPass_of_none (xRetire k) h]
  rfl

/-- Whether a trap of a core goes to its task. -/
def toTask (s : State) (k : Core) (t : TrapInfo) (load : Bool) (asid : Nat) : Prop :=
  causeToTask t.cause t.detail load = true ∧ bit (hmask s asid) t.cause = true ∧ hentry s asid < k.prog.code.length ∧ k.q.inHandler = false

theorem takeTrap_task {s : State} {c : Nat} {t : TrapInfo} {load : Bool} {b : Bind} (g : Option GOp) (hb : (coreAt s c).bind = some b)
    (h : toTask s (passBegun (coreAt s c)) t load b.asid) : takeTrap s c t load g = trapToTask (modCore s c passBegun) c t g (hentry s b.asid) := by
  have hk : coreAt (modCore s c fun k => beginPass (xRetire k)) c = passBegun (coreAt s c) := coreAt_modCore_same ..
  obtain ⟨-, -, hbind, -⟩ := passBegun_frame (coreAt s c)
  obtain ⟨hcause, hmask, he, hin⟩ := h
  simp only [takeTrap, hk, hbind, hb]
  refine if_pos ?_
  rw [hcause, hin]
  simp only [Bool.true_and, Bool.not_false, Bool.and_true, Bool.and_eq_true, decide_eq_true_eq]
  exact ⟨hmask, he⟩

theorem takeTrap_driver {s : State} {c : Nat} {t : TrapInfo} {load : Bool} {b : Bind} (g : Option GOp) (hb : (coreAt s c).bind = some b)
    (h : ¬toTask s (passBegun (coreAt s c)) t load b.asid) : takeTrap s c t load g = trapToDriver (modCore s c passBegun) c t g := by
  have hk : coreAt (modCore s c fun k => beginPass (xRetire k)) c = passBegun (coreAt s c) := coreAt_modCore_same ..
  obtain ⟨-, -, hbind, -⟩ := passBegun_frame (coreAt s c)
  simp only [takeTrap, hk, hbind, hb]
  refine if_neg fun hyes => h ?_
  simp only [Bool.and_eq_true, decide_eq_true_eq, Bool.not_eq_true'] at hyes
  obtain ⟨⟨⟨hcause, hmask⟩, he⟩, hin⟩ := hyes
  exact ⟨hcause, hmask, he, hin⟩

theorem takeTrap_delivered {s : State} {c : Nat} {b : Bind} (t : TrapInfo) (load : Bool) (g : Option GOp) (hb : (coreAt s c).bind = some b) :
    Delivered (passBegun (coreAt s c)) (coreAt (takeTrap s c t load g) c) ∧ (takeTrap s c t load g).mem = s.mem := by
  have hk : coreAt (modCore s c passBegun) c = passBegun (coreAt s c) := coreAt_modCore_same ..
  by_cases h : toTask s (passBegun (coreAt s c)) t load b.asid
  · rw [takeTrap_task g hb h, ← hk]
    exact ⟨delivered_trapToTask .., rfl⟩
  · rw [takeTrap_driver g hb h, ← hk]
    exact ⟨delivered_trapToDriver .., rfl⟩

/-! ## The return (R287) -/

theorem takeBack_frame (k : Core) : (takeBack k).r = k.r ∧ (takeBack k).m = k.m := by
  unfold takeBack
  split <;> exact ⟨rfl, rfl⟩

/-- After a trap to the task the return goes on where the trap was. -/
theorem trapReturn_trapToTask (s : State) (c : Nat) (t : TrapInfo) (g : Option GOp) (e : Nat) (hcaddr : t.caddr < 2 ^ 32) :
    let k := trapReturn (coreAt (trapToTask s c t g e) c)
    k.q.pc = t.caddr ∧ k.q.skipMask = t.mask ∧ k.q.inHandler = false := by
  let rec' := faultRecord (coreAt s c) { t with flags := t.flags + 64 } g
  have hbuf : (coreAt (trapToTask s c t g e) c).q.tbuf = rec' := by rw [coreAt_trapToTask]
  have hpc : leNat (rec'.take 4) = t.caddr := by
    rw [faultRecord_caddr, leNat_toBytes]
    exact Nat.mod_eq_of_lt hcaddr
  have hmask : BitVec.ofNat 12 (leNat (slice rec' 6 2)) = t.mask := by
    rw [faultRecord_mask, leNat_toBytes, Nat.mod_eq_of_lt (Nat.lt_of_lt_of_le t.mask.isLt (by decide))]
    simp
  refine ⟨?_, ?_, rfl⟩
  · exact (congrArg (fun b => leNat (slice b 0 4)) hbuf).trans hpc
  · exact (congrArg (fun b => BitVec.ofNat 12 (leNat (slice b 6 2))) hbuf).trans hmask

/-- Settles O53: a trap finds the core with its pass passBegun, and is delivered to the task or to the driver; each delivery by what it
leaves, and the return by the record in the trap buffer. -/
theorem trapEntryAndReturn : Obligations.TrapEntryAndReturn := by
  unfold Obligations.TrapEntryAndReturn
  refine ⟨?taken, ?back, fun s c t g e h => trapReturn_trapToTask s c t g e h⟩
  case taken =>
    intro s c t load g b hb k u k' e task said at_
    obtain ⟨hm, hct, hbind, hr⟩ := passBegun_frame (coreAt s c)
    obtain ⟨hd, hmem⟩ := takeTrap_delivered t load g hb
    have hk : coreAt (modCore s c passBegun) c = k := coreAt_modCore_same ..
    have hsaid : ∀ t' : TrapInfo, t'.caddr = t.caddr → t'.mask = t.mask → t'.cause = t.cause → t'.detail = t.detail → t'.slot = t.slot →
        said (faultRecord k t' g) := by
      intro t' h1 h2 h3 h4 h5
      refine ⟨?_, ?_, ?_⟩
      · rw [← h1, faultRecord_caddr]
      · rw [← h2, faultRecord_mask]
      · rw [← h3, ← h4, ← h5, faultRecord_cause]
    refine ⟨hd.r, hr, hm, hd.m, hd.ct.trans hct, hd.bind.trans (hbind.trans hb), hmem, hd.hold, hd.holdG, hd.holdO, fun h => ?_, fun h => ?_⟩
    · have hu : u = trapToTask (modCore s c passBegun) c t g e := takeTrap_task g hb h
      have hk' : k' = _ := (congrArg (fun u => coreAt u c) hu).trans (coreAt_trapToTask ..)
      rw [hk] at hk'
      have hbuf : k'.q.tbuf = faultRecord k { t with flags := t.flags + 64 } g := by rw [hk']
      refine ⟨?_, by rw [hk'], by rw [hk'], by rw [hk']; rfl, ?_, hbuf⟩
      · rw [hu]
        exact onlyCore_trans (onlyCore_modCore s c passBegun) (onlyCore_modCore ..)
      · rw [hbuf]
        exact hsaid _ rfl rfl rfl rfl rfl
    · have hu : u = trapToDriver (modCore s c passBegun) c t g := takeTrap_driver g hb h
      have hk' : k' = driverStopped k t g s.dev := (congrArg (fun u => coreAt u c) hu).trans ((coreAt_trapToDriver ..).trans (by rw [hk]; rfl))
      have hrec : k'.q.frec = faultRecord k t g := by rw [hk']; rfl
      refine ⟨by rw [hk']; rfl, by rw [hk']; rfl, ?_, hrec, by rw [hk']; rfl, ?_⟩
      · rw [hrec]
        exact hsaid t rfl rfl rfl rfl rfl
      · rw [hu, posted_trapToDriver t g (by rw [hk]; exact hbind.trans hb)]
        rfl
  case back =>
    intro k
    obtain ⟨hr, hm⟩ := takeBack_frame k
    exact ⟨rfl, rfl, rfl, rfl, rfl, rfl, hr, hm⟩

end Sys2Proof.Proofs
end

section
/-! PROOFS. Device time and its inputs (R437, R445): edges, messages, locks and losses, each by its conditions. -/

namespace Sys2Proof.Proofs

open Sys2Proof Sys2Proof.Machine

/-! ## A message ignored (R445) -/

/-- The time inputs once the message of the present edge counts as ignored. -/
def ignoredTime (t : TimeIn) : TimeIn := { t with got := [], heard := true, ignored := t.ignored + 1 }

/-- The third message ignored in a row moves LOCKED to HOLDOVER. -/
theorem todIgnored_eq (s : State) : todIgnored s =
    if 3 ≤ s.time.ignored + 1 ∧ timeState s = 1 then setTimeState { s with time := ignoredTime s.time } 2 else { s with time := ignoredTime s.time } := by
  have hcond : ((modTime s ignoredTime).time.ignored ≥ 3 && timeState (modTime s ignoredTime) == 1) = true ↔ 3 ≤ s.time.ignored + 1 ∧ timeState s = 1 := by
    rw [Bool.and_eq_true, decide_eq_true_eq, beq_iff_eq]
    exact Iff.rfl
  exact if_congr hcond rfl rfl

/-! ## Edges and bytes (R445) -/

theorem exec_ppsEdge_heard {s : State} (h : s.time.edge = none ∨ s.time.heard = true) : exec .ppsEdge s =
    .next { s with time := { s.time with edge := some s.dev, got := [], heard := false, tai := s.time.msg, msg := none } } := by
  have hno : (s.time.edge.isSome && !s.time.heard) = false := by rcases h with h | h <;> simp [h]
  simp only [exec_ppsEdge, execPpsEdge, hno]
  rfl

theorem exec_ppsEdge_unheard {s : State} (he : s.time.edge ≠ none) (h : s.time.heard = false) : exec .ppsEdge s =
    .next (modTime (todIgnored s) fun t => { t with edge := some (todIgnored s).dev, got := [], heard := false, tai := t.msg, msg := none }) := by
  have hyes : (s.time.edge.isSome && !s.time.heard) = true := by rw [h, Option.isSome_iff_ne_none.mpr he]; rfl
  simp only [exec_ppsEdge, execPpsEdge, hyes]
  rfl

section Message

variable {s : State} {e : Nat} (he : s.time.edge = some e) (hh : s.time.heard = false)

include he hh

theorem exec_todDeadline_open :
    exec .todDeadline s = .next (if s.dev < e + 500000000 * 19000000 then s else todIgnored s) := by
  simp only [exec_todDeadline, execTodDeadline, he, hh, Bool.false_or, decide_eq_true_eq]
  split <;> rfl

/-- More than 1 ms after a byte the message under way has ended. -/
theorem exec_todMessage_gap (b : List Nat) (hg : s.time.got ≠ []) (hl : s.time.lastByte + 1000000 * 19000000 < s.dev) :
    exec (.todMessage b) s = .next (todIgnored s) := by
  have hgap : (!s.time.got.isEmpty && decide (s.dev > s.time.lastByte + 1000000 * 19000000)) = true := by
    simpa [List.isEmpty_eq_false_iff.mpr hg] using hl
  simp [execTodMessage, he, hh, hgap]

/-- The bytes of a message under way, taken with those that come. -/
def gotWith (s : State) (b : List Nat) : List Byte := s.time.got ++ b.map (BitVec.ofNat 8)

/-- The package that has noted the bytes. -/
def noted (s : State) (b : List Nat) : State := { s with time := { s.time with got := gotWith s b, lastByte := s.dev } }

variable {b : List Nat} (hno : s.time.got = [] ∨ ¬ s.time.lastByte + 1000000 * 19000000 < s.dev)

include hno

theorem exec_todMessage_noted : exec (.todMessage b) s = (if (gotWith s b).length < 16 then .next (noted s b)
    else if todGood ((gotWith s b).take 16) && s.dev ≤ e + 500000000 * 19000000 then
      .next (modTime (noted s b) fun t => { t with got := [], heard := true, ignored := 0, msg := some (leNat ((gotWith s b).take 6)) })
    else .next (todIgnored (noted s b))) := by
  have hgap : (!s.time.got.isEmpty && decide (s.dev > s.time.lastByte + 1000000 * 19000000)) = false := by
    rcases hno with h | h
    · simp [h]
    · rw [Bool.and_eq_false_iff]
      exact .inr (decide_eq_false h)
  simp only [exec_todMessage, execTodMessage, he, hh, hgap, Bool.false_eq_true, if_false]
  rfl

theorem exec_todMessage_short (h : (gotWith s b).length < 16) : exec (.todMessage b) s = .next (noted s b) :=
  (exec_todMessage_noted he hh hno).trans (if_pos h)

theorem exec_todMessage_good (h : 16 ≤ (gotWith s b).length) (hgood : todGood ((gotWith s b).take 16) = true)
    (hin : s.dev ≤ e + 500000000 * 19000000) : exec (.todMessage b) s =
      .next (modTime (noted s b) fun t => { t with got := [], heard := true, ignored := 0, msg := some (leNat ((gotWith s b).take 6)) }) := by
  rw [exec_todMessage_noted he hh hno, if_neg (Nat.not_lt.mpr h), if_pos]
  rw [Bool.and_eq_true, decide_eq_true_eq]
  exact ⟨hgood, hin⟩

theorem exec_todMessage_bad (h : 16 ≤ (gotWith s b).length)
    (hbad : todGood ((gotWith s b).take 16) = false ∨ ¬ s.dev ≤ e + 500000000 * 19000000) : exec (.todMessage b) s = .next (todIgnored (noted s b)) := by
  rw [exec_todMessage_noted he hh hno, if_neg (Nat.not_lt.mpr h), if_neg]
  rw [Bool.and_eq_true, decide_eq_true_eq]
  rintro ⟨hgood, hin⟩
  rcases hbad with hb | hb
  · exact Bool.false_ne_true (hb.symm.trans hgood)
  · exact hb hin

end Message

/-! ## Locks (R437) -/

theorem sourceTime_eq_some {s : State} {ns x : Nat} (h : (timeSrc s = 1 ∧ x = ns) ∨
    (timeSrc s = 2 ∧ ∃ m e, s.time.tai = some m ∧ s.time.edge = some e ∧ x = m * 1000000000 + (s.dev - e) / 19000000)) : sourceTime s ns = some x := by
  rcases h with ⟨hsrc, rfl⟩ | ⟨hsrc, m, e, hm, he, rfl⟩
  · simp [sourceTime, hsrc]
  · simp [sourceTime, hsrc, hm, he]

theorem sourceTime_eq_none {s : State} (ns : Nat) (h : (timeSrc s ≠ 1 ∧ timeSrc s ≠ 2) ∨ (timeSrc s = 2 ∧ (s.time.tai = none ∨ s.time.edge = none))) :
    sourceTime s ns = none := by
  rcases h with ⟨h1, h2⟩ | ⟨h2, h | h⟩
  · simp [sourceTime, h1, h2]
  · simp [sourceTime, h2, h]
  · cases ht : s.time.tai <;> simp [sourceTime, h2, h, ht]

theorem exec_timeLock_none {s : State} {ns : Nat} (p : Int) (h : sourceTime s ns = none) : exec (.timeLock ns p) s = .next s := by
  simp [execTimeLock, h]

theorem exec_timeLock_first {s : State} {ns x : Nat} (p : Int) (h : sourceTime s ns = some x) (hl : s.time.everLocked = false) (hs : s.time.served = false) :
    exec (.timeLock ns p) s = .next (setTimeState { s with
      dev := x * 19000000
      drl := { s.drl with evals := x / 10000 }
      time := { s.time with tlm := x / 100000, edge := s.time.edge.map (rebase s.dev (x * 19000000))
                            lastByte := rebase s.dev (x * 19000000) s.time.lastByte, everLocked := true } } 1) := by
  simp only [exec_timeLock, execTimeLock, h, hl, hs]
  rfl

theorem exec_timeLock_again {s : State} {ns x : Nat} (p : Int) (h : sourceTime s ns = some x) (hl : s.time.everLocked = true ∨ s.time.served = true) :
    exec (.timeLock ns p) s = .next (setTimeState { s with ppm := max (-200) (min 200 p), time := { s.time with everLocked := true } } 1) := by
  have hno : (!s.time.everLocked && !s.time.served) = false := by rcases hl with h | h <;> simp [h]
  simp only [exec_timeLock, execTimeLock, h, hno]
  rfl

/-- Settles O40: edge, message, gap, deadline, lock and loss, each in the cases of its conditions. -/
theorem timeDiscipline : Obligations.TimeDiscipline := by
  unfold Obligations.TimeDiscipline
  intro s b ns p t ignored sec got late heard
  have hign : ∀ u, todIgnored u = ignored u := todIgnored_eq
  refine ⟨exec_ppsEdge_heard, fun he hh => ?edge, fun h => ?idle, fun e he hh => ?message, fun hg hh hl => ?gap, fun h => ?nogap,
    fun h => exec_timeLock_none p (sourceTime_eq_none ns h), fun x hx => ⟨?first, ?again⟩, fun h => ?loss, fun h => ?noloss⟩
  case edge =>
    rw [exec_ppsEdge_unheard he hh, ← hign]
    rfl
  case idle =>
    rcases h with h | h
    · simp [execTodMessage, execTodDeadline, t, h]
    · cases he : s.time.edge <;> simp [execTodMessage, execTodDeadline, t, h, he]
  case message =>
    refine ⟨fun hg hl => ?_, fun hno => ?_, fun h => ?_, fun h => ?_⟩
    · rw [exec_todMessage_gap he hh b hg hl, hign]
    · refine ⟨exec_todMessage_short he hh hno, exec_todMessage_good he hh hno, fun h hbad => ?_⟩
      exact (exec_todMessage_bad he hh hno h hbad).trans (congrArg _ (hign (noted s b)))
    · rw [exec_todDeadline_open he hh, if_pos h]
    · rw [exec_todDeadline_open he hh, if_neg (Nat.not_lt.mpr h), hign]
  case gap =>
    have hlate : ¬ s.dev ≤ s.time.lastByte + 1000000 * 19000000 := Nat.not_le.mpr hl
    rw [exec_todByteGap, execTodByteGap, List.isEmpty_eq_false_iff.mpr hg, hh, if_neg, hign]
    simpa using hl
  case nogap =>
    refine if_pos ?_
    simp only [Bool.or_eq_true, List.isEmpty_iff, decide_eq_true_eq]
    rcases h with h | h | h
    · exact .inl (.inl h)
    · exact .inl (.inr h)
    · exact .inr (Nat.not_lt.mp h)
  case first => exact fun hl hs => exec_timeLock_first p (sourceTime_eq_some hx) hl hs
  case again => exact fun h => exec_timeLock_again p (sourceTime_eq_some hx) h
  case loss => exact if_pos h
  case noloss => exact if_neg h

end Sys2Proof.Proofs
end

section
/-! PROOFS. The governor (R426 to R434): a write of DRL_CTL, one evaluation, the warnings of pinned steps; the telemetry record (R438). -/

namespace Sys2Proof.Proofs

open Sys2Proof Sys2Proof.Machine

/-! ## Starts (R429) -/

/-- Where every request still lacks slots, none starts. -/
theorem startGranted_of_lack {s : State} (h : ∀ r ∈ s.drl.reqs, r.lack ≠ 0) : startGranted s = s := by
  unfold startGranted
  suffices ∀ l : List RampReq, (∀ r ∈ l, r.lack ≠ 0) → l.foldl (fun u r => if r.lack != 0 then u else if r.queue < 65536 then placeHead r.queue [] u
      else restoreSaved (r.queue - 65536) 1 [] u) s = s from this _ h
  intro l hl
  induction l with
  | nil => rfl
  | cons r l ih =>
    have hr : (r.lack != 0) = true := bne_iff_ne.mpr (hl r List.mem_cons_self)
    rw [List.foldl_cons, if_pos hr]
    exact ih fun r' hr' => hl r' (List.mem_cons_of_mem _ hr')

/-! ## Grants and releases keep which requests there are, where there are none (R427) -/

theorem releaseRun_reqs (k : Nat) : ∀ d : Drl, (releaseRun k d).reqs = d.reqs := by
  induction k with
  | zero => exact fun _ => rfl
  | succ k ih =>
    intro d
    unfold releaseRun
    split
    · rfl
    · rw [ih]
    · split
      · rfl
      · rw [ih]

theorem releaseAll_reqs (d : Drl) : (releaseAll d).reqs = d.reqs := releaseRun_reqs _ d

/-- With no request there is nothing to grant. -/
theorem grantAll_no_request {d : Drl} (h : d.reqs = []) : (grantAll d).reqs = [] := by
  simp [grantAll, h, grantRun]

/-! ## Warnings (R434) -/

theorem setHealth_drl (s : State) (k : Nat) : (setHealth s k).drl = s.drl := by
  unfold setHealth
  dsimp only
  split <;> rfl

theorem setHealth_keeps (s : State) (k : Nat) {o : Nat} (h : o ≠ 0x00060000) : barRd (setHealth s k) o = barRd s o := by
  unfold setHealth
  dsimp only
  split
  · rfl
  · exact barRd_barWr_other s _ h

theorem rampCount_drl (s : State) (off : Nat) : (rampCount s off).drl = s.drl := setHealth_drl _ 2

theorem rampCount_ctl (s : State) {off : Nat} (h : off ≠ 0) : barRd (rampCount s off) 0x00050000 = barRd s 0x00050000 := by
  have hne : 0x00050000 ≠ 0x00050000 + off := by omega
  exact (setHealth_keeps _ 2 (by decide)).trans (barRd_barWr_other s _ hne)

theorem rampWarn_enforced {s : State} (h : s.drl.enf = true) : rampWarn s = s := by
  simp [rampWarn, drlEnf, h]

/-- Without enforcement each step above the allowance before it counts once. -/
theorem rampWarn_eq {s : State} (h : s.drl.enf = false) :
    let exceeds := fun (x : Option (Int × Int)) => match x with | some (b, t) => decide (t > b) | none => false
    let u := if exceeds s.drl.upFirst then rampCount s 0x18 else s
    rampWarn s = if exceeds u.drl.dnFirst then rampCount u 0x18 else u := by
  simp only [rampWarn, drlEnf, h]
  rfl

theorem rampWarn_no_step {s : State} (hu : s.drl.upFirst = none) (hd : s.drl.dnFirst = none) : rampWarn s = s := by
  cases h : s.drl.enf with
  | true => exact rampWarn_enforced h
  | false => simp [rampWarn_eq h, hu, hd]

theorem rampWarn_up_step {s : State} {b x : Int} (h : s.drl.enf = false) (hu : s.drl.upFirst = some (b, x)) (hd : s.drl.dnFirst = none) :
    rampWarn s = if b < x then rampCount s 0x18 else s := by
  by_cases hx : b < x
  · simp [rampWarn_eq h, hu, hx, rampCount_drl, hd]
  · simp [rampWarn_eq h, hu, hx, hd]

/-- Warnings keep what `rampCount` keeps. -/
theorem rampWarn_keeps {γ : Type} (g : State → γ) (hg : ∀ s, g (rampCount s 0x18) = g s) (s : State) : g (rampWarn s) = g s := by
  have step : ∀ (c : Bool) u, g (if c then rampCount u 0x18 else u) = g u := fun c u => by
    cases c
    · rfl
    · exact hg u
  cases h : s.drl.enf with
  | true => rw [rampWarn_enforced h]
  | false => exact (congrArg g (rampWarn_eq h)).trans ((step _ _).trans (step _ _))

theorem rampWarn_drl (s : State) : (rampWarn s).drl = s.drl := rampWarn_keeps State.drl (fun s => rampCount_drl s _) s

theorem rampWarn_ctl (s : State) : drlCtl (rampWarn s) = drlCtl s :=
  rampWarn_keeps drlCtl (fun s => congrArg BitVec.toNat (rampCount_ctl s (by decide))) s

/-! ## One evaluation (R427) -/

theorem evalDue_iff (s : State) : evalDue s = true ↔ s.drl.evals < devNs s / 10000 := decide_eq_true_iff

/-- The package with the evaluation counted. -/
def evaluated (s : State) : State := { s with drl := { s.drl with evals := s.drl.evals + 1 } }

theorem drlEvaluate_off {s : State} (h : drlEn s = false) :
    drlEvaluate s = modDrl (evaluated s) fun d => { d with upFirst := none, dnFirst := none, enf := bit (drlCtl s) 62 } := by
  have h' : drlEn (evaluated s) = false := h
  unfold drlEvaluate
  exact if_pos (congrArg not h')

theorem drlEvaluate_on {s : State} (h : drlEn s = true) : drlEvaluate s = modDrl (rampWarn (evaluated s)) fun d => releaseAll (grantAll { d with
    upFirst := none, dnFirst := none, enf := bit (drlCtl s) 62
    aup := min (d.aup + (drlUps s : Int)) (allowCap (drlUps s)), adn := min (d.adn + (drlDns s : Int)) (allowCap (drlDns s)) }) := by
  have h' : drlEn (evaluated s) = true := h
  have hup : drlUps (modDrl (rampWarn (evaluated s)) fun d => { d with enf := bit (drlCtl s) 62 }) = drlUps s :=
    congrArg (bits · 61 50) (rampWarn_ctl (evaluated s))
  have hdn : drlDns (modDrl (rampWarn (evaluated s)) fun d => { d with enf := bit (drlCtl s) 62 }) = drlDns s :=
    congrArg (bits · 49 38) (rampWarn_ctl (evaluated s))
  rw [← hup, ← hdn]
  unfold drlEvaluate
  exact if_neg (by rw [show drlEn (modDrl s fun d => { d with evals := d.evals + 1 }) = true from h']; decide)

theorem exec_derailleurEvaluation_early {s : State} (h : ¬ s.drl.evals < devNs s / 10000) : exec .derailleurEvaluation s = .next s := by
  have hno : evalDue s = false := Bool.eq_false_iff.mpr (mt (evalDue_iff s).mp h)
  simp [execDerailleurEvaluation, hno]

/-- With the governor off, or no wait for filler, an evaluation is what it does and the starts it grants. -/
theorem exec_derailleurEvaluation_no_filler {s : State} (h : s.drl.evals < devNs s / 10000)
    (hf : drlEn (startGranted (drlEvaluate s)) = false ∨ drlFillwait (startGranted (drlEvaluate s)) = 0) :
    exec .derailleurEvaluation s = .next (startGranted (drlEvaluate s)) := by
  have hyes : evalDue s = true := (evalDue_iff s).mpr h
  have hc : (!drlEn (startGranted (drlEvaluate s)) || decide (drlFillwait (startGranted (drlEvaluate s)) = 0)) = true := by
    rcases hf with hf | hf <;> simp [hf]
  simp only [exec_derailleurEvaluation, execDerailleurEvaluation, hyes]
  exact if_pos hc

/-! ## A write of DRL_CTL (R426) -/

theorem exec_drlCtlWrite_live {s : State} (v : Nat) (h : s.sec.recovery = false) : exec (.drlCtlWrite v) s = .next (startGranted (drlWrite s v)) := by
  rw [exec_drlCtlWrite, execDrlCtlWrite, h]
  rfl

/-- The slopes of a write lie in range. -/
def slopesGood (v : Nat) : Prop := 10 ≤ bits v 61 50 ∧ bits v 61 50 ≤ 2000 ∧ 10 ≤ bits v 49 38 ∧ bits v 49 38 ≤ 2000

theorem slopes_out_iff (v : Nat) :
    (bits v 61 50 < 10 || bits v 61 50 > 2000 || bits v 49 38 < 10 || bits v 49 38 > 2000) = true ↔ ¬ slopesGood v := by
  simp only [Bool.or_eq_true, decide_eq_true_eq, slopesGood]
  omega

theorem drlWrite_bad {s : State} {v : Nat} (h : ¬ slopesGood v) :
    drlWrite s v = barWr s 0x00050010 (barRd s 0x00050010 ||| (1#64 <<< 63)) := by
  unfold drlWrite
  exact if_pos ((slopes_out_iff v).mpr h)

theorem drlWrite_good {s : State} {v : Nat} (h : slopesGood v) : drlWrite s v =
    if drlEn s && !bit v 63 then modDrl (barWr s 0x00050000 (BitVec.ofNat 64 (bits v 63 30 * 2 ^ 30))) fun d =>
      { d with slots := [], rel := [], aup := allowCap (bits v 61 50), adn := allowCap (bits v 49 38), reqs := d.reqs.map fun r => { r with lack := 0 }
               upFirst := none, dnFirst := none }
    else barWr s 0x00050000 (BitVec.ofNat 64 (bits v 63 30 * 2 ^ 30)) := by
  unfold drlWrite
  exact if_neg (mt (slopes_out_iff v).mp (not_not_intro h))

/-! ## Telemetry (R438) -/

/-- The record of the window that has ended, its measured powers free values under a number. -/
def tlmBytes (s : State) (ep : Nat) : List Byte :=
  toBytes ((barRd s 0x00050058).toNat / 64) 8 ++ toBytes ((s.time.tlm + 1) * 100000 / 1000000000) 6 ++ toBytes ((s.time.tlm + 1) * 100000 % 1000000000) 4 ++
    toBytes (timeState s) 1 ++ [0] ++ ((upTo 14).map fun i => toBytes (Config.freeBits 16 (ep + 1) i).toNat 2).flatten ++ toBytes (slotsHeld s) 2 ++
    toBytes ((upTo 192).filter (inBallast s)).length 2 ++ List.replicate 12 0

theorem exec_telemetryRecord_early {s : State} (h : devNs s / 100000 ≤ s.time.tlm) : exec .telemetryRecord s = .next s := by
  have hno : tlmDue s = false := decide_eq_false (Nat.not_lt.mpr h)
  simp [execTelemetryRecord, hno]

section Due

variable {s : State} (h : s.time.tlm < devNs s / 100000)

include h

theorem exec_telemetryRecord_disabled (hoff : bit (barRd s 0x00050050).toNat 63 = false ∨ bits (barRd s 0x00050050).toNat 47 0 / 4096 * 4096 = 0) :
    exec .telemetryRecord s = .next { s with time := { s.time with tlm := s.time.tlm + 1 } } := by
  have hyes : tlmDue s = true := decide_eq_true h
  have hc : (!bit (barRd s 0x00050050).toNat 63 || decide (bits (barRd s 0x00050050).toNat 47 0 / 4096 * 4096 = 0)) = true := by
    rcases hoff with hoff | hoff <;> simp [hoff]
  simp only [exec_telemetryRecord, execTelemetryRecord, hyes]
  exact if_pos hc

theorem exec_telemetryRecord_written (hon : bit (barRd s 0x00050050).toNat 63 = true) (hsize : 0 < bits (barRd s 0x00050050).toNat 47 0 / 4096 * 4096) :
    exec .telemetryRecord s = .next (barWr { s with
      time := { s.time with tlm := s.time.tlm + 1 }
      fresh := s.fresh + 1
      mem := memPutBytes s.mem (bits (barRd s 0x00050048).toNat 38 12 * 4096 + (barRd s 0x00050058).toNat % (bits (barRd s 0x00050050).toNat 47 0 / 4096 * 4096))
        (tlmBytes s s.fresh) } 0x00050058 (BitVec.ofNat 64 ((barRd s 0x00050058).toNat + 64))) := by
  have hyes : tlmDue s = true := decide_eq_true h
  have hc : ¬ (!bit (barRd s 0x00050050).toNat 63 || decide (bits (barRd s 0x00050050).toNat 47 0 / 4096 * 4096 = 0)) = true := by
    rw [hon, decide_eq_false (Nat.pos_iff_ne_zero.mp hsize)]
    decide
  simp only [exec_telemetryRecord, execTelemetryRecord, hyes]
  exact if_neg hc

end Due

/-- Settles O39: the write by its slopes and by EN, the evaluation by EN, warnings by what charged first, the record by its ring. -/
theorem governorAndTelemetry : Obligations.GovernorAndTelemetry := by
  unfold Obligations.GovernorAndTelemetry
  intro s v up dn good kept en enf due cap off warned on
  have hoff : ¬en → drlEvaluate s = off := fun h => drlEvaluate_off (Bool.eq_false_iff.mpr h)
  have hon : en → drlEvaluate s = on := drlEvaluate_on
  refine ⟨fun hr => ?recovery, fun hr => ⟨fun h => ?bad, fun h hn => ?kept, fun h he hv => ?falls⟩, startGranted_of_lack,
    exec_derailleurEvaluation_early, fun hd he => ⟨fun h => ?off, fun h => ?offAlone⟩, fun hd he => ⟨fun h => ?on, fun h hf => ?onAlone⟩,
    fun h => ?nowarn, fun b x => rampWarn_up_step, exec_telemetryRecord_early, ?telemetry⟩
  case recovery => simp [execDrlCtlWrite, hr]
  case bad => rw [exec_drlCtlWrite_live v hr, drlWrite_bad h]
  case kept =>
    have hc : (drlEn s && !bit v 63) = false := by
      rcases hn with hn | hn
      · rw [show drlEn s = false from Bool.eq_false_iff.mpr hn]; rfl
      · rw [hn]; simp
    rw [exec_drlCtlWrite_live v hr, drlWrite_good h, hc]
    rfl
  case falls =>
    rw [exec_drlCtlWrite_live v hr, drlWrite_good h, show drlEn s = true from he, hv]
    rfl
  case off =>
    rw [← hoff he] at h ⊢
    exact exec_derailleurEvaluation_no_filler hd (.inl h)
  case offAlone =>
    have hstart : startGranted (drlEvaluate s) = off := (congrArg startGranted (hoff he)).trans (startGranted_of_lack h)
    have hfalse : drlEn off = false := Bool.eq_false_iff.mpr he
    rw [exec_derailleurEvaluation_no_filler hd (.inl (by rw [hstart]; exact hfalse)), hstart]
  case on =>
    rw [← hon he] at h ⊢
    exact exec_derailleurEvaluation_no_filler hd (.inr h)
  case onAlone =>
    have hreqs : on.drl.reqs = [] := by
      have hw : warned.drl.reqs = [] := (congrArg Drl.reqs (rampWarn_drl _)).trans h
      exact (releaseAll_reqs _).trans (grantAll_no_request hw)
    have hstart : startGranted (drlEvaluate s) = on := (congrArg startGranted (hon he)).trans (startGranted_of_lack (by simp [hreqs]))
    have hfill : drlFillwait on = 0 := (congrArg (bits · 37 30) (rampWarn_ctl _)).trans hf
    rw [exec_derailleurEvaluation_no_filler hd (.inr (by rw [hstart]; exact hfill)), hstart]
  case nowarn =>
    rcases h with h | ⟨hu, hdn⟩
    · exact rampWarn_enforced h
    · exact rampWarn_no_step hu hdn
  case telemetry =>
    intro h size head stamp
    exact ⟨exec_telemetryRecord_disabled h,
      fun hb hs => ⟨tlmBytes s s.fresh, rfl, rfl, rfl, rfl, rfl, rfl, rfl, exec_telemetryRecord_written h hb hs⟩⟩

end Sys2Proof.Proofs
end

section
/-! PROOFS. The debug block: sessions, stops and the window (R413 to R416), samples and counters (R418 to R421), a parting on replay (R425). -/

namespace Sys2Proof.Proofs

open Sys2Proof Sys2Proof.Machine

/-! ## Sessions and stops (R413, R414) -/

theorem sessRefused_iff (s : State) (v : Nat) : sessRefused s v = true ↔ bit v 63 = true ∧ s.sec.locked.contains (bits v 45 32) = true :=
  Bool.and_eq_true_iff

theorem exec_dbgSessionWrite_live {s : State} {n : Nat} (v : Nat) (hn : n < 192) (hr : s.sec.recovery = false) :
    exec (.dbgSessionWrite n v) s = .next (if sessRefused s v then dbgRefuse s n else dbgWr s n 0 (dbgCtlKept v)) := by
  have hc : ¬ (s.sec.recovery || decide (192 ≤ n)) = true := by simp [hr, hn]
  rw [exec_dbgSessionWrite, execDbgSessionWrite, if_neg hc]
  split <;> rfl

/-! ## The window (R416) -/

/-- Outside recovery, with no session, the window does nothing. -/
theorem exec_dbgData_closed {s : State} {n : Nat} (v : Nat) (h : (barRd s (dbgOff n 0)).getLsbD 63 = false) :
    exec (.dbgDataRead n) s = .next (post s 0 101 [0]) ∧ exec (.dbgDataWrite n v) s = .next s := by
  have hc : (s.sec.recovery || !(dbgRd s n 0).getLsbD 63) = true := by
    rw [show (dbgRd s n 0).getLsbD 63 = false from h, Bool.not_false, Bool.or_true]
  exact ⟨if_pos hc, if_pos hc⟩

section Session

variable {s : State} {n : Nat} (hr : s.sec.recovery = false) (h : (barRd s (dbgOff n 0)).getLsbD 63 = true)

include hr h

theorem window_acts : ¬ (s.sec.recovery || !(dbgRd s n 0).getLsbD 63) = true := by
  rw [show (dbgRd s n 0).getLsbD 63 = true from h, hr]
  decide

/-- On a core that is not halted for its task, a window access is refused. -/
theorem exec_dbgData_refused (v : Nat) (ho : (coreAt s n).halted = false ∨ dbgOn s n = false) :
    exec (.dbgDataRead n) s = .next (post (dbgRefuse s n) 0 101 [0]) ∧ exec (.dbgDataWrite n v) s = .next (dbgRefuse s n) := by
  have hopen : dbgOpen s n = false := by rcases ho with ho | ho <;> simp [dbgOpen, ho]
  simp only [exec_dbgDataRead, exec_dbgDataWrite, execDbgDataRead, execDbgDataWrite, if_neg (window_acts hr h), hopen]
  exact ⟨rfl, rfl⟩

variable (hh : (coreAt s n).halted = true) (ho : dbgOn s n = true)

include hh ho

theorem exec_dbgDataRead_open {w : Word} (hw : dbgGet s n (dbgSpace s n) (dbgIndex s n) = some w) :
    exec (.dbgDataRead n) s = .next (post s 0 101 [w.toNat]) := by
  have hopen : dbgOpen s n = true := by simp [dbgOpen, hh, ho]
  simp only [exec_dbgDataRead, execDbgDataRead, if_neg (window_acts hr h), hopen, if_true, hw]

theorem exec_dbgDataWrite_open {v : Nat} {t : State} (ht : dbgPut s n (dbgSpace s n) (dbgIndex s n) (BitVec.ofNat 64 v) = some t) :
    exec (.dbgDataWrite n v) s = .next t := by
  have hopen : dbgOpen s n = true := by simp [dbgOpen, hh, ho]
  simp only [exec_dbgDataWrite, execDbgDataWrite, if_neg (window_acts hr h), hopen, if_true, ht]

end Session

theorem dbgGet_sreg (s : State) (n : Nat) {i : Nat} (hi : i < 64) : dbgGet s n 0x01 i = some (sreg (coreAt s n) i) := by
  simp [dbgGet, hi]

theorem dbgPut_sreg (s : State) (n : Nat) {i : Nat} (v : Word) (hi : i < 64) :
    dbgPut s n 0x01 i v = some (modCore s n fun _ => setS (coreAt s n) i v) := by
  simp [dbgPut, hi]

/-! ## Samples and counters (R418, R421) -/

theorem exec_traceSample_some {s : State} {c d : Nat} (h : samplePeriod s c = some d) : exec (.traceSample c) s =
    if (coreAt s c).sample < d || !(coreAt s c).q.running then .next s else
      .next (modCore (traceWrite s c (padTo 64 (tracePos s c 3 1 ++ toBytes (coreAt s c).q.heldBy 1))) c fun k => { k with sample := k.sample - d }) := by
  simp only [exec_traceSample, execTraceSample, h]

/-- The counters of a core are to go to their next set. -/
def rotates (s : State) (k : Core) : Prop :=
  k.pmc.ctl.getLsbD 63 = true ∧ bits k.pmc.ctl.toNat 62 61 ≠ 0 ∧ k.pmc.since + pmcPeriod k ≤ s.dev

theorem stays_iff (s : State) (k : Core) :
    (!k.pmc.ctl.getLsbD 63 || bits k.pmc.ctl.toNat 62 61 = 0 || s.dev < k.pmc.since + pmcPeriod k) = true ↔ ¬ rotates s k := by
  simp only [Bool.or_eq_true, Bool.not_eq_true', decide_eq_true_eq, rotates, ← Bool.not_eq_true, ← Nat.not_le]
  tauto

/-! ## A parting (R425) -/

/-- A record written into a trace ring leaves the control of the replay. -/
theorem traceWrite_rplCtl (s : State) (n : Nat) (r : List Byte) : rplCtl (traceWrite s n r) = rplCtl s := by
  have hset : ∀ (u : State) (o : Nat) (w : Word), rplCtl (dbgWr u n o w) = rplCtl u := fun u o w => by
    have hne : 0x00048000 ≠ dbgOff n o := by unfold dbgOff; omega
    exact congrArg BitVec.toNat (barRd_barWr_other u w hne)
  have hmem : ∀ (u : State) (a : Nat) (b : List Byte), rplCtl (hbmWrite u a b) = rplCtl u := fun _ _ _ => rfl
  simp only [traceWrite, apply_ite rplCtl, hset, hmem, ite_self]

theorem rings_rplCtl (r : List Byte) (l : List Nat) (s : State) : rplCtl (l.foldl (fun u n => traceWrite u n r) s) = rplCtl s := by
  induction l generalizing s with
  | nil => rfl
  | cons n l ih => exact (ih _).trans (traceWrite_rplCtl s n r)

theorem exec_replayParting_idle {s : State} {arb : Nat} (h : ∀ x ∈ s.rpl.waiting, x.1 ≠ arb) : exec (.replayParting arb) s = .next s := by
  have hno : s.rpl.waiting.find? (fun x => x.1 == arb) = none := List.find?_eq_none.mpr fun x hx => by simpa using h x hx
  simp only [exec_replayParting, execReplayParting, hno]

theorem exec_replayParting_early {s : State} {arb t want seen : Nat} (h : s.rpl.waiting.find? (fun x => x.1 == arb) = some (arb, t, want, seen))
    (he : s.now < t + rplWindow s) : exec (.replayParting arb) s = .next s := by
  simp [execReplayParting, h, he]

/-- The record of a parting: where it is, what was expected and what was seen. -/
def partingRecord (s : State) (arb want seen : Nat) : List Byte :=
  padTo 128 (tracePos s (if arb / 4096 < 2 then arb % 4096 else if arb / 4096 = 2 then arb % 4096 / 16 else (coresOf s (rplAsid s)).headD 0) 4 2 ++
    toBytes arb 2 ++ toBytes (spGet 0 s.rpl.seqs arb) 6 ++ toBytes want 2 ++ toBytes seen 2 ++
    toBytes (match rplEntry s arb with | some (_, k) => k | none => 0) 1)

/-- The package once a parting is on record and nothing waits any more. -/
def partedWith (s : State) (r : List Byte) : State :=
  let w := (coresOf s (rplAsid s)).foldl (fun u n => traceWrite u n r) s
  { w with rpl := { w.rpl with parted := true, waiting := [] } }

theorem exec_replayParting_due {s : State} {arb t want seen : Nat} (h : s.rpl.waiting.find? (fun x => x.1 == arb) = some (arb, t, want, seen))
    (hm : rplMode s = 2) (hp : s.rpl.parted = false) (hd : t + rplWindow s ≤ s.now) : exec (.replayParting arb) s =
      .next (if bit (rplCtl s) 61 then partedWith s (partingRecord s arb want seen)
        else (coresOf s (rplAsid s)).foldl (fun u n => modCore u n fun c => { c with q := { c.q with rhalt := true } }) (partedWith s (partingRecord s arb want seen))) := by
  have hgo : ¬ (rplMode s != 2 || s.rpl.parted || decide (s.now < t + rplWindow s)) = true := by simp [hm, hp, hd]
  have hctl : rplCtl (partedWith s (partingRecord s arb want seen)) = rplCtl s := rings_rplCtl ..
  simp only [exec_replayParting, execReplayParting, h, if_neg hgo]
  rw [← hctl]
  rfl

/-- Settles O41: the window by session and halt, samples and counters by their periods, a parting by its WINDOW. -/
theorem debugWindowSamplesAndCounters : Obligations.DebugWindowSamplesAndCounters := by
  unfold Obligations.DebugWindowSamplesAndCounters
  refine ⟨?window, ?counters, ?parting⟩
  case window =>
    intro s n v hn hr refused err k
    refine ⟨fun h => ?_, fun h => ?_, fun h => ?_, fun h => ?_, exec_dbgData_closed v, fun h => ⟨exec_dbgData_refused hr h v, fun hh ho => ?_⟩⟩
    · rw [exec_dbgSessionWrite_live v hn hr, if_pos ((sessRefused_iff s v).mpr h)]
      rfl
    · rw [exec_dbgSessionWrite_live v hn hr, if_neg (mt (sessRefused_iff s v).mp h)]
      rfl
    · simp [execDbgStop, execDbgResume, execDbgStep, h]
    · simp [execDbgStop, execDbgResume, execDbgStep, askDebug, h]
    · refine ⟨fun w hw => exec_dbgDataRead_open hr h hh ho hw, fun t ht => exec_dbgDataWrite_open hr h hh ho ht, fun hs hi => ⟨?_, ?_⟩⟩
      · exact exec_dbgDataRead_open hr h hh ho (by rw [hs, dbgGet_sreg s n hi])
      · refine ⟨_, exec_dbgDataWrite_open hr h hh ho (by rw [hs, dbgPut_sreg s n _ hi]), onlyCore_modCore .., fun r => ?_⟩
        rw [coreAt_modCore_same, sreg_setS]
        by_cases hr : r = dbgIndex s n
        · by_cases h0 : dbgIndex s n = 0 <;> simp [hr, h0, sreg]
        · simp [hr, k]
  case counters =>
    intro s c v hc k turns
    refine ⟨fun d hd => ⟨fun hs hr => ?_, fun h => ?_⟩, fun h => ?_, fun h => ?_, fun h => ?_, fun hr => ?_⟩
    · have hgo : ¬ ((coreAt s c).sample < d || !(coreAt s c).q.running) = true := by simp [show (coreAt s c).q.running = true from hr, show d ≤ (coreAt s c).sample from hs]
      rw [exec_traceSample_some hd, if_neg hgo]
    · have hno : ((coreAt s c).sample < d || !(coreAt s c).q.running) = true := by simpa using h
      rw [exec_traceSample_some hd, if_pos hno]
    · simp [execTraceSample, h]
    · exact if_neg (mt (stays_iff s k).mp (not_not_intro h))
    · exact if_pos ((stays_iff s k).mpr h)
    · have hgo : ¬ (s.sec.recovery || decide (192 ≤ c)) = true := by simp [hr, hc]
      exact if_neg hgo
  case parting =>
    intro s arb t want seen
    refine ⟨exec_replayParting_idle, fun h _ _ he => exec_replayParting_early h he, fun h hm hp hd => ?_⟩
    have hdue := exec_replayParting_due h hm hp hd
    intro cs served choice r w u
    refine ⟨fun hb => ?_, fun hb => ?_⟩
    · rw [hdue, if_pos hb]
      rfl
    · rw [hdue, hb]
      rfl

end Sys2Proof.Proofs
end

section
/-! PROOFS. Boot (R398, R401) and the SPDM requests in their order (R400). -/

namespace Sys2Proof.Proofs

open Sys2Proof Sys2Proof.Machine

/-! ## Boot (R398, R401) -/

theorem bootOk_iff (s : State) (fw : List (List Nat)) :
    bootOk s fw = true ↔ fw.length = 4 ∧ ∀ k, k < 4 → imgOk s k (fw.getD k []) = true := by
  simp [bootOk, upTo]

theorem booted_sec (s : State) (fw : List (List Nat)) : (booted s fw).sec =
    { Sec.reset with
      minSvn := if bootOk s fw then (upTo 4).map fun k => (k, max (spGet 0 s.sec.minSvn k) (Config.svnRaise k (spGet 0 s.sec.minSvn k))) else s.sec.minSvn
      dbgFuse := s.sec.dbgFuse, owner := s.sec.owner, recovery := !bootOk s fw, meas := if bootOk s fw then bootMeas s fw else [] } := by
  unfold booted
  dsimp only
  split <;> rfl

/-- What a reset keeps of HBM, and that cores, queues, gangs and hub begin again. -/
theorem booted_frame (s : State) (fw : List (List Nat)) : (booted s fw).mem = s.mem ∧ (booted s fw).cores = [] ∧ (booted s fw).qs = [] ∧
    (booted s fw).gangs = [] ∧ (booted s fw).hub = Hub.reset := by
  unfold booted
  dsimp only
  split <;> exact ⟨rfl, rfl, rfl, rfl, rfl⟩

/-- Every register but HUB_PKG, which has what the flash holds, is as at reset. -/
theorem barRd_booted (s : State) (fw : List (List Nat)) {off : Nat} (h : off ≠ 0x00030000) : barRd (booted s fw) off = barRd State.reset off := by
  unfold booted
  dsimp only
  split
  · rfl
  · exact barRd_barWr_other _ _ h

/-- A boot lowers no minimum version. -/
theorem minSvn_booted_le (s : State) (fw : List (List Nat)) {k : Nat} (h : k < 4) : spGet 0 s.sec.minSvn k ≤ spGet 0 (booted s fw).sec.minSvn k := by
  rw [booted_sec]
  dsimp only
  split
  · obtain rfl | rfl | rfl | rfl : k = 0 ∨ k = 1 ∨ k = 2 ∨ k = 3 := by omega
    all_goals exact Nat.le_max_left ..
  · exact Nat.le_refl _

/-! ## The order of the requests (R400) -/

theorem exec_finish_waiting {s : State} {f : Nat} (b : List Nat) (h : spGet 0 s.sec.spdm f = 4) : exec (.finish f b) s =
    if Config.signatureOk 0xE5 (natBytes b) [] = true then spdmReq s f 4 4 0x65 5 (Config.messageBytes 0xE5 (natBytes b))
    else .next (spdmError s f 0x06) := by
  have hst : decide (spdmState s f = 4) = true := decide_eq_true h
  rw [exec_finish, execFinish, hst]
  cases Config.signatureOk 0xE5 (natBytes b) [] <;> rfl

section Requests

variable {s : State} {f : Nat} (hr : s.sec.recovery = false) (hf : f ≤ 64)

include hr hf

theorem spdm_live : ¬ (s.sec.recovery || decide (f > 64)) = true := by simp [hr, hf]

theorem spdmReq_taken {lo hi : Nat} (code next : Nat) (b : List Byte) (h1 : lo ≤ spGet 0 s.sec.spdm f) (h2 : spGet 0 s.sec.spdm f ≤ hi) :
    spdmReq s f lo hi code next b = .next (modSec (answer s f code b) fun x => { x with spdm := spSet x.spdm f next }) := by
  rw [spdmReq, if_neg (spdm_live hr hf), if_pos]
  rw [Bool.and_eq_true, decide_eq_true_eq, decide_eq_true_eq]
  exact ⟨h1, h2⟩

theorem spdmReq_unexpected {lo hi : Nat} (code next : Nat) (b : List Byte) (h : spGet 0 s.sec.spdm f < lo ∨ hi < spGet 0 s.sec.spdm f) :
    spdmReq s f lo hi code next b = .next (spdmError s f 0x04) := by
  rw [spdmReq, if_neg (spdm_live hr hf), if_neg]
  rw [Bool.and_eq_true, decide_eq_true_eq, decide_eq_true_eq]
  rintro ⟨h1, h2⟩
  have h1' : lo ≤ spGet 0 s.sec.spdm f := h1
  have h2' : spGet 0 s.sec.spdm f ≤ hi := h2
  omega

theorem exec_finish_early (b : List Nat) (h : spGet 0 s.sec.spdm f ≠ 4) : exec (.finish f b) s = .next (spdmError s f 0x04) := by
  have hst : decide (spdmState s f = 4) = false := decide_eq_false h
  rw [exec_finish, execFinish, hst]
  exact spdmReq_unexpected hr hf _ _ _ (by omega)

end Requests

/-- Settles O49: the boot field by field, and each request by the states that take it. -/
theorem bootAndSessions : Obligations.BootAndSessions := by
  unfold Obligations.BootAndSessions
  refine ⟨?reset, ?image, ?requests⟩
  case reset =>
    intro s fw
    obtain ⟨hmem, hcores, hqs, hgangs, hhub⟩ := booted_frame s fw
    have hsec := booted_sec s fw
    refine ⟨booted s fw, rfl, hmem, fun k => minSvn_booted_le s fw, ?_, hcores, hqs, hgangs, hhub, by rw [hsec]; rfl, by rw [hsec]; rfl, by rw [hsec]; rfl,
      fun off => barRd_booted s fw, ?_, ?_⟩
    · rw [hsec]
      cases bootOk s fw <;> simp
    · rw [hsec, ← bootOk_iff]
      cases bootOk s fw <;> simp
    · rw [hsec]
      cases bootOk s fw <;> simp
  case image =>
    intro s k img
    refine ⟨fun h => ?_, fun hr hk hi hb => ⟨booted s img, ?_, ?_, ?_, (booted_frame s img).1⟩⟩
    · have hno : (s.sec.recovery && decide (k < 4) && imgOk s k (img.getD k []) && bootOk s img) = false := by
        rcases h with h | h | h | h
        · simp [h]
        · simp [Nat.not_lt.mpr h]
        · rw [h]; simp
        · rw [h]; simp
      rw [exec_recoveryImage, execRecoveryImage, hno]
      rfl
    · rw [exec_recoveryImage, execRecoveryImage, hr, hi, hb, decide_eq_true hk]
      rfl
    · rw [booted_sec, hb]
      rfl
    · rw [booted_sec, hb]
      rfl
  case requests =>
    intro s f b hr hf st say err goes chain m kx
    have hreq := @spdmReq_taken s f hr hf
    have hunexp := @spdmReq_unexpected s f hr hf
    refine ⟨?rows, fun hb h1 h2 => ?_, fun h => ?_, fun h => ?_, exec_finish_early hr hf b, ?_⟩
    case rows =>
      intro e he
      have hrow : exec e.1 s = spdmReq s f e.2.1 e.2.2.1 e.2.2.2.1 e.2.2.2.2.1 e.2.2.2.2.2 := by
        revert e
        simp only [List.forall_mem_cons]
        exact ⟨rfl, rfl, rfl, rfl, rfl, rfl, rfl, rfl, rfl, rfl, by simp⟩
      rw [hrow]
      exact ⟨hreq _ _ _, hunexp _ _ _⟩
    · rw [exec_getCertificate, execGetCertificate, if_pos hb]
      exact hreq _ _ _ h1 h2
    · rw [exec_getCertificate, execGetCertificate]
      split
      · exact hunexp _ _ _ (.inl h)
      · exact hunexp _ _ _ (.inl h)
    · rw [exec_finish_waiting b h, hreq _ _ _ (Nat.le_of_eq h.symm) (Nat.le_of_eq h)]
      rfl
    · exact if_neg (spdm_live hr hf)

end Sys2Proof.Proofs
end

section
/-! PROOFS. Key slots (R405, R406), streams (R402) and the requests to a device interface (R403), with the wipe. -/

namespace Sys2Proof.Proofs

open Sys2Proof Sys2Proof.Machine

/-! ## Key requests (R406) -/

/-- The slot that a key request names. -/
def keySlotNo (b : List Nat) : Nat := 1024 * b.getD 1 0 + leNat (slice (natBytes b) 2 2)

/-- The address space that a key request names. -/
def keyAsidOf (b : List Nat) : Nat := leNat (slice (natBytes b) 4 2)

/-- What the slot that a key request names holds. -/
def keyOld (s : State) (b : List Nat) : KeySlot := spGet ⟨false, 0, 0, 0, 0⟩ s.sec.slots (keySlotNo b)

/-- The fields of a key request are in range. -/
def keyGood (b : List Nat) (op len : Nat) : Prop :=
  b.headD 0 = op ∧ len ≤ b.length ∧ b.getD 1 0 ≤ 3 ∧ leNat (slice (natBytes b) 2 2) ≤ 1023 ∧ keyAsidOf b ≤ 16383 ∧ leNat (slice (natBytes b) 6 2) = 0

theorem keyBad_iff (b : List Nat) (op len : Nat) :
    (b.headD 0 != op || b.length < len || b.getD 1 0 > 3 || leNat (slice (natBytes b) 2 2) > 1023 || keyAsidOf b > 16383 ||
      leNat (slice (natBytes b) 6 2) != 0) = true ↔ ¬ keyGood b op len := by
  simp only [Bool.or_eq_true, bne_iff_ne, decide_eq_true_eq, keyGood]
  omega

theorem notRun_iff (s : State) (f a : Nat) :
    (spGet 0 s.sec.tdi f != 2 || !(lockedOf s f).contains a) = true ↔ ¬ (spGet 0 s.sec.tdi f = 2 ∧ a ∈ lockedOf s f) := by
  rw [Bool.or_eq_true, bne_iff_ne, Bool.not_eq_true', ← Bool.not_eq_true, List.contains_iff_mem]
  tauto

theorem foreign_iff (k : KeySlot) (a : Nat) : (k.valid && k.asid != a) = true ↔ k.valid = true ∧ k.asid ≠ a := by
  rw [Bool.and_eq_true, bne_iff_ne]

/-- The answer to a key request in a secured session: a status byte. -/
def keySay (u : State) (f status : Nat) : Ans := .next (answer u f 0x7E [BitVec.ofNat 8 status])

/-- The package with a key slot written. -/
def keyPut (s : State) (b : List Nat) (k : KeySlot) : State := modSec s fun x => { x with slots := spSet x.slots (keySlotNo b) k }

section Function

variable {s : State} {f : Nat} (hr : s.sec.recovery = false) (hf : f ≤ 64)

include hr hf

theorem function_live : ¬ (s.sec.recovery || decide (f > 64)) = true := by simp [hr, hf]

/-- With no secured session a key request is unexpected. -/
theorem keyRequest_unsecured (b : List Nat) (op len : Nat) (h : spGet 0 s.sec.spdm f ≠ 5) : keyRequest s f b op len = .next (spdmError s f 0x04) := by
  have hst : (spdmState s f != 5) = true := bne_iff_ne.mpr h
  rw [keyRequest, if_neg (function_live hr hf), if_pos hst]

section Secured

variable (h : spGet 0 s.sec.spdm f = 5) {b : List Nat} {op len : Nat}

include h

/-- The checks of a key request in their order, and what it writes. -/
theorem keyRequest_secured : keyRequest s f b op len =
    if b.headD 0 != op || b.length < len || b.getD 1 0 > 3 || leNat (slice (natBytes b) 2 2) > 1023 || keyAsidOf b > 16383 ||
      leNat (slice (natBytes b) 6 2) != 0 then keySay s f 1
    else if spGet 0 s.sec.tdi f != 2 || !(lockedOf s f).contains (keyAsidOf b) then keySay s f 2
    else if (keyOld s b).valid && (keyOld s b).asid != keyAsidOf b then keySay s f 3
    else keySay (keyPut s b (if op = 1 then ⟨true, keyAsidOf b, BitVec.ofNat 256 (beNat ((b.drop 12).take 32)), BitVec.ofNat 32 (leNat (slice (natBytes b) 8 4)), 0⟩
      else { keyOld s b with valid := false })) f 0 := by
  have hst : ¬ (spdmState s f != 5) = true := by simpa [spdmState] using h
  rw [keyRequest, if_neg (function_live hr hf), if_neg hst]
  rfl

theorem keyRequest_malformed (hg : ¬ keyGood b op len) : keyRequest s f b op len = keySay s f 1 := by
  rw [keyRequest_secured hr hf h, if_pos ((keyBad_iff b op len).mpr hg)]

variable (hg : keyGood b op len)

include hg

theorem keyRequest_notRun (hn : ¬ (spGet 0 s.sec.tdi f = 2 ∧ keyAsidOf b ∈ lockedOf s f)) : keyRequest s f b op len = keySay s f 2 := by
  rw [keyRequest_secured hr hf h, if_neg (mt (keyBad_iff b op len).mp (not_not_intro hg)), if_pos ((notRun_iff s f _).mpr hn)]

variable (hrun : spGet 0 s.sec.tdi f = 2 ∧ keyAsidOf b ∈ lockedOf s f)

include hrun

theorem keyRequest_foreign (hx : (keyOld s b).valid = true ∧ (keyOld s b).asid ≠ keyAsidOf b) : keyRequest s f b op len = keySay s f 3 := by
  rw [keyRequest_secured hr hf h, if_neg (mt (keyBad_iff b op len).mp (not_not_intro hg)), if_neg (mt (notRun_iff s f _).mp (not_not_intro hrun)),
    if_pos ((foreign_iff _ _).mpr hx)]

theorem keyRequest_done (hx : ¬ ((keyOld s b).valid = true ∧ (keyOld s b).asid ≠ keyAsidOf b)) : keyRequest s f b op len =
    keySay (keyPut s b (if op = 1 then ⟨true, keyAsidOf b, BitVec.ofNat 256 (beNat ((b.drop 12).take 32)), BitVec.ofNat 32 (leNat (slice (natBytes b) 8 4)), 0⟩
      else { keyOld s b with valid := false })) f 0 := by
  rw [keyRequest_secured hr hf h, if_neg (mt (keyBad_iff b op len).mp (not_not_intro hg)), if_neg (mt (notRun_iff s f _).mp (not_not_intro hrun)),
    if_neg (mt (foreign_iff _ _).mp hx)]

end Secured

/-! ## Streams (R402) -/

theorem exec_ideKm_unsecured (b : List Nat) (h : spGet 0 s.sec.spdm f ≠ 5) : exec (.ideKm f b) s = .next (spdmError s f 0x04) := by
  have hst : (spdmState s f != 5) = true := bne_iff_ne.mpr h
  rw [exec_ideKm, execIdeKm, if_neg (function_live hr hf), if_pos hst]

theorem exec_ideKm_secured (b : List Nat) (h : spGet 0 s.sec.spdm f = 5) : exec (.ideKm f b) s = .next (modSec (answer s f 0x7E []) fun x =>
    { x with ide := spSet x.ide f (BitVec.ofNat 256 (beNat (b.take 32))), insecure := x.insecure.filter (· != f) }) := by
  have hst : ¬ (spdmState s f != 5) = true := by simpa [spdmState] using h
  rw [exec_ideKm, execIdeKm, if_neg (function_live hr hf), if_neg hst]

theorem exec_ideIntegrityFailure_live : exec (.ideIntegrityFailure f) s =
    .next (tdiError (modSec s fun x => { x with insecure := if f ∈ x.insecure then x.insecure else f :: x.insecure }) f) := by
  rw [exec_ideIntegrityFailure, execIdeIntegrityFailure, if_neg (function_live hr hf)]
  simp only [List.contains_iff_mem]

/-! ## Requests to an interface (R403) -/

theorem tdispReq_live (h1 : 1 ≤ f) (sts : List Nat) (code : Nat) (b : List Byte) (k : State → State) : tdispReq s f sts code b k =
    .next (if sts.contains (spGet 0 s.sec.tdi f) then answer (k s) f (0x1000 + code) b else answer s f 0x107F [4]) := by
  have hc : ¬ (s.sec.recovery || decide (f = 0) || decide (f > 64)) = true := by simp [hr, hf, Nat.ne_of_gt h1]
  rw [tdispReq, if_neg hc]
  split <;> rfl

end Function

theorem tdiError_idle {s : State} {f : Nat} (h1 : spGet 0 s.sec.tdi f ≠ 1) (h2 : spGet 0 s.sec.tdi f ≠ 2) : tdiError s f = s := by
  simp [tdiError, h1, h2]

theorem tdiError_active {s : State} {f : Nat} (h : spGet 0 s.sec.tdi f = 1 ∨ spGet 0 s.sec.tdi f = 2) :
    tdiError s f = tdiWipe { s with sec := { s.sec with tdi := spSet s.sec.tdi f 3 } } f := by
  have hc : (decide (spGet 0 s.sec.tdi f = 1) || decide (spGet 0 s.sec.tdi f = 2)) = true := by simpa using h
  exact if_pos hc

/-- Where one core is listed and no gang exists, the wipe of an address space is that of the core, if it is bound there. -/
theorem coreAt_wipeConf_single (u : State) (a n : Nat) (c : Core) (hg : u.gangs = []) (hc : u.cores = [(n, c)]) :
    coreAt (wipeConf u a) n = if c.bind.isSome = true ∧ asidOf c = a then wipeCore c else c := by
  have hn : coreAt u n = c := by simp [coreAt, hc, spGet, spFind]
  have hcond : (c.bind.isSome && asidOf c == a) = true ↔ c.bind.isSome = true ∧ asidOf c = a := by rw [Bool.and_eq_true, beq_iff_eq]
  have hw : wipeConf u a = if c.bind.isSome = true ∧ asidOf c = a then modCore u n wipeCore else u := by
    simp only [wipeConf, hc, List.foldl_cons, List.foldl_nil, hcond]
    split
    · rw [modCore_gangs, hg]
      rfl
    · rw [hg]
      rfl
  rw [hw]
  split
  · rw [coreAt_modCore_same, hn]
  · exact hn

/-- Settles O50: key requests by their checks in order, streams by their session, and each request to an interface by the states that take it. -/
theorem keysStreamsAndInterfaces : Obligations.KeysStreamsAndInterfaces := by
  unfold Obligations.KeysStreamsAndInterfaces
  intro s f b hr hf st tdi say tell slot asid old good run foreign set toTdi mine refused unlocked queues report failed wiped
  refine ⟨?unsecured, ?secured, fun h1 h2 => ?idle, fun h => ?fails, fun _ => rfl, coreAt_wipeConf_single, ?interface⟩
  case unsecured =>
    intro h
    have hkey := fun op len => keyRequest_unsecured hr hf b op len h
    simp only [List.forall_mem_cons]
    exact ⟨hkey 1 44, hkey 2 8, exec_ideKm_unsecured hr hf b h, by simp⟩
  case secured =>
    intro h
    refine ⟨?_, fun hg hrun hx => keyRequest_done hr hf h hg hrun hx, fun hg hrun hx => keyRequest_done hr hf h hg hrun hx, exec_ideKm_secured hr hf b h⟩
    simp only [List.forall_mem_cons]
    refine ⟨⟨keyRequest_malformed hr hf h, keyRequest_notRun hr hf h, keyRequest_foreign hr hf h⟩,
      ⟨keyRequest_malformed hr hf h, keyRequest_notRun hr hf h, keyRequest_foreign hr hf h⟩, by simp⟩
  case idle =>
    exact (exec_ideIntegrityFailure_live hr hf).trans (congrArg Host.Outcome.next (tdiError_idle h1 h2))
  case fails =>
    exact (exec_ideIntegrityFailure_live hr hf).trans (congrArg Host.Outcome.next (tdiError_active h))
  case interface =>
    intro h1
    have hreq := @tdispReq_live s f hr hf h1
    have htakes : ∀ {sts : List Nat}, tdi ∈ sts → sts.contains (spGet 0 s.sec.tdi f) = true := List.contains_iff_mem.mpr
    have hnot : ∀ {sts : List Nat}, tdi ∉ sts → ¬ sts.contains (spGet 0 s.sec.tdi f) = true := mt List.contains_iff_mem.mp
    refine ⟨fun h => ?_, fun h => ?_, fun h => ?_, fun h => ?_, fun h h' => ?_, fun h => ?_, fun h => ?_, fun h => ?_, fun h => ?_⟩
    · rw [exec_getDeviceInterfaceState, execGetDeviceInterfaceState, hreq, if_pos (htakes (by simp; omega))]
      rfl
    · rw [exec_lockInterfaceRequest, execLockInterfaceRequest, hreq, if_pos (htakes (by simp; omega))]
      rfl
    · rw [exec_lockInterfaceRequest, execLockInterfaceRequest, hreq, if_neg (hnot (by simp; omega))]
      rfl
    · rw [exec_getDeviceInterfaceReport, execGetDeviceInterfaceReport, hreq, if_pos (htakes (by simp; omega))]
      rfl
    · rw [exec_getDeviceInterfaceReport, execGetDeviceInterfaceReport, hreq, if_neg (hnot (by simp; omega))]
      rfl
    · rw [exec_startInterfaceRequest, execStartInterfaceRequest, hreq, if_pos (htakes (by simp; omega))]
      rfl
    · rw [exec_startInterfaceRequest, execStartInterfaceRequest, hreq, if_neg (hnot (by simp; omega))]
      rfl
    · have h2 : ¬ spGet 0 s.sec.tdi f = 2 := by omega
      rw [exec_stopInterfaceRequest, execStopInterfaceRequest, hreq, if_pos (htakes (by simp; omega)), if_neg h2]
      rfl
    · have h2 : spGet 0 s.sec.tdi f = 2 := h
      rw [exec_stopInterfaceRequest, execStopInterfaceRequest, hreq, if_pos (htakes (by simp; omega)), if_pos h2]
      rfl

end Sys2Proof.Proofs
end

section
/-! PROOFS. Doorbells (R335), hardware slots (R341), the reading of records (R335 to R337) and their dependences (R344). -/

namespace Sys2Proof.Proofs

open Sys2Proof Sys2Proof.Machine

/-! ## Memory above what is written -/

/-- A byte written leaves the bytes above it, whatever the form of memory. -/
theorem memFind_memPut_above {k n : Nat} (v : Byte) (h : k < n) : ∀ m : List Host.Cell, memFind (memPut m k v) n = memFind m n
  | [] => by
    unfold memPut
    split
    · rfl
    · simp [memFind, Nat.ne_of_lt h]
  | (a, w) :: m => by
    have hkn : k ≠ n := Nat.ne_of_lt h
    have hnk : ¬ n < k := Nat.lt_asymm h
    unfold memPut
    split
    · split
      · rfl
      · simp [memFind, hkn, hnk]
    · split
      case isTrue _ he =>
        subst he
        split <;> simp [memFind, hkn, hnk]
      case isFalse _ _ => simp only [memFind, memFind_memPut_above v h m]

theorem memFind_memPutBytes_above (b : List Byte) : ∀ (m : List Host.Cell) {a n : Nat}, a + b.length ≤ n → memFind (memPutBytes m a b) n = memFind m n := by
  induction b with
  | nil => exact fun _ _ _ _ => rfl
  | cons x b ih =>
    intro m a n h
    rw [List.length_cons] at h
    rw [memPutBytes, ih _ (by omega), memFind_memPut_above x (by omega)]

theorem memBytes_memPutBytes_above (b : List Byte) (m : List Host.Cell) {a : Nat} (n : Nat) : ∀ {k : Nat}, a + b.length ≤ k →
    memBytes (memPutBytes m a b) k n = memBytes m k n := by
  induction n with
  | zero => exact fun _ => rfl
  | succ n ih =>
    intro k h
    rw [memBytes, memBytes, memFind_memPutBytes_above b m h, ih (by omega)]

/-- A word of a queue's header above the one written stays. -/
theorem qWord_qSet_above (s : State) (q : Nat) {k j : Nat} (v : Nat) (h : k < j) : qWord (qSet s q k v) q j = qWord s q j := by
  have habove : qAddr s q + 8 * k + (toBytes v 8).length ≤ qAddr s q + 8 * j := by
    rw [length_toBytes]
    omega
  exact congrArg leNat (memBytes_memPutBytes_above (toBytes v 8) s.mem 8 habove)

/-! ## Doorbells (R335) -/

/-- A doorbell value that a queue takes. -/
def bellFits (s : State) (q v : Nat) : Prop :=
  (qsOf s q).bound = true ∧ qDevfed s q = false ∧ qState s q = 0 ∧ qTail s q ≤ v ∧ v ≤ qHead s q + 2 ^ qRlog s q

theorem bellDrops_iff (s : State) (q v : Nat) :
    (!(qsOf s q).bound || qDevfed s q || qState s q != 0 || v < qTail s q || v > qHead s q + 2 ^ qRlog s q) = true ↔ ¬ bellFits s q v := by
  simp only [Bool.or_eq_true, Bool.not_eq_true', bne_iff_ne, decide_eq_true_eq, bellFits, ← Bool.not_eq_true, ← Nat.not_le]
  tauto

theorem exec_doorbellWrite_owner {s : State} {f q : Nat} (v : Nat) (hr : s.sec.recovery = false) (hq : q < 65536) (ho : ownerOf s (qAsid s q) = f) :
    exec (.doorbellWrite f q v) s =
      if !(qsOf s q).bound || qDevfed s q || qState s q != 0 || v < qTail s q || v > qHead s q + 2 ^ qRlog s q then .next (qDrop s q) else .next (qSet s q 3 v) := by
  have hc : ¬ (s.sec.recovery || decide (q ≥ 65536) || ownerOf s (qAsid s q) != f) = true := by simp [hr, hq, ho]
  rw [exec_doorbellWrite, execDoorbellWrite, if_neg hc]

theorem exec_doorbellWrite_foreign {s : State} {f q : Nat} (v : Nat) (h : s.sec.recovery = true ∨ ownerOf s (qAsid s q) ≠ f) :
    exec (.doorbellWrite f q v) s = .next s := by
  have hc : (s.sec.recovery || decide (q ≥ 65536) || ownerOf s (qAsid s q) != f) = true := by
    rcases h with h | h <;> simp [h]
  rw [exec_doorbellWrite, execDoorbellWrite, if_pos hc]

/-! ## Hardware slots (R341) -/

theorem exec_queueSlotRequest_idle {s : State} {q : Nat} (h : qActive s q = false ∨ (qsOf s q).slot ≠ none) : exec (.queueSlotRequest q) s = .next s := by
  have hc : (!qActive s q || (qsOf s q).slot.isSome) = true := by
    rcases h with h | h
    · rw [h]; rfl
    · rw [Option.isSome_iff_ne_none.mpr h, Bool.or_true]
  rw [exec_queueSlotRequest, execQueueSlotRequest, if_pos hc]

theorem exec_queueSlotRequest_asks {s : State} {q : Nat} (ha : qActive s q = true) (hs : (qsOf s q).slot = none) : exec (.queueSlotRequest q) s =
    if (qSlotted s).length < 64 then .next (modQ s q fun x => { x with slot := some s.dev }) else
    match qVictim s q with
    | none => .next s
    | some v => .next (modQ (modQ s v fun x => { x with slot := none, head := x.head.map fun r => { r with reg := [], ivl := 0 } }) q fun x =>
        { x with slot := some s.dev }) := by
  have hc : ¬ (!qActive s q || (qsOf s q).slot.isSome) = true := by simp [ha, hs]
  rw [exec_queueSlotRequest, execQueueSlotRequest, if_neg hc]
  split
  · rfl
  · cases qVictim s q <;> rfl

/-! ## Reading a record (R335, R337, R349) -/

/-- The bytes of the record that comes next. -/
def nextRecord (s : State) (q h : Nat) : List Byte := if qHost s q then toBytes h 64 else ringRead s q (qTake s q)

/-- The package that has taken the record that comes next. -/
def recordTaken (s : State) (q : Nat) : State := modTime (qSet s q 4 (qTake s q + 1)) fun t => { t with served := true }

theorem qState_recordTaken (s : State) (q : Nat) : qState (recordTaken s q) q = qState s q :=
  congrArg (bits · 63 62) (qWord_qSet_above s q (qTake s q + 1) (by decide : 4 < 6))

/-- A record is there to be read. -/
def readable (s : State) (q : Nat) : Prop :=
  servesQueues s = true ∧ (qsOf s q).bound = true ∧ qTake s q < qTail s q ∧ (qsOf s q).head = none ∧ qState s q < 2 ∧
    (qHost s q = true → streamOk s (ownerOf s (qAsid s q)) = true)

theorem unreadable_iff (s : State) (q : Nat) :
    (!servesQueues s || !(qsOf s q).bound || qTake s q ≥ qTail s q || (qsOf s q).head.isSome || qState s q ≥ 2 ||
      (qHost s q && !streamOk s (ownerOf s (qAsid s q)))) = true ↔ ¬ readable s q := by
  simp only [readable, not_and_or, Classical.not_imp, Bool.or_eq_true, Bool.and_eq_true, Bool.not_eq_true', Bool.not_eq_true, decide_eq_true_eq, ge_iff_le,
    Nat.not_lt, Option.isSome_iff_ne_none, or_assoc, ne_eq]

theorem exec_recordRead_not {s : State} {q : Nat} (h : Nat) (hr : ¬ readable s q) : exec (.recordRead q h) s = .next s := by
  rw [exec_recordRead, execRecordRead, if_pos ((unreadable_iff s q).mpr hr)]

theorem exec_recordRead_draining {s : State} {q : Nat} (h : Nat) (hr : readable s q) (hst : qState s q = 1) :
    exec (.recordRead q h) s = .next (finishRec (recordTaken s q) q (qTake s q) 6 0 (nextRecord s q h)) := by
  have hgo : ¬ (decide (qState s q = 0) && (qsOf s q).slot.isNone) = true := by simp [hst]
  rw [exec_recordRead, execRecordRead, if_neg (mt (unreadable_iff s q).mp (not_not_intro hr)), if_neg hgo]
  exact if_pos ((qState_recordTaken s q).trans hst)

theorem exec_recordRead_active {s : State} {q : Nat} (h : Nat) (hr : readable s q) (hst : qState s q = 0) (hs : (qsOf s q).slot ≠ none) :
    exec (.recordRead q h) s = match recBad (recordTaken s q) q (nextRecord s q h) with
      | some r => .next (finishRec (recordTaken s q) q (qTake s q) 3 r (nextRecord s q h))
      | none => .next (modQ (recordTaken s q) q fun x =>
          { x with head := some ⟨qTake s q, nextRecord s q h, [], [], 0, 0, false, false, false⟩, unmet := some (recordTaken s q).dev }) := by
  have hgo : ¬ (decide (qState s q = 0) && (qsOf s q).slot.isNone) = true := by
    rw [Option.isNone_eq_false_iff.mpr (Option.isSome_iff_ne_none.mpr hs), Bool.and_false]
    decide
  have hne : ¬ qState (recordTaken s q) q = 1 := by rw [qState_recordTaken, hst]; decide
  rw [exec_recordRead, execRecordRead, if_neg (mt (unreadable_iff s q).mp (not_not_intro hr)), if_neg hgo]
  exact (if_neg hne).trans rfl

/-! ## Dependences (R344) -/

/-- What the dependences of a head record come to. -/
def depStates (s : State) (q : Nat) (r : QRec) : List Nat := (recDeps r.bytes).map fun d => (depState s q r d).1

theorem exec_dependencesMet_idle {s : State} {q : Nat} (h : (qsOf s q).head = none ∨ servesQueues s = false) : exec (.dependencesMet q) s = .next s := by
  rw [exec_dependencesMet, execDependencesMet]
  cases hx : (qsOf s q).head with
  | none => rfl
  | some r =>
    have hs : servesQueues s = false := h.resolve_left (by simp [hx])
    simp [hs]

section Met

variable {s : State} {q : Nat} {r : QRec} (hx : (qsOf s q).head = some r) (hm : r.met = false) (hst : qState s q = 0) (hs : (qsOf s q).slot ≠ none)
  (hserves : servesQueues s = true) (hlog : rplMode s = 0)

include hx hm hst hs hserves hlog

theorem exec_dependencesMet_poisoned (h : 2 ∈ depStates s q r) : exec (.dependencesMet q) s = .next (endHead s q 4 0) := by
  obtain ⟨d, hd, hd2⟩ := List.mem_map.mp h
  have hany : ((recDeps r.bytes).map fun d => (d, depState s q r d)).any (fun x => decide (x.2.1 = 2)) = true := by
    simp only [List.any_map, List.any_eq_true, Function.comp, decide_eq_true_eq]
    exact ⟨d, hd, hd2⟩
  have hn : (qsOf s q).slot.isNone = false := Option.isNone_eq_false_iff.mpr (Option.isSome_iff_ne_none.mpr hs)
  simp only [exec_dependencesMet, execDependencesMet, hx, hm, hst, hn, hserves, checkGate_logOff s q 0 hlog, ite_self, hany]
  rfl

theorem exec_dependencesMet_refused (h2 : 2 ∉ depStates s q r) (h3 : 3 ∈ depStates s q r) : exec (.dependencesMet q) s = .next (endHead s q 3 4) := by
  obtain ⟨d, hd, hd3⟩ := List.mem_map.mp h3
  have hno : ((recDeps r.bytes).map fun d => (d, depState s q r d)).any (fun x => decide (x.2.1 = 2)) = false := by
    rw [List.any_map, List.any_eq_false]
    intro d hd hd2
    exact h2 (List.mem_map.mpr ⟨d, hd, of_decide_eq_true hd2⟩)
  have hany : ((recDeps r.bytes).map fun d => (d, depState s q r d)).any (fun x => decide (x.2.1 = 3)) = true := by
    simp only [List.any_map, List.any_eq_true, Function.comp, decide_eq_true_eq]
    exact ⟨d, hd, hd3⟩
  have hn : (qsOf s q).slot.isNone = false := Option.isNone_eq_false_iff.mpr (Option.isSome_iff_ne_none.mpr hs)
  simp only [exec_dependencesMet, execDependencesMet, hx, hm, hst, hn, hserves, checkGate_logOff s q 0 hlog, ite_self, hno, hany]
  rfl

/-- With every dependence met, image and shape are checked, and a gang of no members is complete. -/
theorem exec_dependencesMet_met (h : ∀ k ∈ depStates s q r, k = 0) : exec (.dependencesMet q) s = match recShape s q r.bytes with
    | .inl (c, e) => .next (endHead s q c e)
    | .inr (_, ls) => if gangSize ls = 0 then .next (endHead s q 0 0)
      else .next (modQ s q fun x => { x with head := some { r with met := true, reg := [] }, unmet := none }) := by
  have hzero : ∀ d ∈ recDeps r.bytes, (depState s q r d).1 = 0 := fun d hd => h _ (List.mem_map.mpr ⟨d, hd, rfl⟩)
  have hno : ∀ k, k ≠ 0 → ((recDeps r.bytes).map fun d => (d, depState s q r d)).any (fun x => decide (x.2.1 = k)) = false := by
    intro k hk
    rw [List.any_map, List.any_eq_false]
    intro d hd hdk
    exact hk ((of_decide_eq_true hdk).symm.trans (hzero d hd))
  have hall : ((recDeps r.bytes).map fun d => (d, depState s q r d)).all (fun x => decide (x.2.1 = 0)) = true := by
    rw [List.all_map, List.all_eq_true]
    exact fun d hd => decide_eq_true (hzero d hd)
  have hn : (qsOf s q).slot.isNone = false := Option.isNone_eq_false_iff.mpr (Option.isSome_iff_ne_none.mpr hs)
  simp only [exec_dependencesMet, execDependencesMet, hx, hm, hst, hn, hserves, checkGate_logOff s q 0 hlog, ite_self, hno 2 (by decide), hno 3 (by decide), hall]
  rfl

end Met

/-- Settles O36: doorbells by what fits, slots by how many are held, records by the queue's state, dependences by what they come to. -/
theorem doorbellsSlotsAndRecords : Obligations.DoorbellsSlotsAndRecords := by
  unfold Obligations.DoorbellsSlotsAndRecords
  intro s f q v h x t b taken fits
  refine ⟨fun hr hq ho hf => ?_, fun hr hq ho hf => ?_, exec_doorbellWrite_foreign v, fun ha hs hn => ?_, fun ha hs hn => ?_, exec_queueSlotRequest_idle,
    fun hb ht hh hserves hhost => ?read, fun hno => ?unread, fun r hx hm hst hs hserves hlog => ?deps, exec_dependencesMet_idle⟩
  · rw [exec_doorbellWrite_owner v hr hq ho, if_neg (mt (bellDrops_iff s q v).mp (not_not_intro hf))]
  · rw [exec_doorbellWrite_owner v hr hq ho, if_pos ((bellDrops_iff s q v).mpr hf)]
  · rw [exec_queueSlotRequest_asks ha hs, if_pos hn]
  · refine ⟨fun w hw => ?_, fun hw => ?_⟩
    · rw [exec_queueSlotRequest_asks ha hs, if_neg (Nat.not_lt.mpr hn), hw]
    · rw [exec_queueSlotRequest_asks ha hs, if_neg (Nat.not_lt.mpr hn), hw]
  case read =>
    have hread : qState s q < 2 → readable s q := fun hst => ⟨hserves, hb, ht, hh, hst, hhost⟩
    refine ⟨fun hst => exec_recordRead_draining h (hread (by omega)) hst, fun hst hs r hr => ?_, fun hst hs hr => ?_⟩
    · rw [exec_recordRead_active h (hread (by omega)) hst hs, show recBad (recordTaken s q) q (nextRecord s q h) = some r from hr]
      rfl
    · rw [exec_recordRead_active h (hread (by omega)) hst hs, show recBad (recordTaken s q) q (nextRecord s q h) = none from hr]
      rfl
  case unread =>
    refine exec_recordRead_not h fun hread => ?_
    obtain ⟨hserves, hb, ht, hh, hst, -⟩ := hread
    rcases hno with hno | hno | hno | hno | hno
    · exact Bool.false_ne_true (hno.symm.trans hb)
    · exact absurd ht (Nat.not_lt.mpr hno)
    · exact hno hh
    · omega
    · exact Bool.false_ne_true (hno.symm.trans hserves)
  case deps =>
    intro st
    refine ⟨exec_dependencesMet_poisoned hx hm hst hs hserves hlog, exec_dependencesMet_refused hx hm hst hs hserves hlog, fun hmet => ?_⟩
    rw [exec_dependencesMet_met hx hm hst hs hserves hlog hmet]
    refine ⟨fun c e hsh => by rw [hsh], fun i ls hsh h0 => ?_, fun i ls hsh h0 => ?_⟩
    · rw [hsh]
      exact if_pos h0
    · rw [hsh]
      exact if_neg h0

end Sys2Proof.Proofs
end

section
/-! PROOFS. Placement of a head record (R344, R347), the quantum of a queue (R342), members stopped where they are (R45, R433). -/

namespace Sys2Proof.Proofs

open Sys2Proof Sys2Proof.Machine

/-! ## Placement (R344, R347) -/

theorem exec_gangPlacement_no_head {s : State} {q : Nat} (pick : List Nat) (h : (qsOf s q).head = none) : exec (.gangPlacement q pick) s = .next s := by
  simp only [exec_gangPlacement, execGangPlacement, placeHead, h]

/-- The pre-emptions that a record asks for which cannot be placed (R347). -/
def pushFor (s : State) (q ctx : Nat) (ls : List Level) : State :=
  preemptFor s (qPart s q) ctx q (qPrio s q) (if turnBegins s q (readyTop s (qPart s q)) then some q else none) fun free => placeGang (partCores s (qPart s q)) free ls

section Head

variable {s : State} {q : Nat} (pick : List Nat) {r : QRec} (hx : (qsOf s q).head = some r) (hm : r.met = true) (hs : servesQueues s = true)

include hx hm hs

/-- A ready record that is not considered next waits. -/
theorem exec_gangPlacement_waits (hr : reqOf s q = none) (hd : mayDispatch s q = false) : exec (.gangPlacement q pick) s = .next s := by
  simp [execGangPlacement, placeHead, hx, hm, hs, hr, hd]

theorem exec_gangPlacement_unfit {c e : Nat} (h : reqOf s q ≠ none ∨ mayDispatch s q = true) (hsh : recShape s q r.bytes = .inl (c, e)) :
    exec (.gangPlacement q pick) s = .next (endHead s q c e) := by
  have hgo : ((reqOf s q).isSome || mayDispatch s q) = true := by simpa [Option.isSome_iff_ne_none] using h
  simp only [exec_gangPlacement, execGangPlacement, placeHead, hx, hm, hs, hgo, hsh]
  rfl

variable {img : Image} {ls : List Level} {ctx : Nat} (hsh : recShape s q r.bytes = .inr (img, ls)) (hctx : ctxOf s (qAsid s q) (qPart s q) = some ctx)

include hsh hctx

/-- A record whose ramp request is outstanding is placed when it lacks nothing and no other context stands in the way (log 39). -/
theorem exec_gangPlacement_requested {rq : RampReq} (hr : reqOf s q = some rq) : exec (.gangPlacement q pick) s =
    .next (if otherBlocks s (qPart s q) ctx then pushFor s q ctx ls
      else if rq.lack = 0 then (if (freeGangId s).isSome then startGang s q r img ls rq.cores none else s) else s) := by
  simp only [exec_gangPlacement, execGangPlacement, placeHead, hx, hm, hs, hr, hsh, hctx, Option.isSome_some, Bool.true_or, Bool.not_true, Bool.or_self,
    Bool.false_eq_true, if_false, pushFor]

variable (hr : reqOf s q = none) (hd : mayDispatch s q = true)

include hr hd

theorem exec_gangPlacement_no_cores (hf : placeGang (partCores s (qPart s q)) (freeOrder s (qPart s q) ctx q pick) ls = none) :
    exec (.gangPlacement q pick) s = .next (pushFor s q ctx ls) := by
  simp only [exec_gangPlacement, execGangPlacement, placeHead, hx, hm, hs, hr, hd, hsh, hctx, hf, Option.isSome_none, Bool.false_or, Bool.not_true,
    Bool.or_self, Bool.false_eq_true, if_false, pushFor]

variable {cores : List Nat} (hf : placeGang (partCores s (qPart s q)) (freeOrder s (qPart s q) ctx q pick) ls = some cores)

include hf

theorem exec_gangPlacement_at_once (hp : (recForce r.bytes img).2 = true ∨ drlEn s = false) : exec (.gangPlacement q pick) s =
    .next (if (freeGangId s).isSome then startGang s q r img ls cores none else s) := by
  have hnow : ((recForce r.bytes img).2 || !drlEn s) = true := by rcases hp with hp | hp <;> simp [hp]
  simp only [exec_gangPlacement, execGangPlacement, placeHead, hx, hm, hs, hr, hd, hsh, hctx, hf, hnow, Option.isSome_none,
    Bool.false_or, Bool.not_true, Bool.or_self, Bool.false_eq_true, if_false, if_true]

theorem exec_gangPlacement_asks (hp : (recForce r.bytes img).2 = false) (he : drlEn s = true) {rq : RampReq}
    (hrq : reqOf (askSlots s q (qAsid s q) cores (slotsPer s (recForce r.bytes img).1)) q = some rq) : exec (.gangPlacement q pick) s =
      .next (if rq.lack = 0 then (if (freeGangId (askSlots s q (qAsid s q) cores (slotsPer s (recForce r.bytes img).1))).isSome then
          startGang (askSlots s q (qAsid s q) cores (slotsPer s (recForce r.bytes img).1)) q r img ls cores none
        else askSlots s q (qAsid s q) cores (slotsPer s (recForce r.bytes img).1)) else askSlots s q (qAsid s q) cores (slotsPer s (recForce r.bytes img).1)) := by
  simp only [exec_gangPlacement, execGangPlacement, placeHead, hx, hm, hs, hr, hd, hsh, hctx, hf, hp, he, hrq,
    Option.isSome_none, Bool.false_or, Bool.not_true, Bool.or_self, Bool.false_eq_true, if_false]

end Head

/-! ## The quantum (R342) -/

theorem exec_quantumExpiry_no_turn {s : State} {q : Nat} (h : (qsOf s q).turn = none ∨ (qsOf s q).turn = some 0) : exec (.quantumExpiry q) s = .next s := by
  rcases h with h | h <;> simp only [exec_quantumExpiry, execQuantumExpiry, h]

theorem exec_quantumExpiry_turn {s : State} {q t : Nat} (h : (qsOf s q).turn = some (t + 1)) : exec (.quantumExpiry q) s =
    if s.dev < t + nsDev (1000 * qQuantum s q) || (qsOf s q).lapsed then .next s else
    match nextAfter q (sameLevel s (qPart s q) (qPrio s q)) with
    | some n => .next (modQ (modQ s q fun x => { x with turn := none }) n fun x => { x with turn := some 0 })
    | none => .next (modQ s q fun x => { x with lapsed := true }) := by
  simp only [exec_quantumExpiry, execQuantumExpiry, h] <;> rfl

/-- The queues of a level, ascending, are those of that priority with a ready record. -/
theorem sameLevel_spec (s : State) (part prio : Nat) :
    (sameLevel s part prio).Pairwise (· ≤ ·) ∧ ∀ n, n ∈ sameLevel s part prio ↔ n ∈ readyQs s part ∧ qPrio s n = prio := by
  refine ⟨?_, fun n => ?_⟩
  · have h := List.pairwise_mergeSort (le := fun a b : Nat => decide (a ≤ b)) (by simp; omega) (by simp; omega) ((readyQs s part).filter fun n => qPrio s n == prio)
    simpa [sameLevel] using h
  · simp [sameLevel]

/-! ## Members stopped where they are (R45, R433) -/

theorem exec_forced_stops {s : State} {c : Nat} (hr : (coreAt s c).q.running = true) :
    (exec (.preemptForcedStop c) s = .next (if (coreAt s c).q.stopReq = 1 ∧ (coreAt s c).q.stopT + nsDev 200000 ≤ s.dev then stopCore s c 0x1D 0 4 else s)) ∧
    (exec (.fillerStopTimeout c) s = .next (if (coreAt s c).q.stopReq = 4 ∧ (coreAt s c).q.stopT + nsDev 1000 ≤ s.dev then stopCore s c 0x1D 0 4 else s)) := by
  have hiff : ∀ k d, ((coreAt s c).q.running && (coreAt s c).q.stopReq == k && decide (s.dev ≥ (coreAt s c).q.stopT + d)) = true ↔
      (coreAt s c).q.stopReq = k ∧ (coreAt s c).q.stopT + d ≤ s.dev := fun k d => by simp [hr]
  refine ⟨?_, ?_⟩
  · simp only [exec_preemptForcedStop, execPreemptForcedStop, hiff, forcedStop, apply_ite Host.Outcome.next]
  · simp only [exec_fillerStopTimeout, execFillerStopTimeout, hiff, forcedStop, apply_ite Host.Outcome.next]

/-- Settles O37: a head record by its request or by the cores it finds, a turn by its quantum, a forced stop by its time. -/
theorem placementQuantumAndStops : Obligations.PlacementQuantumAndStops := by
  unfold Obligations.PlacementQuantumAndStops
  refine ⟨?placement, ?quantum, ?stops⟩
  case placement =>
    intro s q pick x part
    refine ⟨exec_gangPlacement_no_head pick, fun r hx hm hs => ?_⟩
    intro push
    have hsome : ∀ {u : State}, freeGangId u ≠ none → (freeGangId u).isSome = true := Option.isSome_iff_ne_none.mpr
    refine ⟨exec_gangPlacement_waits pick hx hm hs, fun h c e => exec_gangPlacement_unfit pick hx hm hs h, ?fresh, ?requested⟩
    case fresh =>
      intro hr hd img ls ctx hsh hctx found
      refine ⟨exec_gangPlacement_no_cores pick hx hm hs hsh hctx hr hd, fun cores hf hp => ⟨fun hg => ?_, fun hg => ?_⟩, fun cores hf hp he => ?_⟩
      · rw [exec_gangPlacement_at_once pick hx hm hs hsh hctx hr hd hf hp, if_pos (hsome hg)]
      · rw [exec_gangPlacement_at_once pick hx hm hs hsh hctx hr hd hf hp, hg]
        rfl
      · intro t rq hrq
        rw [exec_gangPlacement_asks pick hx hm hs hsh hctx hr hd hf hp he hrq]
        refine ⟨fun h0 hg => ?_, fun hno => ?_⟩
        · rw [if_pos h0, if_pos (hsome hg)]
        · rcases hno with h0 | hg
          · exact congrArg _ (if_neg h0)
          · have hnone : ¬ (freeGangId t).isSome = true := by simp [hg]
            rw [if_neg hnone, ite_self]
    case requested =>
      intro img ls ctx rq hr hsh hctx
      rw [exec_gangPlacement_requested pick hx hm hs hsh hctx hr]
      refine ⟨fun hb => ?_, fun hb h0 hg => ?_, fun hb hno => ?_⟩
      · exact congrArg _ (if_pos hb)
      · rw [hb, if_neg Bool.false_ne_true, if_pos h0, if_pos (hsome hg)]
      · rw [hb, if_neg Bool.false_ne_true]
        rcases hno with h0 | hg
        · rw [if_neg h0]
        · have hnone : ¬ (freeGangId s).isSome = true := by simp [hg]
          rw [if_neg hnone, ite_self]
  case quantum =>
    intro s q
    refine ⟨exec_quantumExpiry_no_turn, fun t ht => ?_⟩
    rw [exec_quantumExpiry_turn ht]
    refine ⟨fun h => if_pos (by simpa using h), fun hdue hl => ⟨sameLevel s (qPart s q) (qPrio s q), ?_⟩⟩
    obtain ⟨hsorted, hmem⟩ := sameLevel_spec s (qPart s q) (qPrio s q)
    have hgo : ¬ (decide (s.dev < t + nsDev (1000 * qQuantum s q)) || (qsOf s q).lapsed) = true := by
      rw [hl, Bool.or_false, decide_eq_true_eq]
      exact Nat.not_lt.mpr hdue
    rw [if_neg hgo]
    exact ⟨hsorted, hmem, fun n hn => by rw [hn], fun hn => by rw [hn]⟩
  case stops =>
    intro s c hr
    obtain ⟨hp, hf⟩ := exec_forced_stops hr
    rw [hp, hf]
    refine ⟨fun h1 h2 => ?_, fun h => ?_, fun h1 h2 => ?_, fun h => ?_⟩
    · exact congrArg _ (if_pos ⟨h1, h2⟩)
    · exact congrArg _ (if_neg fun ⟨h1, h2⟩ => h.elim (· h1) (Nat.not_lt.mpr h2))
    · exact congrArg _ (if_pos ⟨h1, h2⟩)
    · exact congrArg _ (if_neg fun ⟨h1, h2⟩ => h.elim (· h1) (Nat.not_lt.mpr h2))

end Sys2Proof.Proofs
end

section
/-! PROOFS. The commands of the scheduler (R330, R332, R334, R348, R349): what refuses each, what each does, and its RESULT. -/

namespace Sys2Proof.Proofs

open Sys2Proof Sys2Proof.Machine

/-! ## The row of a command (R332, R403) -/

/-- A row other than that of the command under way is lost. -/
theorem exec_schedRows_lost {s : State} {n : Nat} {e : Nat × Nat × Instr} (he : e ∈ schedRows n) (hr : s.sec.recovery = false) {x : Nat × Nat × Nat}
    (hx : s.sched = some x) (hne : x ≠ (e.1, e.2.1, n)) : exec e.2.2 s = .next (setHealth (barWr s schedSts (barRd s schedSts ||| (1#64 <<< 62))) 0) := by
  have hbeq : ¬ (x == (e.1, e.2.1, n)) = true := by simpa using hne
  rw [exec_schedRows n e he, schedCmd, hx]
  exact congrArg _ ((if_neg hbeq).trans (schedTake_busy s e.1 e.2.1 n hr (by simp [hx])))

/-- What a command of the PF comes to that may be carried out: RESULT and what it does. -/
def schedDone (s : State) (op mode n : Nat) : State :=
  schedEnd (schedOp s op mode n).2 schedSts ((schedAsid s op n).getD 0) op n (schedOp s op mode n).1

section Row

variable {s : State} {n : Nat} {e : Nat × Nat × Instr} (he : e ∈ schedRows n) (hr : s.sec.recovery = false) (hfree : s.sched = none)

include he hr hfree

/-- A command that names a locked address space, CTX_DESTROY and KILL apart, moves its TDI to ERROR (R403, log 33). -/
theorem exec_schedRows_locked {a : Nat} (ha : schedAsid s e.1 n = some a) (hl : s.sec.locked.contains a = true) (h2 : e.1 ≠ 2) (h4 : ¬ (e.1 = 4 ∧ e.2.1 = 1)) :
    exec e.2.2 s = .next (cmdDone (tdiError s (ownerOf s a)) schedSts a e.1 n 2) := by
  have hc : ((schedAsid s e.1 n).any s.sec.locked.contains && e.1 != 2 && !(decide (e.1 = 4) && decide (e.2.1 = 1))) = true := by
    rw [ha, Option.any_some, hl, bne_iff_ne.mpr h2]
    simpa using not_and_or.mp h4
  rw [exec_schedRows n e he, schedCmd, hfree]
  simp only [schedDo, hr, Bool.false_eq_true, if_false, hc, if_true]
  rw [ha]
  rfl

theorem exec_schedRows_open (hl : (∀ a, schedAsid s e.1 n = some a → s.sec.locked.contains a = false) ∨ e.1 = 2 ∨ (e.1 = 4 ∧ e.2.1 = 1)) :
    exec e.2.2 s = .next (schedDone s e.1 e.2.1 n) := by
  have hc : ¬ ((schedAsid s e.1 n).any s.sec.locked.contains && e.1 != 2 && !(decide (e.1 = 4) && decide (e.2.1 = 1))) = true := by
    rcases hl with hl | hl | ⟨h4, h1⟩
    · cases ha : schedAsid s e.1 n with
      | none => simp
      | some a =>
        rw [Option.any_some, hl a ha]
        simp
    · simp [hl]
    · simp [h4, h1]
  rw [exec_schedRows n e he, schedCmd, hfree]
  simp only [schedDo, hr, Bool.false_eq_true, if_false, if_neg hc]
  rfl

end Row

/-- A command ends at once, but for Q_TEARDOWN and PREEMPT accepted (log 35). -/
theorem schedEnd_done (u : State) (sts a n : Nat) {op r : Nat} (h : r ≠ 0 ∨ (op ≠ 4 ∧ op ≠ 6)) : schedEnd u sts a op n r = cmdDone u sts a op n r := by
  have h4 : ¬ (decide (r = 0) && decide (op = 4)) = true := by
    rw [Bool.and_eq_true, decide_eq_true_eq, decide_eq_true_eq]
    omega
  have h6 : ¬ (decide (r = 0) && decide (op = 6)) = true := by
    rw [Bool.and_eq_true, decide_eq_true_eq, decide_eq_true_eq]
    omega
  rw [schedEnd, if_neg h4, if_neg h6]

theorem schedDone_ends {s : State} {op mode n r : Nat} {u : State} (h : schedOp s op mode n = (r, u)) (hr : r ≠ 0 ∨ (op ≠ 4 ∧ op ≠ 6)) :
    schedDone s op mode n = cmdDone u schedSts ((schedAsid s op n).getD 0) op n r := by
  rw [schedDone, h, schedEnd_done _ _ _ _ hr]

/-- Q_TEARDOWN accepted is under way: its event comes when the queue has reached its state (R349, log 35). -/
theorem schedDone_teardown {s : State} {mode n : Nat} {u : State} (h : schedOp s 4 mode n = (0, u)) :
    schedDone s 4 mode n = cmdTaken (modQ u n fun x => { x with tsts := schedSts }) schedSts := by
  rw [schedDone, h]
  rfl

/-- PREEMPT accepted is under way: its event comes when the gang is saved (R348, log 35). -/
theorem schedDone_preempt {s : State} {mode n : Nat} {u : State} (h : schedOp s 6 mode n = (0, u)) :
    schedDone s 6 mode n = cmdTaken (modGang u n fun g => { g with psts := schedSts }) schedSts := by
  rw [schedDone, h]
  rfl

/-! ## Contexts (R330) -/

/-- The operand of CTX_CREATE is bad. -/
def ctxBad (s : State) (n : Nat) : Prop :=
  4096 ≤ n ∨ partValid s (ctxPart s n) = false ∨ asidLive s (ctxAsid s n) = false ∨ ctxSave s n % 2 ^ 22 ≠ 0

theorem ctxBad_iff (s : State) (n : Nat) :
    (n ≥ 4096 || !partValid s (ctxPart s n) || !asidLive s (ctxAsid s n) || ctxSave s n % 2 ^ 22 != 0) = true ↔ ctxBad s n := by
  simp only [Bool.or_eq_true, Bool.not_eq_true', decide_eq_true_eq, bne_iff_ne, ctxBad, or_assoc, ge_iff_le]

theorem not_ctxBad {s : State} {n : Nat} (hn : n < 4096) (hp : partValid s (ctxPart s n) = true) (ha : asidLive s (ctxAsid s n) = true)
    (hs : ctxSave s n % 2 ^ 22 = 0) : ¬ ctxBad s n := by
  simp only [ctxBad, hp, ha, hs, Bool.true_eq_false, ne_eq, not_true_eq_false, or_false]
  omega

/-- The package with an empty context. -/
def ctxMade (s : State) (n : Nat) : State :=
  ctxSetState { s with mem := memClear s.mem (ctxWide s n) (4096 * (partCores s (ctxPart s n)).length)
                       loss := s.loss.filter fun e => e.1 / 192 != n
                       ranOn := s.ranOn.filter fun k => k / 192 != n } n true 0

theorem ctxCreate_bad {s : State} {n : Nat} (h : ctxBad s n) : ctxCreate s n = (1, s) := if_pos ((ctxBad_iff s n).mpr h)

theorem ctxCreate_used {s : State} {n : Nat} (h : ¬ ctxBad s n) (hv : ctxValid s n = true) : ctxCreate s n = (2, s) :=
  (if_neg (mt (ctxBad_iff s n).mp h)).trans (if_pos hv)

theorem ctxCreate_made {s : State} {n : Nat} (h : ¬ ctxBad s n) (hv : ctxValid s n = false) : ctxCreate s n = (0, ctxMade s n) :=
  (if_neg (mt (ctxBad_iff s n).mp h)).trans (if_neg (Bool.eq_false_iff.mp hv))

/-- A gang or a bound queue of a context is left. -/
def ctxUsed (s : State) (n : Nat) : Prop := (∃ g, g ∈ s.gangs ∧ g.2.ctx = n) ∨
  ∃ q, q ∈ s.qs ∧ q.2.bound = true ∧ qAsid s q.1 = ctxAsid s n ∧ qPart s q.1 = ctxPart s n ∧ qState s q.1 ≠ 3

theorem ctxUsed_iff (s : State) (n : Nat) : (s.gangs.any (fun g => g.2.ctx == n) ||
    s.qs.any (fun q => q.2.bound && qAsid s q.1 == ctxAsid s n && qPart s q.1 == ctxPart s n && qState s q.1 != 3)) = true ↔ ctxUsed s n := by
  simp only [Bool.or_eq_true, List.any_eq_true, Bool.and_eq_true, beq_iff_eq, bne_iff_ne, ctxUsed, and_assoc]

theorem ctxDestroy_bad {s : State} {n : Nat} (h : 4096 ≤ n) : ctxDestroy s n = (1, s) := if_pos h

theorem ctxDestroy_refused {s : State} {n : Nat} (hn : n < 4096) (h : ctxValid s n = false ∨ ctxUsed s n) : ctxDestroy s n = (2, s) := by
  refine (if_neg (Nat.not_le.mpr hn)).trans ?_
  cases hv : ctxValid s n with
  | false => rfl
  | true => exact if_pos ((ctxUsed_iff s n).mpr (h.resolve_left (by simp [hv])))

theorem ctxDestroy_done {s : State} {n : Nat} (hn : n < 4096) (hv : ctxValid s n = true) (hu : ¬ ctxUsed s n) : ctxDestroy s n = (0, ctxSetState s n false 0) := by
  refine (if_neg (Nat.not_le.mpr hn)).trans ?_
  rw [hv]
  exact if_neg (mt (ctxUsed_iff s n).mp hu)

/-! ## Queues (R334, R349) -/

/-- The header of a queue is refused. -/
def bindBad (s : State) (n : Nat) : Prop := qValid s n = false ∨ qRlog s n < 4 ∨ 20 < qRlog s n ∨ partValid s (qPart s n) = false ∨
  asidLive s (qAsid s n) = false ∨ ctxOf s (qAsid s n) (qPart s n) = none

theorem bindBad_iff (s : State) (n : Nat) : (!qValid s n || qRlog s n < 4 || qRlog s n > 20 || !partValid s (qPart s n) || !asidLive s (qAsid s n) ||
    (ctxOf s (qAsid s n) (qPart s n)).isNone) = true ↔ bindBad s n := by
  simp only [Bool.or_eq_true, Bool.not_eq_true', decide_eq_true_eq, Option.isNone_iff_eq_none, bindBad, or_assoc, gt_iff_lt]

theorem qBind_bad {s : State} {n : Nat} (h : bindBad s n) : qBind s n = (1, s) := if_pos ((bindBad_iff s n).mpr h)

theorem qBind_bound {s : State} {n : Nat} (h : ¬ bindBad s n) (hb : (qsOf s n).bound = true) (hs : qState s n ≠ 3) : qBind s n = (2, s) := by
  refine (if_neg (mt (bindBad_iff s n).mp h)).trans (if_pos ?_)
  rw [hb, Bool.true_and, bne_iff_ne]
  exact hs

theorem qBind_done {s : State} {n : Nat} (h : ¬ bindBad s n) (hb : ¬ (qsOf s n).bound = true ∨ qState s n = 3) :
    qBind s n = (0, qSetState (modQ s n fun _ => { QState.reset with bound := true }) n 0) := by
  refine (if_neg (mt (bindBad_iff s n).mp h)).trans (if_neg ?_)
  rw [Bool.and_eq_true, bne_iff_ne]
  exact fun ⟨h1, h2⟩ => hb.elim (· h1) h2

theorem qTeardown_unbound {s : State} {n : Nat} (mode : Nat) (h : ¬ (qsOf s n).bound = true) : qTeardown s n mode = (1, s) := by
  refine if_pos ?_
  rw [Bool.not_eq_true', ← Bool.not_eq_true]
  exact h

/-- The states out of which a teardown is refused. -/
def tearRefused (st mode : Nat) : Prop := st = 3 ∨ (mode = 0 ∧ st = 1) ∨ (mode = 2 ∧ st ≠ 0)

theorem tearRefused_iff (st mode : Nat) :
    (decide (st = 3) || (decide (mode = 0) && decide (st = 1)) || (decide (mode = 2) && st != 0)) = true ↔ tearRefused st mode := by
  simp only [Bool.or_eq_true, Bool.and_eq_true, decide_eq_true_eq, bne_iff_ne, tearRefused, or_assoc]

section Bound

variable {s : State} {n : Nat} (hb : (qsOf s n).bound = true)

include hb

theorem qTeardown_refused {mode : Nat} (h : tearRefused (qState s n) mode) : qTeardown s n mode = (2, s) := by
  have hno : ¬ (!(qsOf s n).bound) = true := by simp [hb]
  rw [qTeardown, if_neg hno, if_pos ((tearRefused_iff _ _).mpr h)]

/-- A queue to be frozen: its ramp request is gone, its head record asks anew. -/
def frozen (s : State) (n : Nat) : State := modQ (dropReq (modQ (qSetState s n 2) n fun x => { x with teardown := some 2 }) n) n fun x =>
  { x with head := x.head.map fun r => { r with asked := false, granted := false } }

/-- A queue that drains or is killed, with its head record and what its ring holds ended. -/
def drained (s : State) (n mode : Nat) : State :=
  let t := endHead (modQ (qSetState s n 1) n fun x => { x with teardown := some mode }) n 6 0
  if qHost t n then t else discardRing (qTail t n - qTake t n) t n

theorem qTeardown_freeze (hs : qState s n = 0) : qTeardown s n 2 = (0, (gangsOf (frozen s n) n).foldl (fun t g =>
    if g.2.state = 0 then modGang (askStop t g.2.cores 1 none) g.1 fun g => { g with state := 1 } else t) (frozen s n)) := by
  have hno : ¬ (!(qsOf s n).bound) = true := by simp [hb]
  have hgo : ¬ tearRefused (qState s n) 2 := by simp [tearRefused, hs]
  rw [qTeardown, if_neg hno, if_neg (mt (tearRefused_iff _ _).mp hgo)]
  rfl

theorem qTeardown_drain (hs : qState s n = 0) : qTeardown s n 0 = (0, drained s n 0) := by
  have hno : ¬ (!(qsOf s n).bound) = true := by simp [hb]
  have hgo : ¬ tearRefused (qState s n) 0 := by simp [tearRefused, hs]
  rw [qTeardown, if_neg hno, if_neg (mt (tearRefused_iff _ _).mp hgo)]
  rfl

theorem qTeardown_kill (hs : qState s n = 0) :
    qTeardown s n 1 = (0, (gangsOf (drained s n 1) n).foldl (fun t g => killGang t g.1 g.2) (drained s n 1)) := by
  have hno : ¬ (!(qsOf s n).bound) = true := by simp [hb]
  have hgo : ¬ tearRefused (qState s n) 1 := by simp [tearRefused, hs]
  rw [qTeardown, if_neg hno, if_neg (mt (tearRefused_iff _ _).mp hgo)]
  rfl

end Bound

theorem qRestore_unbound {s : State} {n : Nat} (h : ¬ (qsOf s n).bound = true) : qRestore s n = (1, s) := by
  refine if_pos ?_
  rw [Bool.not_eq_true', ← Bool.not_eq_true]
  exact h

theorem qRestore_bound {s : State} {n : Nat} (hb : (qsOf s n).bound = true) :
    qRestore s n = if qState s n ≠ 2 ∨ (qsOf s n).teardown ≠ none then (2, s) else (0, qSetState s n 0) := by
  have hno : ¬ (!(qsOf s n).bound) = true := by simp [hb]
  have hiff : (qState s n != 2 || (qsOf s n).teardown.isSome) = true ↔ qState s n ≠ 2 ∨ (qsOf s n).teardown ≠ none := by
    rw [Bool.or_eq_true, bne_iff_ne, Option.isSome_iff_ne_none]
  rw [qRestore, if_neg hno, if_congr hiff rfl rfl]

/-! ## Gangs (R332, R346, R348) -/

theorem modGang_some {s : State} {n : Nat} {g : Gang} (hg : spFind s.gangs n = some g) (f : Gang → Gang) :
    modGang s n f = { s with gangs := spSet s.gangs n (f g) } := by
  simp only [modGang, gangAt, hg]

section Gang

variable {s : State} {n : Nat} {g : Gang} (hg : spFind s.gangs n = some g)

include hg

theorem preemptGang_late (h : 2 ≤ g.state) : preemptGang s n = (2, s) := by
  simp only [preemptGang, gangAt, hg]
  exact if_pos h

theorem preemptGang_placed (h : g.state < 2) :
    preemptGang s n = (0, modGang (askStop s g.cores 1 none) n fun g => { g with state := 1, trap := true }) := by
  simp only [preemptGang, gangAt, hg]
  exact if_neg (Nat.not_le.mpr h)

theorem resumeGang_not_waiting (h : g.state ≠ 3) : resumeGang s n = (2, s) := by
  simp only [resumeGang, gangAt, hg]
  exact if_pos (bne_iff_ne.mpr h)

theorem resumeGang_again (h : g.state = 3) (hk : retireHeld g.saved = [] ∨ ∃ k ∈ retireHeld g.saved, k.q.retired = false) : resumeGang s n =
    (0, { s with gangs := spSet s.gangs n { g with state := 2, trap := false, resume := true, saved := retireHeld g.saved } }) := by
  have hc : ¬ (!(retireHeld g.saved).isEmpty && (retireHeld g.saved).all fun k => k.q.retired) = true := by
    rw [Bool.and_eq_true, List.all_eq_true]
    rintro ⟨hne, hall⟩
    rcases hk with hk | ⟨k, hk, hr⟩
    · simp [hk] at hne
    · exact Bool.false_ne_true (hr.symm.trans (hall k hk))
  simp only [resumeGang, gangAt, hg, h, modGang_some hg]
  exact if_neg hc

theorem resumeGang_complete (h : g.state = 3) (hne : retireHeld g.saved ≠ []) (hall : ∀ k ∈ retireHeld g.saved, k.q.retired = true) :
    resumeGang s n = (0, dropGang (finishRec s g.queue g.idx 0 0 g.bytes) n) := by
  have hc : (!(retireHeld g.saved).isEmpty && (retireHeld g.saved).all fun k => k.q.retired) = true := by
    rw [List.isEmpty_eq_false_iff.mpr hne, Bool.not_false, Bool.true_and, List.all_eq_true]
    exact hall
  simp only [resumeGang, gangAt, hg, h]
  exact if_pos hc

end Gang

/-- Settles O35: each command by what its operation answers, RESULT and event by how a command ends. -/
theorem schedulerCommands : Obligations.SchedulerCommands := by
  unfold Obligations.SchedulerCommands
  intro s n hr set done taken tornBy locked part inUse bound
  have open_ {a : Nat} (h : ¬ locked a) : ∀ a', some a = some a' → s.sec.locked.contains a' = false := by
    rintro _ ⟨⟩
    exact Bool.eq_false_iff.mpr h
  refine ⟨?lost, fun hfree => ?_⟩
  case lost =>
    exact List.forall_mem_map (f := fun e : Nat × Nat × Instr => (e.2.2, e.1, e.2.1)) (l := schedRows n).mpr fun e he _ => exec_schedRows_lost he hr
  have create : (1, 0, Instr.ctxCreate n) ∈ schedRows n := by simp [schedRows]
  have destroy : (2, 0, Instr.ctxDestroy n) ∈ schedRows n := by simp [schedRows]
  have bind : (3, 0, Instr.qBind n) ∈ schedRows n := by simp [schedRows]
  have drain : (4, 0, Instr.qTeardownDrain n) ∈ schedRows n := by simp [schedRows]
  have kill : (4, 1, Instr.qTeardownKill n) ∈ schedRows n := by simp [schedRows]
  have freeze : (4, 2, Instr.qTeardownFreeze n) ∈ schedRows n := by simp [schedRows]
  have restore : (5, 0, Instr.qRestore n) ∈ schedRows n := by simp [schedRows]
  have preempt : (6, 0, Instr.preempt n) ∈ schedRows n := by simp [schedRows]
  have resume : (7, 0, Instr.resume n) ∈ schedRows n := by simp [schedRows]
  -- a command that ends at once, one refused because of its address space, and a teardown under way
  have ends {op mode r : Nat} {i : Instr} {u : State} (he : (op, mode, i) ∈ schedRows n)
      (hl : (∀ a, schedAsid s op n = some a → s.sec.locked.contains a = false) ∨ op = 2 ∨ (op = 4 ∧ mode = 1)) (h : schedOp s op mode n = (r, u))
      (hend : r ≠ 0 ∨ (op ≠ 4 ∧ op ≠ 6)) : exec i s = .next (done op ((schedAsid s op n).getD 0) r u) :=
    (exec_schedRows_open he hr hfree hl).trans (congrArg _ (schedDone_ends h hend))
  have refused {op mode a : Nat} {i : Instr} (he : (op, mode, i) ∈ schedRows n) (ha : schedAsid s op n = some a) (hl : locked a) (h2 : op ≠ 2)
      (h4 : ¬ (op = 4 ∧ mode = 1)) : exec i s = .next (done op a 2 (tdiError s (ownerOf s a))) := exec_schedRows_locked he hr hfree ha hl h2 h4
  have torn {mode : Nat} {i : Instr} {u : State} (he : (4, mode, i) ∈ schedRows n)
      (hl : (∀ a, schedAsid s 4 n = some a → s.sec.locked.contains a = false) ∨ mode = 1) (h : schedOp s 4 mode n = (0, u)) : exec i s = .next (tornBy u) :=
    (exec_schedRows_open he hr hfree (hl.imp_right fun h => .inr ⟨rfl, h⟩)).trans (congrArg _ (schedDone_teardown h))
  refine ⟨fun hl => refused create rfl hl (by decide) (by decide), fun hl => ?locked, fun hl => ⟨fun h => ?_, fun hn hp ha hs => ⟨fun hv => ?_, fun hv => ?_⟩⟩,
    fun h => ?_, fun hn h => ?_, fun hn hv hu => ?_, fun hl => ?bind, fun hb => ?_, fun hb hs => ?_, fun hl => ?torn, fun hb hs => ?teardown, fun hl => ?restore,
    fun g hg => ⟨fun hl => ⟨?_, ?_⟩, fun hl => ?gang⟩, fun hg => ?none⟩
  case locked =>
    simp only [List.forall_mem_cons]
    exact ⟨refused bind rfl hl (by decide) (by decide), refused drain rfl hl (by decide) (by decide), refused freeze rfl hl (by decide) (by decide),
      refused restore rfl hl (by decide) (by decide), by simp⟩
  · exact ends create (.inl (open_ hl)) (ctxCreate_bad h) (by decide)
  · exact ends create (.inl (open_ hl)) (ctxCreate_used (not_ctxBad hn hp ha hs) hv) (by decide)
  · exact ends create (.inl (open_ hl)) (ctxCreate_made (not_ctxBad hn hp ha hs) hv) (by decide)
  · exact ends destroy (.inr (.inl rfl)) (ctxDestroy_bad h) (by decide)
  · exact ends destroy (.inr (.inl rfl)) (ctxDestroy_refused hn h) (by decide)
  · exact ends destroy (.inr (.inl rfl)) (ctxDestroy_done hn hv hu) (by decide)
  case bind =>
    intro bad
    exact ⟨fun h => ends bind (.inl (open_ hl)) (qBind_bad h) (by decide), fun h hb hs => ends bind (.inl (open_ hl)) (qBind_bound h hb hs) (by decide),
      fun h hb => ends bind (.inl (open_ hl)) (qBind_done h hb) (by decide)⟩
  · exact ends kill (.inr (.inr ⟨rfl, rfl⟩)) (qTeardown_unbound 1 hb) (by decide)
  · exact ends kill (.inr (.inr ⟨rfl, rfl⟩)) (qTeardown_refused hb (.inl hs)) (by decide)
  case torn =>
    simp only [List.forall_mem_cons]
    exact ⟨⟨fun hb => ends drain (.inl (open_ hl)) (qTeardown_unbound 0 hb) (by decide), fun hb h => ends drain (.inl (open_ hl)) (qTeardown_refused hb (by simpa [tearRefused] using h)) (by decide)⟩,
      ⟨fun hb => ends freeze (.inl (open_ hl)) (qTeardown_unbound 2 hb) (by decide), fun hb h => ends freeze (.inl (open_ hl)) (qTeardown_refused hb (by simpa [tearRefused] using h)) (by decide)⟩,
      by simp⟩
  case teardown =>
    intro ended killed held cut
    exact ⟨fun hl => torn drain (.inl (open_ hl)) (qTeardown_drain hb hs), torn kill (.inr rfl) (qTeardown_kill hb hs),
      fun hl => torn freeze (.inl (open_ hl)) (qTeardown_freeze hb hs)⟩
  case restore =>
    refine ⟨fun hb => ends restore (.inl (open_ hl)) (qRestore_unbound hb) (by decide),
      fun hb h => ends restore (.inl (open_ hl)) ((qRestore_bound hb).trans (if_pos h)) (by decide),
      fun hb hs ht => ends restore (.inl (open_ hl)) ((qRestore_bound hb).trans (if_neg (by simp [hs, ht]))) (by decide)⟩
  · exact refused preempt (by simp [schedAsid, gangAt, hg]) hl (by decide) (by decide)
  · exact refused resume (by simp [schedAsid, gangAt, hg]) hl (by decide) (by decide)
  case gang =>
    intro kept
    have h6 : schedAsid s 6 n = some g.asid := congrArg (Option.map Gang.asid) hg
    have h7 : schedAsid s 7 n = some g.asid := h6
    have hopen6 : ∀ a, schedAsid s 6 n = some a → s.sec.locked.contains a = false := by rw [h6]; exact open_ hl
    have hopen7 : ∀ a, schedAsid s 7 n = some a → s.sec.locked.contains a = false := hopen6
    refine ⟨fun h => ?_, fun h => ?_, fun h => ?_, fun h hk => ?_, fun h hne hall => ?_⟩
    · exact (ends preempt (.inl hopen6) (preemptGang_late hg h) (by decide)).trans (by rw [h6]; rfl)
    · exact (exec_schedRows_open preempt hr hfree (.inl hopen6)).trans (congrArg _ (schedDone_preempt (preemptGang_placed hg h)))
    · exact (ends resume (.inl hopen7) (resumeGang_not_waiting hg h) (by decide)).trans (by rw [h7]; rfl)
    · exact (ends resume (.inl hopen7) (resumeGang_again hg h hk) (by decide)).trans (by rw [h7]; rfl)
    · exact (ends resume (.inl hopen7) (resumeGang_complete hg h hne hall) (by decide)).trans (by rw [h7]; rfl)
  case none =>
    have h6 : schedAsid s 6 n = none := congrArg (Option.map Gang.asid) hg
    have h7 : schedAsid s 7 n = none := h6
    have hp : preemptGang s n = (1, s) := by simp only [preemptGang, gangAt, hg]
    have hres : resumeGang s n = (1, s) := by simp only [resumeGang, gangAt, hg]
    exact ⟨(ends preempt (.inl (by simp [h6])) hp (by decide)).trans (by rw [h6]; rfl), (ends resume (.inl (by simp [h7])) hres (by decide)).trans (by rw [h7]; rfl)⟩

end Sys2Proof.Proofs
end

section
/-! PROOFS. Gangs saved, placed again and retired (R175, R345, R346, R348, R351, R410, R434): what CONTEXT_SAVE, CONTEXT_RESTORE and TILE_TASK_RETIRE come to. -/

namespace Sys2Proof.Proofs

open Sys2Proof Sys2Proof.Machine

/-! ## CONTEXT_SAVE (R348) -/

/-- The cause that a member's fault record names. -/
def frecCause (k : Core) : Nat := leNat (slice k.q.frec 8 1)

/-- A member that has not retired stopped for a trap, neither a STOP nor a pre-emption. -/
def trapStopped (k : Core) : Bool := !k.q.retired && frecCause k != 0x1D && frecCause k != 0x1E

/-- A gang that has left its cores, `trap` telling whether it waits for RESUME. -/
def savedAs (s : State) (n : Nat) (g : Gang) (trap : Bool) : State :=
  let held := modGang s n fun x => { x with trap := trap }
  saveGang held n { g with trap := trap } (g.aside.isSome || g.filling || (g.giving && othersWait held g.part))

/-- When a gang's image is written. -/
def savedAt (s : State) (g : Gang) : Nat :=
  (g.cores.map fun c => (coreAt s c).q.stopT).foldl max 0 + swapTime (fastPath s g).isSome g.cores.length

/-- What keeps CONTEXT_SAVE from doing anything. -/
def notSaved (s : State) (g : Gang) : Bool :=
  let cs := g.cores.map (coreAt s)
  !g.placed || g.killed || !g.cores.all (savable s) || cs.all (fun c => c.q.retired) || cs.any (fun c => c.halted) ||
    s.dev < (cs.map fun c => c.q.stopT).foldl max 0 + swapTime (fastPath s g).isSome cs.length

theorem savedAt_eq (s : State) (g : Gang) : savedAt s g =
    ((g.cores.map (coreAt s)).map fun c => c.q.stopT).foldl max 0 + swapTime (fastPath s g).isSome (g.cores.map (coreAt s)).length := by
  rw [List.map_map, List.length_map]
  rfl

theorem notSaved_of {s : State} {g : Gang} (h : 2 ≤ g.state ∨ (∃ c, c ∈ g.cores ∧ savable s c = false) ∨ s.dev < savedAt s g) : notSaved s g = true := by
  simp only [notSaved, ← savedAt_eq, Gang.placed, Bool.or_eq_true, Bool.not_eq_true', decide_eq_true_eq, decide_eq_false_iff_not, List.all_eq_false]
  rcases h with h | ⟨c, hc, h⟩ | h
  · exact .inl (.inl (.inl (.inl (.inl (by omega)))))
  · exact .inl (.inl (.inl (.inr ⟨c, hc, by simp [h]⟩)))
  · exact .inr h

theorem notSaved_eq_false {s : State} {g : Gang} (hst : g.state ≤ 1) (hk : g.killed = false) (hs : ∀ c ∈ g.cores, savable s c = true ∧ (coreAt s c).halted = false)
    (hr : ∃ c, c ∈ g.cores ∧ (coreAt s c).q.retired = false) (ht : savedAt s g ≤ s.dev) : notSaved s g = false := by
  obtain ⟨c, hc, hret⟩ := hr
  simp only [notSaved, ← savedAt_eq, Gang.placed, hk, Bool.or_eq_false_iff, Bool.not_eq_false', decide_eq_true_eq, decide_eq_false_iff_not, List.all_eq_false,
    List.all_eq_true, List.any_eq_false, List.forall_mem_map, Nat.not_lt]
  exact ⟨⟨⟨⟨⟨hst, trivial⟩, fun d hd => (hs d hd).1⟩, ⟨_, List.mem_map_of_mem hc, by simp [hret]⟩⟩, fun d hd => by simp [(hs d hd).2]⟩, ht⟩

section Save

variable {s : State} {n : Nat} {g : Gang} (hg : spFind s.gangs n = some g)

include hg

theorem contextSave_waits (h : notSaved s g = true) : exec (.contextSave n) s = .next s := by
  rw [exec_contextSave, execContextSave, gangAt, hg]
  exact if_pos h

/-- A gang that is no ISTOP gang is saved, with the event of the PREEMPT that asked for it (log 35), and makes place for filler unless it trapped. -/
theorem contextSave_saved (h : notSaved s g = false) (hi : bit (recWord g.bytes 0) 5 = false) : exec (.contextSave n) s =
    let trap := g.trap || (g.cores.map (coreAt s)).any trapStopped
    let t := savedAs s n g trap
    let t := if g.trap then post t (tellOf t g.psts g.asid) 3 [g.psts, 6, n, 0] else t
    .next (if g.filling && !trap then fillPlace t n { g with trap := trap } else t) := by
  rw [exec_contextSave, execContextSave, gangAt, hg]
  refine (if_neg (Bool.eq_false_iff.mp h)).trans ?_
  simp only [hi, Bool.false_and, Bool.or_false, Bool.false_eq_true, if_false]
  rfl

end Save

/-! ## CONTEXT_RESTORE (R351) -/

/-- What a gang that is placed again on some cores becomes (R351, R410, R434). -/
noncomputable def placedAgain (s : State) (n : Nat) (g : Gang) (cores : List Nat) : State :=
  if !sealOk s g then sealFail s g.asid
  else if g.pinned && upRefused s (g.cores.length * slotsPer s g.pclass) then rampCount (trapAll (restoreGang s n g cores) cores 0x19 0xFFFF 0xFF) 0x20
  else restoreGang (if g.pinned then chargeUp s (g.cores.length * slotsPer s g.pclass) else s) n g cores

/-- A saved gang asks for pre-emptions (R347). -/
def pushAgain (s : State) (n : Nat) (g : Gang) : State :=
  preemptFor s g.part g.ctx (65536 + n) (qPrio s g.queue) (if turnBegins s g.queue (sameLevel s g.part (qPrio s g.queue)) then some g.queue else none)
    (placeKept (partCores s g.part) g.levels (diesOf g.cores))

/-- What keeps a saved gang from being considered. -/
def notConsidered (s : State) (n : Nat) (g : Gang) : Bool :=
  g.state != 2 || g.killed || g.filler || !(decide (qState s g.queue = 0) || decide (qState s g.queue = 1)) || !servesQueues s ||
    s.gangs.any (fun (_, h) => h.aside == some n) || !((reqOf s (65536 + n)).isSome || mayRestore s n g)

theorem notConsidered_eq_false {s : State} {n : Nat} {g : Gang} (hst : g.state = 2) (hk : g.killed = false) (hf : g.filler = false) (hq : qState s g.queue ≤ 1)
    (hs : servesQueues s = true) (ha : ∀ h ∈ s.gangs, h.2.aside ≠ some n) (hm : reqOf s (65536 + n) ≠ none ∨ mayRestore s n g = true) :
    notConsidered s n g = false := by
  have hq' : (decide (qState s g.queue = 0) || decide (qState s g.queue = 1)) = true := by
    rw [Bool.or_eq_true, decide_eq_true_eq, decide_eq_true_eq]
    omega
  have ha' : s.gangs.any (fun (_, h) => h.aside == some n) = false := List.any_eq_false.mpr fun h hh => by simpa using ha h hh
  have hm' : ((reqOf s (65536 + n)).isSome || mayRestore s n g) = true := by rwa [Bool.or_eq_true, Option.isSome_iff_ne_none]
  simp [notConsidered, hst, hk, hf, hq', hs, ha', hm']

section Restore

variable {s : State} {n : Nat} {g : Gang} (hg : spFind s.gangs n = some g)

include hg

theorem restoreSaved_stays {ok : Nat} (pick : List Nat) (hok : ok ≠ 4) (h : g.state ≠ 2) : restoreSaved n ok pick s = s := by
  rw [restoreSaved, if_neg hok, gangAt, hg]
  exact if_pos (by simp [bne_iff_ne.mpr h])

variable (hc : notConsidered s n g = false) (pick : List Nat)

include hc

theorem restoreSaved_rejected : restoreSaved n 2 pick s = dropGang (finishRec (dropReq s (65536 + n)) g.queue g.idx 2 2 g.bytes) n := by
  rw [restoreSaved, if_neg (by decide), gangAt, hg]
  exact (if_neg (Bool.eq_false_iff.mp hc)).trans (if_pos rfl)

theorem restoreSaved_leaves (hs : g.isSealed = false) : restoreSaved n 3 pick s = dropGang (dropReq s (65536 + n)) n := by
  rw [restoreSaved, if_neg (by decide), gangAt, hg]
  exact (if_neg (Bool.eq_false_iff.mp hc)).trans ((if_neg (by decide)).trans (if_pos (by simp [hs])))

theorem restoreSaved_asked {rq : RampReq} (hr : reqOf s (65536 + n) = some rq) : restoreSaved n 1 pick s =
    if otherBlocks s g.part g.ctx then pushAgain s n g else if rq.lack = 0 then placedAgain s n g rq.cores else s := by
  rw [restoreSaved, if_neg (by decide), gangAt, hg]
  refine (if_neg (Bool.eq_false_iff.mp hc)).trans ((if_neg (by decide)).trans ((if_neg (by simp)).trans ?_))
  simp only [hr]
  rfl

theorem restoreSaved_pushes (hr : reqOf s (65536 + n) = none)
    (hp : placeKept (partCores s g.part) g.levels (diesOf g.cores) (freeOrder s g.part g.ctx (65536 + n) pick) = none) :
    restoreSaved n 1 pick s = pushAgain s n g := by
  rw [restoreSaved, if_neg (by decide), gangAt, hg]
  refine (if_neg (Bool.eq_false_iff.mp hc)).trans ((if_neg (by decide)).trans ((if_neg (by simp)).trans ?_))
  simp only [hr, hp]
  rfl

/-- A pinned gang asks for no slots, nor does any with the governor off (R426, R434). -/
theorem restoreSaved_placed (hr : reqOf s (65536 + n) = none) {cores : List Nat}
    (hp : placeKept (partCores s g.part) g.levels (diesOf g.cores) (freeOrder s g.part g.ctx (65536 + n) pick) = some cores) (hd : g.pinned = true ∨ drlEn s = false) :
    restoreSaved n 1 pick s = placedAgain s n g cores := by
  rw [restoreSaved, if_neg (by decide), gangAt, hg]
  refine (if_neg (Bool.eq_false_iff.mp hc)).trans ((if_neg (by decide)).trans ((if_neg (by simp)).trans ?_))
  simp only [hr, hp]
  exact if_pos (by rcases hd with hd | hd <;> simp [hd])

end Restore

section PlacedAgain

variable {s : State} {g : Gang} (n : Nat) (cores : List Nat)

theorem placedAgain_broken (h : sealOk s g = false) : placedAgain s n g cores = tdiError s (ownerOf s g.asid) := if_pos (by simp [h])

theorem placedAgain_unpinned (h : sealOk s g = true) (hp : g.pinned = false) : placedAgain s n g cores = restoreGang s n g cores := by
  simp only [placedAgain, h, hp, Bool.not_true, Bool.false_and, Bool.false_eq_true, if_false]

theorem placedAgain_pinned (h : sealOk s g = true) (hp : g.pinned = true) : placedAgain s n g cores =
    let need := g.cores.length * slotsPer s g.pclass
    if upRefused s need then rampCount (trapAll (restoreGang s n g cores) cores 0x19 0xFFFF 0xFF) 0x20 else restoreGang (chargeUp s need) n g cores := by
  simp only [placedAgain, h, hp, Bool.not_true, Bool.true_and, Bool.false_eq_true, if_false, if_true]

end PlacedAgain

/-! ## TILE_TASK_RETIRE (R175, R345) -/

theorem traceWrite_gangs (s : State) (n : Nat) (r : List Byte) : (traceWrite s n r).gangs = s.gangs := by
  simp only [traceWrite, apply_ite State.gangs, dbgWr, barWr_gangs, hbmWrite, ite_self]

theorem loopExit_gangs (s : State) (n l a : Nat) : (loopExit s n l a).gangs = s.gangs := by
  simp only [loopExit, apply_ite State.gangs, modCore_gangs, traceWrite_gangs, ite_self]

theorem loopExit_q (s : State) (n l a m : Nat) : (coreAt (loopExit s n l a) m).q = (coreAt s m).q := by
  unfold loopExit
  dsimp only
  split
  · rfl
  · refine (coreAt_modCore_keeps Core.q _ n m (fun c => { c with conf := [] }) rfl).trans ?_
    simp only [coreAt, traceWrite_cores]

theorem releaseSlots_cores (s : State) (n keep : Nat) : (releaseSlots s n keep).cores = s.cores := by
  rw [releaseSlots, apply_ite State.cores]
  exact ite_self _

theorem releaseSlots_gangs (s : State) (n keep : Nat) : (releaseSlots s n keep).gangs = s.gangs := by
  rw [releaseSlots, apply_ite State.gangs]
  exact ite_self _

theorem retireCore_gangs (s : State) (c : Nat) : (retireCore s c).gangs = s.gangs := by
  rw [retireCore, modCore_gangs]
  exact foldl_keeps State.gangs _ (fun _ _ => loopExit_gangs ..) _ s

theorem retireCore_retired_same (s : State) (c : Nat) : (coreAt (retireCore s c) c).q.retired = true := by
  rw [retireCore, coreAt_modCore_same]
  rfl

theorem retireCore_q_other (s : State) {c m : Nat} (h : m ≠ c) : (coreAt (retireCore s c) m).q = (coreAt s m).q := by
  rw [retireCore, coreAt_modCore_other _ _ _ _ h]
  exact foldl_keeps (fun t => (coreAt t m).q) _ (fun _ _ => loopExit_q ..) _ s

/-- A member that has retired, its ramp slots released. -/
def retiredAt (s : State) (c : Nat) : State := releaseSlots (retireCore s c) c 0

theorem retiredAt_gangs (s : State) (c : Nat) : (retiredAt s c).gangs = s.gangs := (releaseSlots_gangs ..).trans (retireCore_gangs ..)

theorem retiredAt_q (s : State) (c m : Nat) : (coreAt (retiredAt s c) m).q = (coreAt (retireCore s c) m).q := by
  simp only [retiredAt, coreAt, releaseSlots_cores]

section Retire

variable {s : State} {c : Nat} {b : Bind} {g : Gang} (hb : (coreAt s c).bind = some b) (hg : spFind s.gangs b.gang = some g)

include hb hg

theorem tileTaskRetire_waits (h : haltDone (coreAt s c) = false ∨ g.killed = true) : exec (.tileTaskRetire c) s = .next s := by
  simp only [exec_tileTaskRetire, execTileTaskRetire, hb, gangAt, hg]
  exact if_pos (by rcases h with h | h <;> simp [h])

variable (hl : rplMode s = 0) (hd : haltDone (coreAt s c) = true) (hk : g.killed = false)

include hl hd hk

theorem tileTaskRetire_refused (hp : b.pinned = true) (hr : downRefused s (slotsPer s b.pclass) = true) : exec (.tileTaskRetire c) s =
    .next (rampCount (modCore (takeTrap s c (stopInfo (coreAt s c) 0x19 0 0) false none) c fun k => { k with q := { k.q with hold := .halt } }) 0x20) := by
  have hgate : ∀ a, ctrGate s g.asid a (2 ^ 30 + b.gang) = (true, s) := fun a => if_pos hl
  simp only [exec_tileTaskRetire, execTileTaskRetire, hb, gangAt, hg, hd, hk, rplGate_off _ _ _ _ _ hl, ite_self, hgate, Bool.not_true, Bool.or_self, Bool.false_eq_true,
    if_false]
  cases doneDue s g <;> simp only [Bool.not_true, Bool.false_eq_true, if_false, hp, hr, Bool.and_self, if_true]

/-- A member that waits behind no super-step of another retires, and its gang is complete with the last (R175, R345). -/
theorem tileTaskRetire_retires (hp : b.pinned = false) (hw : ∀ m ∈ membersOf s c, m ≠ c → (coreAt s m).q.hold ≠ .sstep 4) : exec (.tileTaskRetire c) s =
    .next (if g.cores.all fun m => (coreAt (retiredAt s c) m).q.retired then gangComplete (retiredAt s c) b.gang g else retiredAt s c) := by
  have hgate : ∀ a, ctrGate s g.asid a (2 ^ 30 + b.gang) = (true, s) := fun a => if_pos hl
  have hlate (f : Nat → Bool) (hf : ∀ m, (coreAt s m).q.hold ≠ .sstep 4 → f m = false) : ((membersOf s c).any fun m => m != c && f m) = false := by
    refine List.any_eq_false.mpr fun m hm => ?_
    by_cases hmc : m = c
    · simp [hmc]
    · simp [hf m (hw m hm hmc)]
  have hsame : spFind (releaseSlots (retireCore s c) c 0).gangs b.gang = some g := (congrArg (spFind · b.gang) (retiredAt_gangs s c)).trans hg
  simp only [exec_tileTaskRetire, execTileTaskRetire, hb, gangAt, hg, hd, hk, rplGate_off _ _ _ _ _ hl, ite_self, hgate, Bool.not_true, Bool.or_self, Bool.false_eq_true,
    if_false]
  cases doneDue s g
  all_goals
    simp only [Bool.not_true, Bool.false_eq_true, if_false, hp, Bool.false_and]
    rw [hlate]
    · simp only [Bool.false_eq_true, if_false, hsame, retiredAt] <;> rfl
    · intro m hm
      split
      · exact absurd ‹_› hm
      · rfl

end Retire

/-- Settles O38: a save by what its guard says and what the members stopped for, a restore by the path of the record considered, a retirement by what
the member's record leaves of the gang. -/
theorem savingRestoringAndRetiring : Obligations.SavingRestoringAndRetiring := by
  unfold Obligations.SavingRestoringAndRetiring
  refine ⟨fun s n g hg => ?gang, fun s n pick => ⟨?_, fun h => ?_⟩, fun s c b g hb hg => ?retire⟩
  case gang =>
    intro since held keep cause
    refine ⟨fun hst hk hi hs hr ht => ?save, fun h => contextSave_waits hg (notSaved_of h), fun ok pick hok hst => ?_, fun ok pick hok hst hk hf hq hs ha hm => ?restore⟩
    case save =>
      have saved := contextSave_saved hg (notSaved_eq_false hst hk hs hr ht) hi
      have plain (h : g.trap = false) : { g with trap := false } = g := by rw [← h]
      refine ⟨fun h => ?_, fun h hf hc => ?_, fun h ⟨c, hc, hret, h1, h2⟩ => ?_⟩
      · rw [saved]
        simp only [h, Bool.true_or, if_true, Bool.not_true, Bool.and_false, Bool.false_eq_true, if_false]
        rfl
      · have none : (g.cores.map (coreAt s)).any trapStopped = false := by
          refine List.any_eq_false.mpr (List.forall_mem_map.mpr fun c hcm => ?_)
          rcases hc c hcm with h | h | h
          · simp [trapStopped, h]
          · simp [trapStopped, show frecCause (coreAt s c) = 0x1D from h]
          · simp [trapStopped, show frecCause (coreAt s c) = 0x1E from h]
        rw [saved]
        simp only [h, none, hf, Bool.or_self, Bool.false_and, Bool.false_eq_true, if_false]
        simp only [savedAs, plain h]
        rfl
      · have some_ : (g.cores.map (coreAt s)).any trapStopped = true := by
          refine List.any_eq_true.mpr ⟨_, List.mem_map_of_mem hc, ?_⟩
          simp [trapStopped, hret, show frecCause (coreAt s c) ≠ 0x1D from h1, show frecCause (coreAt s c) ≠ 0x1E from h2]
        rw [saved]
        simp only [h, some_, Bool.false_or, Bool.not_true, Bool.and_false, Bool.false_eq_true, if_false]
        rfl
    · exact congrArg Host.Outcome.next (restoreSaved_stays hg pick hok hst)
    case restore =>
      intro key place found push need
      have hc := notConsidered_eq_false hst hk hf hq hs ha hm
      refine ⟨?_, ?_, ?_, fun cores hok hr hp hd => ?_, fun rq hok hr => ?_⟩
      · rintro rfl
        exact congrArg Host.Outcome.next (restoreSaved_rejected hg hc pick)
      · rintro rfl hsl
        exact congrArg Host.Outcome.next (restoreSaved_leaves hg hc pick hsl)
      · rintro rfl hr hp
        exact congrArg Host.Outcome.next (restoreSaved_pushes hg hc pick hr hp)
      · subst hok
        have go : exec (.contextRestore n 1 pick) s = .next (placedAgain s n g cores) := congrArg Host.Outcome.next (restoreSaved_placed hg hc pick hr hp hd)
        rw [go]
        exact ⟨fun h => congrArg _ (placedAgain_broken n cores h), fun h hp => congrArg _ (placedAgain_unpinned n cores h hp),
          fun h hp hu => congrArg _ ((placedAgain_pinned n cores h hp).trans (if_neg (Bool.eq_false_iff.mp hu))),
          fun h hp hu => congrArg _ ((placedAgain_pinned n cores h hp).trans (if_pos hu))⟩
      · subst hok
        have go : exec (.contextRestore n 1 pick) s = .next _ := congrArg Host.Outcome.next (restoreSaved_asked hg hc pick hr)
        refine ⟨fun ho => go.trans (congrArg _ (if_pos ho)), fun ho hl => go.trans (congrArg _ ((if_neg (Bool.eq_false_iff.mp ho)).trans (if_neg hl))),
          fun ho hl h hp => go.trans (congrArg _ ((if_neg (Bool.eq_false_iff.mp ho)).trans ((if_pos hl).trans (placedAgain_unpinned n rq.cores h hp))))⟩
  · rfl
  · rw [takeIn, h]
  case retire =>
    intro k t
    refine ⟨tileTaskRetire_waits hb hg, fun hl hd hk => tileTaskRetire_refused hb hg hl hd hk, fun hl hd hk hp ⟨m, hm, hmc, hr⟩ hw => ?_, fun hl hd hk hp h1 hm => ?_⟩
    · refine (tileTaskRetire_retires hb hg hl hd hk hp hw).trans (congrArg _ (if_neg ?_))
      rw [List.all_eq_true]
      refine fun hall => Bool.false_ne_true ?_
      rw [← hall m hm, retiredAt_q, retireCore_q_other s hmc, hr]
    · have hall : (g.cores.all fun m => (coreAt (retiredAt s c) m).q.retired) = true := by
        rw [h1, List.all_cons, List.all_nil, Bool.and_true, retiredAt_q, retireCore_retired_same]
      refine (tileTaskRetire_retires hb hg hl hd hk hp (by simp [hm])).trans (congrArg _ ((if_pos hall).trans ?_))
      rw [gangComplete, h1]
      rfl

end Sys2Proof.Proofs
end

section
/-! PROOFS. Walks, the combining buffer and waiting versioned accesses (R118, R121, R122, R359, R360): what answers a walk, and how a wait ends. -/

namespace Sys2Proof.Proofs

open Sys2Proof Sys2Proof.Machine

/-! ## What is only noted: health and event registers (R442, R443) -/

/-- A state that differs in device registers and events only. -/
def OnlyNoted (s t : State) : Prop := ∃ bar posted, t = { s with bar := bar, posted := posted }

theorem OnlyNoted.refl (s : State) : OnlyNoted s s := ⟨s.bar, s.posted, rfl⟩

theorem OnlyNoted.trans {s t u : State} (h : OnlyNoted s t) (k : OnlyNoted t u) : OnlyNoted s u := by
  obtain ⟨b, p, rfl⟩ := h
  obtain ⟨b', p', rfl⟩ := k
  exact ⟨b', p', rfl⟩

theorem OnlyNoted.foldl {α : Type} {f : State → α → State} (h : ∀ s a, OnlyNoted s (f s a)) (l : List α) (s : State) : OnlyNoted s (l.foldl f s) := by
  induction l generalizing s with
  | nil => exact .refl s
  | cons a l ih => exact (h s a).trans (ih (f s a))

theorem onlyNoted_barWr (s : State) (o : Nat) (v : Word) : OnlyNoted s (barWr s o v) := ⟨_, s.posted, rfl⟩

theorem onlyNoted_post (s : State) (fn kind : Nat) (args : List Nat) : OnlyNoted s (post s fn kind args) := ⟨s.bar, _, rfl⟩

theorem onlyNoted_setHealth (s : State) (k : Nat) : OnlyNoted s (setHealth s k) := by
  unfold setHealth
  dsimp only
  split
  · exact .refl s
  · exact (onlyNoted_barWr ..).trans (onlyNoted_post ..)

theorem onlyNoted_stackCount (s : State) (off k : Nat) : OnlyNoted s (stackCount s off k) := by
  unfold stackCount
  dsimp only
  split
  · exact .refl s
  · split
    · exact (onlyNoted_barWr ..).trans (onlyNoted_setHealth ..)
    · exact onlyNoted_barWr ..

theorem onlyNoted_walkNote (s : State) (asid va r : Nat) : OnlyNoted s (walkNote s asid va r) := by
  unfold walkNote
  split
  · exact .refl s
  · refine .trans ?_ (onlyNoted_setHealth _ 8)
    split
    · exact .foldl (fun _ _ => onlyNoted_stackCount ..) _ _
    · exact .refl s

theorem onlyNoted_postPage (s : State) (asid va r : Nat) : OnlyNoted s (postPage s asid va r) := by
  unfold postPage
  split
  · exact onlyNoted_post ..
  · exact onlyNoted_walkNote ..

/-! ## Answers to a walk (R359, R360) -/

/-- What an answer makes of an operation's part on core `n`. -/
def answeredBy (who : List (Nat × Nat × Nat)) (st : GStat) (n : Nat) (g : GOp) : GOp := if (n, g.seq, g.lo) ∈ who ∧ g.st = .walk then { g with st := st } else g

/-- The merged misses of a walk are answered. -/
def answerAll (who : List (Nat × Nat × Nat)) (st : GStat) (s : State) : State := who.foldl (fun s x => walkAnswer s x.1 x.2.1 x.2.2 st) s

theorem answerAll_walks (who : List (Nat × Nat × Nat)) (st : GStat) (s : State) : (answerAll who st s).walks = s.walks :=
  foldl_keeps State.walks _ (fun _ _ => modCore_walks ..) who s

theorem answerAll_mem (who : List (Nat × Nat × Nat)) (st : GStat) (s : State) : (answerAll who st s).mem = s.mem :=
  foldl_keeps State.mem _ (fun _ _ => modCore_mem ..) who s

theorem answerAll_dieTlb (who : List (Nat × Nat × Nat)) (st : GStat) (s : State) : (answerAll who st s).dieTlb = s.dieTlb :=
  foldl_keeps State.dieTlb _ (fun _ _ => modCore_dieTlb ..) who s

theorem answerAll_tlb (who : List (Nat × Nat × Nat)) (st : GStat) (s : State) (n : Nat) :
    ((coreAt (answerAll who st s) n).tlbR, (coreAt (answerAll who st s) n).tlbP) = ((coreAt s n).tlbR, (coreAt s n).tlbP) :=
  foldl_keeps (fun t => ((coreAt t n).tlbR, (coreAt t n).tlbP)) _
    (fun t x => coreAt_modCore_keeps (fun k => (k.tlbR, k.tlbP)) t x.1 n _ rfl) who s

theorem walkAnswer_gq (s : State) (x : Nat × Nat × Nat) (st : GStat) (n : Nat) :
    (coreAt (walkAnswer s x.1 x.2.1 x.2.2 st) n).f.gq = (coreAt s n).f.gq.map (answeredBy [x] st n) := by
  obtain ⟨c, q, va⟩ := x
  by_cases h : n = c
  · subst h
    rw [walkAnswer, coreAt_modCore_same]
    refine List.map_congr_left fun g _ => if_congr ?_ rfl rfl
    simp only [Bool.and_eq_true, decide_eq_true_eq, beq_iff_eq, List.mem_singleton, Prod.mk.injEq, true_and]
    exact and_right_comm
  · rw [walkAnswer, coreAt_modCore_other _ _ _ _ h]
    refine (List.map_id' _).symm.trans (List.map_congr_left fun g _ => (if_neg ?_).symm)
    simp [h]

theorem answeredBy_cons (x : Nat × Nat × Nat) (who : List (Nat × Nat × Nat)) (st : GStat) (n : Nat) (g : GOp) :
    answeredBy who st n (answeredBy [x] st n g) = answeredBy (x :: who) st n g := by
  by_cases hw : g.st = .walk
  · by_cases hx : (n, g.seq, g.lo) = x
    · have hl : ({ g with st := st } : GOp).lo = g.lo := rfl
      simp only [answeredBy, hw, hx, List.mem_cons, true_or, and_self, if_true, hl]
      exact ite_self _
    · simp [answeredBy, hw, hx]
  · simp [answeredBy, hw]

theorem answerAll_gq (who : List (Nat × Nat × Nat)) (st : GStat) (s : State) (n : Nat) :
    (coreAt (answerAll who st s) n).f.gq = (coreAt s n).f.gq.map (answeredBy who st n) := by
  induction who generalizing s with
  | nil =>
    refine (List.map_id' _).symm.trans (List.map_congr_left fun g _ => ?_)
    simp [answeredBy]
  | cons x who ih =>
    refine (ih (walkAnswer s x.1 x.2.1 x.2.2 st)).trans ?_
    rw [walkAnswer_gq, List.map_map]
    exact List.map_congr_left fun g _ => answeredBy_cons x who st n g

/-! ## Caches (R359) -/

theorem mem_cachePut (l : List XEnt) {cap : Nat} (h : 0 < cap) (e : XEnt) : e ∈ cachePut l cap e := by
  refine List.mem_drop_iff_getElem.mpr ⟨(l.filter (· != e)).length - (((l.filter (· != e)) ++ [e]).length - cap), ?_⟩
  have hlen : (l.filter (· != e) ++ [e]).length = (l.filter (· != e)).length + 1 := by simp
  refine ⟨by omega, ?_⟩
  have hidx : (l.filter (· != e) ++ [e]).length - cap + ((l.filter (· != e)).length - ((l.filter (· != e) ++ [e]).length - cap)) = (l.filter (· != e)).length := by omega
  simp only [hidx, List.getElem_append_right (Nat.le_refl _), Nat.sub_self, List.getElem_cons_zero]

/-- A core's own cache for an entry of a class. -/
def tlbFor (k : Core) (e : XEnt) : List XEnt := if e.cls = 2 then k.tlbP else k.tlbR

theorem tlbFor_filled (k : Core) (e : XEnt) :
    tlbFor (if e.cls = 2 then { k with tlbP := cachePut k.tlbP 256 e } else { k with tlbR := cachePut k.tlbR 64 e }) e =
      cachePut (tlbFor k e) (if e.cls = 2 then 256 else 64) e := by
  by_cases h : e.cls = 2
  · simp only [tlbFor, h, if_true]
  · simp only [tlbFor, h, if_false]

/-- An entry stands in the caches of a core and of its die. -/
def Cached (t : State) (n : Nat) (e : XEnt) : Prop := e ∈ spGet [] t.dieTlb (dieOf n) ∧ e ∈ tlbFor (coreAt t n) e

theorem cached_fillCaches_same (s : State) (n : Nat) (e : XEnt) : Cached (fillCaches s n e) n e := by
  refine ⟨?_, ?_⟩
  · rw [fillCaches, fillCore, modCore_dieTlb]
    dsimp only [spMod]
    rw [spGet_spSet_same]
    exact mem_cachePut _ (by decide) e
  · rw [fillCaches, fillCore, coreAt_modCore_same, tlbFor_filled]
    exact mem_cachePut _ (by split <;> decide) e

/-- Putting the entry into further caches takes it out of none. -/
theorem cached_fillCaches {s : State} {m : Nat} {e : XEnt} (n : Nat) (h : Cached s m e) : Cached (fillCaches s n e) m e := by
  obtain ⟨hd, hc⟩ := h
  by_cases hn : m = n
  · rw [hn]
    exact cached_fillCaches_same s n e
  · refine ⟨?_, ?_⟩
    · simp only [fillCaches, fillCore, modCore_dieTlb, spMod, spGet_spSet]
      split
      · exact mem_cachePut _ (by decide) e
      · exact hd
    · rw [fillCaches, fillCore, coreAt_modCore_other _ _ _ _ hn]
      exact hc

theorem cached_fillAll (e : XEnt) (l : List Nat) (s : State) {n : Nat} (h : n ∈ l ∨ Cached s n e) : Cached (l.foldl (fun s n => fillCaches s n e) s) n e := by
  induction l generalizing s with
  | nil => exact h.resolve_left (by simp)
  | cons a l ih =>
    refine ih _ ?_
    rcases h with h | h
    · rcases List.mem_cons.mp h with rfl | h
      · exact .inr (cached_fillCaches_same s n e)
      · exact .inl h
    · exact .inr (cached_fillCaches a h)

theorem fillAll_gq (e : XEnt) (l : List Nat) (s : State) (n : Nat) : (coreAt (l.foldl (fun s n => fillCaches s n e) s) n).f.gq = (coreAt s n).f.gq := by
  refine foldl_keeps (fun t => (coreAt t n).f.gq) _ (fun t a => ?_) l s
  refine coreAt_modCore_keeps (fun k => k.f.gq) _ a n _ ?_
  split <;> rfl

/-! ## TRANSLATION_WALK (R359) -/

/-- A walk that finds a mapping, all of whose misses its page still covers. -/
def walkHit (s : State) (i : Nat) (w : Walk) (e : XEnt) : State :=
  answerAll w.who .ready ((w.who.map Prod.fst ++ w.pf).foldl (fun s n => fillCaches s n e) { s with walks := s.walks.eraseIdx i })

/-- The state that a walk without a mapping leaves before it answers. -/
def walkMissed (s : State) (i : Nat) (w : Walk) (r : Nat) : State :=
  let t := w.pf.foldl (fun s n => modCore s n fun c => countEv c 0x0F 1) { s with walks := s.walks.eraseIdx i }
  if w.who.isEmpty then walkNote t w.asid w.va r else postPage t w.asid w.va r

section Walk

variable {s : State} {i : Nat} {w : Walk} (hw : s.walks[i]? = some w)

include hw

theorem translationWalk_waits (h : 64 ≤ ((s.walks.take i).filter fun x => x.die == w.die).length) : exec (.translationWalk i) s = .next s := by
  rw [exec_translationWalk, execTranslationWalk, hw]
  exact if_pos h

variable (h : ((s.walks.take i).filter fun x => x.die == w.die).length < 64) (hc : ∀ x ∈ w.who, walkServes s w w.die w.asid x.2.2 = true)

omit hw in
include hc in
/-- Every merged miss is answered where the page of the walk still covers it. -/
theorem answer_covered (st : GStat) (u : State) : (w.who.foldl (fun t x =>
    if walkServes s w w.die w.asid x.2.2 then walkAnswer t x.1 x.2.1 x.2.2 st else startWalk t x.1 w.asid x.2.2 (some x.2.1)) u) = answerAll w.who st u :=
  List.foldl_ext _ _ _ fun _ x hx => if_pos (hc x hx)

include h hc

theorem translationWalk_hit {e : XEnt} (he : tableLook s w.asid w.va = .hit e) : exec (.translationWalk i) s = .next (walkHit s i w e) := by
  rw [exec_translationWalk, execTranslationWalk, hw]
  refine (if_neg (Nat.not_le.mpr h)).trans ?_
  rw [he]
  exact congrArg Host.Outcome.next (answer_covered hc .ready _)

theorem translationWalk_bad {r : Nat} (he : tableLook s w.asid w.va = .bad r) :
    exec (.translationWalk i) s = .next (answerAll w.who (.parked 0x0B r) (walkMissed s i w r)) := by
  rw [exec_translationWalk, execTranslationWalk, hw]
  refine (if_neg (Nat.not_le.mpr h)).trans ?_
  rw [he]
  exact congrArg Host.Outcome.next (answer_covered hc (.parked 0x0B r) _)

end Walk

theorem walkMissed_noted (s : State) (i : Nat) (w : Walk) (r : Nat) :
    OnlyNoted (w.pf.foldl (fun s n => modCore s n fun c => countEv c 0x0F 1) { s with walks := s.walks.eraseIdx i }) (walkMissed s i w r) := by
  unfold walkMissed
  dsimp only
  split
  · exact onlyNoted_walkNote ..
  · exact onlyNoted_postPage ..

theorem countEv_tlb (c : Core) (ev n : Nat) : ((countEv c ev n).tlbR, (countEv c ev n).tlbP, (countEv c ev n).f) = (c.tlbR, c.tlbP, c.f) := by
  unfold countEv
  split <;> rfl

/-- A walk without a mapping fills no cache, and leaves the queues to its answers. -/
theorem walkMissed_frame (s : State) (i : Nat) (w : Walk) (r : Nat) : (walkMissed s i w r).walks = s.walks.eraseIdx i ∧
    ∀ n, ((coreAt (walkMissed s i w r) n).tlbR, (coreAt (walkMissed s i w r) n).tlbP, (coreAt (walkMissed s i w r) n).f) =
      ((coreAt s n).tlbR, (coreAt s n).tlbP, (coreAt s n).f) := by
  obtain ⟨b, p, h⟩ := walkMissed_noted s i w r
  rw [h]
  exact ⟨foldl_keeps State.walks _ (fun _ _ => modCore_walks ..) w.pf _,
    fun n => foldl_keeps (fun t => ((coreAt t n).tlbR, (coreAt t n).tlbP, (coreAt t n).f)) _
      (fun t m => coreAt_modCore_keeps (fun k => (k.tlbR, k.tlbP, k.f)) t m n _ (countEv_tlb ..)) w.pf { s with walks := s.walks.eraseIdx i }⟩

/-! ## Waiting versioned accesses (R121, R122) -/

theorem walkNote_zero (s : State) (asid va : Nat) : walkNote s asid va 0 = s := rfl

/-- An access whose home is here, that nothing before it holds, is tried again. -/
theorem verRetry_here {s : State} {c j : Nat} {g : GOp} {ps : List VPart} {isStore : Bool} (late : Option Nat) (hv : verWaiting s c = some (j, g))
    (hk : (g.kind == .stv) = isStore) (hs : g.sent = false) (hc : gClear s c j = true)
    (hr : verReach s c (asidOf (coreAt s c)) g.lo 8 g.kind.right = .here ps) : verRetry s c isStore late =
    match verTry s isStore ps g.ver g.data with
    | .done v t => if isStore then freeG (gRemove (verPort t c ps) c j) c else gResult (freeG (gRemove (verPort t c ps) c j) c) c g.dst v
    | .fault f => heldFault (freeG (gRemove s c j) c) c 6 f 0 g.va
    | .wait rs => match late with
      | none => s
      | some f => if rs.any fun r => s.dev ≥ g.t0 + nsDev (1000 * bits (regionWord s r) 231 200) then heldFault (freeG (gRemove s c j) c) c 6 f 0 g.va else s := by
  have hgo : ((g.kind == .stv) != isStore || g.sent || !gClear s c j) = false := by simp [hk, hs, hc]
  rw [verRetry, hv]
  refine (if_neg (Bool.eq_false_iff.mp hgo)).trans ?_
  cases ht : verTry s isStore ps g.ver g.data with
  | done v t => simp only [hr, ht]
  | fault f => simp only [hr, ht, ite_self, walkNote_zero]
  | wait rs => cases late <;> simp only [hr, ht, ite_self, walkNote_zero]

/-- Settles O20: a walk by what the tables give, its answers member by member, a waiting access by what one more try gives. -/
theorem walksFlushesAndVersionWaits : Obligations.WalksFlushesAndVersionWaits := by
  unfold Obligations.WalksFlushesAndVersionWaits
  refine fun s c i => ⟨fun w hw h => translationWalk_waits hw h, fun w hw h hc => ?walk, fun e he h => ?_, fun e he h => ?_, fun j g hv hs hcl => ?ver⟩
  case walk =>
    intro answered
    refine ⟨fun e he => ⟨_, translationWalk_hit hw h hc he, ?_, ?_, fun n hn => ?_, fun n => ?_⟩,
      fun r he => ⟨_, translationWalk_bad hw h hc he, (answerAll_walks ..).trans (walkMissed_frame s i w r).1, fun n => ?_⟩⟩
    · exact (answerAll_walks ..).trans (foldl_keeps State.walks (fun t n => fillCaches t n e) (fun _ _ => rfl) _ _)
    · exact (answerAll_mem ..).trans (foldl_keeps State.mem (fun t n => fillCaches t n e) (fun _ _ => rfl) _ _)
    · obtain ⟨hd, hown⟩ := cached_fillAll e _ { s with walks := s.walks.eraseIdx i } (.inl hn)
      obtain ⟨hR, hP⟩ := Prod.mk.inj (answerAll_tlb w.who .ready ((w.who.map Prod.fst ++ w.pf).foldl (fun s n => fillCaches s n e)
        { s with walks := s.walks.eraseIdx i }) n)
      rw [walkHit, answerAll_dieTlb, hR, hP]
      exact ⟨hd, hown⟩
    · exact (answerAll_gq ..).trans (congrArg _ (fillAll_gq ..))
    · obtain ⟨hR, hP⟩ := Prod.mk.inj (answerAll_tlb w.who (.parked 0x0B r) (walkMissed s i w r) n)
      have frame := (walkMissed_frame s i w r).2 n
      simp only [Prod.mk.injEq] at frame
      obtain ⟨fR, fP, ff⟩ := frame
      exact ⟨hR.trans fR, hP.trans fP, (answerAll_gq ..).trans (by rw [ff]; rfl)⟩
  · rw [exec_combiningEntryAgeFlush, execCombiningEntryAgeFlush, he]
    exact if_pos h
  · rw [exec_combiningEntryAgeFlush, execCombiningEntryAgeFlush, he]
    exact if_neg (Nat.not_le.mpr h)
  case ver =>
    intro gone past ps hr
    have ended (l : List Nat) : (l.any fun r => s.dev ≥ g.t0 + nsDev (1000 * bits (regionWord s r) 231 200)) = true ↔ ∃ r, r ∈ l ∧ past r := by
      simp only [List.any_eq_true, decide_eq_true_eq, past, Nat.mul_comm 1000, ge_iff_le]
    refine ⟨fun hk => ?_, fun hk => ?_⟩
    · have retry (late : Option Nat) := verRetry_here late hv (isStore := false) (by rw [hk]; rfl) hs hcl hr
      refine ⟨fun x t ht => ?_, fun f ht => ?_, fun l ht => ⟨?_, fun hp => ?_, fun hp => ?_⟩⟩
      all_goals refine congrArg Host.Outcome.next ((retry _).trans ?_)
      all_goals rw [ht]
      · rfl
      · exact if_pos ((ended l).mpr hp)
      · exact if_neg fun hl => ((ended l).mp hl).elim fun r hr => hp r hr.1 hr.2
    · have retry (late : Option Nat) := verRetry_here late hv (isStore := true) (by rw [hk]; rfl) hs hcl hr
      refine ⟨fun x t ht => ?_, fun f ht => ?_, fun l ht => ⟨?_, fun hp => ?_, fun hp => ?_⟩⟩
      all_goals refine congrArg Host.Outcome.next ((retry _).trans ?_)
      all_goals rw [ht]
      · rfl
      · exact if_pos ((ended l).mpr hp)
      · exact if_neg fun hl => ((ended l).mp hl).elim fun r hr => hp r hr.1 hr.2

end Sys2Proof.Proofs
end

section
/-! PROOFS. The commands of the translation unit (R352, R359, R361, R364, R119): what is refused, what each does, and what it waits for. -/

namespace Sys2Proof.Proofs

open Sys2Proof Sys2Proof.Machine

/-! ## How a command ends (R332, R352) -/

/-- The address space that a command concerns. -/
def xlatAsid (s : State) (op a n : Nat) : Nat :=
  if op = 6 || op = 7 then bits (regionWord s n) 254 241 else if op = 4 then bits (memNat s ((barRd s 0x00020008).toNat + 32 * n) 8) 44 31 else a

/-- The code of a command as its register has it (R404). -/
def xlatTold (sts op : Nat) : Nat := if sts = xlatSts then op else op + 0x10

/-- What a command waits for besides requests. -/
def xlatDrains (s : State) (op a : Nat) : List (Nat × Nat) := if 1 ≤ op && op ≤ 3 then drainsOf s a else []

/-- A command that waits for accesses is under way (R359). -/
def xlatWaits (u : State) (sts asid told n : Nat) (l : List Nat) (d : List (Nat × Nat)) : State :=
  { barWr u sts (barRd u sts ||| (1#64 <<< 63)) with invs := u.invs ++ [⟨sts, asid, told, n, u.dev, l, d⟩] }

section Commands

variable {s : State} {sts op a n va : Nat} (hr : s.sec.recovery = false)

include hr

theorem xlatCmd_busy (h : (barRd s sts).getLsbD 63 = true) : xlatCmd s sts op a n va = barWr s sts (barRd s sts ||| (1#64 <<< 62)) := by
  simp only [xlatCmd, hr, Bool.false_eq_true, if_false]
  exact if_pos h

variable (hi : (barRd s sts).getLsbD 63 = false)

include hi

/-- A command of the PF that names a locked address space, no invalidation, is refused (R403, log 33). -/
theorem xlatCmd_locked (hsts : sts = xlatSts) (hop : ¬ (1 ≤ op ∧ op ≤ 4)) (hl : s.sec.locked.contains (xlatAsid s op a n) = true) :
    xlatCmd s sts op a n va = cmdDone (tdiError s (ownerOf s (xlatAsid s op a n))) sts (xlatAsid s op a n) op n 2 := by
  have hc : (decide (sts = xlatSts) && s.sec.locked.contains (xlatAsid s op a n) && !(decide (1 ≤ op) && decide (op ≤ 4))) = true := by
    rw [hl, decide_eq_true hsts]
    rw [Bool.true_and, Bool.true_and, Bool.not_eq_true', Bool.and_eq_false_iff, decide_eq_false_iff_not, decide_eq_false_iff_not]
    exact not_and_or.mp hop
  have hb : ¬ (barRd s sts).getLsbD 63 = true := by rw [hi]; decide
  rw [xlatCmd, if_neg (by rw [hr]; decide), if_neg hb]
  exact if_pos hc

/-- A command that may be carried out ends with its RESULT, or waits for what was begun before it. -/
theorem xlatCmd_open (hopen : sts = xlatSts → (1 ≤ op ∧ op ≤ 4) ∨ (s.sec.locked.contains (xlatAsid s op a n) = false ∧ s.sec.locked.contains a = false)) :
    xlatCmd s sts op a n va =
      let o := xlatOp s op a n va
      if o.1 != 0 || (o.2.1.isEmpty && (xlatDrains s op a).isEmpty) then cmdDone o.2.2 sts (xlatAsid s op a n) (xlatTold sts op) n o.1
      else xlatWaits o.2.2 sts (xlatAsid s op a n) (xlatTold sts op) n o.2.1 (xlatDrains s op a) := by
  have hno (x : Nat) (hx : sts = xlatSts → (1 ≤ op ∧ op ≤ 4) ∨ s.sec.locked.contains x = false) :
      ¬ (decide (sts = xlatSts) && s.sec.locked.contains x && !(decide (1 ≤ op) && decide (op ≤ 4))) = true := by
    rw [Bool.and_eq_true, Bool.and_eq_true, decide_eq_true_eq, Bool.not_eq_true', Bool.and_eq_false_iff, decide_eq_false_iff_not, decide_eq_false_iff_not]
    rintro ⟨⟨h1, h2⟩, h3⟩
    rcases hx h1 with h | h
    · exact h3.elim (· h.1) (· h.2)
    · exact Bool.false_ne_true (h.symm.trans h2)
  have h1 := hno (xlatAsid s op a n) fun h => (hopen h).imp_right And.left
  have h2 := hno a fun h => (hopen h).imp_right And.right
  have hb : ¬ (barRd s sts).getLsbD 63 = true := by rw [hi]; decide
  rw [xlatCmd, if_neg (by rw [hr]; decide), if_neg hb]
  exact (if_neg h1).trans (if_neg h2)

theorem xlatCmd_done (hopen : sts = xlatSts → (1 ≤ op ∧ op ≤ 4) ∨ (s.sec.locked.contains (xlatAsid s op a n) = false ∧ s.sec.locked.contains a = false))
    {r : Nat} {l : List Nat} {u : State} (ho : xlatOp s op a n va = (r, l, u)) (h : r ≠ 0 ∨ (l = [] ∧ xlatDrains s op a = [])) :
    xlatCmd s sts op a n va = cmdDone u sts (xlatAsid s op a n) (xlatTold sts op) n r := by
  have hc : (r != 0 || (l.isEmpty && (xlatDrains s op a).isEmpty)) = true := by
    rw [Bool.or_eq_true, bne_iff_ne, Bool.and_eq_true, List.isEmpty_iff, List.isEmpty_iff]
    exact h
  rw [xlatCmd_open hr hi hopen, ho]
  exact if_pos hc

theorem xlatCmd_waits (hopen : sts = xlatSts → (1 ≤ op ∧ op ≤ 4) ∨ (s.sec.locked.contains (xlatAsid s op a n) = false ∧ s.sec.locked.contains a = false))
    {l : List Nat} {u : State} (ho : xlatOp s op a n va = (0, l, u)) (h : l ≠ [] ∨ xlatDrains s op a ≠ []) :
    xlatCmd s sts op a n va = xlatWaits u sts (xlatAsid s op a n) (xlatTold sts op) n l (xlatDrains s op a) := by
  have hc : ¬ (0 != 0 || (l.isEmpty && (xlatDrains s op a).isEmpty)) = true := by
    rw [Bool.or_eq_true, bne_iff_ne, Bool.and_eq_true, List.isEmpty_iff, List.isEmpty_iff]
    exact fun hn => hn.elim (· rfl) fun hn => h.elim (· hn.1) (· hn.2)
  rw [xlatCmd_open hr hi hopen, ho]
  exact if_neg hc

end Commands

/-! ## Invalidations (R359) -/

theorem dropCached_none (s : State) (sel : XEnt → Bool) : dropCached (dropCached s sel) (fun _ => false) = dropCached s sel := by
  simp only [dropCached, List.map_map, Function.comp_def, Bool.not_false, List.filter_true]

/-- With nothing buffered an invalidation only takes entries out of the caches. -/
theorem invalidate_unbuffered {s : State} (h : ∀ c ∈ s.cores, c.2.f.comb = []) (a : Nat) (sel : XEnt → Bool) :
    invalidate s a sel = (tagsOf (dropCached s sel) a, dropCached s sel) := by
  have none : ((dropCached s sel).cores.filter fun x => asidOf x.2 == a && x.2.bind.isSome && !x.2.f.comb.isEmpty) = [] := by
    refine List.filter_eq_nil_iff.mpr (List.forall_mem_map.mpr fun c hc => ?_)
    simp [h c hc]
  have flushed := congrArg (List.foldl (fun (s : State) (x : Nat × Core) => flushComb s x.1 fun _ => true) (dropCached s sel)) none
  exact congrArg (fun t => (tagsOf t a, t)) flushed

theorem dropWindow_eq (s : State) (a n : Nat) : dropWindow s a n = dropCached s fun e =>
    e.asid == a && ((e.cls == 1 && e.n == n) || (e.lo < winBase (winWords s a n) + winSize (winWords s a n) && winBase (winWords s a n) < e.hi)) := rfl

theorem dropCached_unbuffered {s : State} (h : ∀ c ∈ s.cores, c.2.f.comb = []) (sel : XEnt → Bool) : ∀ c ∈ (dropCached s sel).cores, c.2.f.comb = [] :=
  List.forall_mem_map.mpr h

/-- INV_WINDOW takes out what covers the range of the window (log 111). -/
theorem xlatOp_invWindow {s : State} (h : ∀ c ∈ s.cores, c.2.f.comb = []) (a va : Nat) {n : Nat} (hn : n < 4096) :
    xlatOp s 3 a n va = (0, tagsOf (dropWindow s a n) a, dropWindow s a n) := by
  have inv := invalidate_unbuffered (dropCached_unbuffered h fun e =>
    e.asid == a && ((e.cls == 1 && e.n == n) || (e.lo < winBase (winWords s a n) + winSize (winWords s a n) && winBase (winWords s a n) < e.hi))) a (fun _ => false)
  rw [dropCached_none, ← dropWindow_eq] at inv
  exact (if_neg (Nat.not_le.mpr hn)).trans (congrArg (fun x => (0, x.1, x.2)) inv)

/-! ## WIN_MAKE (R361) -/

/-- A window is marked dead to arrivals, or not. -/
def deadMark (s : State) (a n : Nat) (dead : Bool) : State :=
  { s with hub := { s.hub with dead := (if dead then [(a, n)] else []) ++ s.hub.dead.erase (a, n) } }

/-- The entry of a window. -/
def winEntry (s : State) (a n : Nat) : Nat := bits (memNat s (atabEntry s a + 24) 8) 38 17 * 2 ^ 17 + 32 * n

/-- The first word of a window's entry with MADE. -/
def madeWord (w : List Nat) : Nat := if bit (w.getD 0 0) 56 then w.getD 0 0 else w.getD 0 0 + 2 ^ 56

/-- The third word of a window's entry with HGEN. -/
def hgenWord (w : List Nat) (g : Nat) : Nat := w.getD 2 0 - bits (w.getD 2 0) 33 30 * 2 ^ 30 + g * 2 ^ 30

/-- A HANDLE window made in a state, its handle's generation and whether it is invalid being known. -/
def handleMade (s u : State) (a n g : Nat) (dead : Bool) : State :=
  dropWindow (memSetNat (memSetNat (deadMark u a n dead) (winEntry s a n + 16) 8 (hgenWord (winWords s a n) g)) (winEntry s a n) 8 (madeWord (winWords s a n))) a n

theorem deadMark_eq (s : State) (a n : Nat) (dead : Bool) : modHub s (fun h => { h with dead := if dead then (a, n) :: h.dead.erase (a, n) else h.dead.erase (a, n) }) =
    deadMark s a n dead := by
  cases dead <;> rfl

section WinMake

variable {s : State} {a n : Nat}

theorem winMake_beyond (h : 4096 ≤ n) : winMake s a n = (1, s) := if_pos h

variable (hn : n < 4096)

include hn

theorem winMake_other (ht : winTgt (winWords s a n) ≠ 1) :
    winMake s a n = (0, dropWindow (memSetNat (deadMark s a n false) (winEntry s a n) 8 (madeWord (winWords s a n))) a n) := by
  refine (if_neg (Nat.not_le.mpr hn)).trans ?_
  dsimp only
  rw [if_pos (bne_iff_ne.mpr ht)]
  rfl

variable (ht : winTgt (winWords s a n) = 1)

include ht

theorem winMake_near (hp : winPkg (winWords s a n) = pkgNo s) :
    let e := handle (coreAt s (winCore (winWords s a n))) (winHnd (winWords s a n))
    winMake s a n = (0, handleMade s s a n e.gen !e.valid) := by
  have hne : ¬ (winTgt (winWords s a n) != 1) = true := by simp [ht]
  refine (if_neg (Nat.not_le.mpr hn)).trans ?_
  dsimp only
  rw [if_neg hne, if_pos hp]
  dsimp only
  rw [deadMark_eq]
  rfl

theorem winMake_far (hp : winPkg (winWords s a n) ≠ pkgNo s) :
    let f := farHandle s (winWords s a n)
    winMake s a n = (0, handleMade s f.2 a n (f.1 % 16) (decide (f.1 < 16))) := by
  have hne : ¬ (winTgt (winWords s a n) != 1) = true := by simp [ht]
  refine (if_neg (Nat.not_le.mpr hn)).trans ?_
  dsimp only
  rw [if_neg hne, if_neg hp]
  dsimp only
  rw [deadMark_eq]
  rfl

end WinMake

/-! ## Regions (R119) -/

/-- Both counters of a region are counters of its address space. -/
def regionCounters (s : State) (n : Nat) : Prop := isCounter s (bits (regionWord s n) 254 241) (bits (regionWord s n) 199 144) = true ∧
  isCounter s (bits (regionWord s n) 254 241) (bits (regionWord s n) 143 88) = true

section Region

variable {s : State} {n : Nat}

theorem regionSet_beyond (h : 1024 ≤ n) : regionSet s n = (1, s) := if_pos h

theorem regionClear_beyond (h : 1024 ≤ n) : regionClear s n = (1, s) := if_pos h

theorem regionClear_ended (h : n < 1024) : regionClear s n = (0, memSetNat (forgetVers s n) (regionAt s n) 32 (regionWord s n % 2 ^ 255)) :=
  if_neg (Nat.not_le.mpr h)

theorem regionSet_live (h : n < 1024) (hl : bit (regionWord s n) 255 = true) : regionSet s n = (2, s) := (if_neg (Nat.not_le.mpr h)).trans (if_pos hl)

theorem regionSet_dead (h : n < 1024) (hl : bit (regionWord s n) 255 = false) [Decidable (regionCounters s n)] : regionSet s n =
    if regionCounters s n then (0, memSetNat (forgetVers s n) (regionAt s n) 32 (regionWord s n + 2 ^ 255)) else (1, s) :=
  (if_neg (Nat.not_le.mpr h)).trans ((if_neg (by rw [hl]; decide)).trans (if_congr (Bool.and_eq_true _ _ ▸ Iff.rfl) rfl rfl))

end Region

/-- Settles O42: each command by how a command ends and by what its operation answers. -/
theorem translationCommands : Obligations.TranslationCommands := by
  unfold Obligations.TranslationCommands
  intro s a n hr va done refused busy locked idle cut inv w entry made inside keyAsid answers e mark hgen far r owner
  -- a command of the PF that ends, and one that waits
  have ends {op a' n' va' res : Nat} {l : List Nat} {u : State} (hi : idle)
      (ho : (1 ≤ op ∧ op ≤ 4) ∨ (s.sec.locked.contains (xlatAsid s op a' n') = false ∧ s.sec.locked.contains a' = false)) (h : xlatOp s op a' n' va' = (res, l, u))
      (hend : res ≠ 0 ∨ (l = [] ∧ xlatDrains s op a' = [])) : .next (xlatCmd s xlatSts op a' n' va') = done (xlatAsid s op a' n') op n' res u :=
    congrArg Host.Outcome.next (xlatCmd_done hr hi (fun _ => ho) h hend)
  have refuses {op a' n' va' : Nat} (hi : idle) (hop : ¬ (1 ≤ op ∧ op ≤ 4)) (hl : locked (xlatAsid s op a' n')) :
      .next (xlatCmd s xlatSts op a' n' va') = refused (xlatAsid s op a' n') op n' := congrArg Host.Outcome.next (xlatCmd_locked hr hi rfl hop hl)
  have cuts (op n' va' : Nat) (i : Instr) (sel : XEnt → Bool) (hi : idle) (hop : 1 ≤ op ∧ op ≤ 3) (he : exec i s = .next (xlatCmd s xlatSts op a n' va'))
      (h : (∀ c, c ∈ s.cores → c.2.f.comb = []) → xlatOp s op a n' va' = (0, tagsOf (cut sel) a, cut sel)) : inv i op n' sel := by
    have hop4 : 1 ≤ op ∧ op ≤ 4 := by omega
    have hd : xlatDrains s op a = drainsOf s a := if_pos (by simpa using hop)
    have ha : xlatAsid s op a n' = a := by
      rw [xlatAsid, if_neg (by simp; omega), if_neg (by omega)]
    intro hc
    refine ⟨fun ht hds => he.trans ((ends hi (.inl hop4) (h hc) (.inr ⟨ht, hd.trans hds⟩)).trans (by rw [ha])), fun hw => he.trans ?_⟩
    have hx := xlatCmd_waits (sts := xlatSts) (n := n') hr hi (fun _ => .inl hop4) (h hc) (by rwa [hd])
    rw [hx, ha, hd]
    rfl
  refine ⟨fun hb => ?busy, fun hi => ⟨?_, ?_, fun hn => ?_, fun hn => ?_, fun hn => ?_, fun hn ht => ?_, fun hn ht => ?_⟩, fun hi hl => ⟨?_, ?_, ?_⟩,
    fun hi hl => ⟨?_, ?_⟩, fun hi hl => ?made, fun hi hl h0 => ?region⟩
  case busy =>
    have h : (barRd s xlatSts).getLsbD 63 = true := Bool.not_eq_false _ ▸ hb
    simp only [List.forall_mem_cons]
    exact ⟨congrArg _ (xlatCmd_busy hr h), congrArg _ (xlatCmd_busy hr h), congrArg _ (xlatCmd_busy hr h), congrArg _ (xlatCmd_busy hr h),
      congrArg _ (xlatCmd_busy hr h), congrArg _ (xlatCmd_busy hr h), congrArg _ (xlatCmd_busy hr h), congrArg _ (xlatCmd_busy hr h),
      congrArg _ (xlatCmd_busy hr h), by simp⟩
  · exact cuts 1 0 0 _ _ hi (by decide) rfl fun hc => congrArg (fun x => (0, x.1, x.2)) (invalidate_unbuffered hc a _)
  · exact cuts 2 0 va _ _ hi (by decide) rfl fun hc => congrArg (fun x => (0, x.1, x.2)) (invalidate_unbuffered hc a _)
  · exact cuts 3 n 0 _ _ hi (by decide) rfl fun hc => xlatOp_invWindow hc a 0 hn
  · exact ends (op := 3) hi (.inl (by decide)) (if_pos hn) (.inl (by decide))
  · exact ends (op := 4) hi (.inl (by decide)) (if_pos hn) (.inl (by decide))
  · exact ends (op := 4) hi (.inl (by decide)) (if_neg (Nat.not_le.mpr hn)) (.inr ⟨ht, rfl⟩)
  · exact congrArg _ (xlatCmd_waits (op := 4) hr hi (fun _ => .inl (by decide)) (if_neg (Nat.not_le.mpr hn)) (.inl ht))
  · exact refuses (op := 5) hi (by decide) hl
  · exact refuses (op := 8) hi (by decide) hl
  · exact refuses (op := 9) hi (by decide) hl
  · exact refuses (op := 6) hi (by decide) hl
  · exact refuses (op := 7) hi (by decide) hl
  case made =>
    have hla := Bool.eq_false_iff.mpr hl
    have made' {res : Nat} {u : State} (h : winMake s a n = (res, u)) : exec (.winMake a n) s = done a 5 n res u :=
      ends (op := 5) (l := []) hi (.inr ⟨hla, hla⟩) (congrArg (fun x : Nat × State => (x.1, ([] : List Nat), x.2)) h) (.inr ⟨rfl, rfl⟩)
    refine ⟨fun hn => made' (winMake_beyond hn), fun hn ht => made' (winMake_other hn ht), fun hn ht hp => made' (winMake_near hn ht hp), fun hn ht hp => ⟨fun v hv => ?_, fun hv => ?_⟩,
      ends (op := 8) (l := []) hi (.inr ⟨hla, hla⟩) rfl (.inr ⟨rfl, rfl⟩), ends (op := 9) (l := []) hi (.inr ⟨hla, hla⟩) rfl (.inr ⟨rfl, rfl⟩)⟩
    · have known : farHandle s w = (v, s) := by simp only [farHandle, show spFind s.hub.far (winPkg w * 2 ^ 16 + winCore w * 2 ^ 8 + winHnd w) = some v from hv]
      have h := winMake_far hn ht hp
      rw [show farHandle s (winWords s a n) = (v, s) from known] at h
      exact made' h
    · have free : farHandle s w = ((Config.freeBits 5 (s.fresh + 1) 1200).toNat, { s with fresh := s.fresh + 1 }) := by
        simp only [farHandle, show spFind s.hub.far (winPkg w * 2 ^ 16 + winCore w * 2 ^ 8 + winHnd w) = none from hv, drawFresh]
      have h := winMake_far hn ht hp
      rw [show farHandle s (winWords s a n) = _ from free] at h
      exact ⟨_, (Config.freeBits 5 (s.fresh + 1) 1200).isLt, made' h⟩
  case region =>
    intro counters
    have hlo := Bool.eq_false_iff.mpr hl
    have hl0 := Bool.eq_false_iff.mpr h0
    have set {res : Nat} {u : State} (h : regionSet s n = (res, u)) : exec (.regionSet n) s = done owner 6 n res u :=
      ends (op := 6) (l := []) hi (.inr ⟨hlo, hl0⟩) (congrArg (fun x : Nat × State => (x.1, ([] : List Nat), x.2)) h) (.inr ⟨rfl, rfl⟩)
    have clear {res : Nat} {u : State} (h : regionClear s n = (res, u)) : exec (.regionClear n) s = done owner 7 n res u :=
      ends (op := 7) (l := []) hi (.inr ⟨hlo, hl0⟩) (congrArg (fun x : Nat × State => (x.1, ([] : List Nat), x.2)) h) (.inr ⟨rfl, rfl⟩)
    classical
    exact ⟨fun hn => ⟨set (regionSet_beyond hn), clear (regionClear_beyond hn)⟩, fun hn h => set (regionSet_live hn h),
      fun hn h hc => set ((regionSet_dead hn h).trans (if_pos hc)), fun hn h hc => set ((regionSet_dead hn h).trans (if_neg hc)), fun hn => clear (regionClear_ended hn)⟩

end Sys2Proof.Proofs
end

section
/-! PROOFS. The commands of a VF (R404): what it may name, what its commands do and where they report, and ENTRY_WR. -/

namespace Sys2Proof.Proofs

open Sys2Proof Sys2Proof.Machine

theorem vfSts_ne_xlatSts {f : Nat} : vfSts f ≠ xlatSts := by
  simp only [vfSts, vfReg, xlatSts]
  omega

section Function

variable {s : State} {f : Nat} (hr : s.sec.recovery = false) (h1 : 1 ≤ f) (h64 : f ≤ 64)

/-! ## Where a VF is told (R404) -/

include h1 in
/-- The end of a command of a VF is told to the VF. -/
theorem cmdDone_vf (u : State) (a op t r : Nat) : cmdDone u (vfSts f) a op t r =
    post (barWr u (vfSts f) ((barRd u (vfSts f) &&& ~~~(0xFF#64 <<< 48)) ||| (BitVec.ofNat 64 r <<< 48))) f 3 [vfSts f, op, t, r] := by
  have hge : ¬ vfSts f < 2 ^ 40 := by
    simp only [vfSts, vfReg]
    omega
  have hdiv : vfSts f / 2 ^ 40 = f := by
    simp only [vfSts, vfReg]
    omega
  rw [cmdDone, tellOf, if_neg hge, hdiv]

include hr h1 h64

theorem vfServes : (s.sec.recovery || decide (f = 0) || decide (f > 64)) = false := by
  rw [hr, Bool.false_or, Bool.or_eq_false_iff, decide_eq_false_iff_not, decide_eq_false_iff_not]
  omega

/-! ## Commands of the scheduler (R332, R404) -/

/-- What a VF may name in a command of the scheduler. -/
def schedNames (s : State) (a op n : Nat) : Bool :=
  if op ≤ 5 then qAsid s n == a && n < 65536 else (match gangAt s n with | some g => g.asid == a | none => false)

theorem vfSched_lost (a op mode n : Nat) (hb : vfBusy s f = true) : vfSched s f a op mode n = .next (vfLost s f) := by
  rw [vfSched, if_neg (Bool.eq_false_iff.mp (vfServes hr h1 h64)), if_pos hb]

theorem vfSched_named {a op n : Nat} (mode : Nat) (hb : vfBusy s f = false) (ha : ownerOf s a = f) (hn : schedNames s a op n = true) :
    vfSched s f a op mode n = .next (schedEnd (schedOp s op mode n).2 (vfSts f) a op n (schedOp s op mode n).1) := by
  rw [vfSched, if_neg (Bool.eq_false_iff.mp (vfServes hr h1 h64)), if_neg (Bool.eq_false_iff.mp hb)]
  refine congrArg (fun o : Nat × State => Host.Outcome.next (schedEnd o.2 (vfSts f) a op n o.1)) (if_pos ?_)
  rw [Bool.and_eq_true, decide_eq_true_eq]
  exact ⟨ha, hn⟩

theorem vfSched_refused {a op n : Nat} (mode : Nat) (hb : vfBusy s f = false) (hn : ownerOf s a ≠ f ∨ schedNames s a op n = false) :
    vfSched s f a op mode n = .next (cmdDone s (vfSts f) a op n 1) := by
  rw [vfSched, if_neg (Bool.eq_false_iff.mp (vfServes hr h1 h64)), if_neg (Bool.eq_false_iff.mp hb)]
  refine (congrArg (fun o : Nat × State => Host.Outcome.next (schedEnd o.2 (vfSts f) a op n o.1)) (if_neg ?_)).trans
    (congrArg _ (schedEnd_done s (vfSts f) a n (.inl Nat.one_ne_zero)))
  rw [Bool.and_eq_true, decide_eq_true_eq]
  exact fun h => hn.elim (· h.1) fun hf => Bool.false_ne_true (hf.symm.trans h.2)

/-! ## Commands of the translation unit (R352, R404) -/

theorem vfXlat_lost (a op n : Nat) (hb : vfBusy s f = true) : vfXlat s f a op n = .next (vfLost s f) := by
  rw [vfXlat, if_neg (Bool.eq_false_iff.mp (vfServes hr h1 h64)), if_pos hb]

theorem vfXlat_refused {a op n : Nat} (hb : vfBusy s f = false) (h : ownerOf s a ≠ f ∨ vfNames s a op n = false) :
    vfXlat s f a op n = .next (cmdDone s (vfSts f) a (op + 0x10) n 1) := by
  rw [vfXlat, if_neg (Bool.eq_false_iff.mp (vfServes hr h1 h64)), if_neg (Bool.eq_false_iff.mp hb)]
  refine if_neg ?_
  rw [Bool.and_eq_true, decide_eq_true_eq]
  exact fun hc => h.elim (· hc.1) fun hf => Bool.false_ne_true (hf.symm.trans hc.2)

theorem vfXlat_named {a op n : Nat} (hb : vfBusy s f = false) (ha : ownerOf s a = f) (hn : vfNames s a op n = true) :
    vfXlat s f a op n = .next (xlatCmd s (vfSts f) op a n (barRd s (vfReg f 0x10)).toNat) := by
  rw [vfXlat, if_neg (Bool.eq_false_iff.mp (vfServes hr h1 h64)), if_neg (Bool.eq_false_iff.mp hb)]
  refine if_pos ?_
  rw [Bool.and_eq_true, decide_eq_true_eq]
  exact ⟨ha, hn⟩

omit hr h1 h64 in
/-- A command that a VF may give concerns the address space that it names. -/
theorem xlatAsid_of_names {a op n : Nat} (hn : vfNames s a op n = true) : xlatAsid s op a n = a := by
  unfold vfNames at hn
  unfold xlatAsid
  by_cases h4 : op = 4
  · simp only [h4, if_true, Bool.and_eq_true, beq_iff_eq] at hn
    simpa [h4] using hn.2
  · by_cases h67 : (decide (op = 6) || decide (op = 7)) = true
    · simp only [h4, h67, if_true, if_false, Bool.and_eq_true, beq_iff_eq] at hn
      simpa only [h67, if_true] using hn.2
    · simp only [h4, h67, if_false, Bool.false_eq_true]

/-! ## ENTRY_WR (R404) -/

theorem entryWr_lost (a sel n : Nat) (hb : vfBusy s f = true) : exec (.entryWr f a sel n) s = .next (vfLost s f) := by
  rw [exec_entryWr, execEntryWr, if_neg (Bool.eq_false_iff.mp (vfServes hr h1 h64)), if_pos hb]

theorem entryWr_ends {a sel n r : Nat} {u : State} (hb : vfBusy s f = false) (h : entryWr s f a sel n = (r, u)) :
    exec (.entryWr f a sel n) s = .next (cmdDone u (vfSts f) a 0x20 n r) := by
  rw [exec_entryWr, execEntryWr, if_neg (Bool.eq_false_iff.mp (vfServes hr h1 h64)), if_neg (Bool.eq_false_iff.mp hb), h]

end Function

/-- An entry of another address space is in use. -/
theorem occupied_iff {live : Bool} {x a : Nat} : (live && x != a) = true ↔ live = true ∧ x ≠ a := by rw [Bool.and_eq_true, bne_iff_ne]

theorem held_iff {live : Bool} {x a : Nat} : (live || x != a) = true ↔ live = true ∨ x ≠ a := by rw [Bool.or_eq_true, bne_iff_ne]

section Entry

variable {s : State} {f a : Nat}

theorem entryWr_stranger (h : ownerOf s a ≠ f) (sel n : Nat) : entryWr s f a sel n = (1, s) := if_pos (bne_iff_ne.mpr h)

theorem entryWr_unselected {sel : Nat} (h : 4 ≤ sel) (n : Nat) : entryWr s f a sel n = (1, s) := by
  have h0 : sel ≠ 0 := by omega
  have h1 : sel ≠ 1 := by omega
  have h2 : sel ≠ 2 := by omega
  have h3 : sel ≠ 3 := by omega
  simp only [entryWr, h0, h1, h2, h3, if_false, ite_self]

variable (h : ownerOf s a = f) (n : Nat)

include h

theorem owned : ¬ (ownerOf s a != f) = true := by simp [h]

/-- A queue's entry (R330). -/
theorem entryWr_queue : entryWr s f a 0 n =
    let b := vfEntry s f
    if n ≥ 65536 || (((qsOf s n).bound || qValid s n) && qAsid s n != a) then (1, s)
    else if (qsOf s n).bound || bits (leNat b) 48 35 != a then (2, s)
    else (0, { s with mem := memPutBytes s.mem (qAddr s n) b }) := if_neg (owned h)

/-- A window's entry (R361). -/
theorem entryWr_window : entryWr s f a 1 n =
    let w := leNat (vfEntry s f)
    if n ≥ 4096 then (1, s)
    else (0, { s with mem := memPutBytes s.mem (bits (memNat s (atabEntry s a + 24) 8) 38 17 * 2 ^ 17 + 32 * n) (toBytes (if bit w 56 then w % 2 ^ 256 - 2 ^ 56 else w) 32) }) := if_neg (owned h)

/-- A region's entry (R119). -/
theorem entryWr_region : entryWr s f a 2 n =
    let b := vfEntry s f
    if n ≥ 1024 || (bit (regionWord s n) 255 && bits (regionWord s n) 254 241 != a) then (1, s)
    else if bit (regionWord s n) 255 || bits (leNat b) 254 241 != a then (2, s)
    else (0, { s with mem := memPutBytes s.mem (regionAt s n) (b.take 32) }) := if_neg (owned h)

/-- A key's entry (R362). -/
theorem entryWr_key : entryWr s f a 3 n =
    let b := vfEntry s f
    let key := (barRd s 0x00020008).toNat + 32 * n
    if n ≥ 2 ^ 20 || (bit (memNat s key 8) 63 && bits (memNat s key 8) 44 31 != a) then (1, s)
    else if bits (leNat b) 44 31 != a then (2, s)
    else (0, { s with mem := memPutBytes s.mem key (b.take 32) }) := if_neg (owned h)

end Entry

/-- An index that is none, or an entry in use by another address space. -/
theorem beyond_iff {n m : Nat} {live : Bool} {x a : Nat} : (decide (n ≥ m) || (live && x != a)) = true ↔ m ≤ n ∨ (live = true ∧ x ≠ a) := by
  rw [Bool.or_eq_true, decide_eq_true_eq, occupied_iff]

/-- Settles O43: a command of a VF by whether it names what is its own, then by the command of the PF; ENTRY_WR table by table. -/
theorem functionCommands : Obligations.FunctionCommands := by
  unfold Obligations.FunctionCommands
  intro s f a n hr h1 h64 sts arg set done taken idle lost mine queues gangs acts tables b w put
  have ended (u : State) (op t r : Nat) : .next (cmdDone u (vfSts f) a op t r) = done op t r u := congrArg Host.Outcome.next (cmdDone_vf h1 u a op t r)
  have acted (e : Instr × Nat × Nat) (he : exec e.1 s = vfSched s f a e.2.1 e.2.2 n) (hi : idle) (hm : mine) (hn : schedNames s a e.2.1 n = true) : acts e := by
    have go := he.trans (vfSched_named hr h1 h64 e.2.2 hi hm hn)
    refine ⟨fun ho => ?_, fun ho hop => ?_, fun ho hop => ?_⟩
    · exact go.trans ((congrArg Host.Outcome.next (schedEnd_done _ (vfSts f) a n ho)).trans (ended _ _ _ _))
    · rw [go, show (schedOp s e.2.1 e.2.2 n).1 = 0 from ho, hop]
      rfl
    · rw [go, show (schedOp s e.2.1 e.2.2 n).1 = 0 from ho, hop]
      rfl
  have denied (e : Instr × Nat × Nat) (he : exec e.1 s = vfSched s f a e.2.1 e.2.2 n) (hi : idle) (hn : ¬ mine ∨ schedNames s a e.2.1 n = false) :
      exec e.1 s = done e.2.1 n 1 s := he.trans ((vfSched_refused hr h1 h64 e.2.2 hi hn).trans (ended _ _ _ _))
  have queueRows : ∀ e ∈ queues, exec e.1 s = vfSched s f a e.2.1 e.2.2 n ∧ e.2.1 ≤ 5 := by
    simp only [queues, List.forall_mem_cons]
    exact ⟨⟨rfl, by decide⟩, ⟨rfl, by decide⟩, ⟨rfl, by decide⟩, ⟨rfl, by decide⟩, ⟨rfl, by decide⟩, by simp⟩
  have gangRows : ∀ e ∈ gangs, exec e.1 s = vfSched s f a e.2.1 e.2.2 n ∧ ¬ e.2.1 ≤ 5 := by
    simp only [gangs, List.forall_mem_cons]
    exact ⟨⟨rfl, by decide⟩, ⟨rfl, by decide⟩, by simp⟩
  have tableRows : ∀ e ∈ tables, exec e.1 s = vfXlat s f a e.2 n := by
    simp only [tables, List.forall_mem_cons]
    exact ⟨rfl, rfl, rfl, rfl, rfl, rfl, rfl, rfl, rfl, by simp⟩
  refine ⟨fun hb => ⟨fun e he => ?_, fun e he => ?_, fun k => ?_⟩, fun hi => ⟨fun hm hq hn e he => ?_, fun hn e he => ?_, fun hm ⟨g, hg, hga⟩ e he => ?_, fun hn e he => ?_,
    fun hm e he => ?_, fun hm e he _ hn => ?_, fun hm e he hn => ?xlat, fun hm k => ?_, fun hm => ?entry⟩⟩
  · have hb : vfBusy s f = true := Bool.not_eq_false _ ▸ hb
    rcases List.mem_append.mp he with he | he
    · exact (queueRows e he).1.trans (vfSched_lost hr h1 h64 _ _ _ _ hb)
    · exact (gangRows e he).1.trans (vfSched_lost hr h1 h64 _ _ _ _ hb)
  · exact (tableRows e he).trans (vfXlat_lost hr h1 h64 _ _ _ (Bool.not_eq_false _ ▸ hb))
  · exact entryWr_lost hr h1 h64 a k n (Bool.not_eq_false _ ▸ hb)
  · obtain ⟨hx, hop⟩ := queueRows e he
    exact acted e hx hi hm (by rw [schedNames, if_pos hop, hq, decide_eq_true hn, beq_self_eq_true, Bool.true_and])
  · obtain ⟨hx, hop⟩ := queueRows e he
    refine denied e hx hi (hn.imp_right fun h => ?_)
    rw [schedNames, if_pos hop, Bool.and_eq_false_iff, beq_eq_false_iff_ne, decide_eq_false_iff_not, Nat.not_lt]
    exact h
  · obtain ⟨hx, hop⟩ := gangRows e he
    refine acted e hx hi hm ?_
    rw [schedNames, if_neg hop]
    simp only [gangAt, hg, hga, beq_self_eq_true]
  · obtain ⟨hx, hop⟩ := gangRows e he
    refine denied e hx hi (hn.imp_right fun h => ?_)
    rw [schedNames, if_neg hop]
    cases hg : gangAt s n with
    | none => rfl
    | some g => exact beq_eq_false_iff_ne.mpr (h g hg)
  · exact (tableRows e he).trans ((vfXlat_refused hr h1 h64 hi (.inl hm)).trans (ended _ _ _ _))
  · exact (tableRows e he).trans ((vfXlat_refused hr h1 h64 hi (.inr hn)).trans (ended _ _ _ _))
  case xlat =>
    intro o d
    have hne := vfSts_ne_xlatSts (f := f)
    have ha : xlatAsid s e.2 a n = a := xlatAsid_of_names hn
    have hd : xlatDrains s e.2 a = d := if_congr (by rw [Bool.and_eq_true, decide_eq_true_eq, decide_eq_true_eq, and_iff_right]; revert e; simp [tables]) rfl rfl
    have ht : xlatTold (vfSts f) e.2 = e.2 + 0x10 := if_neg hne
    have go := (tableRows e he).trans (vfXlat_named hr h1 h64 hi hm hn)
    refine ⟨fun h => go.trans ?_, fun h0 h => go.trans ?_⟩
    · have hx := xlatCmd_done (sts := vfSts f) (n := n) hr hi (fun h => absurd h hne) (show xlatOp s e.2 a n arg = (o.1, o.2.1, o.2.2) from rfl) (by rwa [hd])
      rw [ha, ht] at hx
      exact (congrArg Host.Outcome.next hx).trans (ended _ _ _ _)
    · have hx := xlatCmd_waits (sts := vfSts f) (n := n) hr hi (fun h => absurd h hne) (show xlatOp s e.2 a n arg = (0, o.2.1, o.2.2) from Prod.ext h0 rfl) (by rwa [hd])
      rw [ha, ht, hd] at hx
      exact congrArg Host.Outcome.next hx
  · exact (entryWr_ends hr h1 h64 hi (entryWr_stranger hm k n)).trans (ended _ _ _ _)
  case entry =>
    intro key foreignQ foreignR foreignK
    have wrote {k r : Nat} {u : State} (h : entryWr s f a k n = (r, u)) : exec (.entryWr f a k n) s = done 0x20 n r u :=
      (entryWr_ends hr h1 h64 hi h).trans (ended _ _ _ _)
    have queueHeld : ((decide (n ≥ 65536) || (((qsOf s n).bound || qValid s n) && qAsid s n != a)) = true) ↔ 65536 ≤ n ∨ foreignQ := by
      rw [beyond_iff, Bool.or_eq_true]
    have at0 := entryWr_queue hm n
    have at2 := entryWr_region hm n
    have at3 := entryWr_key hm n
    refine ⟨fun h => wrote (at0.trans (if_pos (queueHeld.mpr h))), fun hn hf h => wrote (at0.trans ((if_neg ?_).trans (if_pos (held_iff.mpr h)))),
      fun hn hf h0 h => wrote (at0.trans ((if_neg ?_).trans (if_neg ?_))),
      fun h => wrote ((entryWr_window hm n).trans (if_pos h)), fun h => wrote ((entryWr_window hm n).trans (if_neg (Nat.not_le.mpr h))),
      fun h => wrote (at2.trans (if_pos (beyond_iff.mpr h))), fun hn hf h => wrote (at2.trans ((if_neg ?_).trans (if_pos (held_iff.mpr h)))),
      fun hn h0 h => wrote (at2.trans ((if_neg ?_).trans (if_neg ?_))),
      fun h => wrote (at3.trans (if_pos (beyond_iff.mpr h))), fun hn hf h => wrote (at3.trans ((if_neg ?_).trans (if_pos (bne_iff_ne.mpr h)))),
      fun hn hf h => wrote (at3.trans ((if_neg ?_).trans (if_neg ?_))), fun k hk => wrote (entryWr_unselected hk n)⟩
    · exact mt queueHeld.mp (not_or.mpr ⟨Nat.not_le.mpr hn, hf⟩)
    · exact mt queueHeld.mp (not_or.mpr ⟨Nat.not_le.mpr hn, hf⟩)
    · exact mt held_iff.mp (not_or.mpr ⟨by rw [h0]; decide, not_not.mpr h⟩)
    · exact mt beyond_iff.mp (not_or.mpr ⟨Nat.not_le.mpr hn, hf⟩)
    · exact mt beyond_iff.mp (not_or.mpr ⟨Nat.not_le.mpr hn, fun hb => Bool.false_ne_true (h0.symm.trans hb.1)⟩)
    · exact mt held_iff.mp (not_or.mpr ⟨by rw [h0]; decide, not_not.mpr h⟩)
    · exact mt beyond_iff.mp (not_or.mpr ⟨Nat.not_le.mpr hn, hf⟩)
    · exact mt beyond_iff.mp (not_or.mpr ⟨Nat.not_le.mpr hn, hf⟩)
    · exact mt bne_iff_ne.mp (not_not.mpr h)

end Sys2Proof.Proofs
end

section
/-! PROOFS. Trunks and routes (R371, R372, R378, R381, R382): configuration, training, lanes that fail, and routes that change. -/

namespace Sys2Proof.Proofs

open Sys2Proof Sys2Proof.Machine

/-! ## What a hub counter leaves, and how a trunk changes (R392) -/

theorem hubCount_noted (s : State) (k n : Nat) : hubCount s k n = s ∨
    OnlyNoted (modHub s fun h => { h with cnt := spMod 0 h.cnt k fun x => min (x + n) (2 ^ 64 - 1) }) (hubCount s k n) := by
  unfold hubCount
  split
  · exact .inl rfl
  · refine .inr ?_
    split
    · exact onlyNoted_setHealth ..
    · exact .refl _

/-- A field that neither hub counters nor what is noted touch. -/
theorem hubCount_keeps {γ : Type} (g : State → γ) (hn : ∀ (s : State) (bar : Sp Word) (posted : List (Nat × Nat × List Nat)), g { s with bar := bar, posted := posted } = g s)
    (hc : ∀ (s : State) (c : Sp Nat), g { s with hub := { s.hub with cnt := c } } = g s) (s : State) (k n : Nat) : g (hubCount s k n) = g s := by
  rcases hubCount_noted s k n with h | ⟨bar, posted, h⟩
  · rw [h]
  · rw [h, hn]
    exact hc s _

theorem hubCount_dev (s : State) (k n : Nat) : (hubCount s k n).dev = s.dev := hubCount_keeps State.dev (fun _ _ _ => rfl) (fun _ _ => rfl) s k n

theorem trunkAt_hubCount (s : State) (k n m : Nat) : trunkAt (hubCount s k n) m = trunkAt s m :=
  hubCount_keeps (fun s => trunkAt s m) (fun _ _ _ => rfl) (fun _ _ => rfl) s k n

theorem trunkAt_modTrunk (s : State) (n : Nat) (f : Trunk → Trunk) : trunkAt (modTrunk s n f) n = f (trunkAt s n) := spGet_spSet_same ..

theorem modTrunk_congr {s : State} {n : Nat} {f g : Trunk → Trunk} (h : f (trunkAt s n) = g (trunkAt s n)) : modTrunk s n f = modTrunk s n g :=
  congrArg (fun t => { s with hub := { s.hub with trunks := spSet s.hub.trunks n t } }) h

theorem trunkAt_trunkTo (s : State) (n st : Nat) (f : Trunk → Trunk) : trunkAt (trunkTo s n st f) n = f { trunkAt s n with state := st, since := s.dev } :=
  trunkAt_modTrunk s n fun t => f { t with state := st, since := s.dev }

/-- A command of the hub, none being carried out (R371). -/
theorem hubCmd_free {s : State} (hr : s.sec.recovery = false) (h : s.hub.cmd = none) (op t : Nat) (act : State → State) : hubCmd s op t act = act s := by
  simp only [hubCmd, hr, h, Bool.false_eq_true, if_false]

/-! ## Configuration and training (R372, R378) -/

section Trunk

variable {s : State} {n : Nat}

theorem trunkCfgWrite_unaligned (hn : n < 144) (hr : s.sec.recovery = false) {v : Nat} (hv : bit v 63 = true) (ha : n % 2 ^ bits v 62 61 ≠ 0) : exec (.trunkCfgWrite n v) s =
    .next (barWr s hubSts ((barRd s hubSts &&& ~~~(0xFF#64 <<< 48)) ||| (1#64 <<< 48))) := by
  have h0 : ¬ (s.sec.recovery || decide (n ≥ 144)) = true := by simp [hr, hn]
  rw [exec_trunkCfgWrite, execTrunkCfgWrite, if_neg h0]
  exact if_pos (by rw [hv, Bool.true_and, bne_iff_ne]; exact ha)

theorem trunkCfgWrite_taken (hn : n < 144) (hr : s.sec.recovery = false) {v : Nat} (h : bit v 63 = false ∨ n % 2 ^ bits v 62 61 = 0) : exec (.trunkCfgWrite n v) s =
    .next (barWr s (trunkReg n) (BitVec.ofNat 64 (bits v 63 61 * 2 ^ 61 + bits v 33 16 * 2 ^ 16))) := by
  have h0 : ¬ (s.sec.recovery || decide (n ≥ 144)) = true := by simp [hr, hn]
  rw [exec_trunkCfgWrite, execTrunkCfgWrite, if_neg h0]
  exact if_neg (by rcases h with h | h <;> simp [h])

theorem trunkTrain_invalid (h : ¬ (barRd s (trunkReg n)).getLsbD 63 = true) : trunkTrain n s = hubDone s 4 n 1 := by
  refine if_pos ?_
  rw [Bool.or_eq_true, Bool.not_eq_true']
  exact .inr (Bool.eq_false_iff.mpr h)

theorem trunkTrain_valid (hn : n < 144) (h : (barRd s (trunkReg n)).getLsbD 63 = true) : trunkTrain n s =
    hubDone (trunkRetrain (modTrunk s n fun t =>
      { (if t.state = 0 then { Trunk.reset with wire := t.wire, peer := t.peer } else t) with lanes := upTo (trunkWidth s n) }) n false) 4 n 0 := by
  refine if_neg ?_
  rw [h, Bool.not_true, Bool.or_false, decide_eq_true_eq]
  omega

/-! ## A lane that fails (R378) -/

variable {k : Nat}

theorem laneFail_unused (h : k ∉ (trunkAt s n).lanes ∨ (trunkAt s n).state = 0) : laneFail s n k = s := by
  refine if_pos ?_
  rw [Bool.or_eq_true, Bool.not_eq_true', List.contains_eq_mem, decide_eq_false_iff_not, decide_eq_true_eq]
  exact h

section Used

variable (hk : k ∈ (trunkAt s n).lanes) (h0 : (trunkAt s n).state ≠ 0)

include hk h0

theorem laneUsed : ¬ (!(trunkAt s n).lanes.contains k || decide ((trunkAt s n).state = 0)) = true := by simp [hk, h0]

theorem laneFail_last (h1 : (trunkAt s n).lanes.length = 1) : laneFail s n k = trunkDown s n := (if_neg (laneUsed hk h0)).trans (if_pos h1)

variable (h1 : (trunkAt s n).lanes.length ≠ 1)

include h1

theorem laneFail_up (h : (trunkAt s n).state = 1) : laneFail s n k = trunkRetrain s n true := (if_neg (laneUsed hk h0)).trans ((if_neg h1).trans (if_pos h))

theorem laneFail_training (h : (trunkAt s n).state = 2) : laneFail s n k = s := by
  refine (if_neg (laneUsed hk h0)).trans ((if_neg h1).trans ((if_neg (by omega)).trans (if_neg ?_)))
  simp [h]

/-- In NRZ or PROBATION the half of the lanes that the failed one is not in stays. -/
theorem laneFail_halves (h : (trunkAt s n).state = 3 ∨ (trunkAt s n).state = 4) : laneFail s n k =
    let half := (trunkAt s n).lanes.length / 2
    trunkRetrain (modTrunk (trunkTo (hubCount s (8 * n + 3) 1) n 5 fun t => t) n fun t =>
      { t with lanes := if k ∈ t.lanes.take half then t.lanes.drop half else t.lanes.take half }) n false := by
  refine (if_neg (laneUsed hk h0)).trans ((if_neg h1).trans ((if_neg (by omega)).trans ((if_pos ?_).trans ?_)))
  · rw [Bool.or_eq_true, decide_eq_true_eq, decide_eq_true_eq]
    exact h
  · have lanes : (trunkAt (trunkTo (hubCount s (8 * n + 3) 1) n 5 fun t => t) n).lanes = (trunkAt s n).lanes := by
      rw [trunkAt_trunkTo]
      dsimp only
      rw [trunkAt_hubCount]
    refine congrArg (fun u => trunkRetrain u n false) (modTrunk_congr ?_)
    simp only [lanes, List.contains_eq_mem, decide_eq_true_eq]

end Used

/-! ## Training that ends (R378, R397) -/

/-- The training of a trunk has not had its time. -/
def inTraining (s : State) (n : Nat) : Bool :=
  (trunkAt s n).state != 2 || s.dev < (trunkAt s n).since + nsDev (if (trunkAt s n).aimNrz then 20000 else 30000)

/-- A trunk comes up, in a state and mode. -/
def comesUp (s u : State) (n st : Nat) (nrz : Bool) : State :=
  modTrunk (modTrunk (hubCount (trunkTo u n st fun t => { t with nrz := nrz, asked := (0, 0) }) (8 * n) 1) n
    fun t => { t with replay := t.replay.map fun _ => (s.dev, 1) }.plain 3 (toBytes t.rxExp 2)) n Trunk.pump

theorem trainingDone_waits (ok : Nat) (h : inTraining s n = true) : exec (.trainingDone n ok) s = .next s := by
  rw [exec_trainingDone, execTrainingDone]
  exact if_pos h

theorem trainingDone_failed (h : inTraining s n = false) : exec (.trainingDone n 0) s = .next (trunkDown s n) := by
  rw [exec_trainingDone, execTrainingDone]
  exact (if_neg (Bool.eq_false_iff.mp h)).trans (if_pos rfl)

theorem trainingDone_pam4 {ok : Nat} (h : inTraining s n = false) (hok : ok ≠ 0) (hm : (trunkAt s n).aimNrz = false) : exec (.trainingDone n ok) s = .next (comesUp s s n 1 false) := by
  rw [exec_trainingDone, execTrainingDone]
  refine (if_neg (Bool.eq_false_iff.mp h)).trans ((if_neg hok).trans ?_)
  simp only [hm, Bool.false_eq_true, if_false]
  refine congrArg (fun u => Host.Outcome.next (modTrunk u n Trunk.pump)) (congrArg₂ (fun u f => modTrunk (hubCount u (8 * n) 1) n f) ?_ rfl)
  exact congrArg (fun u => post u 0 8 [n, 1]) (modTrunk_congr (by simp only [hm]))

theorem trainingDone_nrz {ok : Nat} (h : inTraining s n = false) (hok : ok ≠ 0) (hm : (trunkAt s n).aimNrz = true) :
    exec (.trainingDone n ok) s = .next (comesUp s (hubCount s (8 * n + 2) 1) n 3 true) := by
  rw [exec_trainingDone, execTrainingDone]
  refine (if_neg (Bool.eq_false_iff.mp h)).trans ((if_neg hok).trans ?_)
  have hm' : (trunkAt (hubCount s (8 * n + 2) 1) n).aimNrz = true := (congrArg Trunk.aimNrz (trunkAt_hubCount ..)).trans hm
  have hdev : (trunkTo (hubCount s (8 * n + 2) 1) n 3 fun t => { t with nrz := t.aimNrz, asked := (0, 0) }).dev = s.dev := hubCount_dev ..
  simp only [hm, if_true, hdev]
  refine congrArg (fun u => Host.Outcome.next (modTrunk u n Trunk.pump)) (congrArg₂ (fun u f => modTrunk (hubCount u (8 * n) 1) n f) ?_ rfl)
  exact congrArg (fun u => post u 0 8 [n, 3]) (modTrunk_congr (by simp only [hm']))

end Trunk

/-! ## Routes (R381, R382) -/

section Route

variable {s : State} {d : Nat}

theorem holds_none (h : ∀ e ∈ s.hub.holds, e.1 ≠ d) : (s.hub.holds.find? fun x => x.1 == d) = none :=
  List.find?_eq_none.mpr fun e he => by simpa using h e he

theorem routeWr_beyond (h : 16384 ≤ d) : routeWr d s = hubDone s 1 d 1 := if_pos h

/-- The routing entries with one loaded from memory. -/
def routesLoaded (s : State) (d : Nat) : Sp Word := spSet s.hub.routes d (BitVec.ofNat 64 (memNat s ((barRd s 0x00030010).toNat + 8 * d) 8))

/-- Until when packets for a changed route are held. -/
def heldUntil (s : State) : Nat := s.dev + nsDev (1000 * bits (barRd s 0x00030008).toNat 31 0)

theorem routeWr_first (hd : d < 16384) (h : ∀ e ∈ s.hub.holds, e.1 ≠ d) : routeWr d s =
    hubDone { s with hub := { s.hub with routes := routesLoaded s d, holds := s.hub.holds ++ [(d, heldUntil s, [])] } } 1 d 0 := by
  refine (if_neg (Nat.not_le.mpr hd)).trans ?_
  simp only [modHub, holds_none h]
  rfl

/-- A second change of a route holds longer what is held already. -/
theorem routeWr_again (hd : d < 16384) {w : Nat} {l : List Packet} (h : (s.hub.holds.find? fun e => e.1 == d) = some (d, w, l)) : routeWr d s =
    hubDone { s with hub := { s.hub with routes := routesLoaded s d, holds := s.hub.holds.map fun e => if e.1 = d then (d, heldUntil s, l) else e } } 1 d 0 := by
  refine (if_neg (Nat.not_le.mpr hd)).trans ?_
  simp only [modHub, h]
  rfl

theorem routeHoldExpiry_none (h : ∀ e ∈ s.hub.holds, e.1 ≠ d) : exec (.routeHoldExpiry d) s = .next s := by
  rw [exec_routeHoldExpiry, execRouteHoldExpiry, holds_none h]

end Route

/-- Settles O44: trunk by trunk event and route by route, each by the branch of its row. -/
theorem trunksAndRoutes : Obligations.TrunksAndRoutes := by
  unfold Obligations.TrunksAndRoutes
  intro s n v k hn hr t result done goes retrain down h valid trained up loaded until_
  have waits : inTraining s n = true ↔ t.state ≠ 2 ∨ ¬ trained := by
    simp only [inTraining, Bool.or_eq_true, bne_iff_ne, decide_eq_true_eq, trained, Nat.not_le, t]
  have ended (h2 : t.state = 2) (ht : trained) : inTraining s n = false := Bool.eq_false_iff.mpr (mt waits.mp fun h => h.elim (fun h => h h2) fun h => h ht)
  refine ⟨trunkCfgWrite_unaligned hn hr, trunkCfgWrite_taken hn hr,
    fun hc hv => congrArg _ ((hubCmd_free hr hc 4 n _).trans (trunkTrain_invalid hv)),
    fun hc hv => congrArg _ ((hubCmd_free hr hc 4 n _).trans (trunkTrain_valid hn hv)), fun hk => ?lane,
    fun hk h0 h1 => congrArg _ (laneFail_last hk h0 h1), fun hk h1 h2 => have h0 : t.state ≠ 0 := (by omega); congrArg _ (laneFail_up hk h0 h1 h2),
    fun hk h1 h2 => have h0 : t.state ≠ 0 := (by omega); congrArg _ (laneFail_halves hk h0 h1 h2), fun hw => trainingDone_waits v (waits.mpr hw),
    fun h2 ht => ⟨trainingDone_failed (ended h2 ht), fun hm hv => trainingDone_pam4 (ended h2 ht) hv hm, fun hm hv => trainingDone_nrz (ended h2 ht) hv hm⟩,
    fun h3 ht => ?_, fun ht => ?_, fun hc hv => congrArg _ ((hubCmd_free hr hc 1 v _).trans (routeWr_beyond hv)), fun hc hv hh => ?_, fun w l hc hv hh => ?_,
    fun w l hh => ⟨fun ht => ?_, fun ht => ?_⟩, routeHoldExpiry_none⟩
  case lane =>
    by_cases hu : k ∉ t.lanes ∨ t.state = 0
    · exact congrArg _ (laneFail_unused hu)
    · obtain ⟨hm, h0⟩ := not_or.mp hu
      obtain ⟨h1, h2⟩ := (hk.resolve_left hm).resolve_left h0
      exact congrArg _ (laneFail_training (not_not.mp hm) h0 h1 h2)
  · rw [exec_probationExpiry, execProbationExpiry]
    exact if_pos (by rw [Bool.and_eq_true, decide_eq_true_eq, decide_eq_true_eq]; exact ⟨h3, ht⟩)
  · rw [exec_probationExpiry, execProbationExpiry]
    refine if_neg ?_
    rw [Bool.and_eq_true, decide_eq_true_eq, decide_eq_true_eq]
    exact fun hc => ht.elim (· hc.1) fun hl => Nat.not_le.mpr hl hc.2
  · exact congrArg _ ((hubCmd_free hr hc 1 v _).trans (routeWr_first hv hh))
  · exact congrArg _ ((hubCmd_free hr hc 1 v _).trans (routeWr_again hv hh))
  · rw [exec_routeHoldExpiry, execRouteHoldExpiry, hh]
    exact if_pos ht
  · rw [exec_routeHoldExpiry, execRouteHoldExpiry, hh]
    exact if_neg (Nat.not_lt.mpr ht)

end Sys2Proof.Proofs
end

section
/-! PROOFS. Flits that arrive on a trunk (R374 to R378): what is refused, what a good flit is taken for, and requests for replay repeated. -/

namespace Sys2Proof.Proofs

open Sys2Proof Sys2Proof.Machine

theorem flows_iff (t : Trunk) : t.flows = true ↔ t.state = 1 ∨ t.state = 3 ∨ t.state = 4 := by
  simp only [Trunk.flows, Bool.or_eq_true, beq_iff_eq, or_assoc]

/-- A flit that FEC, CRC and its fields leave good. -/
def flitGood (w bad : Nat) : Prop := bad ≠ 1 ∧ (readFlit w).typ ≤ 4 ∧ (readFlit w).vc ≤ 9 ∧ bits w 1891 1888 = 0

theorem flitGood_iff (w bad : Nat) : (decide (bad = 1) || flitBad w (readFlit w)) = false ↔ flitGood w bad := by
  simp only [flitBad, flitGood, Bool.or_eq_false_iff, decide_eq_false_iff_not, bne_eq_false_iff_eq, gt_iff_lt, Nat.not_lt, and_assoc, ne_eq]

/-! ## Flits that are not taken -/

section Arrive

variable {s : State} {n w bad typ : Nat}

/-- A trunk takes a flit of a type. -/
def takesFlit (t : Trunk) (typ : Nat) : Prop := t.flows = true ∨ (t.state = 2 ∧ typ = 4)

theorem flitArrive_stopped (h : ¬ takesFlit (trunkAt s n) typ) : flitArrive n w bad typ s = s := by
  refine if_pos ?_
  rw [Bool.or_eq_true, Bool.not_eq_true']
  refine .inr (Bool.eq_false_iff.mpr fun hc => h ?_)
  simpa only [takesFlit, Bool.or_eq_true, Bool.and_eq_true, decide_eq_true_eq] using hc

variable (hn : n < 144) (ht : takesFlit (trunkAt s n) typ)

include hn ht

theorem flitTrunk_open : ¬ (decide (n ≥ 144) || !((trunkAt s n).flows || (decide ((trunkAt s n).state = 2) && decide (typ = 4)))) = true := by
  have hb : ((trunkAt s n).flows || (decide ((trunkAt s n).state = 2) && decide (typ = 4))) = true := by
    simpa only [takesFlit, Bool.or_eq_true, Bool.and_eq_true, decide_eq_true_eq] using ht
  rw [hb, Bool.not_true, Bool.or_false, decide_eq_true_eq]
  omega

theorem flitArrive_bad (hg : ¬ flitGood w bad) : flitArrive n w bad typ s = if (trunkAt s n).flows then askReplay (hubCount s (8 * n + 1) 1) n else s :=
  (if_neg (flitTrunk_open hn ht)).trans (if_pos (Bool.not_eq_false _ ▸ mt (flitGood_iff w bad).mp hg))

theorem flitArrive_other (hg : flitGood w bad) (hne : (readFlit w).typ ≠ typ) : flitArrive n w bad typ s = s :=
  (if_neg (flitTrunk_open hn ht)).trans ((if_neg (Bool.eq_false_iff.mp ((flitGood_iff w bad).mpr hg))).trans (if_pos (bne_iff_ne.mpr hne)))

end Arrive

/-! ## A good flit (R374 to R377) -/

/-- The trunk after the ACK of a flit. -/
def flitAcked (s : State) (n : Nat) (f : Flit) : State := modTrunk s n fun t => t.acked f.ack

/-- A sequenced flit in order: the SEQ expected next, and the credits it brings. -/
def flitInOrder (u : State) (n : Nat) (f : Flit) : State := modTrunk u n fun t => { t with rxExp := (t.rxExp + 1) % 4096, replay := none }.credited f.crch f.crcnt

/-- What waits goes out, and an ACK where nothing else does. -/
def flitAnswered (u : State) (n : Nat) : State := modTrunk u n fun t => if t.pump.wire.length = t.wire.length then t.pump.plain 0 [] else t.pump

/-- What a flit comes to besides its ACK. `nrz` is the mode the trunk ran in. -/
def flitTaken (u : State) (n : Nat) (f : Flit) (nrz : Bool) : State :=
  if f.typ = 1 || f.typ = 2 || (f.typ = 0 && f.crcnt != 0) then
    if f.seq != (trunkAt u n).rxExp then (if (trunkAt u n).replay.isNone then askReplay u n else u)
    else flitAnswered (if f.typ = 0 then flitInOrder u n f else bufSettle (flitData (flitInOrder u n f) n f)) n
  else if f.typ = 3 then
    let v := modTrunk u n fun t => t.resend (leNat (f.payload.take 2) % 4096)
    if (trunkAt v n).asked.2 ≥ 16 then trunkRetrain v n nrz else v
  else if f.typ = 4 then modTrunk u n fun t => { t with peer := leNat (f.payload.take 2) % 16384 }
  else modTrunk u n Trunk.pump

theorem flitArrive_good {s : State} {n w bad typ : Nat} (hn : n < 144) (ht : takesFlit (trunkAt s n) typ) (hg : flitGood w bad) (he : (readFlit w).typ = typ) :
    flitArrive n w bad typ s = flitNoted n bad (flitTaken (flitAcked s n (readFlit w)) n (readFlit w) (trunkAt s n).nrz) :=
  (if_neg (flitTrunk_open hn ht)).trans ((if_neg (Bool.eq_false_iff.mp ((flitGood_iff w bad).mpr hg))).trans (if_neg (by simp [he])))

section Taken

variable {u : State} {n : Nat} {f : Flit} {nrz : Bool}

theorem sequenced_iff (f : Flit) : (decide (f.typ = 1) || decide (f.typ = 2) || (decide (f.typ = 0) && f.crcnt != 0)) = true ↔
    f.typ = 1 ∨ f.typ = 2 ∨ (f.typ = 0 ∧ f.crcnt ≠ 0) := by
  simp only [Bool.or_eq_true, Bool.and_eq_true, decide_eq_true_eq, bne_iff_ne, or_assoc]

theorem flitTaken_inOrder (h : f.typ = 1 ∨ f.typ = 2 ∨ (f.typ = 0 ∧ f.crcnt ≠ 0)) (hs : f.seq = (trunkAt u n).rxExp) :
    flitTaken u n f nrz = flitAnswered (if f.typ = 0 then flitInOrder u n f else bufSettle (flitData (flitInOrder u n f) n f)) n :=
  (if_pos ((sequenced_iff f).mpr h)).trans (if_neg (by simp [hs]))

theorem flitTaken_outOfOrder (h : f.typ = 1 ∨ f.typ = 2 ∨ (f.typ = 0 ∧ f.crcnt ≠ 0)) (hs : f.seq ≠ (trunkAt u n).rxExp) :
    flitTaken u n f nrz = if (trunkAt u n).replay = none then askReplay u n else u :=
  (if_pos ((sequenced_iff f).mpr h)).trans ((if_pos (bne_iff_ne.mpr hs)).trans (if_congr Option.isNone_iff_eq_none rfl rfl))

theorem flitTaken_idle (h : f.typ = 0) (hc : f.crcnt = 0) : flitTaken u n f nrz = modTrunk u n Trunk.pump := by
  simp [flitTaken, h, hc]

theorem flitTaken_replay (h : f.typ = 3) : flitTaken u n f nrz =
    let v := modTrunk u n fun t => t.resend (leNat (f.payload.take 2) % 4096)
    if (trunkAt v n).asked.2 ≥ 16 then trunkRetrain v n nrz else v :=
  (if_neg (mt (sequenced_iff f).mp (by omega))).trans (if_pos h)

theorem flitTaken_train (h : f.typ = 4) : flitTaken u n f nrz = modTrunk u n fun t => { t with peer := leNat (f.payload.take 2) % 16384 } :=
  (if_neg (mt (sequenced_iff f).mp (by omega))).trans ((if_neg (by omega)).trans (if_pos h))

end Taken

/-! ## Requests for replay repeated (R377) -/

section Repeat

variable {s : State} {n : Nat}

theorem replayReqRepeat_none (h : (trunkAt s n).replay = none ∨ ¬ (trunkAt s n).flows = true) : exec (.replayReqRepeat n) s = .next s := by
  rw [exec_replayReqRepeat, execReplayReqRepeat]
  cases hr : (trunkAt s n).replay with
  | none => rfl
  | some x =>
    have hf : (trunkAt s n).flows = false := Bool.eq_false_iff.mpr (h.resolve_left (by simp [hr]))
    simp only [hf, Bool.not_false, Bool.true_or, if_true]

theorem replayReqRepeat_asked {at_ k : Nat} (hr : (trunkAt s n).replay = some (at_, k)) (hf : (trunkAt s n).flows = true) : exec (.replayReqRepeat n) s = .next
    (if s.dev < at_ + nsDev 1000 then s else if k ≥ 16 then trunkRetrain (modTrunk s n fun t => { t with replay := none }) n (trunkAt s n).nrz else askReplay s n) := by
  simp only [exec_replayReqRepeat, execReplayReqRepeat, hr, hf, Bool.not_true, Bool.false_or, decide_eq_true_eq, apply_ite Host.Outcome.next]

end Repeat

/-- Settles O45: a flit by whether its trunk takes it, whether it is good and of its type, then by what its type comes to. -/
theorem flitsArrive : Obligations.FlitsArrive := by
  unfold Obligations.FlitsArrive
  intro s n w bad hn t f flows ok kinds acked inOrder taken out noted asked again
  have runs : flows ↔ t.flows = true := (flows_iff t).symm
  have rows : ∀ e ∈ kinds, exec e.1 s = .next (flitArrive n w bad e.2 s) := by
    simp only [kinds, List.forall_mem_cons]
    exact ⟨rfl, rfl, rfl, rfl, rfl, by simp⟩
  have noting (u : State) : flitNoted n bad u = noted u := by
    by_cases h : bad < 2
    · exact (if_neg (by omega)).trans (if_pos h).symm
    · exact (if_pos (by omega)).trans (if_neg h).symm
  have good {i : Instr} {typ : Nat} {u : State} (hi : (i, typ) ∈ kinds) (ht : flows ∨ (t.state = 2 ∧ typ = 4)) (hg : ok) (he : f.typ = typ)
      (h : flitTaken acked n f t.nrz = u) : exec i s = .next (noted u) := by
    rw [rows (i, typ) hi, flitArrive_good hn (ht.imp_left runs.mp) hg he, ← noting, ← h]
    rfl
  have start : (Instr.startFlit n w bad, 1) ∈ kinds := by simp [kinds]
  have cont : (Instr.contFlit n w bad, 2) ∈ kinds := by simp [kinds]
  have idle : (Instr.idleFlit n w bad, 0) ∈ kinds := by simp [kinds]
  have replay : (Instr.replayReq n w bad, 3) ∈ kinds := by simp [kinds]
  have train : (Instr.trainFlit n w bad, 4) ∈ kinds := by simp [kinds]
  refine ⟨fun hf e he h => ?_, fun h2 hg => ?_, fun hf hg e he => ?_, fun hf hg e he hne => ?_, fun hf hg => ?taken, fun hf hg h4 => ?_, fun h => ?_, fun at_ k hr hf => ?rep⟩
  · refine (rows e he).trans (congrArg _ (flitArrive_stopped fun ht => ?_))
    exact ht.elim (fun ht => hf (runs.mpr ht)) fun ⟨h2, h4⟩ => h.elim (· h2) (· h4)
  · refine (rows _ train).trans (congrArg _ ((flitArrive_bad hn (.inr ⟨h2, rfl⟩) hg).trans (if_neg ?_)))
    rw [← runs]
    omega
  · exact (rows e he).trans (congrArg _ ((flitArrive_bad hn (.inl (runs.mp hf)) hg).trans (if_pos (runs.mp hf))))
  · exact (rows e he).trans (congrArg _ (flitArrive_other hn (.inl (runs.mp hf)) hg fun h => hne h.symm))
  case taken =>
    refine ⟨fun h ho => ?_, fun h ho => ?_, fun h hc ho => ?_, fun h ho => ?_, fun h ho => ?_, fun h hc ho => ?_, fun h hc => ?_, fun h ha => ?_, fun h ha => ?_⟩
    · exact good start (.inl hf) hg h ((flitTaken_inOrder (.inl h) ho).trans (congrArg (flitAnswered · n) (if_neg (by omega))))
    · exact good cont (.inl hf) hg h ((flitTaken_inOrder (.inr (.inl h)) ho).trans (congrArg (flitAnswered · n) (if_neg (by omega))))
    · exact good idle (.inl hf) hg h ((flitTaken_inOrder (.inr (.inr ⟨h, hc⟩)) ho).trans (congrArg (flitAnswered · n) (if_pos h)))
    · exact good start (.inl hf) hg h (flitTaken_outOfOrder (.inl h) ho)
    · exact good cont (.inl hf) hg h (flitTaken_outOfOrder (.inr (.inl h)) ho)
    · exact good idle (.inl hf) hg h (flitTaken_outOfOrder (.inr (.inr ⟨h, hc⟩)) ho)
    · exact good idle (.inl hf) hg h (flitTaken_idle h hc)
    · exact good replay (.inl hf) hg h ((flitTaken_replay h).trans (if_neg (Nat.not_le.mpr ha)))
    · exact good replay (.inl hf) hg h ((flitTaken_replay h).trans (if_pos ha))
  · exact good train (hf.imp_right fun h => ⟨h, rfl⟩) hg h4 (flitTaken_train h4)
  · exact replayReqRepeat_none (h.imp_right (mt runs.mpr))
  case rep =>
    have go := replayReqRepeat_asked hr (runs.mp hf)
    exact ⟨fun ht => go.trans (congrArg _ (if_pos ht)), fun ht hk => go.trans (congrArg _ ((if_neg (Nat.not_lt.mpr ht)).trans (if_neg (Nat.not_le.mpr hk)))),
      fun ht hk => go.trans (congrArg _ ((if_neg (Nat.not_lt.mpr ht)).trans (if_pos hk)))⟩

end Sys2Proof.Proofs
end

section
/-! PROOFS. Packets that arrive (R106, R363, R364, R380): which arrival is taken, and what becomes of a write, a read and an atomic. -/

namespace Sys2Proof.Proofs

open Sys2Proof Sys2Proof.Machine

/-! ## Which arrival is taken (R106, R364) -/

section Arrival

variable {s : State} {i op : Nat} {p : Packet}

/-- An arrival is the oldest of its source, lane and direction. -/
def Oldest (s : State) (i : Nat) (p : Packet) : Prop := ∀ q ∈ s.hub.rx.take i, ¬(q.spkg = p.spkg ∧ q.lane = p.lane ∧ q.rsp = p.rsp)

/-- No packet of its source and lane is parked. -/
def LaneFree (s : State) (p : Packet) : Prop := ∀ k ∈ s.hub.parked, ¬(k.pkt.spkg = p.spkg ∧ k.pkt.lane = p.lane)

theorem oldest_iff : ((s.hub.rx.take i).any fun q => q.spkg == p.spkg && q.lane == p.lane && q.rsp == p.rsp) = false ↔ Oldest s i p := by
  simp only [List.any_eq_false, Bool.and_eq_true, beq_iff_eq, and_assoc, Oldest]

theorem laneParked_iff : laneParked s p = false ↔ LaneFree s p := by
  simp only [laneParked, List.any_eq_false, Bool.and_eq_true, beq_iff_eq, LaneFree]

variable (hx : s.hub.rx[i]? = some p)

include hx

theorem rxFirst_oldest (hop : p.op = op) (hd : op = 0x30 ∨ p.rsp = decide (0x20 ≤ op)) (ho : Oldest s i p) : rxFirst s i op = some p := by
  have hd' : (op == 0x30 || p.rsp == decide (0x20 ≤ op)) = true := by
    rw [Bool.or_eq_true, beq_iff_eq, beq_iff_eq]
    exact hd
  rw [rxFirst, hx]
  exact if_pos (by rw [hd', oldest_iff.mpr ho, decide_eq_true hop]; rfl)

theorem rxFirst_younger (ho : ¬ Oldest s i p) : rxFirst s i op = none := by
  rw [rxFirst, hx]
  refine if_neg ?_
  rw [Bool.and_eq_true, Bool.not_eq_true', oldest_iff]
  exact fun h => ho h.2

theorem rxFirst_other (hop : p.op ≠ op) : rxFirst s i op = none := by
  rw [rxFirst, hx]
  refine if_neg ?_
  rw [decide_eq_false hop]
  exact Bool.false_ne_true

end Arrival

section Request

variable {s : State} {i op : Nat} {p : Packet} (f : State → Packet → State)

theorem onRequest_none (h : rxFirst s i op = none) : onRequest s i op f = .next s := by rw [onRequest, h]

theorem onRequest_parks (h : rxFirst s i op = some p) (hl : ¬ LaneFree s p) : onRequest s i op f = .next (parkArrival s i p none) := by
  rw [onRequest, h]
  exact if_pos (Bool.not_eq_false _ ▸ mt laneParked_iff.mp hl)

/-- With no decision log in use a request that none is parked before is performed. -/
theorem onRequest_taken (h : rxFirst s i op = some p) (hl : LaneFree s p) (hr : rplMode s = 0) : onRequest s i op f = .next (f s p) := by
  have hi : ingress s i p = (true, s) := if_pos hr
  rw [onRequest, h]
  refine (if_neg (Bool.eq_false_iff.mp (laneParked_iff.mpr hl))).trans ?_
  rw [hi]

end Request

/-! ## Banks of a handle (R56) -/

/-- What others have had of a core's banks in this cycle. -/
def bankTaken (s : State) (c : Nat) : List (Nat × Nat) := if (coreAt s c).q.last = s.now + 1 then (coreAt s c).lines else []

/-- The banks that a requester does not get. -/
def bankLost (s : State) (c : Nat) (ls : List Nat) : List Nat := ((ls.map bankOf).eraseDups).filter ((bankTaken s c).map fun x => bankOf x.2).contains

section Banks

variable {s : State} {c r : Nat} {ls : List Nat}

theorem bankTry_lost (h : (bankLost s c ls).isEmpty = false) : (bankTry s c r ls).1 = false :=
  congrArg Prod.fst (if_pos (show (!(bankLost s c ls).isEmpty) = true by rw [h]; rfl))

variable (hr : rplMode s = 0)

include hr

theorem bankTry_had (h : (bankLost s c ls).isEmpty = true) : bankTry s c r ls = (true, modCore s c fun k => { k with
    lines := ls.map (fun n => (r, n)) ++ bankTaken s c
    asks := k.asks.filter fun x => !(x.1 == r && (ls.map bankOf).contains x.2) }) := by
  refine (if_neg (show ¬ (!(bankLost s c ls).isEmpty) = true by rw [h]; decide)).trans ?_
  simp only [hr, if_true, List.foldl_nil, Bool.not_true, Bool.false_eq_true, if_false]
  rfl

/-- What a requester that gets its banks leaves of the rest of its core. -/
theorem bankTry_won (h : (bankTry s c r ls).1 = true) : (bankTry s c r ls).2.hub = s.hub ∧ (coreAt (bankTry s c r ls).2 c).m = (coreAt s c).m ∧
    (coreAt (bankTry s c r ls).2 c).bind = (coreAt s c).bind := by
  cases hl : (bankLost s c ls).isEmpty with
  | false => exact absurd ((bankTry_lost hl).symm.trans h) Bool.false_ne_true
  | true =>
    rw [bankTry_had hr hl, coreAt_modCore_same]
    exact ⟨rfl, rfl, rfl⟩

/-- Banks that no requester has had in this cycle are free. -/
theorem bankTry_free (h : (coreAt s c).q.last ≠ s.now + 1) : (bankTry s c r ls).1 = true := by
  have none : (bankLost s c ls).isEmpty = true := by simp [bankLost, bankTaken, h]
  rw [bankTry_had hr none]

end Banks

/-! ## WR (R363, R364) -/

/-- A write into a handle is placed. -/
def handleFits (u : State) (p : Packet) (asid off : Nat) : Prop :=
  let k := coreAt u (pktCore p)
  let e := handle k (pktHnd p)
  pktCore p < 192 ∧ p.ggen = 0 ∧ e.valid = true ∧ e.gen = pktGen p ∧ e.shadow = false ∧ off + p.data.length ≤ e.size ∧
    spGet 0 k.m.hheld (pktHnd p) ≠ 1 ∧ spGet 0 k.m.hheld (pktHnd p) ≠ 2 ∧ (spGet 0 k.m.hheld (pktHnd p) = 3 → asidOf k = asid)

theorem handleFits_iff (u : State) (p : Packet) (asid off : Nat) :
    (let c := pktCore p
     let e := handle (coreAt u c) (pktHnd p)
     let held := spGet 0 (coreAt u c).m.hheld (pktHnd p)
     c < 192 && p.ggen = 0 && e.valid && e.gen == pktGen p && !e.shadow && off + p.data.length ≤ e.size && held != 1 && held != 2 &&
      (held != 3 || asidOf (coreAt u c) == asid)) = true ↔ handleFits u p asid off := by
  simp only [Bool.and_eq_true, Bool.or_eq_true, Bool.not_eq_true', decide_eq_true_eq, beq_iff_eq, bne_iff_ne, and_assoc, handleFits, ne_eq, or_iff_not_imp_left,
    not_not]

theorem handle_congr {k l : Core} (hm : k.m = l.m) (h : Nat) : handle k h = handle l h := by
  simp only [handle, hword, hm]

theorem handleFits_congr {u v : State} {p : Packet} (hm : (coreAt u (pktCore p)).m = (coreAt v (pktCore p)).m)
    (hb : (coreAt u (pktCore p)).bind = (coreAt v (pktCore p)).bind) (asid off : Nat) : handleFits u p asid off ↔ handleFits v p asid off := by
  simp only [handleFits, handle_congr hm, hm, asidOf, hb]

section Write

variable {u : State} {p : Packet} {asid off : Nat}

theorem writeHandle_fits (h : handleFits u p asid off) {e : HEnt} (he : handle (coreAt u (pktCore p)) (pktHnd p) = e) : writeHandle u p asid off =
    sendRsp (setSkip (hWrite u (pktCore p) e off (underMask (wrMask p 0 p.data.length) p.data (spadRead (coreAt u (pktCore p)) e off p.data.length))) p false)
      (respond u p 0x20 0 []) := by
  subst he
  exact if_pos ((handleFits_iff u p asid off).mpr h)

theorem writeHandle_refused (h : ¬ handleFits u p asid off) : writeHandle u p asid off = dropWrite u p 0x02 := if_neg (mt (handleFits_iff u p asid off).mp h)

end Write

/-- What a write to memory comes to (R363, R364). -/
def wrMemory (s : State) (i : Nat) (p : Packet) (asid va : Nat) : State :=
  match writeAt s asid va p.data.length with
  | .ok => writeOn (p.data.length + 1) (setSkip (rxTake s i) p false) p asid va 0
  | .park a => parkArrival s i p (some (asid, a))
  | .drop => dropWrite (rxTake s i) p 0x04

/-- An access that ends within what it matches and within HBM is bounded by neither. -/
theorem bounded_within {pa k rt sp n : Nat} (x y : Bool) (h : n ≤ sp) (hm : pa + n ≤ hbmSize) : (XRes.loc pa k rt sp x y).bounded n = .loc pa k rt sp x y := by
  refine if_neg ?_
  rw [Nat.min_eq_right h]
  omega

/-- A write within one page is placed whole and acknowledged. -/
theorem writeOn_whole {u : State} {p : Packet} {asid va pa k rt sp : Nat} {x y : Bool} (hx : xlat u 0 asid va = .loc pa k rt sp x y) (h0 : 0 < p.data.length)
    (hs : p.data.length ≤ sp) (hm : pa + p.data.length ≤ hbmSize) : writeOn (p.data.length + 1) u p asid va 0 =
    sendRsp { u with mem := memPutBytes u.mem pa (underMask (wrMask p 0 p.data.length) p.data (memBytes u.mem pa p.data.length)) } (respond u p 0x20 0 []) := by
  obtain ⟨k', hk⟩ : ∃ k', p.data.length = k' + 1 := ⟨p.data.length - 1, by omega⟩
  have hslice : slice p.data 0 p.data.length = p.data := by simp [slice]
  rw [writeOn, if_neg (by omega)]
  simp only [Nat.add_zero, Nat.sub_zero, Nat.zero_add, hx, bounded_within x y hs hm, Nat.min_eq_right hs, hslice]
  rw [show writeOn p.data.length = writeOn (k' + 1) from congrArg _ hk, writeOn, if_pos (Nat.le_refl _)]
  rfl

/-! ## RD (R363) -/

/-- What a read's first part comes to where all of it lies in one page. -/
theorem readOn_page {u : State} {p : Packet} {asid va pa k rt sp : Nat} {x y : Bool} (hx : xlat u 0 asid va = .loc pa k rt sp x y) (hd : p.data = []) (h0 : 0 < p.len)
    (hs : p.len ≤ sp) (hm : pa + p.len ≤ hbmSize) : readOn (p.len + 1) u p asid va =
    if k = kVERSIONED || k = kCOUNTER then refuse u p 0x05 0x0D 0 else if !hasRight rt rR then refuse u p 0x03 0x0B 0x04
    else readOn p.len (hbmRead u asid pa p.len).2 { p with data := (hbmRead u asid pa p.len).1 } asid va := by
  rw [readOn, hd, if_neg (by rw [List.length_nil]; omega)]
  simp only [List.length_nil, Nat.add_zero, Nat.sub_zero, List.nil_append, hx, bounded_within x y hs hm, Nat.min_eq_right hs]

theorem readOn_done {u : State} {p : Packet} {k : Nat} (asid va : Nat) (h0 : 0 < k) (h : p.data.length = p.len) :
    readOn k u p asid va = sendRsp u (respond u p 0x21 0 p.data) := by
  obtain ⟨k', rfl⟩ : ∃ k', k = k' + 1 := ⟨k - 1, by omega⟩
  rw [readOn, if_pos (Nat.le_of_eq h.symm)]

theorem plain_iff (k : Nat) : (decide (k = kVERSIONED) || decide (k = kCOUNTER)) = false ↔ k ≠ kVERSIONED ∧ k ≠ kCOUNTER := by
  rw [Bool.or_eq_false_iff, decide_eq_false_iff_not, decide_eq_false_iff_not]

/-- Settles O46: whether an arrival is taken first, then each operation by its key check and by where its bytes lie. -/
theorem writesReadsAndAtomicsArrive : Obligations.WritesReadsAndAtomicsArrive := by
  unfold Obligations.WritesReadsAndAtomicsArrive
  intro s i p hx hp oldest free out skip dropped under refuse' n plain kinds
  have hold : oldest ↔ Oldest s i p := by simp only [oldest, Oldest, hp]
  have rows : ∀ e ∈ kinds, e.2 < 0x20 ∧ ∃ f, exec e.1 s = onRequest s i e.2 f := by
    simp only [kinds, List.forall_mem_cons]
    exact ⟨⟨by decide, _, rfl⟩, ⟨by decide, _, rfl⟩, ⟨by decide, _, rfl⟩, by simp⟩
  have dir {op : Nat} (h : op < 0x20) : op = 0x30 ∨ p.rsp = decide (0x20 ≤ op) := .inr (hp.trans (decide_eq_false (Nat.not_le.mpr h)).symm)
  refine ⟨fun ho e he => ?_, fun e he hop => ?_, fun ho hf e he hop => ?_, fun ho hf hl => ?taken⟩
  · obtain ⟨_, f, hr⟩ := rows e he
    exact hr.trans (onRequest_none f (rxFirst_younger hx (mt hold.mpr ho)))
  · obtain ⟨_, f, hr⟩ := rows e he
    exact hr.trans (onRequest_none f (rxFirst_other hx hop))
  · obtain ⟨hlt, f, hr⟩ := rows e he
    exact hr.trans (onRequest_parks f (rxFirst_oldest hx hop (dir hlt) (hold.mp ho)) hf)
  case taken =>
    have taken {op : Nat} (f : State → Packet → State) (hop : p.op = op) (h : op < 0x20) : onRequest s i op f = .next (f s p) :=
      onRequest_taken f (rxFirst_oldest hx hop (dir h) (hold.mp ho)) hf hl
    refine ⟨fun hop hk => ?_, fun asid off hop ha hk => ?handle, fun asid va hop ha hk => ?mem, fun hop hk => ?_, fun asid va pa k rt sp x y hop hk hd h0 hs hm hxl => ?read,
      fun hop hk => ?_, fun asid va pa k rt sp x y hop hk h8 hxl hpl hrt => ?amo⟩
    · refine (taken _ hop (by decide)).trans (congrArg _ ?_)
      dsimp only
      rw [hk]
      rfl
    case handle =>
      intro c e b out' fits
      have hk' : keyCheck s p.key 1 rW p.addr p.data.length = some (asid, off) := hk
      have go {x : Bool} (hb : b.1 = x) : exec (.wr i) s = .next (if x then writeHandle (rxTake b.2 i) p asid off else b.2) := by
        have hb' : bankTry s (pktCore p) 5 (ingressLines s (pktCore p) p) = (x, b.2) := Prod.ext hb rfl
        refine (taken _ hop (by decide)).trans (congrArg _ ?_)
        simp only [ha, if_true, hk', hb']
        cases x <;> rfl
      refine ⟨bankTry_free hl, fun hb => go hb, fun hb hfit => ?_, fun hb hfit => ?_⟩
      all_goals
        obtain ⟨hhub, hm, hbind⟩ := bankTry_won hl hb
        have hout : rxTake b.2 i = out' := congrArg (fun h : Hub => { b.2 with hub := { h with rx := h.rx.eraseIdx i } }) hhub
        have he : handle (coreAt out' c) (pktHnd p) = e := handle_congr hm (pktHnd p)
        have hfits : handleFits out' p asid off ↔ fits := handleFits_congr hm hbind asid off
        refine (go hb).trans (congrArg _ ?_)
        rw [if_pos rfl, hout]
      · exact writeHandle_fits (hfits.mpr hfit) he
      · exact writeHandle_refused (mt hfits.mp hfit)
    case mem =>
      have hk' : keyCheck s p.key 0 rW p.addr p.data.length = some (asid, va) := hk
      have go : exec (.wr i) s = .next (wrMemory s i p asid va) := by
        refine (taken _ hop (by decide)).trans (congrArg _ ?_)
        simp only [ha, Bool.false_eq_true, if_false, hk']
        rfl
      refine ⟨fun hw => ?_, fun a hw => ?_, fun pa k rt sp x y hw hxl h0 hs hm => ?_⟩
      all_goals refine go.trans (congrArg _ ?_)
      · rw [wrMemory, show writeAt s asid va p.data.length = .drop from hw]
        rfl
      · rw [wrMemory, show writeAt s asid va p.data.length = .park a from hw]
      · rw [wrMemory, show writeAt s asid va p.data.length = .ok from hw]
        exact writeOn_whole hxl h0 hs hm
    · refine (taken _ hop (by decide)).trans (congrArg _ ?_)
      dsimp only
      rw [show keyCheck (rxTake s i) p.key 0 rR p.addr p.len = none from hk]
      rfl
    case read =>
      have go : exec (.rd i) s = .next (readOn (p.len + 1) out p asid va) := by
        refine (taken _ hop (by decide)).trans (congrArg _ ?_)
        dsimp only
        rw [show keyCheck (rxTake s i) p.key 0 rR p.addr p.len = some (asid, va) from hk]
        rfl
      refine ⟨fun hpl hrt hb => ?_, fun hpl => ?_, fun hpl hrt => ?_⟩
      all_goals refine go.trans (congrArg _ ((readOn_page hxl hd h0 hs hm).trans ?_))
      · refine (if_neg (Bool.eq_false_iff.mp ((plain_iff k).mpr hpl))).trans ((if_neg (by simp [hrt])).trans ?_)
        exact readOn_done asid va h0 hb
      · exact if_pos (Bool.not_eq_false _ ▸ mt (plain_iff k).mp hpl)
      · exact (if_neg (Bool.eq_false_iff.mp ((plain_iff k).mpr hpl))).trans (if_pos (by simp [hrt]))
    · refine (taken _ hop (by decide)).trans (congrArg _ ?_)
      dsimp only
      rw [show keyCheck (rxTake s i) p.key 0 rA p.addr 8 = none from hk]
      rfl
    case amo =>
      intro u m arg v u'
      refine (taken _ hop (by decide)).trans (congrArg _ ?_)
      dsimp only
      have hk' : keyCheck (rxTake s i) p.key 0 rA p.addr 8 = some (asid, va) := hk
      have hx' : xlat (rxTake s i) 0 asid va = .loc pa k rt sp x y := hxl
      have h8' : (va % 8 != 0) = false := by rw [h8]; rfl
      have hswap : (decide (pktFn p = 9) && m != arg) = true ↔ pktFn p = 9 ∧ m ≠ arg := by rw [Bool.and_eq_true, decide_eq_true_eq, bne_iff_ne]
      simp only [hk', h8', hx', (plain_iff k).mpr hpl, hrt, Bool.not_true, Bool.false_eq_true, if_false]
      exact congrArg (fun u => sendRsp u (respond u p 0x21 0 (toBytes m.toNat 8))) (if_congr hswap rfl rfl)

end Sys2Proof.Proofs
end

section
/-! PROOFS. Counter operations, versioned accesses and responses that arrive (R101, R106, R107, R125, R268, R380). -/

namespace Sys2Proof.Proofs

open Sys2Proof Sys2Proof.Machine

/-! ## Counter operations (R101, R268) -/

section Counter

variable {u : State} {p : Packet}

theorem counterOp_refused (a : Nat) (h : keyCheck u p.key 2 (if pktFn p = 2 then rR else rA) p.addr 8 = none) : counterOp u p a = refuse u p 0x04 0x0C 0 := by
  rw [counterOp]
  dsimp only
  rw [h]

/-- An operation is acknowledged. -/
def acked (u : State) (p : Packet) : State := sendRsp u (respond u p 0x20 0 [])

/-- What an operation on a counter that its key reaches comes to. -/
theorem counterOp_reached (a : Nat) {asid b : Nat} (h : keyCheck u p.key 2 (if pktFn p = 2 then rR else rA) p.addr 8 = some (asid, b)) (h8 : b % 8 = 0) (hb : b / 8 < 511)
    (hc : pktCore p < 192) : counterOp u p a =
    let at_ := CtrAt.file (pktCore p) (b / 8)
    let v := ctrRead u at_
    let sum := if pktFn p = 0 then ctrAdd v a else ctrRaise v a
    if pktFn p = 2 then sendRsp u (respond u p 0x21 0 (toBytes v.toNat 8))
    else if pktFn p = 4 then acked (ctrWrite u (ctrPoison v) at_) p
    else if pktFn p = 6 then (if (addOrPoison v a).2 then refuse (ctrWrite u (addOrPoison v a).1 at_) p 0x0A 0x0F 0 else acked (ctrWrite u (addOrPoison v a).1 at_) p)
    else if sum.2 then refuse u p 0x0A 0x0F 0 else acked (ctrWrite u sum.1 at_) p := by
  have hin : (decide (b / 8 ≥ 512) || b % 8 != 0 || decide (pktCore p ≥ 192)) = false := by
    simp only [h8, bne_self_eq_false, Bool.or_false, Bool.or_eq_false_iff, decide_eq_false_iff_not]
    omega
  have hown : decide (b / 8 = 511) = false := decide_eq_false (by omega)
  rw [counterOp]
  dsimp only
  rw [h]
  dsimp only
  rw [if_neg (Bool.eq_false_iff.mp hin), if_neg (by rw [hown]; exact Bool.false_ne_true)]
  rfl

/-! ## Landing adds (R106, R275) -/

/-- A landing add on a counter of a core takes effect. -/
def landed (u : State) (p : Packet) (a n : Nat) : State := acked (ctrWrite u (addOrPoison (ctrRead u (.file (pktCore p) n)) a).1 (.file (pktCore p) n)) p

theorem landApply_handle (a : Nat) (ha : bit p.aux 5 = true) (h : keyCheck u p.key 1 rW 0 0 ≠ none) (hn : p.addr / 8 < 512) (hc : pktCore p < 192) :
    landApply u p a = landed u p a (p.addr / 8) := by
  obtain ⟨x, hx⟩ := Option.ne_none_iff_exists'.mp h
  simp only [landApply, ha, if_true, hx, decide_eq_true hn, decide_eq_true hc, Bool.and_self]
  rfl

theorem landApply_counter (a : Nat) {asid b : Nat} (ha : bit p.aux 5 = false) (h : keyCheck u p.key 2 rA p.addr 8 = some (asid, b)) (hn : b / 8 < 512) (hc : pktCore p < 192) :
    landApply u p a = landed u p a (b / 8) := by
  simp only [landApply, ha, Bool.false_eq_true, if_false, h, Option.map_some, decide_eq_true hn, decide_eq_true hc, Bool.and_self, if_true]
  rfl

/-- How the write before a landing add went: 1 dropped, from 2 on under way. -/
def laneSkip (u : State) (p : Packet) : Nat := spGet 0 u.hub.skip (16 * p.spkg + p.lane)

theorem landAdd_dropped (a : Nat) (h : laneSkip u p = 1) : landAdd u p a = landDropped (setSkip u p false) p 0x04 := if_pos h

theorem landAdd_waits (a : Nat) (h : 2 ≤ laneSkip u p) : landAdd u p a =
    modHub (setSkip u p false) fun g => { g with owed := g.owed ++ [(p.spkg, laneSkip u p - 2, p)] } :=
  (if_neg (show ¬ laneSkip u p = 1 by omega)).trans (if_pos h)

theorem landAdd_now (a : Nat) (h : laneSkip u p = 0) : landAdd u p a = landApply u p a :=
  (if_neg (show ¬ laneSkip u p = 1 by omega)).trans (if_neg (show ¬ laneSkip u p ≥ 2 by omega))

end Counter

/-! ## Versioned accesses (R125) -/

/-- The home of a versioned access of one part. -/
theorem verHome_one {s : State} {p : Packet} (need : Nat) (h : p.data.length ≤ 16) : verHome s p need =
    match keyCheck s p.key 0 need p.addr 8 with
    | none => .fault 0x0C 0
    | some (asid, va) => verReach s 0 asid va 8 need := if_pos h

theorem verHome_refused {s : State} {p : Packet} {need : Nat} (h : p.data.length ≤ 16) (hk : keyCheck s p.key 0 need p.addr 8 = none) :
    verHome s p need = .fault 0x0C 0 := by rw [verHome_one need h, hk]

theorem verHome_reached {s : State} {p : Packet} {need asid va : Nat} (h : p.data.length ≤ 16) (hk : keyCheck s p.key 0 need p.addr 8 = some (asid, va)) :
    verHome s p need = verReach s 0 asid va 8 need := by rw [verHome_one need h, hk]

/-- A region's TIMEOUT has passed since a moment. -/
def regionLate (s : State) (t : Nat) (rs : List Nat) : Bool := rs.any fun n => s.dev ≥ t + nsDev (1000 * bits (regionWord s n) 231 200)

theorem regionLate_iff (s : State) (t : Nat) (rs : List Nat) : regionLate s t rs = true ↔ ∃ n ∈ rs, t + nsDev (1000 * bits (regionWord s n) 231 200) ≤ s.dev := by
  simp only [regionLate, List.any_eq_true, decide_eq_true_eq, ge_iff_le]

/-- What an access whose home is here comes to, tried once. -/
def verArrives (s : State) (i : Nat) (p : Packet) : VRes → State
  | .done v t =>
    let t := rxTake t i
    sendRsp t (if pktFn p = 1 then respond t p 0x20 0 [] else respond t p 0x21 0 (toBytes v.toNat 8))
  | .fault f => refuse (rxTake s i) p 0x04 f 0
  | .wait rs => match p.pre with
    | t :: _ => if regionLate s t rs then refuse (rxTake s i) p 0x04 (if pktFn p = 1 then 0x16 else 0x12) 0 else s
    | [] => modHub s fun h => { h with rx := setAt h.rx i { p with pre := [s.dev] } }

/-! ## Responses (R107, R380) -/

section Response

variable {s : State} {i op : Nat} {p : Packet} (late : State → Packet → State) (f : State → Packet → Pend → State) (h : rxFirst s i op = some p)

include h

theorem onResponse_late (hp : spFind s.hub.pend p.tag = none) : onResponse s i op late f = .next (late (rxTake s i) p) := by
  have hp' : spFind (rxTake s i).hub.pend p.tag = none := hp
  simp only [onResponse, h, hp']

theorem onResponse_taken {q : Pend} (hp : spFind s.hub.pend p.tag = some q) : onResponse s i op late f = .next (f (rxTake s i) p q) := by
  have hp' : spFind (rxTake s i).hub.pend p.tag = some q := hp
  simp only [onResponse, h, hp']

end Response

/-- Settles O47: each arrival is the one taken; then the operation by its key and its kind, the response by what waits for its tag. -/
theorem countersVersionsAndResponsesArrive : Obligations.CountersVersionsAndResponsesArrive := by
  unfold Obligations.CountersVersionsAndResponsesArrive
  intro s i p hx ho free out refuse' ack fn a c untag
  refine ⟨fun hrsp hf hl => ?request, fun hop => ?_, fun hrsp => ?response⟩
  case request =>
    have taken {op : Nat} (f : State → Packet → State) (hop : p.op = op) (h : op < 0x20) : onRequest s i op f = .next (f s p) :=
      onRequest_taken f (rxFirst_oldest hx hop (.inr (hrsp.trans (decide_eq_false (Nat.not_le.mpr h)).symm)) ho) hf hl
    have counted (hop : p.op = 4) (hn : fn ≠ 5) : exec (.ctr i) s = .next (counterOp out p a) := (taken _ hop (by decide)).trans (congrArg _ (if_neg hn))
    refine ⟨fun hop hn hk => ?_, fun asid b hop hn hk h8 hb hc => ?counter, fun hop h5 => ?land, fun hop hlen => ?ver⟩
    · exact (counted hop hn).trans (congrArg _ (counterOp_refused a hk))
    case counter =>
      intro at_ v
      have go := (counted hop hn).trans (congrArg _ (counterOp_reached a hk h8 hb hc))
      have not {k m : Nat} (h : fn = k) (hkm : k ≠ m) : ¬ pktFn p = m := fun e => hkm (h.symm.trans e)
      have sums {r : Word × Bool} (h2 : ¬ pktFn p = 2) (h4 : ¬ pktFn p = 4) (h6 : ¬ pktFn p = 6) (hs : (if pktFn p = 0 then ctrAdd v a else ctrRaise v a) = r) :
          exec (.ctr i) s = .next (if r.2 then refuse out p 0x0A 0x0F 0 else acked (ctrWrite out r.1 at_) p) := by
        subst hs
        exact go.trans (congrArg _ ((if_neg h2).trans ((if_neg h4).trans (if_neg h6))))
      have added (h : fn = 0) := sums (not h (by decide)) (not h (by decide)) (not h (by decide)) (if_pos h)
      have raised (h : fn = 1) := sums (not h (by decide)) (not h (by decide)) (not h (by decide)) (if_neg (not h (by decide)))
      have engine (h : fn = 6) := go.trans (congrArg _ ((if_neg (not h (by decide))).trans ((if_neg (not h (by decide))).trans (if_pos h))))
      refine ⟨fun h => go.trans (congrArg _ (if_pos h)), fun h => go.trans (congrArg _ ((if_neg (not h (by decide))).trans (if_pos h))),
        fun h ho => (added h).trans (congrArg _ (if_neg (Bool.eq_false_iff.mp ho))), fun h ho => (added h).trans (congrArg _ (if_pos ho)),
        fun h ho => (raised h).trans (congrArg _ (if_neg (Bool.eq_false_iff.mp ho))), fun h ho => (raised h).trans (congrArg _ (if_pos ho)),
        fun h ho => (engine h).trans (congrArg _ (if_neg (Bool.eq_false_iff.mp ho))), fun h ho => (engine h).trans (congrArg _ (if_pos ho))⟩
    case land =>
      intro k gone lands
      have go : exec (.ctr i) s = .next (landAdd out p a) := (taken _ hop (by decide)).trans (congrArg _ (if_pos h5))
      refine ⟨fun hk => ?_, fun hk => ?_, fun hk ha hkey hn hc => ?_, fun asid b hk ha hkey hn hc => ?_⟩
      · exact go.trans (congrArg _ (landAdd_dropped (u := out) a hk))
      · exact go.trans (congrArg _ (landAdd_waits (u := out) a hk))
      · exact go.trans (congrArg _ ((landAdd_now (u := out) a hk).trans (landApply_handle a ha hkey hn hc)))
      · exact go.trans (congrArg _ ((landAdd_now (u := out) a hk).trans (landApply_counter a ha hkey hn hc)))
    case ver =>
      intro st need
      have hneed : (if pktFn p = 1 then rW else rR) = need := rfl
      refine ⟨fun hk => ?_, fun asid va ps hk hps => ?_⟩
      · refine (taken _ hop (by decide)).trans (congrArg _ ?_)
        dsimp only
        rw [hneed, verHome_refused hlen hk]
        rfl
      · intro tried
        have home : verHome s p need = .here ps := (verHome_reached hlen hk).trans hps
        have go {r : VRes} (hr : tried = r) : exec (.ver i) s = .next (verArrives s i p r) := by
          have hr' : verTry s (decide (pktFn p = 1)) ps (leNat (p.data.take 8) % 2 ^ 32) (BitVec.ofNat 64 (leNat (slice p.data 8 8))) = r := hr
          refine (taken _ hop (by decide)).trans (congrArg _ ?_)
          dsimp only
          rw [hneed, home]
          dsimp only
          rw [hr']
          cases r <;> rfl
        have late (t : Nat) (rs : List Nat) (h : ∀ n ∈ rs, s.dev < t + nsDev (1000 * bits (regionWord s n) 231 200)) : ¬ regionLate s t rs = true :=
          fun hl => ((regionLate_iff s t rs).mp hl).elim fun n hn => Nat.not_le.mpr (h n hn.1) hn.2
        refine ⟨fun v u ht => ⟨fun hst => ?_, fun hst => ?_⟩, fun f ht => ?_, fun rs ht => ⟨fun hp => ?_, fun t l hp h => ?_, fun t l hp h => ?_⟩⟩
        all_goals refine (go ht).trans (congrArg _ ?_)
        · exact congrArg (sendRsp (rxTake u i)) (if_pos hst)
        · exact congrArg (sendRsp (rxTake u i)) (if_neg hst)
        · rfl
        · rw [verArrives, hp]
          rfl
        · rw [verArrives, hp]
          exact if_neg (late t rs h)
        · rw [verArrives, hp]
          exact if_pos ((regionLate_iff s t rs).mpr h)
  · have first : rxFirst s i 0x30 = some p := rxFirst_oldest hx hop (.inl rfl) ho
    rw [exec_mgmt, execMgmt, first]
    rfl
  case response =>
    have first {op : Nat} (hop : p.op = op) (h : 0x20 ≤ op) : rxFirst s i op = some p :=
      rxFirst_oldest hx hop (.inr (hrsp.trans (decide_eq_true h).symm)) ho
    have acks : exec (.ackpl i) s = onResponse s i 0x20 (fun s _ => s) answered := rfl
    have data : exec (.data i) s = onResponse s i 0x21 (fun s _ => s) answered := rfl
    have nacks : exec (.nack i) s = onResponse s i 0x24 (fun s p => if bit p.aux 25 then hubCount s 2007 1 else s) refused := rfl
    refine ⟨fun hp => ?_, fun hp hop hb => ?_, fun hp hop hb => ?_, fun q hp => ⟨fun hop hw => ?_, fun hop hw => ?_, fun hop hw => ?_, fun hop hw => ?_, fun hop hw => ?_⟩⟩
    · simp only [List.forall_mem_cons]
      exact ⟨fun hop => acks.trans (onResponse_late _ _ (first hop (by decide)) hp), fun hop => data.trans (onResponse_late _ _ (first hop (by decide)) hp), by simp⟩
    · exact (nacks.trans (onResponse_late _ _ (first hop (by decide)) hp)).trans (congrArg _ (if_neg (Bool.eq_false_iff.mp hb)))
    · exact (nacks.trans (onResponse_late _ _ (first hop (by decide)) hp)).trans (congrArg _ (if_pos hb))
    · refine (acks.trans (onResponse_taken _ _ (first hop (by decide)) hp)).trans (congrArg _ ?_)
      rw [answered, hw]
      rfl
    · refine (acks.trans (onResponse_taken _ _ (first hop (by decide)) hp)).trans (congrArg _ ?_)
      rw [answered, hw]
      rfl
    · refine (data.trans (onResponse_taken _ _ (first hop (by decide)) hp)).trans (congrArg _ ?_)
      rw [answered, hw]
      rfl
    · refine (nacks.trans (onResponse_taken _ _ (first hop (by decide)) hp)).trans (congrArg _ ?_)
      rw [refused, hw]
      rfl
    · refine (nacks.trans (onResponse_taken _ _ (first hop (by decide)) hp)).trans (congrArg _ ?_)
      rw [refused, hw]
      rfl

end Sys2Proof.Proofs
end

section
/-! PROOFS. Reductions (R384 to R390): contributions, replies, requests to send again, the timers of open reductions, group commands. -/

namespace Sys2Proof.Proofs

open Sys2Proof Sys2Proof.Machine

/-! ## Requests that reach nothing an arbiter serves -/

theorem ingress_unreached {s : State} {p : Packet} (i : Nat) (h : pktReach s p = none) : ingress s i p = (true, s) := by
  rw [ingress, h]
  exact ite_self _

/-- Combining packets name neither memory nor a counter. -/
theorem pktReach_combining (s : State) {p : Packet} (h : 6 ≤ p.op) : pktReach s p = none := by
  have other {n : Nat} (hn : n < 6) : ¬ p.op = n := Nat.ne_of_gt (Nat.lt_of_lt_of_le hn h)
  rw [pktReach]
  exact (if_neg (other (by decide))).trans ((if_neg (other (by decide))).trans ((if_neg (other (by decide))).trans
    ((if_neg (other (by decide))).trans (if_neg (other (by decide))))))

theorem onRequest_combining {s : State} {i op : Nat} {p : Packet} (f : State → Packet → State) (h : rxFirst s i op = some p) (hl : LaneFree s p)
    (hop : 6 ≤ p.op) : onRequest s i op f = .next (f s p) := by
  simp only [onRequest, h, laneParked_iff.mpr hl, ingress_unreached i (pktReach_combining s hop), Bool.false_eq_true, if_false]

/-! ## Contributions (R387) -/

/-- The contributor is the member of the group that it says it is. -/
def redMember (s : State) (p : Packet) (x : Group) : Prop :=
  p.pre.getD 0 0 < x.nmem ∧ memberOf s x (p.pre.getD 0 0) = p.spkg ∧ p.pre.getD 1 0 = x.nmem

/-- The open reduction that a contribution belongs to. -/
def redOpen (s : State) (p : Packet) : Option Red := s.hub.reds.find? fun r => r.group == redGroup p && r.ggen == p.ggen && r.seq == redSeq p

/-- A contribution holds whole elements, none past the end of its reduction. -/
def redFits (p : Packet) : Prop :=
  p.data.length % redElem (bits p.aux 22 21) = 0 ∧ redFirst p * redElem (bits p.aux 22 21) + p.data.length ≤ 4 * p.pre.getD 2 0

/-- An element of a contribution has come before. -/
def redRepeats (p : Packet) (r : Red) : Prop :=
  ∃ e ∈ r.parts, e.1 = p.pre.getD 0 0 ∧ e.2.1 < redFirst p + p.data.length / redElem (bits p.aux 22 21) ∧
    redFirst p < e.2.1 + e.2.2.length / redElem (bits p.aux 22 21)

/-- What no decision log keeps back: an arbiter serves the floating reductions of mode ARRIVAL (R424). -/
def redFree (s : State) (p : Packet) : Prop := rplMode s = 0 ∨ bits p.aux 20 19 ≠ 1 ∨ 1 < bits p.aux 22 21

/-- The reduction that a first contribution opens. -/
def redBegun (s : State) (p : Packet) : Red := ⟨redGroup p, p.ggen, redSeq p, redForm p, [], [], s.dev, false⟩

/-- What becomes of a contribution that fits, by the reduction it belongs to and the entries it needs. -/
def redEnters (s : State) (i : Nat) (p : Packet) (x : Group) (need : Nat) : State :=
  let was := redOpen s p
  if entriesUsed s + need > 8192 then redNack (hubCount (rxTake s i) 2008 1) p 0xFF
  else
    let (go, s) := if bits p.aux 20 19 = 1 && bits p.aux 22 21 ≤ 1 then rplGate s x.asid (0x3000 + redGroup p) (redCands s p) (p.pre.getD 0 0 % 16) else (true, s)
    if !go then s else
    let s := rxTake s i
    match was with
    | some r => takePart s r p
    | none => takePart (modHub s fun h => { h with reds := h.reds ++ [redBegun s p] }) (redBegun s p) p

/-- What becomes of a member's contribution whose SEQ is open. -/
def redChecked (s : State) (i : Nat) (p : Packet) (x : Group) : State :=
  if (match redOpen s p with | some r => r.form != redForm p | none => false) || !(p.data.length % redElem (bits p.aux 22 21) == 0 &&
      decide (redFirst p * redElem (bits p.aux 22 21) + p.data.length ≤ 4 * p.pre.getD 2 0)) then redNack (rxTake s i) p 0x01
  else if (match redOpen s p with
      | some r => r.parts.any fun (c, f, b) => c == p.pre.getD 0 0 &&
          decide (f < redFirst p + p.data.length / redElem (bits p.aux 22 21)) && decide (redFirst p < f + b.length / redElem (bits p.aux 22 21))
      | none => false) then
    hubCount (rxTake s i) 2005 1
  else redEnters s i p x (if (redOpen s p).isSome then 0 else entriesOf (bits p.aux 22 21) (p.pre.getD 2 0))

section Contribution

variable {s : State} {i : Nat} {p : Packet} {x : Group}

theorem redMember_iff : (decide (p.pre.getD 0 0 ≥ x.nmem) || memberOf s x (p.pre.getD 0 0) != p.spkg || p.pre.getD 1 0 != x.nmem) = true ↔ ¬ redMember s p x := by
  simp only [redMember, Bool.or_eq_true, decide_eq_true_eq, bne_iff_ne]
  omega

theorem redFits_iff : (p.data.length % redElem (bits p.aux 22 21) == 0 &&
    decide (redFirst p * redElem (bits p.aux 22 21) + p.data.length ≤ 4 * p.pre.getD 2 0)) = true ↔ redFits p := by
  simp only [redFits, Bool.and_eq_true, beq_iff_eq, decide_eq_true_eq]

theorem redRepeats_iff (r : Red) : (r.parts.any fun (c, f, b) => c == p.pre.getD 0 0 &&
      decide (f < redFirst p + p.data.length / redElem (bits p.aux 22 21)) && decide (redFirst p < f + b.length / redElem (bits p.aux 22 21))) = true ↔
    redRepeats p r := by
  simp only [redRepeats, List.any_eq_true, Bool.and_eq_true, beq_iff_eq, decide_eq_true_eq, and_assoc]

theorem redGate_free (hf : redFree s p) (asid arb mask mine : Nat) :
    (if bits p.aux 20 19 = 1 && bits p.aux 22 21 ≤ 1 then rplGate s asid arb mask mine else (true, s)) = (true, s) := by
  by_cases hm : rplMode s = 0
  · rw [rplGate_off s asid arb mask mine hm]
    exact ite_self _
  · refine if_neg ?_
    simp only [Bool.and_eq_true, decide_eq_true_eq]
    have h := hf.resolve_left hm
    omega

theorem redEnters_full {need : Nat} (h : 8192 < entriesUsed s + need) : redEnters s i p x need = redNack (hubCount (rxTake s i) 2008 1) p 0xFF := if_pos h

theorem redChecked_unfit (h : ¬ redFits p) : redChecked s i p x = redNack (rxTake s i) p 0x01 := by
  refine if_pos ?_
  rw [Bool.or_eq_true, Bool.not_eq_true']
  exact .inr (Bool.eq_false_iff.mpr (mt redFits_iff.mp h))

theorem redChecked_form {r : Red} (ho : redOpen s p = some r) (h : r.form ≠ redForm p) : redChecked s i p x = redNack (rxTake s i) p 0x01 := by
  refine if_pos ?_
  rw [Bool.or_eq_true, ho]
  exact .inl (bne_iff_ne.mpr h)

theorem redChecked_begins (hf : redFits p) (ho : redOpen s p = none) :
    redChecked s i p x = redEnters s i p x (entriesOf (bits p.aux 22 21) (p.pre.getD 2 0)) := by
  rw [redChecked, redFits_iff.mpr hf, ho]
  rfl

section Joins

variable {r : Red} (hf : redFits p) (ho : redOpen s p = some r) (h : r.form = redForm p)

include hf ho h

theorem redChecked_repeats (ha : redRepeats p r) : redChecked s i p x = hubCount (rxTake s i) 2005 1 := by
  rw [redChecked, redFits_iff.mpr hf, ho]
  exact (if_neg (by simp [h])).trans (if_pos ((redRepeats_iff r).mpr ha))

theorem redChecked_joins (ha : ¬ redRepeats p r) : redChecked s i p x = redEnters s i p x 0 := by
  rw [redChecked, redFits_iff.mpr hf, ho]
  exact (if_neg (by simp [h])).trans (if_neg (mt (redRepeats_iff r).mp ha))

end Joins

section Enters

variable {need : Nat} (h : entriesUsed s + need ≤ 8192) (hf : redFree s p)

include h hf

theorem redEnters_open {r : Red} (ho : redOpen s p = some r) : redEnters s i p x need = takePart (rxTake s i) r p := by
  rw [redEnters, if_neg (Nat.not_lt.mpr h), redGate_free hf, ho]
  rfl

theorem redEnters_begins (ho : redOpen s p = none) :
    redEnters s i p x need = takePart (modHub (rxTake s i) fun h => { h with reds := h.reds ++ [redBegun s p] }) (redBegun s p) p := by
  rw [redEnters, if_neg (Nat.not_lt.mpr h), redGate_free hf, ho]
  rfl

end Enters

variable (first : rxFirst s i 6 = some p) (hl : LaneFree s p) (hop : p.op = 6)

include first hl hop

theorem execRed_unknown (hg : groupAt s (redGroup p) = none) : execRed i s = .next (hubCount (rxTake s i) 2003 1) := by
  refine (onRequest_combining _ first hl hop.ge).trans (congrArg _ ?_)
  dsimp only
  rw [hg]

variable (hg : groupAt s (redGroup p) = some x)

include hg

theorem execRed_stale (h : x.valid = false ∨ x.gen ≠ p.ggen) : execRed i s = .next (hubCount (rxTake s i) 2003 1) := by
  refine (onRequest_combining _ first hl hop.ge).trans (congrArg _ ?_)
  dsimp only
  rw [hg]
  exact if_pos (by simpa using h)

variable (hv : x.valid = true) (hn : x.gen = p.ggen)

include hv hn

theorem execRed_stranger (h : ¬ redMember s p x) : execRed i s = .next (hubCount (rxTake s i) 2004 1) := by
  refine (onRequest_combining _ first hl hop.ge).trans (congrArg _ ?_)
  dsimp only
  rw [hg]
  exact (if_neg (by simp [hv, hn])).trans (if_pos (redMember_iff.mpr h))

variable (hm : redMember s p x)

include hm

theorem execRed_closed (h : seqClosed x (redSeq p) = true) :
    execRed i s = .next (redAnswer (rxTake s i) 0x23 1 p.spkg p.tag p.ggen (missing x.nmem (4 * p.pre.getD 2 0) [] true)) := by
  refine (onRequest_combining _ first hl hop.ge).trans (congrArg _ ?_)
  dsimp only
  rw [hg]
  exact (if_neg (by simp [hv, hn])).trans ((if_neg (mt redMember_iff.mp (not_not_intro hm))).trans (if_pos h))

variable (hc : seqClosed x (redSeq p) = false)

include hc

theorem execRed_checked : execRed i s = .next (redChecked s i p x) := by
  refine (onRequest_combining _ first hl hop.ge).trans (congrArg _ ?_)
  dsimp only
  rw [hg]
  refine (if_neg (by simp [hv, hn])).trans ((if_neg (mt redMember_iff.mp (not_not_intro hm))).trans (if_neg (Bool.eq_false_iff.mp hc)))

end Contribution

/-! ## Replies and requests to send again (R277, R390) -/

theorem redReply_late {s : State} {q : Pend} (code off : Nat) (p : Packet) (h : redCmd s q = none) : redReply code off s p q = hubCount s 2007 1 := by
  rw [redReply, h]

/-- What a REREQ of this package asks for. -/
def rereqAsks (p : Packet) (x : Cmd) : Bool :=
  x.op == 7 && x.started && x.drop == 0 && !x.prog.isEmpty && bits x.len 47 34 == p.spkg && bits x.len 33 22 == redGroup p &&
    bits x.len 21 14 == p.ggen && bits x.len 63 48 == redSeq p && bits x.aux 31 0 == bits p.addr 31 0

/-- A core's first `rred` that a REREQ asks for is sent again. -/
def rereqCore (p : Packet) (u : State) (e : Nat × Core) : State :=
  match (coreAt u e.1).f.cmds.find? (rereqAsks p) with
  | some x => rredAgain u e.1 x
  | none => u

theorem execRereq_sends {s : State} {i : Nat} {p : Packet} (first : rxFirst s i 7 = some p) (hl : LaneFree s p) (hop : p.op = 7) :
    execRereq i s = .next (s.cores.foldl (rereqCore p) (rxTake s i)) := by
  refine (onRequest_combining _ first hl (hop.ge.trans' (by decide))).trans (congrArg _ ?_)
  dsimp only
  refine congrArg (fun f => s.cores.foldl f (rxTake s i)) (funext fun u => funext fun e => ?_)
  change (match (coreAt u e.1).f.cmds.find? (rereqAsks p) with | none => u | some x => rredAgain u e.1 x) = rereqCore p u e
  unfold rereqCore
  cases (coreAt u e.1).f.cmds.find? (rereqAsks p) with
  | none => rfl
  | some x => rfl

theorem foldl_stays_mem {α β : Type} (f : β → α → β) (s : β) (l : List α) (h : ∀ a ∈ l, f s a = s) : l.foldl f s = s := by
  induction l with
  | nil => rfl
  | cons a l ih =>
    rw [List.foldl_cons, h a List.mem_cons_self]
    exact ih fun b hb => h b (List.mem_cons_of_mem a hb)

theorem rredAgain_sends {u v : State} {n : Nat} {x : Cmd} {b : List Byte}
    (h : endTake u x n (asidOf (coreAt u n)) x.sk x.src 0 (4 * bits x.len 13 0) rRED = .ok (b, v)) : rredAgain u n x = redSend v n x b (x.prog.getD 0 0) := by
  simp only [rredAgain, h]

/-! ## Open reductions (R390) -/

section Timers

variable {s : State} {i : Nat} {r : Red} (h : s.hub.reds[i]? = some r)

include h

theorem execPtmoExpiry_over (ht : r.t0 + ptmoOf s r ≤ s.dev) : execPtmoExpiry i s = .next (releaseRed s r false) := by
  rw [execPtmoExpiry, h]
  exact if_pos ht

theorem execPtmoExpiry_before (ht : s.dev < r.t0 + ptmoOf s r) : execPtmoExpiry i s = .next s := by
  rw [execPtmoExpiry, h]
  exact if_neg (Nat.not_le.mpr ht)

theorem execPtmoHalfRereq_waits (ht : r.asked = true ∨ s.dev < r.t0 + ptmoOf s r / 2) : execPtmoHalfRereq i s = .next s := by
  rw [execPtmoHalfRereq, h]
  exact if_pos (by simpa using ht)

theorem execPtmoHalfRereq_asks {x : Group} (ha : r.asked = false) (ht : r.t0 + ptmoOf s r / 2 ≤ s.dev) (hx : groupAt s r.group = some x) :
    execPtmoHalfRereq i s = .next (((upTo r.n).filter fun k => !r.arrived.contains k).foldl (fun u k => hubSend u
      { dpkg := memberOf u x k, spkg := pkgNo u, lane := 0, hop := 0, rsp := false, op := 0x07, len := 1, key := 0, addr := r.group * 2 ^ 32 + k,
        tag := 0, ggen := r.ggen, aux := r.seq, pre := [], data := [], port := 999 })
      (modHub s fun h => { h with reds := setAt h.reds i { r with asked := true } })) := by
  rw [execPtmoHalfRereq, h]
  dsimp only
  rw [if_neg (by simpa [ha] using ht), hx]

theorem execCombiningUncorrectable_releases : execCombiningUncorrectable i s = .next (releaseRed (hubCount s 2006 1) r true) := by
  rw [execCombiningUncorrectable, h]

end Timers

/-! ## Where the group table stands: no reply moves it -/

/-- The base of the group table (R384). -/
def gtabReg (s : State) : Word := barRd s 0x00030018

theorem gtabReg_hubCount (s : State) (k n : Nat) : gtabReg (hubCount s k n) = gtabReg s := by
  unfold hubCount
  split
  · rfl
  · dsimp only
    split
    · exact setHealth_keeps _ _ (by decide)
    · rfl

/-- What a routed packet leaves keeps the base. -/
def keepsGtab (s : State) : Routed → Prop
  | .sent t => gtabReg t = gtabReg s
  | _ => True

theorem keepsGtab_routeOut (s : State) (p : Packet) : keepsGtab s (routeOut s p) := by
  unfold routeOut
  split
  · trivial
  · split
    · trivial
    · split
      · trivial
      · rfl

theorem keepsGtab_deliver (s : State) (p : Packet) : keepsGtab s (deliver s p) := by
  unfold deliver
  split
  · rfl
  · split
    · exact keepsGtab_routeOut s p
    · split
      · dsimp only [keepsGtab]
        split
        · exact gtabReg_hubCount ..
        · rfl
      · exact keepsGtab_routeOut s p

theorem gtabReg_sendRsp (s : State) (p : Packet) : gtabReg (sendRsp s p) = gtabReg s := by
  have h := keepsGtab_deliver s p
  unfold sendRsp
  split
  next hd =>
    rw [hd] at h
    exact h
  · exact gtabReg_hubCount ..
  · exact gtabReg_hubCount ..

theorem gtabReg_redAnswer (s : State) (op unit pkg tag ggen : Nat) (b : List Byte) : gtabReg (redAnswer s op unit pkg tag ggen b) = gtabReg s :=
  foldl_keeps gtabReg _ (fun _ _ => gtabReg_sendRsp ..) _ s

theorem gtabReg_closeSeq (s : State) (g seq : Nat) : gtabReg (closeSeq s g seq) = gtabReg s := by
  unfold closeSeq
  split
  · rfl
  · dsimp only
    split
    · rfl
    · split
      · rfl
      · rfl

theorem gtabReg_releaseRed (s : State) (r : Red) (all : Bool) : gtabReg (releaseRed s r all) = gtabReg s :=
  (foldl_keeps gtabReg _ (fun _ _ => gtabReg_redAnswer ..) _ _).trans (gtabReg_closeSeq ..)

/-! ## Group commands (R385) -/

/-- Every open reduction of a group released. -/
def groupReleased (s : State) (g : Nat) : State := (s.hub.reds.filter fun r => r.group == g).foldl (fun u r => releaseRed u r false) s

theorem gtabEntry_groupReleased (s : State) (g : Nat) : gtabEntry (groupReleased s g) g = gtabEntry s g :=
  congrArg (fun w : Word => w.toNat + 32 * g) (foldl_keeps gtabReg _ (fun _ _ => gtabReg_releaseRed ..) _ s)

theorem groupReleased_closed {s : State} {g : Nat} (h : ¬ ∃ r, r ∈ s.hub.reds ∧ r.group = g) : groupReleased s g = s := by
  have none : (s.hub.reds.filter fun r => r.group == g) = [] :=
    List.filter_eq_nil_iff.mpr fun r hr hg => h ⟨r, hr, beq_iff_eq.mp hg⟩
  rw [groupReleased, none]
  rfl

section Command

variable {s : State} {g : Nat}

theorem grpSet_beyond (h : 4096 ≤ g) : grpSet g s = groupDone s 2 g 0 1 := if_pos h

theorem grpClear_beyond (h : 4096 ≤ g) : grpClear g s = groupDone s 3 g 0 1 := if_pos h

/-- A changed GEN comes before twice FAB_MAXLAT has passed (R385). -/
def grpEarly (s : State) (g : Nat) : Prop := ∃ x, groupAt s g = some x ∧ x.gen ≠ bits (memNat s (gtabEntry s g) 8) 62 55 ∧ s.dev < x.genAt + 2 * maxLat s

theorem grpEarly_iff : (match groupAt s g with
    | some x => x.gen != bits (memNat s (gtabEntry s g) 8) 62 55 && decide (s.dev < x.genAt + 2 * maxLat s)
    | none => false) = true ↔ grpEarly s g := by
  unfold grpEarly
  cases groupAt s g with
  | none => simp
  | some x => simp

theorem grpSet_refused (hg : g < 4096) (h : grpEarly s g ∨ ∃ r, r ∈ s.hub.reds ∧ r.group = g) :
    grpSet g s = groupDone s 2 g (bits (memNat s (gtabEntry s g) 8) 54 41) 2 := by
  refine (if_neg (Nat.not_le.mpr hg)).trans (if_pos ?_)
  rw [Bool.or_eq_true]
  exact h.imp grpEarly_iff.mpr fun ⟨r, hr, e⟩ => List.any_eq_true.mpr ⟨r, hr, beq_iff_eq.mpr e⟩

/-- The entry of a group as the driver has written it (R384). -/
def groupWritten (s : State) (g : Nat) : Group :=
  let a := gtabEntry s g
  let w := memNat s a 8
  ⟨bit w 63, bits w 62 55, bits w 54 41, bits w 40 21, bits (memNat s (a + 8) 8) 38 0, bits (memNat s (a + 16) 8) 31 0, s.dev, 0, 0⟩

theorem grpSet_taken (hg : g < 4096) (he : ¬ grpEarly s g) (ho : ¬ ∃ r, r ∈ s.hub.reds ∧ r.group = g) : grpSet g s =
    groupDone (putClosed (modHub s fun h => { h with groups := spSet h.groups g (groupWritten s g) }) g 0 0) 2 g (groupWritten s g).asid 0 := by
  refine (if_neg (Nat.not_le.mpr hg)).trans (if_neg ?_)
  rw [Bool.or_eq_true]
  exact fun h => h.elim (fun h => he (grpEarly_iff.mp h)) fun h => ho ((List.any_eq_true.mp h).imp fun _ e => ⟨e.1, beq_iff_eq.mp e.2⟩)

theorem grpClear_within (hg : g < 4096) {u : State} (hu : groupReleased s g = u) {a v : Nat} (ha : gtabEntry s g = a) (hv : memNat u a 8 = v) :
    grpClear g s = groupDone (modHub (memSetNat u a 8 (v % 2 ^ 63)) fun h => { h with groups := match spFind h.groups g with
      | some x => spSet h.groups g { x with valid := false, genAt := u.dev }
      | none => h.groups }) 3 g (bits v 54 41) 0 := by
  subst hu hv
  rw [← ha, ← gtabEntry_groupReleased]
  exact if_neg (Nat.not_le.mpr hg)

end Command

/-! ## O48 -/

/-- Settles O48: a contribution by the checks of R387 in their order; replies and requests by what waits for them; the timers by the
reduction they are of; the group commands by the bound, the entries that are open and the table's base, which no release moves. -/
theorem reductions : Obligations.Reductions := by
  unfold Obligations.Reductions
  refine ⟨fun s i p hx ho => ?arrivals, fun s i r h => ?timers, fun s g hr => ?commands⟩
  case arrivals =>
    intro out g first k fm es nack
    have request {op : Nat} (hop : p.op = op) (hrsp : p.rsp = false) (h : op < 0x20) : rxFirst s i op = some p :=
      rxFirst_oldest hx hop (.inr (hrsp.trans (decide_eq_false (Nat.not_le.mpr h)).symm)) ho
    have response {op : Nat} (hop : p.op = op) (hrsp : p.rsp = true) (h : 0x20 ≤ op) : rxFirst s i op = some p :=
      rxFirst_oldest hx hop (.inr (hrsp.trans (decide_eq_true h).symm)) ho
    have results : exec (.result i) s = onResponse s i 0x22 (fun s _ => hubCount s 2007 1) (fun s p q =>
      match redCmd s q with
      | some x => redReply 0 (p.addr * redElem (bits x.red 6 5)) s p q
      | none => hubCount s 2007 1) := rfl
    have partials : exec (.partialRelease i) s = onResponse s i 0x23 (fun s _ => hubCount s 2007 1) (fun s p q => redReply 6 p.addr s p q) := rfl
    refine ⟨fun hop hrsp hl => ?red, fun hrsp => ?late, fun q x hrsp hp hq => ⟨fun hop => ?_, fun hop => ?_⟩, fun hop hrsp hl => ?rereq⟩
    case red =>
      have hf := request hop hrsp (by decide)
      refine ⟨fun hg => execRed_unknown hf hl hop hg, fun x hg => ⟨fun h => execRed_stale hf hl hop hg h, fun hv hn => ?_⟩⟩
      intro member mine fits
      refine ⟨fun hm => execRed_stranger hf hl hop hg hv hn hm, fun hm hc => execRed_closed hf hl hop hg hv hn hm hc, fun hm hc => ?_⟩
      intro again free
      have go : exec (.red i) s = .next (redChecked s i p x) := execRed_checked hf hl hop hg hv hn hm hc
      have hr : redOpen s p = mine := rfl
      refine ⟨fun h => go.trans (congrArg _ (redChecked_unfit h)), fun r h hd => go.trans (congrArg _ (redChecked_form (hr.trans h) hd)),
        fun r hfit h hd ha => go.trans (congrArg _ (redChecked_repeats hfit (hr.trans h) hd ha)), fun r hfit h hd ha hu hfr => ?_,
        fun hfit h hu => ?_, fun hfit h hu hfr => ?_⟩
      · exact go.trans (congrArg _ ((redChecked_joins hfit (hr.trans h) hd ha).trans (redEnters_open hu hfr (hr.trans h))))
      · exact go.trans (congrArg _ ((redChecked_begins hfit (hr.trans h)).trans (redEnters_full hu)))
      · exact go.trans (congrArg _ ((redChecked_begins hfit (hr.trans h)).trans (redEnters_begins hu hfr (hr.trans h))))
    case late =>
      simp only [List.forall_mem_cons]
      refine ⟨fun hop => ⟨fun hp => results.trans (onResponse_late _ _ (response hop hrsp (by decide)) hp), fun q hp hq => ?_⟩,
        fun hop => ⟨fun hp => partials.trans (onResponse_late _ _ (response hop hrsp (by decide)) hp), fun q hp hq => ?_⟩, by simp⟩
      · refine (results.trans (onResponse_taken _ _ (response hop hrsp (by decide)) hp)).trans (congrArg _ ?_)
        have hq' : redCmd (rxTake s i) q = none := hq
        rw [hq']
        rfl
      · exact (partials.trans (onResponse_taken _ _ (response hop hrsp (by decide)) hp)).trans (congrArg _ (redReply_late 6 p.addr p hq))
    · refine (results.trans (onResponse_taken _ _ (response hop hrsp (by decide)) hp)).trans (congrArg _ ?_)
      have hq' : redCmd (rxTake s i) q = some x := hq
      rw [hq']
      rfl
    · exact partials.trans (onResponse_taken _ _ (response hop hrsp (by decide)) hp)
    case rereq =>
      intro asks
      have go : exec (.rereq i) s = .next (s.cores.foldl (rereqCore p) out) := execRereq_sends (request hop hrsp (by decide)) hl hop
      refine ⟨go, fun h => go.trans (congrArg _ (foldl_stays_mem _ out _ fun e he => ?_)), fun u n x b v h => rredAgain_sends h⟩
      have none : (coreAt out e.1).f.cmds.find? (rereqAsks p) = none := List.find?_eq_none.mpr fun x hx => Bool.eq_false_iff.mp (h e he x hx)
      rw [rereqCore, none]
  case timers =>
    exact ⟨execPtmoExpiry_over h, execPtmoExpiry_before h, execPtmoHalfRereq_waits h, fun x ha ht hx => execPtmoHalfRereq_asks h ha ht hx,
      execCombiningUncorrectable_releases h⟩
  case commands =>
    intro done a w early opened x
    have sets (h : s.hub.cmd = none) : exec (.grpSet g) s = .next (grpSet g s) := congrArg _ (hubCmd_free hr h ..)
    have clears (h : s.hub.cmd = none) : exec (.grpClear g) s = .next (grpClear g s) := congrArg _ (hubCmd_free hr h ..)
    refine ⟨fun h hg => ⟨(sets h).trans (congrArg _ (grpSet_beyond hg)), (clears h).trans (congrArg _ (grpClear_beyond hg))⟩,
      fun h hg hc => (sets h).trans (congrArg _ (grpSet_refused hg hc)), fun h hg he hc => (sets h).trans (congrArg _ (grpSet_taken hg he hc)),
      fun h hg => ?_⟩
    intro u v
    have go := (clears h).trans (congrArg _ (grpClear_within (u := u) (a := a) (v := v) hg rfl rfl rfl))
    refine ⟨groupReleased_closed, fun x hx => go.trans ?_, fun hx => go.trans ?_⟩
    all_goals
      have hx' : spFind (memSetNat u a 8 (v % 2 ^ 63)).hub.groups g = _ := hx
      rw [modHub, hx']
      rfl

end Sys2Proof.Proofs
end
